-- ==== Sys2Proof/Word.lean ====
section
/-! DEFINITION. The plain number and word types of the ZV48 model (R3, R4): bytes, register words,
and the unit indices of Tables 1.1 and 21.2. -/
namespace Sys2Proof

/-- One byte. -/
abbrev Byte := BitVec 8
/-- One 32-bit register word. -/
abbrev Word := BitVec 32
/-- Global tile index (R11): 4 dies of 96 crates of 64 tiles. -/
abbrev TileId := Fin 24576
/-- Global crate index 96k + c (R63). -/
abbrev CrateId := Fin 384
/-- Tensor die Tk. -/
abbrev DieId := Fin 4
/-- Home slice, two per stack (Table 1.3). -/
abbrev HomeId := Fin 40
/-- HBM4 stack. -/
abbrev StackId := Fin 20
/-- Cellar channel 32s + c (Table 21.2). -/
abbrev ChannelId := Fin 640
/-- Seam bundle (R17). -/
abbrev BundleId := Fin 68
/-- Fabric port P0 to P15. -/
abbrev PortId := Fin 16
/-- Host port, 0 = A and 1 = B. -/
abbrev HostPortId := Fin 2
/-- Command ring of a host port. -/
abbrev RingId := Fin 16
/-- Host core. -/
abbrev CoreId := Fin 96
/-- Switched power domain (Table 16.10). -/
abbrev DomainId := Fin 30
/-- Collective engine, 0 = N and 1 = S. -/
abbrev CollId := Fin 2
/-- Engine of a tile: 0 matrix, 1 vector, 2 mover. -/
abbrev EngineId := Fin 3

end Sys2Proof
end

