-- ==== Sys2Proof/Syntax.lean ====
section
/-! DEFINITION. The commands of the ZV48 block model: one constructor per row of the spec's table of operations and
events, with the operands that the row's step takes from outside the state. -/
namespace Sys2Proof.Machine

/-- Where a register write comes from (Table 23.1, R593). -/
inductive Src where
  | hostCore (c : CoreId)
  | hostPort (p : HostPortId)
  | mgmt
  | tile (t : TileId)
  deriving DecidableEq, Repr

/-- A tally (Table 8.1): of a tile, a crate, a die or the package. -/
inductive TallyLoc where
  | tile (t n : Nat)
  | crate (c n : Nat)
  | die (k n : Nat)
  | pkg (n : Nat)
  deriving DecidableEq, Repr

/-- A Grenlink packet (Table 13.5): the header's fields, its payload and the payload's CRC-32C. HCRC and the reserved bits
are `hdrOk`: whether they check. -/
structure Packet where
  dest : Nat
  src : Nat
  vc : Nat
  type : Nat
  job : Nat
  hatch : Nat
  off : Nat
  len : Nat
  opc : Nat
  hops : Nat
  step : Nat
  tag : Nat
  tally : Nat
  arr : Bool
  status : Nat
  payload : List Byte
  crc : Word
  hdrOk : Bool
  /-- It came in the upper half of its virtual channel's credits (R361); no part of the header. -/
  upper : Bool
  deriving DecidableEq, Repr

/-- A word of the tally registers that configures firings: TARGET, FAN_IDX, the enables, UP or a member mask (R235). -/
inductive TallyCfg where
  /-- Configuration word `i` of a tally. A crate tally has words 0 (TARGET to MASK_SEL) and 1 (UP), a die tally word 0, a
  package tally words 0 to 2 (Tables 8.8, 8.11, 8.12). -/
  | word (l : TallyLoc) (i : Nat)
  /-- Word `i` of CRATE.TLY_MASK[m] (Table 8.9). -/
  | crateMask (c : CrateId) (m : Fin 8) (i : Fin 2)
  /-- Word `i` of TLY.DIE_MASK[k][m] (Table 8.10). -/
  | dieMask (k : DieId) (m : Fin 8) (i : Fin 3)
  deriving DecidableEq, Repr

/-- What a port's partner shows while the port trains (Table 13.3): the majors and the minor of its version words, the lanes that
pass in both directions, its place address, its fence word and its credits. -/
structure TrainEnv where
  major : Nat
  lowest : Nat
  good : BitVec 4
  place : Word
  mode : Nat
  job : Nat
  /-- The credits of each virtual channel, VC 0 first. -/
  credits : List Nat
  deriving DecidableEq, Repr

/-- A Grenlink flit as it is received (R353): good, with the FEC symbols corrected, its packet bytes, how many of this port's oldest
packets the partner's acknowledgement has freed, the packets of VC 7 that it ends, and the credits it gives back (pairs of a pool, twice
the VC and one more for the upper half, and an amount); or bad, with the lanes that an uncorrectable
codeword names (none when only the CRC-32 failed) and the number of later flits replayed with it. -/
inductive FlitRx where
  | good (corrected bytes freed spare : Nat) (credits : List (Nat × Nat))
  | bad (uncorrectable : Bool) (lanes : List (Fin 4)) (later : Nat)
  deriving DecidableEq, Repr

/-- A message or eviction that its receiver takes, by its place among those on their way, and the bursts of the line (bit 0 and bit 1) that
prove uncorrectable in the cache that gives the line's data (R295). -/
structure LineTaken where
  n : Nat
  err : Nat
  deriving DecidableEq, Repr

/-- How a host's BAR access arrived (R419, R420): outside every IDE stream, in stream `i`, or in stream `i` with an integrity check
that fails. -/
inductive Ide where
  | clear
  | secure (i : Fin 4)
  | corrupt (i : Fin 4)
  deriving DecidableEq, Repr

/-- A configuration request of a host (Table 14.1, R389, R392, R393, R418): a read, the BARs' bases, BAR2's resized size (0 = 64 GiB to
4 = 1 TiB), Memory Space Enable and Bus Master Enable, the power state, the MSI-X enable and function mask, and address-association block `b`
of IDE stream `i`, from its base to its limit (R419). -/
inductive CfgReq where
  | read
  | bar0 (base : Nat)
  | bar2 (base : Nat)
  | bar2Size (code : Fin 5)
  | command (mse bme : Bool)
  | power (d3hot : Bool)
  | msix (enable mask : Bool)
  | ideAssoc (i : Fin 4) (b : Fin 2) (base limit : Nat)
  deriving DecidableEq, Repr

/-- A message on a port's DOE mailbox (R419): SPDM, or an IDE_KM key message that makes stream `i` Secure or ends it, inside an SPDM
secure session or not. -/
inductive DoeReq where
  | spdm (msg : List Byte)
  | ideKm (i : Fin 4) (secure inSession : Bool)
  deriving DecidableEq, Repr

/-- What the controller proposes at an interval boundary (R467), in units of 0.125 W: estimates and budgets of the 19 groups, groups
held below their request, the share of NEED_T by quadrant; issue limit and frequency of crates, crates without work, frequencies of
cores, the ceiling in percent, AVS setpoints in mV by die (4 is the host die), and the groups' estimates for the coming interval under
these settings. -/
structure GovStep where
  est : List Nat
  budgets : List Nat
  low : List Nat
  share : List Nat
  crates : List (Nat × Nat × Nat)
  off : List Nat
  cores : List (Nat × Nat)
  ceil : Nat
  volts : List (Nat × Nat)
  coming : List Nat
  deriving DecidableEq, Repr

/-- A temperature sensor of R480 and R481: of a crate, of a host cluster, or of an I/O die (0 = N, 1 = S). -/
inductive HeatSensor where
  | crate (c : CrateId)
  | cluster (n : Fin 12)
  | ioDie (i : Fin 2)
  deriving DecidableEq, Repr

/-- An ageing monitor (R482): of a tile or of a host core. -/
inductive AgeSensor where
  | tile (t : TileId)
  | core (c : CoreId)
  deriving DecidableEq, Repr

/-- What the start-up firmware or the resident driver puts into each tile (R525): the scratch ways it locks, TILE.CODE, the bytes from
scratch offset 0 on, and the pc at which the tile's idle loop waits. -/
structure TileFw where
  lock : Fin 13
  base : Fin 256
  limit : Fin 256
  bytes : List Byte
  pc : Word
  deriving DecidableEq, Repr

/-- A self-test slice of a start that failed twice (R575): its kind and unit, its signature and the expected value, and what failed in the
unit: (direction, lane) of a bundle, (0, lane) of a port, (0, core) of a cluster. -/
structure SliceFail where
  kind : Fin 5
  index : Nat
  sig : BitVec 64
  expected : BitVec 64
  bad : List (Nat × Nat)
  deriving DecidableEq, Repr

/-- The lanes and clocks of a bundle that fail their test in seam training: A to B, then B to A. -/
structure LaneTest where
  b : BundleId
  ab : List (Fin 68)
  ba : List (Fin 68)
  clkAb : List (Fin 3)
  clkBa : List (Fin 3)
  deriving DecidableEq, Repr

/-- What a start finds outside the state, stage by stage (Table 19.1): strongroom regions whose CRC fails and those whose mirror copy
passes (stage 2); lane tests (stage 5); channels that fail their training or their generator pass, and rows whose hard repair fails (stage
6); failing slices and the shelf ways that crate slices disable, as (tile, way) (stages 5 and 7); the tiles' firmware (stage 8). -/
structure StageEnv where
  badRegions : List (Fin 4)
  mirrorOk : List (Fin 4)
  lanes : List LaneTest
  channels : List ChannelId
  hardFails : List Nat
  slices : List SliceFail
  ways : List (TileId × Fin 12)
  fw : TileFw
  deriving DecidableEq, Repr

/-- A message that the APLIC sends to a core's interrupt file (R432): the source it delivers, the machine or the supervisor file, and the identity. -/
structure ApMsi where
  source : Nat
  machine : Bool
  id : Fin 256
  deriving DecidableEq, Repr

/-- One of a core's four hardware triggers (R433): what it matches and the address. -/
structure Trig where
  exec : Bool
  load : Bool
  store : Bool
  addr : Nat
  deriving DecidableEq, Repr

/-- A request through the JTAG debug transport (R433): dmactive, halting and resuming a core, its registers by abstract number, system bus
accesses to the cores' physical map, triggers and halt groups. -/
inductive DebugReq where
  | active (on : Bool)
  | halt (c : CoreId)
  | resume (c : CoreId)
  | readReg (c : CoreId) (n : Nat)
  | writeReg (c : CoreId) (n : Nat) (v : BitVec 64)
  | sbRead (a n : Nat)
  | sbWrite (a : Nat) (bs : List Byte)
  | trigger (c : CoreId) (i : Fin 4) (t : Trig)
  | group (c : CoreId) (g : Nat)
  deriving DecidableEq, Repr

end Sys2Proof.Machine

namespace Sys2Proof
open Sys2Proof.Machine

/-- The commands, one constructor per row of the table. -/
inductive Instr where
  /-- CONTROL_CORE_LOAD (R34): A control-core load reads scratch, tile registers, tallies, the crate window or the far window, or takes a load access fault. -/
  | controlCoreLoad (t : TileId)
  /-- CONTROL_CORE_STORE (R34): A control-core store writes a mapped address, or takes a store access fault and writes nothing. -/
  | controlCoreStore (t : TileId)
  /-- WFI (R70): The control core executes WFI and waits for a wake condition, a queue halt or a host write of TILE.RUN. -/
  | wfi (t : TileId)
  /-- WFI_WAKE (R70): A wake slot's tally reaches its threshold, a queue halts or TILE.RUN is written, and the waiting core resumes. -/
  | wfiWake (t : TileId)
  /-- TILE_RUN_RELEASE (R35): A write of TILE.RUN.HOLD = 0 releases the tile, or is refused and sets START_REFUSED. -/
  | tileRunRelease (src : Src) (t : TileId) (w : BitVec 32)
  /-- TILE_RUN_HOLD (R35): A write of TILE.RUN.HOLD = 1 holds the tile in reset with idle engines and empty queues. -/
  | tileRunHold (src : Src) (t : TileId) (w : BitVec 32)
  /-- TILE_CODE_WRITE (R46): A write of TILE.CODE takes effect only while the tile is held. -/
  | tileCodeWrite (src : Src) (t : TileId) (w : BitVec 32)
  /-- SHELF_APERTURE_ACCESS (R299): An access through the shelf aperture reaches a tile's scratch, or is dropped or ended with PERMISSION and counted. -/
  | shelfApertureAccess (u : TileId) (off : Nat) (write : Option (List Byte)) (n : Nat)
  /-- QUEUE_TAIL_WRITE (R37): A write of TILE.QPTR[e].TAIL hands slots to the engine, or is ignored and sets OVF. -/
  | queueTailWrite (src : Src) (t : TileId) (e : EngineId) (w : BitVec 32)
  /-- QUEUE_RESUME (R43): RESUME retires the failed slot of a halted queue and restarts at the next slot. -/
  | queueResume (src : Src) (t : TileId) (e : EngineId) (w : BitVec 32)
  /-- QUEUE_FLUSH (R43): FLUSH retires every owned slot with FLUSHED and lets a running descriptor end as R43 states. -/
  | queueFlush (src : Src) (t : TileId) (e : EngineId) (w : BitVec 32)
  /-- DESCRIPTOR_COMPLETE (R40): An engine completes a descriptor, writes its status word, increments DONE_TALLY on DONE and advances HEAD. -/
  | descriptorComplete (t : TileId) (e : EngineId)
  /-- MOVER_STRIDED (R53): The mover starts a STRIDED copy descriptor after its wait is met. -/
  | moverStrided (t : TileId)
  /-- MOVER_GATHER (R54): The mover starts a GATHER copy descriptor, reading indices in groups of 64. -/
  | moverGather (t : TileId)
  /-- MOVER_SCATTER (R56): The mover starts a SCATTER copy descriptor, applying indices to the destination. -/
  | moverScatter (t : TileId)
  /-- MOVER_CHUNK_ISSUE (R58): The mover translates and issues the next chunk of at most 4 KiB in transfer order. -/
  | moverChunkIssue (t : TileId)
  /-- CHUNK_ARRIVAL (R59): A chunk's CRC-32C is checked at its destination and the chunk is accepted or ends the transfer with CRC_MISMATCH. -/
  | chunkArrival (t : TileId) (crcOk : Bool)
  /-- SHELF_ZERO (R213): A maintenance descriptor with ACTION ZERO zeroes the lines of its range. -/
  | shelfZero (t : TileId)
  /-- SHELF_CLEAN (R213): A maintenance descriptor with ACTION CLEAN writes back Dirty and Partial lines of its range or of the whole cache. -/
  | shelfClean (t : TileId)
  /-- SHELF_INVALIDATE (R213): A maintenance descriptor with ACTION INVALIDATE discards the lines of its range or of the whole cache. -/
  | shelfInvalidate (t : TileId)
  /-- SHELF_CLEAN_INV (R213): A maintenance descriptor with ACTION CLEAN_INV writes back and then invalidates lines. -/
  | shelfCleanInv (t : TileId)
  /-- SHELF_WIPE (R213): A maintenance descriptor with ACTION WIPE zeroes every line of every enabled way. -/
  | shelfWipe (t : TileId)
  /-- MATRIX (R115): The matrix engine starts a descriptor computing C := C0 ± A × B block by block. -/
  | matrix (t : TileId) (mism : Option (Nat × Nat × Nat))
  /-- RESCUE_SECOND_PASS (R164): Under RESCUE the engine sweeps the staging lines and re-quantises C under the derived scale, or degrades. -/
  | rescueSecondPass (t : TileId) (e : Fin 2)
  /-- ISSUE_FRAME_BOUNDARY (R136): At each 16-cycle frame boundary a new issue limit k, droop or lowest-state value takes effect. -/
  | issueFrameBoundary (c : CrateId) (held : Nat)
  /-- CVT (R186): The vector engine converts X to ZFMT. -/
  | cvt (t : TileId)
  /-- CVTQ (R186): The vector engine quantises X under the output scale record. -/
  | cvtq (t : TileId)
  /-- ADD (R181): The vector engine computes Z := X + Y element by element. -/
  | vadd (t : TileId)
  /-- SUB (R181): The vector engine computes Z := X − Y. -/
  | vsub (t : TileId)
  /-- MUL (R181): The vector engine computes Z := X × Y. -/
  | vmul (t : TileId)
  /-- MAX (R182): The vector engine computes Z := max(X, Y). -/
  | vmax (t : TileId)
  /-- MIN (R182): The vector engine computes Z := min(X, Y). -/
  | vmin (t : TileId)
  /-- FMA (R181): The vector engine computes Z := X × Y + Z with one rounding. -/
  | fma (t : TileId)
  /-- AXPY (R181): The vector engine computes Z := X × S + Y. -/
  | axpy (t : TileId)
  /-- AFFINE (R181): The vector engine computes Z := X × S + S2. -/
  | affine (t : TileId)
  /-- ABS (R181): The vector engine computes Z := |X|. -/
  | vabs (t : TileId)
  /-- NEG (R181): The vector engine computes Z := −X. -/
  | vneg (t : TileId)
  /-- CMPGT (R182): The vector engine writes 1 where X > Y, else 0. -/
  | cmpgt (t : TileId)
  /-- CMPEQ (R182): The vector engine writes 1 where X = Y, else 0. -/
  | cmpeq (t : TileId)
  /-- CMPGTS (R182): The vector engine writes 1 where X > S, else 0. -/
  | cmpgts (t : TileId)
  /-- EXP (R184): The vector engine computes the exponential of X. -/
  | vexp (t : TileId)
  /-- LOG (R184): The vector engine computes the logarithm of X. -/
  | vlog (t : TileId)
  /-- RECIP (R184): The vector engine computes the reciprocal of X. -/
  | recip (t : TileId)
  /-- RSQRT (R184): The vector engine computes the reciprocal square root of X. -/
  | rsqrt (t : TileId)
  /-- TANH (R184): The vector engine computes the hyperbolic tangent of X. -/
  | tanh (t : TileId)
  /-- RSUM (R183): The vector engine sums each row of X. -/
  | rsum (t : TileId)
  /-- RSUMSQ (R183): The vector engine sums the squares of each row of X. -/
  | rsumsq (t : TileId)
  /-- RMAX (R183): The vector engine takes the maximum of each row of X. -/
  | rmax (t : TileId)
  /-- RMIN (R183): The vector engine takes the minimum of each row of X. -/
  | rmin (t : TileId)
  /-- RAMAX (R183): The vector engine takes the largest magnitude of each row of X. -/
  | ramax (t : TileId)
  /-- SCAN (R187): The vector engine computes an inclusive segmented prefix sum. -/
  | scan (t : TileId)
  /-- XSCAN (R187): The vector engine computes an exclusive segmented prefix sum. -/
  | xscan (t : TileId)
  /-- SCANMAX (R187): The vector engine computes an inclusive segmented running maximum. -/
  | scanmax (t : TileId)
  /-- TOPK (R185): The vector engine writes the K largest values of each row to Z and their indices to Y. -/
  | topk (t : TileId)
  /-- MEASURE (R197): The vector engine measures X into the summary registers and writes nothing. -/
  | measure (t : TileId)
  /-- CARRY_IN_ARRIVAL (R191): A carry arrives on the crate chain or as a record; the engine forwards its carry-out and rewrites the leading segment. -/
  | carryInArrival (t : TileId)
  /-- CHAIN_TIMEOUT (R194): A crate-chain wait exceeds TIMEOUT and the descriptor ends with ENGINE_FAULT and a BROKEN carry-out. -/
  | chainTimeout (t : TileId)
  /-- CARRY_RECORD_ARRIVAL (R192): A carry record is delivered to Q_BUF at the receiver, checked by CRC-32C, and increments CO_TALLY. -/
  | carryRecordArrival (n : Nat) (crcOk : Bool)
  /-- SCAN_MASK_WRITE (R195): A write of CRATE.SCAN_MASK takes effect only when no chained descriptor runs, else sets MASK_REFUSED. -/
  | scanMaskWrite (src : Src) (c : CrateId) (v : BitVec 64)
  /-- LFSR_WRITE (R100): A write of CRATE.LFSR[t] sets the rounding generator for the next draw; 0 is ignored. -/
  | lfsrWrite (src : Src) (t : TileId) (w : BitVec 32)
  /-- SHELF_LOCK_WRITE (R202): A LOCK write of CRATE.SHELF_CFG[t] is accepted and starts a role change, or sets REFUSED. -/
  | shelfLockWrite (src : Src) (t : TileId) (w : BitVec 32)
  /-- SHELF_LOCK_COMPLETE (R203): The shelf finishes writing back and zeroing ways that changed role and clears BUSY. -/
  | shelfLockComplete (t : TileId)
  /-- SHELF_FILL_COMPLETE (R205): A line fetched from the cellar arrives and is installed Clean or merged to Dirty. -/
  | shelfFillComplete (t : TileId)
  /-- SHELF_WAY_DISABLE (R220): A cache way's disable starts when its held lines are released, or at once for an uncorrectable error. -/
  | shelfWayDisable (t : TileId) (w : Fin 12)
  /-- SHELF_WAY_DISABLE_COMPLETE (R220): The disable walk ends, the way is invalid and its DISABLED bit is set. -/
  | shelfWayDisableComplete (t : TileId) (w : Fin 12)
  /-- SHELF_ECC_WINDOW_EXPIRY (R219): A corrected-error window closes after 2^24 tile cycles and its count returns to 0. -/
  | shelfEccWindowExpiry (t : TileId) (w : Fin 12)
  /-- SHELF_SCRUB_READ (R225): Every 1,024 tile cycles the shelf scrub reads the next line. -/
  | shelfScrubRead (t : TileId) (errs : List (Nat × Nat))
  /-- TILE_PARK (R66): A tile with PARK set becomes parked once it is idle. -/
  | tilePark (t : TileId)
  /-- TILE_UNPARK (R67): A tile leaves park, after the crate steps down to the tile's limit if needed. -/
  | tileUnpark (t : TileId)
  /-- TILE_CLOCK_GATE (R70): A tile that becomes idle gates its clock. -/
  | tileClockGate (t : TileId)
  /-- CRATE_CLOCK_OFF_REQUEST (R71): A write of CRATE.CLK.OFF requests crate clock off. -/
  | crateClockOffRequest (src : Src) (c : CrateId) (w : BitVec 32)
  /-- CRATE_CLOCK_STOP (R71): A crate with an off request stops its clock once all tiles are idle or parked. -/
  | crateClockStop (c : CrateId)
  /-- CRATE_CLOCK_WAKE (R72): Traffic held at a stopped crate's router restarts its clock and is delivered after the wake time. -/
  | crateClockWake (c : CrateId)
  /-- CRATE_CLOCK_LOST (R73): A crate clock generator fails and the crate raises 'crate clock lost'. -/
  | crateClockLost (c : CrateId)
  /-- FREQUENCY_STEP_COMPLETE (R68): A crate or core frequency step completes. -/
  | frequencyStepComplete (c : CrateId)
  /-- TALLY_VALUE_WRITE (R227): A write of a tally VALUE register sets the tally. -/
  | tallyValueWrite (src : Src) (l : TallyLoc) (w : BitVec 32)
  /-- TALLY_ADD (R227): A write to a tally ADD register adds its signed amount, clamped under R226. -/
  | tallyAdd (src : Src) (l : TallyLoc) (w : BitVec 32)
  /-- TALLY_TAKE (R227): A read of a tile tally's TAKE register returns the value and subtracts 1 if non-zero. -/
  | tallyTake (t : TileId) (n : Fin 64)
  /-- TALLY_SEND (R230): A write of TILE_TLY.SEND sends a signed amount to a tally address after earlier stores are accepted. -/
  | tallySend (t : TileId) (w : BitVec 32)
  /-- TALLY_INCREMENT_ARRIVAL (R228): An increment arrives at a tally over the sync mesh, a control bundle or Grenlink and is applied. -/
  | tallyIncrementArrival (ps : List Nat)
  /-- TALLY_FIRE (R234): A crate, die or package tally at or above TARGET fires, subtracts TARGET, advances GEN and sends its increments. -/
  | tallyFire (l : TallyLoc)
  /-- TALLY_CONFIG_WRITE (R235): A write of TARGET, FAN_IDX, enables, UP or a member mask governs later firings. -/
  | tallyConfigWrite (src : Src) (f : TallyCfg) (w : BitVec 32)
  /-- CELLAR_READ (R246): A home accepts a read of a line and returns the merged, corrected or poisoned data. -/
  | cellarRead (a n e : Nat)
  /-- CELLAR_WRITE (R249): A home accepts a write, going to the stack if it covers the line or merging into a hamper entry. -/
  | cellarWrite (n : Nat)
  /-- HAMPER_TIMEOUT (R250): A hamper entry reaches its age limit and is flushed to the stack. -/
  | hamperTimeout (h : HomeId) (line : Nat)
  /-- HAMPER_FLUSH (R252): A write of FLUSH0 or FLUSH1 flushes every entry present in that home and sets BUSY. -/
  | hamperFlush (src : Src) (st : StackId) (w : BitVec 32)
  /-- HAMPER_FLUSH_COMPLETE (R252): The last covered hamper entry is written and BUSY clears. -/
  | hamperFlushComplete (h : HomeId)
  /-- OP_INT_ADD32 (R254): An operation write with OPC 0x1 adds INT32 elements modulo 2^32. -/
  | opIntAdd32 (a : Nat) (bs : List Byte)
  /-- OP_INT_ADD64 (R254): An operation write with OPC 0x2 adds INT64 elements modulo 2^64. -/
  | opIntAdd64 (a : Nat) (bs : List Byte)
  /-- OP_FLOAT_ADD (R255): An operation write with OPC 0x3 to 0x6 adds BF16, FP16, FP32 or FP64 elements. -/
  | opFloatAdd (f : Fin 4) (a : Nat) (bs : List Byte)
  /-- OP_INT_MIN (R254): An operation write with OPC 0x7 takes the signed INT32 minimum. -/
  | opIntMin (a : Nat) (bs : List Byte)
  /-- OP_INT_MAX (R254): An operation write with OPC 0x8 takes the signed INT32 maximum. -/
  | opIntMax (a : Nat) (bs : List Byte)
  /-- OP_FLOAT_MIN (R255): An operation write with OPC 0x9 takes the FP32 minimum. -/
  | opFloatMin (a : Nat) (bs : List Byte)
  /-- OP_FLOAT_MAX (R255): An operation write with OPC 0xA takes the FP32 maximum. -/
  | opFloatMax (a : Nat) (bs : List Byte)
  /-- OP_AND (R254): An operation write with OPC 0xB ANDs bytes. -/
  | opAnd (a : Nat) (bs : List Byte)
  /-- OP_OR (R254): An operation write with OPC 0xC ORs bytes. -/
  | opOr (a : Nat) (bs : List Byte)
  /-- OP_XOR (R254): An operation write with OPC 0xD XORs bytes. -/
  | opXor (a : Nat) (bs : List Byte)
  /-- OP_ALIAS_RESERVED (R253): A write to the OPC 0xE alias is dropped at the home and raises 'operation alias invalid'. -/
  | opAliasReserved (a : Nat) (bs : List Byte)
  /-- SWAP (R256): A fetching request with FOP SWAP exchanges the target word and returns its old value. -/
  | swap (t : TileId) (a : Nat) (r : BitVec 256)
  /-- CAS (R256): A fetching request with FOP CAS compares and swaps the target word. -/
  | cas (t : TileId) (a : Nat) (r : BitVec 256)
  /-- FETCH_ADD (R256): A fetching request adds to an integer target word and returns its old value. -/
  | fetchAdd (t : TileId) (a : Nat) (r : BitVec 256)
  /-- FETCH_FADD (R256): A fetching request adds to a float target word and returns its old value. -/
  | fetchFadd (t : TileId) (a : Nat) (r : BitVec 256)
  /-- FETCH_MIN (R256): A fetching request takes the signed minimum of the target word. -/
  | fetchMin (t : TileId) (a : Nat) (r : BitVec 256)
  /-- FETCH_MAX (R256): A fetching request takes the signed maximum of the target word. -/
  | fetchMax (t : TileId) (a : Nat) (r : BitVec 256)
  /-- FETCH_AND (R256): A fetching request ANDs into the target word. -/
  | fetchAnd (t : TileId) (a : Nat) (r : BitVec 256)
  /-- FETCH_OR (R256): A fetching request ORs into the target word. -/
  | fetchOr (t : TileId) (a : Nat) (r : BitVec 256)
  /-- FETCH_XOR (R256): A fetching request XORs into the target word. -/
  | fetchXor (t : TileId) (a : Nat) (r : BitVec 256)
  /-- CELLAR_SCRUB_READ (R262): Every 2 µs each channel's patrol scrub reads its next burst. -/
  | cellarScrubRead (c : ChannelId) (e : Nat)
  /-- ROW_REPAIR_COMPLETE (R264): The soft repair releases the held bank and raises 'cellar row repaired'. -/
  | rowRepairComplete
  /-- RETIRE_ACK (R266): A write of RETIRE[i].ACK records the driver's unmap of a retired page. -/
  | retireAck (src : Src) (st : StackId) (i : Fin 128) (w : BitVec 32)
  /-- TG_START (R270): A write of TG[c].START starts a traffic generator run, or is refused. -/
  | tgStart (src : Src) (c : ChannelId) (w : BitVec 32)
  /-- TG_STOP (R270): A write of TG[c].STOP ends the run after the current burst. -/
  | tgStop (src : Src) (c : ChannelId) (w : BitVec 32)
  /-- TG_RUN_COMPLETE (R270): A generator run ends, zeroing its range if destructive, with counters and signature set. -/
  | tgRunComplete (c : ChannelId) (pass row burst : Nat) (one many : List Nat)
  /-- STACK_TEMPERATURE_CHANGE (R272): A stack's hottest sensor crosses a threshold and the refresh rate, throttle or self-refresh changes. -/
  | stackTemperatureChange (st : StackId) (t : Fin 256)
  /-- RDSHARED (R282): A home takes a RdShared request and serves it under Table 10.5. -/
  | rdshared (n : Nat)
  /-- RDUNIQUE (R282): A home takes a RdUnique request and serves it under Table 10.5. -/
  | rdunique (n : Nat)
  /-- UPGRADE (R282): A home takes an Upgrade request and serves it under Table 10.5. -/
  | upgrade (n : Nat)
  /-- WRITEBACK (R285): A home takes a WriteBack, writes the data or holds it against an open transaction, and sends WBAck. -/
  | writeback (q : LineTaken)
  /-- EVICTCLEAN (R285): A home takes an EvictClean, clears the holder and sends WBAck. -/
  | evictclean (n : Nat)
  /-- ATOMIC (R292): A home takes a host-core atomic, clears the line and performs it with its adders. -/
  | atomicReq (n : Nat)
  /-- UNCREAD (R289): A home takes a read from an uncached agent and serves it from the cellar or by SnpOnce. -/
  | uncread (a n : Nat)
  /-- UNCWRITE (R290): A home takes a write, operation write or fetching request from an uncached agent after clearing cached copies. -/
  | uncwrite (n : Nat)
  /-- SNPSHARED (R281): A cache takes SnpShared, sends data to the requester and keeps S. -/
  | snpshared (q : LineTaken)
  /-- SNPUNIQUE (R281): A cache takes SnpUnique, sends data to the requester and invalidates. -/
  | snpunique (q : LineTaken)
  /-- SNPONCE (R281): A cache takes SnpOnce and sends data to the home keeping its state. -/
  | snponce (q : LineTaken)
  /-- SNPINV (R281): A cache takes SnpInv and invalidates without data. -/
  | snpinv (n : Nat)
  /-- RECALL (R281): A cache takes Recall, sends dirty data to the home and invalidates. -/
  | recall (q : LineTaken)
  /-- SNPRESP (R293): A home takes a snoop response, matches crossings and completes the transaction. -/
  | snpresp (n : Nat)
  /-- DATA (R282): A requester takes the Data of a line. -/
  | dataMsg (n : Nat)
  /-- COMP (R282): A requester takes Comp and, holding Data, installs the line and sends CompAck. -/
  | comp (n : Nat)
  /-- COMPACK (R286): A home takes CompAck and unpins the entry. -/
  | compack (n : Nat)
  /-- RETRY (R288): A requester takes Retry and raises its request's age. -/
  | retry (n : Nat)
  /-- RETRY_RESEND (R288): After 8 × age ns a refused request is sent again. -/
  | retryResend (n : Nat)
  /-- WBACK (R284): A cache takes WBAck and frees its eviction buffer. -/
  | wback (n : Nat)
  /-- HOST_CORE_LOAD (R425): A host core load reads memory under Table 15.4 or faults. -/
  | hostCoreLoad (c : CoreId)
  /-- HOST_CORE_STORE (R425): A host core store writes memory under Table 15.4 or faults. -/
  | hostCoreStore (c : CoreId)
  /-- AMO (R292): A host core AMO or Zacas instruction on the cellar is sent to the home. -/
  | amo (c : CoreId)
  /-- LR (R426): LR obtains the line in E or M and places a reservation. -/
  | lr (c : CoreId)
  /-- SC (R426): SC succeeds only while the reservation and E or M state are held. -/
  | sc (c : CoreId)
  /-- LR_HOLD_EXPIRY (R427): 64 core cycles after an LR, a held snoop or recall is answered. -/
  | lrHoldExpiry (c : CoreId)
  /-- CBO_ZERO (R424): cbo.zero writes zeros to its 64-byte block. -/
  | cboZero (c : CoreId)
  /-- CBO_CLEAN (R424): cbo.clean cleans the whole 128-byte line. -/
  | cboClean (c : CoreId)
  /-- CBO_FLUSH (R424): cbo.flush flushes the whole 128-byte line. -/
  | cboFlush (c : CoreId)
  /-- CBO_INVAL (R424): cbo.inval executes as cbo.flush on the whole line. -/
  | cboInval (c : CoreId)
  /-- WALK_TABLE_READ_COMPLETE (R301): A page walker table read returns and the walk continues, ends in a leaf, or faults. -/
  | walkTableReadComplete (c : CrateId) (n : Nat)
  /-- XLT_ROOT_WRITE (R309): A write of XLT.ROOT is accepted and invalidates every translation cache, or sets ROOT_REFUSED. -/
  | xltRootWrite (src : Src) (v : BitVec 64)
  /-- SHOOTDOWN_SUBMIT (R310): A write of XLT.SD_SEQ submits a shootdown or sets SEQ_ERR, FULL or RANGE_ERR. -/
  | shootdownSubmit (src : Src) (w : BitVec 32)
  /-- SHOOTDOWN_CRATE_APPLY (R311): A crate drops overlapping translations, re-walks walks in progress and cleans affected shelf lines. -/
  | shootdownCrateApply (c : CrateId)
  /-- SHOOTDOWN_POST (R314): Once its conditions hold, the device posts a sequence in DONE_SEQ. -/
  | shootdownPost
  /-- HATCH_OUT_WRITE (R327): A write of HATCH.OUT[w] sets an outbound window or is ignored with OUT_REFUSED. -/
  | hatchOutWrite (src : Src) (w : Fin 256) (i : Fin 8) (wide : Bool) (v : BitVec 64)
  /-- HATCH_IN_WRITE (R323): A write of HATCH.IN[n] sets an inbound entry or is ignored with IN_REFUSED. -/
  | hatchInWrite (src : Src) (n : Fin 256) (i : Fin 8) (wide : Bool) (v : BitVec 64)
  /-- HATCH_IN_DRAIN (R324): The last request admitted before VALID = 0 completes and BUSY clears. -/
  | hatchInDrain (n : Fin 256)
  /-- HATCH_LAST_CHUNK_SEND (R366): Once every earlier chunk is acknowledged, the last hatch chunk is sent with ARR = 1. -/
  | hatchLastChunkSend (t : TileId)
  /-- SEAM_FLIT_RECEIVE (R337): A seam flit is received, checked and delivered or replayed. -/
  | seamFlitReceive (b : BundleId) (d : Fin 2) (blame : List (Fin 68))
  /-- SEAM_LANE_LOSS_OF_LOCK (R336): A seam lane or forwarded clock receiver loses lock and is declared failing. -/
  | seamLaneLossOfLock (b : BundleId) (d : Fin 2) (x : Fin 71)
  /-- SEAM_LANE_WINDOW_EXPIRY (R336): A seam lane's 2^20 spine-cycle CRC failure window closes. -/
  | seamLaneWindowExpiry (b : BundleId) (d : Fin 2) (n : Fin 68)
  /-- SEAM_LANE_REPAIR_COMPLETE (R338): A failing lane's traffic is moved to a spare and the bundle resumes. -/
  | seamLaneRepairComplete (b : BundleId)
  /-- SEAM_RETRAIN_COMPLETE (R339): A bundle finishes retraining at a narrower width or goes down. -/
  | seamRetrainComplete (b : BundleId)
  /-- SEAM_CONTROL_TAKEOVER (R341): The control role finishes moving to its standby bundle. -/
  | seamControlTakeover (b : BundleId)
  /-- FABRIC_DETECT_POLL (R349): Every 10 ms in Detect a port checks for a partner. -/
  | fabricDetectPoll (p : PortId) (found : Bool)
  /-- FABRIC_TRAIN_STAGE_COMPLETE (R349): A port completes a training stage and enters the next, up to Up. -/
  | fabricTrainStageComplete (p : PortId) (e : TrainEnv)
  /-- FABRIC_TRAIN_STAGE_TIMEOUT (R349): A training stage exceeds its limit and the port returns to Detect. -/
  | fabricTrainStageTimeout (p : PortId)
  /-- FABRIC_RETRAIN (R352): A write of CTL.RETRAIN retrains the port. -/
  | fabricRetrain (src : Src) (p : PortId)
  /-- FABRIC_FLIT_RECEIVE (R353): A Grenlink flit is received and acknowledged or triggers replay. -/
  | fabricFlitReceive (p : PortId) (f : FlitRx)
  /-- FABRIC_LANE_LOSS_OF_LOCK (R354): A fabric lane loses lock and is declared failing. -/
  | fabricLaneLossOfLock (p : PortId) (lane : Fin 4)
  /-- FABRIC_BER_WINDOW (R354): A lane's 2^30-bit pre-FEC error window ends and is judged. -/
  | fabricBerWindow (p : PortId) (lane : Fin 4) (errors : Nat)
  /-- FABRIC_NARROW_COMPLETE (R355): A port finishes retraining at a narrower width or goes down. -/
  | fabricNarrowComplete (p : PortId)
  /-- RD_REQ (R321): A hatch read request is received, checked against its inbound entry and answered, or forwarded. -/
  | rdReq (p : PortId) (k : Packet)
  /-- WR (R321): A hatch write is received, checked and performed, or forwarded. -/
  | wr (p : PortId) (k : Packet)
  /-- OPWR (R321): A hatch operation write is received, checked and performed, or forwarded. -/
  | opwr (p : PortId) (k : Packet)
  /-- RD_RESP (R365): A read response is received and ends or completes the sender's chunk. -/
  | rdResp (p : PortId) (k : Packet)
  /-- WR_ACK (R365): A write acknowledgement is received and completes the chunk. -/
  | wrAck (p : PortId) (k : Packet)
  /-- COLL_ACK (R380): A collective data acknowledgement is received. -/
  | collAck (p : PortId) (k : Packet)
  /-- SYNC_INC (R359): A SYNC_INC is received and adds to the package tally, or is forwarded. -/
  | syncInc (p : PortId) (k : Packet)
  /-- COLL_READY (R380): A COLL_READY is received from the next member. -/
  | collReady (p : PortId) (k : Packet)
  /-- COLL_ABORT (R381): A COLL_ABORT is received; the descriptor ends ABORTED_BY_PARTNER and passes it on. -/
  | collAbort (p : PortId) (k : Packet)
  /-- CTRL (R367): A CTRL message is received and queued for the resident driver. -/
  | ctrl (p : PortId) (k : Packet)
  /-- COLL_DATA (R380): Collective segment data is received and combined or written at its homes. -/
  | collData (p : PortId) (k : Packet)
  /-- MGMT (R368): A MGMT packet is received and answered per unit and OP. -/
  | mgmt (p : PortId) (k : Packet)
  /-- FABRIC_RESPONSE_TIMEOUT (R365): A request without response within RESP_TIMEOUT ends its chunk with UNIT_ABSENT. -/
  | fabricResponseTimeout (tag : Nat)
  /-- RING_ROUTE_UPDATE (R373): Within 1 ms of a ring port leaving Up, the port is removed from FAB.ROUTE[0] entries. -/
  | ringRouteUpdate (p : PortId)
  /-- ROUTE_WRITE (R372): A write of FAB.ROUTE is accepted or ignored with ROUTE_REFUSED. -/
  | routeWrite (src : Src) (l : Fin 5) (i : Fin 16) (wide : Bool) (v : BitVec 64)
  /-- FENCE_WRITE (R376): A write of FAB.PORT[p].FENCE changes the mode with a retrain, or only the JOB_ID. -/
  | fenceWrite (src : Src) (p : PortId) (w : BitVec 32)
  /-- COLL_TAIL_WRITE (R378): A write of FAB.COLL[e].TAIL hands collective descriptors to the engine. -/
  | collTailWrite (src : Src) (e : CollId) (w : BitVec 32)
  /-- COLL_START (R380): The engine starts a collective descriptor, or retires it ILLEGAL, and sends COLL_READY. -/
  | collStart (e : CollId)
  /-- COLL_STEP_COMPLETE (R380): A collective step's segment is received and accepted and its packets acknowledged, and the next step starts or DONE_TALLY is incremented. -/
  | collStepComplete (e : CollId) (ptr : Nat)
  /-- COLL_PARTNER_TIMEOUT (R381): A wait for a partner exceeds the time limit and the descriptor ends with PARTNER_TIMEOUT. -/
  | collPartnerTimeout (e : CollId) (ptr : Nat)
  /-- PERST_ASSERT (R391): PERST#p is asserted and port p's link and configuration space reset. -/
  | perstAssert (p : HostPortId)
  /-- PERST_RELEASE (R389): PERST#p is released and the port trains, answering RRS until CFG_READY. -/
  | perstRelease (p : HostPortId)
  /-- HOST_PATH_LOSS (R416): A link-down, hot reset or FLR loses host path p and affected work ends. -/
  | hostPathLoss (p : HostPortId)
  /-- BAR0_ACCESS_TIMEOUT (R395): A BAR0 access to a clock-stopped unit completes with Completer Abort after 0.5 ms. -/
  | bar0AccessTimeout (p : HostPortId)
  /-- BAR2_READ (R247): A BAR2 read reaches the cellar after the port's earlier writes are accepted and flushed. -/
  | bar2Read (p : HostPortId) (off n : Nat) (ide : Ide)
  /-- BAR2_WRITE (R396): A BAR2 write is sent to its home, or dropped if outside the cellar. -/
  | bar2Write (p : HostPortId) (off : Nat) (bs : List Byte) (ide : Ide)
  /-- DOORBELL (R398): A doorbell write advances a ring's tail, or is dropped or refused. -/
  | doorbell (p : HostPortId) (off size : Nat) (v : BitVec 64) (ide : Ide)
  /-- RING_ENABLE (R405): A write of ENABLE = 1 starts a new epoch of the ring, or sets REFUSED. -/
  | ringEnable (src : Src) (p : HostPortId) (r : RingId) (w : BitVec 32)
  /-- RING_DISABLE (R404): A write of ENABLE = 0 stops fetching and the ring enters STOPPING. -/
  | ringDisable (src : Src) (p : HostPortId) (r : RingId) (w : BitVec 32)
  /-- RING_RETRY (R401): A write of CTL.RETRY returns a STALE ring to RUNNING and fetches again. -/
  | ringRetry (src : Src) (p : HostPortId) (r : RingId) (w : BitVec 32)
  /-- COMMAND_FETCH (R399): A fetched command entry is checked and accepted, advancing HEAD. -/
  | commandFetch (p : HostPortId) (r : RingId) (placed : List Byte)
  /-- COMMAND_REFETCH (R400): A refetch timer expires and the entry is read again, or the ring goes STALE. -/
  | commandRefetch (p : HostPortId) (r : RingId) (placed : List Byte)
  /-- NOP (R406): NOP ends DONE at once. -/
  | nop (n : Nat)
  /-- COPY (R407): COPY moves bytes between the cellar and host apertures through the copy engine. -/
  | copy (n : Nat)
  /-- COPY_CHUNK_COMPLETE (R409): A COPY chunk is checked at its destination and progresses or fails the command. -/
  | copyChunkComplete (n : Nat) (crcOk : Bool)
  /-- STATUS_PERIOD (R411): Each STATUS_PERIOD a running command's status record is rewritten. -/
  | statusPeriod (n : Nat)
  /-- ADMIT_JOB (R548): ADMIT_JOB checks a signed manifest and admits the job, setting fences. -/
  | admitJob (n : Nat)
  /-- ADMIT_RETRAIN_COMPLETE (R549): Every port whose fence changed has left its retrain and ADMIT_JOB ends DONE. -/
  | admitRetrainComplete
  /-- TEARDOWN (R553): TEARDOWN starts the seven teardown steps. -/
  | teardown (n : Nat)
  /-- TEARDOWN_STEP_COMPLETE (R553): A teardown step ends and the next begins, up to signing the certificate. -/
  | teardownStepComplete (fw : TileFw)
  /-- TEARDOWN_DRAIN_TIMEOUT (R553): The drain step reaches RESP_TIMEOUT and closes the fences. -/
  | teardownDrainTimeout
  /-- TEARDOWN_THERMAL_TIMEOUT (R556): A stack in thermal stop has not returned within 10 s and the teardown ends FAILED. -/
  | teardownThermalTimeout
  /-- ATTESTATION_KEY_GENERATED (R560): Background generation of the next attestation key completes and NEXT_READY is set. -/
  | attestationKeyGenerated
  /-- STOCKTAKE (R499): STOCKTAKE prices a plan image and accepts it or names the first failing check. -/
  | stocktake (n : Nat)
  /-- RUN_PLAN (R505): RUN_PLAN sets up reservations, floors, meters and the monitor and runs the accepted plan. -/
  | runPlan (n : Nat)
  /-- STOP_PLAN (R518): STOP_PLAN stops further instances of the running plan. -/
  | stopPlan (n : Nat)
  /-- PLAN_STOP_COMPLETE (R518): After STOP_PLAN the unfinished instances end or two periods pass, and the plan ends. -/
  | planStopComplete
  /-- PERIOD_START (R509): A plan period begins at its nominal or re-anchored tick. -/
  | periodStart
  /-- TIME_STEP_START (R510): A TIME step's offset tick arrives; TRIG_TALLY is incremented and its hint written. -/
  | timeStepStart (j : Fin 256)
  /-- EV_TAIL_WRITE (R520): A write of STAT.PLAN.EV_TAIL advances the event ring reader, or is ignored. -/
  | evTailWrite (src : Src) (w : BitVec 32)
  /-- SET_CAP (R462): SET_CAP requests a new cap in force, accepted, refused or held. -/
  | setCap (n : Nat)
  /-- PHASE_HINT (R466): PHASE_HINT has the driver write a hint into GOV.HINT. -/
  | phaseHint (n : Nat)
  /-- CAP_REQUEST_WRITE (R462): A host-core write of GOV.CAP.REQ_W requests a new cap. -/
  | capRequestWrite (src : Src) (w : BitVec 32)
  /-- RESV_WRITE (R463): A driver write of GOV.GRP[g].RESV is accepted or sets RESV_REFUSED. -/
  | resvWrite (src : Src) (g : Fin 19) (w : BitVec 32)
  /-- GOV_HINT_WRITE (R466): A write of GOV.HINT starts a hint, or a collective hold. -/
  | govHintWrite (src : Src) (hi wide : Bool) (v : BitVec 64)
  /-- HINT_EXPIRY (R466): A hint's DURATION elapses and its signature entry is updated. -/
  | hintExpiry
  /-- GOVERNOR_INTERVAL (R467): Every 50 µs the controller computes and hands out group budgets. -/
  | governorInterval (e : GovStep)
  /-- RAIL_TELEMETRY_READ (R459): A PMBus reading of a rail regulator returns and corrects the estimator, or counts a failure. -/
  | railTelemetryRead (i : Fin 15) (ok : Bool)
  /-- PWR_ALERT_ASSERT (R471): A bit of PWR_ALERT_N is asserted and the device enters the lowest state. -/
  | pwrAlertAssert (i : Fin 4)
  /-- PWR_ALERT_RELEASE (R471): A bit of PWR_ALERT_N is released and the 50 µs hold starts. -/
  | pwrAlertRelease (i : Fin 4)
  /-- LOWEST_STATE_EXIT (R472): 50 µs after the last release the lowest state exits and settings return. -/
  | lowestStateExit
  /-- DROOP_DETECT (R474): A crate's droop detector trips and starts a droop response. -/
  | droopDetect (c : CrateId)
  /-- DROOP_CLEAR (R474): The crate voltage returns above threshold plus 10 mV. -/
  | droopClear (c : CrateId)
  /-- DROOP_RESPONSE_END (R474): 1 µs after the droop clears the clock period and k return. -/
  | droopResponseEnd (c : CrateId)
  /-- FROZEN_STEP_RESUME (R475): 5 µs after the droop clears a frozen frequency step resumes. -/
  | frozenStepResume (c : CrateId)
  /-- COLL_HOLD_END (R477): A collective hold ends and waiting cap changes take effect. -/
  | collHoldEnd
  /-- CRATE_TEMPERATURE_CHANGE (R480): A crate, host or I/O sensor crosses its limit and a thermal hold begins or ends. -/
  | crateTemperatureChange (x : HeatSensor) (t : Fin 256)
  /-- AGEING_MEASURE (R482): An ageing monitor measures and may lower a tile or core maximum frequency. -/
  | ageingMeasure (x : AgeSensor) (mhz : Nat)
  /-- RAIL_TRANSITION (R442): A rail goes up or down and the always-on domain checks the rail order. -/
  | railTransition (i : Fin 15) (lvl : Fin 3)
  /-- DOMAIN_POWER_ON (R445): A write of PWR.DOM[d].ON = 1 starts switching a domain on, or is refused. -/
  | domainPowerOn (src : Src) (d : DomainId) (w : BitVec 32)
  /-- DOMAIN_POWER_OFF (R444): A write of PWR.DOM[d].ON = 0 starts switching a domain off, or is refused. -/
  | domainPowerOff (src : Src) (d : DomainId) (w : BitVec 32)
  /-- DOMAIN_CLOCK_STOP (R453): A write of PWR.DOM[d].CLK_STOP stops or restarts a domain's clocks. -/
  | domainClockStop (src : Src) (d : DomainId) (w : BitVec 32)
  /-- DOMAIN_SWITCH_COMPLETE (R446): A domain finishes switching on or off and its STATE changes. -/
  | domainSwitchComplete (d : DomainId)
  /-- PILOT_LIGHT_LOSS (R448): No PILOT_CLK edge for 2 µs: fatal fault, fast domains stop, counter runs on the oscillator. -/
  | pilotLightLoss
  /-- SERDES_REFCLK_LOSS (R449): A SerDes reference clock is lost and its ports or link go down. -/
  | serdesRefclkLoss (i : Fin 4)
  /-- HANG_WATCH_FIRE (R454): A crossing request waits for HANG.LIMIT and the hang watch quarantines it. -/
  | hangWatchFire (crossing : BitVec 16) (kind : Fin 16) (index : Nat) (t : Nat)
  /-- URST_CRATE (R617): PWR.URST with KIND 1 resets a crate, keeping shelf contents and scratch. -/
  | urstCrate (src : Src) (index : BitVec 16)
  /-- URST_CORE (R454): PWR.URST with KIND 2 resets a host core. -/
  | urstCore (src : Src) (index : BitVec 16)
  /-- URST_COLL_ENGINE (R454): PWR.URST with KIND 3 resets a collective engine. -/
  | urstCollEngine (src : Src) (index : BitVec 16)
  /-- CORE_FREQUENCY_CHANGE (R434): A host core frequency change completes. -/
  | coreFrequencyChange (c : CoreId)
  /-- DRIVER_HEARTBEAT (R437): A write of STAT.DRV.HEARTBEAT restarts the heartbeat period. -/
  | driverHeartbeat (src : Src) (w : BitVec 32)
  /-- HEARTBEAT_TIMEOUT (R437): A period passes without a heartbeat and 'resident driver lost' is raised. -/
  | heartbeatTimeout
  /-- DRIVER_MSG (R438): DRIVER_MSG queues a message for the resident driver. -/
  | driverMsg (n : Nat) (reply : Option (List Byte))
  /-- DRIVER_MSG_TIMEOUT (R438): The driver does not take a message within 10 ms and DRIVER_MSG ends FAILED. -/
  | driverMsgTimeout (n : Nat)
  /-- DEBUG_REQUEST (R433): A JTAG debug request is served, or refused while a job is admitted. -/
  | debugRequest (q : DebugReq)
  /-- DOE_REQUEST (R419): An SPDM or IDE_KM message on the DOE mailbox is answered. -/
  | doeRequest (p : HostPortId) (q : DoeReq)
  /-- PKG_RESET_ASSERT (R529): PKG_RESET_N is asserted; the start is abandoned and switched domains power off. -/
  | pkgResetAssert
  /-- PKG_RESET_RELEASE (R600): PKG_RESET_N is released and start-up begins at t0. -/
  | pkgResetRelease (strap : BitVec 8) (prog : List (Nat × List Byte)) (chips : Bool × Bool)
  /-- STARTUP_STAGE_COMPLETE (R521): A start-up stage ends and the next begins, up to asserting DEV_READY. -/
  | startupStageComplete (e : StageEnv)
  /-- PKL_UPDATE_START (R542): A write of PKL.UPD.CTL.START starts a flash update, or sets RESULT 0x20. -/
  | pklUpdateStart (src : Src) (w : BitVec 32)
  /-- PKL_UPDATE_COMPLETE (R543): A flash update's write and read-back end in DONE or FAILED. -/
  | pklUpdateComplete (ok : Bool) (written : Nat)
  /-- BIST (R575): BIST runs the start slice of one unit. -/
  | bist (n : Nat)
  /-- STRONGROOM_READ (R573): STRONGROOM_READ copies 64-byte units of a strongroom region to DST. -/
  | strongroomRead (n : Nat)
  /-- IDLE_SLICE_START (R576): An idle-window self-test slice starts on a unit that has been idle long enough. -/
  | idleSliceStart (kind : Fin 4) (index : Nat)
  /-- SLICE_COMPLETE (R575): A self-test slice ends and its signature is compared; a second failure fails the unit. -/
  | sliceComplete (kind : Fin 5) (index : Nat) (sig expected : BitVec 64) (bad : List (Nat × Nat))
  /-- SLICE_TIMEOUT (R575): A slice has not ended within 4 times its budget. -/
  | sliceTimeout (kind : Fin 5) (index : Nat) (expected : BitVec 64) (bad : List (Nat × Nat))
  /-- FAULT_TICK (R565): At the end of each pilot-light tick gathered fault records are placed, merged, folded or committed. -/
  | faultTick
  /-- FAULT_HEAD_WRITE (R568): A write of FLT.MAIN.HEAD or FLT.FATAL.HEAD consumes queue entries, or is ignored. -/
  | faultHeadWrite (src : Src) (fatal : Bool) (w : BitVec 32)
  /-- OVF_CLEAR (R567): A write of FLT.OVF_CTL.CLEAR frees every overflow counter and zeroes OTHER. -/
  | ovfClear (src : Src)
  /-- MGMT_REGISTER_READ (R578): A management frame with OP 1 taken by this device reads registers. -/
  | mgmtRegisterRead (f : List Byte)
  /-- MGMT_REGISTER_WRITE (R578): A management frame with OP 2 writes forced marks or is answered STATUS 1. -/
  | mgmtRegisterWrite (f : List Byte)
  /-- MGMT_STRONGROOM_READ (R578): A management frame with OP 3 reads strongroom units. -/
  | mgmtStrongroomRead (f : List Byte)
  /-- MGMT_FRAME_FORWARD (R578): A management frame not taken is forwarded within 200 ns, or dropped on CRC failure. -/
  | mgmtFrameForward (f : List Byte)
  /-- MGT_BYPASS_ENGAGE (R579): MGT_BYP_N is driven low once its conditions hold, or released when one ends. -/
  | mgtBypassEngage (healthy : Bool)
  /-- JTAG_IDCODE (R606): The TAP returns IDCODE. -/
  | jtagIdcode
  /-- JTAG_EXTEST (R606): EXTEST drives boundary cells while PKG_RESET_N is asserted, else acts as BYPASS. -/
  | jtagExtest (cells : Nat)
  /-- JTAG_INTEST (R606): INTEST runs while PKG_RESET_N is asserted, else acts as BYPASS. -/
  | jtagIntest (cells : Nat)
  /-- JTAG_EXTEST_PULSE (R606): EXTEST_PULSE runs on IEEE 1149.6 cells while in reset, else acts as BYPASS. -/
  | jtagExtestPulse (cells : Nat)
  /-- JTAG_EXTEST_TRAIN (R606): EXTEST_TRAIN runs on IEEE 1149.6 cells while in reset, else acts as BYPASS. -/
  | jtagExtestTrain (cells : Nat)
  /-- JTAG_BYPASS (R606): BYPASS passes the scan chain through one bit. -/
  | jtagBypass
  /-- REGISTER_WRITE (R590): A write to a register with no row of its own takes effect under its access codes and writer rules. -/
  | registerWrite (src : Src) (a size : Nat) (v : BitVec 64) (ide : Ide)
  /-- CONTROL_CORE_INSTRUCTION (R32): The control core executes an instruction other than a load, store or WFI (ALU, branch, CSR, jump), including its fetch from the code window. -/
  | controlCoreInstruction (t : TileId)
  /-- HOST_CORE_INSTRUCTION (R422): A host core executes an instruction other than a memory access, AMO, LR/SC or CBO, including floating-point and CSR instructions such as reading time. -/
  | hostCoreInstruction (c : CoreId)
  /-- HOST_CORE_INTERRUPT (R432): A host core takes an interrupt delivered to its IMSIC by the APLIC or by its timer, waking from WFI if it waits. -/
  | hostCoreInterrupt (c : CoreId) (m : Option ApMsi)
  /-- HOST_PORT_LINK_UP (R389): Host port p finishes link training, reaches L0 and sets CFG_READY, including the return of a link after a host path loss. -/
  | hostPortLinkUp (p : HostPortId) (speed : Fin 6) (width : Fin 4) (cxl : Bool)
  /-- CONFIGURATION_REQUEST (R389): A host configuration request reaches port p and is answered with RRS before CFG_READY, or acts on configuration space (BAR sizing, Bus Master Enable, power state). -/
  | configurationRequest (p : HostPortId) (q : CfgReq)
  /-- BAR0_READ (R394): A host-port read of BAR0 reaches its block and returns data, 0xFFFF_FFFF with a count in BAR0_ABSENT, or waits at a crossing. -/
  | bar0Read (p : HostPortId) (a n : Nat) (ide : Ide)
  /-- CXL_HOST_SNOOP (R388): A CXL.cache snoop from the host arrives on a port and is answered RspIHitI. -/
  | cxlHostSnoop (p : HostPortId) (line : Nat)
  /-- PILOT_LIGHT_RETURN (R448): PILOT_CLK edges return after a loss and PWR.CLK.PILOT_OK is set again, enabling release by PKG_RESET_N. -/
  | pilotLightReturn
  /-- SERDES_REFCLK_RETURN (R449): A host-port or fabric reference clock returns and its PWR.CLK presence bit is set again so its links can train. -/
  | serdesRefclkReturn (i : Fin 4)
  /-- FABRIC_PARTNER_RETRAIN (R352): The partner of an Up port starts retraining and this side retrains with it. -/
  | fabricPartnerRetrain (p : PortId)
  /-- FABRIC_CODEWORD_WINDOW_EXPIRY (R354): The 1 ms window in which a lane's uncorrectable codewords are counted closes and the count restarts. -/
  | fabricCodewordWindowExpiry (p : PortId) (lane : Fin 4)
  /-- CELLAR_ROW_CE_WINDOW_EXPIRY (R263): The 2^CE_WINDOW pilot-light tick window opened by a row's first corrected error closes and its count returns to 0. -/
  | cellarRowCeWindowExpiry (c : ChannelId) (pc : Fin 2) (row : Fin 786432)
  /-- STRONGROOM_COMMIT_COMPLETE (R571): A two-phase strongroom commit finishes writing its target and marks its journal slot DONE. -/
  | strongroomCommitComplete
  /-- MGT_LINK_RELOCK (R579): The receiver on MGT_IN loses or regains lock on the management ring link, as when a bypass switch changes over. -/
  | mgtLinkRelock (lock : Bool)
  deriving DecidableEq, Repr

end Sys2Proof
end

