-- ==== Sys2Proof/Decode.lean ====
section
/-! DEFINITION. The command that a table word spells. The spec's table of operations and events gives no row any bits: the block takes commands,
not words, so no word spells one (log entry 4). -/
namespace Sys2Proof

/-- The command that the low `nbits` bits of `w` spell by the table's bits: none, as the table gives no row bits. -/
def decodeTableWord (_nbits _w : Nat) : Option Instr := none

end Sys2Proof
end

