-- ==== Sys2Proof/Machine/Crc.lean ====
section
/-! DEFINITION. The cyclic redundancy checks that the spec names: CRC-32C (Castagnoli, R59) and CRC-64 (ECMA-182, R270). -/
namespace Sys2Proof.Machine

/-- One bit of the reflected CRC-32C register. -/
def crc32cBit (c : Word) : Word := if c.getLsbD 0 then (c >>> 1) ^^^ 0x82F63B78#32 else c >>> 1

/-- One byte into the CRC-32C register (polynomial 0x1EDC_6F41, reflected). -/
def crc32cByte (c : Word) (b : Byte) : Word :=
  let c := c ^^^ (b.zeroExtend 32)
  crc32cBit (crc32cBit (crc32cBit (crc32cBit (crc32cBit (crc32cBit (crc32cBit (crc32cBit c)))))))

/-- Bytes into the CRC-32C register. -/
def crc32cUpd (c : Word) (bs : List Byte) : Word := bs.foldl crc32cByte c

/-- The CRC-32C register before the first byte. The usual reflected form with initial and final inversion
(PRESUMED; log entry 18: the spec names the polynomial alone). -/
def crc32cInit : Word := 0xFFFFFFFF#32

/-- The CRC-32C of a register that has taken every byte. -/
def crc32cFin (c : Word) : Word := c ^^^ 0xFFFFFFFF#32

/-- The CRC-32C of bytes. -/
def crc32c (bs : List Byte) : Word := crc32cFin (crc32cUpd crc32cInit bs)

/-- One bit of the CRC-64 register, most significant bit first. -/
def crc64Bit (c : BitVec 64) : BitVec 64 := if c.msb then (c <<< 1) ^^^ 0x42F0E1EBA9EA3693#64 else c <<< 1

/-- One byte into the CRC-64 register (ECMA-182, initial value 0, not reflected; log entry 18). -/
def crc64Byte (c : BitVec 64) (b : Byte) : BitVec 64 :=
  let c := c ^^^ ((b.zeroExtend 64) <<< 56)
  crc64Bit (crc64Bit (crc64Bit (crc64Bit (crc64Bit (crc64Bit (crc64Bit (crc64Bit c)))))))

/-- One bit of the CRC-16 register, most significant bit first. -/
def crc16Bit (c : BitVec 16) : BitVec 16 := if c.msb then (c <<< 1) ^^^ 0x1021#16 else c <<< 1

/-- One byte into the CRC-16 register. -/
def crc16Byte (c : BitVec 16) (b : Byte) : BitVec 16 :=
  let c := c ^^^ ((b.zeroExtend 16) <<< 8)
  crc16Bit (crc16Bit (crc16Bit (crc16Bit (crc16Bit (crc16Bit (crc16Bit (crc16Bit c)))))))

/-- The CRC-16 of bytes (R610): polynomial 0x1021, initial value 0xFFFF, no reflection, no final XOR. -/
def crc16 (bs : List Byte) : BitVec 16 := bs.foldl crc16Byte 0xFFFF#16

end Sys2Proof.Machine
end

