-- ==== Sys2Proof/Config.lean ====
section
/-! DEFINITION. The open values of the ZV48 spec: free values that no rule fixes, and the functions that the
spec names without defining (signature and hash schemes). None has a body, so nothing can be proved from its value. -/
namespace Sys2Proof

/-- The n-th value that the spec leaves open, as a number; the reader narrows it to the width it needs.
`State.freeCtr` is the counter that is applied to it (log entry 9). DESIGN CHOICE: one stream for every open value. -/
opaque Config.free : Nat → Nat

/-- Does `sig` verify over `msg` under the public key with hash `keyHash`? The scheme is named by the spec and not
defined in it (log entry 15). -/
opaque Config.verify : (keyHash msg sig : Nat) → Bool

/-- The digest function that the spec names for images and records (SHAKE256-256; log entry 15). -/
opaque Config.digest : (bytes : List (BitVec 8)) → Nat

/-- The signature that the device computes with a key index over a message (log entry 15). -/
opaque Config.sign : (keyIndex msg : Nat) → Nat

/-- The bank of a pseudo-channel that a row index lies in. R245 says that the home maps the row index to stack ID, bank
group, bank and DRAM row, and does not give the widths (log entry 21). -/
opaque Config.bankOfRow : (row : Nat) → Nat

/-- The key hashes that Loholt fuses at manufacture, slots 0 and 1 (R535). The spec gives no value (log entry 15). -/
opaque Config.loholtKey : (slot : Nat) → Nat

/-- An identity CSR of a core (mvendorid, marchid, mimpid, mhartid, mconfigptr), by core and CSR number: control cores by global tile
index, host cores from 24,576 on. The spec gives no value (log entry 12). -/
opaque Config.implCsr : (core csr : Nat) → Nat

/-- LIMIT_MHZ of a crate whose tiles are all parked: a step above 700 MHz, in units of 10 MHz. Table 2.14 takes the lowest TILE.FMAX.MHZ
of the unparked tiles, and there is none (log entry 27). -/
opaque Config.parkedLimit : (crate : Nat) → Nat

/-- The number that the record of a clipped floor gives its cause: 0 lowest state, 1 droop response, 2 thermal response, 3 cap. R469 names
the causes and gives no numbers (log entry 42). -/
opaque Config.clipCode : (cause : Nat) → Nat

/-- The 64 bytes of a traffic generator's patterns 2 to 6 at burst `i` of a channel's range. Table 9.11 names the patterns and does not say
which bit goes where (log entry 59). -/
opaque Config.tgPattern : (pat seed channel i : Nat) → BitVec 512

/-- The key by which walks 2 and 3 of a traffic generator order burst `i`. Table 9.11 names bank rotation and random from SEED and gives
neither order (log entry 59). -/
opaque Config.tgWalk : (walk seed i : Nat) → Nat

end Sys2Proof
end

