-- ==== Sys2Proof/Machine/RegMap.lean ====
section
/-! DEFINITION. The register map of the ZV48 (R589, Tables 23.1 to 23.3): for every register word its access masks
under Table 0.5 and its reset value. Fields are those of the subject chapters' field tables. -/
namespace Sys2Proof.Machine

/-- A family of register words: the words at base + i·st1 + j·st2 for i < n1 and j < n2, with the bits that
are RW, W1C and WO (Table 0.5), the reset value and the bits that a read returns. -/
structure RegRow where
  base : Nat
  n1 : Nat
  st1 : Nat
  n2 : Nat
  st2 : Nat
  rw : Nat
  w1c : Nat
  wo : Nat
  rst : Nat
  impl : Nat
  deriving DecidableEq, Repr

/-- Does the row hold the word at offset `a`? -/
def RegRow.has (r : RegRow) (a : Nat) : Bool :=
  if a < r.base then false
  else if r.n1 = 1 then a = r.base
  else
    let d := a - r.base
    if r.n2 = 1 then d % r.st1 = 0 && decide (d / r.st1 < r.n1)
    else
      -- the coarser step first
      let hi := max r.st1 r.st2
      let lo := min r.st1 r.st2
      let nHi := if r.st1 ≥ r.st2 then r.n1 else r.n2
      let nLo := if r.st1 ≥ r.st2 then r.n2 else r.n1
      decide (d / hi < nHi) && (d % hi) % lo = 0 && decide ((d % hi) / lo < nLo)

/-- Register words of the ID block, by BAR0 offset (Table 23.2). -/
def rowsId : List RegRow := [
  ⟨0, 1, 0, 1, 0, 0, 0, 0, 0x5A481020, 0xFFFFFFF0⟩,  -- ID.PART
  ⟨0x10, 1, 0, 1, 0, 0, 0, 0, 1, 0xFFFFFFFF⟩,  -- ID.SERIAL+0x0
  ⟨0x14, 3, 4, 1, 0, 0, 0, 0, 0, 0xFFFFFFFF⟩  -- ID.SERIAL+0x4
]

/-- Register words of the HP block, by BAR0 offset (Table 23.2). -/
def rowsHp : List RegRow := [
  ⟨0x10000, 2, 0x1000, 1, 0, 0, 0, 0, 0, 0xF7FF⟩,  -- HP+0x0
  ⟨0x10004, 2, 0x1000, 1, 0, 0xFF00, 0, 0, 0xA00, 0xFF07⟩,  -- HP+0x4
  ⟨0x10010, 2, 0x1000, 10, 4, 0, 0, 0, 0, 0xFFFFFFFF⟩  -- HP counters
]

/-- Register words of the RING block, by BAR0 offset (Table 23.2). -/
def rowsRing : List RegRow := [
  ⟨0x20000, 2, 0x10000, 16, 0x1000, 0x3F, 0x180, 0x40, 0x10, 0xFFFFF1BF⟩,  -- RING+0x0
  ⟨0x20008, 2, 0x10000, 16, 0x1000, 0xFFFFFFFF, 0, 0, 0, 0xFFFFFFFF⟩,  -- RING+0x8
  ⟨0x2000C, 2, 0x10000, 16, 0x1000, 0xFFFFFFFF, 0, 0, 0, 0xFFFFFFFF⟩,  -- RING+0xC
  ⟨0x20010, 2, 0x10000, 16, 0x1000, 0xFFFFFFFF, 0, 0, 0, 0xFFFFFFFF⟩,  -- RING+0x10
  ⟨0x20018, 2, 0x10000, 16, 0x1000, 0, 0, 0, 0, 0x1FFF1FFF⟩,  -- RING+0x18
  ⟨0x20020, 2, 0x10000, 16, 0x1000, 0, 0, 0, 0, 0xFFFFFFFF⟩,  -- RING+0x20
  ⟨0x20028, 2, 0x10000, 16, 0x1000, 0, 0, 0, 0, 0xFFFFFFFF⟩,  -- RING+0x28
  ⟨0x2002C, 2, 0x10000, 16, 0x1000, 0, 0, 0, 0, 0xFFFF⟩,  -- RING+0x2C
  ⟨0x20400, 32, 0x1000, 256, 4, 0, 0, 0, 0, 0xFFFFFFFF⟩  -- RING.SHADOW
]

/-- Register words of the STAT block, by BAR0 offset (Table 23.2). -/
def rowsStat : List RegRow := [
  ⟨0x48000, 40, 0x20, 1, 0, 0, 0, 0, 0, 0x3FFFF⟩,  -- STAT.COH+0x0
  ⟨0x48004, 40, 0x20, 1, 0, 0, 0, 0, 0, 0x1FF01FF⟩,  -- STAT.COH+0x4
  ⟨0x48008, 40, 0x20, 1, 0, 0, 0, 0, 0, 0xFFFFFFFF⟩,  -- STAT.COH+0x8
  ⟨0x4800C, 40, 0x20, 1, 0, 0, 0, 0, 0, 0xFFFFFFFF⟩,  -- STAT.COH+0xC
  ⟨0x48010, 40, 0x20, 1, 0, 0, 0, 0, 0, 0xFFFFFFFF⟩,  -- STAT.COH+0x10
  ⟨0x48014, 40, 0x20, 1, 0, 0, 0, 0, 0, 0xFFFFFFFF⟩,  -- STAT.COH+0x14
  ⟨0x48018, 40, 0x20, 1, 0, 0, 0, 0, 0, 0xFFFFFFFF⟩,  -- STAT.COH+0x18
  ⟨0x4801C, 40, 0x20, 1, 0, 0, 0, 0, 0, 0xFFFFFFFF⟩,  -- STAT.COH+0x1C
  ⟨0x48500, 1, 0, 1, 0, 1, 0, 0, 1, 1⟩,  -- STAT.COH_CTL
  ⟨0x49000, 96, 8, 1, 0, 0, 0, 0, 0x9600960, 0x3FFF0FFF⟩,  -- STAT.CORE+0x0
  ⟨0x49004, 96, 8, 1, 0, 0, 0, 0, 0x960, 0xFFF⟩,  -- STAT.CORE+0x4
  ⟨0x49400, 1, 0, 1, 0, 0xFF00, 0, 1, 0x6400, 0x7FFF02⟩,  -- STAT.DRV
  ⟨0x4A000, 1, 0, 1, 0, 0, 0, 0, 0, 0xFFFFFF07⟩,  -- STAT.PLAN+0x0
  ⟨0x4A004, 2, 4, 1, 0, 0, 0, 0, 0, 0xFFFFFFFF⟩,  -- STAT.PLAN+0x4
  ⟨0x4A00C, 1, 0, 1, 0, 0, 0, 0, 0, 0xFFFF⟩,  -- STAT.PLAN+0xC
  ⟨0x4A010, 1, 0, 1, 0, 0xFFFF, 0, 0, 0, 0xFFFF⟩,  -- STAT.PLAN+0x10
  ⟨0x4A014, 1, 0, 1, 0, 0, 0, 0, 0, 0xFFFFFFFF⟩,  -- STAT.PLAN+0x14
  ⟨0x4A018, 1, 0, 1, 0, 0, 0, 0, 0, 0xFFFF⟩,  -- STAT.PLAN+0x18
  ⟨0x4A100, 256, 0x10, 1, 0, 0, 0, 0, 0, 0xFFFFFFFF⟩,  -- STAT.STEP+0x0
  ⟨0x4A104, 256, 0x10, 1, 0, 0, 0, 0, 0, 0xFFFFFFFF⟩,  -- STAT.STEP+0x4
  ⟨0x4A108, 256, 0x10, 1, 0, 0, 0, 0, 0, 0xFFFFFFFF⟩,  -- STAT.STEP+0x8
  ⟨0x4A10C, 256, 0x10, 1, 0, 0, 0, 0, 0, 0xFFFFFFFF⟩  -- STAT.STEP+0xC
]

/-- Register words of the FLT block, by BAR0 offset (Table 23.2). -/
def rowsFlt : List RegRow := [
  ⟨0x100000, 1, 0, 1, 0, 0x7FF, 0, 0, 0, 0x1FFF07FF⟩,  -- FLT.MAIN
  ⟨0x100008, 1, 0, 1, 0, 0x3F, 0, 0, 0, 0x13F003F⟩,  -- FLT.FATAL
  ⟨0x100010, 1, 0, 1, 0, 0, 0, 0, 0, 0xFFFF001F⟩,  -- FLT.REPLACE
  ⟨0x100018, 1, 0, 1, 0, 0, 0, 0x10000, 0, 0x1FF⟩,  -- FLT.OVF_CTL
  ⟨0x10001C, 2, 4, 1, 0, 0, 0, 0, 0, 0xFFFFFFFF⟩,  -- FLT.OTHER
  ⟨0x101000, 256, 0x10, 1, 0, 0, 0, 0, 0, 0x7FFFF⟩,  -- FLT.OVF+0x0
  ⟨0x101004, 256, 0x10, 1, 0, 0, 0, 0, 0, 0xFFFFFFFF⟩,  -- FLT.OVF+0x4
  ⟨0x101008, 256, 0x10, 1, 0, 0, 0, 0, 0, 0xFFFFFFFF⟩,  -- FLT.OVF+0x8
  ⟨0x10100C, 256, 0x10, 1, 0, 0, 0, 0, 0, 0xFFFFFFFF⟩,  -- FLT.OVF+0xC
  ⟨0x102000, 512, 4, 1, 0, 0, 0, 0, 0, 0xFFFFFFFF⟩,  -- FLT.FATAL_ENTRY
  ⟨0x103000, 12, 4, 1, 0, 0, 0, 0, 0, 0xFFFFFFFF⟩,  -- FLT.OFFLINE.crates
  ⟨0x103040, 20, 4, 1, 0, 0, 0, 0, 0, 0xFFFFFFFF⟩,  -- FLT.OFFLINE.channels
  ⟨0x1030C0, 2, 4, 1, 0, 0, 0, 0, 0, 0xFFFFFFFF⟩,  -- FLT.OFFLINE.bundles
  ⟨0x1030C8, 1, 0, 1, 0, 0, 0, 0, 0, 0xF⟩,  -- FLT.OFFLINE.bundles2
  ⟨0x1030D0, 1, 0, 1, 0, 0, 0, 0, 0, 0xFFFFFFF⟩,  -- FLT.OFFLINE.ports
  ⟨0x103100, 12, 4, 1, 0, 0xFFFFFFFF, 0, 0, 0, 0xFFFFFFFF⟩,  -- FLT.FORCED.crates
  ⟨0x103140, 20, 4, 1, 0, 0xFFFFFFFF, 0, 0, 0, 0xFFFFFFFF⟩,  -- FLT.FORCED.channels
  ⟨0x1031C0, 2, 4, 1, 0, 0xFFFFFFFF, 0, 0, 0, 0xFFFFFFFF⟩,  -- FLT.FORCED.bundles
  ⟨0x1031C8, 1, 0, 1, 0, 0xF, 0, 0, 0, 0xF⟩,  -- FLT.FORCED.bundles2
  ⟨0x1031D0, 1, 0, 1, 0, 0xFFFFFFF, 0, 0, 0, 0xFFFFFFF⟩,  -- FLT.FORCED.ports
  ⟨0x110000, 16384, 4, 1, 0, 0, 0, 0, 0, 0xFFFFFFFF⟩  -- FLT.ENTRY
]

/-- Register words of the STG block, by BAR0 offset (Table 23.2). -/
def rowsStg : List RegRow := [
  ⟨0x140000, 1, 0, 1, 0, 0, 0, 0, 0, 0x3FF⟩,  -- STG+0x0
  ⟨0x140004, 1, 0, 1, 0, 0, 0, 0, 0, 0x1FFFF⟩,  -- STG+0x4
  ⟨0x140008, 2, 4, 1, 0, 0, 0, 0, 0, 0xFFFFFFFF⟩  -- STG+0x8
]

/-- Register words of the GOV block, by BAR0 offset (Table 23.2). -/
def rowsGov : List RegRow := [
  ⟨0x180000, 1, 0, 1, 0, 0xFFFF0000, 0, 0, 0x4B004B0, 0xFFFFFFFF⟩,  -- GOV.CAP+0x0
  ⟨0x180004, 1, 0, 1, 0, 0, 0, 0, 0x1E004B0, 0xFFFFFFFF⟩,  -- GOV.CAP+0x4
  ⟨0x180008, 1, 0, 1, 0, 0, 0x380, 0, 0, 0x7FF⟩,  -- GOV.STATE
  ⟨0x180010, 1, 0, 1, 0, 0x7FFFF, 0, 0, 0, 0x7FFFF⟩,  -- GOV.HINT+0x0
  ⟨0x180014, 1, 0, 1, 0, 0xFFFFFFFF, 0, 0, 0, 0xFFFFFFFF⟩,  -- GOV.HINT+0x4
  ⟨0x180018, 1, 0, 1, 0, 0xFF00, 0, 0, 0xA64, 0xFFFF⟩,  -- GOV.CEIL
  ⟨0x180020, 1, 0, 1, 0, 0x7F, 0, 0, 0x28, 0x7F⟩,  -- GOV.DROOP
  ⟨0x180024, 1, 0, 1, 0, 0xFF, 0, 0, 0x7364, 0xFFFF⟩,  -- GOV.THERM
  ⟨0x180040, 4, 8, 1, 0, 0xFFF0FFF, 0, 0, 0x37002BC, 0xFFF0FFF⟩,  -- GOV.BOUND
  ⟨0x180060, 1, 0, 1, 0, 0xFFF0FFF, 0, 0, 0xE100960, 0xFFF0FFF⟩,  -- GOV.BOUND4
  ⟨0x180080, 19, 8, 1, 0, 0, 0, 0, 0, 0xFFFFFFFF⟩,  -- GOV.GRP+0x0
  ⟨0x180084, 19, 8, 1, 0, 0xFFFF, 0, 0, 0, 0xFFFF⟩,  -- GOV.GRP+0x4
  ⟨0x180180, 8, 4, 1, 0, 0, 0, 0, 0, 0xFFFFFFFF⟩,  -- GOV.STAT+0x0
  ⟨0x180200, 4, 0x20, 8, 4, 0, 0, 0, 0x2EE02BC, 0xFFFFFFFF⟩,  -- GOV.VTAB.T
  ⟨0x180280, 8, 4, 1, 0, 0, 0, 0, 0x3200960, 0xFFFFFFFF⟩,  -- GOV.VTAB.H
  ⟨0x180400, 64, 0x10, 1, 0, 0, 0, 0, 0, 0xFF07FFFF⟩,  -- GOV.SIG+0x0
  ⟨0x180404, 64, 0x10, 1, 0, 0, 0, 0, 0, 0xFFFFFFFF⟩,  -- GOV.SIG+0x4
  ⟨0x180408, 64, 0x10, 1, 0, 0, 0, 0, 0, 0xFFFFFFFF⟩,  -- GOV.SIG+0x8
  ⟨0x18040C, 64, 0x10, 1, 0, 0, 0, 0, 0, 0xFFFFFFFF⟩  -- GOV.SIG+0xC
]

/-- Register words of the PWR block, by BAR0 offset (Table 23.2). -/
def rowsPwr : List RegRow := [
  ⟨0x1C0000, 1, 0, 1, 0, 0, 0, 0, 0, 0x1FF⟩,  -- PWR.SEQ
  ⟨0x1C0010, 10, 4, 1, 0, 0, 0, 0, 2, 0xFFFF0003⟩,  -- PWR.RAIL
  ⟨0x1C0038, 1, 0, 1, 0, 0, 0, 0, 0x3200002, 0xFFFF0003⟩,  -- PWR.RAIL.H
  ⟨0x1C003C, 4, 4, 1, 0, 0, 0, 0, 0x2EE0002, 0xFFFF0003⟩,  -- PWR.RAIL.T
  ⟨0x1C0100, 30, 8, 1, 0, 3, 4, 0, 0, 0x77⟩,  -- PWR.DOM+0x0
  ⟨0x1C0104, 30, 8, 1, 0, 0, 0, 0, 0, 0xFFFFFFFF⟩,  -- PWR.DOM+0x4
  ⟨0x1C0200, 1, 0, 1, 0, 0, 0, 0, 0, 0x3F⟩,  -- PWR.CLK
  ⟨0x1C0210, 1, 0, 1, 0, 0xFF, 0, 0, 0xA, 0xFFFFFFFF⟩,  -- PWR.HANG
  ⟨0x1C0218, 1, 0, 1, 0, 0, 0, 0, 0, 0x1FFFFF⟩,  -- PWR.HANG_LAST+0x0
  ⟨0x1C021C, 1, 0, 1, 0, 0, 0, 0, 0, 0xFFFFFFFF⟩,  -- PWR.HANG_LAST+0x4
  ⟨0x1C0220, 1, 0, 1, 0, 0, 0, 0xFFFF0003, 0, 0⟩  -- PWR.URST
]

/-- Register words of the XLT block, by BAR0 offset (Table 23.2). -/
def rowsXlt : List RegRow := [
  ⟨0x200000, 1, 0, 1, 0, 0xFFFFF001, 0, 0, 0, 0xFFFFF001⟩,  -- XLT+0x0
  ⟨0x200004, 1, 0, 1, 0, 0xFFFF, 0, 0, 0, 0xFFFF⟩,  -- XLT+0x4
  ⟨0x200010, 1, 0, 1, 0, 0xFFFFF001, 0, 0, 0, 0xFFFFF001⟩,  -- XLT+0x10
  ⟨0x200014, 1, 0, 1, 0, 0xFFFF, 0, 0, 0, 0xFFFF⟩,  -- XLT+0x14
  ⟨0x200018, 1, 0, 1, 0, 0xFFFFFFFF, 0, 0, 0, 0xFFFFFFFF⟩,  -- XLT+0x18
  ⟨0x20001C, 1, 0, 1, 0, 0, 0, 0xFFFFFFFF, 0, 0⟩,  -- XLT+0x1C
  ⟨0x200020, 1, 0, 1, 0, 0, 0, 0, 0, 0xFFFFFFFF⟩,  -- XLT+0x20
  ⟨0x200024, 1, 0, 1, 0, 0, 0x1E0, 0, 0, 0x1FF⟩,  -- XLT+0x24
  ⟨0x200030, 1, 0, 1, 0, 0x3FF, 0, 0, 0, 0x3FF⟩,  -- XLT+0x30
  ⟨0x200038, 1, 0, 1, 0, 0x3FF, 0, 0, 0, 0x3FF⟩,  -- XLT+0x38
  ⟨0x200040, 1, 0, 1, 0, 0xFFF00000, 0, 0, 0, 0xFFF00000⟩,  -- XLT+0x40
  ⟨0x200044, 1, 0, 1, 0, 0xFFFFFFFF, 0, 0, 0, 0xFFFFFFFF⟩,  -- XLT+0x44
  ⟨0x200048, 1, 0, 1, 0, 0xFFF00000, 0, 0, 0, 0xFFF00000⟩,  -- XLT+0x48
  ⟨0x20004C, 1, 0, 1, 0, 0xFFFFFFFF, 0, 0, 0, 0xFFFFFFFF⟩,  -- XLT+0x4C
  ⟨0x200050, 3, 4, 1, 0, 0, 0, 0, 0, 0xFFFFFFFF⟩  -- XLT+0x50
]

/-- Register words of the HATCH block, by BAR0 offset (Table 23.2). -/
def rowsHatch : List RegRow := [
  ⟨0x240000, 256, 0x20, 1, 0, 0xFFFF, 0, 0, 0, 0xFFFF⟩,  -- HATCH.OUT+0x0
  ⟨0x240004, 256, 0x20, 1, 0, 0xFFFFFFFF, 0, 0, 0, 0xFFFFFFFF⟩,  -- HATCH.OUT+0x4
  ⟨0x240008, 256, 0x20, 1, 0, 0xFFFFF000, 0, 0, 0, 0xFFFFF000⟩,  -- HATCH.OUT+0x8
  ⟨0x24000C, 256, 0x20, 1, 0, 0xFFFF, 0, 0, 0, 0xFFFF⟩,  -- HATCH.OUT+0xC
  ⟨0x240010, 256, 0x20, 1, 0, 0xFFFFFFFF, 0, 0, 0, 0xFFFFFFFF⟩,  -- HATCH.OUT+0x10
  ⟨0x240014, 256, 0x20, 1, 0, 0x7F, 0, 0, 0, 0x7F⟩,  -- HATCH.OUT+0x14
  ⟨0x240018, 256, 0x20, 1, 0, 0, 0, 0, 0, 0xFFFFFFFF⟩,  -- HATCH.OUT+0x18
  ⟨0x242000, 256, 0x20, 1, 0, 0xFFFFFF0F, 0, 0, 0, 0xFFFFFF1F⟩,  -- HATCH.IN+0x0
  ⟨0x242008, 256, 0x20, 1, 0, 0xFFFFF000, 0, 0, 0, 0xFFFFF000⟩,  -- HATCH.IN+0x8
  ⟨0x24200C, 256, 0x20, 1, 0, 0xFFFF, 0, 0, 0, 0xFFFF⟩,  -- HATCH.IN+0xC
  ⟨0x242010, 256, 0x20, 1, 0, 0xFFFFFFFF, 0, 0, 0, 0xFFFFFFFF⟩,  -- HATCH.IN+0x10
  ⟨0x242014, 256, 0x20, 1, 0, 0xFF, 0, 0, 0, 0xFF⟩,  -- HATCH.IN+0x14
  ⟨0x242018, 256, 0x20, 1, 0, 0, 0, 0, 0, 0xFFFFFFFF⟩,  -- HATCH.IN+0x18
  ⟨0x244000, 4, 4, 1, 0, 0, 0, 0, 0, 0xFFFFFFFF⟩,  -- HATCH.STAT+0x0
  ⟨0x244010, 1, 0, 1, 0, 0, 3, 0, 0, 3⟩  -- HATCH.STAT+0x10
]

/-- Register words of the FAB block, by BAR0 offset (Table 23.2). -/
def rowsFab : List RegRow := [
  ⟨0x280000, 1, 0, 1, 0, 0xFFFF, 0x10000, 0, 0x6414, 0x1FFFF⟩,  -- FAB.CFG
  ⟨0x280010, 6, 4, 1, 0, 0, 0, 0, 0, 0xFFFFFFFF⟩,  -- FAB.STAT+0x0
  ⟨0x290000, 16, 0x400, 1, 0, 0, 0, 0x10, 0x67, 0x6F⟩,  -- FAB.PORT+0x0
  ⟨0x290008, 16, 0x400, 1, 0, 0, 0, 0, 0, 0xFF1FFF⟩,  -- FAB.PORT+0x8
  ⟨0x29000C, 16, 0x400, 1, 0, 0, 0, 0, 0, 0xFFFFFFFF⟩,  -- FAB.PORT+0xC
  ⟨0x290010, 16, 0x400, 1, 0, 0xFFFFFF03, 0, 0, 0, 0xFFFFFF03⟩,  -- FAB.PORT+0x10
  ⟨0x290018, 16, 0x400, 1, 0, 0, 0, 0, 0, 0xFFFFFFFF⟩,  -- FAB.PORT+0x18
  ⟨0x29001C, 16, 0x400, 1, 0, 0, 0, 0, 0, 0xFFFFFFFF⟩,  -- FAB.PORT+0x1C
  ⟨0x290020, 16, 0x400, 1, 0, 0, 0, 0, 0, 0xFFFFFFFF⟩,  -- FAB.PORT+0x20
  ⟨0x290024, 16, 0x400, 1, 0, 0, 0, 0, 0, 0xFFFFFFFF⟩,  -- FAB.PORT+0x24
  ⟨0x290028, 16, 0x400, 1, 0, 0, 0, 0, 0, 0xFFFFFFFF⟩,  -- FAB.PORT+0x28
  ⟨0x29002C, 16, 0x400, 1, 0, 0, 0, 0, 0, 0xFFFFFFFF⟩,  -- FAB.PORT+0x2C
  ⟨0x2A0000, 4, 4, 1, 0, 0xFFFFFFFF, 0, 0, 0, 0xFFFFFFFF⟩,  -- FAB.ROUTE[0]
  ⟨0x2A0040, 8, 4, 1, 0, 0xFFFFFFFF, 0, 0, 0, 0xFFFFFFFF⟩,  -- FAB.ROUTE[1]
  ⟨0x2A0080, 16, 4, 1, 0, 0xFFFFFFFF, 0, 0, 0, 0xFFFFFFFF⟩,  -- FAB.ROUTE[2]
  ⟨0x2A00C0, 16, 4, 1, 0, 0xFFFFFFFF, 0, 0, 0, 0xFFFFFFFF⟩,  -- FAB.ROUTE[3]
  ⟨0x2A0100, 4, 4, 1, 0, 0xFFFFFFFF, 0, 0, 0, 0xFFFFFFFF⟩,  -- FAB.ROUTE[4]
  ⟨0x2B0000, 5, 0x40, 1, 0, 0, 0, 0, 0, 0xFFFFFFFF⟩,  -- FAB.LEVEL+0x0
  ⟨0x2B0004, 5, 0x40, 1, 0, 0, 0, 0, 0, 0xFFFFFFFF⟩,  -- FAB.LEVEL+0x4
  ⟨0x2B0008, 5, 0x40, 1, 0, 0, 0, 0, 0, 0xFFFFFFFF⟩,  -- FAB.LEVEL+0x8
  ⟨0x2B000C, 5, 0x40, 1, 0, 0, 0, 0, 0, 0xFFFFFFFF⟩,  -- FAB.LEVEL+0xC
  ⟨0x2B0010, 5, 0x40, 1, 0, 0, 0, 0, 0, 0xFFFFFFFF⟩,  -- FAB.LEVEL+0x10
  ⟨0x2B0014, 5, 0x40, 1, 0, 0, 0, 0, 0, 0xFFFFFFFF⟩,  -- FAB.LEVEL+0x14
  ⟨0x2B0018, 5, 0x40, 1, 0, 0, 0, 0, 0, 0x1FFF⟩,  -- FAB.LEVEL+0x18
  ⟨0x2C0000, 2, 0x1000, 1, 0, 0xF, 0, 0, 0, 0xF0F⟩,  -- FAB.COLL
  ⟨0x2C0100, 2, 0x1000, 128, 4, 0xFFFFFFFF, 0, 0, 0, 0xFFFFFFFF⟩,  -- FAB.COLL.SLOT
  ⟨0x2C0400, 2, 0x1000, 8, 0x10, 0, 0, 0, 0, 0xFFFFFF0F⟩,  -- FAB.COLL.ST+0x0
  ⟨0x2C0404, 2, 0x1000, 8, 0x10, 0, 0, 0, 0, 0xFFFFFFFF⟩,  -- FAB.COLL.ST+0x4
  ⟨0x2C0408, 2, 0x1000, 8, 0x10, 0, 0, 0, 0, 0xFFFFFFFF⟩  -- FAB.COLL.ST+0x8
]

/-- Register words of the SEAM block, by BAR0 offset (Table 23.2). -/
def rowsSeam : List RegRow := [
  ⟨0x300000, 1, 0, 1, 0, 0, 0, 0, 0, 0xFF07⟩,  -- SEAM.CFG
  ⟨0x300010, 7, 8, 1, 0, 0, 0, 0, 0x702, 0x7FF⟩,  -- SEAM.DIE
  ⟨0x301000, 68, 0x40, 1, 0, 0, 0, 0, 0xFE03, 0x7FFFF⟩,  -- SEAM.B+0x0
  ⟨0x301004, 68, 0x40, 1, 0, 0xFF, 0, 0, 0x10, 0xFF⟩,  -- SEAM.B+0x4
  ⟨0x301008, 68, 0x40, 1, 0, 0, 0, 0, 0, 0xFFFFFFFF⟩,  -- SEAM.B+0x8
  ⟨0x30100C, 68, 0x40, 1, 0, 0, 0, 0, 0, 0xFFFFFFFF⟩,  -- SEAM.B+0xC
  ⟨0x301010, 68, 0x40, 1, 0, 0, 0, 0, 0, 0xF⟩,  -- SEAM.B+0x10
  ⟨0x301018, 68, 0x40, 1, 0, 0, 0, 0, 0, 0xFFFFFFFF⟩,  -- SEAM.B+0x18
  ⟨0x30101C, 68, 0x40, 1, 0, 0, 0, 0, 0, 0xFFFFFFFF⟩,  -- SEAM.B+0x1C
  ⟨0x301020, 68, 0x40, 1, 0, 0, 0, 0, 0, 0xFFF⟩,  -- SEAM.B+0x20
  ⟨0x301028, 68, 0x40, 1, 0, 0, 0, 0, 0, 0xFFFFFFFF⟩,  -- SEAM.B+0x28
  ⟨0x30102C, 68, 0x40, 1, 0, 0, 0, 0, 0, 0xFFFFFF⟩  -- SEAM.B+0x2C
]

/-- Register words of the CEL block, by BAR0 offset (Table 23.2). -/
def rowsCel : List RegRow := [
  ⟨0x380000, 20, 0x4000, 1, 0, 0, 0, 0, 0, 0xFF0F⟩,  -- CEL.STAT
  ⟨0x380004, 20, 0x4000, 1, 0, 0, 0, 0, 0, 0xFFFFFFFF⟩,  -- CEL.CH_OFFLINE
  ⟨0x380008, 20, 0x4000, 1, 0, 0xFFFF, 0, 0, 0x64005C5F, 0xFF03FFFF⟩,  -- CEL.THERM
  ⟨0x380010, 20, 0x4000, 1, 0, 0xF00, 0, 3, 0x800, 0xF0C⟩,  -- CEL.HAMPER_CTL
  ⟨0x380014, 20, 0x4000, 1, 0, 0, 0, 0, 0, 0x1FF01FF⟩,  -- CEL.HAMPER_STAT
  ⟨0x380020, 20, 0x4000, 1, 0, 0, 0, 0, 0, 0xFFFFFFFF⟩,  -- CEL.CNT+0x0
  ⟨0x380024, 20, 0x4000, 1, 0, 0, 0, 0, 0, 0xFFFFFFFF⟩,  -- CEL.CNT+0x4
  ⟨0x380028, 20, 0x4000, 1, 0, 0, 0, 0, 0, 0xFFFFFFFF⟩,  -- CEL.CNT+0x8
  ⟨0x38002C, 20, 0x4000, 1, 0, 0, 0, 0, 0, 0xFFFFFFFF⟩,  -- CEL.CNT+0xC
  ⟨0x380030, 20, 0x4000, 1, 0, 0, 0, 0, 0, 0xFFFFFFFF⟩,  -- CEL.CNT+0x10
  ⟨0x380038, 20, 0x4000, 1, 0, 0x3FF, 0, 0, 0x393, 0x3FF⟩,  -- CEL.RAS_CFG
  ⟨0x38003C, 20, 0x4000, 1, 0, 0, 0, 0, 0x20000, 0xFFFFFF⟩,  -- CEL.REPAIR
  ⟨0x380040, 20, 0x4000, 1, 0, 0, 0, 0, 0, 0xFFFFFFFF⟩,  -- CEL.LASTERR+0x0
  ⟨0x380044, 20, 0x4000, 1, 0, 0, 0, 0, 0, 0xFFFFFFFF⟩,  -- CEL.LASTERR+0x4
  ⟨0x380800, 20, 0x4000, 128, 8, 0, 0, 4, 0, 0xFFFFF003⟩,  -- CEL.RETIRE+0x0
  ⟨0x380804, 20, 0x4000, 128, 8, 0, 0, 0, 0, 0xFFFF⟩,  -- CEL.RETIRE+0x4
  ⟨0x381000, 20, 0x4000, 32, 0x40, 0xFFFF0F78, 0x80, 3, 0x10000, 0xFFFF0FFC⟩,  -- CEL.TG+0x0
  ⟨0x381008, 20, 0x4000, 32, 0x40, 0xFFFFF, 0, 0, 0, 0xFFFFF⟩,  -- CEL.TG+0x8
  ⟨0x38100C, 20, 0x4000, 32, 0x40, 0xFFFFF, 0, 0, 0xBFFFF, 0xFFFFF⟩,  -- CEL.TG+0xC
  ⟨0x381010, 20, 0x4000, 32, 0x40, 0xFFFFFFFF, 0, 0, 1, 0xFFFFFFFF⟩,  -- CEL.TG+0x10
  ⟨0x381018, 20, 0x4000, 32, 0x40, 0, 0, 0, 0, 0xFFFFFFFF⟩,  -- CEL.TG+0x18
  ⟨0x38101C, 20, 0x4000, 32, 0x40, 0, 0, 0, 0, 0xFFFFFFFF⟩,  -- CEL.TG+0x1C
  ⟨0x381020, 20, 0x4000, 32, 0x40, 0, 0, 0, 0, 0xFFFFFFFF⟩,  -- CEL.TG+0x20
  ⟨0x381024, 20, 0x4000, 32, 0x40, 0, 0, 0, 0, 0xFFFFFFFF⟩,  -- CEL.TG+0x24
  ⟨0x381028, 20, 0x4000, 32, 0x40, 0, 0, 0, 0, 0xFFFFFFFF⟩,  -- CEL.TG+0x28
  ⟨0x38102C, 20, 0x4000, 32, 0x40, 0, 0, 0, 0, 0xFFFFFFFF⟩,  -- CEL.TG+0x2C
  ⟨0x381030, 20, 0x4000, 32, 0x40, 0, 0, 0, 0, 0xFFFFFFFF⟩,  -- CEL.TG+0x30
  ⟨0x381034, 20, 0x4000, 32, 0x40, 0, 0, 0, 0, 0xFFFFFFFF⟩  -- CEL.TG+0x34
]

/-- Register words of the TLY block, by BAR0 offset (Table 23.2). -/
def rowsTly : List RegRow := [
  ⟨0x400000, 4, 0x8000, 4096, 8, 0xFFFF, 0, 0, 0, 0xFFFFFFFF⟩,  -- TLY.DIE+0x0
  ⟨0x400004, 4, 0x8000, 4096, 8, 0x1FFFFFFF, 0x20000000, 0, 0, 0x3FFFFFFF⟩,  -- TLY.DIE+0x4
  ⟨0x420000, 4, 0x4000, 4096, 4, 0, 0, 0xFFFF, 0, 0⟩,  -- TLY.DIE_ADD
  ⟨0x430000, 1024, 0x10, 1, 0, 0xFFFF, 0, 0, 0, 0xFFFFFFFF⟩,  -- TLY.PKG+0x0
  ⟨0x430004, 1024, 0x10, 1, 0, 0xFFFFFFF, 0x10000000, 0, 0, 0x1FFFFFFF⟩,  -- TLY.PKG+0x4
  ⟨0x430008, 1024, 0x10, 1, 0, 0x1FFFFF, 0, 0, 0, 0x1FFFFF⟩,  -- TLY.PKG+0x8
  ⟨0x43000C, 1024, 0x10, 1, 0, 0x3FF, 0, 0, 0, 0x3FF⟩,  -- TLY.PKG+0xC
  ⟨0x434000, 1024, 4, 1, 0, 0, 0, 0xFFFF, 0, 0⟩,  -- TLY.PKG_ADD
  ⟨0x438000, 4, 0x80, 8, 0x10, 0xFFFFFFFF, 0, 0, 0, 0xFFFFFFFF⟩,  -- TLY.DIE_MASK+0x0
  ⟨0x438004, 4, 0x80, 8, 0x10, 0xFFFFFFFF, 0, 0, 0, 0xFFFFFFFF⟩,  -- TLY.DIE_MASK+0x4
  ⟨0x438008, 4, 0x80, 8, 0x10, 0xFFFFFFFF, 0, 0, 0, 0xFFFFFFFF⟩,  -- TLY.DIE_MASK+0x8
  ⟨0x439000, 3, 4, 1, 0, 0, 0, 0, 0, 0xFFFFFFFF⟩  -- TLY.STAT+0x0
]

/-- Register words of the JOB block, by BAR0 offset (Table 23.2). -/
def rowsJob : List RegRow := [
  ⟨0x440000, 1, 0, 1, 0, 0, 0, 0, 0, 0xFFFFFF07⟩,  -- JOB+0x0
  ⟨0x440004, 1, 0, 1, 0, 0, 0, 0, 0, 0xFFFF0007⟩,  -- JOB+0x4
  ⟨0x440008, 3, 4, 1, 0, 0, 0, 0, 0, 0xFFFFFFFF⟩,  -- JOB+0x8
  ⟨0x440014, 1, 0, 1, 0, 0, 0, 0, 0, 0xFFFF⟩,  -- JOB+0x14
  ⟨0x440018, 1, 0, 1, 0, 0, 0, 0, 0x100, 0xFFFFFFFF⟩,  -- JOB+0x18
  ⟨0x440020, 1, 0, 1, 0, 0, 0, 0, 1, 0xFFFFFFFF⟩,  -- JOB+0x20
  ⟨0x440024, 1, 0, 1, 0, 0, 0, 0, 0, 0x1FFFFF⟩,  -- JOB+0x24
  ⟨0x440028, 1, 0, 1, 0, 0, 0, 0, 0, 0x3FFFF⟩,  -- JOB+0x28
  ⟨0x441000, 1024, 4, 1, 0, 0, 0, 0, 0, 0xFFFFFFFF⟩,  -- JOB.CERT
  ⟨0x442000, 1024, 4, 1, 0, 0, 0, 0, 0, 0xFFFFFFFF⟩,  -- JOB.AKCERT
  ⟨0x443000, 1024, 4, 1, 0, 0, 0, 0, 0, 0xFFFFFFFF⟩  -- JOB.IDKEY
]

/-- Register words of the BIST block, by BAR0 offset (Table 23.2). -/
def rowsBist : List RegRow := [
  ⟨0x480000, 1, 0, 1, 0, 0, 0, 0, 0, 0xFFFF011F⟩,  -- BIST+0x0
  ⟨0x480004, 1, 0, 1, 0, 0, 0, 0, 0, 0xFFFF⟩,  -- BIST+0x4
  ⟨0x480008, 2, 4, 1, 0, 0, 0, 0, 0, 0xFFFFFFFF⟩,  -- BIST+0x8
  ⟨0x480010, 1, 0, 1, 0, 0, 0, 0, 0, 0xFFFF001F⟩,  -- BIST+0x10
  ⟨0x480014, 5, 4, 1, 0, 0, 0, 0, 0, 0xFFFFFFFF⟩  -- BIST+0x14
]

/-- Register words of the PKL block, by BAR0 offset (Table 23.2). -/
def rowsPkl : List RegRow := [
  ⟨0x4C0000, 1, 0, 1, 0, 0, 0, 0, 1, 0x7FF3F⟩,  -- PKL.STAT
  ⟨0x4C0040, 11, 4, 1, 0, 0, 0, 0, 0, 0xFFFFFFFF⟩,  -- PKL.STAGE_END
  ⟨0x4C0080, 4, 0x10, 1, 0, 0, 0, 0, 0, 0xFFFFFFFF⟩,  -- PKL.COPY+0x0
  ⟨0x4C0084, 4, 0x10, 1, 0, 0, 0, 0, 0, 0xFFFFFFFF⟩,  -- PKL.COPY+0x4
  ⟨0x4C0088, 4, 0x10, 1, 0, 0, 0, 0, 0, 0x3FF⟩,  -- PKL.COPY+0x8
  ⟨0x4C008C, 4, 0x10, 1, 0, 0, 0, 0, 0, 3⟩,  -- PKL.COPY+0xC
  ⟨0x4C0100, 1, 0, 1, 0, 0, 0, 0, 1, 3⟩,  -- PKL.KEYSLOT0
  ⟨0x4C0120, 4, 0x40, 8, 4, 0, 0, 0, 0, 0xFFFFFFFF⟩,  -- PKL.KEYSLOT.HASH
  ⟨0x4C0140, 3, 0x40, 1, 0, 0, 0, 0, 0, 3⟩,  -- PKL.KEYSLOT
  ⟨0x4C0200, 1, 0, 1, 0, 0, 0, 0, 0, 0x3F⟩,  -- PKL.MIN.FW
  ⟨0x4C0204, 1, 0, 1, 0, 0, 0, 0, 0, 0xFFFFFFFF⟩,  -- PKL.MIN.LIST
  ⟨0x4C0300, 1, 0, 1, 0, 2, 0, 1, 0, 0x7FFF0E⟩,  -- PKL.UPD.CTL
  ⟨0x4C0308, 1, 0, 1, 0, 0xFFFFFFFF, 0, 0, 0, 0xFFFFFFFF⟩,  -- PKL.UPD.ADDR+0x0
  ⟨0x4C030C, 1, 0, 1, 0, 0xFFFF, 0, 0, 0, 0xFFFF⟩  -- PKL.UPD.ADDR+0x4
]

/-- Register words of the VER block, by BAR0 offset (Table 23.2). -/
def rowsVer : List RegRow := [
  ⟨0x500000, 1, 0, 1, 0, 0, 0, 0, 0x20300, 0xFFFFFF⟩,  -- VER.0
  ⟨0x500004, 1, 0, 1, 0, 0, 0, 0, 0x10200, 0xFFFFFF⟩,  -- VER.1
  ⟨0x500008, 1, 0, 1, 0, 0, 0, 0, 0x30300, 0xFFFFFF⟩,  -- VER.2
  ⟨0x50000C, 1, 0, 1, 0, 0, 0, 0, 0x20200, 0xFFFFFF⟩,  -- VER.3
  ⟨0x500010, 1, 0, 1, 0, 0, 0, 0, 0x10100, 0xFFFFFF⟩,  -- VER.4
  ⟨0x500014, 1, 0, 1, 0, 0, 0, 0, 0x10100, 0xFFFFFF⟩,  -- VER.5
  ⟨0x500018, 1, 0, 1, 0, 0, 0, 0, 0x10101, 0xFFFFFF⟩,  -- VER.6
  ⟨0x50001C, 1, 0, 1, 0, 0, 0, 0, 0x10100, 0xFFFFFF⟩,  -- VER.7
  ⟨0x500020, 1, 0, 1, 0, 0, 0, 0, 0xFF, 0xFF⟩,  -- VER.CAP
  ⟨0x500024, 1, 0, 1, 0, 0, 0, 0, 0, 0⟩,  -- VER.CAP+4
  ⟨0x500028, 1, 0, 1, 0, 0, 0, 0, 0, 7⟩  -- VER.PROFILE
]

/-- Register words of the crate window below the tile windows, by offset in the window (Table 23.3). -/
def rowsCrate : List RegRow := [
  ⟨0, 1, 0, 1, 0, 0x10000000, 0, 0, 0x2BC02BC, 0x17FF07FF⟩,  -- CRATE.CLK
  ⟨0x10, 1, 0, 1, 0, 0x1F00, 0, 0, 0x110, 0x31F1F⟩,  -- CRATE.ISSUE
  ⟨0x14, 1, 0, 1, 0, 0, 0, 0, 0, 0xFFFFFFFF⟩,  -- CRATE.ISSUE_STALL
  ⟨0x20, 2, 4, 1, 0, 0xFFFFFFFF, 0, 0, 0, 0xFFFFFFFF⟩,  -- CRATE.SCAN_MASK+0x0
  ⟨0x28, 1, 0, 1, 0, 0xFFFF, 0x10000, 0, 0x40, 0x1FFFF⟩,  -- CRATE.SCAN_CFG
  ⟨0x30, 1, 0, 1, 0, 0, 0, 0, 0x2BC, 0x3FF03FF⟩,  -- CRATE.GOV+0x0
  ⟨0x34, 2, 4, 1, 0, 0, 0, 0, 0, 0xFFFFFFFF⟩,  -- CRATE.GOV+0x4
  ⟨0x40, 8, 8, 1, 0, 0xFFFFFFFF, 0, 0, 0, 0xFFFFFFFF⟩,  -- CRATE.TLY_MASK+0x0
  ⟨0x44, 8, 8, 1, 0, 0xFFFFFFFF, 0, 0, 0, 0xFFFFFFFF⟩,  -- CRATE.TLY_MASK+0x4
  ⟨0x400, 64, 4, 1, 0, 0xFFFF, 0, 0, 0, 0xFFFF⟩,  -- CRATE.LFSR
  ⟨0x800, 64, 0x10, 1, 0, 0, 0, 0, 0, 0xFFFFF⟩,  -- CRATE.MSUM+0x0
  ⟨0x804, 64, 0x10, 1, 0, 0, 0, 0, 0, 0xFFFFFFFF⟩,  -- CRATE.MSUM+0x4
  ⟨0x808, 64, 0x10, 1, 0, 0, 0, 0, 0, 0xFFFFFFFF⟩,  -- CRATE.MSUM+0x8
  ⟨0x80C, 64, 0x10, 1, 0, 0, 0, 0, 0, 0xFFFFFFFF⟩,  -- CRATE.MSUM+0xC
  ⟨0xC00, 64, 0x10, 1, 0, 0x40F, 0x200, 0, 0, 0x70F⟩,  -- CRATE.SHELF_CFG
  ⟨0xC04, 64, 0x10, 1, 0, 0, 0, 0, 0, 0xFFF0FFF⟩,  -- CRATE.SHELF_WAYS
  ⟨0xC08, 64, 0x10, 1, 0, 0, 0, 0, 0, 0xFFFFFFFF⟩,  -- CRATE.SHELF_ECC
  ⟨0xC0C, 64, 0x10, 1, 0, 0xFFFF, 0, 0, 0, 0xFFFF⟩,  -- CRATE.SHELF_LFSR
  ⟨0x1000, 256, 0x10, 1, 0, 0xFFFF, 0, 0, 0, 0xFFFFFFFF⟩,  -- CRATE.TALLY+0x0
  ⟨0x1004, 256, 0x10, 1, 0, 0, 0, 0xFFFF, 0, 0⟩,  -- CRATE.TALLY+0x4
  ⟨0x1008, 256, 0x10, 1, 0, 0x7FFFFFF, 0x8000000, 0, 0, 0xFFFFFFF⟩,  -- CRATE.TALLY+0x8
  ⟨0x100C, 256, 0x10, 1, 0, 0xFFFF, 0, 0, 0, 0xFFFF⟩  -- CRATE.TALLY+0xC
]

/-- Register words of a tile window, by offset in the window (Table 2.6). -/
def rowsTile : List RegRow := [
  ⟨0, 1, 0, 1, 0, 0, 0, 0, 0, 0x7FFF⟩,  -- TILE.ID
  ⟨4, 1, 0, 1, 0, 3, 8, 0, 1, 0xFF⟩,  -- TILE.RUN
  ⟨8, 1, 0, 1, 0, 0, 0, 0, 0x2BC02BC, 0x3FF03FF⟩,  -- TILE.FMAX
  ⟨0xC, 1, 0, 1, 0, 0xFF00FF, 0, 0, 4, 0xFF00FF⟩,  -- TILE.CODE
  ⟨0x10, 1, 0, 1, 0, 0x80000001, 0, 0, 0, 0x80000001⟩,  -- TILE.FAR+0x0
  ⟨0x14, 1, 0, 1, 0, 0xFFFF, 0, 0, 0, 0xFFFF⟩,  -- TILE.FAR+0x4
  ⟨0x20, 3, 4, 1, 0, 0x1F, 0, 0, 0, 0x1F1F1F⟩,  -- TILE.QPTR[0]
  ⟨0x30, 3, 4, 1, 0, 0, 0xC, 0x3000000, 0, 0x1FFF0F⟩,  -- TILE.QSTAT[0]
  ⟨0x40, 16, 4, 1, 0, 0xFFFFFFFF, 0, 0, 0, 0xFFFFFFFF⟩,  -- TILE.LB
  ⟨0xC0, 1, 0, 1, 0, 0, 0, 0, 0, 0xFF1FFFFF⟩,  -- TILE.VSUM+0x0
  ⟨0xC4, 15, 4, 1, 0, 0, 0, 0, 0, 0xFFFFFFFF⟩  -- TILE.VSUM+0x4
]

/-- Register words of the tile tally unit, by control-core offset (Table 8.7). -/
def rowsTileTally : List RegRow := [
  ⟨0, 64, 4, 1, 0, 0xFFFF, 0, 0, 0, 0xFFFF⟩,  -- TILE_TLY.VALUE
  ⟨0x100, 64, 4, 1, 0, 0, 0, 0xFFFF, 0, 0⟩,  -- TILE_TLY.ADD
  ⟨0x200, 64, 4, 1, 0, 0, 0, 0, 0, 0⟩,  -- TILE_TLY.TAKE
  ⟨0x300, 2, 4, 1, 0, 0, 0xFFFFFFFF, 0, 0, 0xFFFFFFFF⟩,  -- TILE_TLY.RANGE
  ⟨0x310, 4, 4, 1, 0, 0xFFFF00BF, 0, 0, 0, 0xFFFF00BF⟩,  -- TILE_TLY.WAKE
  ⟨0x320, 1, 0, 1, 0, 0, 0, 0xFFFFFFFF, 0, 0⟩  -- TILE_TLY.SEND
]

/-- First offset of the tile tally units in the model's register map. They have no BAR0 address (Table 23.1), so the
model keys them above the 4 GiB line, 4 KiB per tile (log entry 16). -/
def tileTallyBase : Nat := 0x100000000

/-- The rows that may hold the word at map offset `a`, and the offset they are matched by. -/
def rowsFor (a : Nat) : List RegRow × Nat :=
  if a < 0x10000 then (rowsId, a) else if a < 0x20000 then (rowsHp, a) else if a < 0x40000 then (rowsRing, a)
  else if a < 0x100000 then (rowsStat, a) else if a < 0x140000 then (rowsFlt, a) else if a < 0x180000 then (rowsStg, a)
  else if a < 0x1C0000 then (rowsGov, a) else if a < 0x200000 then (rowsPwr, a) else if a < 0x240000 then (rowsXlt, a)
  else if a < 0x280000 then (rowsHatch, a) else if a < 0x300000 then (rowsFab, a) else if a < 0x380000 then (rowsSeam, a)
  else if a < 0x3D0000 then (rowsCel, a) else if a < 0x400000 then ([], a) else if a < 0x440000 then (rowsTly, a)
  else if a < 0x480000 then (rowsJob, a) else if a < 0x4C0000 then (rowsBist, a) else if a < 0x500000 then (rowsPkl, a)
  else if a < 0x510000 then (rowsVer, a) else if a < 0x1000000 then ([], a)
  else if a < 0x1C00000 then
    let off := (a - 0x1000000) % 0x8000
    if off < 0x4000 then (rowsCrate, off) else (rowsTile, (off - 0x4000) % 0x100)
  else if a < tileTallyBase then ([], a)
  else if a < tileTallyBase + 24576 * 0x1000 then (rowsTileTally, (a - tileTallyBase) % 0x1000)
  else ([], a)

/-- The row of the word at offset `a`; none where no block lists the place (R589). -/
def regRow (a : Nat) : Option RegRow :=
  let p := rowsFor a
  p.1.find? (fun r => r.has p.2)

/-- Global tile index of a crate-window offset's tile register or per-tile hub register (R11, R63). -/
def crateOfAddr (a : Nat) : Nat := (a - 0x1000000) / 0x8000

/-- The reset value of the word at offset `a` (Tables 23.2 and 23.3). Three groups depend on the tile index: TILE.ID,
CRATE.LFSR (R98) and CRATE.SHELF_LFSR (R211). -/
def resetWord (a : Nat) : Word :=
  match regRow a with
  | none => 0#32
  | some r =>
    if 0x1000000 ≤ a ∧ a < 0x1C00000 then
      let off := (a - 0x1000000) % 0x8000
      let c := crateOfAddr a
      if 0x400 ≤ off ∧ off < 0x500 then BitVec.ofNat 32 (Nat.xor 0xACE1 (64 * c + (off - 0x400) / 4))
      else if 0xC00 ≤ off ∧ off < 0x1000 ∧ off % 16 = 12 then
        BitVec.ofNat 32 (Nat.xor 0xB5C3 (64 * c + (off - 0xC00) / 16))
      else if 0x4000 ≤ off ∧ off % 0x100 = 0 then BitVec.ofNat 32 (64 * c + (off - 0x4000) / 0x100)
      else BitVec.ofNat 32 r.rst
    else BitVec.ofNat 32 r.rst

end Sys2Proof.Machine
end

