-- ==== Sys2Proof/Machine/State.lean ====
section
/-! DEFINITION. The state of the ZV48 block model, as plain data: the register map, the memories, the units' state that no
register shows, and the queue of waiting commands. -/
namespace Sys2Proof.Machine

/-- Nothing in this model ends in a fault: every failure that the spec describes is a status, a record or an interrupt,
which is a next state. The one constructor is raised by no command; the type is kept inhabited for the host's tools. -/
inductive Fault where
  /-- Raised by no command (safe: no run of the model stops here). -/
  | none
  deriving DecidableEq, Repr

/-- Why a command has no next state. -/
inductive Refusal where
  /-- The command has no meaning in this model yet; raised by the arms of `exec` that name it (safe: the run stops). -/
  | notModelled (mnemonic : String)
  deriving DecidableEq, Repr

/-! Tiles (chapters 2, 4, 6, 7). -/

/-- The state of a shelf cache line (Table 7.1). -/
inductive LineSt where
  | invalid | clean | dirty | part
  deriving DecidableEq, Repr

/-- The tag of one line of a cache way: its state, its physical line (address / 128), the virtual page through which it
was allocated (R311), its written mask W and whether RESCUE holds it (R165). -/
structure Line where
  st : LineSt
  pline : Nat
  vpage : Nat
  mask : BitVec 128
  held : Bool
  deriving DecidableEq, Repr

/-- What an access reaches in the device physical map (Table 11.1). -/
inductive Place where
  | cellar (a : Nat)
  | shelf (tile off : Nat)
  | opAlias (opc a : Nat)
  | hostAp (port x : Nat)
  | hatch (w x : Nat)
  deriving DecidableEq, Repr

/-- What a chunk keeps of its outbound hatch window (R319): the window, the remote place, inbound hatch and offset, and the
opcode of operation writes, 0 for plain writes (R320). -/
structure Window where
  w : Nat
  place : Nat
  hatch : Nat
  off : Nat
  opc : Nat
  deriving DecidableEq, Repr

/-- A mover chunk in flight (R58, R59): its position in transfer order, the bytes it carries, its destination, the
CRC-32C computed at the source, the virtual page of its destination (R311), the virtual pages, first and count, that its translations
map, the number of the last shootdown that its crate had applied when it was translated (R314), and the tag of the fabric request it
waits for, if any. -/
structure Chunk where
  pos : Nat
  len : Nat
  dst : Place
  own : Bool
  data : List Byte
  crc : Word
  vpage : Nat
  spans : List (Nat × Nat)
  sdDone : Nat
  waitTag : Option Nat
  /-- The outbound window as it stood at the translation (R319), for a chunk bound for a hatch. -/
  win : Option Window
  /-- Its write through its window has not been sent: it is the last of a hatch transfer and waits for the earlier ones (R366), or its
  bytes have not come through another window. -/
  unsent : Bool
  /-- The status with which a response ended it, applied when every earlier chunk has been accepted. -/
  fail : Option Nat
  last : Bool
  deriving DecidableEq, Repr

/-- A carry (R191, Table 6.6): VALUE, KIND, OPC, BROKEN, and whether a reserved field is non-zero. -/
structure Carry where
  value : Nat
  kind : Nat
  opc : Nat
  broken : Bool
  rsv : Bool
  deriving DecidableEq, Repr

/-- What a scan or reduction with a carry keeps while it waits (R191): the length of the leading segment, the number of
results, the leading segment's local results and the running value as encodings in the accumulation format, the codes written
to Z, the carry-in taken, the carry-out that waits for room on its link, and the status with which it then ends. -/
structure CarryWait where
  lead : Nat
  n : Nat
  locals : List Nat
  run : Nat
  zs : List Nat
  cin : Option Nat
  out : Option Carry
  code : Nat
  deriving DecidableEq, Repr

/-- What a running descriptor still waits for. -/
inductive Phase where
  /-- Nothing but its own work. -/
  | work
  /-- A carry on the crate chain or in a record, or room for its carry-out. -/
  | carry (w : CarryWait)
  /-- The second pass of RESCUE is due (R164): the output scale record's SCALE, ZP, STAGE_OFF and STAGE_BUF as read at the
  start (R158), the first pass's AMAX as an FP32 encoding, QCLAMPS, QFLUSHES and fault bits. -/
  | rescue (scale zp stageOff stageBuf amax qclamps qflushes faults : Nat)
  deriving DecidableEq, Repr

/-- A running descriptor (R39, R48). -/
structure Run where
  /-- Its slot pointer and its 64 bytes. -/
  slot : Nat
  desc : BitVec 512
  /-- The loop record read at the start (R178), 0 where there is none. -/
  loop : BitVec 512
  /-- Late-bound values read at the start, by late-bindable field (R47, R48). -/
  lbv : List (Nat × Nat)
  /-- The buffer descriptors read at the start, by number (R48). -/
  bufs : List (Nat × BitVec 128)
  /-- The last accepted shootdown sequence at the start, and how many had been accepted (R313). -/
  shoot : Nat
  /-- Bytes issued, bytes or elements done, and the CRC-32C register over the delivered payload. -/
  pos : Nat
  done : Nat
  crc : Word
  flight : List Chunk
  /-- Destination kind of the first chunk when ARR_EN is set: 1 shelf, 2 hatch, 0 where none is fixed (R62). -/
  destKind : Nat
  /-- The indices of the group being moved (R54), and the status that ends the transfer once no chunk is in flight. -/
  idx : List Nat
  stop : Option Nat
  /-- The receiving tile of the last chunk accepted, if it lay in a shelf (R62). -/
  recv : Option Nat
  /-- A FLUSH waits for this descriptor; the number of owned slots it then retires (R43). -/
  flush : Option Nat
  /-- A chunk of it has landed corrupt without a check of its own (R588). -/
  bad : Bool
  /-- FLAGS, CLAMPS and FLUSHES of the descriptor (R101). -/
  flags : BitVec 8
  clamps : Nat
  flushes : Nat
  phase : Phase
  /-- Register words that the completion writes before the status word (R139, R196). -/
  post : List (Nat × Word)
  /-- The status code once the engine has finished. -/
  ended : Option Nat
  deriving DecidableEq, Repr

/-- A slot handed to an engine: its 5-bit pointer and the 64 bytes it held when TAIL was advanced (R38). -/
structure Slot where
  ptr : Nat
  desc : BitVec 512
  /-- The engine read poison in it (R222). -/
  bad : Bool
  deriving DecidableEq, Repr

/-- One engine queue: the slots the engine owns, oldest first, and the descriptor it runs. -/
structure Engine where
  owned : List Slot
  run : Option Run
  deriving DecidableEq, Repr

/-- The control core's registers (R32): pc, x1 to x31 and the machine-mode CSRs by number, each map canonical with the
value 0 unlisted (log entry 7), whether it waits in WFI and whether it has stopped. -/
structure Cpu where
  pc : Word
  x : List (Nat × Word)
  csr : List (Nat × Word)
  deriving DecidableEq, Repr

/-- A held translation (Table 11.4): first page and page count of the device virtual range it maps, physical base, and
permissions. -/
structure Tlb where
  vpage : Nat
  pages : Nat
  pbase : Nat
  rd : Bool
  wr : Bool
  deriving DecidableEq, Repr

/-- The state of a tile that no register shows. -/
structure Tile where
  cpu : Cpu
  eng0 : Engine
  eng1 : Engine
  eng2 : Engine
  /-- Tags of the cache ways, by 12 × set + way. -/
  lines : List (Nat × Line)
  /-- Latent array errors by 64-bit word of the shelf (way × 2048 + set × 16 + word): 1 = one bit, 2 = two bits (R217). -/
  eccErr : List (Nat × Nat)
  /-- Corrected-error window of each way: errors counted, 0 = no window open (R219). -/
  eccWin : List (Nat × Nat)
  /-- The LOCK value and the way set of a change in progress (R203). -/
  lockNew : Option Nat
  /-- Ways whose disable is due, by way: 1 after corrected errors, 2 after an uncorrectable error, 3 started (R220). -/
  wayDis : List (Nat × Nat)
  /-- Next line of the scrub, by way × 128 + set (R225). -/
  scrub : Nat
  /-- Micro-TLB, most recently used first (R301, Table 11.4). -/
  tlb : List Tlb
  /-- A far-window load that waits for a shelf fill: physical line and virtual page (R205). -/
  fill : Option (Nat × Nat)
  /-- A fill that failed: its physical line and the status that the waiting load takes. -/
  fillBad : Option (Nat × Nat)
  /-- The core of a parked tile runs once the tile is unparked: it was released, or TILE.RUN was written, while it was parked
  (Table 2.12). -/
  woken : Bool
  deriving DecidableEq, Repr

/-- An engine with no slot and nothing running. -/
def Engine.idle : Engine := ⟨[], none⟩

/-- An invalid line. -/
def Line.none : Line := ⟨.invalid, 0, 0, 0#128, false⟩

/-- A tile at its reset (log entry 7 for the core's registers). -/
def Tile.fresh : Tile :=
  { cpu := ⟨0x1000#32, [], []⟩, eng0 := .idle, eng1 := .idle, eng2 := .idle, lines := [], eccErr := [], eccWin := [],
    lockNew := none, wayDis := [], scrub := 0, tlb := [], fill := none, fillBad := none, woken := false }

/-! Tallies and faults (chapters 8 and 21). -/

/-- An increment on its way to a tally (R227, R232): the tally address, the receiving tile if any, the signed amount, its
source kind and sender for R233, and the die that it leaves from, numbered as SEAM.DIE (T0 to T3, H, N, S). -/
structure Inc where
  addr : Nat
  tile : Option Nat
  amount : Int
  src : Nat
  sender : Nat
  die : Nat
  deriving DecidableEq, Repr

/-- A fault record (Table 21.1) before it is placed. -/
structure FRec where
  code : Nat
  cls : Nat
  flags : Nat
  kind : Nat
  index : Nat
  plt : Nat
  detail : List Byte
  deriving DecidableEq, Repr

/-- A part of a carry record that lies in one 4 KiB page: where it goes, the outbound window as it stood at the translation (R319), the
virtual page, and its length. -/
structure CarryPart where
  dst : Place
  win : Option Window
  vpage : Nat
  len : Nat
  deriving DecidableEq, Repr

/-- A carry record on its way (R192): the sending tile, where its parts go, its bytes and CRC-32C, and the tally address that its
arrival increments, if any. -/
structure CarryRec where
  sender : Nat
  parts : List CarryPart
  bytes : List Byte
  crc : Word
  tally : Option Nat
  deriving DecidableEq, Repr

/-- A page walk in progress (Table 11.4): the 4 KiB virtual page, the level and table of the next read, the requesters that
wait for it (2 × tile for a mover, 2 × tile + 1 for a control core), and the level and reason of its fault once it has ended
in one. -/
structure Walk where
  vpage : Nat
  level : Nat
  table : Nat
  waiters : List Nat
  bad : Option (Nat × Nat)
  deriving DecidableEq, Repr

/-- A walk-cache entry (Table 11.4): a non-leaf entry read at level 1 or 2, the index bits above it and the next table. -/
structure WalkEntry where
  level : Nat
  key : Nat
  table : Nat
  deriving DecidableEq, Repr

/-- A pending shootdown (R310, R314): its sequence, its number among all accepted ones, its range in 4 KiB pages, and the crates
that have applied it. -/
structure Shootdown where
  seq : Nat
  num : Nat
  lo : Nat
  hi : Nat
  applied : List Nat
  deriving DecidableEq, Repr

/-- The state of a crate that no register shows: the issue limit waiting for the next frame (R136), the carries held on the
chain links by the tile that will take them (R191), the translation and walk caches (Table 11.4). -/
structure Crate where
  pendK : Option Nat
  links : List (Nat × List Carry)
  /-- Carries still to come on a link, by the tile it leads to, whose descriptors have ended without them (R191). -/
  skips : List (Nat × Nat)
  tc : List Tlb
  wc : List WalkEntry
  walks : List Walk
  /-- Number of the last shootdown whose step 1 of R311 the crate has performed. -/
  sdDone : Nat
  /-- The clock generator has failed (R73). -/
  clockLost : Bool
  /-- A frequency step in progress and its target in MHz (R68). -/
  stepTo : Option Nat
  /-- Frequency steps are frozen by a droop response (R475). -/
  frozen : Bool
  /-- The droop of the response in force has cleared (R474). -/
  droopClear : Bool
  /-- The governor has put the crate into crate clock off (Table 2.15). -/
  govOff : Bool
  deriving DecidableEq, Repr

/-- A crate at its reset. -/
def Crate.fresh : Crate := { pendK := none, links := [], skips := [], tc := [], wc := [], walks := [], sdDone := 0, clockLost := false, stepTo := none, frozen := false, droopClear := false, govOff := false }

/-- A host port's state that no BAR0 register shows: PERST#, its configuration space (Table 14.1), and its MSI-X table words
and pending bit (R595). -/
structure HPort where
  perst : Bool
  bar0 : Nat
  bar2 : Nat
  bar2Size : Nat
  mse : Bool
  dstate : Nat
  msixEn : Bool
  msixMask : Bool
  msixTab : List (Nat × Word)
  pba : Bool
  ideAssoc : List (Nat × Nat × Nat)
  deriving DecidableEq, Repr

/-- A host port after package reset. -/
def HPort.fresh : HPort :=
  { perst := true, bar0 := 0, bar2 := 0, bar2Size := 0, mse := false, dstate := 0, msixEn := false, msixMask := false,
    msixTab := [], pba := false, ideAssoc := [] }

/-- The answer that the device last gave to a reader outside the block: a status (0 = data, 1 = UR, 2 = Completer Abort,
3 = poisoned data, 4 = absent, 5 = fault, 6 = RRS, 7 = busy error of the debug module) and the bytes. -/
structure Answer where
  status : Nat
  data : List Byte
  deriving DecidableEq, Repr

/-! The cellar and the host caches (chapters 9 and 10). -/

/-- A region of the carving (R243): spread or near, its die and its size in bytes. -/
structure Region where
  spread : Bool
  die : Nat
  size : Nat
  deriving DecidableEq, Repr

/-- A hamper entry (R249): its line, 128 bytes, the mask of bytes written, a poison mark per burst, the host ports whose
posted bytes it holds (R247), and whether a FLUSH covers it (R252). -/
structure HEntry where
  line : Nat
  data : List Byte
  mask : BitVec 128
  poison : Nat
  ports : List Nat
  covered : Bool
  deriving DecidableEq, Repr

/-- What a home keeps of a pseudo-channel row: corrected errors in its open window, the pilot-light count at the first of them, and
whether it has been repaired (R263, R264). -/
structure CRow where
  ce : Nat
  first : Nat
  repaired : Bool
  deriving DecidableEq, Repr

/-- A row without errors. -/
def CRow.fresh : CRow := ⟨0, 0, false⟩

/-- A cache state of Table 10.1; I is a line that is not listed. -/
inductive CSt where
  | i | s | f | e | m
  deriving DecidableEq, Repr

/-- A line in an L2 or in the system cache: state, 128 bytes, and its poisoned bursts (R295). -/
structure CLine where
  st : CSt
  data : List Byte
  poison : Nat
  deriving DecidableEq, Repr

/-- A line that no cache holds. -/
def CLine.none : CLine := ⟨.i, [], 0⟩

/-- A directory entry (Table 10.2), in allocation order in its list. -/
structure Dir where
  line : Nat
  owner : Option Nat
  vec : Nat
  f : Nat
  deriving DecidableEq, Repr

/-- A request of a core on its way through the protocol: kind 0 RdShared, 1 RdUnique, 2 Upgrade, 3 Atomic; stage 0 on its
way to the home, 1 taken, 2 refused and waiting to resend (R288), 3 ended without a line; the operands of an atomic (address,
size, operation, operand, comparand), then its status and old value; the Data and Comp it holds. -/
structure CReq where
  core : Nat
  line : Nat
  kind : Nat
  age : Nat
  stage : Nat
  op : List Nat
  data : Option CLine
  comp : Option CSt
  deriving DecidableEq, Repr

/-- An eviction that awaits WBAck (R284): who evicts, the line, its data where it is a WriteBack, whether it has reached the
home (R294), and whether the home has consumed it. -/
structure Evict where
  agent : Nat
  line : Nat
  wb : Option CLine
  held : Bool
  consumed : Bool
  deriving DecidableEq, Repr

/-- What a transaction at a home serves. -/
inductive TxKind where
  /-- A caching request of a core. -/
  | caching (core : Nat) (kind : Nat)
  /-- A host core's atomic: target address, size in bytes, operation and operands. -/
  | atomic (core a size op v cmp : Nat)
  /-- An uncached read of n bytes. -/
  | uncRead (a n : Nat)
  /-- An uncached write: address, bytes, sending port. -/
  | uncWrite (a : Nat) (bs : List Byte) (port : Option Nat)
  /-- A back-invalidation on behalf of a core's request of a kind for another line (R287). -/
  | backInv (core line kind : Nat)
  deriving DecidableEq, Repr

/-- An open transaction: its line, what it serves, the agents whose snoop responses are outstanding, whether Comp and Data
have been sent, the line's data that a response brought for the home's own use, and the state that the requester is granted. -/
structure Txn where
  line : Nat
  kind : TxKind
  waits : List Nat
  comped : Bool
  sent : Bool
  got : Option CLine
  grant : CSt
  /-- It holds one of the trackers reserved for requests of age 15 (R288). -/
  aged : Bool
  deriving DecidableEq, Repr

/-- Messages of Table 10.3 in flight other than requests and evictions. Agents: cores 0 to 95, system cache 96, and 128 + c for
a snoop to cluster c, which its agent delivers to the cores that hold the line (R279). -/
inductive Msg where
  /-- A snoop: kind 0 SnpShared, 1 SnpUnique, 2 SnpOnce, 3 SnpInv, 4 Recall; target agent, the line and the requester. -/
  | snp (kind agent line req : Nat)
  /-- A response of Table 10.4 (codes in table order 0 to 5) with dirty data. -/
  | resp (kind agent line code : Nat) (dirty : Option CLine)
  /-- The line, in the granted state. -/
  | data (core line : Nat) (d : CLine)
  | comp (core line : Nat) (st : CSt)
  | compAck (core line : Nat)
  | retry (core line : Nat)
  | wbAck (agent line : Nat)
  deriving DecidableEq, Repr

/-- The registers of a host core: pc, mode (3 machine, 1 supervisor, 0 user), x, f and v registers and CSRs by number, each map
canonical with the value 0 unlisted (log entry 7), the reservation's 64-byte block (R426), the hold of R427, whether it
waits in WFI, and, for the debug module (R433), whether it is halted, its halt group (0 is none) and its triggers. The interrupt files
of R432 are CSRs from 0x10000 (machine) and 0x20000 (supervisor) by their indirect register number. -/
structure HCore where
  pc : Nat
  mode : Nat
  x : List (Nat × Nat)
  f : List (Nat × Nat)
  v : List (Nat × Nat)
  csr : List (Nat × Nat)
  resv : Option Nat
  hold : Bool
  wfi : Bool
  halted : Bool
  group : Nat
  trigs : List (Nat × Trig)
  deriving DecidableEq, Repr

/-- A host core at its reset. -/
def HCore.fresh : HCore :=
  { pc := 0, mode := 3, x := [], f := [], v := [], csr := [], resv := none, hold := false, wfi := false, halted := false, group := 0,
    trigs := [] }

/-- A posted write on its way to its home: address, bytes, and the host port that sent it, if a host port did. -/
structure HomeWrite where
  a : Nat
  bs : List Byte
  port : Option Nat
  deriving DecidableEq, Repr

/-- A request that this device has sent into the fabric and that awaits its response (R365): its tag, the mover's tile and the
position of the chunk (2^40 for an engine's own access, 2^40 + 1 for a core's), the outbound window, whether it is a read, and what a
shootdown's post needs of its translations (R314). -/
structure FabReq where
  tag : Nat
  tile : Nat
  pos : Nat
  w : Nat
  /-- The port by which it was sent. -/
  port : Nat
  read : Bool
  spans : List (Nat × Nat)
  sdDone : Nat
  deriving DecidableEq, Repr

/-! Seams (chapter 12). -/

/-- One direction of a bundle: lanes and clocks that are not usable, CRC failures of each lane in its open window (R336), and
how often the flit at the head has failed (R337). -/
structure SeamDir where
  bad : List Nat
  badClk : List Nat
  cnt : List (Nat × Nat)
  tries : Nat
  deriving DecidableEq, Repr

/-- A bundle: its A to B and B to A directions, and the failing lanes and clocks that its hold handles, as direction (0 A to B, 1
B to A) and lane, or 68 + clock (R338, R343). -/
structure Seam where
  ab : SeamDir
  ba : SeamDir
  due : List (Nat × Nat)
  deriving DecidableEq, Repr

/-- A bundle with every lane good. -/
def Seam.fresh : Seam := ⟨⟨[], [], [], 0⟩, ⟨[], [], [], 0⟩, []⟩

/-! The fabric (chapter 13). -/

/-- A fabric port's state that no register shows: its lanes that are not good, codewords that named each lane in the open
window (R354), whether it retrains for a narrowing (R355), whether it leaves Detect for a retrain of R352, and the tick at which it
left Up (R373). -/
structure FPort where
  bad : List Nat
  cw : List (Nat × Nat)
  narrowing : Bool
  downAt : Option Nat
  /-- Lanes that failed a self-test slice (R575). -/
  lanesOut : List Nat
  /-- The partner's credits of each virtual channel, by packets for Sync and bytes for the others (Table 13.4). -/
  grant : List Nat
  /-- Credits in use, by pool (R361). -/
  used : List (Nat × Nat)
  deriving DecidableEq, Repr

/-- The credits of Table 13.4, by virtual channel. -/
def tableCredits : List Nat := [32, 8192, 16384, 32768, 65536, 65536, 4096, 0]

/-- A port as it comes out of reset. -/
def FPort.fresh : FPort := ⟨[], [], false, none, [], tableCredits, []⟩

/-- A packet that waits at a port for credits (R357, R360): the port, the port by which it came if it came from another device, and
the packet. -/
structure FabHeld where
  port : Nat
  via : Option Nat
  pkt : Packet
  deriving DecidableEq, Repr

/-- Response credits that a request sent on has taken (R360): the port by which it came, its source and tag, and the bytes. -/
structure FabRsv where
  port : Nat
  src : Nat
  tag : Nat
  bytes : Nat
  deriving DecidableEq, Repr

/-- An inbound hatch request that has been admitted and still waits at its target (R324): the entry, the port by which it came, the
entry's BASE when its header arrived (R321), and the packet. -/
structure InReq where
  entry : Nat
  port : Nat
  base : Nat
  pkt : Packet
  deriving DecidableEq, Repr

/-- A collective descriptor that runs (R380): engine, slot pointer, its 64 bytes, the step in progress over both halves, whether
READY has come from the next member, bytes sent and acknowledged in the step, bytes accepted by step. -/
structure Coll where
  e : Nat
  ptr : Nat
  desc : BitVec 512
  step : Nat
  ready : Bool
  sent : Nat
  acked : Nat
  got : List (Nat × Nat)
  deriving DecidableEq, Repr

/-! Host ports (chapter 14). -/

/-- A ring's state that no register shows: the pointer position of the next fetch since it was enabled (R399), and how often the
entry there has been fetched again (R400). -/
structure RingSt where
  n : Nat
  tries : Nat
  deriving DecidableEq, Repr

/-- A message in the resident driver's queue (R438): the ring and SEQ of the DRIVER_MSG that brought it, none for a Grenlink CTRL
packet, and its bytes. -/
structure DrvMsg where
  cmd : Option (Nat × Nat)
  data : List Byte
  deriving DecidableEq, Repr

/-! Cadence plans (chapter 18). -/

/-- A step record (Table 18.2). -/
structure PStep where
  trig : Nat
  lane : Nat
  kMin : Nat
  hint : Nat
  tally : Nat
  src : Nat
  offset : Nat
  deadline : Nat
  ends : List Nat
  first : Nat
  count : Nat
  power : Nat
  deriving DecidableEq, Repr

/-- An item record (Table 18.3) with its parameter block. -/
structure PItem where
  kind : Nat
  preds : List Nat
  flags : Nat
  crateLo : Nat
  crateHi : Nat
  tiles : Nat
  extra : Nat
  param : List Byte
  deriving DecidableEq, Repr

/-- A plan as the device keeps it (R489). -/
structure Plan where
  id : Nat
  job : Nat
  flags : Nat
  period : Nat
  slip : Nat
  near : List Nat
  spread : Nat
  headroom : Nat
  ports : List Nat
  steps : List PStep
  items : List PItem
  /-- Worst-case length of each step in 0.1 ns, and the reservation of each group in units of 0.125 W, as priced (R497, R511). -/
  lens : List Nat
  resv : List Nat
  deriving DecidableEq, Repr

/-- What a STOCKTAKE found under the conditions that it read at its start, and has still to write (R500 to R503): COND_GEN as it stood
then, REASON without CHANGED, bytes 2 to 9 of DETAIL, the plan as priced, the slack-table entries left and the number of those done. -/
structure Take where
  token : Nat
  reason : Nat
  verdict : List Byte
  plan : Plan
  table : List (List Byte)
  done : Nat
  deriving DecidableEq, Repr

/-- A command that has been accepted and has not ended: its ring (16 × port + ring), its 64 bytes, STATE, GEN, PROGRESS, TOTAL,
VALID_PREFIX, the bytes of DETAIL and the tick of its acceptance or of its last progress write (R411). -/
structure Cmd where
  ring : Nat
  entry : List Byte
  st : Nat
  gen : Nat
  progress : Nat
  total : Nat
  valid : Nat
  detail : List Byte
  plt : Nat
  /-- The host path of its port was lost after it was accepted: none of its records goes to host memory (R417). -/
  noHost : Bool
  /-- What a running STOCKTAKE found (R500 to R503). -/
  take : Option Take
  deriving DecidableEq, Repr

/-- An unfinished instance of a step (R510, R513): step, period, start tick, END tallies that it still awaits, causes in force during
it, and whether a step-fatal fault has met it. -/
structure PInst where
  step : Nat
  period : Nat
  start : Nat
  ends : List Nat
  causes : Nat
  failed : Bool
  deriving DecidableEq, Repr

/-- The running plan: the plan, how many periods it runs (0: until STOP_PLAN), the event ring, its next SEQ, the starts of its
periods so far, step 0's firings, its unfinished instances, causes in force on it, the causes that lost its guarantee, the TIME
steps started in the current period, late ends, suspended instances and last late step. -/
structure PRun where
  plan : Plan
  periods : Nat
  evBase : Nat
  evLog : Nat
  seq : Nat
  starts : List Nat
  fires : List Nat
  insts : List PInst
  causes : Nat
  lost : Nat
  timed : List Nat
  nLate : Nat
  nSusp : Nat
  lastLate : Nat
  /-- The tick of the STOP_PLAN that ends it, if any. -/
  stopAt : Option Nat
  deriving DecidableEq, Repr

/-! The rest of the package. -/

/-- A change of the cap in force that waits for the end of a collective hold (R477): watts, the ring and SEQ of its SET_CAP, and the tick
at which it was asked for. -/
structure CapReq where
  w : Nat
  cmd : Option (Nat × Nat)
  since : Nat
  deriving DecidableEq, Repr

/-- The governor's state that no register shows: the tick at which the active hint began, the tick at which the last collective hold
began, cap changes that wait (R477), the tick at which the lowest state began, regulators' failures in a row by rail (3 or more: lost,
R461), the issue limit set for a crate (16 unless listed), frequencies that PLLs keep in the lowest state by crate or 384 + core (R472),
the frequency set for a core (2,400 MHz unless listed), the ceiling set for the cellar, floors clipped now (R469: a crate, 1000 + k for
GOV.BOUND[k], 2000 for the ceiling), clusters in a thermal hold (R480), and the signature entries, last used first. -/
structure Gov where
  hintAt : Option Nat
  lastHold : Option Nat
  capWait : List CapReq
  enteredAt : Nat
  pmFails : List (Nat × Nat)
  kSet : List (Nat × Nat)
  pllMhz : List (Nat × Nat)
  coreSet : List (Nat × Nat)
  ceil : Nat
  clipped : List Nat
  /-- The software floors that the last interval's settings lie below for the cap (R469). -/
  capped : List Nat
  hot : List Nat
  /-- The quadrants and core halves that have come on since the last interval boundary (R484). -/
  newOn : List Nat
  sigLru : List Nat
  /-- Sums of the interval estimates of the active hint, of the quadrants, the host die, the cellar and the fixed group, and their number. -/
  hintT : Nat
  hintH : Nat
  hintC : Nat
  hintF : Nat
  hintN : Nat
  deriving DecidableEq, Repr

/-- The governor out of reset. -/
def Gov.fresh : Gov := ⟨none, none, [], 0, [], [], [], [], 100, [], [], [], [], [], 0, 0, 0, 0, 0⟩

/-- What a start keeps of the packing list beyond the registers: INSTALLATION_ID, DEBUG_EN, the templates' bytes, the 15 rail entries of
the rails section, NAME, and MIN_VER and REQ_FEATURES of the seam roles section (Table 19.8). -/
structure ListInfo where
  inst : List Byte
  debug : Bool
  templates : List Byte
  rails : List Byte
  name : List Byte
  minVer : Nat
  reqFeat : Nat
  deriving DecidableEq, Repr

/-- What the device keeps of the admitted manifest: its place list, FLAGS, TEMPLATE and ADMIT_SEQ. -/
structure JobInfo where
  places : List Nat
  flags : Nat
  template : Nat
  seq : Nat
  deriving DecidableEq, Repr

/-- A teardown in progress: CERT_ADDR, the ticks of its acceptance and of the end of step 6, tiles wiped, disabled ways zeroed, quadrants
that were off, bytes zeroed and pages passed over (Table 20.5). -/
structure TearInfo where
  cert : Nat
  start : Nat
  end6 : Nat
  tiles : Nat
  ways : Nat
  quads : Nat
  zeroed : Nat
  skipped : Nat
  deriving DecidableEq, Repr

/-- A self-test slice in progress (R575, R576): kind, index, whether it runs in an idle window, whether it is the second run,
the ring and SEQ of the BIST command that waits for it, and its start tick. -/
structure Slice where
  kind : Nat
  index : Nat
  idle : Bool
  again : Bool
  cmd : Option (Nat × Nat)
  start : Nat
  deriving DecidableEq, Repr

/-- Pins (Table 24.3) and the test port: PKG_RESET_N released, DEV_READY asserted, THERM_TRIP_N asserted, MGT_BYP_N driven low, the
straps as sampled, whether the receiver on MGT_IN holds lock, the TAP's instruction (0 IDCODE, 1 BYPASS, 2 EXTEST, 3 INTEST, 4
EXTEST_PULSE, 5 EXTEST_TRAIN) and what its boundary cells drive. -/
structure Pins where
  resetReleased : Bool
  devReady : Bool
  thermTrip : Bool
  bypLow : Bool
  strap : Nat
  mgtLock : Bool
  tap : Nat
  cells : Nat
  deriving DecidableEq, Repr

/-- A request that waits at a crossing whose far side has no clock (R453): the requesting unit as kind × 2^24 + index, the domain, or
64 + a crate, and the port of a BAR0 access. -/
structure Held where
  unit : Nat
  dom : Nat
  port : Option Nat
  deriving DecidableEq, Repr

/-- The whole machine. -/
structure State where
  /-- Commands waiting, first in first out. -/
  pending : List Instr
  /-- Counter of the free values drawn so far: the model's own field (log entry 9). -/
  freeCtr : Nat
  /-- Every register word that differs from its reset value, by register-map offset. -/
  regs : List (Nat × Word)
  /-- The 64-bit pilot-light counter. -/
  plt : Nat
  cellar : List Host.Cell
  shelf : List Host.Cell
  hostA : List Host.Cell
  hostB : List Host.Cell
  tiles : List (Nat × Tile)
  crates : List (Nat × Crate)
  incs : List Inc
  gathered : List FRec
  /-- SEQ of the last record that took one (R565). -/
  seqCtr : Nat
  /-- The strongroom's bytes (Table 21.5). -/
  strong : List Host.Cell
  /-- Commits whose journal slot is PENDING: target offset and bytes (R571). -/
  journal : List (Nat × List Byte)
  /-- APLIC sources signalled and not yet delivered (Table 15.5). -/
  aplic : List Nat
  hports : List (Nat × HPort)
  /-- MSI-X messages sent: port, address, data (R421). -/
  msixOut : List (Nat × Nat × Nat)
  /-- Units blocked at a quarantined crossing until their reset (R454), as kind × 2^24 + index, and blocks whose BAR0 accesses are
  answered Completer Abort until then (R395): a domain number, or 64 + a crate. -/
  blocked : List Nat
  bar0Blocked : List Nat
  /-- The fast domains are stopped by a hold (R448, R481, R569) or a start-up stop (R528). -/
  fastStopped : Bool
  /-- Packets handed to the fabric ports, oldest first (R362). -/
  fabTx : List (Nat × Packet)
  /-- Packets that wait at their port for credits, oldest first (R357). -/
  fabWait : List FabHeld
  /-- Response credits that requests sent on have taken (R360). -/
  fabRsv : List FabRsv
  /-- Sync packets of firings that a seam's control bundle holds on their way to a fabric port, oldest first (R240). -/
  syncHeld : List (Nat × Packet)
  /-- Requests that await a fabric response, oldest first. -/
  fabReqs : List FabReq
  /-- Carry records on their way, oldest first. -/
  carryRecs : List CarryRec
  /-- This device's place address (R12). -/
  place : Nat
  /-- The last answer to a read from outside. -/
  answer : Answer
  /-- Shootdowns accepted and not posted, oldest first; how many have been accepted since reset; the last accepted sequence;
  the page ranges of the last 16, newest first (R310, R313). -/
  sds : List Shootdown
  sdNum : Nat
  sdLast : Nat
  sdRecent : List (Nat × Nat)
  /-- The carving (R243) and the hampers of the homes, entries in allocation order. -/
  carve : List Region
  hampers : List (Nat × List HEntry)
  /-- Poisoned bursts by address / 64 (R260) and latent symbol errors by address / 64: 1 one symbol, 2 two (R259). -/
  burstPoison : List (Nat × Bool)
  symErr : List (Nat × Nat)
  /-- Rows by (((stack × 32 + channel) × 2 + pc) × 2^20 + row); retired granules by ((stack × 32 + channel) × 2^20 + row). -/
  rows : List (Nat × CRow)
  /-- Repaired rows whose repair has been made permanent (R265). -/
  hardDone : List Nat
  retired : List (Nat × Bool)
  /-- Spare rows taken of each bank (R616), rows whose repair holds their bank (R264), next scrub burst of each channel. -/
  bankUsed : List (Nat × Nat)
  repairing : List Nat
  scrubNext : List (Nat × Nat)
  /-- Channels whose traffic generator has been told to stop (R270). -/
  tgStop : List (Nat × Bool)
  /-- Lines in the L2s (by core × 2^36 + line) and in the system cache (core 96), directory, requests, evictions,
  transactions and messages in flight (chapter 10). -/
  l2 : List (Nat × CLine)
  dirs : List Dir
  creqs : List CReq
  /-- Requests of age 15 that wait at a home for a tracker or a way, in order of arrival: core and line (R288). -/
  agedQ : List (Nat × Nat)
  evicts : List Evict
  txns : List Txn
  msgs : List Msg
  /-- Posted BAR2 writes on their way to a home, oldest first (R396). -/
  homeQ : List HomeWrite
  /-- Register words of tallies that host ports have written and that wait for earlier BAR2 writes of their port (R231): port, offset, word. -/
  tallyQ : List (Nat × Nat × Word)
  hcores : List (Nat × HCore)
  /-- The debug module is active (R433). -/
  dmActive : Bool
  seams : List (Nat × Seam)
  fports : List (Nat × FPort)
  inReqs : List InReq
  colls : List Coll
  /-- COLL_READY packets that came before the descriptor started: engine and COLL_ID. -/
  collEarly : List (Nat × Nat)
  rings : List (Nat × RingSt)
  /-- Commands accepted and not ended, in order of acceptance. -/
  cmds : List Cmd
  /-- The ring, 16 × port + ring, whose turn to be served it is (R403). -/
  ringTurn : Nat
  /-- The resident driver's message queue, oldest first. -/
  drvMsgs : List DrvMsg
  /-- Tick of the driver's last heartbeat, once it has started. -/
  heartbeat : Option Nat
  /-- The last plan accepted (R489) and the one that runs. -/
  plan : Option Plan
  planRun : Option PRun
  gov : Gov
  /-- Power requests that wait for their rail, in the order written (R445), and rails' order history (R441 to R443). -/
  domQ : List (Nat × Bool)
  /-- A rail has left up out of order since the rails of steps 2 to 7 last began to go down (R443). -/
  pdBroken : Bool
  /-- The tick t0 of the start in progress (R600), once both of its conditions hold. -/
  t0 : Option Nat
  list : ListInfo
  /-- The flash: chip 0 from 0, chip 1 from 2^26 (Table 19.3, R531). -/
  flash : List Host.Cell
  /-- Does a chip answer at XSPI_CS_N[0] and [1] (R532)? -/
  chips : Bool × Bool
  /-- A flash update that is BUSY: the copy that it writes (as PKL.COPY numbers it) and the image (R543). -/
  upd : Option (Nat × List Byte)
  job : JobInfo
  /-- Ports whose fence mode ADMIT_JOB changed and that still retrain (R549). -/
  admitPorts : List Nat
  tear : Option TearInfo
  slices : List Slice
  /-- Residue mismatches of each crate since package reset, and crates to be taken first at the next idle window (R576). -/
  residues : List (Nat × Nat)
  sliceFirst : List Nat
  pins : Pins
  held : List Held
  /-- IDE streams' keys and SPDM sessions are not interpreted; this holds DOE mailbox requests answered so far (R419). -/
  doeCount : Nat
  deriving DecidableEq, Repr

/-- The machine right after reset. -/
def State.reset : State :=
  { pending := [], freeCtr := 0, regs := [], plt := 0, cellar := [], shelf := [], hostA := [], hostB := [], tiles := [],
    crates := [], incs := [], gathered := [], seqCtr := 0, strong := [], journal := [], aplic := [], hports := [],
    msixOut := [], blocked := [], bar0Blocked := [], fastStopped := false, fabTx := [], fabWait := [], fabRsv := [], syncHeld := [], fabReqs := [], carryRecs := [], place := 0, answer := ⟨0, []⟩, sds := [], sdNum := 0, sdLast := 0,
    sdRecent := [], carve := [],
    hampers := [], burstPoison := [], symErr := [], rows := [], hardDone := [], retired := [], bankUsed := [], repairing := [],
    scrubNext := [], tgStop := [], l2 := [], dirs := [], creqs := [], agedQ := [], evicts := [], txns := [], msgs := [], homeQ := [], tallyQ := [], hcores := [], dmActive := false, seams := [],
    fports := [], inReqs := [], colls := [], collEarly := [], rings := [], cmds := [], ringTurn := 0, drvMsgs := [], heartbeat := none, plan := none,
    planRun := none, gov := Gov.fresh, domQ := [], pdBroken := false, t0 := none, list := ⟨[], false, [], [], [], 1, 0⟩, flash := [], chips := (true, false),
    upd := none,
    job := ⟨[], 0, 0xFFFF, 0⟩, admitPorts := [], tear := none, slices := [], residues := [], sliceFirst := [],
    pins := ⟨false, false, false, false, 0, true, 0, 0⟩, held := [], doeCount := 0 }

end Sys2Proof.Machine
end

