-- ==== Sys2Proof/Machine/Ops.lean ====
section
/-! DEFINITION. The named operations over the state: sparse maps in canonical form, bytes and memories, register words and
fields, the units' records, and free values. -/
namespace Sys2Proof.Machine

/-- The outcome of a command. -/
abbrev Res := Host.Outcome State Fault Refusal

/-! Sparse maps: a list of key and value pairs, keys strictly rising, no entry equal to what an unlisted key reads as. -/

/-- The value at key `k`, `d` where the key is not listed. -/
def lookMap {α : Type} (d : α) : List (Nat × α) → Nat → α
  | [], _ => d
  | (k', v) :: m, k => if k' = k then v else lookMap d m k

/-- Inserts a pair before the first greater key. -/
def insMap {α : Type} (k : Nat) (v : α) : List (Nat × α) → List (Nat × α)
  | [] => [(k, v)]
  | (k', v') :: m => if k < k' then (k, v) :: (k', v') :: m else (k', v') :: insMap k v m

/-- Removes a key. -/
def delMap {α : Type} (k : Nat) : List (Nat × α) → List (Nat × α)
  | [] => []
  | (k', v') :: m => if k' = k then delMap k m else (k', v') :: delMap k m

/-- Sets key `k` to `v`; the value `d` that an unlisted key reads as is not listed. -/
def putMap {α : Type} [DecidableEq α] (d : α) (m : List (Nat × α)) (k : Nat) (v : α) : List (Nat × α) :=
  if v = d then delMap k m else insMap k v (delMap k m)

/-- Keys strictly rising and above `lo`, and no entry equal to its default. -/
def wfMapFrom {α : Type} [DecidableEq α] (d : Nat → α) : Option Nat → List (Nat × α) → Bool
  | _, [] => true
  | lo, (k, v) :: m => (match lo with | none => true | some l => decide (l < k)) && decide (v ≠ d k) && wfMapFrom d (some k) m

/-- The canonical form of a sparse map with defaults `d`. -/
def wfMap {α : Type} [DecidableEq α] (d : Nat → α) (m : List (Nat × α)) : Bool := wfMapFrom d none m

/-! Bytes and memories. -/

/-- A memory is in its canonical form: addresses strictly rising, and no entry equal to what an unlisted address reads as, 0 (log entry 6). -/
def Memory.wf (m : List Host.Cell) : Bool := wfMap (fun _ => 0#8) m

/-- The little-endian number that bytes spell (R4). -/
def ofBytes : List Byte → Nat
  | [] => 0
  | b :: bs => b.toNat + 256 * ofBytes bs

/-- The low `n` bytes of a number, least significant first (R4). -/
def toBytes : Nat → Nat → List Byte
  | 0, _ => []
  | n + 1, v => BitVec.ofNat 8 v :: toBytes n (v / 256)

/-- A byte of a memory; a byte that nothing has written reads 0 (log entry 6). -/
def readByte (m : List Host.Cell) (a : Nat) : Byte := lookMap 0#8 m a

/-- Writes one byte, keeping the canonical form. -/
def writeByte (m : List Host.Cell) (a : Nat) (b : Byte) : List Host.Cell := putMap 0#8 m a b

/-- `n` bytes from address `a`. -/
def readBytes (m : List Host.Cell) : Nat → Nat → List Byte
  | _, 0 => []
  | a, n + 1 => readByte m a :: readBytes m (a + 1) n

/-- Writes bytes from address `a` upward. -/
def writeBytes (m : List Host.Cell) : Nat → List Byte → List Host.Cell
  | _, [] => m
  | a, b :: bs => writeBytes (writeByte m a b) (a + 1) bs

/-- Writes the bytes whose mask bit is set. -/
def writeMasked (m : List Host.Cell) (a : Nat) : List (Byte × Bool) → List Host.Cell
  | [] => m
  | (b, true) :: bs => writeMasked (writeByte m a b) (a + 1) bs
  | (_, false) :: bs => writeMasked m (a + 1) bs

/-- Removes every listed byte with lo ≤ address < hi, so that the range reads 0. -/
def zeroRange (m : List Host.Cell) (lo hi : Nat) : List Host.Cell :=
  m.filter (fun c => decide (c.1 < lo) || decide (hi ≤ c.1))

/-! Bit fields. -/

/-- Bits lo + w − 1 down to lo of a number (R3). -/
def bitsAt (n lo w : Nat) : Nat := n / 2 ^ lo % 2 ^ w

/-- A single bit of a number. -/
def bitAt (n i : Nat) : Bool := n / 2 ^ i % 2 = 1

/-- A number with bits lo + w − 1 down to lo replaced by the low `w` bits of `v`. -/
def setBits (n lo w v : Nat) : Nat := n - bitsAt n lo w * 2 ^ lo + (v % 2 ^ w) * 2 ^ lo

/-- A Bool as the number 0 or 1. -/
def b2n (b : Bool) : Nat := if b then 1 else 0

/-! Registers. -/

/-- A register field: the map offset of its word, its lowest bit and its width (R3). -/
structure Fld where
  a : Nat
  lo : Nat
  w : Nat
  deriving DecidableEq, Repr

/-- The register word at a map offset. -/
def State.reg (s : State) (a : Nat) : Word := lookMap (resetWord a) s.regs a

/-- Sets the register word at a map offset. -/
def State.setReg (s : State) (a : Nat) (v : Word) : State := { s with regs := putMap (resetWord a) s.regs a v }

/-- A register field's value. -/
def State.rd (s : State) (f : Fld) : Nat := bitsAt (s.reg f.a).toNat f.lo f.w

/-- Sets a register field, leaving the word's other bits. -/
def State.wr (s : State) (f : Fld) (v : Nat) : State :=
  s.setReg f.a (BitVec.ofNat 32 (setBits (s.reg f.a).toNat f.lo f.w v))

/-- A 64-bit register as a number. -/
def State.reg64 (s : State) (a : Nat) : Nat := (s.reg a).toNat + 2 ^ 32 * (s.reg (a + 4)).toNat

/-- Sets a 64-bit register. -/
def State.setReg64 (s : State) (a v : Nat) : State :=
  (s.setReg a (BitVec.ofNat 32 v)).setReg (a + 4) (BitVec.ofNat 32 (v / 2 ^ 32))

/-- Is a one-bit field set? -/
def State.on (s : State) (f : Fld) : Bool := s.rd f = 1

/-- Adds `n` to a counter field, held at its largest value. -/
def State.bumpBy (s : State) (f : Fld) (n : Nat) : State := s.wr f (min (s.rd f + n) (2 ^ f.w - 1))

/-- Adds 1 to a counter field, held at its largest value. -/
def State.bump (s : State) (f : Fld) : State := s.bumpBy f 1

/-- Adds `n` to a 64-bit counter register, modulo 2^64. -/
def State.add64 (s : State) (a n : Nat) : State := s.setReg64 a ((s.reg64 a + n) % 2 ^ 64)

/-- Returns every word with lo ≤ offset < hi to its reset value, except those that `keep` names. -/
def State.resetRegs (s : State) (lo hi : Nat) (keep : Nat → Bool) : State :=
  { s with regs := s.regs.filter (fun e => decide (e.1 < lo) || decide (hi ≤ e.1) || keep e.1) }

/-- A register of the crate window of crate 96k + c (R63). -/
def crateReg (c off : Nat) : Nat := 0x1000000 + 0x8000 * c + off

/-- A register of the tile window of a tile, by global index (R11, R63). -/
def tileReg (t off : Nat) : Nat := 0x1004000 + 0x8000 * (t / 64) + 0x100 * (t % 64) + off

/-- A per-tile register of the crate hub, `st` bytes apart from `off` (Table 23.3). -/
def hubReg (t off st : Nat) : Nat := crateReg (t / 64) (off + st * (t % 64))

/-! Unit records. -/

/-- The record of tile `t`. -/
def State.tile (s : State) (t : Nat) : Tile := lookMap Tile.fresh s.tiles t

/-- Sets the record of tile `t`. -/
def State.setTile (s : State) (t : Nat) (x : Tile) : State := { s with tiles := putMap Tile.fresh s.tiles t x }

/-- The record of crate `c`. -/
def State.crate (s : State) (c : Nat) : Crate := lookMap Crate.fresh s.crates c

/-- Sets the record of crate `c`. -/
def State.setCrate (s : State) (c : Nat) (x : Crate) : State := { s with crates := putMap Crate.fresh s.crates c x }

/-- Engine `e` of a tile: 0 matrix, 1 vector, 2 mover. -/
def Tile.eng (x : Tile) (e : Nat) : Engine := if e = 0 then x.eng0 else if e = 1 then x.eng1 else x.eng2

/-- Sets engine `e` of a tile. -/
def Tile.setEng (x : Tile) (e : Nat) (g : Engine) : Tile :=
  if e = 0 then { x with eng0 := g } else if e = 1 then { x with eng1 := g } else { x with eng2 := g }

/-- Sets engine `e` of tile `t`. -/
def State.setEng (s : State) (t e : Nat) (g : Engine) : State := s.setTile t ((s.tile t).setEng e g)

/-! Free values. -/

/-- Draws the next free value (log entry 9). -/
def State.draw (s : State) : Nat × State := (Config.free s.freeCtr, { s with freeCtr := s.freeCtr + 1 })

/-! The profile (R586 to R588). -/

/-- VER.PROFILE (Table 22.6). -/
def verProfile : Fld := ⟨0x500028, 0, 3⟩

/-- Is the ZV24 throughput mode in force: no residue check, and one CRC-32C check for a transfer in the package (Table 22.6)? -/
def State.throughput (s : State) : Bool := decide (s.rd verProfile = 5)

/-! Units of the package. -/

/-- Quadrant 4k + q of crate 96k + c (R31). -/
def quadOfCrate (c : Nat) : Nat :=
  let x := c % 96
  4 * (c / 96) + 2 * (if x / 12 ≥ 4 then 1 else 0) + (if x % 12 ≥ 6 then 1 else 0)

end Sys2Proof.Machine
end

