-- ==== Sys2Proof/Machine/Faults.lean ====
section
/-! DEFINITION. Fault records and the two queues of the always-on domain (R564 to R569, R622), the strongroom's commits
(R570, R571, R573) and the interrupts they cause (R421, R432). -/
namespace Sys2Proof.Machine

/-! Registers of the FLT and STG blocks (Tables 21.9 to 21.11). -/
def fltHead : Fld := ⟨0x100000, 0, 11⟩
def fltTail : Fld := ⟨0x100000, 16, 11⟩
def fltFull : Fld := ⟨0x100000, 27, 1⟩
def fltFolding : Fld := ⟨0x100000, 28, 1⟩
def fatHead : Fld := ⟨0x100008, 0, 6⟩
def fatTail : Fld := ⟨0x100008, 16, 6⟩
def fatHeld : Fld := ⟨0x100008, 24, 1⟩
def fltReplace : Fld := ⟨0x100010, 0, 5⟩
def fltRetired : Fld := ⟨0x100010, 16, 16⟩
def ovfUsed : Fld := ⟨0x100018, 0, 9⟩
def ovfOther : Fld := ⟨0x10001C, 0, 32⟩
def fltSeq : Fld := ⟨0x100020, 0, 32⟩
def stgReady : Fld := ⟨0x140000, 0, 1⟩
def stgFatalUsed : Fld := ⟨0x140004, 0, 17⟩
def stgLogNext : Fld := ⟨0x140008, 0, 16⟩
def stgLogWraps : Fld := ⟨0x140008, 16, 16⟩
def stgFatalLost : Fld := ⟨0x14000C, 0, 32⟩
def pwrOnInternal : Fld := ⟨0x1C0200, 1, 1⟩

/-- The class of a fault code (Table 21.3): 0 non-fatal, 1 step-fatal, 2 fatal, 3 event. -/
def clsOf (code : Nat) : Nat :=
  if code = 0x0111 ∨ code = 0x0203 ∨ code = 0x0205 then 1
  else if code = 0x0405 ∨ code = 0x0406 ∨ code = 0x0505 ∨ code = 0x0800 ∨ code = 0x0803 ∨ code = 0x0807 ∨ code = 0x080A
    ∨ code = 0x0A01 ∨ code = 0x0A02 ∨ code = 0x0A03 ∨ code = 0x0A05 then 2
  else if code = 0x0407 ∨ code = 0x0808 ∨ code = 0x0809 then 3
  else 0

/-- The bytes of a DETAIL quantity list: each quantity is (width in bytes, value), aligned to its width at the lowest free
offset (R622). -/
def detailOf (qs : List (Nat × Nat)) : List Byte :=
  qs.foldl (fun bs q => (bs ++ List.replicate ((q.1 - bs.length % q.1) % q.1) 0#8) ++ toBytes q.1 q.2) []

/-- A unit raises a fault or event: the record is gathered for the end of the pilot-light tick (R564, R565). `log` marks a
record whose own rule writes it to the service log (R568). -/
def State.raiseWith (s : State) (log : Bool) (code kind index : Nat) (detail : List Byte) : State :=
  let fl := b2n (s.on pwrOnInternal) + 2 * b2n log
  { s with gathered := s.gathered ++ [⟨code, clsOf code, fl, kind, index, s.plt, detail⟩] }

/-- A unit raises a fault or event that its rule does not log. -/
def State.raise (s : State) (code kind index : Nat) (detail : List Byte) : State := s.raiseWith false code kind index detail

/-- Signals an APLIC source (Table 15.5). -/
def State.aplicSignal (s : State) (n : Nat) : State :=
  { s with aplic := if n ∈ s.aplic then s.aplic else s.aplic ++ [n] }

/-- A host port's record. -/
def State.hport (s : State) (p : Nat) : HPort := lookMap HPort.fresh s.hports p

/-- Sets a host port's record. -/
def State.setHport (s : State) (p : Nat) (h : HPort) : State := { s with hports := putMap HPort.fresh s.hports p h }

/-- Sends the MSI-X vector of port `p` (R421). A masked or disabled function or vector holds it in the pending bit. -/
def State.msix (s : State) (p : Nat) : State :=
  let h := s.hport p
  let vc := (lookMap 1#32 h.msixTab 3).toNat
  if h.msixEn && !h.msixMask && vc % 2 = 0 then
    { s with msixOut := s.msixOut ++ [(p, (lookMap 0#32 h.msixTab 0).toNat + 2 ^ 32 * (lookMap 0#32 h.msixTab 1).toNat,
        (lookMap 0#32 h.msixTab 2).toNat)] }
  else s.setHport p { h with pba := true }

/-- Sends the MSI-X vector of both ports. -/
def State.msixBoth (s : State) : State := (s.msix 0).msix 1

/-- The 64 bytes of a record with its SEQ, REPEAT and LAST_DELTA (Table 21.1). -/
def recBytes (r : FRec) (seq rep delta : Nat) : List Byte :=
  let body := toBytes 2 r.code ++ toBytes 1 r.cls ++ toBytes 1 r.flags ++ toBytes 4 (r.kind * 2 ^ 24 + r.index) ++
    toBytes 8 r.plt ++ toBytes 4 rep ++ toBytes 4 delta ++
    ((r.detail ++ List.replicate 32 0#8).take 32) ++ toBytes 4 seq
  body ++ toBytes 4 (crc32c body).toNat

/-- Writes consecutive register words from little-endian bytes. -/
def State.setWords (s : State) (a : Nat) : List Byte → State
  | b0 :: b1 :: b2 :: b3 :: bs => (s.setReg a (BitVec.ofNat 32 (ofBytes [b0, b1, b2, b3]))).setWords (a + 4) bs
  | _ => s

/-- The bytes of `n` consecutive register words. -/
def State.wordBytes (s : State) (a : Nat) : Nat → List Byte
  | 0 => []
  | n + 1 => toBytes 4 (s.reg a).toNat ++ s.wordBytes (a + 4) n

/-! The strongroom. -/

/-- Begins a two-phase commit: the record and its target enter a journal slot marked PENDING (R571). -/
def State.commit (s : State) (off : Nat) (bs : List Byte) : State := { s with journal := s.journal ++ [(off, bs)] }

/-- The strongroom's bytes once every PENDING slot of the journal has been written to its target (R571). -/
def State.strongNow (s : State) : List Host.Cell := s.journal.foldl (fun m j => writeBytes m j.1 j.2) s.strong

/-- Is an offset of the strongroom shown to its readers? In the tables region what Table 21.6 does not list reads 0, and so do the device's own
notes there (log entry 22). -/
def strongShown (a : Nat) : Bool :=
  if a < 0x410000 then true
  else if a < 0x418000 then decide (a < 0x411000)
  else if a < 0x510000 then
    decide (a < 0x41D000) || (decide (0x420000 ≤ a) && decide (a < 0x43C0C0)) || (decide (0x440000 ≤ a) && decide (a < 0x441000))
  else true

/-- What a reader of the strongroom sees (R570, R578). -/
def State.strongRead (s : State) (a n : Nat) : List Byte :=
  (List.range n).map fun i => if strongShown (a + i) then readByte s.strong (a + i) else 0#8

/-- Writes a record to the service log, which wraps (R570). -/
def State.logRec (s : State) (bs : List Byte) : State :=
  let n := s.rd stgLogNext
  let s := s.commit (0x510000 + 64 * n) bs
  if n + 1 < 48128 then s.wr stgLogNext (n + 1) else (s.wr stgLogNext 0).bump stgLogWraps

/-- Sets a bit of FLT.REPLACE and raises "replace requested" the first time (R577). -/
def State.setReplace (s : State) (i : Nat) : State :=
  if bitAt (s.rd fltReplace) i then s
  else ((s.wr fltReplace (s.rd fltReplace + 2 ^ i))).raise 0x0A01 0 0 (detailOf [(1, 2 ^ i)])

/-- Commits a fatal record to the fatal area, or counts it in FATAL_LOST when the area is full; the first of those raises
"strongroom fatal area full" (R570, R573). Answers whether the area was already full. -/
def State.commitFatal (s : State) (bs : List Byte) : State :=
  let n := s.rd stgFatalUsed
  if n < 65536 then (s.commit (0x10000 + 64 * n) bs).wr stgFatalUsed (n + 1)
  else
    let first := s.rd stgFatalLost = 0
    let s := s.bump stgFatalLost
    if first then (s.raise 0x0A03 15 0 []).setReplace 3 else s

/-! The management path's view of the units (R574, Table 21.9). -/

/-- The bit of FLT.OFFLINE that stands for a unit of kind 2, 5, 7, 8 or 11 (Table 21.2). -/
def offlineFld (kind i : Nat) : Fld :=
  let b := if kind = 2 then 0x103000 else if kind = 5 then 0x103040 else if kind = 7 then 0x1030C0 else 0x1030D0
  let j := if kind = 11 then 16 + i else i
  ⟨b + 4 * (j / 32), j % 32, 1⟩

/-- The forced mark of a unit, in the same layout 0x100 above (Table 21.9). -/
def forcedFld (kind i : Nat) : Fld := let f := offlineFld kind i; ⟨f.a + 0x100, f.lo, 1⟩

/-- Is a unit offline in the management path's view? -/
def State.offline (s : State) (kind i : Nat) : Bool := s.on (offlineFld kind i)

/-- Raises "management and data paths disagree" for a unit; the record is logged (R574). -/
def State.disagree (s : State) (kind i : Nat) : State := s.raiseWith true 0x0A06 kind i []

/-- Counts retired pages towards replace status (R577). -/
def State.addRetired (s : State) (n : Nat) : State :=
  let s := s.bumpBy fltRetired n
  if 64 < s.rd fltRetired then s.setReplace 2 else s

/-! The queues. -/

/-- Entries held in the main queue. -/
def State.mainCount (s : State) : Nat := (s.rd fltTail + 2048 - s.rd fltHead) % 2048

/-- Entries held in the fatal queue. -/
def State.fatalCount (s : State) : Nat := (s.rd fatTail + 64 - s.rd fatHead) % 64

/-- Map offset of main-queue entry `i`. -/
def mainEntry (i : Nat) : Nat := 0x110000 + 64 * (i % 1024)

/-- Does a record merge into the newest unconsumed main-queue entry (R566)? -/
def State.mergesNewest (s : State) (r : FRec) : Bool :=
  decide (0 < s.mainCount) &&
    (let a := mainEntry (s.rd fltTail + 2047)
     decide ((s.reg a).toNat % 2 ^ 24 = r.code + 2 ^ 16 * r.cls) && decide ((s.reg (a + 4)).toNat = r.kind * 2 ^ 24 + r.index))

/-- Merges a record into the newest main-queue entry: REPEAT, LAST_DELTA and the record's CRC (R566). -/
def State.mergeNewest (s : State) (r : FRec) : State :=
  let a := mainEntry (s.rd fltTail + 2047)
  let plt0 := s.reg64 (a + 8)
  let s := s.setReg (a + 16) (BitVec.ofNat 32 (min ((s.reg (a + 16)).toNat + 1) 0xFFFFFFFF))
  let s := s.setReg (a + 20) (BitVec.ofNat 32 (min (r.plt - plt0) 0xFFFFFFFF))
  s.setReg (a + 60) (crc32c (s.wordBytes a 15))

/-- The allocated overflow counter of a (CLASS, CODE) pair, searched over the first `n` counters (R567). -/
def State.findOvf (s : State) (r : FRec) : Nat → Option Nat
  | 0 => none
  | n + 1 =>
    if (s.reg (0x101000 + 16 * n)).toNat = r.code + 2 ^ 16 * r.cls + 2 ^ 18 then some n else s.findOvf r n

/-- Folds a record that finds no room in the main queue (R567). -/
def State.foldRec (s : State) (r : FRec) : State :=
  let s := s.wr fltFolding 1
  match s.findOvf r 256 with
  | some j =>
    let a := 0x101000 + 16 * j
    (s.bump ⟨a + 4, 0, 32⟩).setReg (a + 12) (BitVec.ofNat 32 r.plt)
  | none =>
    let u := s.rd ovfUsed
    if u < 256 then
      let a := 0x101000 + 16 * u
      let s := s.setReg a (BitVec.ofNat 32 (r.code + 2 ^ 16 * r.cls + 2 ^ 18))
      let s := s.setReg (a + 4) 1#32
      let s := (s.setReg (a + 8) (BitVec.ofNat 32 r.plt)).setReg (a + 12) (BitVec.ofNat 32 r.plt)
      let s := s.wr ovfUsed (u + 1)
      s.logRec (recBytes { r with flags := Nat.lor r.flags 2 } s.seqCtr 0 0)
    else s.bump ovfOther

/-- Takes the next SEQ (R565). -/
def State.takeSeq (s : State) : State := { s with seqCtr := s.seqCtr + 1 }

/-- Handles one record of class 0, 1 or 3 at the end of a tick: merge, place or fold (R565 to R568). -/
def State.placeMain (s : State) (r : FRec) : State :=
  let log := bitAt r.flags 1 || decide (r.cls = 1)
  let r := if log then { r with flags := Nat.lor r.flags 2 } else r
  if s.mergesNewest r then
    let s := s.mergeNewest r
    if log then s.logRec (recBytes r s.seqCtr 0 0) else s
  else
    let s := s.takeSeq
    let bs := recBytes r s.seqCtr 0 0
    let s := if log then s.logRec bs else s
    if s.mainCount < 1024 then
      let empty := s.mainCount = 0
      let s := s.setWords (mainEntry (s.rd fltTail)) bs
      let s := s.wr fltTail ((s.rd fltTail + 1) % 2048)
      let s := s.wr fltSeq s.seqCtr
      let s := s.wr fltFull (b2n (decide (s.mainCount = 1024)))
      if empty then s.aplicSignal 1 else s
    else s.foldRec r

/-- Handles one fatal record at the end of a tick (R568, R569): commit, place and signal; a queue that is full takes no
more. The hold itself is taken by the caller once HELD is set. -/
def State.placeFatal (s : State) (r : FRec) : State :=
  let s := s.takeSeq
  let bs := recBytes r s.seqCtr 0 0
  let s := if r.code = 0x0A03 then s else s.commitFatal bs
  if s.fatalCount < 32 then
    let s := s.setWords (0x102000 + 64 * (s.rd fatTail % 32)) bs
    let s := s.wr fatTail ((s.rd fatTail + 1) % 64)
    let s := s.wr fltSeq s.seqCtr
    let s := (s.msixBoth).aplicSignal 2
    if s.fatalCount = 32 then
      -- "fatal fault queue full" takes the next SEQ and goes to the fatal area only
      let s := s.takeSeq
      let full : FRec := ⟨0x0A02, 2, b2n (s.on pwrOnInternal), 0, 0, s.plt, []⟩
      ((s.commitFatal (recBytes full s.seqCtr 0 0)).wr fatHeld 1).msixBoth
    else s
  else s

/-- Handles one record at the end of a tick. -/
def State.placeRec (s : State) (r : FRec) : State := if r.cls = 2 then s.placeFatal r else s.placeMain r

/-- The order of handling: ascending UNIT, then ascending CODE (R565). -/
def recBefore (a b : FRec) : Bool :=
  let ua := a.kind * 2 ^ 24 + a.index
  let ub := b.kind * 2 ^ 24 + b.index
  decide (ua < ub) || (decide (ua = ub) && decide (a.code < b.code))

/-- Inserts a record after every record that is not behind it, so that arrival order breaks ties. -/
def insRec (r : FRec) : List FRec → List FRec
  | [] => [r]
  | x :: xs => if recBefore r x then r :: x :: xs else x :: insRec r xs

/-- The gathered records in the order in which they are handled (R565). -/
def sortRecs (rs : List FRec) : List FRec := rs.foldl (fun acc r => insRec r acc) []

end Sys2Proof.Machine
end

