-- ==== Sys2Proof/Machine/Credits.lean ====
section
/-! DEFINITION. Credits of the fabric's virtual channels and packets that leave by a port (R353, R357, R358, R360, R361, R370,
Table 13.4, log entry 26). -/
namespace Sys2Proof.Machine

/-- The record of fabric port `p`. -/
def State.fport (s : State) (p : Nat) : FPort := lookMap FPort.fresh s.fports p

/-- Sets the record of fabric port `p`. -/
def State.setFport (s : State) (p : Nat) (x : FPort) : State := { s with fports := putMap FPort.fresh s.fports p x }

/-- FAB.PORT[p].STAT.STATE, 6 = Up (Table 13.14). -/
def fabState (p : Nat) : Fld := ⟨0x290008 + 0x400 * p, 0, 4⟩
def fabLevel (p : Nat) : Fld := ⟨0x290000 + 0x400 * p, 0, 3⟩
def fabDateline (p : Nat) : Fld := ⟨0x290000 + 0x400 * p, 3, 1⟩
def levelTx (l : Nat) : Nat := 0x2B0000 + 0x40 * l

/-- Is port `p` Up? -/
def State.portUp (s : State) (p : Nat) : Bool := decide (s.rd (fabState p) = 6)

/-- Bytes that a packet takes on a link: header, payload and its CRC-32C (R362). -/
def Packet.wire (k : Packet) : Nat := 32 + (if k.payload.isEmpty then 0 else k.payload.length + 4)

/-- What a packet takes of its virtual channel's credits: one packet of Sync, else its bytes (Table 13.4). -/
def Packet.cost (k : Packet) : Nat := if k.vc = 0 then 1 else k.wire

/-- The credits of a virtual channel that the partner of port `p` granted when the port trained. -/
def State.granted (s : State) (p vc : Nat) : Nat := (s.fport p).grant.getD vc 0

/-- The pool of credits from which a packet is sent by port `p`: 2 × VC, and one more for the upper half, which a port of the ring
level keeps apart (R361). -/
def State.poolOf (s : State) (p : Nat) (k : Packet) : Nat := 2 * k.vc + (if s.rd (fabLevel p) = 0 && k.upper then 1 else 0)

/-- Response credits of port `p` that requests sent on have taken for their responses (R360). -/
def State.reserved (s : State) (p : Nat) : Nat := ((s.fabRsv.filter fun r => decide (r.port = p)).map FabRsv.bytes).foldl (· + ·) 0

/-- The credits that pool `key` of port `p` has left. -/
def State.poolFree (s : State) (p key : Nat) : Nat :=
  let g := s.granted p (key / 2)
  let cap := if s.rd (fabLevel p) = 0 then (if key % 2 = 1 then g / 2 else g - g / 2) else g
  cap - lookMap 0 (s.fport p).used key - (if key / 2 = 3 then s.reserved p else 0)

/-- The credits that a virtual channel of port `p` has left, by which R370 chooses among ports. -/
def State.vcFree (s : State) (p vc : Nat) : Nat :=
  s.poolFree p (2 * vc) + (if s.rd (fabLevel p) = 0 then s.poolFree p (2 * vc + 1) else 0)

/-- Is a packet a request, which an answer follows? -/
def Packet.isRequest (k : Packet) : Bool := decide (k.type = 1) || decide (k.type = 2) || decide (k.type = 3) || decide (k.type = 24)

/-- Is a packet a response: RD_RESP, WR_ACK or COLL_ACK? -/
def Packet.isAnswer (k : Packet) : Bool := decide (k.type = 8) || decide (k.type = 9) || decide (k.type = 10)

/-- Response credits that a request's answer takes: a header, and the data of a read with its CRC (R362). -/
def Packet.answerCost (k : Packet) : Nat := if k.type = 1 then 32 + k.len + 4 else 32

/-- Can a request that came by port `via` take the credits for its response there (R360)? Which half the response will travel in is not
known yet: either must hold it. -/
def State.canReserve (s : State) (via : Option Nat) (k : Packet) : Bool :=
  match via with
  | none => true
  | some a => !k.isRequest || (decide (k.answerCost ≤ s.poolFree a 6) && (decide (s.rd (fabLevel a) ≠ 0) || decide (k.answerCost ≤ s.poolFree a 7)))

/-- May a packet leave: its port Up, no earlier packet of its pool waiting, and the credits there (R353, R357, R360)? -/
def State.mayLeave (s : State) (q : FabHeld) : Bool :=
  s.portUp q.port &&
    !((s.fabWait.takeWhile fun x => decide (x ≠ q)).any fun x => decide (x.port = q.port) && decide (s.poolOf x.port x.pkt = s.poolOf q.port q.pkt)) &&
    decide (q.pkt.cost ≤ s.poolFree q.port (s.poolOf q.port q.pkt)) && s.canReserve q.via q.pkt

/-- The packets of port `p` that a Sync packet may go ahead of: those after the port's last Sync packet (R358). -/
def syncAhead (p : Nat) (tx : List (Nat × Packet)) : Nat :=
  ((tx.reverse.takeWhile fun x => !(decide (x.1 = p) && decide (x.2.vc = 0))).filter fun x => decide (x.1 = p)).length

/-- Puts a packet ahead of the last `n` packets of port `p`, given the list last first. -/
def putAhead (p : Nat) (k : Packet) : Nat → List (Nat × Packet) → List (Nat × Packet)
  | 0, xs => (p, k) :: xs
  | n + 1, x :: xs => x :: putAhead p k (if x.1 = p then n else n + 1) xs
  | _ + 1, [] => [(p, k)]

/-- A packet leaves by its port: it takes its credits and joins the port's packets, a Sync packet at the next flit boundary, which lies
among those that have not left yet (R358). How many these are, and so where it stands, is free (log entry 26). -/
def State.leave (s : State) (q : FabHeld) : State :=
  let p := q.port
  let k := q.pkt
  let x := s.fport p
  let key := s.poolOf p k
  let l := s.rd (fabLevel p)
  let n := if k.vc = 0 then syncAhead p s.fabTx else 0
  { s with
    regs := if l ≤ 4 then (s.add64 (levelTx l) k.wire).regs else s.regs
    fports := putMap FPort.fresh s.fports p { x with used := putMap 0 x.used key (lookMap 0 x.used key + k.cost) }
    fabRsv := match q.via with
      | some a => if k.isRequest then s.fabRsv ++ [⟨a, k.src, k.tag, k.answerCost⟩] else s.fabRsv
      | none => s.fabRsv
    freeCtr := if n = 0 then s.freeCtr else s.freeCtr + 1
    fabTx := if n = 0 then s.fabTx ++ [(p, k)]
      else (putAhead p k (Config.free s.freeCtr % (n + 1)) s.fabTx.reverse).reverse
    fabWait := s.fabWait.erase q }

/-- Sends a packet by a port: it leaves, or waits for its credits. -/
def State.fabPut (s : State) (q : FabHeld) : State :=
  if s.mayLeave q then s.leave q else { s with fabWait := s.fabWait ++ [q] }

/-- Hands a packet of this device to port `p` for sending. -/
def State.fabSend (s : State) (p : Nat) (k : Packet) : State := s.fabPut ⟨p, none, k⟩

/-- Sends what waits at the ports and may leave: Sync first, then Management, Response, and the weighted channels (Table 13.4). -/
def State.pump (s : State) : State :=
  [0, 6, 3, 1, 2, 4, 5].foldl (fun s vc =>
    (s.fabWait.filter fun q => decide (q.pkt.vc = vc)).foldl (fun s q => if s.mayLeave q then s.leave q else s) s) s

/-- The partner of port `p` gives credits back: pairs of a pool and an amount. -/
def State.creditsBack (s : State) (p : Nat) (cs : List (Nat × Nat)) : State :=
  let x := s.fport p
  (s.setFport p { x with used := cs.foldl (fun u c => putMap 0 u c.1 (lookMap 0 u c.1 - c.2)) x.used }).pump

/-- Drops the first element that a test accepts. -/
def dropFirst {α : Type} (f : α → Bool) : List α → List α
  | [] => []
  | x :: xs => if f x then xs else x :: dropFirst f xs

/-- A response goes on: the credits that its request took for it are free again, for it first (R360). -/
def State.releaseFor (s : State) (k : Packet) : State :=
  { s with fabRsv := dropFirst (fun r => decide (r.src = k.dest) && decide (r.tag = k.tag)) s.fabRsv }

/-- A port's link ends: no credits of it are in use or taken for responses. -/
def State.creditsLost (s : State) (p : Nat) : State :=
  let x := s.fport p
  let s := s.setFport p { x with used := [] }
  { s with fabRsv := s.fabRsv.filter fun r => decide (r.port ≠ p) }

end Sys2Proof.Machine
end

