-- ==== Sys2Proof/Machine/Tally.lean ====
section
/-! DEFINITION. Tallies and the sync mesh (chapter 8): values and their clamp, tally addresses, firing, and the tally
commands. -/
namespace Sys2Proof.Machine

/-! Power and clock predicates used by every unit. -/

/-- PWR.DOM[d].STATE (Table 16.10): 0 off, 1 switching on, 2 on, 3 clock stopped, 4 switching off. -/
def domState (d : Nat) : Fld := ⟨0x1C0100 + 8 * d, 4, 3⟩

/-- Is switched domain `d` on? -/
def State.domOn (s : State) (d : Nat) : Bool := s.rd (domState d) = 2

/-- Is the quadrant of crate `c` on? -/
def State.crateOn (s : State) (c : Nat) : Bool := s.domOn (quadOfCrate c)

/-- Is the quadrant of tile `t` on? -/
def State.tileOn (s : State) (t : Nat) : Bool := s.crateOn (t / 64)

/-- CRATE.CLK.STOPPED. -/
def crateStopped (c : Nat) : Fld := ⟨crateReg c 0, 26, 1⟩

/-- Is switched domain `d` powered: on, or with its clock stopped (R453)? -/
def State.domPowered (s : State) (d : Nat) : Bool := decide (s.rd (domState d) = 2) || decide (s.rd (domState d) = 3)

/-- Does a self-test slice run on unit `i` of a kind of the BIST command (R576)? Traffic for the unit is held meanwhile. -/
def State.sliceOn (s : State) (kind i : Nat) : Bool := s.slices.any fun x => decide (x.kind = kind) && decide (x.index = i)

/-- Does the clock of crate `c` run: quadrant on, generator good, not stopped by request, no slice on the crate? -/
def State.crateRuns (s : State) (c : Nat) : Bool :=
  s.crateOn c && !(s.crate c).clockLost && !s.on (crateStopped c) && !s.sliceOn 0 c

/-- Is the clock behind a crossing stopped by a fault: that of a domain, or of crate d − 64 (R73, R453)? -/
def State.clockStopped (s : State) (d : Nat) : Bool :=
  if 64 ≤ d then s.crateOn (d - 64) && (s.crate (d - 64)).clockLost else decide (s.rd (domState d) = 3)

/-- The switched domain of a place: the domain itself, or for 64 + c the quadrant of crate c. -/
def domOfPlace (d : Nat) : Nat := if 64 ≤ d then quadOfCrate (d - 64) else d

/-! Register traffic to a place: a switched domain, or 64 + a crate (R72 to R74, R394, R453). -/

/-- HP[p].ABSENT (Table 14.8). -/
def hpAbsent (p : Nat) : Fld := ⟨0x10034 + 0x1000 * p, 0, 32⟩

/-- The BAR0 path of a host port, as a requester (Table 16.6). -/
def portUnit (p : Nat) : Nat := 9 * 2 ^ 24 + p

/-- The requester that a write comes from, as kind × 2^24 + index. -/
def Src.unit : Src → Nat
  | .hostCore c => 10 * 2 ^ 24 + c.val
  | .hostPort p => portUnit p
  | .tile t => 2 ^ 24 + t.val
  | .mgmt => 0

/-- The host port of a source, if it is one. -/
def Src.port : Src → Option Nat
  | .hostPort p => some p.val
  | _ => none

/-- Takes a waiting access of a unit off the crossings (R453). -/
def State.unheld (s : State) (unit : Nat) : State := { s with held := s.held.filter fun h => decide (h.unit ≠ unit) }

/-- An access of a unit waits at the crossing into a place (R395, R453). -/
def State.holdCross (s : State) (unit d : Nat) (port : Option Nat) : State :=
  { s with held := (s.unheld unit).held ++ [⟨unit, d, port⟩] }

/-- The router of a crate whose clock a request has stopped starts it for traffic that reaches it; OFF stays 1 (R72). The wake time is
timing (log entry 8). -/
def State.arouse (s : State) (d : Nat) : State :=
  if 64 ≤ d && s.crateOn (d - 64) && s.on (crateStopped (d - 64)) && !(s.crate (d - 64)).clockLost then s.wr (crateStopped (d - 64)) 0
  else s

/-- Must register traffic for a place wait at its crossing: for a clock that a fault stopped (R73, R453), or for a self-test slice on the
crate (R576)? -/
def State.mustWait (s : State) (d : Nat) : Bool := s.clockStopped d || (decide (64 ≤ d) && s.sliceOn 0 (d - 64))

/-- A register write of a source reaches a place: answered absent where it is off (R74, R394), waiting at the crossing where the clock has
failed or a slice runs, else delivered, after the crate's clock has been started (R72). -/
def State.atPlace (s : State) (src : Src) (d : Nat) (act : State → State) : State :=
  if !s.domPowered (domOfPlace d) then
    match src.port with
    | some p => s.bump (hpAbsent p)
    | none => s
  else if s.mustWait d then s.holdCross src.unit d src.port
  else act ((s.unheld src.unit).arouse d)

/-- TILE.RUN.STATE (Table 2.12). -/
def tState (t : Nat) : Fld := ⟨tileReg t 4, 4, 4⟩

/-- An arrival, a wake condition or a register access ungates a tile's clock (R70). -/
def State.ungate (s : State) (t : Nat) : State := if s.rd (tState t) = 3 then s.wr (tState t) 2 else s

/-! Where a tally's value, generation and configuration lie (Tables 8.7 to 8.12). -/

/-- VALUE. -/
def TallyLoc.value : TallyLoc → Fld
  | .tile t n => ⟨tileTallyBase + 0x1000 * t + 4 * n, 0, 16⟩
  | .crate c n => ⟨crateReg c (0x1000 + 16 * n), 0, 16⟩
  | .die k n => ⟨0x400000 + 0x8000 * k + 8 * n, 0, 16⟩
  | .pkg n => ⟨0x430000 + 16 * n, 0, 16⟩

/-- The offset of ADD; that of a tile tally lies among its own registers (Table 8.7). -/
def TallyLoc.addReg : TallyLoc → Nat
  | .tile t n => tileTallyBase + 0x1000 * t + 0x100 + 4 * n
  | .crate c n => crateReg c (0x1004 + 16 * n)
  | .die k n => 0x420000 + 0x4000 * k + 4 * n
  | .pkg n => 0x434000 + 4 * n

/-- GEN; a tile tally has none and names a zero-width field. -/
def TallyLoc.gen : TallyLoc → Fld
  | .tile t n => ⟨tileTallyBase + 0x1000 * t + 4 * n, 16, 0⟩
  | .crate c n => ⟨crateReg c (0x1000 + 16 * n), 16, 16⟩
  | .die k n => ⟨0x400000 + 0x8000 * k + 8 * n, 16, 16⟩
  | .pkg n => ⟨0x430000 + 16 * n, 16, 16⟩

/-- RANGE. -/
def TallyLoc.range : TallyLoc → Fld
  | .tile t n => ⟨tileTallyBase + 0x1000 * t + 0x300 + 4 * (n / 32), n % 32, 1⟩
  | .crate c n => ⟨crateReg c (0x1008 + 16 * n), 27, 1⟩
  | .die k n => ⟨0x400004 + 0x8000 * k + 8 * n, 29, 1⟩
  | .pkg n => ⟨0x430004 + 16 * n, 28, 1⟩

/-- TARGET; a tile tally has none. -/
def TallyLoc.target : TallyLoc → Fld
  | .tile t n => ⟨tileTallyBase + 0x1000 * t + 4 * n, 16, 0⟩
  | .crate c n => ⟨crateReg c (0x1008 + 16 * n), 0, 16⟩
  | .die k n => ⟨0x400004 + 0x8000 * k + 8 * n, 0, 16⟩
  | .pkg n => ⟨0x430004 + 16 * n, 0, 16⟩

/-- The unit that a tally's faults name: its tile, crate or die, or the package (Table 21.2). -/
def TallyLoc.unit : TallyLoc → Nat × Nat
  | .tile t _ => (1, t)
  | .crate c _ => (2, c)
  | .die k _ => (4, k)
  | .pkg _ => (0, 0)

/-- The 16-bit tally address of a tally (Table 8.2). -/
def TallyLoc.addr : TallyLoc → Nat
  | .tile _ n => n
  | .crate _ n => 2 ^ 14 + n
  | .die k n => 2 ^ 15 + k * 2 ^ 12 + n
  | .pkg n => 3 * 2 ^ 14 + n

/-- The die that holds the tally, numbered as SEAM.DIE: T0 to T3, H (Table 8.1). -/
def TallyLoc.onDie : TallyLoc → Nat
  | .tile t _ => t / 6144
  | .crate c _ => c / 96
  | .die k _ => k
  | .pkg _ => 4

/-- Is the unit that holds the tally powered? Package tallies live in the host uncore, die tallies in the die's spine. -/
def State.tallyOn (s : State) : TallyLoc → Bool
  | .tile t _ => s.tileOn t
  | .crate c _ => s.crateOn c
  | .die k _ => s.domPowered (16 + k)
  | .pkg _ => s.domPowered 22

/-- Changes a tally's value to `v`: outside 0 to 0xFFFF it clamps, sets RANGE and raises "tally range" (R226). -/
def State.setTally (s : State) (l : TallyLoc) (v : Int) : State :=
  if v < 0 then ((s.wr l.value 0).wr l.range 1).raise 0x0300 l.unit.1 l.unit.2 []
  else if 0xFFFF < v then ((s.wr l.value 0xFFFF).wr l.range 1).raise 0x0300 l.unit.1 l.unit.2 []
  else s.wr l.value v.toNat

/-- Adds a signed amount to a tally (R226, R227). -/
def State.addTally (s : State) (l : TallyLoc) (d : Int) : State := s.setTally l ((s.rd l.value : Int) + d)

/-- The tally that a tally address names for a receiving tile (R232); none for an address whose zero fields are not zero or a
tile or crate level without a receiving tile (R233). -/
def tallyOfAddr (addr : Nat) (tile : Option Nat) : Option TallyLoc :=
  let lvl := bitsAt addr 14 2
  if lvl = 0 then
    if bitsAt addr 6 8 ≠ 0 then none else tile.map fun t => .tile t (bitsAt addr 0 6)
  else if lvl = 1 then
    if bitsAt addr 8 6 ≠ 0 then none else tile.map fun t => .crate (t / 64) (bitsAt addr 0 8)
  else if lvl = 2 then some (.die (bitsAt addr 12 2) (bitsAt addr 0 12))
  else if bitsAt addr 10 4 ≠ 0 then none else some (.pkg (bitsAt addr 0 10))

def tlyDropped : Fld := ⟨0x439000, 0, 32⟩
def tlyAbsent : Fld := ⟨0x439004, 0, 32⟩
def tlyUndeliverable : Fld := ⟨0x439008, 0, 32⟩

/-- Drops an increment whose address is not valid (R233, Table 21.13). -/
def State.dropInc (s : State) (i : Inc) : State :=
  let u := match i.tile with
    | some t => (1, t)
    | none => (0, 0)
  (s.bump tlyDropped).raise 0x0301 u.1 u.2
    (toBytes 2 i.addr ++ toBytes 1 i.src ++ [0#8] ++ toBytes 4 i.sender)

/-- Sends an increment on the sync mesh; it takes effect when it arrives (R239). -/
def State.sendInc (s : State) (i : Inc) : State := { s with incs := s.incs ++ [i] }

/-- Takes the increments at the given positions out of the ones in flight, latest position first so that the rest keep
their places. -/
def takeAt {α : Type} (ps : List Nat) (xs : List α) : List α × List α :=
  let tagged := (List.range xs.length).zip xs
  ((tagged.filter (fun q => q.1 ∈ ps)).map (·.2), (tagged.filter (fun q => !(decide (q.1 ∈ ps)))).map (·.2))

/-- Where an increment lands, none when it is dropped under R233. -/
def Inc.loc (i : Inc) : Option TallyLoc := tallyOfAddr i.addr i.tile

/-- The place that holds a tally: 64 + its crate, the spine of its die, or the host uncore. -/
def TallyLoc.place : TallyLoc → Nat
  | .tile t _ => 64 + t / 64
  | .crate c _ => 64 + c
  | .die k _ => 16 + k
  | .pkg _ => 22

/-- What is addressed to a tally ungates the tile that holds it (R70). -/
def State.ungateFor (s : State) : TallyLoc → State
  | .tile t _ => s.ungate t
  | _ => s

/-- Delivers one increment, or the sum of several to one tally that reach it in one cycle (R228, R236). -/
def State.deliver (s : State) (i : Inc) (sum : Int) : State :=
  match i.loc with
  | none => s.dropInc i
  | some l =>
    if s.tallyOn l then (s.addTally l sum).ungateFor l
    else (s.bump tlyAbsent).raise 0x0302 l.unit.1 l.unit.2 []

/-- Does the clock of the unit that holds a tally run, so that an increment reaches it (R72, R73)? -/
def State.tallyClocked (s : State) : TallyLoc → Bool
  | .tile t _ => s.crateRuns (t / 64)
  | .crate c _ => s.crateRuns c
  | .die k _ => s.domOn (16 + k)
  | .pkg _ => s.domOn 22

/-! The seam control bundles, by which increments, carry records and snoops pass between a die and H (R240, R341). -/

def seamB (b off : Nat) : Nat := 0x301000 + 0x40 * b + off
def seamRole (b : Nat) : Fld := ⟨seamB b 0, 0, 2⟩
def seamState (b : Nat) : Fld := ⟨seamB b 0, 6, 3⟩

/-- The bundles between a die and H (Table 12.1). -/
def hubBundles (d : Nat) : List Nat :=
  if d < 4 then (List.range 8).map (16 + 8 * d + ·) else if d = 5 then [64, 65] else if d = 6 then [66, 67] else []

/-- Does the control bundle among some of one die pair hold its traffic: a repair, a retraining in place, or a takeover (STATE 1 to 3 of
Table 12.7; R338, R339, R341)? -/
def State.controlHeld (s : State) (bs : List Nat) : Bool :=
  bs.any fun b => decide (s.rd (seamRole b) = 1) && decide (1 ≤ s.rd (seamState b)) && decide (s.rd (seamState b) ≤ 3)

/-- Has a die pair lost its control bundle (R342)? -/
def State.controlLost (s : State) (bs : List Nat) : Bool :=
  !bs.isEmpty && !bs.any fun b => decide (s.rd (seamRole b) = 1) && decide (s.rd (seamState b) ≠ 4)

/-- Is control traffic between a die and H held? Once H – N or H – S has lost its control bundle, it goes through T0 or T1, or T2 or T3
(R342). -/
def State.legHeld (s : State) (d : Nat) : Bool :=
  let via := if d = 5 then [0, 1] else if d = 6 then [2, 3] else []
  if s.controlLost (hubBundles d) then !via.isEmpty && via.all fun k => s.controlHeld (hubBundles k)
  else s.controlHeld (hubBundles d)

/-- Is control traffic from die `a` to die `b` held that goes by way of H, as increments do? -/
def State.seamHolds (s : State) (a b : Nat) : Bool := decide (a ≠ b) && (s.legHeld a || s.legHeld b)

/-- The bundles that join two tensor dies directly: those of the vertical pairs (Table 12.1). -/
def partnerBundles (a b : Nat) : List Nat :=
  if min a b = 0 ∧ max a b = 2 then List.range 8 else if min a b = 1 ∧ max a b = 3 then (List.range 8).map (8 + ·) else []

/-- Is a carry record from die `a` to die `b` held (R240, R341)? Vertical partners exchange it on their own control bundle, or through H
once that is lost (R342); other dies through H. -/
def State.recordSeam (s : State) (a b : Nat) : Bool :=
  let bs := partnerBundles a b
  if bs.isEmpty || s.controlLost bs then s.seamHolds a b else s.controlHeld bs

/-- Is an increment held: for a crate whose clock does not run (R72), or by a seam on its way (R240)? -/
def State.incHeld (s : State) (i : Inc) : Bool :=
  match i.loc with
  | some l => (s.tallyOn l && !s.tallyClocked l) || s.seamHolds i.die l.onDie
  | none => false

/-- TALLY_INCREMENT_ARRIVAL (R228): the increments at the positions `ps` of those in flight arrive. Those for the same
tally as the first arrive in one cycle, and R226 is applied once to their sum; positions that name another tally, or an increment
that is held, stay in flight. -/
def execTallyIncrementArrival (ps : List Nat) (s : State) : Res :=
  match (takeAt ps s.incs).1 with
  | [] => .next s
  | i :: _ =>
    if s.incHeld i then .next s
    else
      let here := (List.range s.incs.length).filter fun n =>
        decide (n ∈ ps) && (match s.incs[n]? with
          | some j => decide (j.loc = i.loc ∧ (i.loc ≠ none ∨ j = i)) && !s.incHeld j
          | none => false)
      let p := takeAt here s.incs
      .next (({ s with incs := p.2 }).deliver i ((p.1.map Inc.amount).foldl (· + ·) 0))

/-! Firing (R234 to R237). -/

/-- The members of a mask register: indices `i < n` whose bit is set in words from `a`. -/
def State.members (s : State) (a n : Nat) : List Nat :=
  (List.range n).filter fun i => (s.reg (a + 4 * (i / 32))).getLsbD (i % 32)

/-- Sends an increment of a firing, or drops it when its receiver lies in a unit that is off (R236). -/
def State.fanTo (s : State) (fired l : TallyLoc) (t : Option Nat) : State :=
  if s.tallyOn l then s.sendInc ⟨l.addr, t, 1, 3, fired.addr, fired.onDie⟩
  else (s.bump tlyAbsent).raise 0x0302 l.unit.1 l.unit.2 []

/-- FAB.PORT[p].PARTNER. -/
def fabPartner (p : Nat) : Fld := ⟨0x29000C + 0x400 * p, 0, 32⟩
/-- FAB.PORT[p].FENCE.MODE. -/
def fenceMode (p : Nat) : Fld := ⟨0x290010 + 0x400 * p, 0, 2⟩
/-- FAB.PORT[p].FENCE.JOB_ID. -/
def fenceJob (p : Nat) : Fld := ⟨0x290010 + 0x400 * p, 8, 24⟩
/-- FAB.PORT[p].FENCE_DROPS. -/
def fenceDrops (p : Nat) : Fld := ⟨0x290018 + 0x400 * p, 0, 32⟩
/-- JOB.STAT.STATE (Table 20.1). -/
def jobState : Fld := ⟨0x440000, 0, 3⟩
/-- JOB.STAT.JOB_ID. -/
def jobId : Fld := ⟨0x440000, 8, 24⟩

/-- Does the fence of port `p` pass a packet of the job (R374, Table 13.10)? Management packets pass in every mode. -/
def State.fencePasses (s : State) (p vc job : Nat) : Bool :=
  decide (vc = 6) || (decide (s.rd (fenceMode p) = 1) && decide (s.rd (fenceJob p) = job))

/-- A SYNC_INC to package tally `idx` at the far end of port `p`, with a signed amount in TAG (Tables 13.5, 13.6). -/
def State.syncPacket (s : State) (p idx amount : Nat) : Packet :=
  { dest := s.rd (fabPartner p) / 4096 * 4096, src := s.place, vc := 0, type := 0x10, job := s.rd jobId, hatch := 0,
    off := 0, len := 0, opc := 0, hops := 0, step := 0, tag := amount, tally := 3 * 2 ^ 14 + idx, arr := false,
    status := 0, payload := [], crc := 0#32, hdrOk := true, upper := false }

/-- The part of a firing that leaves through fabric port `p` (R237). It crosses from H to the port's die on their control bundle, which may
hold it (R240). -/
def State.fanPort (s : State) (idx p : Nat) : State :=
  if s.rd (fabState p) ≠ 6 then (s.bump tlyUndeliverable).raise 0x0303 8 p []
  else if !s.fencePasses p 0 (s.rd jobId) then
    ((s.bump tlyUndeliverable).bump (fenceDrops p)).raise 0x0303 8 p []
  else if s.legHeld (5 + p / 8) then { s with syncHeld := s.syncHeld ++ [(p, s.syncPacket p idx 1)] }
  else s.fabSend p (s.syncPacket p idx 1)

/-- The sync packets that control bundles held leave, in the order sent, once these pass their traffic again (R240, R341). -/
def State.releaseSync (s : State) : State :=
  (s.syncHeld.filter fun q => !s.legHeld (5 + q.1 / 8)).foldl (fun s q => s.fabSend q.1 q.2)
    { s with syncHeld := s.syncHeld.filter fun q => s.legHeld (5 + q.1 / 8) }

/-- The increments that a firing sends (Table 8.3). -/
def State.fan (s : State) (l : TallyLoc) : State :=
  match l with
  | .tile _ _ => s
  | .crate c n =>
    let cfg := crateReg c (0x1008 + 16 * n)
    let s := if s.rd ⟨cfg, 22, 1⟩ = 1 then
        (s.members (crateReg c (0x40 + 8 * s.rd ⟨cfg, 24, 3⟩)) 64).foldl
          (fun s t => s.fanTo l (.tile (64 * c + t) (s.rd ⟨cfg, 16, 6⟩)) (some (64 * c + t))) s
      else s
    if s.rd ⟨cfg, 23, 1⟩ = 1 then
      let up := s.rd ⟨cfg + 4, 0, 16⟩
      match (if bitsAt up 14 2 < 2 then none else tallyOfAddr up none) with
      | some u => s.fanTo l u none
      | none => s.dropInc ⟨up, none, 1, 3, l.addr, l.onDie⟩
    else s
  | .die k n =>
    let cfg := 0x400004 + 0x8000 * k + 8 * n
    let s := if s.rd ⟨cfg, 24, 1⟩ = 1 then
        (s.members (0x438000 + 0x80 * k + 16 * s.rd ⟨cfg, 26, 3⟩) 96).foldl
          (fun s c => s.fanTo l (.crate (96 * k + c) (s.rd ⟨cfg, 16, 8⟩)) (some (64 * (96 * k + c)))) s
      else s
    if s.rd ⟨cfg, 25, 1⟩ = 1 then s.fanTo l (.pkg (n % 1024)) none else s
  | .pkg n =>
    let cfg := 0x430000 + 16 * n
    let idx := s.rd ⟨cfg + 12, 0, 10⟩
    let s := ((List.range 4).filter fun k => bitAt (s.rd ⟨cfg + 8, 16, 4⟩) k).foldl
      (fun s k => s.fanTo l (.die k (s.rd ⟨cfg + 4, 16, 12⟩)) none) s
    let s := ((List.range 16).filter fun p => bitAt (s.rd ⟨cfg + 8, 0, 16⟩) p).foldl (fun s p => s.fanPort idx p) s
    if s.rd ⟨cfg + 8, 20, 1⟩ = 1 then s.fanTo l (.pkg idx) none else s

/-- May a tally fire: not a tile tally, powered and clocked, TARGET not 0 and VALUE at least TARGET (R234)? -/
def State.canFire (s : State) (l : TallyLoc) : Bool :=
  (match l with
   | .tile _ _ => false
   | _ => true) && s.tallyOn l && s.tallyClocked l && decide (s.rd l.target ≠ 0) && decide (s.rd l.target ≤ s.rd l.value)

/-- Is the tally one that the package has (Table 8.1)? -/
def TallyLoc.exists' : TallyLoc → Bool
  | .tile t n => decide (t < 24576) && decide (n < 64)
  | .crate c n => decide (c < 384) && decide (n < 256)
  | .die k n => decide (k < 4) && decide (n < 4096)
  | .pkg n => decide (n < 1024)

/-- One firing of a tally that can fire: it subtracts TARGET, advances GEN modulo 2^16 and sends its increments (R234). -/
def State.fireTally (s : State) (l : TallyLoc) : State :=
  let s := s.wr l.value (s.rd l.value - s.rd l.target)
  (s.wr l.gen (s.rd l.gen + 1)).fan l

/-! Register access to tallies. -/

/-- Applies a write of a register word under its access codes: RW bits take the written value, W1C bits written 1 are
cleared, all others keep theirs (R7, R8). -/
def State.plainWrite (s : State) (a : Nat) (w : BitVec 32) : State :=
  match regRow a with
  | none => s
  | some r =>
    let rw := BitVec.ofNat 32 r.rw
    let old := s.reg a
    s.setReg a (((old &&& ~~~rw) ||| (w &&& rw)) &&& ~~~(w &&& BitVec.ofNat 32 r.w1c))

/-- The signed amount of a 16-bit field. -/
def int16 (v : Nat) : Int := if v % 65536 < 32768 then ((v % 65536 : Nat) : Int) else ((v % 65536 : Nat) : Int) - 65536

/-- Is a register word one of the tally registers of a crate, a die or the package (Tables 8.8 to 8.12)? -/
def isTallyReg (a : Nat) : Bool :=
  (decide (0x400000 ≤ a) && decide (a < 0x438200)) ||
    (decide (0x1000000 ≤ a) && decide (a < 0x1C00000) &&
      (let off := (a - 0x1000000) % 0x8000
       (decide (0x1000 ≤ off) && decide (off < 0x2000)) || (decide (0x40 ≤ off) && decide (off < 0x80))))

/-- A write of a tally register word takes effect: an ADD register adds (R227), any other word is set under its access codes. -/
def State.tallyWord (s : State) (a : Nat) (w : Word) : State :=
  if 0x420000 ≤ a ∧ a < 0x430000 then s.addTally (.die ((a - 0x420000) / 0x4000) (a % 0x4000 / 4)) (int16 w.toNat)
  else if 0x434000 ≤ a ∧ a < 0x435000 then s.addTally (.pkg ((a - 0x434000) / 4)) (int16 w.toNat)
  else if 0x435000 ≤ a ∧ a < 0x438000 then s
  else if 0x1000000 ≤ a ∧ 0x1000 ≤ (a - 0x1000000) % 0x8000 ∧ a % 16 = 4 then
    s.addTally (.crate ((a - 0x1000000) / 0x8000) (((a - 0x1000000) % 0x8000 - 0x1000) / 16)) (int16 w.toNat)
  else s.plainWrite a w

/-- The place of a tally register word. -/
def tallyPlace (a : Nat) : Nat :=
  if 0x1000000 ≤ a then 64 + (a - 0x1000000) / 0x8000
  else if a < 0x420000 then 16 + (a - 0x400000) / 0x8000
  else if a < 0x430000 then 16 + (a - 0x420000) / 0x4000
  else if a < 0x438000 then 22
  else 16 + (a - 0x438000) / 0x80

/-- Has a host port a BAR2 write that its home has not accepted (R231, R247)? -/
def State.portPosted (s : State) (p : Nat) : Bool :=
  (s.homeQ.any fun w => decide (w.port = some p)) || s.txns.any fun x => match x.kind with
    | .uncWrite _ _ q => decide (q = some p)
    | _ => false

/-- Must a source's write of a tally register wait for BAR2 writes of its port, or behind another that does (R231)? -/
def State.tallyWaits (s : State) (src : Src) : Bool :=
  match src.port with
  | some p => s.portPosted p || s.tallyQ.any fun q => decide (q.1 = p)
  | none => false

/-- A register write of a source to a tally: it waits for its port's earlier BAR2 writes (R231), else `act` takes effect at the tally's
place. -/
def State.tallyAccess (s : State) (src : Src) (a d : Nat) (w : Word) (act : State → State) : State :=
  match src.port with
  | some p => if s.tallyWaits src then { s with tallyQ := s.tallyQ ++ [(p, a, w)] } else s.atPlace src d act
  | none => s.atPlace src d act

/-- A host port by number. -/
def portSrc (p : Nat) : Src := .hostPort (if p = 0 then 0 else 1)

/-- The waiting tally writes of ports whose BAR2 writes have all been accepted take effect, in the order written (R231). -/
def State.releaseTallies (s : State) : State :=
  let go := s.tallyQ.filter fun q => !s.portPosted q.1
  go.foldl (fun s q => s.atPlace (portSrc q.1) (tallyPlace q.2.1) fun s => s.tallyWord q.2.1 q.2.2)
    { s with tallyQ := s.tallyQ.filter fun q => s.portPosted q.1 }


/-- May a source write the tally registers (R64, R231, Table 23.1)? Tile tallies have no BAR0 address. -/
def tallyWriter (src : Src) : TallyLoc → Bool
  | .tile t _ => match src with
    | .tile t' => decide (t'.val = t)
    | _ => false
  | .crate c _ => match src with
    | .hostCore _ => true
    | .hostPort _ => true
    | .tile t' => decide (t'.val / 64 = c)
    | .mgmt => false
  | _ => match src with
    | .hostCore _ => true
    | .hostPort _ => true
    | _ => false

/-- Does the source's own clock run, where it is a tile (R72)? -/
def State.srcRuns (s : State) : Src → Bool
  | .tile t => s.crateRuns (t.val / 64)
  | _ => true

/-- TALLY_VALUE_WRITE (R227, R231): a write of the word that holds VALUE sets the tally; GEN is read only. -/
def execTallyValueWrite (src : Src) (l : TallyLoc) (w : BitVec 32) (s : State) : Res :=
  if l.exists' && tallyWriter src l && s.srcRuns src then
    .next (s.tallyAccess src l.value.a l.place w fun s => s.wr l.value (w.toNat % 65536))
  else .next s

/-- TALLY_ADD (R227, R231): a write of an ADD register adds its signed 16-bit amount under R226. -/
def execTallyAdd (src : Src) (l : TallyLoc) (w : BitVec 32) (s : State) : Res :=
  if l.exists' && tallyWriter src l && s.srcRuns src then
    .next (s.tallyAccess src l.addReg l.place w fun s => s.addTally l (int16 w.toNat))
  else .next s

/-- TALLY_TAKE (R227): a read of TAKE[n] by the tile's control core answers the value and subtracts 1 when it is not 0. -/
def execTallyTake (t : TileId) (n : Fin 64) (s : State) : Res :=
  let l := TallyLoc.tile t n
  if s.tallyOn l && s.tallyClocked l then
    let v := s.rd l.value
    let s := { s with answer := ⟨0, toBytes 4 v⟩ }
    .next (if v = 0 then s else s.wr l.value (v - 1))
  else .next s

/-- The position under which a request of a core stands among the requests that a device awaits: no chunk of a copy has it. -/
def corePos : Nat := 2 ^ 40 + 1

/-- Is a store that the control core of a tile sent through a hatch still unaccepted at its destination (R230)? -/
def State.storesOut (s : State) (t : Nat) : Bool :=
  s.fabReqs.any fun q => decide (q.tile = t) && decide (q.pos = corePos) && !q.read

/-- TALLY_SEND (R230, R232): a write of TILE_TLY.SEND sends its signed amount to a tally address, with the sending tile as the
receiving tile of levels 0 and 1. -/
def execTallySend (t : TileId) (w : BitVec 32) (s : State) : Res :=
  if s.tileOn t && s.crateRuns (t / 64) && !s.storesOut t then
    let v := w.toNat / 65536
    .next (s.sendInc ⟨w.toNat % 65536, some t, if v < 32768 then (v : Int) else (v : Int) - 65536, 2, t, t / 6144⟩)
  else .next s

/-- The register word that a configuration write reaches; none where the tally has no such word. -/
def TallyCfg.addr : TallyCfg → Option Nat
  | .word (.crate c n) i => if i < 2 then some (crateReg c (0x1008 + 16 * n) + 4 * i) else none
  | .word (.die k n) i => if i = 0 then some (0x400004 + 0x8000 * k + 8 * n) else none
  | .word (.pkg n) i => if i < 3 then some (0x430004 + 16 * n + 4 * i) else none
  | .word (.tile _ _) _ => none
  | .crateMask c m i => some (crateReg c (0x40 + 8 * m) + 4 * i)
  | .dieMask k m i => some (0x438000 + 0x80 * k + 16 * m + 4 * i)

/-- The tally, or one of the crate or die of a mask, whose writer rule a configuration write follows. -/
def TallyCfg.owner : TallyCfg → TallyLoc
  | .word l _ => l
  | .crateMask c _ _ => .crate c 0
  | .dieMask k _ _ => .die k 0

/-- TALLY_CONFIG_WRITE (R231, R235): the written fields govern later firings. -/
def execTallyConfigWrite (src : Src) (f : TallyCfg) (w : BitVec 32) (s : State) : Res :=
  match f.addr with
  | none => .next s
  | some a =>
    if f.owner.exists' && tallyWriter src f.owner && s.srcRuns src then
      .next (s.tallyAccess src a f.owner.place w fun s => s.plainWrite a w)
    else .next s

end Sys2Proof.Machine
end

