-- ==== Sys2Proof/Machine/PlanCore.lean ====
section
/-! DEFINITION. The step monitor's records: event ring, suspension causes and the guarantee of the running plan (R503, R514,
R515). Commands of plans are in Plan. -/
namespace Sys2Proof.Machine

/-! Registers of STAT.PLAN and STAT.STEP[i] (Tables 18.14, 18.15). -/
def plnState : Fld := ⟨0x4A000, 0, 2⟩
def plnGuarantee : Fld := ⟨0x4A000, 2, 1⟩
def plnSuspend : Fld := ⟨0x4A000, 8, 8⟩
def plnCondGen : Fld := ⟨0x4A000, 16, 16⟩
def plnId : Fld := ⟨0x4A004, 0, 32⟩
def plnPeriods : Fld := ⟨0x4A008, 0, 32⟩
def plnEvHead : Fld := ⟨0x4A00C, 0, 16⟩
def plnEvTail : Fld := ⟨0x4A010, 0, 16⟩
def plnEvLost : Fld := ⟨0x4A014, 0, 32⟩
def plnToken : Fld := ⟨0x4A018, 0, 16⟩
def stepLate (i : Nat) : Fld := ⟨0x4A100 + 16 * i, 0, 32⟩
def stepWorst (i : Nat) : Fld := ⟨0x4A104 + 16 * i, 0, 32⟩
def stepSuspended (i : Nat) : Fld := ⟨0x4A108 + 16 * i, 0, 32⟩
def stepOverrun (i : Nat) : Fld := ⟨0x4A10C + 16 * i, 0, 16⟩
def stepFailed (i : Nat) : Fld := ⟨0x4A10C + 16 * i, 16, 16⟩

/-! Registers whose state makes a cause of Table 18.10. -/
def govLowest : Fld := ⟨0x180008, 0, 1⟩
def crThrottle (c : Nat) : Fld := ⟨crateReg c 0x30, 24, 1⟩
def crDroopActive (c : Nat) : Fld := ⟨crateReg c 0x30, 25, 1⟩
def stThrottle (st : Nat) : Fld := ⟨0x380000 + 0x4000 * st, 1, 1⟩

/-- The conditions generation advances (R503). -/
def State.condChange (s : State) : State := s.wr plnCondGen (s.rd plnCondGen + 1)

/-- The bytes of an event record (Table 18.11). -/
def eventBytes (seq kind step period late causes unit plt : Nat) : List Byte :=
  let b := toBytes 4 seq ++ toBytes 1 kind ++ [0#8] ++ toBytes 2 step ++ toBytes 4 period ++ toBytes 4 late ++ toBytes 2 causes ++
    toBytes 2 unit ++ toBytes 8 plt
  b ++ toBytes 4 (crc32c b).toNat

/-- Writes an event of the running plan into its ring, on its way to the home, or counts it in EV_LOST where the ring is full
(R515). A late end counts in LATE, and a late event signals APLIC source 5 (log entry 37). -/
def State.planEvent (s : State) (kind step period late causes unit : Nat) : State :=
  match s.planRun with
  | none => s
  | some r =>
    let size := 2 ^ r.evLog
    let seq := r.seq + 1
    let s := { s with planRun := some { r with seq := seq } }
    let used := (s.rd plnEvHead + 65536 - s.rd plnEvTail) % 65536
    let s := if used < size then
        let a := r.evBase + 32 * (s.rd plnEvHead % size)
        let s := { s with homeQ := s.homeQ ++ [(⟨a, eventBytes seq kind step period late causes unit s.plt, none⟩ : HomeWrite)] }
        s.wr plnEvHead (s.rd plnEvHead + 1)
      else s.bump plnEvLost
    let s := if kind = 1 ∧ step < 256 then s.bump (stepLate step) else s
    if kind = 1 ∨ kind = 2 then s.aplicSignal 5 else s

/-- The number of periods started, less one: the period that an event names. -/
def PRun.period (r : PRun) : Nat := r.starts.length - 1

/-- The crates that a plan's items use. -/
def Plan.usesCrate (p : Plan) (c : Nat) : Bool := p.items.any fun i => decide (i.crateLo ≤ c) && decide (c ≤ i.crateHi)

/-- Does a plan's cellar reservation use a stack? -/
def Plan.usesStack (p : Plan) (st : Nat) : Bool := decide (p.spread ≠ 0) || decide (p.near.getD (st / 5) 0 ≠ 0)

/-- The pairs that a move from die `a` to die `e` crosses, by their lowest bundle: a vertical pair, or both dies' bundles to H
(R18). -/
def legsOf (a e : Nat) : List Nat :=
  if a = e then [] else if a % 2 = e % 2 then [if a % 2 = 0 then 0 else 8] else [16 + 8 * a, 16 + 8 * e]

/-- The lowest bundle of the die pair of bundle `b` (Table 12.1). -/
def seamPair (b : Nat) : Nat := if b < 48 then b / 8 * 8 else if b < 64 then b / 4 * 4 else b / 2 * 2

/-- Do a plan's reservations use the die pair of bundle `b` (R340)? The spread reservation crosses every pair of a tensor die, a port's the
pairs of its I/O die (log entry 66), and a MOVE to another die those on its route (R18, R493). -/
def Plan.usesPair (p : Plan) (b : Nat) : Bool :=
  (decide (p.spread ≠ 0) && decide (b < 64)) ||
    ((List.range 16).any fun i => decide (p.ports.getD i 0 % 128 ≠ 0) && decide (b ∈ if i < 8 then [48, 49, 50, 51, 52, 53, 54, 55, 64, 65]
      else [56, 57, 58, 59, 60, 61, 62, 63, 66, 67])) ||
    (p.items.any fun i => decide (i.kind = 3) && decide (bitsAt (ofBytes i.param) 64 8 = 2) && decide (i.tiles ≠ 0) &&
      (List.range 4).any fun k => decide (i.crateLo / 96 ≤ k) && decide (k ≤ i.crateHi / 96) &&
        decide (seamPair b ∈ legsOf k (bitsAt (ofBytes i.param) 88 8)))

/-- The causes of Table 18.10 in force on the crates and stacks that the predicates pick. -/
def State.causesNow (s : State) (crates stks : Nat → Bool) : Nat :=
  b2n (s.on govLowest) +
    2 * b2n ((List.range 384).any fun c => crates c && s.on (crDroopActive c)) +
    4 * b2n ((List.range 384).any fun c => crates c && s.on (crThrottle c)) +
    8 * b2n ((List.range 20).any fun st => stks st && s.on (stThrottle st)) +
    64 * b2n (s.on pwrOnInternal) +
    128 * b2n (s.repairing.any fun k => stks (k / 2 ^ 26))

/-- Brings the suspension causes up to date after one may have begun or ended (R514, R515). -/
def State.syncCauses (s : State) (unit : Nat) : State :=
  let dev := s.causesNow (fun _ => true) fun _ => true
  let lost := match s.planRun with
    | some r => r.lost
    | none => 0
  let s := s.wr plnSuspend (Nat.lor dev lost)
  match s.planRun with
  | none => s
  | some r =>
    let now := s.causesNow r.plan.usesCrate r.plan.usesStack
    let s := { s with planRun := some { r with
      causes := now, insts := r.insts.map fun (i : PInst) => { i with causes := Nat.lor i.causes now } } }
    (List.range 8).foldl (fun s b =>
      if bitAt now b && !bitAt r.causes b then s.planEvent 4 0xFFFF r.period 0 (2 ^ b) unit
      else if !bitAt now b && bitAt r.causes b then s.planEvent 5 0xFFFF r.period 0 (2 ^ b) unit
      else s) s

/-- The guarantee of the running plan is lost: a seam (cause 4) or a fabric port (cause 5) that it uses has changed, each change being
reported (R340, R514), or the pilot light is gone (cause 6). -/
def State.loseGuarantee (s : State) (bit unit : Nat) (uses : Plan → Bool) : State :=
  match s.planRun with
  | none => s
  | some r =>
    if uses r.plan then
      let s := { s with planRun := some { r with
        lost := Nat.lor r.lost (2 ^ bit), insts := r.insts.map fun (i : PInst) => { i with causes := Nat.lor i.causes (2 ^ bit) } } }
      let s := s.wr plnSuspend (Nat.lor (s.rd plnSuspend) (2 ^ bit))
      if s.on plnGuarantee || decide (bit ≠ 6) then (s.wr plnGuarantee 0).planEvent 6 0xFFFF r.period 0 (2 ^ bit) unit else s
    else s

end Sys2Proof.Machine
end

