-- ==== Sys2Proof/Machine/Access.lean ====
section
/-! DEFINITION. Who may write a register (R64, R592, Table 23.1). -/
namespace Sys2Proof.Machine

/-- Is the source a host core? -/
def Src.isCore : Src → Bool
  | .hostCore _ => true
  | _ => false

/-- Is the source a host port? -/
def Src.isPort : Src → Bool
  | .hostPort _ => true
  | _ => false

/-- HP[p].CFG.JOB_CTL (Table 14.8). -/
def hpJobCtl (p : Nat) : Fld := ⟨0x10004 + 0x1000 * p, 0, 1⟩

/-- May the control core of tile `t` write crate-window offset `off` of its own crate (R64)? -/
def tileMayWriteCrate (t off : Nat) : Bool :=
  decide (0x1000 ≤ off ∧ off < 0x2000) || decide (0x40 ≤ off ∧ off < 0x80) || decide (0x20 ≤ off ∧ off < 0x2C) ||
    decide (off = 0x400 + 4 * (t % 64))

/-- Does the block at map offset `a` accept a write from the source (Table 23.1)? Management writes reach the forced marks of
FLT.OFFLINE only (R578); HEAD and CLEAR of FLT take writes as R568 states, UPD of PKL as R542 states. -/
def State.mayWrite (s : State) (src : Src) (a : Nat) : Bool :=
  let core := src.isCore
  let port := src.isPort
  if a < 0x10000 then false
  else if a < 0x40000 then core || port
  else if a < 0x100000 then core || (port && decide (a = 0x4A010))
  else if a < 0x140000 then
    if 0x103100 ≤ a ∧ a < 0x1031E0 then decide (src = .mgmt)
    else core || (match src with
      | .hostPort p => s.on (hpJobCtl p)
      | _ => false)
  else if a < 0x180000 then false
  else if a < 0x400000 then core
  else if a < 0x440000 then core || port
  else if a < 0x4C0000 then false
  else if a < 0x500000 then core || (match src with
      | .hostPort p => s.on (hpJobCtl p)
      | _ => false)
  else if a < 0x1000000 then false
  else if a < 0x1C00000 then
    let off := (a - 0x1000000) % 0x8000
    match src with
    | .hostCore _ => true
    | .hostPort _ => decide (off ≠ 0x10)
    | .tile t => decide ((a - 0x1000000) / 0x8000 = t.val / 64) && tileMayWriteCrate t off
    | .mgmt => false
  else false

/-- A write of 4 bytes, or of 8 when `wide` is set, from word `a` under the access codes of each word (R590, R591). -/
def State.plainWrites (s : State) (a : Nat) (wide : Bool) (v : BitVec 64) : State :=
  let s := s.plainWrite a (v.setWidth 32)
  if wide then s.plainWrite (a + 4) ((v >>> 32).setWidth 32) else s

/-- Is a write naturally aligned (R590)? -/
def aligned (a : Nat) (wide : Bool) : Bool := decide (a % (if wide then 8 else 4) = 0)

end Sys2Proof.Machine
end

