-- ==== Sys2Proof/Machine/Float.lean ====
section
/-! DEFINITION. The number formats and conversions of the tile engines and of the cellar's adders (R76 to R107, R611,
R620): exact dyadic values, reading an input, rounding, and conversion to a target format with its flags and counts. -/
namespace Sys2Proof.Machine

/-- The formats of Table 3.1. -/
inductive Fmt where
  | fp32 | bf16 | fp16 | e4m3 | e5m2 | fp4 | int8 | uint8 | int4 | uint4 | cb4 | e8m0 | fp64 | int32
  deriving DecidableEq, Repr

/-- The 4-bit format code of a descriptor (Table 3.1); the reserved codes 0xE and 0xF name none. -/
def fmtOfCode : Nat → Option Fmt
  | 0 => some .fp32 | 1 => some .bf16 | 2 => some .fp16 | 3 => some .e4m3 | 4 => some .e5m2 | 5 => some .fp4
  | 6 => some .int8 | 7 => some .uint8 | 8 => some .int4 | 9 => some .uint4 | 10 => some .cb4 | 11 => some .e8m0
  | 12 => some .fp64 | 13 => some .int32 | _ => none

/-- Width in bits (Table 3.1). -/
def Fmt.bits : Fmt → Nat
  | .fp32 => 32 | .bf16 => 16 | .fp16 => 16 | .e4m3 => 8 | .e5m2 => 8 | .fp4 => 4 | .int8 => 8 | .uint8 => 8
  | .int4 => 4 | .uint4 => 4 | .cb4 => 4 | .e8m0 => 8 | .fp64 => 64 | .int32 => 32

/-- Bytes taken by `n` elements stored from a byte boundary (R77). -/
def Fmt.bytes (f : Fmt) (n : Nat) : Nat := (n * f.bits + 7) / 8

/-- Is the format one of the two's complement or unsigned integers? -/
def Fmt.isInt : Fmt → Bool
  | .int8 | .uint8 | .int4 | .uint4 | .int32 => true
  | _ => false

/-- Is the format a signed or unsigned float with sign, exponent and fraction? -/
def Fmt.isFloat : Fmt → Bool
  | .fp32 | .bf16 | .fp16 | .e4m3 | .e5m2 | .fp4 | .fp64 => true
  | _ => false

/-- Is the format 4 bits wide? -/
def Fmt.is4 (f : Fmt) : Bool := f.bits = 4

/-- Fraction bits of a float format (Table 3.2). -/
def Fmt.frac : Fmt → Nat
  | .fp32 => 23 | .bf16 => 7 | .fp16 => 10 | .e4m3 => 3 | .e5m2 => 2 | .fp4 => 1 | .fp64 => 52 | _ => 0

/-- Exponent bits of a float format (Table 3.2). -/
def Fmt.expw : Fmt → Nat
  | .fp32 => 8 | .bf16 => 8 | .fp16 => 5 | .e4m3 => 4 | .e5m2 => 5 | .fp4 => 2 | .fp64 => 11 | .e8m0 => 8 | _ => 0

/-- Exponent bias of a float format (Table 3.2). -/
def Fmt.bias : Fmt → Nat
  | .fp32 => 127 | .bf16 => 127 | .fp16 => 15 | .e4m3 => 7 | .e5m2 => 15 | .fp4 => 1 | .fp64 => 1023 | .e8m0 => 127
  | _ => 0

/-- Does the format have infinities (Table 3.2)? -/
def Fmt.hasInf : Fmt → Bool
  | .fp32 | .bf16 | .fp16 | .e5m2 | .fp64 => true
  | _ => false

/-- Least value of an integer format. -/
def Fmt.imin : Fmt → Int
  | .int8 => -128 | .int4 => -8 | .int32 => -2147483648 | _ => 0

/-- Greatest value of an integer format. -/
def Fmt.imax : Fmt → Int
  | .int8 => 127 | .uint8 => 255 | .int4 => 7 | .uint4 => 15 | .int32 => 2147483647 | _ => 0

/-- An exactly held value: a NaN (signalling or quiet), an infinity, or (-1)^neg · m · 2^e. A zero keeps its sign. -/
inductive Num where
  | nan (signalling : Bool)
  | inf (neg : Bool)
  | fin (neg : Bool) (m : Nat) (e : Int)
  deriving DecidableEq, Repr

/-- Positive zero. -/
def Num.zero : Num := .fin false 0 0

/-- The value of an integer. -/
def Num.ofInt (i : Int) : Num := .fin (decide (i < 0)) i.natAbs 0

/-- Is the value a NaN? -/
def Num.isNan : Num → Bool
  | .nan _ => true
  | _ => false

/-- Is the value an infinity? -/
def Num.isInf : Num → Bool
  | .inf _ => true
  | _ => false

/-- Is the value a finite zero? -/
def Num.isZero : Num → Bool
  | .fin _ m _ => m = 0
  | _ => false

/-- The opposite value. -/
def Num.neg : Num → Num
  | .nan q => .nan q
  | .inf n => .inf (!n)
  | .fin n m e => .fin (!n) m e

/-- The magnitude. -/
def Num.abs : Num → Num
  | .nan q => .nan q
  | .inf _ => .inf false
  | .fin _ m e => .fin false m e

/-- Sign bit; a NaN produced by the device has sign 0 (R78). -/
def Num.signBit : Num → Bool
  | .nan _ => false
  | .inf n => n
  | .fin n _ _ => n

/-- Exact comparison of two finite magnitudes m·2^e: is the first below the second? -/
def magLt (m1 : Nat) (e1 : Int) (m2 : Nat) (e2 : Int) : Bool :=
  let e := min e1 e2
  decide (m1 * 2 ^ (e1 - e).toNat < m2 * 2 ^ (e2 - e).toNat)

/-- Exact equality of two finite magnitudes. -/
def magEq (m1 : Nat) (e1 : Int) (m2 : Nat) (e2 : Int) : Bool :=
  let e := min e1 e2
  decide (m1 * 2 ^ (e1 - e).toNat = m2 * 2 ^ (e2 - e).toNat)

/-- The order of R182 on non-NaN values, in which −0 lies below +0: is `a` below `b`? -/
def Num.lt : Num → Num → Bool
  | .nan _, _ => false
  | _, .nan _ => false
  | .inf n, .inf n' => n && !n'
  | .inf n, .fin _ _ _ => n
  | .fin _ _ _, .inf n => !n
  | .fin n m e, .fin n' m' e' =>
    if n && !n' then true
    else if !n && n' then false
    else if n then magLt m' e' m e
    else magLt m e m' e'

/-- Numeric comparison, in which the two zeros are equal: is `a` above `b`? -/
def Num.gt (a b : Num) : Bool :=
  if a.isZero && b.isZero then false else b.lt a

/-- Numeric equality; the two zeros are equal and a NaN equals nothing. -/
def Num.numEq : Num → Num → Bool
  | .inf n, .inf n' => n = n'
  | .fin n m e, .fin n' m' e' => (m = 0 && m' = 0) || (n = n' && magEq m e m' e')
  | _, _ => false

/-- FLAGS of Table 3.7 with the two counts of R101. -/
structure Fl where
  flags : BitVec 8
  clamps : Nat
  flushes : Nat
  deriving DecidableEq, Repr

/-- The cleared flags and counts of a descriptor's start (R101). -/
def Fl.clear : Fl := ⟨0#8, 0, 0⟩

/-- Sets bit `i` of FLAGS. -/
def Fl.set (f : Fl) (i : Nat) : Fl := { f with flags := f.flags ||| (1#8 <<< i) }

/-- The flags of a result that depends on a NaN or infinite input: its roundings set no INEXACT (R611). -/
def Fl.dropInexact (before after : Fl) (special : Bool) : Fl :=
  if special && !before.flags.getLsbD 4 then { after with flags := after.flags &&& ~~~(1#8 <<< 4) } else after

/-- Sets bit `i` of FLAGS when `b`. -/
def Fl.setIf (f : Fl) (b : Bool) (i : Nat) : Fl := if b then f.set i else f

/-- Increments CLAMPS, held at 0xFFFF_FFFF (R101). -/
def Fl.clamp (f : Fl) : Fl := { f with clamps := min (f.clamps + 1) 0xFFFFFFFF }

/-- Increments FLUSHES, held at 0xFFFF_FFFF (R101). -/
def Fl.flush (f : Fl) : Fl := { f with flushes := min (f.flushes + 1) 0xFFFFFFFF }

/-- FLAGS bit numbers (Table 3.7). -/
def fINVALID : Nat := 0
def fDIVZERO : Nat := 1
def fOVERFLOW : Nat := 2
def fUNDERFLOW : Nat := 3
def fINEXACT : Nat := 4
def fINPUT_FLUSH : Nat := 5
def fANY_NAN : Nat := 6
def fACC_SAT : Nat := 7

/-- The signed value of the low `w` bits of `n`. -/
def signedOf (w n : Nat) : Int :=
  let v := n % 2 ^ w
  if 2 * v < 2 ^ w then (v : Int) else (v : Int) - (2 ^ w : Nat)

/-- The two's complement encoding of `i` in `w` bits. -/
def encodeInt (w : Nat) (i : Int) : Nat := (i % (2 ^ w : Nat)).toNat

/-- The value that an encoding stands for, subnormals included (Tables 3.1 to 3.3). CB4 codes have no value of their own
and decode as their index. -/
def decodeNum (f : Fmt) (n : Nat) : Num :=
  if f.isInt then
    match f with
    | .uint8 => Num.ofInt ((n % 256 : Nat) : Int)
    | .uint4 => Num.ofInt ((n % 16 : Nat) : Int)
    | _ => Num.ofInt (signedOf f.bits n)
  else if f = .cb4 then Num.ofInt ((n % 16 : Nat) : Int)
  else if f = .e8m0 then
    let v := n % 256
    if v = 255 then .nan false else .fin false 1 ((v : Int) - 127)
  else
    let fr := n % 2 ^ f.frac
    let ex := n / 2 ^ f.frac % 2 ^ f.expw
    let s := n / 2 ^ (f.frac + f.expw) % 2 = 1
    let top := 2 ^ f.expw - 1
    if ex = 0 then .fin s fr (1 - (f.bias : Int) - f.frac)
    else if f.hasInf && ex = top then
      if fr = 0 then .inf s else .nan (fr < 2 ^ (f.frac - 1))
    else if f = .e4m3 && ex = top && fr = 7 then .nan false
    else .fin s (2 ^ f.frac + fr) ((ex : Int) - f.bias - f.frac)

/-- Is the encoding a subnormal that the engines flush (R80, R81)? FP4 has none. -/
def isSubnormal (f : Fmt) (n : Nat) : Bool :=
  f.isFloat && f ≠ .fp4 && (n / 2 ^ f.frac % 2 ^ f.expw = 0) && (n % 2 ^ f.frac ≠ 0)

/-- An engine's read of an input element: the subnormal flush of R81 and the NaN rules of R84. -/
def readIn (f : Fmt) (n : Nat) (fl : Fl) : Num × Fl :=
  if isSubnormal f n then (.fin (n / 2 ^ (f.frac + f.expw) % 2 = 1) 0 0, fl.set fINPUT_FLUSH)
  else match decodeNum f n with
    | .nan sig => (.nan false, (fl.set fANY_NAN).setIf sig fINVALID)
    | v => (v, fl)

/-- Rounding of the magnitude m·2^e at quantum 2^q: the multiple of the quantum and whether a non-zero part was
discarded. `r` is the 16-bit draw of stochastic rounding (R97); none is round-to-nearest-even (R94). -/
def roundAt (q : Int) (r : Option Nat) (m : Nat) (e : Int) : Nat × Bool :=
  if q ≤ e then (m * 2 ^ (e - q).toNat, false)
  else
    let sh := (q - e).toNat
    let t := m / 2 ^ sh
    let d := m % 2 ^ sh
    let up : Bool := match r with
      | none => decide (2 * d > 2 ^ sh) || (decide (2 * d = 2 ^ sh) && decide (t % 2 = 1))
      | some x => decide (d * 65536 / 2 ^ sh + x ≥ 65536)
    (if up then t + 1 else t, decide (d ≠ 0))

/-- Position of the leading bit of a non-zero magnitude m·2^e: the exponent of its binade. -/
def magExp (m : Nat) (e : Int) : Int := (Nat.log2 m : Int) + e

/-- The quantum at which a value of the float format `f` is rounded: `frac` bits below the leading bit, and for FP4 no
finer than 0.5, its value set's step (R82). -/
def quantum (f : Fmt) (m : Nat) (e : Int) : Int :=
  let q := magExp m e - f.frac
  if f = .fp4 then max q (-1) else q

/-- Largest finite magnitude of a float format as m·2^e (Table 3.2). -/
def maxFin (f : Fmt) : Nat × Int :=
  match f with
  | .e4m3 => (14, 5)
  | .fp4 => (3, 1)
  | .e8m0 => (1, 127)
  | _ => (2 ^ (f.frac + 1) - 1, (2 ^ f.expw : Nat) - 2 - (f.bias : Int) - f.frac)

/-- Is m·2^e above the largest finite magnitude? -/
def aboveMax (f : Fmt) (m : Nat) (e : Int) : Bool :=
  let x := maxFin f
  magLt x.1 x.2 m e

/-- Exponent of the smallest normal magnitude (Table 3.2); for FP4 the smallest non-zero value, 0.5 (R82). -/
def minNormExp (f : Fmt) : Int := if f = .fp4 then -1 else 1 - (f.bias : Int)

/-- The encoding of infinity of sign `s`. -/
def encInf (f : Fmt) (s : Bool) : Nat :=
  (if s then 2 ^ (f.bits - 1) else 0) + (2 ^ f.expw - 1) * 2 ^ f.frac

/-- The canonical quiet NaN (Table 3.2). -/
def encNan : Fmt → Nat
  | .fp64 => 0x7FF8000000000000 | .fp32 => 0x7FC00000 | .bf16 => 0x7FC0 | .fp16 => 0x7E00 | .e5m2 => 0x7E
  | .e4m3 => 0x7F | .e8m0 => 0xFF | _ => 0

/-- The encoding of a zero of sign `s` in a float format. -/
def encZero (f : Fmt) (s : Bool) : Nat := if s then 2 ^ (f.bits - 1) else 0

/-- The encoding of the largest finite value of sign `s`. -/
def encMax (f : Fmt) (s : Bool) : Nat :=
  let v := match f with
    | .e4m3 => 0x7E
    | .fp4 => 7
    | _ => (2 ^ f.expw - 2) * 2 ^ f.frac + (2 ^ f.frac - 1)
  (if s then 2 ^ (f.bits - 1) else 0) + v

/-- The encoding of the non-zero magnitude m·2^e that a float format holds exactly, with sign `s`. -/
def encFin (f : Fmt) (s : Bool) (m : Nat) (e : Int) : Nat :=
  let x := magExp m e
  let sg := if s then 2 ^ (f.bits - 1) else 0
  let ex := x + f.bias
  if ex ≤ 0 then
    -- only FP4's 0.5 lies below the exponent range (R80)
    sg + 1
  else
    let q := x - f.frac
    let sig := if q ≤ e then m * 2 ^ (e - q).toNat else m / 2 ^ (q - e).toNat
    sg + ex.toNat * 2 ^ f.frac + sig % 2 ^ f.frac

/-- What happens to a finite value that is too large for a float format. -/
inductive Ovf where
  /-- A conversion that saturates and counts (R88). -/
  | clamp
  /-- A conversion or an arithmetic result that becomes infinite (R86, R88). -/
  | inf
  deriving DecidableEq, Repr

/-- Rounds a finite value into a float format: precision first, then the flush of R82, then overflow. Answers the
encoding, the flags and whether the value was clamped or flushed. -/
def roundFloat (f : Fmt) (o : Ovf) (r : Option Nat) (s : Bool) (m : Nat) (e : Int) (fl : Fl) : Nat × Fl :=
  if m = 0 then (encZero f s, fl)
  else
    let q := quantum f m e
    let p := roundAt q r m e
    let fl := fl.setIf p.2 fINEXACT
    if p.1 = 0 then (encZero f s, ((fl.flush).set fUNDERFLOW).set fINEXACT)
    else if magExp p.1 q < minNormExp f then (encZero f s, ((fl.flush).set fUNDERFLOW).set fINEXACT)
    else if aboveMax f p.1 q then
      match o with
      | .inf => (if f.hasInf then encInf f s else encMax f s, (fl.set fOVERFLOW).set fINEXACT)
      | .clamp => (encMax f s, ((fl.clamp).set fOVERFLOW).set fINEXACT)
    else (encFin f s p.1 q, fl)

/-- The overflow rule that a conversion to `f` follows (R88, R89). -/
def convOvf (f : Fmt) (ovfInf : Bool) : Ovf :=
  match f with
  | .fp64 => .inf
  | .fp32 | .bf16 | .fp16 | .e5m2 => if ovfInf then .inf else .clamp
  | _ => .clamp

/-- Conversion of a finite value to an integer format with the offset `zp` added before saturation (R92, R159). -/
def convInt (f : Fmt) (zp : Int) (r : Option Nat) (s : Bool) (m : Nat) (e : Int) (fl : Fl) : Nat × Fl :=
  let p := roundAt 0 r m e
  let v : Int := (if s then -(p.1 : Int) else (p.1 : Int)) + zp
  let fl := fl.setIf p.2 fINEXACT
  if v < f.imin then (encodeInt f.bits f.imin, (fl.clamp).set fINEXACT)
  else if f.imax < v then (encodeInt f.bits f.imax, (fl.clamp).set fINEXACT)
  else (encodeInt f.bits v, fl)

/-- Conversion to E8M0: the power of two at or below the magnitude (R93). -/
def convE8 (x : Num) (fl : Fl) : Nat × Fl :=
  match x with
  | .nan _ => (0xFF, fl.set fANY_NAN)
  | .inf _ => (0xFE, fl.clamp)
  | .fin _ m e =>
    if m = 0 then (0, (fl.flush).set fINEXACT)
    else
      let k := magExp m e
      if k < -127 then (0, (fl.flush).set fINEXACT)
      else if 127 < k then (0xFE, (fl.clamp).set fINEXACT)
      else ((k + 127).toNat, fl.setIf (!(magEq m e 1 k)) fINEXACT)

/-- The conversion of a value to a target format (R88 to R93, Table 3.4). `zp` is the output zero point of R159, 0 for
every other conversion. -/
def convertZ (f : Fmt) (zp : Int) (ovfInf : Bool) (r : Option Nat) (x : Num) (fl : Fl) : Nat × Fl :=
  match f with
  | .e8m0 => convE8 x fl
  | .cb4 => (0, fl)
  | .int8 | .uint8 | .int4 | .uint4 | .int32 =>
    match x with
    | .nan _ => (encodeInt f.bits zp, (fl.set fANY_NAN).set fINVALID)
    | .inf s => (encodeInt f.bits (if s then f.imin else f.imax), fl.clamp)
    | .fin s m e => convInt f zp r s m e fl
  | .fp4 =>
    match x with
    | .nan _ => (0, (fl.set fANY_NAN).set fINVALID)
    | .inf s => (encMax f s, fl.clamp)
    | .fin s m e => roundFloat f .clamp r s m e fl
  | _ =>
    match x with
    | .nan _ => (encNan f, fl.set fANY_NAN)
    | .inf s => if f.hasInf then (encInf f s, fl) else (encMax f s, fl.clamp)
    | .fin s m e => roundFloat f (convOvf f ovfInf) r s m e fl

/-- The conversion of a value to a target format without a zero point. -/
def convert (f : Fmt) (ovfInf : Bool) (r : Option Nat) (x : Num) (fl : Fl) : Nat × Fl := convertZ f 0 ovfInf r x fl

/-- Is a conversion one of those that R87 makes exact, so that it draws no random value (R97)? -/
def exactConv (src dst : Fmt) : Bool :=
  src = dst ||
  match src, dst with
  | .fp4, .e4m3 | .fp4, .e5m2 | .fp4, .bf16 | .fp4, .fp16 | .e4m3, .bf16 | .e4m3, .fp16 | .e5m2, .bf16 | .e5m2, .fp16 | .e8m0, .fp64 => true
  | .fp4, .fp32 | .fp4, .fp64 | .e4m3, .fp32 | .e4m3, .fp64 | .e5m2, .fp32 | .e5m2, .fp64 => true
  | .bf16, .fp32 | .bf16, .fp64 | .fp16, .fp32 | .fp16, .fp64 | .fp32, .fp64 => true
  | .int4, .int8 | .int4, .int32 | .int8, .int32 | .uint4, .uint8 | .uint4, .int8 | .uint4, .int32 | .uint8, .int32 => true
  | .int4, .e4m3 | .int4, .e5m2 | .int4, .bf16 | .int4, .fp16 | .int4, .fp32 | .int4, .fp64 => true
  | .uint4, .e4m3 | .uint4, .bf16 | .uint4, .fp16 | .uint4, .fp32 | .uint4, .fp64 => true
  | .int8, .bf16 | .int8, .fp16 | .int8, .fp32 | .int8, .fp64 => true
  | .uint8, .bf16 | .uint8, .fp16 | .uint8, .fp32 | .uint8, .fp64 => true
  | .int32, .fp64 => true
  | _, _ => false

/-- The exact sum of two values (R83, R85): ∞ − ∞ is invalid, a sum of opposite zeros and x + (−x) is +0. -/
def addNum (a b : Num) (fl : Fl) : Num × Fl :=
  match a, b with
  | .nan _, _ => (.nan false, fl.set fANY_NAN)
  | _, .nan _ => (.nan false, fl.set fANY_NAN)
  | .inf n, .inf n' => if n = n' then (.inf n, fl) else (.nan false, (fl.set fINVALID).set fANY_NAN)
  | .inf n, _ => (.inf n, fl)
  | _, .inf n => (.inf n, fl)
  | .fin n m e, .fin n' m' e' =>
    let k := min e e'
    let x : Int := (if n then -1 else 1) * ((m * 2 ^ (e - k).toNat : Nat) : Int)
    let y : Int := (if n' then -1 else 1) * ((m' * 2 ^ (e' - k).toNat : Nat) : Int)
    let z := x + y
    if z = 0 then (.fin (n && n' && m = 0 && m' = 0) 0 0, fl)
    else (.fin (decide (z < 0)) z.natAbs k, fl)

/-- The exact product of two values (R83, R85): 0 × ∞ is invalid. -/
def mulNum (a b : Num) (fl : Fl) : Num × Fl :=
  match a, b with
  | .nan _, _ => (.nan false, fl.set fANY_NAN)
  | _, .nan _ => (.nan false, fl.set fANY_NAN)
  | .inf n, .inf n' => (.inf (xor n n'), fl)
  | .inf n, .fin n' m _ => if m = 0 then (.nan false, (fl.set fINVALID).set fANY_NAN) else (.inf (xor n n'), fl)
  | .fin n m _, .inf n' => if m = 0 then (.nan false, (fl.set fINVALID).set fANY_NAN) else (.inf (xor n n'), fl)
  | .fin n m e, .fin n' m' e' => (.fin (xor n n') (m * m') (e + e'), fl)

/-- Rounds an arithmetic result into the float format that holds it, by round-to-nearest-even: overflow gives infinity
and sets OVERFLOW (R86), and results below the smallest normal are flushed (R82). -/
def roundArith (f : Fmt) (x : Num) (fl : Fl) : Num × Fl :=
  match x with
  | .nan _ => (.nan false, fl.set fANY_NAN)
  | .inf n => (.inf n, fl)
  | .fin s m e =>
    let p := roundFloat f .inf none s m e fl
    (decodeNum f p.1, p.2)

/-- 1 / (m·2^e) rounded to FP32 by round-to-nearest-even, with no flag (the set-up rounding of R159). A reciprocal below FP32's smallest
normal is 0, as any result is under R82: the spec does not say whether set-up flushes (log entry 63). -/
def rinvFp32 (m : Nat) (e : Int) : Num :=
  -- 1 / (m·2^e) with 64 guard bits and a sticky bit, enough for 24-bit rounding
  if m = 0 then .inf false
  else
    let g := Nat.log2 m + 64
    let t := 2 ^ g / m
    let st := if 2 ^ g % m = 0 then 0 else 1
    (roundArith .fp32 (.fin false (2 * t + st) (-(g : Int) - 1 - e)) Fl.clear).1

/-- One step of the rounding generator (R98): taps 15, 13, 12, 10. -/
def lfsrStep (s : Nat) : Nat :=
  let b := (s / 2 ^ 15 + s / 2 ^ 13 + s / 2 ^ 12 + s / 2 ^ 10) % 2
  (2 * s + b) % 65536

/-- One step of the shelf's replacement generator (R211): taps 15, 14, 12, 3. -/
def shelfLfsrStep (s : Nat) : Nat :=
  let b := (s / 2 ^ 15 + s / 2 ^ 14 + s / 2 ^ 12 + s / 2 ^ 3) % 2
  (2 * s + b) % 65536

/-- `n` applications of a function. -/
def iter {α : Type} (f : α → α) : Nat → α → α
  | 0, x => x
  | n + 1, x => iter f n (f x)

/-- A draw of the rounding generator: 16 steps (R98). -/
def lfsrDraw (s : Nat) : Nat := iter lfsrStep 16 s

/-- A draw of the replacement generator: 4 steps (R211). -/
def shelfDraw (s : Nat) : Nat := iter shelfLfsrStep 4 s

end Sys2Proof.Machine
end

