-- ==== Sys2Proof/Machine/Cellar.lean ====
section
/-! DEFINITION. The cellar (chapter 9): the carving and the interleave, error correction, row repair and retirement, the
hampers, the adders of the homes, and the requests of uncached agents. Copies that host caches hold are cleared or read
here as R289 and R290 state; the message-level protocol of the caches is in Coherence. -/
namespace Sys2Proof.Machine

/-! Registers of CEL[s] (Tables 9.4 to 9.11). -/
def cel (st off : Nat) : Nat := 0x380000 + 0x4000 * st + off
def celReady (st : Nat) : Fld := ⟨cel st 0, 0, 1⟩
def celThrottle (st : Nat) : Fld := ⟨cel st 0, 1, 1⟩
def celThermalStop (st : Nat) : Fld := ⟨cel st 0, 2, 1⟩
def celRepairBusy (st : Nat) : Fld := ⟨cel st 0, 3, 1⟩
def celTemp (st : Nat) : Fld := ⟨cel st 0, 8, 8⟩
def celOffline (st ch : Nat) : Fld := ⟨cel st 4, ch, 1⟩
def celThrottleC (st : Nat) : Fld := ⟨cel st 8, 0, 8⟩
def celReleaseC (st : Nat) : Fld := ⟨cel st 8, 8, 8⟩
def celRefresh (st : Nat) : Fld := ⟨cel st 8, 16, 2⟩
def celCeil (st : Nat) : Fld := ⟨cel st 8, 24, 8⟩
def hamperBusy (h : Nat) : Fld := ⟨cel (h / 2) 0x10, 2 + h % 2, 1⟩
def hamperUsed (h : Nat) : Fld := ⟨cel (h / 2) 0x14, 16 * (h % 2), 9⟩
def celCE (st : Nat) : Fld := ⟨cel st 0x20, 0, 32⟩
def celUE (st : Nat) : Fld := ⟨cel st 0x24, 0, 32⟩
def celPoisonRd (st : Nat) : Fld := ⟨cel st 0x28, 0, 32⟩
def celRetiredWr (st : Nat) : Fld := ⟨cel st 0x2C, 0, 32⟩
def celMisaligned (st : Nat) : Fld := ⟨cel st 0x30, 0, 32⟩
def celThr (st : Nat) : Fld := ⟨cel st 0x38, 0, 4⟩
def celWindow (st : Nat) : Fld := ⟨cel st 0x38, 4, 5⟩
def celScrub (st : Nat) : Fld := ⟨cel st 0x38, 9, 1⟩
def celSoft (st : Nat) : Fld := ⟨cel st 0x3C, 0, 8⟩
def celHardPending (st : Nat) : Fld := ⟨cel st 0x3C, 8, 8⟩
def celSparesMin (st : Nat) : Fld := ⟨cel st 0x3C, 16, 8⟩

/-! The interleave (R241 to R245). -/

/-- Where a cellar byte lies: stack, home, channel of the stack, pseudo-channel, row and burst. -/
structure Loc where
  stack : Nat
  home : Nat
  ch : Nat
  pc : Nat
  row : Nat
  burst : Nat
  deriving DecidableEq, Repr

/-- The share that a region takes from home `h`: S / 40, or S / 10 from the ten homes of its die (R244). -/
def Region.share (r : Region) (h : Nat) : Nat :=
  if r.spread then r.size / 40 else if h / 10 = r.die then r.size / 10 else 0

/-- The home of granule `g` of a region, and its block index B (R245). -/
def Region.homeOf (r : Region) (g : Nat) : Nat × Nat :=
  if r.spread then
    let b := g / 40
    let j := g % 40
    let p := Nat.xor (j % 8) (b % 8)
    (2 * (5 * (p / 2) + j % 5) + p % 2, b)
  else
    let b := g / 10
    let j := g % 10
    (2 * (5 * r.die + j % 5) + Nat.xor (j % 2) (b % 2), b)

/-- The home and the home offset of cellar address `a`, over the regions from base `base` with the shares already taken
from each home; none beyond the carving. -/
def homeOffset : List Region → (base : Nat) → (taken : Nat → Nat) → Nat → Option (Nat × Nat)
  | [], _, _, _ => none
  | r :: rs, base, taken, a =>
    if a < base + r.size then
      let o := a - base
      let p := r.homeOf (o / 2048)
      some (p.1, taken p.1 + p.2 * 2048 + o % 2048)
    else homeOffset rs (base + r.size) (fun h => taken h + r.share h) a

/-- Where a cellar address lies, none outside the carving. -/
def State.locate (s : State) (a : Nat) : Option Loc :=
  (homeOffset s.carve 0 (fun _ => 0) a).map fun p =>
    let g := p.2 / 2048
    ⟨p.1 / 2, p.1, 16 * (p.1 % 2) + g % 16, a / 64 % 2, g / 16, a / 128 % 16⟩

/-- The cellar address of home offset `f` in home `h`, none beyond the carving: the inverse of R245, found by trying the
granules of the block. -/
def addrOfHome : List Region → (base taken : Nat) → (h f : Nat) → Option Nat
  | [], _, _, _, _ => none
  | r :: rs, base, taken, h, f =>
    if f < taken + r.share h then
      let b := (f - taken) / 2048
      let m := if r.spread then 40 else 10
      ((List.range m).find? fun j => decide ((r.homeOf (b * m + j)).1 = h)).map fun j =>
        base + (b * m + j) * 2048 + f % 2048
    else addrOfHome rs (base + r.size) (taken + r.share h) h f

/-- The cellar address of byte 0 of a burst of a channel's row, none beyond the carving. -/
def State.burstAddr (s : State) (st ch pc row burst : Nat) : Option Nat :=
  addrOfHome s.carve 0 0 (2 * st + ch / 16) ((row * 16 + ch % 16) * 2048 + burst * 128 + pc * 64)

/-- Key of a row. -/
def Loc.rowKey (l : Loc) : Nat := ((l.stack * 32 + l.ch) * 2 + l.pc) * 2 ^ 20 + l.row

/-- Key of a granule. -/
def Loc.granule (l : Loc) : Nat := (l.stack * 32 + l.ch) * 2 ^ 20 + l.row

/-- Does the carving satisfy R243? Sizes are in bytes. -/
def carvingOk (rs : List Region) : Bool :=
  decide (1 ≤ rs.length) && decide (rs.length ≤ 32) &&
    rs.all (fun r => decide (0 < r.size) && decide (r.size % ((if r.spread then 20 else 5) * 2 ^ 30) = 0) && decide (r.die < 4)) &&
    decide ((rs.map Region.size).foldl (· + ·) 0 = 960 * 2 ^ 30) &&
    (List.range 40).all fun h => decide ((rs.map fun r => r.share h).foldl (· + ·) 0 ≤ 24 * 2 ^ 30)

/-- Bytes of the cellar. -/
def cellarSize : Nat := 960 * 2 ^ 30

/-! Errors, repair and retirement (R259 to R269). -/

/-- Is the granule retired, or its channel offline (R266, R268)? -/
def State.isRetired (s : State) (l : Loc) : Bool :=
  lookMap false s.retired l.granule || s.on (celOffline l.stack l.ch)

/-- Records an error in LASTERR (Table 9.10). -/
def State.lastErr (s : State) (l : Loc) (type : Nat) : State :=
  (s.setReg (cel l.stack 0x40)
    (BitVec.ofNat 32 (l.ch + 2 ^ 5 * l.pc + 2 ^ 6 * l.burst + 2 ^ 10 * l.row + 2 ^ 30 * type))).setReg
    (cel l.stack 0x44) (BitVec.ofNat 32 s.plt)

/-- Marks a burst poisoned or clears its mark. -/
def State.setPoison (s : State) (b : Nat) (p : Bool) : State := { s with burstPoison := putMap false s.burstPoison b p }

/-- Is a burst poisoned? -/
def State.isPoison (s : State) (b : Nat) : Bool := lookMap false s.burstPoison b

/-- The 16 burst numbers (address / 64) of a row. -/
def State.rowBursts (s : State) (l : Loc) : List Nat :=
  (List.range 16).filterMap fun i => (s.burstAddr l.stack l.ch l.pc l.row i).map (· / 64)

/-- Entries of CEL[s].RETIRE in use. -/
def State.retireCount (s : State) (st : Nat) : Nat :=
  ((List.range 128).filter fun i => s.on ⟨cel st (0x800 + 8 * i), 0, 1⟩).length

/-- Takes a channel offline (R268): every row is treated as retired, and it counts as 65 pages. -/
def State.channelOffline (s : State) (st ch : Nat) : State :=
  if s.on (celOffline st ch) then s
  else (((s.wr (celOffline st ch) 1).wr (offlineFld 5 (32 * st + ch)) 1).addRetired 65).condChange

/-- Retires a row (R266, R269). -/
def State.retireRow (s : State) (l : Loc) : State :=
  let s := (s.rowBursts l).foldl (fun s b => s.setPoison b true) s
  let s := s.lastErr l 3
  let n := s.retireCount l.stack
  if 128 ≤ n then (s.channelOffline l.stack l.ch).raise 0x0405 5 (32 * l.stack + l.ch) []
  else
    let s := s.commit (0x418000 + 0x400 * l.stack + 8 * n)
      (toBytes 8 (l.row + 2 ^ 20 * l.pc + 2 ^ 21 * l.ch + 2 ^ 31))
    let page := (s.burstAddr l.stack l.ch l.pc l.row 0).getD 0 / 4096
    let known := (List.range n).any fun i =>
      decide (s.reg64 (cel l.stack (0x800 + 8 * i)) / 4096 = page)
    let s := s.setReg64 (cel l.stack (0x800 + 8 * n)) (1 + 4096 * page)
    let s := { s with retired := putMap false s.retired l.granule true }
    let s := if known then s else s.addRetired 1
    s.raise 0x0403 5 (32 * l.stack + l.ch) []

/-- Key of a bank of a pseudo-channel. -/
def bankKey (l : Loc) : Nat := ((l.stack * 32 + l.ch) * 2 + l.pc) * 2 ^ 20 + Config.bankOfRow l.row % 2 ^ 20

/-- Spare rows that a bank had at test: between 2 and 8 (R616); the model takes the least (log entry 5). -/
def sparesFused : Nat := 2

/-- Where the strongroom keeps its records of repairs, one of 8 bytes after another: the row's key in bits 30:0, VALID in bit 31, made
permanent in bit 32, failed in bit 33 (log entry 22: the spec gives no place). -/
def repairAt : Nat := 0x450000

/-- The strongroom's records of repairs, oldest first. -/
def State.repairRecs (s : State) : List Nat :=
  let m := s.strongNow.filter fun c => decide (repairAt ≤ c.1) && decide (c.1 < repairAt + 0x10000)
  (List.range ((m.getLast?.map fun c => (c.1 - repairAt) / 8 + 1).getD 0)).map fun i => ofBytes (readBytes m (repairAt + 8 * i) 8)

/-- The bank of a row, by the row's key. -/
def bankOfKey (k : Nat) : Nat := k / 2 ^ 20 * 2 ^ 20 + Config.bankOfRow (k % 2 ^ 20) % 2 ^ 20

/-- A row is failing: its first time it is repaired when its bank has a spare, else it is retired (R264, R266). -/
def State.rowFails (s : State) (l : Loc) : State :=
  let r := lookMap CRow.fresh s.rows l.rowKey
  let used := lookMap 0 s.bankUsed (bankKey l)
  if r.repaired || decide (sparesFused ≤ used) then s.retireRow l
  else
    -- the row's bursts are rewritten: single errors corrected, uncorrectable bursts poisoned
    let s := (s.rowBursts l).foldl (fun s b =>
      let e := lookMap 0 s.symErr b
      let s := { s with symErr := putMap 0 s.symErr b 0 }
      if e = 0 then s
      else if e = 1 then (s.bump (celCE l.stack)).lastErr { l with burst := b / 2 % 16 } 0
      else ((s.setPoison b true).bump (celUE l.stack)).lastErr { l with burst := b / 2 % 16 } 1) s
    let s := { s with
      rows := putMap CRow.fresh s.rows l.rowKey ⟨0, 0, true⟩, bankUsed := putMap 0 s.bankUsed (bankKey l) (used + 1),
      repairing := s.repairing ++ [l.rowKey] }
    let s := ((s.bump (celSoft l.stack)).bump (celHardPending l.stack)).wr (celRepairBusy l.stack) 1
    let s := s.wr (celSparesMin l.stack) (min (s.rd (celSparesMin l.stack)) (sparesFused - used - 1))
    -- the strongroom's record of the repair: soft and hard-pending
    (s.commit (repairAt + 8 * s.repairRecs.length) (toBytes 8 (l.rowKey + 2 ^ 31))).syncCauses 0

/-- Has the window that a row's first corrected error opened closed: 2^CE_WINDOW pilot-light ticks after it (R263)? -/
def State.ceClosed (s : State) (st : Nat) (r : CRow) : Bool := decide (r.first + 2 ^ s.rd (celWindow st) ≤ s.plt)

/-- Counts a corrected error of a row; at CE_ROW_THR within 2^CE_WINDOW ticks of the first the row is failing (R263). An error
after the window opens a new one (log entry 22). -/
def State.rowCE (s : State) (l : Loc) : State :=
  let r := lookMap CRow.fresh s.rows l.rowKey
  let r : CRow := if r.ce = 0 || s.ceClosed l.stack r then { r with ce := 1, first := s.plt } else { r with ce := r.ce + 1 }
  if s.rd (celThr l.stack) ≤ r.ce then
    ({ s with rows := putMap CRow.fresh s.rows l.rowKey { r with ce := 0, first := 0 } }).rowFails l
  else { s with rows := putMap CRow.fresh s.rows l.rowKey r }

/-- Reads one burst through the ECC (R259): a single bad symbol is corrected and written back, two are poison. Answers
whether the burst is poison. -/
def State.readBurst (s : State) (l : Loc) (b : Nat) : Bool × State :=
  if s.isRetired l || s.isPoison b then (true, s)
  else
    let e := lookMap 0 s.symErr b
    if e = 0 then (false, s)
    else if e = 1 then
      let s := { s with symErr := putMap 0 s.symErr b 0 }
      (false, ((s.bump (celCE l.stack)).lastErr l 0).rowCE l)
    else
      let s := ({ s with symErr := putMap 0 s.symErr b 0 }).setPoison b true
      (true, ((s.bump (celUE l.stack)).lastErr l 1).rowFails l)

/-- Writes the 64 bytes of a burst; poison leaves the bytes and marks it. -/
def State.storeBurst (s : State) (b : Nat) (bs : List Byte) (poison : Bool) : State :=
  let s := { s with symErr := putMap 0 s.symErr b 0 }
  if poison then s.setPoison b true else { s.setPoison b false with cellar := writeBytes s.cellar (64 * b) bs }

/-! The hampers (R249 to R252). -/

/-- The hamper of home `h`. -/
def State.hamper (s : State) (h : Nat) : List HEntry := lookMap [] s.hampers h

/-- Sets the hamper of home `h` and its USED field. -/
def State.setHamper (s : State) (h : Nat) (es : List HEntry) : State :=
  ({ s with hampers := putMap [] s.hampers h es }).wr (hamperUsed h) es.length

/-- The entry's bytes of one burst with their mask bits. -/
def HEntry.burst (e : HEntry) (pc : Nat) : List (Byte × Bool) :=
  ((e.data.drop (64 * pc)).take 64).zip ((List.range 64).map fun i => e.mask.getLsbD (64 * pc + i))

/-- Writes one burst of a flushed entry (R251). -/
def State.flushBurst (s : State) (l : Loc) (e : HEntry) (pc : Nat) : State :=
  let b := 2 * e.line + pc
  let l := { l with pc := pc }
  let w := e.burst pc
  if s.isRetired l then s
  else if bitAt e.poison pc then (s.lastErr l 2).storeBurst b [] true
  else if w.all (·.2) then s.storeBurst b (w.map (·.1)) false
  else
    let r := s.readBurst l b
    if r.1 then r.2 else { r.2 with cellar := writeMasked r.2.cellar (64 * b) w }

/-- Writes a flushed entry to the stack, burst by burst (R251). -/
def State.flushEntry (s : State) (e : HEntry) : State :=
  match s.locate (128 * e.line) with
  | none => s
  | some l => (s.flushBurst l e 0).flushBurst l e 1

/-- Flushes every entry of a home that `p` picks, oldest first, and frees it. -/
def State.flushHamper (s : State) (h : Nat) (p : HEntry → Bool) : State :=
  let es := s.hamper h
  (es.filter p).foldl State.flushEntry (s.setHamper h (es.filter fun e => !p e))

/-- Flushes the entry of a line, if any. -/
def State.flushLine (s : State) (h line : Nat) : State := s.flushHamper h fun e => decide (e.line = line)

/-! What a home answers before it serves a request. -/

/-- An access waits at the home (R264, R286): the event that made it does not happen yet. -/
def stWAIT : Nat := 255

/-- The result of an access: data, or the status of Table 2.10 with which it ends. -/
inductive Access where
  | ok (data : List Byte)
  | bad (status : Nat)
  deriving DecidableEq, Repr

/-- Does a repair hold the bank of a location (R264)? -/
def State.bankHeld (s : State) (l : Loc) : Bool :=
  s.repairing.any fun k =>
    decide (k / 2 ^ 20 = l.rowKey / 2 ^ 20) && decide (Config.bankOfRow (k % 2 ^ 20) = Config.bankOfRow l.row)

/-- Whether the home of a location serves requests: the die's spine on, the stack trained and not in thermal stop (R274),
the channel not offline in the management path's view (R574), the spine's clock not stopped (R453), no slice on the channel (R576), and
its bank not held by a repair (R264). Answers 0 when it
serves, else a status. -/
def State.homeStatus (s : State) (l : Loc) : Nat × State :=
  if !s.domPowered (16 + l.stack / 5) || !s.on (celReady l.stack) || s.on (celThermalStop l.stack) then (6, s)
  else if s.offline 5 (32 * l.stack + l.ch) then (6, s.disagree 5 (32 * l.stack + l.ch))
  else if !s.domOn (16 + l.stack / 5) || s.sliceOn 1 (32 * l.stack + l.ch) then (stWAIT, s)
  else if s.bankHeld l then (stWAIT, s)
  else (0, s)

/-- Does a repair hold a bank that the given bursts of a line lie in (R264)? -/
def State.lineHeld (s : State) (l : Loc) (pcs : List Nat) : Bool := pcs.any fun pc => s.bankHeld { l with pc := pc }

/-! Registers of STAT.COH[h] (Tables 10.9, 10.10). -/
def coh (h off : Nat) : Nat := 0x48000 + 0x20 * h + off
def cohPinned (h : Nat) : Fld := ⟨coh h 4, 0, 9⟩
def cohPeak (h : Nat) : Fld := ⟨coh h 4, 16, 9⟩
def cohRetries (h : Nat) : Fld := ⟨coh h 8, 0, 32⟩
def cohAge15 (h : Nat) : Fld := ⟨coh h 0xC, 0, 32⟩
def cohBackinv (h : Nat) : Fld := ⟨coh h 0x10, 0, 32⟩
def cohEvif (h : Nat) : Fld := ⟨coh h 0x14, 0, 32⟩
def cohUpgConv (h : Nat) : Fld := ⟨coh h 0x18, 0, 32⟩
def cohNotHeld (h : Nat) : Fld := ⟨coh h 0x1C, 0, 32⟩
def cohScAlloc : Fld := ⟨0x48500, 0, 1⟩

/-! Host cores' records, as far as the caches need them. -/

/-- The record of host core `c`. -/
def State.hcore (s : State) (c : Nat) : HCore := lookMap HCore.fresh s.hcores c

/-- Sets the record of host core `c`. -/
def State.setHcore (s : State) (c : Nat) (x : HCore) : State := { s with hcores := putMap HCore.fresh s.hcores c x }

/-- Does the reservation of core `c` lie in a line (R426)? -/
def State.resvIn (s : State) (c line : Nat) : Bool :=
  match (s.hcore c).resv with
  | some b => decide (b / 2 = line)
  | none => false

/-- The reservation of core `c` is lost when it lies in the line (R426). -/
def State.loseResv (s : State) (c line : Nat) : State :=
  if s.resvIn c line then s.setHcore c { s.hcore c with resv := none, hold := false } else s

/-- Does core `c` hold snoops to a line (R427)? -/
def State.holdsSnoop (s : State) (c line : Nat) : Bool := (s.hcore c).hold && s.resvIn c line

/-! Copies in the host caches (R276, R277). -/

/-- The directory entry of a line. -/
def State.dir (s : State) (line : Nat) : Option Dir := s.dirs.find? fun d => decide (d.line = line)

/-- The line that agent `c` holds (cores 0 to 95, system cache 96). -/
def State.cacheLine (s : State) (c line : Nat) : CLine := lookMap CLine.none s.l2 (c * 2 ^ 36 + line)

/-- Sets the line that agent `c` holds. -/
def State.setCacheLine (s : State) (c line : Nat) (x : CLine) : State :=
  { s with l2 := putMap CLine.none s.l2 (c * 2 ^ 36 + line) x }

/-- The cores of a cluster. -/
def coresOf (c : Nat) : List Nat := (List.range 8).map (8 * c + ·)

/-- The caches that a snoop to an agent is delivered to: those that hold the line (R279). -/
def State.holders (s : State) (agent line : Nat) : List Nat :=
  (if agent < 128 then [agent] else coresOf (agent - 128)).filter fun c => decide ((s.cacheLine c line).st ≠ .i)

/-- An agent drops its copy of a line. -/
def State.dropCopy (s : State) (c line : Nat) : State := (s.setCacheLine c line CLine.none).loseResv c line

/-- The clusters that VEC lists, but for one. -/
def vecOthers (v c : Nat) : List Nat := (List.range 12).filter fun i => bitAt v i && decide (i ≠ c)

/-- The snoops that clear every copy of a line (R290): SnpInv of a Shared line's holders, Recall of an owner, or SnpInv of it
before a write of all 128 bytes. -/
def clearSnoops (d : Dir) (full : Bool) : List (Nat × Nat) :=
  match d.owner with
  | some o => [(if full then 3 else 4, o)]
  | none => (vecOthers d.vec 12).map (fun c => (3, 128 + c)) ++ (if d.f = 12 then [(3, 96)] else [])

/-- Home and directory set of a line: bits 19:7 of the home offset. -/
def State.dirSet (s : State) (line : Nat) : Option (Nat × Nat) :=
  (homeOffset s.carve 0 (fun _ => 0) (128 * line)).map fun p => (p.1, p.2 / 128 % 8192)

/-- Does a takeover hold a snoop of a line: the control role between the home's die and H moves (R240, R341)? -/
def State.snoopSeam (s : State) (line : Nat) : Bool :=
  match s.dirSet line with
  | some (h, _) => s.legHeld (h / 10)
  | none => false

/-- STAT.COH[h].DIR_USED. -/
def dirUsed (h : Nat) : Fld := ⟨0x48000 + 0x20 * h, 0, 18⟩

/-- Removes a line's directory entry. -/
def State.dropDir (s : State) (h line : Nat) : State :=
  match s.dir line with
  | none => s
  | some _ => ({ s with dirs := s.dirs.filter fun d => decide (d.line ≠ line) }).wr (dirUsed h) (s.rd (dirUsed h) - 1)

/-- Is a transaction open on a line (R286)? -/
def State.pinned (s : State) (line : Nat) : Bool := s.txns.any fun t => decide (t.line = line)

/-- Must an uncached request to a line wait: a transaction is open on it (R286), or an eviction of it is still on its way, which the
home then takes first (R294)? -/
def State.lineBusy (s : State) (line : Nat) : Bool :=
  s.pinned line || s.evicts.any fun e => decide (e.line = line) && !e.consumed

/-- A dirty copy of a line in the caches: its owner's, when it holds it in M. -/
def State.dirtyCopy (s : State) (line : Nat) : Option CLine :=
  match (s.dir line).bind (·.owner) with
  | none => none
  | some o => let c := s.cacheLine o line; if c.st = .m then some c else none

/-- The copy of a line that its owner holds, in E or M: what SnpOnce returns (R289). -/
def State.ownerCopy (s : State) (line : Nat) : Option (Nat × CLine) :=
  match (s.dir line).bind (·.owner) with
  | none => none
  | some o => let c := s.cacheLine o line; if c.st = .i then none else some (o, c)

/-- Must the snoops that clear a line wait: a core holds them after an LR (R427), or a seam's takeover does (R240)? -/
def State.clearWaits (s : State) (line : Nat) : Bool :=
  match s.dir line with
  | none => false
  | some d => (clearSnoops d false).any fun p => s.snoopSeam line || (s.holders p.2 line).any fun c => s.holdsSnoop c line

/-! Reads and writes at a home. -/

/-- Writes all 128 bytes of a line to the stack, discarding its hamper entry (R249); poisoned bursts as marked. Dropped and
counted at a retired granule (R266). -/
def State.storeLine (s : State) (l : Loc) (line : Nat) (bs : List Byte) (poison : Nat) : State :=
  if s.isRetired l then (s.bump (celRetiredWr l.stack)).raise 0x0404 5 (32 * l.stack + l.ch) []
  else
    let s := s.setHamper l.home ((s.hamper l.home).filter fun e => decide (e.line ≠ line))
    (s.storeBurst (2 * line) (bs.take 64) (bitAt poison 0)).storeBurst (2 * line + 1) (bs.drop 64) (bitAt poison 1)

/-- Overlays bytes on a list from index `i`. -/
def overlay (old : List Byte) (i : Nat) (bs : List Byte) : List Byte := old.take i ++ bs ++ old.drop (i + bs.length)

/-- Merges a partial write into the line's hamper entry (R249, R250); `poison` marks the bursts it touches (R218). -/
def State.mergeHamper (s : State) (l : Loc) (a : Nat) (bs : List (Byte × Bool)) (poison : Bool) (port : Option Nat) : State :=
  let line := a / 128
  let es := s.hamper l.home
  let s := match es with
    | e :: _ => if es.any (fun e => decide (e.line = line)) || decide (es.length < 256) then s
                else s.flushLine l.home e.line
    | [] => s
  let es := s.hamper l.home
  let es := if es.any (fun e => decide (e.line = line)) then es
    else es ++ [⟨line, List.replicate 128 0#8, 0#128, 0, [], false⟩]
  let off := a % 128
  let touched := ((List.range bs.length).zip bs).filter (·.2.2)
  let upd := fun (e : HEntry) =>
    let d := touched.foldl (fun d p => overlay d (off + p.1) [p.2.1]) e.data
    let m := touched.foldl (fun (m : BitVec 128) p => m ||| (1#128 <<< (off + p.1))) e.mask
    let full := fun pc => (List.range 64).all fun i => touched.any fun p => decide (off + p.1 = 64 * pc + i)
    let hit := fun pc => touched.any fun p => decide ((off + p.1) / 64 = pc)
    let q := fun pc => if poison && hit pc then true else if full pc then false else bitAt e.poison pc
    { e with data := d, mask := m, poison := b2n (q 0) + 2 * b2n (q 1),
             ports := match port with
               | some p => if p ∈ e.ports then e.ports else e.ports ++ [p]
               | none => e.ports }
  let es := es.map fun e => if e.line = line then upd e else e
  let s := s.setHamper l.home es
  if es.any fun e => decide (e.line = line) && decide (e.mask = BitVec.allOnes 128) then s.flushLine l.home line else s

/-- The bursts of a line that bytes off to off + n − 1 touch. -/
def burstsOf (off n : Nat) : List Nat :=
  (List.range 2).filter fun pc => decide (off < 64 * pc + 64) && decide (64 * pc < off + n)

/-- Reads `n` bytes within one line, as an uncached agent (R246, R261, R289). Poison ends with ENGINE_FAULT. -/
def State.homeRead (s : State) (a n : Nat) : Access × State :=
  match s.locate a with
  | none => (.bad 6, s)
  | some l =>
    let r := s.homeStatus l
    let s := r.2
    if s.lineBusy (a / 128) then (.bad stWAIT, s)
    else if r.1 ≠ 0 then (.bad r.1, s)
    else if s.lineHeld l (burstsOf (a % 128) n) then (.bad stWAIT, s)
    else
      match if s.isRetired l then none else s.ownerCopy (a / 128) with
      | some (o, c) =>
        if s.snoopSeam (a / 128) || s.holdsSnoop o (a / 128) then (.bad stWAIT, s)
        else if (burstsOf (a % 128) n).any (bitAt c.poison) then (.bad 13, s.bump (celPoisonRd l.stack))
        else (.ok ((c.data.drop (a % 128)).take n), s)
      | none =>
        let s := s.flushLine l.home (a / 128)
        let q := (burstsOf (a % 128) n).foldl (fun (q : Bool × State) pc =>
          let r := q.2.readBurst { l with pc := pc } (2 * (a / 128) + pc)
          (q.1 || r.1, r.2)) (false, s)
        if q.1 then (.bad 13, q.2.bump (celPoisonRd l.stack)) else (.ok (readBytes q.2.cellar a n), q.2)

/-- Clears every cached copy of a line before an uncached write (R290): each holder is snooped, answers at once and loses a reservation
on the line (R426); a cluster that dropped its copies answers NOT_HELD. Dirty data is kept beneath, unless the write covers the line or
the granule is retired. -/
def State.clearCopies (s : State) (l : Loc) (line : Nat) (full : Bool) : State :=
  match s.dir line with
  | none => s
  | some d =>
    let x := s.dirtyCopy line
    let s := (clearSnoops d full).foldl (fun s p =>
      match s.holders p.2 line with
      | [] => s.bump (cohNotHeld l.home)
      | hs => hs.foldl (fun s c => s.dropCopy c line) s) s
    let s := s.wr (cohPeak l.home) (max (s.rd (cohPeak l.home)) (s.rd (cohPinned l.home) + 1))
    let s := s.dropDir l.home line
    match x with
    | some c => if full || s.isRetired l then s else s.storeLine l line c.data c.poison
    | none => s

/-- Must a write to bytes of a line wait: its line is busy, its copies cannot be cleared yet, or a repair holds a bank that it
touches? -/
def State.writeBusy (s : State) (l : Loc) (line : Nat) (pcs : List Nat) : Bool :=
  s.lineBusy line || s.clearWaits line || s.lineHeld l pcs

/-- Writes bytes within one line as an uncached agent (R249, R290). Answers 0 when accepted (or dropped at a retired
granule), else a status. -/
def State.homeWrite (s : State) (a : Nat) (bs : List (Byte × Bool)) (poison : Bool) (port : Option Nat) : Nat × State :=
  match s.locate a with
  | none => (6, s)
  | some l =>
    let r := s.homeStatus l
    let s := r.2
    if s.writeBusy l (a / 128) (burstsOf (a % 128) bs.length) then (stWAIT, s)
    else if r.1 ≠ 0 then (r.1, s)
    else
      let full := decide (bs.length = 128) && bs.all (·.2)
      let s := s.clearCopies l (a / 128) full
      if s.isRetired l then (0, (s.bump (celRetiredWr l.stack)).raise 0x0404 5 (32 * l.stack + l.ch) [])
      else if full && !poison then (0, s.storeLine l (a / 128) (bs.map (·.1)) 0)
      else (0, s.mergeHamper l a bs poison port)

/-! The adders (R253 to R257, R613). -/

/-- The element size of an operation opcode in bytes (Table 9.1). -/
def opElem (opc : Nat) : Nat :=
  if opc = 2 ∨ opc = 6 then 8 else if opc = 3 ∨ opc = 4 then 2 else if 11 ≤ opc then 1 else 4

/-- Reads a float operand for the adders: subnormals are flushed to zero with their sign (R255). -/
def addIn (f : Fmt) (n : Nat) : Num := (readIn f n Fl.clear).1

/-- Encodes a number for the adders: round to nearest even, subnormal results flushed, canonical NaN (R255). -/
def addOut (f : Fmt) (x : Num) : Nat :=
  match x with
  | .nan _ => encNan f
  | .inf n => encInf f n
  | .fin n m e => (roundFloat f .inf none n m e Fl.clear).1

/-- Float addition of two encodings (R255). -/
def floatAdd (f : Fmt) (a b : Nat) : Nat := addOut f (addNum (addIn f a) (addIn f b) Fl.clear).1

/-- Is x below y with −0 below +0 (R255)? Neither is a NaN. -/
def floatBelow (x y : Num) : Bool := x.lt y || (x.isZero && y.isZero && x.signBit && !y.signBit)

/-- Float minimum or maximum of two encodings (R255). -/
def floatPick (f : Fmt) (takeMax : Bool) (a b : Nat) : Nat :=
  let x := addIn f a
  let y := addIn f b
  if x.isNan || y.isNan then encNan f
  else addOut f (if floatBelow x y = takeMax then y else x)

/-- Combines one element: `old` is the cellar's, `v` the operand (Table 9.1). -/
def opElement (opc old v : Nat) : Nat :=
  match opc with
  | 1 => (old + v) % 2 ^ 32
  | 2 => (old + v) % 2 ^ 64
  | 3 => floatAdd .bf16 old v
  | 4 => floatAdd .fp16 old v
  | 5 => floatAdd .fp32 old v
  | 6 => floatAdd .fp64 old v
  | 7 => if signedOf 32 v < signedOf 32 old then v else old
  | 8 => if signedOf 32 old < signedOf 32 v then v else old
  | 9 => floatPick .fp32 false old v
  | 10 => floatPick .fp32 true old v
  | 11 => Nat.land old v
  | 12 => Nat.lor old v
  | 13 => Nat.xor old v
  | _ => old

/-- Combines bytes `bs` written at `a` into the line's bytes: whole elements only, and only in unpoisoned bursts. Answers
the new bytes and how many elements were written in part (R254). -/
def combine (opc a : Nat) (old bs : List Byte) (bad : Nat → Bool) : List Byte × Nat :=
  let w := opElem opc
  let first := a / w
  let last := (a + bs.length - 1) / w
  (List.range (last + 1 - first)).foldl (fun (q : List Byte × Nat) i =>
    let ea := w * (first + i)
    if ea < a ∨ a + bs.length < ea + w then (q.1, q.2 + 1)
    else if bad (ea % 128 / 64) then q
    else
      let v := ofBytes ((bs.drop (ea - a)).take w)
      let o := ofBytes ((q.1.drop (ea - a)).take w)
      (overlay q.1 (ea - a) (toBytes w (opElement opc o v)), q.2)) (old, 0)

/-- Prepares a line for the adders (R250, R290): clears the copies, flushes the hamper entry and reads both bursts. Answers
the poison of each burst. -/
def State.prepLine (s : State) (l : Loc) (line : Nat) : (Nat → Bool) × State :=
  let s := (s.clearCopies l line false).flushLine l.home line
  let r0 := s.readBurst { l with pc := 0 } (2 * line)
  let r1 := r0.2.readBurst { l with pc := 1 } (2 * line + 1)
  (fun pc => if pc = 0 then r0.1 else r1.1, r1.2)

/-- An operation write of bytes within one line (R253, R254, R260). Answers 0 when the home takes it, else a status. -/
def State.homeOp (s : State) (opc a : Nat) (bs : List Byte) : Nat × State :=
  match s.locate a with
  | none => (6, s)
  | some l =>
    let r := s.homeStatus l
    let s := r.2
    if s.writeBusy l (a / 128) [0, 1] then (stWAIT, s)
    else if r.1 ≠ 0 then (r.1, s)
    else if opc = 14 then (0, s.raise 0x0400 6 l.home [])
    else if s.isRetired l then
      (0, ((s.clearCopies l (a / 128) false).bump (celRetiredWr l.stack)).raise 0x0404 5 (32 * l.stack + l.ch) [])
    else
      let p := s.prepLine l (a / 128)
      let s := (burstsOf (a % 128) bs.length).foldl (fun s pc => if p.1 pc then s.bump (celPoisonRd l.stack) else s) p.2
      let c := combine opc a (readBytes s.cellar a bs.length) bs p.1
      let s := { s with cellar := writeBytes s.cellar a c.1 }
      if c.2 = 0 then (0, s)
      else (0, (List.range c.2).foldl (fun s _ => (s.bump (celMisaligned l.stack)).raise 0x0401 6 l.home []) s)

/-- The new value of a fetching request's target word (R256). -/
def fetchValue (fop size old v cmp : Nat) : Nat :=
  let w := if size = 0 then 32 else 64
  let f := if size = 0 then Fmt.fp32 else Fmt.fp64
  let v := v % 2 ^ w
  match fop with
  | 0 => v
  | 1 => if old = cmp % 2 ^ w then v else old
  | 2 => (old + v) % 2 ^ w
  | 3 => floatAdd f old v
  | 4 => if signedOf w v < signedOf w old then v else old
  | 5 => if signedOf w old < signedOf w v then v else old
  | 6 => Nat.land old v
  | 7 => Nat.lor old v
  | _ => Nat.xor old v

/-- Performs a read-modify-write of a target word at the home: its STATUS and OLD (R256, R260, R266). -/
def State.fetchWord (s : State) (l : Loc) (a fop size v cmp : Nat) : Nat × Nat × State :=
  let n := if size = 0 then 4 else 8
  if s.isRetired l then
    (3, 0, ((s.clearCopies l (a / 128) false).bump (celRetiredWr l.stack)).raise 0x0404 5 (32 * l.stack + l.ch) [])
  else
    let p := s.prepLine l (a / 128)
    if p.1 (a % 128 / 64) then (1, 0, p.2)
    else
      let old := ofBytes (readBytes p.2.cellar a n)
      (0, old, { p.2 with cellar := writeBytes p.2.cellar a (toBytes n (fetchValue fop size old v cmp)) })

end Sys2Proof.Machine
end

