-- ==== Sys2Proof/Machine/Tile.lean ====
section
/-! DEFINITION. A tile's scratch, header area and engine queues (chapter 2, R200 to R203, R217 to R223): addresses of locked
scratch, the array's error handling, slots, status words, and the completion of a descriptor. -/
namespace Sys2Proof.Machine

/-! Registers (Tables 2.3, 2.4, 2.12, 7.4 to 7.6). -/
def tHold (t : Nat) : Fld := ⟨tileReg t 4, 0, 1⟩
def tPark (t : Nat) : Fld := ⟨tileReg t 4, 1, 1⟩
def tParked (t : Nat) : Fld := ⟨tileReg t 4, 2, 1⟩
def tRefused (t : Nat) : Fld := ⟨tileReg t 4, 3, 1⟩
def tFmax (t : Nat) : Fld := ⟨tileReg t 8, 0, 10⟩
def tBase (t : Nat) : Fld := ⟨tileReg t 12, 0, 8⟩
def tLimit (t : Nat) : Fld := ⟨tileReg t 12, 16, 8⟩
def qTail (t e : Nat) : Fld := ⟨tileReg t (0x20 + 4 * e), 0, 5⟩
def qHead (t e : Nat) : Fld := ⟨tileReg t (0x20 + 4 * e), 8, 5⟩
def qCount (t e : Nat) : Fld := ⟨tileReg t (0x20 + 4 * e), 16, 5⟩
def qBusy (t e : Nat) : Fld := ⟨tileReg t (0x30 + 4 * e), 0, 1⟩
def qHalted (t e : Nat) : Fld := ⟨tileReg t (0x30 + 4 * e), 1, 1⟩
def qOvf (t e : Nat) : Fld := ⟨tileReg t (0x30 + 4 * e), 2, 1⟩
def qSlotw (t e : Nat) : Fld := ⟨tileReg t (0x30 + 4 * e), 3, 1⟩
def qLastErr (t e : Nat) : Fld := ⟨tileReg t (0x30 + 4 * e), 8, 8⟩
def qErrSlot (t e : Nat) : Fld := ⟨tileReg t (0x30 + 4 * e), 16, 5⟩
def shLock (t : Nat) : Fld := ⟨hubReg t 0xC00 16, 0, 4⟩
def shBusy (t : Nat) : Fld := ⟨hubReg t 0xC00 16, 8, 1⟩
def shRefused (t : Nat) : Fld := ⟨hubReg t 0xC00 16, 9, 1⟩
def shScrub (t : Nat) : Fld := ⟨hubReg t 0xC00 16, 10, 1⟩
def shDisabled (t : Nat) : Fld := ⟨hubReg t 0xC04 16, 0, 12⟩
def shScratch (t : Nat) : Fld := ⟨hubReg t 0xC04 16, 16, 12⟩
def shCorrected (t : Nat) : Fld := ⟨hubReg t 0xC08 16, 0, 16⟩
def shScrFailed (t : Nat) : Fld := ⟨hubReg t 0xC08 16, 16, 12⟩
def shUncorr (t : Nat) : Fld := ⟨hubReg t 0xC08 16, 28, 4⟩
def shLfsr (t : Nat) : Fld := ⟨hubReg t 0xC0C 16, 0, 16⟩
def lfsrFld (t : Nat) : Fld := ⟨hubReg t 0x400 4, 0, 16⟩
def apertureDrops (c : Nat) : Fld := ⟨crateReg c 0x38, 0, 32⟩

/-- Completion status codes (Table 2.10). -/
def stDONE : Nat := 0
def stBOUND : Nat := 1
def stWITHDRAWN : Nat := 2
def stCRC : Nat := 3
def stXLATE : Nat := 4
def stPERMISSION : Nat := 5
def stABSENT : Nat := 6
def stSIDE_RESET : Nat := 7
def stILLEGAL : Nat := 8
def stINDEX : Nat := 9
def stOVERLAP : Nat := 10
def stFLUSHED : Nat := 11
def stABORTED : Nat := 12
def stENGINE : Nat := 13

/-! Ways and scratch addresses. -/

/-- Is physical way `w` of tile `t` a scratch way? -/
def State.isScratchWay (s : State) (t w : Nat) : Bool := bitAt (s.rd (shScratch t)) w

/-- The physical ways of tile `t` that are enabled, ascending (R201). -/
def State.enabledWays (s : State) (t : Nat) : List Nat :=
  (List.range 12).filter fun w => !bitAt (s.rd (shDisabled t)) w

/-- The physical ways that are scratch, ascending: logical scratch way n is the nth (R201). -/
def State.scratchWays (s : State) (t : Nat) : List Nat := (List.range 12).filter (s.isScratchWay t)

/-- The cache ways: enabled and not scratch (R201). -/
def State.cacheWays (s : State) (t : Nat) : List Nat := (s.enabledWays t).filter fun w => !s.isScratchWay t w

/-- End of the tile's locked scratch, in bytes (R201). -/
def State.scratchEnd (s : State) (t : Nat) : Nat := 16384 * (s.scratchWays t).length

/-- Key of byte `b` of the line of way `w` and set `st` in the shelf memory. -/
def shelfKey (t w st b : Nat) : Nat := 0x40000 * t + 16384 * w + 128 * st + b

/-- Key of scratch offset `o` in the shelf memory; none beyond the locked ways. -/
def State.scratchKey (s : State) (t o : Nat) : Option Nat :=
  ((s.scratchWays t)[o / 16384]?).map fun w => 0x40000 * t + 16384 * w + o % 16384

/-! Array errors (R217 to R223). -/

/-- Index of the 64-bit word that holds a shelf key, within its tile. -/
def wordOfKey (k : Nat) : Nat := k % 0x40000 / 8

/-- A corrected error in way `w`: counted, and the third in a window disables a cache way or degrades a scratch way
(R217, R219, R220, R223). -/
def State.correctedErr (s : State) (t w : Nat) : State :=
  let s := s.bump (shCorrected t)
  let x := s.tile t
  let n := lookMap 0 x.eccWin w + 1
  if n < 3 then s.setTile t { x with eccWin := putMap 0 x.eccWin w n }
  else
    let s := s.setTile t { x with eccWin := putMap 0 x.eccWin w 0 }
    if s.isScratchWay t w then s.raise 0x0204 1 t []
    else
      let x := s.tile t
      if lookMap 0 x.wayDis w = 0 then s.setTile t { x with wayDis := putMap 0 x.wayDis w 1 } else s

/-- An uncorrectable error in a scratch way: step-fatal fault, SCRATCH_FAILED and the count (R222). -/
def State.scratchFailed (s : State) (t wordIx : Nat) : State :=
  let w := wordIx / 2048
  let s := s.bump (shUncorr t)
  let s := s.wr (shScrFailed t) (Nat.lor (s.rd (shScrFailed t)) (2 ^ w))
  s.raise 0x0203 1 t (detailOf [(1, w), (1, wordIx % 2048 / 16), (1, wordIx % 16)])

/-- An uncorrectable error in a cache way: counted, and the way is due to be disabled (R217, R219). -/
def State.cacheUncorr (s : State) (t w : Nat) : State :=
  let s := s.bump (shUncorr t)
  let x := s.tile t
  if lookMap 0 x.wayDis w < 2 then s.setTile t { x with wayDis := putMap 0 x.wayDis w 2 } else s

/-- Reads one scratch word's protection: a single-bit error is corrected in place and counted, a double-bit error fails the
way. Answers whether the word is poison. -/
def State.touchScratchWord (s : State) (t wordIx : Nat) : Bool × State :=
  let x := s.tile t
  let e := lookMap 0 x.eccErr wordIx
  if e = 0 then (false, s)
  else if e = 1 then
    (false, (s.setTile t { x with eccErr := putMap 0 x.eccErr wordIx 0 }).correctedErr t (wordIx / 2048))
  else (true, s.scratchFailed t wordIx)

/-- Touches the words from index `i` for `n` words; answers whether any is poison. -/
def State.touchScratch (s : State) (t : Nat) : Nat → Nat → Bool × State
  | _, 0 => (false, s)
  | i, n + 1 =>
    let r := s.touchScratchWord t i
    let q := r.2.touchScratch t (i + 1) n
    (r.1 || q.1, q.2)

/-- Reads `n` bytes of scratch within one way's 16 KiB run. -/
def State.scratchRun (s : State) (t o n : Nat) : Access × State :=
  match s.scratchKey t o with
  | none => (.bad stPERMISSION, s)
  | some k =>
    let i := wordOfKey k
    let r := s.touchScratch t i ((k + n + 7) % 0x40000 / 8 - i)
    if r.1 then (.bad stENGINE, r.2) else (.ok (readBytes r.2.shelf k n), r.2)

/-- Reads `n` bytes of scratch from offset `o`. Beyond the locked ways the access fails with PERMISSION (R55, R299), and a
word with an uncorrectable error gives ENGINE_FAULT (R222). At most `fuel` ways are crossed. -/
def State.scratchReadN (s : State) (t : Nat) : Nat → Nat → Nat → Access × State
  | 0, _, _ => (.ok [], s)
  | fuel + 1, o, n =>
    if n = 0 then (.ok [], s)
    else
      let m := min n (16384 - o % 16384)
      match s.scratchRun t o m with
      | (.ok d, s1) =>
        match s1.scratchReadN t fuel (o + m) (n - m) with
        | (.ok d', s2) => (.ok (d ++ d'), s2)
        | r => r
      | r => r

/-- Reads `n` bytes of scratch. -/
def State.scratchRead (s : State) (t o n : Nat) : Access × State := s.scratchReadN t 14 o n

/-- Writes one byte of scratch; a byte beyond the locked ways is not written. -/
def State.scratchWriteByte (s : State) (t o : Nat) (b : Byte) : State :=
  match s.scratchKey t o with
  | none => s
  | some k => { s with shelf := writeByte s.shelf k b }

/-- Clears the error of every 64-bit word that a write of `n` bytes at scratch offset `o` covers whole (R222). -/
def State.clearWords (s : State) (t o n : Nat) : State :=
  let first := (o + 7) / 8
  (List.range ((o + n) / 8 - first)).foldl (fun s i =>
    match s.scratchKey t (8 * (first + i)) with
    | none => s
    | some k =>
      let x := s.tile t
      if lookMap 0 x.eccErr (wordOfKey k) = 0 then s
      else s.setTile t { x with eccErr := putMap 0 x.eccErr (wordOfKey k) 0 }) s

/-- Writes bytes of scratch from offset `o`. -/
def State.scratchWriteRaw (s : State) (t : Nat) : Nat → List Byte → State
  | _, [] => s
  | o, b :: bs => (s.scratchWriteByte t o b).scratchWriteRaw t (o + 1) bs

/-- Writes bytes of scratch, clearing the errors of whole words written (R222). -/
def State.scratchWrite (s : State) (t o : Nat) (bs : List Byte) : State :=
  (s.clearWords t o bs.length).scratchWriteRaw t o bs

/-- Does a 64-bit word that `n` bytes at scratch offset `o` touch hold an uncorrectable error (R222)? -/
def State.scratchPoison (s : State) (t o n : Nat) : Bool :=
  match s.scratchKey t o with
  | none => false
  | some k => (List.range ((k + n + 7) % 0x40000 / 8 - wordOfKey k)).any fun i => decide (1 < lookMap 0 (s.tile t).eccErr (wordOfKey k + i))

/-- An engine reads `n` bytes of its header area through the array's protection (R217, R222). -/
def State.readHeader (s : State) (t o n : Nat) : State := (s.scratchRun t o n).2

/-! Descriptors. -/

/-- Bits of a descriptor. -/
def dBits (d : BitVec 512) (lo w : Nat) : Nat := bitsAt d.toNat lo w

/-! Fields of the common header (Table 2.5). -/
def hOp (d : BitVec 512) : Nat := dBits d 0 8
def hDoneTally (d : BitVec 512) : Nat := dBits d 8 6
def hDoneEn (d : BitVec 512) : Bool := dBits d 14 1 = 1
def hWaitEn (d : BitVec 512) : Bool := dBits d 15 1 = 1
def hWaitTally (d : BitVec 512) : Nat := dBits d 16 6
def hWaitValue (d : BitVec 512) : Nat := dBits d 24 16
def hLate (d : BitVec 512) : Nat := dBits d 40 8
def hSeq (d : BitVec 512) : Nat := dBits d 56 8
/-- The header's reserved bits (Table 2.5). -/
def hRsv (d : BitVec 512) : Nat := dBits d 22 2 + dBits d 48 8

/-- Scratch offset of slot `p mod 16` of engine `e` (Table 2.2). -/
def slotOff (e p : Nat) : Nat := 0x400 * e + 64 * (p % 16)

/-- Scratch offset of the completion status word of that slot (Table 2.2). -/
def statusOff (e p : Nat) : Nat := 0xC00 + 16 * (16 * e + p % 16)

/-- The completion status word (Table 2.9). -/
def statusWord (code seq : Nat) (late : Bool) (crc done : Nat) : List Byte :=
  toBytes 16 (code % 256 + 2 ^ 8 * (seq % 256) + 2 ^ 16 + 2 ^ 17 * b2n late + 2 ^ 32 * (crc % 2 ^ 32) +
    2 ^ 64 * (done % 2 ^ 40))

/-- The 64 bytes that a slot holds now. -/
def State.slotBits (s : State) (t e p : Nat) : BitVec 512 :=
  match s.scratchKey t (slotOff e p) with
  | none => 0#512
  | some k => BitVec.ofNat 512 (ofBytes (readBytes s.shelf k 64))

/-- Sets the queue's COUNT from its pointers. -/
def State.syncCount (s : State) (t e : Nat) : State :=
  s.wr (qCount t e) ((s.rd (qTail t e) + 32 - s.rd (qHead t e)) % 32)

/-- Clears VALID of a slot's status word when the slot is handed over (Table 2.9). -/
def State.clearValid (s : State) (t e p : Nat) : State :=
  match s.scratchKey t (statusOff e p + 2) with
  | none => s
  | some k => { s with shelf := writeByte s.shelf k (readByte s.shelf k &&& 0xFE#8) }

/-- Hands `n` slots from pointer `p` to engine `e` with the contents they hold, which it reads through the array's protection (R37, R38,
R217, R222). -/
def State.handSlots (s : State) (t e : Nat) : Nat → Nat → State
  | _, 0 => s
  | p, n + 1 =>
    let g := (s.tile t).eng e
    let s := s.setEng t e { g with owned := g.owned ++ [⟨p % 32, s.slotBits t e p, s.scratchPoison t (slotOff e p) 64⟩] }
    ((s.readHeader t (slotOff e p) 64).clearValid t e p).handSlots t e (p + 1) n

/-- A write of TAIL (R37): accepted when the new slots fit, else ignored with OVF set. A held tile takes none: its queues
are empty (Table 2.12; DEDUCED, log entry 19). -/
def State.tailWrite (s : State) (t e tail : Nat) : State :=
  if s.on (tHold t) then s
  else
    let old := s.rd (qTail t e)
    let n := (tail % 32 + 32 - old) % 32
    if n + s.rd (qCount t e) ≤ 16 then
      let s := s.handSlots t e old n
      (s.wr (qTail t e) (tail % 32)).syncCount t e
    else s.wr (qOvf t e) 1

/-- Writes the completion status word of a slot. -/
def State.writeStatus (s : State) (t e p code seq : Nat) (late : Bool) (crc done : Nat) : State :=
  s.scratchWrite t (statusOff e p) (statusWord code seq late crc done)

/-- Advances HEAD past the oldest owned slot (R40). -/
def State.popSlot (s : State) (t e : Nat) : State :=
  let g := (s.tile t).eng e
  let s := s.setEng t e { g with owned := g.owned.tail }
  (s.wr (qHead t e) (s.rd (qHead t e) + 1)).syncCount t e

/-- Retires `n` owned slots with FLUSHED, without running them (Table 2.4). The failed slot of a halted queue is retired too
and keeps its own status word; the queue is then not halted (DEDUCED, log entry 20). No slot so retired writes CRATE.MSUM (DESIGN CHOICE, log
entry 68). -/
def State.flushSlots (s : State) (t e : Nat) : Nat → State
  | 0 => s
  | n + 1 =>
    match ((s.tile t).eng e).owned with
    | [] => s
    | x :: _ =>
      let failed := s.on (qHalted t e) && decide (s.rd (qErrSlot t e) = x.ptr)
      let s := if failed then s.wr (qHalted t e) 0 else s.writeStatus t e x.ptr stFLUSHED (hSeq x.desc) false 0 0
      (s.popSlot t e).flushSlots t e n

/-- The tile's control core leaves WFI; that of a parked tile does so once the tile is unparked. -/
def State.wakeCore (s : State) (t : Nat) : State :=
  if s.rd (tState t) = 2 ∨ s.rd (tState t) = 3 then s.wr (tState t) 1
  else if s.rd (tState t) = 4 then s.setTile t { s.tile t with woken := true }
  else s

/-- Completes the running descriptor of a queue with a status (R40, R41, R43): summary registers, status word, then on DONE
the tally and HEAD, else the halt and the fault. -/
def State.completeRun (s : State) (t e code : Nat) (r : Run) : State :=
  let s := r.post.foldl (fun s p => s.setReg p.1 p.2) s
  let crc := if e = 2 ∧ hOp r.desc = 1 then (crc32cFin r.crc).toNat else 0
  let s := s.writeStatus t e r.slot code (hSeq r.desc) (!r.lbv.isEmpty) crc r.done
  let g := (s.tile t).eng e
  let s := (s.setEng t e { g with run := none }).wr (qBusy t e) 0
  let s := if code = stDONE then
      (if hDoneEn r.desc then s.addTally (.tile t (hDoneTally r.desc)) 1 else s).popSlot t e
    else
      let s := ((s.wr (qHalted t e) 1).wr (qLastErr t e) code).wr (qErrSlot t e) r.slot
      s.raise (0x0100 + code) 1 t (detailOf [(1, e), (1, r.slot), (1, hSeq r.desc), (1, code)])
  match r.flush with
  | none => s
  | some n => s.flushSlots t e (if code = stDONE then n else n + 1)

/-- DESCRIPTOR_COMPLETE (R40): the engine whose running descriptor has finished completes it; a vector descriptor's carry-out record is
written first (R196). -/
def execDescriptorComplete (t : TileId) (e : EngineId) (s : State) : Res :=
  match ((s.tile t).eng e).run with
  | none => .next s
  | some r =>
    match r.ended with
    | none => .next s
    | some code =>
      if e.val = 1 && s.carryRecs.any fun k => decide (k.sender = t.val) then .next s else .next (s.completeRun t e code r)

/-- May a source write the tile registers' RW and WO fields (R64)? -/
def tileRegWriter (src : Src) (t : Nat) : Bool :=
  match src with
  | .hostCore _ => true
  | .hostPort _ => true
  | .tile t' => decide (t'.val = t)
  | .mgmt => false

/-- Is tile `t` blocked at a quarantined crossing (R454)? -/
def State.tileBlocked (s : State) (t : Nat) : Bool := decide (2 ^ 24 + t ∈ s.blocked)

/-- Does the register window of tile `t` answer: quadrant on and clock running? -/
def State.tileLive (s : State) (t : Nat) : Bool := s.tileOn t && s.crateRuns (t / 64)

/-- A write of a register of tile `t` by a source that it accepts: it goes to the tile's place, and ungates the tile's clock (R70, R72 to
R74). -/
def State.tileAccess (s : State) (src : Src) (t : Nat) (act : State → State) : State :=
  if s.srcRuns src then s.atPlace src (64 + t / 64) fun s => (act s).ungate t else s

/-- QUEUE_TAIL_WRITE (R37): a write of TILE.QPTR[e] with its TAIL field. -/
def execQueueTailWrite (src : Src) (t : TileId) (e : EngineId) (w : BitVec 32) (s : State) : Res :=
  if tileRegWriter src t then .next (s.tileAccess src t fun s => s.tailWrite t e (w.toNat % 32)) else .next s

/-- RESUME: retires the failed slot of a halted queue (R43, Table 2.4). -/
def State.resume (s : State) (t e : Nat) : State :=
  if s.on (qHalted t e) then (s.wr (qHalted t e) 0).popSlot t e else s

/-- Requesters `2 × tile` (the mover) and `2 × tile + 1` (the core) no longer wait for a walk; a walk that ended in a fault is kept only for
its waiters (R305). -/
def State.leaveWalks (s : State) (t : Nat) (rqs : List Nat) : State :=
  let x := s.crate (t / 64)
  s.setCrate (t / 64) { x with walks := x.walks.filterMap fun w =>
    let w' := { w with waiters := w.waiters.filter fun y => decide (y ∉ rqs) }
    if w.bad.isSome && w'.waiters.isEmpty then none else some w' }

/-- FLUSH (R43): a running matrix or vector descriptor, or one already finished, ends normally and the rest is flushed then; a
copy that runs ends ABORTED at its next chunk boundary, and a maintenance descriptor after its line. -/
def State.flushQueue (s : State) (t e : Nat) : State :=
  let g := (s.tile t).eng e
  match g.run with
  | none => s.flushSlots t e g.owned.length
  | some r =>
    let ends := if e = 2 ∧ r.ended = none ∧ r.flight = [] then some stABORTED else r.ended
    let s := if e = 2 then s.leaveWalks t [2 * t] else s
    s.setEng t e { g with run := some { r with flush := some (g.owned.length - 1), ended := ends } }

/-- A write of TILE.QSTAT[e]: its W1C bits, then RESUME, then FLUSH (Table 2.4, R594). -/
def State.qstatWrite (s : State) (t e : Nat) (w : BitVec 32) : State :=
  let s := s.plainWrite (tileReg t (0x30 + 4 * e)) w
  let s := if w.getLsbD 24 then s.resume t e else s
  if w.getLsbD 25 then s.flushQueue t e else s

/-- QUEUE_RESUME (R43): a write of TILE.QSTAT[e] with RESUME. -/
def execQueueResume (src : Src) (t : TileId) (e : EngineId) (w : BitVec 32) (s : State) : Res :=
  if tileRegWriter src t then .next (s.tileAccess src t fun s => s.qstatWrite t e (w ||| 0x1000000#32)) else .next s

/-- QUEUE_FLUSH (R43): a write of TILE.QSTAT[e] with FLUSH. -/
def execQueueFlush (src : Src) (t : TileId) (e : EngineId) (w : BitVec 32) (s : State) : Res :=
  if tileRegWriter src t then .next (s.tileAccess src t fun s => s.qstatWrite t e (w ||| 0x2000000#32)) else .next s

/-- Is a descriptor's wait met (R229)? -/
def State.waitMet (s : State) (t : Nat) (d : BitVec 512) : Bool :=
  !hWaitEn d || decide (hWaitValue d ≤ s.rd (TallyLoc.tile t (hWaitTally d)).value)

/-- The descriptor that engine `e` may start now: the oldest owned slot of a released tile whose queue neither runs nor is
halted, once its wait is met (R39). One that was read as poison waits for nothing (R222). -/
def State.startable (s : State) (t e : Nat) : Option Slot :=
  let g := (s.tile t).eng e
  if s.tileLive t && !s.tileBlocked t && !s.on (tHold t) && !s.on (tParked t) && !s.on (qHalted t e) && g.run.isNone then
    match g.owned with
    | [] => none
    | x :: _ => if x.bad || s.waitMet t x.desc then some x else none
  else none

/-- The late-bound values that a descriptor reads at its start (R47): for each set bit of LATE_MASK whose field the list
names, the register that the field's low 4 bits select. -/
def State.lateValues (s : State) (t : Nat) (d : BitVec 512) (fields : List (Nat × Nat)) : List (Nat × Nat) :=
  (fields.filter fun f => bitAt (hLate d) f.1).map fun f =>
    (f.1, (s.reg (tileReg t (0x40 + 4 * dBits d f.2 4))).toNat)

/-- A field of a descriptor, or its late-bound value (R47). -/
def lateField (d : BitVec 512) (lbv : List (Nat × Nat)) (bit lo w : Nat) : Nat :=
  match lbv.find? fun p => p.1 = bit with
  | some p => p.2
  | none => dBits d lo w

/-- Does LATE_MASK name only late-bindable fields (R45)? `ignored` lists bits that name no field and are ignored. -/
def lateOk (d : BitVec 512) (fields : List (Nat × Nat)) (ignored : List Nat) : Bool :=
  (List.range 8).all fun i => !bitAt (hLate d) i || fields.any (fun f => f.1 = i) || decide (i ∈ ignored)

/-! Buffer descriptors (Table 2.11a). -/
def bBase (b : BitVec 128) : Nat := bitsAt b.toNat 0 48
def bKind (b : BitVec 128) : Nat := bitsAt b.toNat 48 2
def bRd (b : BitVec 128) : Bool := bitAt b.toNat 50
def bWr (b : BitVec 128) : Bool := bitAt b.toNat 51
def bSize (b : BitVec 128) : Nat := bitsAt b.toNat 64 40
/-- Is the buffer descriptor of kind SHELF or VA with its reserved bits zero (R45)? -/
def bValid (b : BitVec 128) : Bool :=
  decide (bKind b = 1 ∨ bKind b = 2) && decide (bitsAt b.toNat 52 12 = 0) && decide (bitsAt b.toNat 104 24 = 0)

/-- Buffer descriptor `n` of tile `t`, at header offset 0xF00 + 16n. -/
def State.bufDesc (s : State) (t n : Nat) : BitVec 128 :=
  match s.scratchKey t (0xF00 + 16 * n) with
  | none => 0#128
  | some k => BitVec.ofNat 128 (ofBytes (readBytes s.shelf k 16))

/-- A descriptor's run at its start. -/
def State.newRun (s : State) (t : Nat) (x : Slot) (lbv : List (Nat × Nat)) (bufs : List Nat) (shoot : Nat) : Run :=
  { slot := x.ptr, desc := x.desc, loop := 0#512, lbv := lbv, bufs := bufs.map fun n => (n, s.bufDesc t n), shoot := shoot, pos := 0,
    done := 0, crc := crc32cInit, flight := [], destKind := 0, idx := [], stop := none, recv := none, flush := none, bad := false, flags := 0#8, clamps := 0, flushes := 0,
    phase := .work, post := [], ended := none }

/-- The buffer descriptor `n` that a run read at its start. -/
def Run.buf (r : Run) (n : Nat) : BitVec 128 :=
  match r.bufs.find? fun p => p.1 = n with
  | some p => p.2
  | none => 0#128

/-- The buffer descriptors `ns` are read through the array's protection at a descriptor's start; is one of them, or the descriptor's own
slot, poison (R217, R222)? -/
def State.startRead (s : State) (t : Nat) (x : Slot) (ns : List Nat) : Bool × State :=
  (x.bad || ns.any fun n => s.scratchPoison t (0xF00 + 16 * n) 16, ns.foldl (fun s n => s.readHeader t (0xF00 + 16 * n) 16) s)

/-- Begins running a descriptor: BUSY is set and the run recorded (R39). -/
def State.beginRun (s : State) (t e : Nat) (r : Run) : State :=
  let g := (s.tile t).eng e
  (s.setEng t e { g with run := some r }).wr (qBusy t e) 1

/-! Checks made before a descriptor acts, in the order of R619. -/

/-- A byte range of a buffer that a descriptor touches: buffer number, first and end offset (may be below zero before the
bound check), and whether it is read and written. -/
structure Extent where
  buf : Nat
  lo : Int
  hi : Int
  reads : Bool
  writes : Bool
  deriving DecidableEq, Repr

/-- Is an extent empty? -/
def Extent.empty (x : Extent) : Bool := decide (x.hi ≤ x.lo)

/-- Does an extent lie within [0, SIZE) of its buffer (R53)? -/
def Run.extentIn (r : Run) (x : Extent) : Bool :=
  x.empty || (decide (0 ≤ x.lo) && decide (x.hi ≤ (bSize (r.buf x.buf) : Int)))

/-- Does a buffer permit an extent, and does a SHELF range stay in locked scratch (R55)? -/
def State.extentAllowed (s : State) (t : Nat) (r : Run) (x : Extent) : Bool :=
  let b := r.buf x.buf
  (!x.reads || bRd b) && (!x.writes || bWr b) &&
    (x.empty || decide (bKind b ≠ 1) || decide ((bBase b : Int) + x.hi ≤ (s.scratchEnd t : Int)))

/-- Do two extents overlap in device virtual or shelf-offset terms (R57, R176)? -/
def Run.extentsMeet (r : Run) (x y : Extent) : Bool :=
  let bx := r.buf x.buf
  let by' := r.buf y.buf
  !x.empty && !y.empty && decide (bKind bx = bKind by') &&
    decide ((bBase bx : Int) + x.lo < (bBase by' : Int) + y.hi) && decide ((bBase by' : Int) + y.lo < (bBase bx : Int) + x.hi)

/-- Do two extents overlap within the same buffer or within own scratch (R120)? -/
def Run.extentsClash (r : Run) (x y : Extent) : Bool :=
  (decide (x.buf = y.buf) || decide (bKind (r.buf x.buf) = 1)) && r.extentsMeet x y

/-- The first failing check in the order of R619: bounds, then permissions, then overlap. -/
def State.checkExtents (s : State) (t : Nat) (r : Run) (xs : List Extent) (overlap : Bool) : Option Nat :=
  if !xs.all r.extentIn then some stBOUND
  else if !xs.all (s.extentAllowed t r) then some stPERMISSION
  else if overlap then some stOVERLAP
  else none

end Sys2Proof.Machine
end

