-- ==== Sys2Proof/Machine/CellarOps.lean ====
section
/-! DEFINITION. The commands of the cellar's homes and stacks (chapter 9). -/
namespace Sys2Proof.Machine

/-- The answer that a reader outside the block gets from an access: data, poisoned data, or unit absent. -/
def Access.answer : Access → Nat → Answer
  | .ok bs, _ => ⟨0, bs⟩
  | .bad st, n => if st = 13 then ⟨3, List.replicate n 0xFF#8⟩ else ⟨4, []⟩

/-- Symbol errors that have developed in a burst since it was last read: the environment's (R259). -/
def State.develop (s : State) (b e : Nat) : State :=
  if e = 0 then s else { s with symErr := putMap 0 s.symErr b (min (lookMap 0 s.symErr b + e) 2) }

/-- Bytes of a request that lie in the line of `a`. -/
def inLine (a n : Nat) : Nat := min n (128 - a % 128)

/-- CELLAR_READ (R246): a home accepts a read of bytes of one line; `e` bad symbols have developed in its first burst. -/
def execCellarRead (a n e : Nat) (s : State) : Res :=
  let r := (s.develop (a / 64) e).homeRead a (inLine a n)
  match r.1 with
  | .bad 255 => .next s
  | x => .next { r.2 with answer := x.answer (inLine a n) }

/-- Takes the write at position `n` of those on their way, when no earlier one is for the same line. -/
def State.takeWrite (s : State) (n : Nat) : Option HomeWrite :=
  match s.homeQ[n]? with
  | none => none
  | some w => if (s.homeQ.take n).any fun v => decide (v.a / 128 = w.a / 128) then none else some w

/-- CELLAR_WRITE (R249): a home accepts a posted write to a line that no cache holds; a stack that does not serve drops it. Tally writes
of its port that waited for it then take effect (R231). -/
def execCellarWrite (n : Nat) (s : State) : Res :=
  match s.takeWrite n with
  | none => .next s
  | some w =>
    if (s.dir (w.a / 128)).isSome || s.lineBusy (w.a / 128) then .next s
    else
      let r := s.homeWrite w.a (w.bs.map fun b => (b, true)) false w.port
      if r.1 = stWAIT then .next s else .next ({ r.2 with homeQ := r.2.homeQ.eraseIdx n } : State).releaseTallies

/-- HAMPER_TIMEOUT (R250): an entry that reaches its age limit is flushed. -/
def execHamperTimeout (h : HomeId) (line : Nat) (s : State) : Res := .next (s.flushLine h line)

/-- A write of CEL[s].HAMPER_CTL (Table 9.7, R252): TIMEOUT 1 to 8, then the flushes. -/
def State.hamperCtlWrite (s : State) (st : Nat) (w : BitVec 32) : State :=
  let t := bitsAt w.toNat 8 4
  let s := if 1 ≤ t ∧ t ≤ 8 then s.wr ⟨cel st 0x10, 8, 4⟩ t else s
  [0, 1].foldl (fun s i =>
    if w.getLsbD i then
      let h := 2 * st + i
      (s.setHamper h ((s.hamper h).map fun e => { e with covered := true })).wr (hamperBusy h) 1
    else s) s

/-- Do the registers of stack `st` answer: its spine on (R394)? -/
def State.celLive (s : State) (st : Nat) : Bool := s.domOn (16 + st / 5)

/-- HAMPER_FLUSH (R252): a write of HAMPER_CTL with a FLUSH bit. -/
def execHamperFlush (src : Src) (st : StackId) (w : BitVec 32) (s : State) : Res :=
  if s.mayWrite src (cel st 0x10) && s.celLive st then .next (s.hamperCtlWrite st w) else .next s

/-- HAMPER_FLUSH_COMPLETE (R252): the covered entries are written and BUSY clears; a stack in self-refresh holds it. -/
def execHamperFlushComplete (h : HomeId) (s : State) : Res :=
  if s.on (hamperBusy h) && !s.on (celThermalStop (h / 2)) then
    .next ((s.flushHamper h HEntry.covered).wr (hamperBusy h) 0)
  else .next s

/-! Operation writes (Table 9.1). -/

/-- An operation write of bytes within one line at its home. -/
def State.opWrite (s : State) (opc a : Nat) (bs : List Byte) : Res :=
  let r := s.homeOp opc a (bs.take (inLine a bs.length))
  if r.1 = stWAIT then .next s else .next r.2

/-- OP_INT_ADD32 (R254), OPC 0x1. -/
def execOpIntAdd32 (a : Nat) (bs : List Byte) (s : State) : Res := s.opWrite 1 a bs

/-- OP_INT_ADD64 (R254), OPC 0x2. -/
def execOpIntAdd64 (a : Nat) (bs : List Byte) (s : State) : Res := s.opWrite 2 a bs

/-- OP_FLOAT_ADD (R255), OPC 0x3 to 0x6: BF16, FP16, FP32, FP64. -/
def execOpFloatAdd (f : Fin 4) (a : Nat) (bs : List Byte) (s : State) : Res := s.opWrite (3 + f) a bs

/-- OP_INT_MIN (R254), OPC 0x7. -/
def execOpIntMin (a : Nat) (bs : List Byte) (s : State) : Res := s.opWrite 7 a bs

/-- OP_INT_MAX (R254), OPC 0x8. -/
def execOpIntMax (a : Nat) (bs : List Byte) (s : State) : Res := s.opWrite 8 a bs

/-- OP_FLOAT_MIN (R255), OPC 0x9. -/
def execOpFloatMin (a : Nat) (bs : List Byte) (s : State) : Res := s.opWrite 9 a bs

/-- OP_FLOAT_MAX (R255), OPC 0xA. -/
def execOpFloatMax (a : Nat) (bs : List Byte) (s : State) : Res := s.opWrite 10 a bs

/-- OP_AND (R254), OPC 0xB. -/
def execOpAnd (a : Nat) (bs : List Byte) (s : State) : Res := s.opWrite 11 a bs

/-- OP_OR (R254), OPC 0xC. -/
def execOpOr (a : Nat) (bs : List Byte) (s : State) : Res := s.opWrite 12 a bs

/-- OP_XOR (R254), OPC 0xD. -/
def execOpXor (a : Nat) (bs : List Byte) (s : State) : Res := s.opWrite 13 a bs

/-- OP_ALIAS_RESERVED (R253): a write to the OPC 0xE alias is dropped at the home. -/
def execOpAliasReserved (a : Nat) (bs : List Byte) (s : State) : Res := s.opWrite 14 a bs

/-! Fetching requests (Table 9.2). -/

/-- Fields of a fetching request's record. -/
def frOperand (r : BitVec 256) : Nat := bitsAt r.toNat 0 64
def frCompare (r : BitVec 256) : Nat := bitsAt r.toNat 64 64
def frRetOff (r : BitVec 256) : Nat := bitsAt r.toNat 128 32
def frRetTally (r : BitVec 256) : Nat := bitsAt r.toNat 160 16
def frFop (r : BitVec 256) : Nat := bitsAt r.toNat 176 8
def frSize (r : BitVec 256) : Nat := bitsAt r.toNat 184 8
def frRsv (r : BitVec 256) : Nat := bitsAt r.toNat 192 64

/-- Increments RET_TALLY of the requesting tile, levels 0 and 1 only; another address is dropped under R233 (R256, R257). -/
def State.retTally (s : State) (t tally : Nat) : State :=
  if bitsAt tally 14 2 < 2 then s.sendInc ⟨tally, some t, 1, 4, t, t / 6144⟩ else s.dropInc ⟨tally, some t, 1, 4, t, t / 6144⟩

/-- Must a result for a tile wait: its crate's clock, once started for it, does not run (R72, R73)? -/
def State.resultWaits (s : State) (t : Nat) : Bool := s.tileOn t && !(s.arouse (64 + t / 64)).crateRuns (t / 64)

/-- Writes a result into the tile's scratch, starting its crate's clock and ungating it (R70, R72): beyond its locked scratch it is dropped
and counted (R613, R299); with the tile's quadrant off nothing takes it (R74). -/
def State.fetchResult (s : State) (t off old status : Nat) : State :=
  if !s.tileOn t then s
  else
  let s := (s.arouse (64 + t / 64)).ungate t
  if off + 16 ≤ min 0x30000 (s.scratchEnd t) then s.scratchWrite t off (toBytes 8 old ++ toBytes 8 status)
  else s.bump (apertureDrops (t / 64))

/-- A fetching request of tile `t` to target address `a` at its home (R256, R257, R613). Answers 0 when the home takes it. -/
def State.homeFetch (s : State) (t a : Nat) (r : BitVec 256) : Nat × State :=
  match s.locate a with
  | none => (6, s)
  | some l =>
    let h := s.homeStatus l
    let s := h.2
    if s.writeBusy l (a / 128) [0, 1] then (stWAIT, s)
    else if h.1 ≠ 0 then (h.1, s)
    else if s.resultWaits t then (stWAIT, s)
    else if frRetOff r % 16 ≠ 0 ∨ frRetOff r < 0x1000 then
      (0, (s.raise 0x0400 6 l.home []).retTally t (frRetTally r))
    else
      let n := if frSize r = 0 then 4 else 8
      if 8 < frFop r ∨ 1 < frSize r ∨ frRsv r ≠ 0 ∨ a % n ≠ 0 then
        (0, ((s.clearCopies l (a / 128) false).fetchResult t (frRetOff r) 0 2).retTally t (frRetTally r))
      else
        let q := s.fetchWord l a (frFop r) (frSize r) (frOperand r) (frCompare r)
        (0, (q.2.2.fetchResult t (frRetOff r) q.2.1 q.1).retTally t (frRetTally r))

/-- The record with its FOP set. -/
def withFop (r : BitVec 256) (fop : Nat) : BitVec 256 := BitVec.ofNat 256 (setBits r.toNat 176 8 fop)

/-- A fetching request command. -/
def State.fetchCmd (s : State) (t a : Nat) (r : BitVec 256) (fop : Nat) : Res :=
  let q := s.homeFetch t a (withFop r fop)
  if q.1 = stWAIT then .next s else .next q.2

/-- SWAP (R256), FOP 0. -/
def execSwap (t : TileId) (a : Nat) (r : BitVec 256) (s : State) : Res := s.fetchCmd t a r 0
/-- CAS (R256), FOP 1. -/
def execCas (t : TileId) (a : Nat) (r : BitVec 256) (s : State) : Res := s.fetchCmd t a r 1
/-- FETCH_ADD (R256), FOP 2. -/
def execFetchAdd (t : TileId) (a : Nat) (r : BitVec 256) (s : State) : Res := s.fetchCmd t a r 2
/-- FETCH_FADD (R256), FOP 3. -/
def execFetchFadd (t : TileId) (a : Nat) (r : BitVec 256) (s : State) : Res := s.fetchCmd t a r 3
/-- FETCH_MIN (R256), FOP 4. -/
def execFetchMin (t : TileId) (a : Nat) (r : BitVec 256) (s : State) : Res := s.fetchCmd t a r 4
/-- FETCH_MAX (R256), FOP 5. -/
def execFetchMax (t : TileId) (a : Nat) (r : BitVec 256) (s : State) : Res := s.fetchCmd t a r 5
/-- FETCH_AND (R256), FOP 6. -/
def execFetchAnd (t : TileId) (a : Nat) (r : BitVec 256) (s : State) : Res := s.fetchCmd t a r 6
/-- FETCH_OR (R256), FOP 7. -/
def execFetchOr (t : TileId) (a : Nat) (r : BitVec 256) (s : State) : Res := s.fetchCmd t a r 7
/-- FETCH_XOR (R256), FOP 8. -/
def execFetchXor (t : TileId) (a : Nat) (r : BitVec 256) (s : State) : Res := s.fetchCmd t a r 8

/-! Scrub, repair and retirement. -/

/-- Bursts of a channel: 2 pseudo-channels × 786,432 rows × 16 bursts, in ascending row order (R242, R262). -/
def chBursts : Nat := 2 * 786432 * 16

/-- CELLAR_SCRUB_READ (R262): a channel's patrol scrub reads its next burst through the ECC; `e` bad symbols have developed
there. -/
def execCellarScrubRead (c : ChannelId) (e : Nat) (s : State) : Res :=
  let st := c.val / 32
  let ch := c.val % 32
  if s.on (celScrub st) && s.celLive st && s.on (celReady st) && !s.on (celThermalStop st) && !s.on (celOffline st ch) then
    let n := lookMap 0 s.scrubNext c
    let s := { s with scrubNext := putMap 0 s.scrubNext c ((n + 1) % chBursts) }
    match s.burstAddr st ch (n % 2) (n / 32) (n / 2 % 16) with
    | none => .next s
    | some a =>
      match s.locate a with
      | none => .next s
      | some l => .next ((s.develop (a / 64) e).readBurst l (a / 64)).2
  else .next s

/-- CELLAR_ROW_CE_WINDOW_EXPIRY (R263): the window opened by a row's first corrected error closes, 2^CE_WINDOW pilot-light ticks after it,
and its count returns to 0. -/
def execCellarRowCeWindowExpiry (c : ChannelId) (pc : Fin 2) (row : Fin 786432) (s : State) : Res :=
  let k := (c.val * 2 + pc) * 2 ^ 20 + row
  let r := lookMap CRow.fresh s.rows k
  if s.ceClosed (c / 32) r then .next { s with rows := putMap CRow.fresh s.rows k { r with ce := 0, first := 0 } } else .next s

/-- ROW_REPAIR_COMPLETE (R264): the repair that began first ends and releases its bank. -/
def execRowRepairComplete (s : State) : Res :=
  match s.repairing with
  | [] => .next s
  | k :: ks =>
    let c := k / 2 ^ 21
    let s := { s with repairing := ks }
    let s := if ks.any fun j => decide (j / 2 ^ 21 / 32 = c / 32) then s else s.wr (celRepairBusy (c / 32)) 0
    .next ((s.raise 0x0402 5 c []).syncCauses 0)

/-- RETIRE_ACK (R266): a write of RETIRE[i] with ACK sets ACKED (Table 9.10). -/
def execRetireAck (src : Src) (st : StackId) (i : Fin 128) (w : BitVec 32) (s : State) : Res :=
  let a := cel st (0x800 + 8 * i)
  if s.mayWrite src a && s.celLive st && w.getLsbD 2 then .next (s.wr ⟨a, 1, 1⟩ 1) else .next s

/-! Traffic generators (R270, R271). -/

/-- Word of TG[c] of a channel. -/
def tg (c off : Nat) : Nat := cel (c / 32) (0x1000 + 0x40 * (c % 32) + off)
def tgBusy (c : Nat) : Fld := ⟨tg c 0, 2, 1⟩
def tgDestr (c : Nat) : Fld := ⟨tg c 0, 3, 1⟩
def tgRefused (c : Nat) : Fld := ⟨tg c 0, 7, 1⟩
def tgPasses (c : Nat) : Fld := ⟨tg c 0, 16, 16⟩
def tgFirst (c : Nat) : Fld := ⟨tg c 8, 0, 20⟩
def tgLast (c : Nat) : Fld := ⟨tg c 12, 0, 20⟩

/-- BIST.STAT (Table 21.12). -/
def bistBusy : Fld := ⟨0x480004, 0, 1⟩
def bistKind : Fld := ⟨0x480004, 1, 3⟩
def bistIndex : Fld := ⟨0x480004, 4, 12⟩

/-- Is a job admitted (JOB.STAT.STATE is not idle; Table 20.1)? -/
def State.jobAdmitted (s : State) : Bool := decide (s.rd jobState ≠ 0)

/-- A write of TG[c] word 0: the RW fields take effect, then STOP and START (R270, R594). While a run is in progress START is
ignored with REFUSED set. -/
def State.tgCtlWrite (s : State) (c : Nat) (w : BitVec 32) : State :=
  let s := s.plainWrite (tg c 0) w
  let s := if w.getLsbD 1 && s.on (tgBusy c) then { s with tgStop := putMap false s.tgStop c true } else s
  if w.getLsbD 0 then
    let slice := s.on bistBusy && decide (s.rd bistKind = 1) && decide (s.rd bistIndex = c)
    if s.on (tgBusy c) || (s.on (tgDestr c) && s.jobAdmitted && !slice) then s.wr (tgRefused c) 1
    else { s.wr (tgBusy c) 1 with tgStop := putMap false s.tgStop c false }
  else s

/-- TG_START (R270): a write of TG[c] with START. -/
def execTgStart (src : Src) (c : ChannelId) (w : BitVec 32) (s : State) : Res :=
  if s.mayWrite src (tg c 0) && s.celLive (c.val / 32) then .next (s.tgCtlWrite c (w ||| 1#32)) else .next s

/-- TG_STOP (R270): a write of TG[c] with STOP. -/
def execTgStop (src : Src) (c : ChannelId) (w : BitVec 32) (s : State) : Res :=
  if s.mayWrite src (tg c 0) && s.celLive (c.val / 32) then .next (s.tgCtlWrite c (w ||| 2#32)) else .next s

/-- Zeroes the rows of a destructive run's range: every byte 0, no poison, no hamper bytes (R270). -/
def State.zeroRows (s : State) (st ch first last : Nat) : State :=
  -- the channel and row of every burst decide whether it lies in the range
  let hit := fun (b : Nat) => match s.locate (64 * b) with
    | none => false
    | some l => decide (l.stack = st) && decide (l.ch = ch) && decide (first ≤ l.row) && decide (l.row ≤ last)
        && !lookMap false s.retired l.granule
  { s with cellar := s.cellar.filter (fun x => !hit (x.1 / 64)),
           burstPoison := s.burstPoison.filter (fun x => !hit x.1),
           symErr := s.symErr.filter (fun x => !hit x.1) }

/-! A run of a traffic generator (R270, R271, Table 9.11). Bursts of its range are numbered row by row, as the scrub reads them. -/

def tgPattern (c : Nat) : Fld := ⟨tg c 0, 4, 3⟩
def tgWalkFld (c : Nat) : Fld := ⟨tg c 0, 8, 2⟩
def tgMix (c : Nat) : Fld := ⟨tg c 0, 10, 2⟩
def tgSeed (c : Nat) : Fld := ⟨tg c 0x10, 0, 32⟩

/-- The 64 bytes that a pattern gives burst `i`: zeros and ones; what the other patterns put where is not given (log entry 59). -/
def tgData (pat seed c i : Nat) : List Byte :=
  if pat = 0 then List.replicate 64 0#8
  else if pat = 1 then List.replicate 64 0xFF#8
  else toBytes 64 (Config.tgPattern (if pat = 7 then 4 else pat) (if seed = 0 then 1 else seed) c i).toNat

/-- The order in which a walk visits `n` bursts: ascending, descending, and for the other two an order that the spec does not give (log
entry 59). -/
def tgOrder (walk seed n : Nat) : List Nat :=
  if walk = 0 then List.range n
  else if walk = 1 then (List.range n).reverse
  else
    let key := fun i => Config.tgWalk walk (if seed = 0 then 1 else seed) i
    (List.range n).mergeSort fun a b => decide (key a ≤ key b)

/-- What a run has counted: mismatches, corrected bursts, the first failure and the signature. -/
structure TgRun where
  mism : Nat
  ces : Nat
  fail : Option Nat
  sig : BitVec 64
  deriving DecidableEq, Repr

/-- The failure record of a burst (Table 9.11). -/
def tgFail (row pc burst bit : Nat) : Nat := row + 2 ^ 20 * pc + 2 ^ 21 * burst + 2 ^ 25 * bit

/-- A generator reads burst `i` of channel `c`'s range, in which `e` bad symbols have developed: the ECC is the comparator of a read-only
run; a destructive run compares with its pattern as well. -/
def State.tgRead (s : State) (c i e : Nat) (q : TgRun) : State × TgRun :=
  let row := s.rd (tgFirst c) + i / 32
  let pc := i % 2
  let burst := i / 2 % 16
  match s.burstAddr (c / 32) (c % 32) pc row burst with
  | none => (s, q)
  | some a =>
    match s.locate a with
    | none => (s, q)
    | some l =>
      let s := (s.develop (a / 64) e).flushLine l.home (a / 128)
      let one := decide (lookMap 0 s.symErr (a / 64) = 1) && !s.isRetired l && !s.isPoison (a / 64)
      let r := s.readBurst l (a / 64)
      let d := r.2.draw
      let s := if r.1 then d.2 else r.2
      -- what a burst that cannot be corrected reads as is free
      let bs := if r.1 then toBytes 64 d.1 else readBytes s.cellar (a / 64 * 64) 64
      let want := tgData (s.rd (tgPattern c)) (s.rd (tgSeed c)) c i
      let bad := r.1 || (s.on (tgDestr c) && decide (bs ≠ want))
      let bit := (((List.range 512).find? fun k => decide ((ofBytes bs).testBit k ≠ (ofBytes want).testBit k)).getD 0)
      (s, { mism := q.mism + b2n bad, ces := q.ces + b2n one, sig := bs.foldl crc64Byte q.sig,
            fail := if q.fail.isNone && bad then some (tgFail row pc burst (if s.on (tgDestr c) then bit else d.1 % 512)) else q.fail })

/-- A generator writes burst `i` of its range; a retired granule takes nothing (R266). -/
def State.tgWrite (s : State) (c i : Nat) : State :=
  match s.burstAddr (c / 32) (c % 32) (i % 2) (s.rd (tgFirst c) + i / 32) (i / 2 % 16) with
  | none => s
  | some a =>
    match s.locate a with
    | none => s
    | some l => if s.isRetired l then s
        else s.storeBurst (a / 64) (tgData (s.rd (tgPattern c)) (s.rd (tgSeed c)) c i) false

/-- The accesses of one pass: whether each is a write, and its burst (Table 9.11). A read-only run ignores MIX. -/
def State.tgPass (s : State) (c : Nat) : List (Bool × Nat) :=
  let n := 32 * (s.rd (tgLast c) + 1 - s.rd (tgFirst c))
  let o := tgOrder (s.rd (tgWalkFld c)) (s.rd (tgSeed c)) n
  let mix := if s.on (tgDestr c) then s.rd (tgMix c) else 1
  match mix with
  | 0 => o.map (fun i => (true, i)) ++ o.map fun i => (false, i)
  | 1 => o.map fun i => (false, i)
  | 2 => o.map fun i => (true, i)
  | _ => o.flatMap fun i => [(true, i), (false, i)]

/-- Performs the first `n` accesses of a run's passes; `errs` lists accesses before which bad symbols have developed. -/
def State.tgRun (s : State) (c n : Nat) (errs : List (Nat × Nat)) : State × TgRun :=
  let pass := s.tgPass c
  (List.range n).foldl (fun q k =>
    match pass[k % pass.length]? with
    | some (true, i) => (q.1.tgWrite c i, q.2)
    | some (false, i) => q.1.tgRead c i (lookMap 0 errs k) q.2
    | none => q) (s, ⟨0, 0, none, 0#64⟩)

/-- The accesses made when a STOP takes effect: whole passes, whole rows of the walk, and single accesses. -/
def State.tgStopAt (s : State) (c pass row burst : Nat) : Nat := pass * (s.tgPass c).length + 32 * row + burst

/-- How many accesses a run makes: all of its passes, or those made when a STOP took effect (R270). -/
def State.tgCount (s : State) (c n : Nat) : Nat :=
  let all := s.rd (tgPasses c) * (s.tgPass c).length
  if s.rd (tgPasses c) = 0 then n else if lookMap false s.tgStop c then min n all else all

/-- The accesses before which bad symbols have developed in the burst read: one in each of `one`, two in each of `many`. -/
def tgErrs (one many : List Nat) : List (Nat × Nat) := (one.map fun k => (k, 1)) ++ many.map fun k => (k, 2)

/-- TG_RUN_COMPLETE (R270, R271): a run ends: after its last pass, or at a STOP, in pass `pass` after `burst` accesses of row `row` of the walk.
Where bad symbols have developed (`one`, `many`) is the environment's. A destructive run zeroes its range at the end. -/
def execTgRunComplete (c : ChannelId) (pass row burst : Nat) (one many : List Nat) (s : State) : Res :=
  if s.on (tgBusy c) && (decide (s.rd (tgPasses c) ≠ 0) || lookMap false s.tgStop c) then
    let m := s.tgCount c (s.tgStopAt c pass row burst)
    let q := s.tgRun c m (tgErrs one many)
    let s := q.1
    let s := if s.on (tgDestr c) then s.zeroRows (c / 32) (c % 32) (s.rd (tgFirst c)) (s.rd (tgLast c)) else s
    let s := { s.wr (tgBusy c) 0 with tgStop := putMap false s.tgStop c false }
    let s := s.setReg64 (tg c 0x18) (m % 2 ^ 64)
    let s := (s.setReg (tg c 0x20) (BitVec.ofNat 32 (min q.2.mism 0xFFFFFFFF))).setReg (tg c 0x24)
      (BitVec.ofNat 32 (min q.2.ces 0xFFFFFFFF))
    let s := match q.2.fail with
      | some f => s.setReg64 (tg c 0x28) f
      | none => s
    .next (s.setReg64 (tg c 0x30) q.2.sig.toNat)
  else .next s

/-! Temperature (R272 to R274). -/

/-- The refresh rate at a temperature, coming from rate `old` (Table 9.3): it is lowered only 2 °C below the rising
threshold. -/
def refreshAt (thr t old : Nat) : Nat :=
  let up := if 105 ≤ t then 3 else if thr < t then 2 else if 85 < t then 1 else 0
  if old ≤ up then up
  else if old = 3 ∧ 103 < t then 3
  else if 2 ≤ old ∧ thr < t + 2 then 2
  else if 1 ≤ old ∧ 85 < t + 2 then 1
  else up

/-- What a stack's temperature and the thresholds in THERM make of its refresh rate, throttle and bandwidth (R272 to R274). -/
def State.stackThermal (s : State) (st : Nat) : State :=
    let t := s.rd (celTemp st)
    let s := s.wr (celRefresh st) (refreshAt (s.rd (celThrottleC st)) t (s.rd (celRefresh st)))
    let stop := decide (105 ≤ t)
    let stopped := s.on (celThermalStop st)
    -- self-refresh is left with the refresh rate
    let s := s.wr (celThermalStop st) (b2n (decide (s.rd (celRefresh st) = 3)))
    let s := if stop && !stopped then s.raise 0x0406 4 (st / 5) (detailOf [(1, t)]) else s
    let thr := s.on (celThrottle st)
    let s := if decide (s.rd (celThrottleC st) < t) && !thr then
        ((s.wr (celThrottle st) 1).raise 0x0407 4 (st / 5) [])
      else if decide (t ≤ s.rd (celReleaseC st)) && thr then
        ((s.wr (celThrottle st) 0).raise 0x0407 4 (st / 5) [])
      else s
    (s.wr (celCeil st) (if s.on (celThermalStop st) then 0 else if s.on (celThrottle st) then 50 else 100)).syncCauses 0

/-- STACK_TEMPERATURE_CHANGE (R272 to R274): a stack's hottest sensor reads `t` °C. -/
def execStackTemperatureChange (st : StackId) (t : Fin 256) (s : State) : Res :=
  if s.celLive st && s.on (celReady st) then .next ((s.wr (celTemp st) t).stackThermal st) else .next s

end Sys2Proof.Machine
end

