-- ==== Sys2Proof/Machine/Shelf.lean ====
section
/-! DEFINITION. The shelf's cache (chapter 7): lookup, replacement, fills and write-backs, errors, role changes, way disables
and the scrub. -/
namespace Sys2Proof.Machine

/-- The tag of way `w` and set `st` of tile `t`. -/
def State.line (s : State) (t w st : Nat) : Line := lookMap Line.none (s.tile t).lines (12 * st + w)

/-- Sets a tag. -/
def State.setLine (s : State) (t w st : Nat) (x : Line) : State :=
  let u := s.tile t
  s.setTile t { u with lines := putMap Line.none u.lines (12 * st + w) x }

/-- The 128 bytes of a way's line. -/
def State.lineBytes (s : State) (t w st : Nat) : List Byte := readBytes s.shelf (shelfKey t w st 0) 128

/-- Writes bytes of a way's line from byte `b`. -/
def State.putLine (s : State) (t w st b : Nat) (bs : List Byte) : State :=
  { s with shelf := writeBytes s.shelf (shelfKey t w st b) bs }

/-- The set of a cellar line (R201 of the cache's placement: PA[13:7]). -/
def setOf (pline : Nat) : Nat := pline % 128

/-- Has the disable of a way started (R220)? One due to an uncorrectable error starts at once; a scratch way is never disabled (R222). -/
def State.disabling (s : State) (t w : Nat) : Bool := decide (2 ≤ lookMap 0 (s.tile t).wayDis w) && !s.isScratchWay t w

/-- The cache way that holds a physical line, if any. -/
def State.lookup (s : State) (t pline : Nat) : Option Nat :=
  (s.cacheWays t).find? fun w =>
    let x := s.line t w (setOf pline)
    decide (x.st ≠ .invalid) && decide (x.pline = pline)

/-- Reads words of a cache line through the ECC: single errors are corrected, and the answer says whether a double error was
found (R217). `i` is the first word's index in the shelf. -/
def State.touchCache (s : State) (t w : Nat) : Nat → Nat → Bool × State
  | _, 0 => (false, s)
  | i, n + 1 =>
    let x := s.tile t
    let e := lookMap 0 x.eccErr i
    let s1 := if e = 0 then s else s.setTile t { x with eccErr := putMap 0 x.eccErr i 0 }
    let s1 := if e = 1 then s1.correctedErr t w else if e = 2 then s1.cacheUncorr t w else s1
    let q := s1.touchCache t w (i + 1) n
    (decide (e = 2) || q.1, q.2)

/-- The line's bytes with the mask of those to write back: all of a Dirty line, those in W of a Partial one (Table 7.1). -/
def State.lineMasked (s : State) (t w st : Nat) : List (Byte × Bool) :=
  let x := s.line t w st
  (s.lineBytes t w st).zip ((List.range 128).map fun i => x.st = .dirty || x.mask.getLsbD i)

/-- Writes a Dirty or Partial line back to its home, or sends its bytes as poison when the array has lost it (R205, R218).
Answers the home's status. The tag is left to the caller. -/
def State.writeBack (s : State) (t w st : Nat) : Nat × State :=
  let x := s.line t w st
  if x.st ≠ .dirty ∧ x.st ≠ .part then (0, s)
  else
    let r := s.touchCache t w (2048 * w + 16 * st) 16
    let q := r.2.homeWrite (128 * x.pline) (s.lineMasked t w st) r.1 none
    if r.1 then (q.1, q.2.raise 0x0201 1 t (detailOf [(8, 128 * x.pline)])) else q

/-- May a miss take a way: it is not being disabled, and no uncorrectable error has made its disable due, which starts at once (R220). -/
def State.wayOk (s : State) (t w : Nat) : Bool := decide (lookMap 0 (s.tile t).wayDis w < 2)

/-- The ways that a miss in a set may take: enabled, unlocked, unheld, and not being disabled (R204, R210, R220). -/
def State.victims (s : State) (t st : Nat) : List Nat :=
  (s.cacheWays t).filter fun w => !(s.line t w st).held && s.wayOk t w

/-- Chooses the victim way of a set (R210). -/
def State.victim (s : State) (t st : Nat) : Option Nat × State :=
  let ws := s.victims t st
  match ws.find? fun w => decide ((s.line t w st).st = .invalid) with
  | some w => (some w, s)
  | none =>
    match ws with
    | [] => (none, s)
    | [w] => (some w, s)
    | w :: _ =>
      let r := shelfDraw (s.rd (shLfsr t))
      (some (ws.getD (r % ws.length) w), s.wr (shLfsr t) r)

/-- Chooses a way of a set for a miss and evicts what it holds; a way that the eviction finds lost is passed over for the next choice. -/
def State.allocateFrom (t st : Nat) : Nat → State → Nat × Option Nat × State
  | 0, s => (0, none, s)
  | n + 1, s =>
    let v := s.victim t st
    match v.1 with
    | none => (0, none, v.2)
    | some w =>
      let r := v.2.writeBack t w st
      let s1 := r.2.setLine t w st Line.none
      if r.1 ≠ stWAIT ∧ !s1.wayOk t w then State.allocateFrom t st n s1 else (r.1, some w, s1)

/-- Chooses a way of a set for a miss and evicts what it holds. Answers the way, none when nothing may be allocated, and the
status of the write-back. -/
def State.allocate (s : State) (t st : Nat) : Nat × Option Nat × State := State.allocateFrom t st 12 s

/-- A tile meets poison from the cellar (R261). -/
def State.poisonRead (s : State) (t a : Nat) : State := s.raise 0x0118 1 t (detailOf [(8, a)])

/-- Reads `n` bytes of the cellar for tile `t` at the home, raising "cellar poison read" on poison. -/
def State.tileHomeRead (s : State) (t a n : Nat) : Access × State :=
  match s.homeRead a n with
  | (.bad 13, s1) => (.bad 13, s1.poisonRead t a)
  | r => r

/-- Clears the errors of a line's words when the array is rewritten. -/
def State.clearLineErr (s : State) (t w st : Nat) : State :=
  let x := s.tile t
  s.setTile t { x with eccErr := x.eccErr.filter fun p => decide (p.1 / 16 ≠ 128 * w + st) }

/-- Installs a line Clean in a way (Table 7.1). -/
def State.install (s : State) (t w pline vpage : Nat) (bs : List Byte) : State :=
  let st := setOf pline
  ((s.clearLineErr t w st).putLine t w st 0 bs).setLine t w st ⟨.clean, pline, vpage, 0#128, false⟩

/-- Loses a line to an uncorrectable error: a Clean line is dropped, a Dirty or Partial one goes to the home as poison
(R218). A line that RESCUE holds stays marked held, so that the second pass finds it lost (R224). Answers the home's status. -/
def State.loseLine (s : State) (t w st : Nat) : Nat × State :=
  let x := s.line t w st
  let r := if x.st = .dirty ∨ x.st = .part then
      let q := s.homeWrite (128 * x.pline) (s.lineMasked t w st) true none
      (q.1, q.2.raise 0x0201 1 t (detailOf [(8, 128 * x.pline)]))
    else (0, s)
  (r.1, r.2.setLine t w st (if x.held then { x with st := .invalid, mask := 0#128 } else Line.none))

/-- Fetches a line that is not held and installs it where R204 allows; answers its bytes. -/
def State.fetchLine (s : State) (t pline vpage : Nat) : Access × State :=
  let v := s.allocate t (setOf pline)
  if v.1 = stWAIT then (.bad stWAIT, s)
  else
    match v.2.2.tileHomeRead t (128 * pline) 128 with
    | (.ok bs, s1) =>
      match v.2.1 with
      | some w => (.ok bs, s1.install t w pline vpage bs)
      | none => (.ok bs, s1)
    | r => r

/-- Merges a fetched line under the bytes of W of a Partial line, which becomes Dirty (Table 7.1). -/
def State.mergeFill (s : State) (t w st : Nat) (bs : List Byte) : State :=
  let x := s.line t w st
  let old := s.lineBytes t w st
  let mix := (List.range 128).map fun i => if x.mask.getLsbD i then old.getD i 0#8 else bs.getD i 0#8
  (s.putLine t w st 0 mix).setLine t w st { x with st := .dirty, mask := 0#128 }

/-- Words of a line that bytes off to off + n − 1 touch: first index and count. -/
def lineWords (w st off n : Nat) : Nat × Nat := (2048 * w + 16 * st + off / 8, (off + n + 7) / 8 - off / 8)

/-- Reads bytes of one line that a cache way holds. A Partial line is completed first when the read leaves W (Table 7.1). -/
def State.hitRead (s : State) (t w pline vpage off n : Nat) : Access × State :=
  let st := setOf pline
  let x := s.line t w st
  let inW := (List.range n).all fun i => x.mask.getLsbD (off + i)
  let f : Access × State :=
    if x.st = .part && !inW then
      match s.tileHomeRead t (128 * pline) 128 with
      | (.ok bs, s1) => (.ok [], s1.mergeFill t w st bs)
      | r => r
    else (.ok [], s)
  match f with
  | (.ok _, s) =>
    let p := lineWords w st off n
    let r := s.touchCache t w p.1 p.2
    if r.1 then
      let clean := decide ((r.2.line t w st).st = .clean) && !x.held
      let q := r.2.loseLine t w st
      if q.1 = stWAIT then (.bad stWAIT, s)
      else if clean then
        -- refetched, so the requester receives correct data
        match q.2.fetchLine t pline vpage with
        | (.ok bs, s1) => (.ok ((bs.drop off).take n), s1)
        | r => r
      else if x.st = .clean then (.bad stENGINE, q.2)
      else (.bad stENGINE, q.2.poisonRead t (128 * pline + off))
    else (.ok ((r.2.lineBytes t w st).drop off |>.take n), r.2)
  | r => r

/-- Zeroes every byte of a way and makes its lines Invalid. -/
def State.wipeWay (s : State) (t w : Nat) : State :=
  let x := s.tile t
  { s.setTile t { x with lines := x.lines.filter (fun p => decide (p.1 % 12 ≠ w)),
                         eccErr := x.eccErr.filter (fun p => decide (p.1 / 2048 ≠ w)) } with
    shelf := zeroRange s.shelf (shelfKey t w 0 0) (shelfKey t w 0 0 + 16384) }

/-- Writes back the Dirty and Partial lines of a way. Answers the first status that is not 0. -/
def State.writeBackWay (s : State) (t w : Nat) : Nat × State :=
  (((s.tile t).lines.filter fun p => decide (p.1 % 12 = w)).map fun p => p.1 / 12).foldl
    (fun q st =>
      if q.1 = stWAIT then q
      else
        let r := q.2.writeBack t w st
        (if r.1 = stWAIT then stWAIT else q.1, r.2)) (0, s)

/-- Completes the disable of a way (R220): its Dirty and Partial lines are written back, the way is invalid and its DISABLED bit is set.
Answers the homes' status. -/
def State.disableWay (s : State) (t w : Nat) : Nat × State :=
  let r := s.writeBackWay t w
  if r.1 = stWAIT then (stWAIT, s)
  else
    let s := r.2.wipeWay t w
    let x := s.tile t
    let s := s.setTile t { x with wayDis := putMap 0 x.wayDis w 0, eccWin := putMap 0 x.eccWin w 0 }
    let s := s.wr (shDisabled t) (Nat.lor (s.rd (shDisabled t)) (2 ^ w))
    (0, s.raiseWith true 0x0202 1 t [])

/-- The way that holds a physical line for an access. An access to a line of a way that is being disabled waits until the disable has
completed, and then misses (R220). -/
def State.settleWay (s : State) (t pline : Nat) : Nat × Option Nat × State :=
  match s.lookup t pline with
  | none => (0, none, s)
  | some w =>
    if s.disabling t w then
      let q := s.disableWay t w
      (q.1, none, q.2)
    else (0, some w, s)

/-- Reads bytes within one cellar line through the shelf cache (R204, R205). -/
def State.cachedRead (s : State) (t a n vpage : Nat) : Access × State :=
  let pline := a / 128
  match s.settleWay t pline with
  | (0, some w, s) => s.hitRead t w pline vpage (a % 128) n
  | (0, none, s) =>
    if (s.victims t (setOf pline)).isEmpty then s.tileHomeRead t a n
    else
      match s.fetchLine t pline vpage with
      | (.ok bs, s1) => (.ok ((bs.drop (a % 128)).take n), s1)
      | r => r
  | _ => (.bad stWAIT, s)

/-- Marks bytes off to off + n − 1 written in the tag of a held line (Table 7.1). -/
def Line.written (x : Line) (off n : Nat) : Line :=
  match x.st with
  | .clean => { x with st := .dirty, mask := 0#128 }
  | .part =>
    let m := (List.range n).foldl (fun (m : BitVec 128) i => m ||| (1#128 <<< (off + i))) x.mask
    if m = BitVec.allOnes 128 then { x with st := .dirty, mask := 0#128 } else { x with mask := m }
  | _ => x

/-- Writes bytes within one cellar line through the shelf cache. Answers 0 or a status (R204, R205). -/
def State.cachedWrite (s : State) (t a : Nat) (bs : List Byte) (vpage : Nat) : Nat × State :=
  let pline := a / 128
  let st := setOf pline
  match s.settleWay t pline with
  | (0, some w, s) => (0, (s.putLine t w st (a % 128) bs).setLine t w st ((s.line t w st).written (a % 128) bs.length))
  | (0, none, s) =>
    let v := s.allocate t st
    if v.1 = stWAIT then (stWAIT, s)
    else
      match v.2.1 with
      | none => s.homeWrite a (bs.map fun b => (b, true)) false none
      | some w =>
        let s1 := (v.2.2.clearLineErr t w st).putLine t w st (a % 128) bs
        (0, s1.setLine t w st ((⟨.part, pline, vpage, 0#128, false⟩ : Line).written (a % 128) bs.length))
  | _ => (stWAIT, s)

/-- A far-window store (R208): written through to the home, and to the line's copy when the shelf holds one. -/
def State.storeThrough (s : State) (t a : Nat) (bs : List Byte) : Nat × State :=
  let r := s.homeWrite a (bs.map fun b => (b, true)) false none
  if r.1 ≠ 0 then r
  else
    match r.2.lookup t (a / 128) with
    | some w => (0, r.2.putLine t w (setOf (a / 128)) (a % 128) bs)
    | none => r

/-! Maintenance of one line (Table 7.3). -/

/-- CLEAN of a held line: Dirty becomes Clean, Partial becomes Invalid. Answers the home's status. -/
def State.cleanLine (s : State) (t w st : Nat) : Nat × State :=
  let x := s.line t w st
  match x.st with
  | .dirty =>
    let u := lookMap 0 (s.tile t).wayDis w
    let r := s.writeBack t w st
    -- a line that the array lost is not kept
    let lost := decide (u < 2) && decide (lookMap 0 (r.2.tile t).wayDis w = 2)
    (r.1, r.2.setLine t w st (if lost then Line.none else { x with st := .clean }))
  | .part =>
    let r := s.writeBack t w st
    (r.1, r.2.setLine t w st Line.none)
  | _ => (0, s)

/-- CLEAN_INV of a held line. -/
def State.cleanInvLine (s : State) (t w st : Nat) : Nat × State :=
  let r := s.writeBack t w st
  (r.1, r.2.setLine t w st Line.none)

/-- Acts on one line with ACTION 1 to 3 (CLEAN, INVALIDATE, CLEAN_INV). -/
def State.actLine (s : State) (t w st action : Nat) : Nat × State :=
  if action = 1 then s.cleanLine t w st
  else if action = 2 then (0, s.setLine t w st Line.none)
  else s.cleanInvLine t w st

/-- ZERO of a cellar line: Dirty and zero without fetch, or a full-line write of zeros where nothing may be allocated. -/
def State.zeroLine (s : State) (t a vpage : Nat) : Nat × State :=
  match s.settleWay t (a / 128) with
  | (0, some w, s) =>
    let s := (s.clearLineErr t w (setOf (a / 128))).putLine t w (setOf (a / 128)) 0 (List.replicate 128 0#8)
    (0, s.setLine t w (setOf (a / 128)) { s.line t w (setOf (a / 128)) with st := .dirty, mask := 0#128 })
  | (0, none, s) => s.cachedWrite t a (List.replicate 128 0#8) vpage
  | _ => (stWAIT, s)

/-- Does the shelf unit of tile `t` answer: quadrant on and crate clock running? -/
def State.shelfLive (s : State) (t : Nat) : Bool := s.tileOn t && s.crateRuns (t / 64)

/-! Role changes (R201 to R203). -/

/-- A write of CRATE.SHELF_CFG[t] (R202): a LOCK write is accepted or refused; the other fields take their values. -/
def State.shelfCfgWrite (s : State) (t : Nat) (w : BitVec 32) : State :=
  let a := hubReg t 0xC00 16
  let old := s.rd (shLock t)
  let new := w.toNat % 16
  let s := (s.plainWrite a w).wr (shLock t) old
  if new = old then s
  else if s.on (tHold t) && !s.on (shBusy t) && decide (new ≤ (s.enabledWays t).length) then
    let x := s.tile t
    (s.setTile t { x with lockNew := some new }).wr (shBusy t) 1
  else s.wr (shRefused t) 1

/-- SHELF_LOCK_WRITE (R202): a write of CRATE.SHELF_CFG[t]. -/
def execShelfLockWrite (src : Src) (t : TileId) (w : BitVec 32) (s : State) : Res :=
  if s.mayWrite src (hubReg t 0xC00 16) && s.srcRuns src then .next (s.atPlace src (64 + t / 64) fun s => s.shelfCfgWrite t w) else .next s

/-- SHELF_LOCK_COMPLETE (R203): the ways that change role are written back and zeroed, the new roles take effect and BUSY
clears. A disable that has started completes first; one that was due of a way that becomes scratch is not performed (R222). -/
def execShelfLockComplete (t : TileId) (s : State) : Res :=
  match (s.tile t).lockNew with
  | none => .next s
  | some n =>
    if s.shelfLive t && (s.enabledWays t).all fun w => !s.disabling t w then
      let now := (s.enabledWays t).take n
      let changed := (s.enabledWays t).filter fun w => decide (w ∈ now) != s.isScratchWay t w
      let r := (changed.filter fun w => !s.isScratchWay t w).foldl
        (fun q w => if q.1 = stWAIT then q else q.2.writeBackWay t w) (0, s)
      if r.1 = stWAIT then .next s
      else
        let s := changed.foldl (fun s w => s.wipeWay t w) r.2
        let s := s.wr (shScratch t) ((now.map fun w => 2 ^ w).foldl (· + ·) 0)
        let x := s.tile t
        .next (((s.setTile t { x with lockNew := none, wayDis := x.wayDis.filter fun p => decide (p.1 ∉ now) }).wr (shLock t) n).wr (shBusy t) 0)
    else .next s

/-! Fills (R205). -/

/-- SHELF_FILL_COMPLETE (R205): the line that a control-core load waits for arrives and is installed Clean, or merged under
the written bytes of a Partial line. A poisoned fill is not installed; the load then takes its fault (R261). -/
def execShelfFillComplete (t : TileId) (s : State) : Res :=
  match (s.tile t).fill with
  | none => .next s
  | some (pline, vpage) =>
    if s.shelfLive t then
      let x := s.tile t
      let s1 := s.setTile t { x with fill := none }
      match s1.settleWay t pline with
      | (0, some w, s1) =>
        if (s1.line t w (setOf pline)).st = .part then
          match s1.tileHomeRead t (128 * pline) 128 with
          | (.ok bs, s2) => .next (s2.mergeFill t w (setOf pline) bs)
          | (.bad 255, _) => .next s
          | (.bad st, s2) => .next (s2.setTile t { s2.tile t with fillBad := some (pline, st) })
        else .next s1
      | (0, none, s1) =>
        match s1.fetchLine t pline vpage with
        | (.ok _, s2) => .next s2
        | (.bad 255, _) => .next s
        | (.bad st, s2) => .next (s2.setTile t { s2.tile t with fillBad := some (pline, st) })
      | _ => .next s
    else .next s

/-! Way disables, windows and scrub (R219 to R225). -/

/-- SHELF_WAY_DISABLE (R220): a due disable starts; one due to corrected errors waits until no line of the way is held. -/
def execShelfWayDisable (t : TileId) (w : Fin 12) (s : State) : Res :=
  let x := s.tile t
  let due := lookMap 0 x.wayDis w
  let held := (List.range 128).any fun st => (s.line t w st).held
  if s.shelfLive t && !s.isScratchWay t w && (decide (due = 2) || (decide (due = 1) && !held)) then
    .next (s.setTile t { x with wayDis := putMap 0 x.wayDis w 3 })
  else .next s

/-- SHELF_WAY_DISABLE_COMPLETE (R220): the way's Dirty and Partial lines are written back, the way is invalid and its
DISABLED bit is set. -/
def execShelfWayDisableComplete (t : TileId) (w : Fin 12) (s : State) : Res :=
  if s.shelfLive t && s.disabling t w then .next (s.disableWay t w).2 else .next s

/-- SHELF_ECC_WINDOW_EXPIRY (R219): a way's corrected-error window closes and its count returns to 0. The window counts cycles of the
crate clock, so it does not close while that is off. -/
def execShelfEccWindowExpiry (t : TileId) (w : Fin 12) (s : State) : Res :=
  let x := s.tile t
  if s.shelfLive t then .next (s.setTile t { x with eccWin := putMap 0 x.eccWin w 0 }) else .next s

/-- Reads every word of the line of a way and set through the ECC, as R217 to R223 state: a Clean line that is lost is fetched again.
Answers the home's status. -/
def State.scrubLine (s : State) (t w st : Nat) : Nat × State :=
  if s.isScratchWay t w then (0, (s.touchScratch t (2048 * w + 16 * st) 16).2)
  else
    let x := s.line t w st
    let r := s.touchCache t w (2048 * w + 16 * st) 16
    if !r.1 || decide (x.st = .invalid) then (0, r.2)
    else
      let q := r.2.loseLine t w st
      if q.1 ≠ stWAIT ∧ x.st = .clean ∧ !x.held then
        match q.2.fetchLine t x.pline x.vpage with
        | (.bad 255, _) => (stWAIT, s)
        | (_, s1) => (0, s1)
      else q

/-- The next line of the scrub at or after position `p` of way × 128 + set, over the enabled ways. -/
def scrubFrom (enabled : List Nat) (p : Nat) : Nat :=
  ((List.range 13).filterMap fun i =>
    let q := if i = 0 then p else (p / 128 + i) % 12 * 128
    if q / 128 ∈ enabled then some q else none).headD p

/-- SHELF_SCRUB_READ (R225): the scrub reads the next line of an enabled way. `errs` are errors that have developed in the
array, by 64-bit word: 1 one bit, 2 two bits. -/
def execShelfScrubRead (t : TileId) (errs : List (Nat × Nat)) (s : State) : Res :=
  if s.shelfLive t && s.on (shScrub t) then
    let x := s.tile t
    let p := scrubFrom (s.enabledWays t) x.scrub
    let s1 := s.setTile t { x with
      eccErr := errs.foldl (fun m e => putMap 0 m (e.1 % 24576) (min (lookMap 0 m (e.1 % 24576) + e.2) 2)) x.eccErr,
      scrub := (p + 1) % 1536 }
    let r := s1.scrubLine t (p / 128) (p % 128)
    if r.1 = stWAIT then .next s else .next r.2
  else .next s

end Sys2Proof.Machine
end

