-- ==== Sys2Proof/Machine/FabCore.lean ====
section
/-! DEFINITION. Sending into the Grenlink fabric: routing by place address, fences and requests (R362 to R375). -/
namespace Sys2Proof.Machine

/-! Outbound windows (Table 11.8). -/
def outValid (w : Nat) : Fld := ⟨0x240000 + 32 * w, 0, 1⟩
def outRd (w : Nat) : Fld := ⟨0x240000 + 32 * w, 1, 1⟩
def outWr (w : Nat) : Fld := ⟨0x240000 + 32 * w, 2, 1⟩
def outOps (w : Nat) : Fld := ⟨0x240000 + 32 * w, 3, 1⟩
def outOpc (w : Nat) : Fld := ⟨0x240000 + 32 * w, 4, 4⟩
def outHatch (w : Nat) : Fld := ⟨0x240000 + 32 * w, 8, 8⟩
def outPlace (w : Nat) : Fld := ⟨0x240004 + 32 * w, 0, 32⟩
def outInflight (w : Nat) : Fld := ⟨0x240018 + 32 * w, 0, 32⟩
/-- OUT[w].OFFSET as a byte offset. -/
def State.outOffset (s : State) (w : Nat) : Nat := bitsAt (s.reg64 (0x240008 + 32 * w)) 12 36 * 4096
/-- OUT[w].SIZE. -/
def State.outSize (s : State) (w : Nat) : Nat := bitsAt (s.reg64 (0x240010 + 32 * w)) 0 39

/-! Registers (Tables 13.13 to 13.15). -/
def fabRouteRefused : Fld := ⟨0x280000, 16, 1⟩
def fabBadHdr : Fld := ⟨0x280010, 0, 32⟩
def fabHopLimit : Fld := ⟨0x280014, 0, 32⟩
def fabUnreachable : Fld := ⟨0x280018, 0, 32⟩
def fabLateResp : Fld := ⟨0x28001C, 0, 32⟩
def fabSpareDrops : Fld := ⟨0x280020, 0, 32⟩
def fabRespTimeouts : Fld := ⟨0x280024, 0, 32⟩
def fabMaxver (p : Nat) : Fld := ⟨0x290000 + 0x400 * p, 5, 2⟩
def fabWidth (p : Nat) : Fld := ⟨0x290008 + 0x400 * p, 4, 2⟩
def fabVer (p : Nat) : Fld := ⟨0x290008 + 0x400 * p, 6, 2⟩
def fabLanes (p : Nat) : Fld := ⟨0x290008 + 0x400 * p, 8, 4⟩
def fabFenceDiff (p : Nat) : Fld := ⟨0x290008 + 0x400 * p, 12, 1⟩
def fabTrainFails (p : Nat) : Fld := ⟨0x290008 + 0x400 * p, 16, 8⟩
def fabReplays (p : Nat) : Fld := ⟨0x29001C + 0x400 * p, 0, 32⟩
def fabFecCorr (p : Nat) : Nat := 0x290020 + 0x400 * p
def fabFecUncorr (p : Nat) : Fld := ⟨0x290028 + 0x400 * p, 0, 32⟩
/-- FAB.ROUTE[L][v], a 16-bit mask two to a word (Table 13.12). -/
def fabRoute (l v : Nat) : Fld := ⟨0x2A0000 + 0x40 * l + 4 * (v / 2), 16 * (v % 2), 16⟩
def levelRx (l : Nat) : Nat := 0x2B0008 + 0x40 * l
def levelPortsUp (l : Nat) : Fld := ⟨0x2B0018 + 0x40 * l, 8, 5⟩

/-- The field of a place address at each routing level: lowest bit and width (Table 0.6, R369). -/
def levelField (l : Nat) : Nat × Nat :=
  if l = 0 then (12, 3) else if l = 1 then (15, 4) else if l = 2 then (19, 5) else if l = 3 then (24, 5) else (29, 3)

/-- A place address with UNIT cleared. -/
def devPlace (a : Nat) : Nat := a / 4096 * 4096

/-- The level of a packet: the highest field in which two places differ, none where they are one device (R369). -/
def placeLevel (own dest : Nat) : Option Nat :=
  [4, 3, 2, 1, 0].find? fun l => decide (bitsAt own (levelField l).1 (levelField l).2 ≠ bitsAt dest (levelField l).1 (levelField l).2)

/-- The ports that R370 allows towards a place, ascending. -/
def State.routePorts (s : State) (dest : Nat) : List Nat :=
  match placeLevel s.place dest with
  | none => []
  | some l =>
    let v := bitsAt dest (levelField l).1 (levelField l).2
    (List.range 16).filter fun p => s.portUp p && decide (s.rd (fabLevel p) = l) && bitAt (s.rd (fabRoute l v)) p

/-- The port that R370 chooses among those that qualify: the lowest for SYNC_INC, else the lowest of those with the most free credits
in the packet's VC. -/
def State.sendPort (s : State) (k : Packet) : Option Nat :=
  match s.routePorts k.dest with
  | [] => none
  | p0 :: ps =>
    some (if k.type = 0x10 then p0 else ps.foldl (fun b p => if s.vcFree b k.vc < s.vcFree p k.vc then p else b) p0)

/-- Sends a packet, one that came by port `via` or one of this device: 0 when a port took it, 2 when the port's fence dropped it, 8 when
no port qualifies (R370, R371, R374, R375). A packet that stays in the ring level keeps to the upper half of its credits, or moves to it
where the link that it came by is the dateline (R361). -/
def State.sendVia (s : State) (via : Option Nat) (k : Packet) : Nat × State :=
  match s.sendPort k with
  | none => (8, s.bump fabUnreachable)
  | some p =>
    if s.fencePasses p k.vc k.job then
      let up := match via with
        | none => false
        | some a => decide (s.rd (fabLevel a) = 0) && decide (s.rd (fabLevel p) = 0) && (k.upper || s.on (fabDateline a))
      let q : FabHeld := ⟨p, via, { k with upper := up }⟩
      (0, if via.isSome && k.isAnswer then ((s.releaseFor k).fabPut q).pump else s.fabPut q)
    else (2, s.bump (fenceDrops p))

/-- Sends a packet of this device. -/
def State.sendPacket (s : State) (k : Packet) : Nat × State := s.sendVia none k

/-- The status with which a chunk ends on a response status (Table 13.7). -/
def respStatus (st : Nat) : Nat :=
  if st = 0 then 0 else if st ≤ 4 then stPERMISSION else if st = 6 then stCRC else if st = 7 then stENGINE else stABSENT

/-- The smallest tag that no request holds. -/
def State.freeTag (s : State) : Nat :=
  ((List.range 65536).find? fun t => !(s.fabReqs.any fun r => decide (r.tag = t))).getD 0

/-- A request packet through a hatch window (R322, Table 13.5). -/
def State.hatchPacket (s : State) (w : Window) (type len tag tally : Nat) (arr : Bool) (payload : List Byte) : Packet :=
  { dest := devPlace w.place, src := s.place, vc := if type = 1 then 2 else 5, type := type, job := s.rd jobId,
    hatch := w.hatch, off := w.off, len := len, opc := if type = 3 then w.opc else 0, hops := 0, step := 0, tag := tag,
    tally := tally, arr := arr, status := 0, payload := payload, crc := crc32c payload, hdrOk := true, upper := false }

/-- Sends a chunk's request through its window and records it with what its translations map (R314). Answers the tag, or the status with
which the chunk ends. -/
def State.sendHatch (s : State) (t pos : Nat) (spans : List (Nat × Nat)) (sdDone : Nat) (w : Window) (read : Bool) (len tally : Nat)
    (arr : Bool) (payload : List Byte) : Except Nat Nat × State :=
  let tag := s.freeTag
  let type := if read then 1 else if w.opc = 0 then 2 else 3
  let k := s.hatchPacket w type len tag tally arr payload
  let r := s.sendPacket k
  if r.1 = 0 then
    (.ok tag, { r.2 with fabReqs := r.2.fabReqs ++ [⟨tag, t, pos, w.w, (s.sendPort k).getD 0, read, spans, sdDone⟩] })
  else (.error (respStatus r.1), r.2)

/-- A window's fields as a chunk keeps them (R317, R319, R320). -/
def State.window (s : State) (w x : Nat) : Window :=
  ⟨w, s.rd (outPlace w), s.rd (outHatch w), s.outOffset w + x, if s.on (outOps w) then s.rd (outOpc w) else 0⟩

end Sys2Proof.Machine
end

