-- ==== Sys2Proof/Machine/Xlate.lean ====
section
/-! DEFINITION. Translation and shootdown (R298 to R316): the physical map, page walks, translation caches, the places that
tile accesses reach, and the commands of the XLT block. -/
namespace Sys2Proof.Machine

/-! Registers (Tables 11.7 to 11.10). -/
def xltRoot : Nat := 0x200000
def xltSdRange : Nat := 0x200010
def xltSdPages : Fld := ⟨0x200018, 0, 32⟩
def xltDoneSeq : Fld := ⟨0x200020, 0, 32⟩
def xltPending : Fld := ⟨0x200024, 0, 5⟩
def xltFull : Fld := ⟨0x200024, 5, 1⟩
def xltSeqErr : Fld := ⟨0x200024, 6, 1⟩
def xltRangeErr : Fld := ⟨0x200024, 7, 1⟩
def xltRootRefused : Fld := ⟨0x200024, 8, 1⟩
def xltFaults : Fld := ⟨0x200050, 0, 32⟩
def xltWithdrawn : Fld := ⟨0x200054, 0, 32⟩
def xltHostwDropped : Fld := ⟨0x200058, 0, 32⟩

/-- The place of a device physical address; none where the map is unassigned or holds device registers (R298, Table 11.1). -/
def placeOf (pa : Nat) : Option Place :=
  if pa < cellarSize then some (.cellar pa)
  else if pa < 0x10000000000 then none
  else if pa < 0x10180000000 then some (.shelf ((pa - 0x10000000000) / 0x40000) (pa % 0x40000))
  else if pa < 0x100000000000 then none
  else if pa < 0x200000000000 then
    let opc := (pa - 0x100000000000) / 2 ^ 40
    let a := pa % 2 ^ 40
    if opc = 0 ∨ cellarSize ≤ a then none else some (.opAlias opc a)
  else if pa < 0x300000000000 then some (.hostAp 0 (pa - 0x200000000000))
  else if pa < 0x400000000000 then some (.hostAp 1 (pa - 0x300000000000))
  else if pa < 0x800000000000 then some (.hatch ((pa - 0x400000000000) / 2 ^ 38) (pa % 2 ^ 38))
  else none

/-! Page walks (R301 to R305). -/

/-- What one table read gives. -/
inductive WalkRead where
  | next (level table : Nat)
  | leaf (e : Tlb)
  | bad (level reason : Nat)
  | wait
  deriving DecidableEq, Repr

/-- Lowest bit of the index that level `l` uses (Table 11.2). -/
def levelShift (l : Nat) : Nat := 39 - 9 * l

/-- 4 KiB pages that a leaf of level `l` maps (Table 11.2). -/
def leafPages (l : Nat) (cont : Bool) : Nat := if l = 1 then 512 * 512 else if l = 2 then 512 else if cont then 16 else 1

/-- Is an entry with V = 1 malformed at level `l` (R302, R303)? `same` says that the 16 entries of its line are identical. -/
def pteMalformed (l e : Nat) (same : Bool) : Bool :=
  let leaf := bitAt e 1
  let cont := bitAt e 4
  let pa := bitsAt e 12 36
  decide (bitsAt e 5 3 ≠ 0) || decide (bitsAt e 48 16 ≠ 0) || (leaf && decide (l = 0)) || (!leaf && decide (l = 3)) ||
    (!leaf && decide (bitsAt e 2 2 ≠ 0)) || (cont && decide (l ≠ 3)) ||
    (leaf && decide (pa % leafPages l cont ≠ 0)) || (!leaf && decide (cellarSize ≤ pa * 4096)) || (cont && !same)

/-- One table read of a walk for virtual page `vp` at a level (R301 to R304). -/
def State.walkRead (s : State) (vp level table : Nat) : WalkRead × State :=
  let idx := vp * 4096 / 2 ^ levelShift level % 512
  let ea := table + 8 * idx
  let r := if level = 3 then s.homeRead (ea / 128 * 128) 128 else s.homeRead ea 8
  match r.1 with
  | .bad st => if st = stWAIT then (.wait, s) else (.bad level 3, r.2)
  | .ok bs =>
    let e := ofBytes (if level = 3 then (bs.drop (ea % 128)).take 8 else bs)
    let same := decide (level = 3) &&
      (List.range 16).all fun i => decide (ofBytes ((bs.drop (8 * i)).take 8) = e)
    if !bitAt e 0 then (.bad level 0, r.2)
    else if pteMalformed level e same then (.bad level 1, r.2)
    else if bitAt e 1 then
      let n := leafPages level (bitAt e 4)
      (.leaf ⟨vp / n * n, n, bitsAt e 12 36 * 4096, bitAt e 2, bitAt e 3⟩, r.2)
    else (.next (level + 1) (bitsAt e 12 36 * 4096), r.2)

/-- Capacity of the micro-TLB, the translation cache and the walk cache (Table 11.4). A micro-TLB is kept in order of use, the least
recently used entry falling out; which entry the other two give up is free (log entry 23). -/
def tlbCap : Nat := 32
def tcCap : Nat := 2048
def wcCap : Nat := 64

/-- Does a held translation map virtual page `vp`? -/
def Tlb.covers (e : Tlb) (vp : Nat) : Bool := decide (e.vpage ≤ vp) && decide (vp < e.vpage + e.pages)

/-- Moves a translation to the front of a cache of capacity `cap`. -/
def touchTlb (cap : Nat) (es : List Tlb) (e : Tlb) : List Tlb := (e :: es.filter fun x => x ≠ e).take cap

/-- Puts an entry into a cache of `cap` entries in sets of `ways`. An entry may fall out once a set can be full, and one does once the
cache is full; which one is free (Table 11.4; log entry 23). -/
def State.putFree {α : Type} [DecidableEq α] (s : State) (cap ways : Nat) (es : List α) (e : α) : List α × State :=
  if e ∈ es then (es, s)
  else if es.length < ways then (e :: es, s)
  else
    let d := s.draw
    (e :: es.eraseIdx (d.1 % (if es.length < cap then es.length + 1 else es.length)), d.2)

/-- Where a walk for page `vp` begins: after the deepest walk-cache entry, else at the root (Table 11.4). -/
def State.walkStart (s : State) (c vp : Nat) : Nat × Nat :=
  let wc := (s.crate c).wc
  let hit := fun l => wc.find? fun e => decide (e.level = l) && decide (e.key = vp * 4096 / 2 ^ levelShift l)
  match hit 2 with
  | some e => (3, e.table)
  | none =>
    match hit 1 with
    | some e => (2, e.table)
    | none => (0, bitsAt (s.reg64 xltRoot) 12 36 * 4096)

/-- Holds a non-leaf entry read at level 1 or 2 in the walk cache. -/
def State.holdWalk (s : State) (c vp level table : Nat) : State :=
  if level = 1 ∨ level = 2 then
    let p := s.putFree wcCap wcCap (s.crate c).wc ⟨level, vp * 4096 / 2 ^ levelShift level, table⟩
    p.2.setCrate c { p.2.crate c with wc := p.1 }
  else s

/-- Holds a leaf in a crate's translation cache, and in a tile's micro-TLB. -/
def State.holdLeaf (s : State) (c : Nat) (ts : List Nat) (e : Tlb) : State :=
  let p := s.putFree tcCap 8 (s.crate c).tc e
  let s := p.2.setCrate c { p.2.crate c with tc := p.1 }
  ts.foldl (fun s t => let y := s.tile t; s.setTile t { y with tlb := touchTlb tlbCap y.tlb e }) s

/-- The result of a translation. -/
inductive XRes where
  | hit (e : Tlb)
  /-- Level at which the walk ended, 0xFF when no table was read, and the reason of Table 21.13. -/
  | fault (level reason : Nat)
  | wait
  deriving DecidableEq, Repr

/-- Walks the tables at once from a level and table, for at most `fuel` reads. -/
def State.walkNow (s : State) (c t vp : Nat) : Nat → Nat → Nat → XRes × State
  | 0, l, _ => (.fault l 1, s)
  | fuel + 1, level, table =>
    match s.walkRead vp level table with
    | (.next l tb, s1) => (s1.holdWalk c vp level tb).walkNow c t vp fuel l tb
    | (.leaf e, s1) => (.hit e, s1.holdLeaf c [t] e)
    | (.bad l r, s1) => (.fault l r, s1)
    | (.wait, _) => (.wait, s)

/-- Looks a page up in the micro-TLB and then in the crate's translation cache. -/
def State.tlbLook (s : State) (t vp : Nat) : Option (Tlb × State) :=
  let y := s.tile t
  match y.tlb.find? fun e => e.covers vp with
  | some e => some (e, s.setTile t { y with tlb := touchTlb tlbCap y.tlb e })
  | none =>
    match (s.crate (t / 64)).tc.find? fun e => e.covers vp with
    | some e => some (e, s.holdLeaf (t / 64) [t] e)
    | none => none

/-- The faults that no table read gives: an address at or beyond 2^48, ROOT.VALID = 0, a root outside the cellar (R300,
Table 11.7). -/
def State.rootFault (s : State) (va : Nat) : Option (Nat × Nat) :=
  if 2 ^ 48 ≤ va then some (0xFF, 4)
  else if !bitAt (s.reg64 xltRoot) 0 then some (0xFF, 0)
  else if cellarSize ≤ bitsAt (s.reg64 xltRoot) 12 36 * 4096 then some (0xFF, 2)
  else none

/-- Translates at once, as an engine's step does; a page whose walk is in progress in the crate waits for that walk (R618). -/
def State.xlateNow (s : State) (t va : Nat) : XRes × State :=
  match s.rootFault va with
  | some (l, r) => (.fault l r, s)
  | none =>
    match s.tlbLook t (va / 4096) with
    | some (e, s1) => (.hit e, s1)
    | none =>
      if (s.crate (t / 64)).walks.any fun w => decide (w.vpage = va / 4096) && w.bad.isNone then (.wait, s)
      else
      let p := s.walkStart (t / 64) (va / 4096)
      s.walkNow (t / 64) t (va / 4096) 4 p.1 p.2

/-- Translates for a mover chunk or a control core: a miss begins or joins a walk and waits for it (R618); a walk that ended in
a fault answers the requester once. `rq` is 2 × tile for the mover, 2 × tile + 1 for the core. Answers whether the state has
changed although the requester waits. -/
def State.xlateWait (s : State) (t rq va : Nat) : XRes × State :=
  match s.rootFault va with
  | some (l, r) => (.fault l r, s)
  | none =>
    match s.tlbLook t (va / 4096) with
    | some (e, s1) => (.hit e, s1)
    | none =>
      let c := t / 64
      let x := s.crate c
      let vp := va / 4096
      match x.walks.find? fun w => decide (w.vpage = vp) && (w.bad.isNone || decide (rq ∈ w.waiters)) with
      | some w =>
        match w.bad with
        | some (l, r) =>
          let w' := { w with waiters := w.waiters.filter fun y => decide (y ≠ rq) }
          let ws := x.walks.filterMap fun y => if y = w then (if w'.waiters.isEmpty then none else some w') else some y
          (.fault l r, s.setCrate c { x with walks := ws })
        | none =>
          if rq ∈ w.waiters then (.wait, s)
          else (.wait, s.setCrate c { x with
            walks := x.walks.map fun y => if y = w then { w with waiters := w.waiters ++ [rq] } else y })
      | none =>
        if 8 ≤ (x.walks.filter fun w => w.bad.isNone).length then (.wait, s)
        else
          let p := s.walkStart c vp
          (.wait, s.setCrate c { x with walks := x.walks ++ [⟨vp, p.1, p.2, [rq], none⟩] })

/-- WALK_TABLE_READ_COMPLETE (R301): the table read of a crate's nth walk in progress returns, and the walk continues, ends in a
leaf that the translation caches hold, or faults. -/
def execWalkTableReadComplete (c : CrateId) (n : Nat) (s : State) : Res :=
  let x := s.crate c
  match x.walks[n]? with
  | none => .next s
  | some w =>
    if w.bad.isSome || !s.crateRuns c then .next s
    else
      let put := fun (s : State) (f : Walk → Option Walk) =>
        let y := s.crate c
        s.setCrate c { y with walks := y.walks.filterMap fun v => if v = w then f v else some v }
      match s.walkRead w.vpage w.level w.table with
      | (.wait, _) => .next s
      | (.next l tb, s1) => .next (put (s1.holdWalk c w.vpage w.level tb) fun v => some { v with level := l, table := tb })
      | (.leaf e, s1) => .next (put (s1.holdLeaf c (w.waiters.map (· / 2)) e) fun _ => none)
      | (.bad l r, s1) => .next (put s1 fun v => some { v with bad := some (l, r) })

/-! Where an access goes, and with what status it ends (R298, R299, R306, R307, R313, R318). -/

/-- Level of the leaf that gave a translation. -/
def Tlb.level (e : Tlb) : Nat := if e.pages = 512 * 512 then 1 else if e.pages = 512 then 2 else 3

/-- Ends a translation that failed: MAP_WITHDRAWN where a shootdown accepted after the requester started covers the page
(R313), else XLATE_FAULT with the fault "translation fault" (R307). `a` is the address of Table 21.13. -/
def State.xlateFail (s : State) (t rq shoot vp a level reason : Nat) : Nat × State :=
  let n := s.sdNum - shoot
  if 16 < n || (s.sdRecent.take n).any fun p => decide (p.1 ≤ vp) && decide (vp < p.2) then
    (stWITHDRAWN, s.bump xltWithdrawn)
  else
    (stXLATE, (s.bump xltFaults).raise 0x0117 1 t (toBytes 8 a ++ toBytes 1 level ++ toBytes 1 reason ++ toBytes 1 rq))

/-- Judges a translated access: the place, or the status with which it ends. `kinds` lists what it needs: read and write
permission, either of which suffices when `anyPerm` is set (R213, R306). -/
def State.judge (s : State) (t rq shoot va : Nat) (e : Tlb) (rd wr anyPerm : Bool) : (Except Nat Place) × State :=
  let pa := e.pbase + (va - 4096 * e.vpage)
  let fail := fun (a reason : Nat) => let r := s.xlateFail t rq shoot (va / 4096) a e.level reason; (Except.error r.1, r.2)
  match placeOf pa with
  | none => fail va 2
  | some p =>
    let hatchBad := match p with
      | .hatch w x => !s.on (outValid w) || decide (s.outSize w ≤ x)
      | _ => false
    if hatchBad then fail pa 2
    else
      let leafOk := if anyPerm then e.rd || e.wr else (!rd || e.rd) && (!wr || e.wr)
      let winOk := match p with
        | .hatch w _ => (!rd || s.on (outRd w)) && (!wr || s.on (outWr w))
        | _ => true
      if leafOk && winOk then (.ok p, s) else (.error stPERMISSION, s)

/-- Judges a translated maintenance chunk (R213, R214): 0 where it maps outside the cellar, which needs only the page's permission, else 1 +
the base of its page in the cellar. -/
def State.judgeMaint (s : State) (t shoot va : Nat) (e : Tlb) (anyPerm : Bool) : (Except Nat Nat) × State :=
  let pa := e.pbase + (va - 4096 * e.vpage)
  match placeOf pa with
  | none => let q := s.xlateFail t 0 shoot (va / 4096) va e.level 2; (.error q.1, q.2)
  | some p =>
    if !(e.wr || (anyPerm && e.rd)) then (.error stPERMISSION, s)
    else match p with
      | .cellar a => (.ok (1 + a / 4096 * 4096), s)
      | _ => (.ok 0, s)

/-- Translates at once and judges the access. -/
def State.reachNow (s : State) (t rq shoot va : Nat) (rd wr : Bool) : (Except Nat Place) × State :=
  match s.xlateNow t va with
  | (.hit e, s1) => s1.judge t rq shoot va e rd wr false
  | (.fault l r, s1) => let q := s1.xlateFail t rq shoot (va / 4096) va l r; (.error q.1, q.2)
  | (.wait, _) => (.error stWAIT, s)

/-! Accesses to places (R36, R72, R74, R253, R299, R326, R418). -/

/-- Does an access to tile `u`'s shelf go through: 0, or the status with which it ends, or a wait at a crate whose clock has failed? It
starts the clock of a crate stopped by request, and ungates the tile (R70, R72 to R74, R574). -/
def State.shelfStatus (s : State) (u : Nat) : Nat × State :=
  if !s.tileOn u then (stABSENT, s)
  else if s.offline 2 (u / 64) then (stABSENT, s.disagree 2 (u / 64))
  else
    let s := s.arouse (64 + u / 64)
    if !s.crateRuns (u / 64) then (stWAIT, s) else (0, s.ungate u)

/-- Reads a tile's scratch through the shelf aperture (R299). -/
def State.apertureRead (s : State) (u off n : Nat) : Access × State :=
  let r := s.shelfStatus u
  if r.1 ≠ 0 then (.bad r.1, r.2)
  else if min 0x30000 (r.2.scratchEnd u) < off + n then (.bad stPERMISSION, r.2.bump (apertureDrops (u / 64)))
  else r.2.scratchRead u off n

/-- Writes a tile's scratch through the shelf aperture: the header area of a running tile takes none and the drop is counted
(R36, R299). -/
def State.apertureWrite (s : State) (u off : Nat) (bs : List Byte) : Nat × State :=
  let r := s.shelfStatus u
  if r.1 ≠ 0 then r
  else
    let s := r.2
    if min 0x30000 (s.scratchEnd u) < off + bs.length then (stPERMISSION, s.bump (apertureDrops (u / 64)))
    else if !s.on (tHold u) && decide (off < 0x1000) then
      let s := s.bump (apertureDrops (u / 64))
      (0, s.scratchWrite u 0x1000 (bs.drop (0x1000 - off)))
    else (0, s.scratchWrite u off bs)

/-- HP[p].STAT and CFG bits (Table 14.8). -/
def hpLinkUp (p : Nat) : Fld := ⟨0x10000 + 0x1000 * p, 0, 1⟩
def hpBme (p : Nat) : Fld := ⟨0x10000 + 0x1000 * p, 10, 1⟩
def hpIdeSecure (p : Nat) : Fld := ⟨0x10000 + 0x1000 * p, 12, 4⟩
def hpIdeRequired (p : Nat) : Fld := ⟨0x10004 + 0x1000 * p, 2, 1⟩

/-- Does an address-association block of a Secure stream of port `p` cover `n` bytes at host bus address `a` (R419, R420)? -/
def State.ideCovers (s : State) (p a n : Nat) : Bool :=
  (lookMap HPort.fresh s.hports p).ideAssoc.any fun q =>
    bitAt (s.rd (hpIdeSecure p)) (q.1 / 2) && decide (q.2.1 ≤ a) && decide (a + max n 1 - 1 ≤ q.2.2)

/-- May the device send requests for `n` bytes at host bus address `a` to the host of port `p` (R416, R418, R420)? -/
def State.hostReach (s : State) (p a n : Nat) : Bool :=
  s.on (hpLinkUp p) && s.on (hpBme p) && (!s.on (hpIdeRequired p) || s.ideCovers p a n)

/-- The host bus address of aperture offset `x` (R326). -/
def State.hostBus (s : State) (p x : Nat) : Nat := (s.reg64 (0x200040 + 8 * p) / 2 ^ 20 * 2 ^ 20 + x) % 2 ^ 64

/-- Reads host memory through an aperture. What the host itself writes there between steps is not modelled (log entry 24). -/
def State.hostRead (s : State) (p x n : Nat) : Access :=
  if s.hostReach p (s.hostBus p x) n then .ok (readBytes (if p = 0 then s.hostA else s.hostB) (s.hostBus p x) n) else .bad stABSENT

/-- Writes host memory through an aperture. -/
def State.hostWrite (s : State) (p x : Nat) (bs : List Byte) : Nat × State :=
  if s.hostReach p (s.hostBus p x) bs.length then
    (0, if p = 0 then { s with hostA := writeBytes s.hostA (s.hostBus p x) bs }
        else { s with hostB := writeBytes s.hostB (s.hostBus p x) bs })
  else (stABSENT, s)

/-- Runs `f` over the parts of n bytes at address `a` that each lie in one 128-byte line, joining what they read. -/
def readLines (f : State → Nat → Nat → Access × State) : Nat → Nat → Nat → State → Access × State
  | 0, _, _, s => (.ok [], s)
  | fuel + 1, a, n, s =>
    if n = 0 then (.ok [], s)
    else
      let m := min n (128 - a % 128)
      match f s a m with
      | (.ok d, s1) =>
        match readLines f fuel (a + m) (n - m) s1 with
        | (.ok d', s2) => (.ok (d ++ d'), s2)
        | r => r
      | r => r

/-- Runs `f` over the parts of a write that each lie in one 128-byte line, stopping at the first status that is not 0. -/
def writeLines (f : State → Nat → List Byte → Nat × State) : Nat → Nat → List Byte → State → Nat × State
  | 0, _, _, s => (0, s)
  | fuel + 1, a, bs, s =>
    if bs.isEmpty then (0, s)
    else
      let m := 128 - a % 128
      match f s a (bs.take m) with
      | (0, s1) => writeLines f fuel (a + m) (bs.drop m) s1
      | r => r

/-- Lines that n bytes at address a may touch. -/
def lineFuel (n : Nat) : Nat := n / 128 + 2

/-- A response status that a remote device may give, freely, as the status of Table 2.10 with which the access then ends (Table 13.7; log
entry 25). -/
def State.freeStatus (s : State) : Nat × State :=
  let d := s.draw
  (respStatus (d.1 % 9), d.2)

/-- A read of an engine or a core through an outbound window (R317, R318): the RD_REQ is sent, and what the remote device answers, the
bytes and the status, is free (log entry 25); the response that comes later ends only the count INFLIGHT. -/
def State.hatchRead (s : State) (t pos : Nat) (spans : List (Nat × Nat)) (w x n : Nat) : Access × State :=
  let r := (s.bump (outInflight w)).sendHatch t pos spans (s.crate (t / 64)).sdDone (s.window w x) true n 0 false []
  match r.1 with
  | .ok _ =>
    let st := r.2.freeStatus
    let d := st.2.draw
    (if st.1 = 0 then .ok (toBytes n d.1) else .bad st.1, d.2)
  | .error st => (.bad st, r.2.wr (outInflight w) (r.2.rd (outInflight w) - 1))

/-- Reads n bytes of a place for tile `t`, within one page (R204, R253). -/
def State.placeRead (s : State) (t : Nat) (p : Place) (n vpage : Nat) : Access × State :=
  match p with
  | .cellar a => readLines (fun s a n => s.cachedRead t a n vpage) (lineFuel n) a n s
  | .shelf u off => s.apertureRead u off n
  | .opAlias _ a => readLines (fun s a n => s.tileHomeRead t a n) (lineFuel n) a n s
  | .hostAp q x => (s.hostRead q x n, s)
  | .hatch w x => s.hatchRead t (2 ^ 40) [(vpage, 1)] w x n

/-- Writes an operation alias (R253, R256): OPC 0xF takes a 32-byte record. At a target that is not aligned to its size the home answers
STATUS 2 (R257); any other size, or a place that is aligned to the target's size and not to 32, is dropped (log entry 60). -/
def State.aliasWrite (s : State) (t opc a : Nat) (bs : List Byte) : Nat × State :=
  if opc = 15 then
    let r := BitVec.ofNat 256 (ofBytes bs)
    if bs.length = 32 ∧ (a % 32 = 0 ∨ a % (if frSize r = 0 then 4 else 8) ≠ 0) then s.homeFetch t a r
    else
      match s.locate a with
      | none => (stABSENT, s)
      | some l => (0, s.raise 0x0400 6 l.home [])
  else writeLines (fun s a bs => s.homeOp opc a bs) (lineFuel bs.length) a bs s

/-- Sends a write of an engine or a core through an outbound window (R317 to R320, R322). The status of its acknowledgement is free (log
entry 25); the acknowledgement that comes later ends only the count INFLIGHT. -/
def State.hatchWrite (s : State) (t pos : Nat) (spans : List (Nat × Nat)) (w x : Nat) (bs : List Byte) : Nat × State :=
  let r := (s.bump (outInflight w)).sendHatch t pos spans (s.crate (t / 64)).sdDone (s.window w x) false bs.length 0 false bs
  match r.1 with
  | .ok _ => r.2.freeStatus
  | .error st => (st, r.2.wr (outInflight w) (r.2.rd (outInflight w) - 1))

/-- Writes bytes to a place for tile `t`, within one page. The mover sends its own hatch writes, which it awaits (`Mover`). -/
def State.placeWrite (s : State) (t : Nat) (p : Place) (bs : List Byte) (vpage : Nat) : Nat × State :=
  match p with
  | .cellar a => writeLines (fun s a bs => s.cachedWrite t a bs vpage) (lineFuel bs.length) a bs s
  | .shelf u off => s.apertureWrite u off bs
  | .opAlias opc a => s.aliasWrite t opc a bs
  | .hostAp q x => s.hostWrite q x bs
  | .hatch w x => s.hatchWrite t (2 ^ 40) [(vpage, 1)] w x bs

/-- SHELF_APERTURE_ACCESS (R299): an access of a unit outside the tile to a scratch offset of tile `u`: a read of n bytes, or a
write of the bytes given. -/
def execShelfApertureAccess (u : TileId) (off : Nat) (write : Option (List Byte)) (n : Nat) (s : State) : Res :=
  match write with
  | some bs =>
    let r := s.apertureWrite u off bs
    if r.1 = stWAIT then .next s else .next { r.2 with answer := ⟨if r.1 = 0 then 0 else 4, []⟩ }
  | none =>
    match s.apertureRead u off n with
    | (.bad 255, _) => .next s
    | (x, s1) => .next { s1 with answer := x.answer n }

/-! The XLT block's commands (R308 to R316). -/

/-- Drops every translation that the device holds (R309). -/
def State.dropXlate (s : State) : State :=
  { s with tiles := s.tiles.foldl (fun m p => putMap Tile.fresh m p.1 { p.2 with tlb := [] }) [],
           crates := s.crates.foldl (fun m p => putMap Crate.fresh m p.1 { p.2 with tc := [], wc := [] }) [] }

/-- Counts a host port's write that XLT or HATCH ignores (R308). -/
def State.xltDropped (s : State) (src : Src) : State := if src.isPort then s.bump xltHostwDropped else s

/-- A write of XLT.ROOT, as the whole register stands after it (R309). -/
def State.rootWrite (s : State) (v : Nat) : State :=
  let v := setBits (setBits v 1 11 0) 48 16 0
  if !s.jobAdmitted && (!bitAt v 0 || decide (bitsAt v 12 36 * 4096 < cellarSize)) then (s.setReg64 xltRoot v).dropXlate
  else s.wr xltRootRefused 1

/-- XLT_ROOT_WRITE (R309). -/
def execXltRootWrite (src : Src) (v : BitVec 64) (s : State) : Res :=
  if s.mayWrite src xltRoot && s.domOn 22 then .next (s.rootWrite v.toNat) else .next (s.xltDropped src)

/-- Submits a shootdown (R310). -/
def State.sdSubmit (s : State) (seq : Nat) : State :=
  let r := s.reg64 xltSdRange
  let all := bitAt r 0
  let pages := s.rd xltSdPages
  let badSeq := decide (seq ≠ (s.sdLast + 1) % 2 ^ 32)
  let full := decide (16 ≤ s.sds.length)
  let empty := !all && decide (pages = 0)
  if badSeq || full || empty then
    let s := if badSeq then s.wr xltSeqErr 1 else s
    let s := if full then s.wr xltFull 1 else s
    if empty then s.wr xltRangeErr 1 else s
  else
    let lo := if all then 0 else bitsAt r 12 36
    let hi := if all then 2 ^ 36 else lo + pages
    let d : Shootdown := ⟨seq, s.sdNum + 1, lo, hi, []⟩
    let s1 : State := { s with sds := s.sds ++ [d], sdNum := s.sdNum + 1, sdLast := seq,
                               sdRecent := ((lo, hi) :: s.sdRecent).take 16 }
    s1.wr xltPending (s.sds.length + 1)

/-- SHOOTDOWN_SUBMIT (R310): a write of XLT.SD_SEQ. -/
def execShootdownSubmit (src : Src) (w : BitVec 32) (s : State) : Res :=
  if s.mayWrite src 0x20001C && s.domOn 22 then .next (s.sdSubmit w.toNat) else .next (s.xltDropped src)

/-- Do two ranges of pages overlap? -/
def pagesMeet (a n lo hi : Nat) : Bool := decide (a < hi) && decide (lo < a + n)

/-- Cleans and invalidates every line of a tile whose allocating page lies in a range (R311 step 3). -/
def State.sdTile (s : State) (t lo hi : Nat) : Nat × State :=
  let hit := (s.tile t).lines.filter fun p => decide (lo ≤ p.2.vpage) && decide (p.2.vpage < hi)
  hit.foldl (fun q p =>
    if q.1 = stWAIT then q
    else
      let r := q.2.cleanInvLine t (p.1 % 12) (p.1 / 12)
      (if r.1 = stWAIT then stWAIT else 0, r.2)) (0, s)

/-- Applies a shootdown in a crate (R311): drops its translations, restarts the walks it meets, and cleans the lines of its
tiles. -/
def State.sdApply (s : State) (c : Nat) (d : Shootdown) : Nat × State :=
  let x := s.crate c
  let keep := fun (e : Tlb) => !pagesMeet e.vpage e.pages d.lo d.hi
  let keepW := fun (e : WalkEntry) =>
    let n := 2 ^ levelShift e.level / 4096
    !pagesMeet (e.key * n) n d.lo d.hi
  let root := bitsAt (s.reg64 xltRoot) 12 36 * 4096
  let s := s.setCrate c { x with
    tc := x.tc.filter keep, wc := x.wc.filter keepW, sdDone := d.num,
    walks := x.walks.map fun w =>
      if w.bad.isNone && decide (d.lo ≤ w.vpage) && decide (w.vpage < d.hi) then { w with level := 0, table := root } else w }
  (((s.tiles.map (·.1)).filter fun t => decide (t / 64 = c))).foldl
    (fun q t =>
      if q.1 = stWAIT then q
      else
        let y := q.2.tile t
        -- a load whose fill has not come translates again
        let fill := y.fill.filter fun f => !(decide (d.lo ≤ f.2) && decide (f.2 < d.hi))
        (q.2.setTile t { y with tlb := y.tlb.filter keep, fill := fill }).sdTile t d.lo d.hi) (0, s)

/-- SHOOTDOWN_CRATE_APPLY (R311): a crate applies the oldest pending shootdown that it has not applied. A crate whose clock is
off is woken first by the request (R72), unless a fault stopped it. -/
def execShootdownCrateApply (c : CrateId) (s : State) : Res :=
  match s.sds.find? fun d => !(decide (c.val ∈ d.applied)) with
  | none => .next s
  | some d =>
    let s0 := s
    let s := s.arouse (64 + c)
    if s.crateOn c && !s.crateRuns c then .next s0
    else
      let r := s.sdApply c d
      if r.1 = stWAIT then .next s0
      else .next { r.2 with sds := r.2.sds.map fun e => if e.num = d.num then { e with applied := e.applied ++ [c.val] } else e }

/-- Does a transfer translated after `num` shootdowns, by translations that map the pages `spans`, meet the range of a shootdown that its
crate had not yet applied (R314)? -/
def Shootdown.meets (d : Shootdown) (num : Nat) (spans : List (Nat × Nat)) : Bool :=
  decide (num < d.num) && spans.any fun v => pagesMeet v.1 v.2 d.lo d.hi

/-- Does a chunk in flight delay the posting of a shootdown (R314)? -/
def Chunk.delays (k : Chunk) (d : Shootdown) : Bool := d.meets k.sdDone k.spans

/-- Has the crate of tile `t` applied a shootdown of a page that a chunk's translations map since it was translated? The chunk then goes to
the old page at its home, and no line of it is held (R209, R312, R314). -/
def State.stale (s : State) (t : Nat) (k : Chunk) : Bool := s.sds.any fun d => k.delays d && decide (t / 64 ∈ d.applied)

/-- The chunks in flight of every mover. -/
def State.flights (s : State) : List Chunk :=
  s.tiles.flatMap fun p => match p.2.eng2.run with
    | some r => r.flight
    | none => []

/-- SHOOTDOWN_POST (R314, R315): once every crate has applied the oldest pending shootdown, and neither a chunk in flight nor a request
that awaits its response from a remote device meets its range, its sequence is posted in DONE_SEQ, and APLIC source 4 signals it. -/
def execShootdownPost (s : State) : Res :=
  match s.sds with
  | [] => .next s
  | d :: ds =>
    if ((List.range 384).all fun c => decide (c ∈ d.applied)) && !(s.flights.any fun k => k.delays d) &&
        !(s.fabReqs.any fun q => d.meets q.sdDone q.spans) then
      .next (((State.wr { s with sds := ds } xltDoneSeq d.seq).wr xltPending ds.length).aplicSignal 4)
    else .next s

end Sys2Proof.Machine
end

