-- ==== Sys2Proof/Machine/BufIO.lean ====
section
/-! DEFINITION. Reads and writes of a descriptor's buffers as an engine's step makes them: SHELF buffers reach the tile's own
scratch, VA buffers are cut at 4 KiB virtual pages and each part is translated at once (R53 to R55, R204, R300, R307). -/
namespace Sys2Proof.Machine

/-- The part of n bytes at virtual address va that lies in its page. -/
def inPage (va n : Nat) : Nat := min n (4096 - va % 4096)

/-- Reads n bytes at virtual address va. `rq` is the requester of Table 21.13. -/
def State.vaRead (s : State) (t rq shoot : Nat) : Nat → Nat → Nat → Access × State
  | 0, _, _ => (.ok [], s)
  | fuel + 1, va, n =>
    if n = 0 then (.ok [], s)
    else
      let m := inPage va n
      match s.reachNow t rq shoot va true false with
      | (.error st, s1) => (.bad st, s1)
      | (.ok p, s1) =>
        match s1.placeRead t p m (va / 4096) with
        | (.ok d, s2) =>
          match s2.vaRead t rq shoot fuel (va + m) (n - m) with
          | (.ok d', s3) => (.ok (d ++ d'), s3)
          | r => r
        | r => r

/-- Writes bytes at virtual address va. -/
def State.vaWrite (s : State) (t rq shoot : Nat) : Nat → Nat → List Byte → Nat × State
  | 0, _, _ => (0, s)
  | fuel + 1, va, bs =>
    if bs.isEmpty then (0, s)
    else
      let m := inPage va bs.length
      match s.reachNow t rq shoot va false true with
      | (.error st, s1) => (st, s1)
      | (.ok p, s1) =>
        match s1.placeWrite t p (bs.take m) (va / 4096) with
        | (0, s2) => s2.vaWrite t rq shoot fuel (va + m) (bs.drop m)
        | r => r

/-- Pages that n bytes may touch. -/
def pageFuel (n : Nat) : Nat := n / 4096 + 2

/-- Where n bytes at virtual address va lie, page by page, with the virtual page and length of each part. -/
def State.vaReach (s : State) (t rq shoot : Nat) : Nat → Nat → Nat → (Except Nat (List (Place × Nat × Nat))) × State
  | 0, _, _ => (.ok [], s)
  | fuel + 1, va, n =>
    if n = 0 then (.ok [], s)
    else
      let m := inPage va n
      match s.reachNow t rq shoot va false true with
      | (.error st, s1) => (.error st, s1)
      | (.ok p, s1) =>
        match s1.vaReach t rq shoot fuel (va + m) (n - m) with
        | (.ok ps, s2) => (.ok ((p, va / 4096, m) :: ps), s2)
        | r => r

/-- Writes the parts of a field in order, stopping at the first status that is not 0. -/
def State.partsWrite (s : State) (t : Nat) : List (Place × Nat × Nat) → List Byte → Nat × State
  | [], _ => (0, s)
  | (p, vp, m) :: ps, bs =>
    match s.placeWrite t p (bs.take m) vp with
    | (0, s1) => s1.partsWrite t ps (bs.drop m)
    | r => r

/-- Writes one field of a record, which holds its earlier or its new value and never a part of each (R621): every page is translated
before a byte is written, and a field that cannot be written whole is not written. -/
def State.fieldWrite (s : State) (t rq shoot va : Nat) (bs : List Byte) : Nat × State :=
  match s.vaReach t rq shoot 2 va bs.length with
  | (.error st, s1) => (st, s1)
  | (.ok ps, s1) =>
    match s1.partsWrite t ps bs with
    | (0, s2) => (0, s2)
    | (st, _) => (st, s1)

/-- Reads n bytes at offset `off` of a buffer. -/
def State.bufRead (s : State) (t rq shoot : Nat) (b : BitVec 128) (off n : Nat) : Access × State :=
  if n = 0 then (.ok [], s)
  else if bKind b = 1 then
    if s.scratchEnd t < bBase b + off + n then (.bad stPERMISSION, s) else s.scratchRead t (bBase b + off) n
  else s.vaRead t rq shoot (pageFuel n) (bBase b + off) n

/-- Writes bytes at offset `off` of a buffer. Answers 0 or the status. -/
def State.bufWrite (s : State) (t rq shoot : Nat) (b : BitVec 128) (off : Nat) (bs : List Byte) : Nat × State :=
  if bs.isEmpty then (0, s)
  else if bKind b = 1 then
    if s.scratchEnd t < bBase b + off + bs.length then (stPERMISSION, s) else (0, s.scratchWrite t (bBase b + off) bs)
  else s.vaWrite t rq shoot (pageFuel bs.length) (bBase b + off) bs

/-- Ends a run with a status; DESCRIPTOR_COMPLETE writes it out. -/
def State.endRun (s : State) (t e : Nat) (r : Run) (st : Nat) : State :=
  let g := (s.tile t).eng e
  s.setEng t e { g with run := some { r with ended := some st } }

/-- Sets the run of an engine. -/
def State.setRun (s : State) (t e : Nat) (r : Run) : State :=
  let g := (s.tile t).eng e
  s.setEng t e { g with run := some r }

end Sys2Proof.Machine
end

