-- ==== Sys2Proof/Machine/Mover.lean ====
section
/-! DEFINITION. The mover (R50 to R62, R212 to R216, R366): copies, chunks, arrivals and shelf maintenance descriptors. -/
namespace Sys2Proof.Machine

/-! Fields of the copy descriptor (Table 2.11b). -/
def mSrcBuf (d : BitVec 512) : Nat := dBits d 104 4
def mDstBuf (d : BitVec 512) : Nat := dBits d 108 4
def mIdxBuf (d : BitVec 512) : Nat := dBits d 112 4
def mMode (d : BitVec 512) : Nat := dBits d 116 3
def mIdxW (d : BitVec 512) : Nat := if dBits d 119 1 = 1 then 2 else 4
def mSs1 (d : BitVec 512) : Int := signedOf 32 (dBits d 256 32)
def mDs1 (d : BitVec 512) : Int := signedOf 32 (dBits d 288 32)
def mSs2 (d : BitVec 512) : Int := signedOf 32 (dBits d 320 32)
def mDs2 (d : BitVec 512) : Int := signedOf 32 (dBits d 352 32)
def mArrTally (d : BitVec 512) : Nat := dBits d 416 16
def mArrEn (d : BitVec 512) : Bool := dBits d 432 1 = 1
def mIdxOff (d : BitVec 512) : Nat := dBits d 448 40
/-- Reserved bits of the copy descriptor beyond the header. -/
def mRsv (d : BitVec 512) : Nat := dBits d 120 8 + dBits d 168 24 + dBits d 433 15 + dBits d 488 24

/-- Late-bindable fields of the copy descriptor: LATE_MASK bit and lowest descriptor bit. -/
def moverLate : List (Nat × Nat) := [(0, 192), (1, 224), (2, 384), (3, 64), (4, 128)]

def Run.mLength (r : Run) : Nat := lateField r.desc r.lbv 0 192 32
def Run.mCount1 (r : Run) : Nat := lateField r.desc r.lbv 1 224 32
def Run.mCount2 (r : Run) : Nat := lateField r.desc r.lbv 2 384 32
def Run.mSrcOff (r : Run) : Nat := lateField r.desc r.lbv 3 64 40
def Run.mDstOff (r : Run) : Nat := lateField r.desc r.lbv 4 128 40
/-- Bytes that the transfer moves. -/
def Run.mTotal (r : Run) : Nat := r.mLength * r.mCount1 * r.mCount2

/-- The byte range of a strided side. -/
def stridedExtent (buf : Nat) (off : Nat) (len c1 c2 : Nat) (s1 s2 : Int) (rd wr : Bool) : Extent :=
  let a := ((c1 : Int) - 1) * s1
  let b := ((c2 : Int) - 1) * s2
  ⟨buf, (off : Int) + min 0 a + min 0 b, (off : Int) + max 0 a + max 0 b + len, rd, wr⟩

/-- The extents checked at the start (R53, R55): both sides, and the index list; the indexed side only for its permission. -/
def Run.mExtents (r : Run) : List Extent :=
  let d := r.desc
  let src := stridedExtent (mSrcBuf d) r.mSrcOff r.mLength r.mCount1 r.mCount2 (mSs1 d) (mSs2 d) true false
  let dst := stridedExtent (mDstBuf d) r.mDstOff r.mLength r.mCount1 r.mCount2 (mDs1 d) (mDs2 d) false true
  let idx : Extent := ⟨mIdxBuf d, mIdxOff d, (mIdxOff d + r.mCount1 * mIdxW d : Nat), true, false⟩
  if mMode d = 0 then [src, dst]
  else if mMode d = 1 then [⟨mSrcBuf d, 0, 0, true, false⟩, dst, idx]
  else [src, ⟨mDstBuf d, 0, 0, false, true⟩, idx]

/-- Do any two of the extents overlap (R57)? Source and destination reading the same range do not concern it. -/
def Run.mOverlap (r : Run) : Bool :=
  match r.mExtents with
  | [a, b] => r.extentsMeet a b
  | [a, b, c] => r.extentsMeet a b || r.extentsMeet a c || r.extentsMeet b c
  | _ => false

/-- Is the transfer issued in descending order (R57)? -/
def Run.mDown (r : Run) : Bool :=
  decide (mMode r.desc = 0) && r.mOverlap &&
    decide (bBase (r.buf (mSrcBuf r.desc)) + r.mSrcOff < bBase (r.buf (mDstBuf r.desc)) + r.mDstOff)

/-- Is the copy descriptor malformed (R45, R50)? COUNT2 = 0 is, in GATHER and SCATTER, although R51 calls a count of 0 valid (DESIGN CHOICE, log
entry 68). -/
def Run.mIllegal (r : Run) : Bool :=
  let d := r.desc
  decide (hOp d ≠ 1) || decide (hRsv d ≠ 0) || decide (mRsv d ≠ 0) || !lateOk d moverLate [] || decide (2 < mMode d) ||
    (decide (mMode d ≠ 0) && decide (r.mCount2 ≠ 1)) ||
    !(r.bufs.all fun b => bValid b.2)

/-- The buffers that a copy descriptor refers to (R45). -/
def mBufs (d : BitVec 512) : List Nat :=
  if mMode d = 0 then [mSrcBuf d, mDstBuf d] else [mSrcBuf d, mDstBuf d, mIdxBuf d]

/-- Sends the arrival increment of a transfer that has ended well (R62). -/
def State.arrive (s : State) (t : Nat) (r : Run) : State :=
  match r.recv with
  | some u => if mArrEn r.desc then s.sendInc ⟨mArrTally r.desc, some u, 1, 0, t, u / 6144⟩ else s
  | none => s

/-- Finds where the arrival increment goes (R51, R62): the kind of destination, 1 shelf or 2 hatch, with its place. -/
def State.arrivalKind (s : State) (t : Nat) (r : Run) : (Except Nat (Nat × Place)) × State :=
  let b := r.buf (mDstBuf r.desc)
  if bKind b = 1 then (.ok (1, .shelf t (bBase b + r.mDstOff)), s)
  else
    match s.reachNow t 0 r.shoot (bBase b + r.mDstOff) false true with
    | (.error st, s1) => (.error st, s1)
    | (.ok p, s1) =>
      match p with
      | .shelf _ _ => (.ok (1, p), s1)
      | .hatch _ _ => (.ok (2, p), s1)
      | _ => (.error stILLEGAL, s1)

/-- A transfer that moves no byte (R51). -/
def State.moverNoop (s : State) (t : Nat) (r : Run) : State :=
  if mArrEn r.desc then
    match s.arrivalKind t r with
    | (.error st, s1) => s1.endRun t 2 r st
    | (.ok (_, .shelf u _), s1) => let r := { r with recv := some u }; (s1.arrive t r).endRun t 2 r stDONE
    | (.ok (_, p), s1) =>
      -- an arrival of no bytes through a hatch
      match p with
      | .hatch w x =>
        let va := (bBase (r.buf (mDstBuf r.desc)) + r.mDstOff) / 4096
        let c : Chunk := ⟨0, 0, p, false, [], crc32c [], va, [(va, 1)], (s1.crate (t / 64)).sdDone, none, some (s1.window w x), true, none, true⟩
        (s1.bump (outInflight w)).setRun t 2 { r with flight := [c] }
      | _ => s1.endRun t 2 r stILLEGAL
  else s.endRun t 2 r stDONE

/-- Starts a copy descriptor: the checks of R619 in order, then the destination of ARR_EN (R45 to R57, R62),
whose place in that order is the model's choice (log entry 68). -/
def State.moverStart (s : State) (t : Nat) (x : Slot) : State :=
  let r := s.newRun t x (s.lateValues t x.desc moverLate) (mBufs x.desc) s.sdNum
  let p := s.startRead t x (mBufs x.desc)
  let s := p.2.beginRun t 2 r
  if p.1 then s.endRun t 2 r stENGINE
  else if r.mIllegal then s.endRun t 2 r stILLEGAL
  else if r.mTotal = 0 then s.moverNoop t r
  else if 2 ^ 40 ≤ r.mTotal then s.endRun t 2 r stBOUND
  else
    let single := decide (mMode r.desc = 0) && decide (r.mCount1 = 1) && decide (r.mCount2 = 1)
    match s.checkExtents t r r.mExtents (r.mOverlap && !single) with
    | some st => s.endRun t 2 r st
    | none =>
      if mArrEn r.desc then
        match s.arrivalKind t r with
        | (.error st, s1) => s1.endRun t 2 r st
        | (.ok (k, _), s1) => s1.setRun t 2 { r with destKind := k }
      else s

/-- Starts the head descriptor of the mover queue where `p` picks it. -/
def State.moverCmd (s : State) (t : Nat) (p : BitVec 512 → Bool) (go : State → Slot → State) : Res :=
  match s.startable t 2 with
  | some x =>
    if p x.desc then
      let s1 := go s x
      -- a translation that must wait leaves the descriptor for a later step
      match ((s1.tile t).eng2).run with
      | some r => if r.ended = some stWAIT then .next s else .next s1
      | none => .next s1
    else .next s
  | none => .next s

/-- MOVER_STRIDED (R53): starts a copy descriptor in STRIDED mode. A descriptor with an undefined OP or MODE is also started
here, and ends ILLEGAL. -/
def execMoverStrided (t : TileId) (s : State) : Res :=
  s.moverCmd t (fun d => decide (hOp d ≠ 2) && (decide (hOp d ≠ 1) || decide (mMode d ≠ 1 ∧ mMode d ≠ 2)))
    (fun s x => s.moverStart t x)

/-- MOVER_GATHER (R54): starts a copy descriptor in GATHER mode. -/
def execMoverGather (t : TileId) (s : State) : Res :=
  s.moverCmd t (fun d => decide (hOp d = 1) && decide (mMode d = 1)) (fun s x => s.moverStart t x)

/-- MOVER_SCATTER (R56): starts a copy descriptor in SCATTER mode. -/
def execMoverScatter (t : TileId) (s : State) : Res :=
  s.moverCmd t (fun d => decide (hOp d = 1) && decide (mMode d = 2)) (fun s x => s.moverStart t x)

/-! Chunks (R54, R57, R58, R62). -/

/-- Ends a transfer with a status once no chunk is in flight. -/
def State.stopRun (s : State) (t : Nat) (r : Run) (st : Nat) : State :=
  if r.flight.isEmpty then s.endRun t 2 r st else s.setRun t 2 { r with stop := some st }

/-- The indexed element's range for index k. -/
def Run.mElement (r : Run) (k : Nat) : Extent :=
  let d := r.desc
  if mMode d = 1 then
    let lo := (r.mSrcOff : Int) + k * mSs1 d
    ⟨mSrcBuf d, lo, lo + r.mLength, true, false⟩
  else
    let lo := (r.mDstOff : Int) + k * mDs1 d
    ⟨mDstBuf d, lo, lo + r.mLength, false, true⟩

/-- Reads and checks the group of indices that begins at element i (R54, R55, R57). -/
def State.readGroup (s : State) (t : Nat) (r : Run) (i : Nat) : (Except Nat (List Nat)) × State :=
  let d := r.desc
  let w := mIdxW d
  let n := min 64 (r.mCount1 - i)
  match s.bufRead t 0 r.shoot (r.buf (mIdxBuf d)) (mIdxOff d + i * w) (n * w) with
  | (.bad st, s1) => (.error st, s1)
  | (.ok bs, s1) =>
    let ks := (List.range n).map fun j => ofBytes ((bs.drop (j * w)).take w)
    let es := ks.map r.mElement
    let fixed := r.mExtents.filter fun x => !x.empty
    if !es.all r.extentIn then (.error stINDEX, s1)
    else if !es.all (s1.extentAllowed t r) then (.error stPERMISSION, s1)
    else if es.any fun e => fixed.any (r.extentsMeet e) then (.error stOVERLAP, s1)
    else (.ok ks, s1)

/-- Source and destination offsets of the byte at position p of the transfer. -/
def Run.mOffsets (r : Run) (ks : List Nat) (p : Nat) : Int × Int :=
  let d := r.desc
  let b := p % r.mLength
  let e := p / r.mLength
  let i := e % r.mCount1
  let j := e / r.mCount1
  let k := ks.getD (i % 64) 0
  if mMode d = 0 then
    ((r.mSrcOff : Int) + j * mSs2 d + i * mSs1 d + b, (r.mDstOff : Int) + j * mDs2 d + i * mDs1 d + b)
  else if mMode d = 1 then ((r.mSrcOff : Int) + k * mSs1 d + b, (r.mDstOff : Int) + i * mDs1 d + b)
  else ((r.mSrcOff : Int) + i * mSs1 d + b, (r.mDstOff : Int) + k * mDs1 d + b)

/-- The next chunk: source and destination offsets of its first byte, and its length (R58). A chunk crosses no 4 KiB boundary
of either address. -/
def Run.mCut (r : Run) (ks : List Nat) : Nat × Nat × Nat :=
  let sb := bBase (r.buf (mSrcBuf r.desc))
  let db := bBase (r.buf (mDstBuf r.desc))
  if r.mDown then
    let e := r.mTotal - r.pos
    let o := r.mOffsets ks (e - 1)
    let n := min e (min ((sb + o.1.toNat) % 4096 + 1) ((db + o.2.toNat) % 4096 + 1))
    (o.1.toNat + 1 - n, o.2.toNat + 1 - n, n)
  else
    let o := r.mOffsets ks r.pos
    let n := min (r.mLength - r.pos % r.mLength)
      (min (4096 - (sb + o.1.toNat) % 4096) (4096 - (db + o.2.toNat) % 4096))
    (o.1.toNat, o.2.toNat, n)

/-- Where one side of a chunk goes, and the virtual pages that its translation maps. A SHELF buffer reaches the tile's own scratch. A VA
buffer is translated; a miss waits for its walk, and the state then keeps the walk. -/
def State.chunkReach (s : State) (t : Nat) (r : Run) (b : BitVec 128) (off : Nat) (wr : Bool) :
    (Except Nat (Place × List (Nat × Nat))) × State :=
  if bKind b = 1 then (.ok (.shelf t (bBase b + off), []), s)
  else
    let va := bBase b + off
    match s.xlateWait t (2 * t) va with
    | (.hit e, s1) =>
      match s1.judge t 0 r.shoot va e (!wr) wr false with
      | (.ok p, s2) => (.ok (p, [(e.vpage, e.pages)]), s2)
      | (.error st, s2) => (.error st, s2)
    | (.fault l x, s1) => let q := s1.xlateFail t 0 r.shoot (va / 4096) va l x; (.error q.1, q.2)
    | (.wait, s1) => (.error stWAIT, s1)

/-- Kind of a destination for R62. -/
def Place.kind : Place → Nat
  | .shelf _ _ => 1
  | .hatch _ _ => 2
  | _ => 3

/-- Issues a chunk whose sides have been translated: reads its source, and sends what crosses a hatch (R58, R59, R62, R319,
R366). -/
def State.issueChunk (s : State) (t : Nat) (r : Run) (src dst : Place) (spans : List (Nat × Nat)) (so doff n : Nat) : Res :=
  let d := r.desc
  let sb := r.buf (mSrcBuf d)
  let db := r.buf (mDstBuf d)
  let last := decide (r.pos + n = r.mTotal)
  let win := match dst with
    | .hatch w x => some (s.window w x)
    | _ => none
  let tally := mArrTally d
  let num := (s.crate (t / 64)).sdDone
  let via := match src with
    | .hatch _ _ => true
    | _ => false
  let c : Chunk := ⟨r.pos, n, dst, bKind db = 1, [], 0#32, (bBase db + doff) / 4096, spans, num, none, win,
    win.isSome && (last || via), none, last⟩
  let hold := fun (s : State) => match win with
    | some w => if last || via then s.bump (outInflight w.w) else s
    | none => s
  let r' := { r with pos := r.pos + n }
  match src with
  | .hatch w x =>
    match (s.sendHatch t r.pos spans num (s.window w x) true n 0 false []) with
    | (.ok tag, s1) =>
      .next ((hold (s1.bump (outInflight w))).setRun t 2 { r' with flight := r.flight ++ [{ c with waitTag := some tag }] })
    | (.error st, s1) =>
      .next (s1.setRun t 2 { r' with flight := r.flight ++ [{ c with fail := some st, unsent := false }] })
  | _ =>
    let rd := if bKind sb = 1 then s.scratchRead t (bBase sb + so) n else s.placeRead t src n ((bBase sb + so) / 4096)
    match rd with
    | (.bad st, s1) => if st = stWAIT then .next s else .next (s1.stopRun t r st)
    | (.ok bs, s1) =>
      let c := { c with data := bs, crc := crc32c bs }
      match win with
      | none => .next (s1.setRun t 2 { r' with flight := r.flight ++ [c] })
      | some w =>
        if last then .next ((hold s1).setRun t 2 { r' with flight := r.flight ++ [c] })
        else
          match s1.sendHatch t r.pos spans num w false n tally false bs with
          | (.ok tag, s2) => .next ((s2.bump (outInflight w.w)).setRun t 2 { r' with flight := r.flight ++ [{ c with waitTag := some tag }] })
          | (.error st, s2) => .next (s2.setRun t 2 { r' with flight := r.flight ++ [{ c with fail := some st }] })

/-- MOVER_CHUNK_ISSUE (R58): the mover translates and issues the next chunk of its transfer. No chunk is issued after a failure (R61). -/
def execMoverChunkIssue (t : TileId) (s : State) : Res :=
  match ((s.tile t).eng2).run with
  | none => .next s
  | some r =>
    if r.ended.isSome || r.stop.isSome || r.flush.isSome || decide (r.mTotal ≤ r.pos) || decide (hOp r.desc ≠ 1)
      || (r.flight.any fun c => c.fail.isSome) || !s.tileLive t then .next s
    else
      let i := r.pos / r.mLength
      let group := if mMode r.desc ≠ 0 ∧ r.pos % r.mLength = 0 ∧ i % 64 = 0 then s.readGroup t r i else (.ok r.idx, s)
      match group with
      | (.error st, s1) => if st = stWAIT then .next s else .next (s1.stopRun t r st)
      | (.ok ks, s1) =>
        let r := { r with idx := ks }
        let cut := r.mCut ks
        match s1.chunkReach t r (r.buf (mSrcBuf r.desc)) cut.1 false with
        | (.error st, s2) => if st = stWAIT then .next s2 else .next (s2.stopRun t r st)
        | (.ok src, s2) =>
          match s2.chunkReach t r (r.buf (mDstBuf r.desc)) cut.2.1 true with
          | (.error st, s3) => if st = stWAIT then .next s3 else .next (s3.stopRun t r st)
          | (.ok dst, s3) =>
            if mArrEn r.desc ∧ dst.1.kind ≠ r.destKind then .next (s3.stopRun t r stPERMISSION)
            else s3.issueChunk t r src.1 dst.1 (src.2 ++ dst.2) cut.1 cut.2.1 cut.2.2

/-- Writes a chunk's bytes at its destination. One whose page a shootdown has withdrawn since goes to its home, and no line of it is
allocated (R209, R312). -/
def State.landChunk (s : State) (t : Nat) (c : Chunk) : Nat × State :=
  match c.dst with
  | .shelf u off => if c.own then (0, s.scratchWrite u off c.data) else s.apertureWrite u off c.data
  | .cellar a =>
    if s.stale t c then writeLines (fun s a bs => s.storeThrough t a bs) (lineFuel c.data.length) a c.data s
    else s.placeWrite t c.dst c.data c.vpage
  | p => s.placeWrite t p c.data c.vpage

/-- A destination byte's place. -/
def Place.add (p : Place) (i : Nat) : Place :=
  match p with
  | .cellar a => .cellar (a + i)
  | .shelf u off => .shelf u (off + i)
  | .opAlias opc a => .opAlias opc (a + i)
  | .hostAp q x => .hostAp q (x + i)
  | .hatch w x => .hatch w (x + i)

/-- What a failed chunk, and any later chunk already issued, leaves at its destination: each byte keeps its earlier contents or
takes a byte as it arrived, freely (R61; log entry 14). Operation aliases and record writes are performed or not as a whole. -/
def State.landFree (s : State) (t : Nat) (c : Chunk) : State :=
  let pick := s.draw
  let val := pick.2.draw
  let bytes := toBytes c.len val.1
  match c.dst with
  | .opAlias _ _ => if pick.1 % 2 = 1 then (val.2.landChunk t { c with data := bytes }).2 else val.2
  | .hatch _ _ => val.2
  | p =>
    ((List.range c.len).filter fun i => bitAt pick.1 i).foldl
      (fun s i => (s.landChunk t { c with dst := p.add i, data := [bytes.getD i 0#8] }).2) val.2

/-- One chunk fewer awaits its acknowledgement through a window (R319). -/
def State.lessInflight (s : State) (w : Nat) : State := s.wr (outInflight w) (s.rd (outInflight w) - 1)

/-- A chunk that leaves flight before it was sent no longer counts in its window's INFLIGHT; one that was sent counts until
its response or timeout. -/
def State.freeWindow (s : State) (c : Chunk) : State :=
  match c.win with
  | some w => if c.unsent then s.lessInflight w.w else s
  | none => s

/-- Ends a transfer at its oldest chunk in flight: later chunks already issued land freely (R61), and those that have left for
a hatch are abandoned. -/
def State.failChunk (s : State) (t : Nat) (r : Run) (st : Nat) (first : Bool) : State :=
  let land := if first then r.flight else r.flight.drop 1
  let s := land.foldl (fun s c => if c.win.isSome then s else s.landFree t c) s
  let s := r.flight.foldl State.freeWindow s
  s.endRun t 2 { r with flight := [] } st

/-- Accepts the oldest chunk in flight: DONE, the CRC and the receiving tile advance, and the last one ends the transfer with
its arrival increment (R40, R61, R62), or, where the transfer's single check fails, with CRC_MISMATCH and DONE = 0 (R588). -/
def State.acceptChunk (s : State) (t : Nat) (r : Run) (c : Chunk) : State :=
  let rest := r.flight.drop 1
  let r := { r with
    flight := rest, done := r.done + c.len, crc := crc32cUpd r.crc c.data,
    recv := match c.dst with
      | .shelf u _ => some u
      | _ => none }
  if c.last && r.bad then s.endRun t 2 { r with done := 0 } stCRC
  else if c.last then (s.arrive t r).endRun t 2 r stDONE
  else if rest.isEmpty then
    match r.stop with
    | some st => s.endRun t 2 r st
    | none => if r.flush.isSome then s.endRun t 2 r stABORTED else s.setRun t 2 r
  else s.setRun t 2 r

/-- Is the destination in the package (Table 22.6)? -/
def Place.inPackage : Place → Bool
  | .hatch _ _ => false
  | .hostAp _ _ => false
  | _ => true

/-- CHUNK_ARRIVAL (R59, R61, R588): the oldest chunk in flight reaches its destination; `crcOk` says whether its CRC-32C checks there. In
throughput mode a chunk with a destination in the package has no check of its own: one that does not check lands corrupt, and the single
check at the end of the transfer finds it. A chunk that crosses a hatch is accepted by its response instead. -/
def execChunkArrival (t : TileId) (crcOk : Bool) (s : State) : Res :=
  match ((s.tile t).eng2).run with
  | none => .next s
  | some r =>
    match r.flight with
    | [] => .next s
    | c :: _ =>
      if c.unsent || c.waitTag.isSome || r.ended.isSome then .next s
      else
        match c.fail with
        | some st => .next (s.failChunk t r st false)
        | none =>
          if c.win.isSome then .next (s.acceptChunk t r c)
          else if !crcOk then
            if s.throughput && c.dst.inPackage then .next ((s.landFree t c).acceptChunk t { r with bad := true } c)
            else .next (s.failChunk t r stCRC true)
          else
            match s.landChunk t c with
            | (0, s1) => .next (s1.acceptChunk t r c)
            | (st, s1) => if st = stWAIT then .next s else .next (s1.failChunk t r st false)

/-- HATCH_LAST_CHUNK_SEND (R366): once every earlier chunk is acknowledged, the transfer's last chunk is sent, with ARR as
ARR_EN says. -/
def execHatchLastChunkSend (t : TileId) (s : State) : Res :=
  match ((s.tile t).eng2).run with
  | none => .next s
  | some r =>
    match r.flight with
    | [c] =>
      match c.win with
      | some w =>
        if c.unsent && c.last && c.waitTag.isNone && c.fail.isNone then
          match s.sendHatch t c.pos c.spans c.sdDone w false c.len (mArrTally r.desc) (mArrEn r.desc) c.data with
          | (.ok tag, s1) => .next (s1.setRun t 2 { r with flight := [{ c with unsent := false, waitTag := some tag }] })
          | (.error st, s1) =>
            .next ((s1.lessInflight w.w).setRun t 2 { r with flight := [{ c with unsent := false, fail := some st }] })
        else .next s
      | none => .next s
    | _ => .next s

/-! Shelf maintenance descriptors (R212 to R216). -/

/-! Fields (Table 7.2). -/
def xBuf (d : BitVec 512) : Nat := dBits d 104 4
def xAction (d : BitVec 512) : Nat := dBits d 108 3
def xAll (d : BitVec 512) : Bool := dBits d 111 1 = 1
def xRsv (d : BitVec 512) : Nat := dBits d 112 16 + dBits d 128 64 + dBits d 224 32 + dBits d 256 256
def maintLate : List (Nat × Nat) := [(0, 192), (3, 64)]
def Run.xOff (r : Run) : Nat := lateField r.desc r.lbv 3 64 40
def Run.xLength (r : Run) : Nat := lateField r.desc r.lbv 0 192 32

/-- Is the maintenance descriptor malformed (R45, R214)? -/
def Run.xIllegal (r : Run) : Bool :=
  let d := r.desc
  decide (hRsv d ≠ 0) || decide (xRsv d ≠ 0) || !lateOk d maintLate [] || decide (4 < xAction d) ||
    (decide (xAction d = 4) && !xAll d) || (decide (xAction d = 0) && xAll d) ||
    (!xAll d && (!(r.bufs.all fun b => bValid b.2) ||
      (decide (xAction d = 0) && (decide (r.xOff % 128 ≠ 0) || decide (r.xLength % 128 ≠ 0)))))

/-- Zeroes the line of a way and set and makes it Invalid, without write-back (Table 7.3). -/
def State.wipeLine (s : State) (t w st : Nat) : State :=
  let s := (s.clearLineErr t w st).setLine t w st Line.none
  { s with shelf := zeroRange s.shelf (shelfKey t w st 0) (shelfKey t w st 0 + 128) }

/-- The ways that an action visits under ALL: every enabled way for WIPE, the cache ways for the others (Table 7.3). -/
def State.maintWays (s : State) (t action : Nat) : List Nat := if action = 4 then s.enabledWays t else s.cacheWays t

/-- The first line at or after position `p` of 12 × set + way that lies in one of the ways (R216). -/
def nextLine (ways : List Nat) (p : Nat) : Option Nat :=
  ((List.range (1536 - p)).map (p + ·)).find? fun q => decide (q % 12 ∈ ways)

/-- Ends a maintenance descriptor once nothing is left of it. -/
def State.maintGo (s : State) (t : Nat) (r : Run) (done : Bool) : State :=
  if done then s.endRun t 2 r stDONE else s.setRun t 2 r

/-- The next line under ALL, in ascending set and then way order (R216); none where its write-back must wait. -/
def State.maintAll (s : State) (t : Nat) (r : Run) : Option State :=
  let a := xAction r.desc
  match nextLine (s.maintWays t a) r.pos with
  | none => some (s.endRun t 2 r stDONE)
  | some p =>
    let q := if a = 4 then (0, s.wipeLine t (p % 12) (p / 12)) else s.actLine t (p % 12) (p / 12) a
    if q.1 = stWAIT then none
    else some (q.2.maintGo t { r with pos := p + 1, done := r.done + 128 } (nextLine (q.2.maintWays t a) (p + 1)).isNone)

/-- A maintenance descriptor has acted on the next `m` bytes of its range; `page` is kept for the rest of their chunk. -/
def State.maintOn (s : State) (t : Nat) (r : Run) (m page : Nat) : State :=
  s.maintGo t { r with pos := r.pos + m, done := r.pos + m, idx := [page] } (decide (r.xLength ≤ r.pos + m))

/-- The next line of a SHELF buffer under ZERO: every line that the range touches is zeroed whole (Table 7.3). -/
def State.maintScratch (s : State) (t : Nat) (r : Run) : State :=
  let o := bBase (r.buf (xBuf r.desc)) + r.xOff + r.pos
  (s.scratchWrite t (o / 128 * 128) (List.replicate 128 0#8)).maintOn t r (min (r.xLength - r.pos) (128 - o % 128)) 0

/-- Acts on one line of the cellar through the shelf (Table 7.3). -/
def State.maintLine (s : State) (t action vpage line : Nat) : Nat × State :=
  if action = 0 then s.zeroLine t (128 * line) vpage
  else
    match s.settleWay t line with
    | (0, some w, s) => s.actLine t w (setOf line) action
    | (st, _, s) => (st, s)

/-- The next line of a VA buffer, or a chunk that maps outside the cellar passed over (R213, R214); a chunk is translated at its first line.
None where it must wait. -/
def State.maintVa (s : State) (t : Nat) (r : Run) : Option State :=
  let a := xAction r.desc
  let va := bBase (r.buf (xBuf r.desc)) + r.xOff + r.pos
  let q : (Except Nat Nat) × State :=
    if r.pos = 0 ∨ va % 4096 = 0 then
      match s.xlateNow t va with
      | (.wait, s1) => (.error stWAIT, s1)
      | (.fault l x, s1) => let f := s1.xlateFail t 0 r.shoot (va / 4096) va l x; (.error f.1, f.2)
      | (.hit e, s1) => s1.judgeMaint t r.shoot va e (decide (a = 1))
    else (.ok (r.idx.headD 0), s)
  match q with
  | (.error st, s1) => if st = stWAIT then none else some (s1.endRun t 2 r st)
  | (.ok 0, s1) =>
    if a = 0 then some (s1.endRun t 2 r stPERMISSION) else some (s1.maintOn t r (inPage va (r.xLength - r.pos)) 0)
  | (.ok (page + 1), s1) =>
    let w := s1.maintLine t a (va / 4096) ((page + va % 4096) / 128)
    if w.1 = stWAIT then none else some (w.2.maintOn t r (min (r.xLength - r.pos) (128 - va % 128)) (page + 1))

/-- The next line of a running maintenance descriptor (R213, R216); none where it must wait. -/
def State.maintStep (s : State) (t : Nat) (r : Run) : Option State :=
  if xAll r.desc then s.maintAll t r
  else if bKind (r.buf (xBuf r.desc)) = 1 then some (s.maintScratch t r)
  else s.maintVa t r

/-- Starts a maintenance descriptor: its checks, before any line is touched (R212 to R214, R619). One that touches no line ends DONE. -/
def State.maintStart (s : State) (t : Nat) (x : Slot) : State :=
  let d := x.desc
  let bufs := if xAll d then [] else [xBuf d]
  let r := s.newRun t x (s.lateValues t d maintLate) bufs s.sdNum
  let p := s.startRead t x bufs
  let s := p.2.beginRun t 2 r
  if p.1 then s.endRun t 2 r stENGINE
  else if r.xIllegal then s.endRun t 2 r stILLEGAL
  else if xAll d then s.maintGo t r (nextLine (s.maintWays t (xAction d)) 0).isNone
  else
    let b := r.buf (xBuf d)
    let e : Extent := ⟨xBuf d, r.xOff, (r.xOff + r.xLength : Nat), false, decide (xAction d ≠ 1)⟩
    let cleanOk := decide (xAction d ≠ 1) || bRd b || bWr b
    if !r.extentIn e then s.endRun t 2 r stBOUND
    else if !(cleanOk && s.extentAllowed t r e) then s.endRun t 2 r stPERMISSION
    else if bKind b = 1 ∧ xAction d ≠ 0 then s.endRun t 2 { r with done := r.xLength } stDONE
    else s.maintGo t r (decide (r.xLength = 0))

/-- A maintenance command: the running descriptor whose action `p` picks acts on its next line, else the head descriptor of the queue
starts. The lines are acted on one by one, so that a FLUSH may fall between any two (R43, R216; log entry 58). -/
def State.maintCmd (s : State) (t : Nat) (p : BitVec 512 → Bool) : Res :=
  match ((s.tile t).eng2).run with
  | some r =>
    if r.ended.isNone && r.flush.isNone && decide (hOp r.desc = 2) && p r.desc && s.tileLive t then
      match s.maintStep t r with
      | some s1 => .next s1
      | none => .next s
    else .next s
  | none => s.moverCmd t (fun d => decide (hOp d = 2) && p d) (fun s x => s.maintStart t x)

/-- SHELF_ZERO (R213): a maintenance descriptor with ACTION ZERO; one with an undefined ACTION is also started here, and ends
ILLEGAL. -/
def execShelfZero (t : TileId) (s : State) : Res := s.maintCmd t fun d => decide (xAction d = 0) || decide (4 < xAction d)

/-- SHELF_CLEAN (R213): a maintenance descriptor with ACTION CLEAN. -/
def execShelfClean (t : TileId) (s : State) : Res := s.maintCmd t fun d => decide (xAction d = 1)

/-- SHELF_INVALIDATE (R213): a maintenance descriptor with ACTION INVALIDATE. -/
def execShelfInvalidate (t : TileId) (s : State) : Res := s.maintCmd t fun d => decide (xAction d = 2)

/-- SHELF_CLEAN_INV (R213): a maintenance descriptor with ACTION CLEAN_INV. -/
def execShelfCleanInv (t : TileId) (s : State) : Res := s.maintCmd t fun d => decide (xAction d = 3)

/-- SHELF_WIPE (R213): a maintenance descriptor with ACTION WIPE. -/
def execShelfWipe (t : TileId) (s : State) : Res := s.maintCmd t fun d => decide (xAction d = 4)

end Sys2Proof.Machine
end

