-- ==== Sys2Proof/Machine/TileRun.lean ====
section
/-! DEFINITION. Running, holding and parking tiles, the crate clock and the sleep states (R35, R46, R64 to R73, R451). -/
namespace Sys2Proof.Machine

/-! Registers (Tables 2.7, 2.14). -/
def crCur (c : Nat) : Fld := ⟨crateReg c 0, 0, 10⟩
def crStepping (c : Nat) : Fld := ⟨crateReg c 0, 10, 1⟩
def crLimit (c : Nat) : Fld := ⟨crateReg c 0, 16, 10⟩
def crOff (c : Nat) : Fld := ⟨crateReg c 0, 28, 1⟩

/-- CRATE.CLK.LIMIT_MHZ: the lowest TILE.FMAX.MHZ among the unparked tiles; a free value between 700 and 880 when every tile is parked
(log entry 27). -/
def State.crateLimit (s : State) (c : Nat) : Nat :=
  let is := (List.range 64).filter fun i => !s.on (tParked (64 * c + i))
  if is.isEmpty then 700 + 10 * (Config.parkedLimit c % 19)
  else is.foldl (fun m i => min m (s.rd (tFmax (64 * c + i)))) 880

/-- CRATE.GOV.SET_MHZ. -/
def crSet (c : Nat) : Fld := ⟨crateReg c 0x30, 0, 10⟩
/-- GOV.STAT.FSTEPS. -/
def govFsteps : Fld := ⟨0x18018C, 0, 32⟩

/-- The frequency of a crate's PLL, which the lowest state leaves running (R472). -/
def State.cratePll (s : State) (c : Nat) : Nat := if s.on govLowest then lookMap 700 s.gov.pllMhz c else s.rd (crCur c)

/-- Sets the frequency of a crate's PLL. -/
def State.setPll (s : State) (c f : Nat) : State :=
  if s.on govLowest then { s with gov := { s.gov with pllMhz := putMap 700 s.gov.pllMhz c f } } else s.wr (crCur c) f

/-- Ends the frequency step in progress of a crate at `f`, counted once (R68, R475). -/
def State.endStep (s : State) (c f : Nat) : State :=
  (((s.setCrate c { s.crate c with stepTo := none }).setPll c f).wr (crStepping c) 0).bump govFsteps

/-- Steps a crate down to `l` MHz where its frequency, or that of a step in progress, lies above: a step in progress ends no higher than it
must, and further steps of at most 10 MHz follow, each counted (R65, R68, R457). -/
def State.stepDown (s : State) (c l : Nat) : State :=
  let f := s.cratePll c
  let s := match (s.crate c).stepTo with
    | some g => if l < max f g then s.endStep c (if g ≤ f then g else min g (max f l)) else s
    | none => s
  let f := s.cratePll c
  if l < f then (s.setPll c l).bumpBy govFsteps ((f - l + 9) / 10) else s

/-- Brings LIMIT_MHZ up to date, and the frequency down to it (R65). -/
def State.syncLimit (s : State) (c : Nat) : State :=
  let l := s.crateLimit c
  (s.wr (crLimit c) l).stepDown c l

/-- Is data or an increment on its way to the shelf or the tallies of a tile that `p` picks: an increment, a mover's chunk, a carry record,
or a request that waits behind an inbound hatch (R70, R71)? -/
def State.trafficFor (s : State) (p : Nat → Bool) : Bool :=
  let isFor := fun (d : Place) => match d with
    | .shelf u _ => p u
    | _ => false
  (s.incs.any fun i => match i.loc with
    | some (.tile u _) => p u
    | _ => false) ||
    (s.flights.any fun k => isFor k.dst) || (s.carryRecs.any fun k => k.parts.any fun p => isFor p.dst) ||
    s.inReqs.any fun r => ((placeOf (r.base + r.pkt.off)).map isFor).getD false

/-- Is a tile idle (R70)? -/
def State.tileIdle (s : State) (t : Nat) : Bool :=
  let x := s.tile t
  (s.on (tHold t) || decide (s.rd (tState t) = 2) || decide (s.rd (tState t) = 3)) &&
    ([0, 1, 2].all fun e => (x.eng e).owned.isEmpty && (x.eng e).run.isNone) && !s.trafficFor fun u => decide (u = t)

/-- A crossing's side enters reset: chunks not yet delivered to the shelves of the tiles that `p` picks end with SIDE_RESET
(R451). -/
def State.sideReset (s : State) (p : Nat → Bool) : State :=
  let upd := fun (c : Chunk) => match c.dst with
    | .shelf u _ => if p u && !c.own && c.fail.isNone then { c with fail := some stSIDE_RESET } else c
    | _ => c
  s.tiles.foldl (fun s q =>
    match q.2.eng2.run with
    | some r => if r.flight.isEmpty then s else s.setRun q.1 2 { r with flight := r.flight.map upd }
    | none => s) s

/-- Holds a tile in reset (Table 2.12): engines idle and queues empty, the core at its reset. The mover's chunks in flight land or
not, freely (log entry 28). Requests that awaited the tile are answered SIDE_RESET (R451), and the tile's own block ends (R454). -/
def State.holdTile (s : State) (t : Nat) : State :=
  let flight := match (s.tile t).eng2.run with
    | some r => r.flight
    | none => []
  let s := flight.foldl (fun s c =>
    let d := s.draw
    let s := d.2.freeWindow c
    if d.1 % 2 = 1 && c.win.isNone then (s.landChunk t c).2 else s) s
  let x := s.tile t
  let s := s.setTile t { x with
    cpu := Tile.fresh.cpu, eng0 := .idle, eng1 := .idle, eng2 := .idle, tlb := [], fill := none, fillBad := none, woken := false }
  let s := s.leaveWalks t [2 * t, 2 * t + 1]
  let s := [0, 1, 2].foldl (fun s e =>
    (s.setReg (tileReg t (0x20 + 4 * e)) 0#32).setReg (tileReg t (0x30 + 4 * e)) 0#32) s
  let s := (s.wr (tHold t) 1).wr (tState t) 0
  let s := s.sideReset fun u => decide (u = t)
  { s with blocked := s.blocked.filter fun b => decide (b ≠ 2 ^ 24 + t) }

/-- May the tile leave reset (R35)? A crate reported failed keeps its tiles held (R575). -/
def State.mayRelease (s : State) (t : Nat) : Bool :=
  decide (1 ≤ (s.scratchWays t).length) && decide (s.rd (tBase t) < s.rd (tLimit t)) && decide (4 ≤ s.rd (tBase t)) &&
    decide (1024 * s.rd (tLimit t) ≤ s.scratchEnd t) && !s.offline 2 (t / 64)

/-- A write of TILE.RUN: PARK and the W1C bit, then HOLD; the write wakes a waiting core of a released tile
(Table 2.12). -/
def State.runWrite (s : State) (t : Nat) (w : BitVec 32) : State :=
  let held := s.on (tHold t)
  let s := (s.plainWrite (tileReg t 4) w).wr (tHold t) (b2n held)
  let s := if held then s else s.wakeCore t
  if w.getLsbD 0 then (if held then s else s.holdTile t)
  else if held then
    if s.mayRelease t then
      let x := s.tile t
      let s := s.setTile t { x with cpu := { Tile.fresh.cpu with pc := BitVec.ofNat 32 (1024 * s.rd (tBase t)) } }
      let s := (s.wr (tHold t) 0).wr (tState t) (if s.on (tParked t) then 4 else 1)
      -- a released tile runs once it is unparked
      s.wakeCore t
    else s.wr (tRefused t) 1
  else s

/-- TILE_RUN_RELEASE (R35): a write of TILE.RUN with HOLD = 0. -/
def execTileRunRelease (src : Src) (t : TileId) (w : BitVec 32) (s : State) : Res :=
  if s.mayWrite src (tileReg t 4) then .next (s.tileAccess src t fun s => s.runWrite t (w &&& 0xFFFFFFFE#32)) else .next s

/-- TILE_RUN_HOLD (R35): a write of TILE.RUN with HOLD = 1. -/
def execTileRunHold (src : Src) (t : TileId) (w : BitVec 32) (s : State) : Res :=
  if s.mayWrite src (tileReg t 4) then .next (s.tileAccess src t fun s => s.runWrite t (w ||| 1#32)) else .next s

/-- TILE_CODE_WRITE (R46): a write of TILE.CODE takes effect only while the tile is held. -/
def execTileCodeWrite (src : Src) (t : TileId) (w : BitVec 32) (s : State) : Res :=
  if s.mayWrite src (tileReg t 12) then
    .next (s.tileAccess src t fun s => if s.on (tHold t) then s.plainWrite (tileReg t 12) w else s)
  else .next s

/-- TILE_PARK (R66): a tile with PARK set becomes parked once it is idle. -/
def execTilePark (t : TileId) (s : State) : Res :=
  if s.tileLive t && s.on (tPark t) && !s.on (tParked t) && s.tileIdle t then
    let s := s.wr (tParked t) 1
    let s := if s.on (tHold t) then s else s.wr (tState t) 4
    .next (s.wr (crLimit (t / 64)) (s.crateLimit (t / 64)))
  else .next s

/-- TILE_UNPARK (R67): the crate steps down to the tile's limit if it must, and then the tile's clock starts: its core runs where it was
released or woken while the tile was parked, and is in WFI otherwise. Steps frozen by a droop response wait (R475). -/
def execTileUnpark (t : TileId) (s : State) : Res :=
  if s.tileLive t && !s.on (tPark t) && s.on (tParked t) &&
      !((s.crate (t / 64)).frozen && decide (s.rd (tFmax t) < max (s.cratePll (t / 64)) ((s.crate (t / 64)).stepTo.getD 0))) then
    let s := (s.stepDown (t / 64) (s.rd (tFmax t))).wr (tParked t) 0
    let s := s.wr (crLimit (t / 64)) (s.crateLimit (t / 64))
    let run := (s.tile t).woken
    let s := s.setTile t { s.tile t with woken := false }
    .next (if s.on (tHold t) then s else s.wr (tState t) (if run then 1 else 2))
  else .next s

/-- TILE_CLOCK_GATE (R70): a tile that is idle gates its clock. -/
def execTileClockGate (t : TileId) (s : State) : Res :=
  if s.tileLive t && s.tileIdle t && decide (s.rd (tState t) = 2) then .next (s.wr (tState t) 3) else .next s

/-- Is a wake condition of tile `t` met: a wake slot's tally at its threshold, or a queue halted (R32, Table 8.7)? -/
def State.wakeMet (s : State) (t : Nat) : Bool :=
  ((List.range 4).any fun i =>
    let a := tileTallyBase + 0x1000 * t + 0x310 + 4 * i
    s.on ⟨a, 7, 1⟩ && decide (s.rd ⟨a, 16, 16⟩ ≤ s.rd (TallyLoc.tile t (s.rd ⟨a, 0, 6⟩)).value)) ||
    [0, 1, 2].any fun e => s.on (qHalted t e)

/-- WFI_WAKE (R70): the waiting core of a tile resumes once a wake condition is met. -/
def execWfiWake (t : TileId) (s : State) : Res :=
  if s.tileLive t && s.wakeMet t then .next (s.wakeCore t) else .next s

/-! The crate clock. -/

/-- Is any traffic on its way to crate `c`: an increment of a crate or tile tally, data bound for one of its shelves, or a register access
that waits at its crossing (R71)? -/
def State.crateTraffic (s : State) (c : Nat) : Bool :=
  (s.incs.any fun i => match i.loc with
    | some (.crate d _) => decide (d = c)
    | _ => false) ||
    (s.trafficFor fun u => decide (u / 64 = c)) || s.held.any fun h => decide (h.dom = 64 + c)

/-- A write of CRATE.CLK (Table 2.14): OFF = 0 runs the clock again, unless the governor has the crate off (Table 2.15). The access itself
has started the clock (R72). -/
def State.clkWrite (s : State) (c : Nat) (w : BitVec 32) : State :=
  let s := s.plainWrite (crateReg c 0) w
  if w.getLsbD 28 || (s.crate c).govOff then s else s.wr (crateStopped c) 0

/-- CRATE_CLOCK_OFF_REQUEST (R71): a write of CRATE.CLK with OFF = 1. -/
def execCrateClockOffRequest (src : Src) (c : CrateId) (w : BitVec 32) (s : State) : Res :=
  if s.mayWrite src (crateReg c 0) then .next (s.atPlace src (64 + c) fun s => s.clkWrite c (w ||| 0x10000000#32)) else .next s

/-- CRATE_CLOCK_STOP (R71): a crate with an off request, of software or of the governor (Table 2.15), stops its clock once all its tiles are idle or parked and no traffic is
pending. -/
def execCrateClockStop (c : CrateId) (s : State) : Res :=
  if s.crateRuns c && (s.on (crOff c) || (s.crate c).govOff) && !s.crateTraffic c &&
      (List.range 64).all fun i => s.on (tParked (64 * c + i)) || s.tileIdle (64 * c + i) then
    .next (s.wr (crateStopped c) 1)
  else .next s

/-- CRATE_CLOCK_WAKE (R72): traffic held at the router of a stopped crate restarts its clock; OFF stays 1. -/
def execCrateClockWake (c : CrateId) (s : State) : Res :=
  if s.crateOn c && s.on (crateStopped c) && !(s.crate c).clockLost then .next (s.wr (crateStopped c) 0) else .next s

/-- CRATE_CLOCK_LOST (R73): the crate's clock generator fails. -/
def execCrateClockLost (c : CrateId) (s : State) : Res :=
  if s.crateOn c && !(s.crate c).clockLost then
    .next ((s.setCrate c { s.crate c with clockLost := true }).raise 0x0205 2 c [])
  else .next s

/-- The frequency that a crate moves towards: the governor's setting under the limit of R65, or 700 MHz in a thermal hold (R480). -/
def State.stepGoal (s : State) (c : Nat) : Nat := if s.on (crThrottle c) then 700 else min (s.rd (crSet c)) (s.crateLimit c)

/-- Starts a crate's next step of at most 10 MHz towards the governor's setting, or towards 700 MHz in a thermal hold (R65, R457,
R480), when none is in progress. -/
def State.stepCrate (s : State) (c : Nat) : State :=
  let x := s.crate c
  let goal := s.stepGoal c
  let f := s.cratePll c
  if x.stepTo.isSome || f = goal then s
  else (s.setCrate c { x with stepTo := some (if f < goal then min (f + 10) goal else max (f - 10) goal) }).wr (crStepping c) 1

/-- FREQUENCY_STEP_COMPLETE (R65, R68, R457): a crate's frequency step in progress ends at its target, or lower where the limit or the
governor's setting has fallen since, but at most 10 MHz below where it began, is counted once, and the next one towards the setting begins. A
step frozen by a droop response does not end (R475). -/
def execFrequencyStepComplete (c : CrateId) (s : State) : Res :=
  let x := s.crate c
  match x.stepTo with
  | none => .next s
  | some f =>
    if x.frozen || !s.crateOn c then .next s
    else
      .next ((s.endStep c (max (s.cratePll c - 10) (min f (s.stepGoal c)))).stepCrate c)

end Sys2Proof.Machine
end

