-- ==== Sys2Proof/Machine/Quant.lean ====
section
/-! DEFINITION. What the matrix and vector engines share: steps that end with a value or a status, free orders, the conversion
of results with its random draws, the output scale record and the scale-fault policies (R94 to R101, R158 to R167, R621). -/
namespace Sys2Proof.Machine

/-- A value, or the status with which the descriptor ends, and the state. -/
abbrev Ev (α : Type) := Except Nat α × State

/-- Goes on with the value, or keeps the status. -/
def Ev.andThen {α β : Type} (x : Ev α) (f : α → State → Ev β) : Ev β :=
  match x with
  | (.ok a, s) => f a s
  | (.error c, s) => (.error c, s)

/-- Maps a step over a list, stopping at the first status. -/
def evMap {α β : Type} (f : α → State → Ev β) : List α → State → Ev (List β)
  | [], s => (.ok [], s)
  | x :: xs, s => Ev.andThen (f x s) fun y s1 => Ev.andThen (evMap f xs s1) fun ys s2 => (.ok (y :: ys), s2)

/-- Folds a step over a list, stopping at the first status. -/
def evFold {α β : Type} (f : β → α → State → Ev β) : β → List α → State → Ev β
  | b, [], s => (.ok b, s)
  | b, x :: xs, s => Ev.andThen (f b x s) fun b1 s1 => evFold f b1 xs s1

/-- Reads n bytes of a buffer. -/
def State.evRead (s : State) (t rq shoot : Nat) (b : BitVec 128) (off n : Nat) : Ev (List Byte) :=
  match s.bufRead t rq shoot b off n with
  | (.ok d, s1) => (.ok d, s1)
  | (.bad c, s1) => (.error c, s1)

/-- A free index below n; 0 without a draw when it is the only one. -/
def State.pick (s : State) (n : Nat) : Nat × State :=
  if n ≤ 1 then (0, s) else let d := s.draw; (d.1 % n, d.2)

/-- Takes the elements of a list in a free order; `fuel` at least its length. -/
def State.shuffleN {α : Type} (s : State) : Nat → List α → List α × State
  | 0, xs => (xs, s)
  | fuel + 1, xs =>
    let p := s.pick xs.length
    match xs[p.1]? with
    | none => (xs, p.2)
    | some x => let q := p.2.shuffleN fuel (xs.eraseIdx p.1); (x :: q.1, q.2)

/-- A free order of a list (deviation 1 of R107; log entry 10). -/
def State.shuffle {α : Type} (s : State) (xs : List α) : List α × State := s.shuffleN xs.length xs

/-- Cuts a list into pieces of n; `fuel` at least its length. -/
def chunksN {α : Type} (n : Nat) : Nat → List α → List (List α)
  | 0, _ => []
  | fuel + 1, xs => if xs.isEmpty then [] else xs.take n :: chunksN n fuel (xs.drop n)

/-- Cuts a list into pieces of n > 0. -/
def chunks {α : Type} (n : Nat) (xs : List α) : List (List α) := chunksN n xs.length xs

/-! Elements. -/

/-- The n codes that bytes hold, 4-bit codes two to a byte, low half first (R77). -/
def codesOf (f : Fmt) (bs : List Byte) (n : Nat) : List Nat :=
  (List.range n).map fun k =>
    if f.is4 then bitsAt (bs.getD (k / 2) 0#8).toNat (4 * (k % 2)) 4
    else ofBytes ((bs.drop (k * (f.bits / 8))).take (f.bits / 8))

/-- The bytes of codes; an odd count of 4-bit codes leaves 0 in the last high half (R77). -/
def packCodes (f : Fmt) (cs : List Nat) : List Byte :=
  if f.is4 then (chunks 2 cs).map fun p => BitVec.ofNat 8 (p.getD 0 0 % 16 + 16 * (p.getD 1 0 % 16))
  else cs.flatMap fun c => toBytes (f.bits / 8) c

/-- Reads codes as input values (R81, R84). -/
def readAll (f : Fmt) : List Nat → Fl → List Num × Fl
  | [], fl => ([], fl)
  | c :: cs, fl => let x := readIn f c fl; let q := readAll f cs x.2; (x.1 :: q.1, q.2)

/-! Flags. -/

/-- FLAGS and counts of one part of a descriptor added to those of another (R101). -/
def Fl.merge (a b : Fl) : Fl :=
  ⟨a.flags ||| b.flags, min (a.clamps + b.clamps) 0xFFFFFFFF, min (a.flushes + b.flushes) 0xFFFFFFFF⟩

/-- Does the flag value show a clamp or an overflow? -/
def Fl.outOfRange (f : Fl) : Bool := decide (0 < f.clamps) || f.flags.getLsbD fOVERFLOW

/-! Accumulation. -/

/-- Clamps an integer result to INT32, setting ACC_SAT and, as the value delivered is not exact, INEXACT (R86, R611). -/
def satInt32 (v : Int) (fl : Fl) : Num × Fl :=
  let c := max Fmt.int32.imin (min Fmt.int32.imax v)
  (Num.ofInt c, (fl.setIf (decide (c ≠ v)) fACC_SAT).setIf (decide (c ≠ v)) fINEXACT)

/-- The integer that a value with no fraction stands for. -/
def Num.toInt : Num → Int
  | .fin n m e => let v : Int := ((m * 2 ^ e.toNat : Nat) : Int); if n then -v else v
  | _ => 0

/-- Rounds an exact value into an accumulation format: RNE for a float (R86, R95), saturation for INT32. -/
def roundAcc (f : Fmt) (x : Num) (fl : Fl) : Num × Fl :=
  if f = .int32 then satInt32 x.toInt fl else roundArith f x fl

/-- One addition into an accumulator; the first term enters alone, so that a zero keeps its sign (R620). -/
def accAdd (f : Fmt) (a : Option Num) (x : Num) (fl : Fl) : Num × Fl :=
  match a with
  | none => roundAcc f x fl
  | some y => let z := addNum y x fl; roundAcc f z.1 z.2

/-- Adds terms into an accumulator in the order given. -/
def accSeq (f : Fmt) : Option Num → List Num → Fl → Option Num × Fl
  | a, [], fl => (a, fl)
  | a, x :: xs, fl => let y := accAdd f a x fl; accSeq f (some y.1) xs y.2

/-- Adds terms into an accumulator in a free order (deviation 1 of R107). An INT32 sum that no order can saturate is the exact
sum. -/
def State.accumulate (s : State) (f : Fmt) (a : Option Num) (xs : List Num) (fl : Fl) : Option Num × Fl × State :=
  let big := (xs.map fun x => x.toInt.natAbs).sum + (a.getD Num.zero).toInt.natAbs
  if f = .int32 && decide (big < 2 ^ 31) then
    let r := accSeq f a xs fl
    (r.1, r.2, s)
  else
    let p := s.shuffle xs
    let r := accSeq f a p.1 fl
    (r.1, r.2, p.2)

/-- Adds terms into free partial sums: each term begins one or is added to one already begun. -/
def State.partials (s : State) (f : Fmt) : List Num → List Num → Fl → List Num × Fl × State
  | ps, [], fl => (ps, fl, s)
  | ps, x :: xs, fl =>
    let p := s.pick (ps.length + 1)
    let y := accAdd f (ps[p.1]?) x fl
    p.2.partials f (if p.1 < ps.length then ps.set p.1 y.1 else ps ++ [y.1]) xs y.2

/-- Adds partial sums two by two in a free order down to one. -/
def State.joinAll (s : State) (f : Fmt) : Nat → List Num → Fl → Option Num × Fl × State
  | 0, ps, fl => (ps.head?, fl, s)
  | fuel + 1, ps, fl =>
    let q := s.shuffle ps
    match q.1 with
    | a :: b :: rest => let y := accAdd f (some a) b fl; q.2.joinAll f fuel (y.1 :: rest) y.2
    | xs => (xs.head?, fl, q.2)

/-- The sum of terms in an accumulation format, with the order and grouping of the additions free (R183, deviation 1 of R107). An
INT32 sum that no order can saturate is the exact sum. -/
def State.sumFree (s : State) (f : Fmt) (xs : List Num) (fl : Fl) : Option Num × Fl × State :=
  if f = .int32 && decide ((xs.map fun x => x.toInt.natAbs).sum < 2 ^ 31) then
    let r := accSeq f none xs fl
    (r.1, r.2, s)
  else
    let q := s.shuffle xs
    let p := q.2.partials f [] q.1 fl
    p.2.2.joinAll f p.1.length p.1 p.2.1

/-! Conversion of results. -/

/-- How an engine converts its results: the target, the zero point and the rounded reciprocal of the output scale (R159), OVF_INF,
and for stochastic rounding the generator's state at the start and the draws that the values still to be converted take, one each: which
value is converted in which lane and cycle is not reported (R97 to R99, log entry 62). -/
structure Conv where
  f : Fmt
  zp : Int
  rinv : Option Num
  ovf : Bool
  sr : Bool
  start : Nat
  draws : List Nat
  deriving DecidableEq, Repr

/-- The random value that the next conversion takes. -/
def Conv.draw (cv : Conv) : Option Nat := if cv.sr then some (iter lfsrDraw (cv.draws.headD 0 + 1) cv.start) else none

/-- The conversion after n values. -/
def Conv.skip (cv : Conv) (n : Nat) : Conv := { cv with draws := cv.draws.drop n }

/-- Gives n values to be converted their draws: each exactly one, in a free order (R99). -/
def State.dealDraws (s : State) (cv : Conv) (n : Nat) : Conv × State :=
  if cv.sr then let p := s.shuffle (List.range n); ({ cv with draws := p.1 }, p.2) else (cv, s)

/-- A converted value: its code, and whether it counts in QCLAMPS and QFLUSHES (R160). -/
structure QCode where
  code : Nat
  clamped : Bool
  flushed : Bool
  deriving DecidableEq, Repr

/-- Converts one result (R88 to R97, R159, R160). -/
def convVal (cv : Conv) (a : Num) (fl : Fl) : QCode × Fl :=
  match cv.rinv with
  | none =>
    let p := convert cv.f cv.ovf cv.draw a fl
    (⟨p.1, false, false⟩, p.2)
  | some ri =>
    -- an infinity stays one under any scale, also where rinv is 0
    let x := if a.isInf then (a, Fl.clear) else mulNum a ri Fl.clear
    let p := convertZ cv.f cv.zp cv.ovf cv.draw x.1 Fl.clear
    let fin := !a.isNan && !a.isInf
    let zero := if cv.f.isInt then decide (p.1 = encodeInt cv.f.bits cv.zp) else (decodeNum cv.f p.1).isZero
    (⟨p.1, fin && p.2.outOfRange, fin && !a.isZero && zero⟩, (fl.merge x.2).merge p.2)

/-- Converts results in turn. -/
def convAll (cv : Conv) : List Num → Fl → List QCode × Fl
  | [], fl => ([], fl)
  | a :: as, fl =>
    let x := convVal cv a fl
    let q := convAll (cv.skip 1) as x.2
    (x.1 :: q.1, q.2)

/-- The tile's generator after n draws (R98). -/
def State.advanceLfsr (s : State) (t n start : Nat) : State := s.wr (lfsrFld t) (iter lfsrDraw n start)

/-- The larger magnitude of two non-NaN values; a NaN is passed over (R160). -/
def amaxStep (a x : Num) : Num :=
  match x with
  | .nan _ => a
  | _ => if a.abs.lt x.abs then x.abs else a

/-- AMAX as an FP32 encoding, converted with no flag (R160). A finite value above FP32's range, which only a 128-bit accumulator
can hold, gives FP32's largest finite value (DEDUCED, log entry 29). -/
def amaxEnc (a : Num) : Nat := (convert .fp32 false none a Fl.clear).1

/-! Writing results. -/

/-- A piece of a write-out: where it goes, its bytes and how many results they are. -/
structure WUnit where
  buf : BitVec 128
  off : Nat
  bytes : List Byte
  cnt : Nat
  deriving DecidableEq, Repr

/-- Writes pieces in turn up to the first that fails. Answers the status and the number of results written. -/
def State.writeUnits (s : State) (t rq shoot : Nat) : List WUnit → Nat → Nat × Nat × State
  | [], n => (0, n, s)
  | u :: us, n =>
    match s.bufWrite t rq shoot u.buf u.off u.bytes with
    | (0, s1) => s1.writeUnits t rq shoot us (n + u.cnt)
    | (c, s1) => (c, n, s1)

/-! The output scale record (Table 5.3). -/

/-- The read fields of an output scale record. -/
structure OutRec where
  scale : Nat
  zp : Nat
  stageOff : Nat
  stageBuf : Nat
  deriving DecidableEq, Repr

/-- The formats that an output scale serves (R117, R186). -/
def quantFmt : Fmt → Bool
  | .e4m3 | .e5m2 | .fp4 | .int8 | .uint8 | .int4 | .uint4 => true
  | _ => false

/-- The record's read fields, or none where R158 makes the descriptor ILLEGAL. Bits 7:4 of ZP are ignored for UINT4: R158 does not name
them (log entry 63). -/
def outRecOf (bs : List Byte) (f : Fmt) (rescue : Bool) : Option OutRec :=
  let n := ofBytes bs
  let scale := bitsAt n 0 32
  let zp := bitsAt n 200 8
  let ex := bitsAt scale 23 8
  let unsigned := decide (f = .uint4 ∨ f = .uint8)
  if decide (2 ^ 31 ≤ scale) || decide (ex = 0) || decide (ex = 255) then none
  else if decide (zp ≠ 0) && !unsigned then none
  else if decide (bitsAt n 196 4 ≠ 0) || decide (bitsAt n 224 32 ≠ 0) then none
  else if rescue && unsigned then none
  else some ⟨scale, if f = .uint4 then zp % 16 else zp, bitsAt n 160 32, bitsAt n 192 4⟩

/-- 1 / SCALE rounded to FP32 (R159). -/
def rinvOf (scale : Nat) : Num :=
  match decodeNum .fp32 scale with
  | .fin _ m e => rinvFp32 m e
  | x => x

/-- The written fields of a record. -/
structure OutWr where
  used : Nat
  amax : Nat
  qclamps : Nat
  qflushes : Nat
  status : Nat
  reason : Nat
  deriving DecidableEq, Repr

/-- Writes fields in turn, each whole or not at all, up to the first that fails. -/
def State.writeFields (s : State) (t rq shoot : Nat) : List WUnit → Nat × State
  | [] => (0, s)
  | u :: us =>
    let r := if bKind u.buf = 1 then s.bufWrite t rq shoot u.buf u.off u.bytes else s.fieldWrite t rq shoot (bBase u.buf + u.off) u.bytes
    if r.1 = 0 then r.2.writeFields t rq shoot us else r

/-- Writes the written fields, each whole, in a free order up to a failure (R158, R621). -/
def State.writeRec (s : State) (t rq shoot : Nat) (b : BitVec 128) (off : Nat) (w : OutWr) : Nat × State :=
  let us : List WUnit :=
    [⟨b, off + 4, toBytes 4 w.used, 0⟩, ⟨b, off + 8, toBytes 4 w.amax, 0⟩, ⟨b, off + 12, toBytes 4 w.qclamps, 0⟩,
     ⟨b, off + 16, toBytes 4 w.qflushes, 0⟩, ⟨b, off + 26, toBytes 1 w.status, 0⟩, ⟨b, off + 27, toBytes 1 w.reason, 0⟩]
  let q := s.writeFields t rq shoot us
  if q.1 = 0 then q
  else
    let p := s.shuffle us
    p.2.writeFields t rq shoot p.1

/-- The clamp and flush fault bits (R161). -/
def faultBits (qc qf e cthr fthr : Nat) : Nat :=
  b2n (decide (cthr * e < qc * 256)) + 2 * b2n (decide (fthr * e < qf * 256))

/-- qmax of R164 (Table 5.6). -/
def qmaxOf : Fmt → Nat × Int
  | .int8 => (127, 0)
  | .int4 => (7, 0)
  | .int32 => (2147483647, 0)
  | f => maxFin f

/-- The derived scale of R164 as an FP32 encoding, or the degradation reason (Table 5.5). -/
def rescueScale (f : Fmt) (amax scale : Nat) : Except Nat Nat :=
  match decodeNum .fp32 amax with
  | .fin _ m e =>
    if m = 0 then .error 3
    else
      let q := qmaxOf f
      let k0 := magExp m e - magExp q.1 q.2
      let k := if magLt q.1 (q.2 + k0) m e then k0 + 1 else k0
      if k < -126 || 127 < k then .error 3
      else
        let enc := (k + 127).toNat * 2 ^ 23
        if enc = scale then .error 4 else .ok enc
  | _ => .error 2

/-! RESCUE's sweep and second pass (R164, R165). -/

/-- Lets every line that RESCUE held go (R165). -/
def State.releaseHeld (s : State) (t : Nat) : State :=
  let x := s.tile t
  x.lines.foldl (fun s p => if p.2.held then
    let y := s.tile t
    s.setTile t { y with lines := putMap Line.none y.lines p.1 { p.2 with held := false } } else s) s

/-- The device virtual addresses at which the lines of n bytes from va begin. -/
def lineStarts (va n : Nat) : List Nat :=
  if n = 0 then [] else (List.range ((va + n + 127) / 128 - va / 128)).map fun i => max va (128 * (va / 128 + i))

/-- Sweeps the staging lines of a VA buffer: each must be in the tile's shelf, and is then held. Answers whether all are
there (R164). -/
def State.sweep (s : State) (t rq shoot : Nat) (vas : List Nat) : Ev Bool :=
  evFold (fun ok va s =>
    match s.reachNow t rq shoot va true false with
    | (.error c, s1) => (.error c, s1)
    | (.ok (.cellar a), s1) =>
      match s1.lookup t (a / 128) with
      | some w => (.ok ok, s1.setLine t w (setOf (a / 128)) { s1.line t w (setOf (a / 128)) with held := true })
      | none => (.ok false, s1)
    | (.ok _, s1) => (.ok false, s1)) true vas s

/-- A piece of the second pass: the staged values' place and format (`own`: the accumulator's own, R163), and where their codes
go. -/
structure RUnit where
  src : BitVec 128
  srcOff : Nat
  n : Nat
  f : Fmt
  own : Bool
  dst : BitVec 128
  dstOff : Nat
  deriving DecidableEq, Repr

/-- What the second pass has done: results rewritten, QCLAMPS, QFLUSHES, and the flags. -/
structure Pass2 where
  done : Nat
  qc : Nat
  qf : Nat
  fl : Fl
  deriving DecidableEq, Repr

/-- A value converted to FP32 (R88, R186): an FP64 value above FP32's range saturates and counts, or becomes infinite under OVF_INF. -/
def toFp32 (ovf : Bool) (x : Num) (fl : Fl) : Num × Fl := let p := convert .fp32 ovf none x fl; (decodeNum .fp32 p.1, p.2)

/-- The value that a staged element stands for as an input of R159: a staged accumulator value as it is (R163), an X element of a
CVTQ as its FP32 value (R186). -/
def stagedVal (f : Fmt) (own ovf : Bool) (c : Nat) (fl : Fl) : Num × Fl :=
  let x := readIn f c fl
  if own then x else toFp32 ovf x.1 x.2

/-- The values of staged codes. -/
def stagedAll (f : Fmt) (own ovf : Bool) : List Nat → Fl → List Num × Fl
  | [], fl => ([], fl)
  | c :: cs, fl => let x := stagedVal f own ovf c fl; let q := stagedAll f own ovf cs x.2; (x.1 :: q.1, q.2)

/-- Rewrites pieces in ascending order up to the first failure. Answers the status, 0 when all are rewritten. -/
def State.secondPass (s : State) (t rq shoot : Nat) (cv : Conv) : List RUnit → Pass2 → Nat × Pass2 × State
  | [], p => (0, p, s)
  | u :: us, p =>
    match s.bufRead t rq shoot u.src u.srcOff (u.f.bytes u.n) with
    | (.bad c, s1) => (c, p, s1)
    | (.ok bs, s1) =>
      let v := stagedAll u.f u.own cv.ovf (codesOf u.f bs u.n) p.fl
      let q := convAll cv v.1 v.2
      match s1.bufWrite t rq shoot u.dst u.dstOff (packCodes cv.f (q.1.map (·.code))) with
      | (0, s2) =>
        s2.secondPass t rq shoot (cv.skip u.n) us
          ⟨p.done + u.n, p.qc + (q.1.filter (·.clamped)).length, p.qf + (q.1.filter (·.flushed)).length, q.2⟩
      | (c, s2) => (c, { p with fl := q.2 }, s2)

/-- The registers and results that end a second pass. -/
structure Rescue where
  status : Nat
  done : Nat
  wr : OutWr
  bits : Nat
  fl : Fl
  deriving DecidableEq, Repr

/-- RESCUE after a first pass that found a fault (R164, R167, Table 5.4): derives the scale, sweeps, and makes the second pass,
or degrades. `va` says where the staging area lies when it is behind a VA buffer, `e` is the element count, `mk` makes the
conversion for a scale. The bits answered are those of CRATE.MSUM[t] and VSUM.STAT 19:16. -/
def State.rescue (s : State) (t rq shoot : Nat) (cv : Conv) (scale amax qc qf faults e cthr fthr : Nat)
    (vas : List Nat) (us : List RUnit) (fl : Fl) : Rescue × State :=
  let degrade := fun (reason : Nat) (s : State) =>
    ((⟨0, e, ⟨scale, amax, qc, qf, faults + 8, reason⟩, 5, fl⟩ : Rescue), s)
  match rescueScale cv.f amax scale with
  | .error reason => degrade reason s
  | .ok enc =>
    match s.sweep t rq shoot vas with
    | (.error c, s1) => ((⟨c, 0, ⟨enc, amax, 0, 0, faults + 20, 0⟩, 2 + 8, fl⟩ : Rescue), s1.releaseHeld t)
    | (.ok false, s1) => degrade 1 (s1.releaseHeld t)
    | (.ok true, s1) =>
      let dl := s1.dealDraws { cv with rinv := some (rinvOf enc) } (us.map (·.n)).sum
      let cv := dl.1
      let q := dl.2.secondPass t rq shoot cv us ⟨0, 0, 0, fl⟩
      let p := q.2.1
      let s2 := q.2.2.releaseHeld t
      let s2 := if cv.sr then s2.advanceLfsr t p.done cv.start else s2
      if q.1 ≠ 0 then
        ((⟨q.1, p.done, ⟨enc, amax, p.qc, p.qf, faults + 20, 0⟩, 2 + 8, p.fl⟩ : Rescue), s2)
      else
        -- the second pass clamps nothing new: bit 0 keeps the first pass's clamp fault (Table 5.7's record, log entry 30)
        let fb := faultBits p.qc p.qf e cthr fthr
        let st := Nat.lor (faults % 2) fb
        ((⟨0, p.done, ⟨enc, amax, p.qc, p.qf, st + 4, 0⟩, 2 + b2n (decide (fb ≠ 0)), p.fl⟩ : Rescue), s2)

/-! Starting a descriptor. -/

/-- Starts the head descriptor of queue `e` where `p` picks it; a translation or access that must wait leaves the descriptor for
a later step. -/
def State.engineCmd (s : State) (t e : Nat) (p : BitVec 512 → Bool) (go : State → Slot → State) : Res :=
  match s.startable t e with
  | some x =>
    if p x.desc then
      let s1 := go s x
      match ((s1.tile t).eng e).run with
      | some r => if r.ended = some stWAIT then .next s else .next s1
      | none => .next s1
    else .next s
  | none => .next s

end Sys2Proof.Machine
end

