-- ==== Sys2Proof/Machine/Matrix.lean ====
section
/-! DEFINITION. The matrix engine (chapters 4 and 5): operand pairs, checks, metadata, products and accumulation, write-out,
quantised output and RESCUE, the matrix summary, and the issue-rate limiter's frame boundary. -/
namespace Sys2Proof.Machine

/-! Fields of the matrix descriptor (Table 4.5). -/
def xABuf (d : BitVec 512) : Nat := dBits d 64 4
def xBBuf (d : BitVec 512) : Nat := dBits d 68 4
def xCBuf (d : BitVec 512) : Nat := dBits d 72 4
def xQBuf (d : BitVec 512) : Nat := dBits d 76 4
def xShape (d : BitVec 512) : Nat := dBits d 96 2
def xPrec (d : BitVec 512) : Nat := dBits d 98 1
def xCinit (d : BitVec 512) : Bool := dBits d 99 1 = 1
def xSround (d : BitVec 512) : Bool := dBits d 100 1 = 1
def xOvfInf (d : BitVec 512) : Bool := dBits d 101 1 = 1
def xNeg (d : BitVec 512) : Bool := dBits d 102 1 = 1
def xGsize (d : BitVec 512) : Nat := dBits d 384 2
def xSfmt (d : BitVec 512) : Nat := dBits d 386 2
def xAScaled (d : BitVec 512) : Bool := dBits d 388 1 = 1
def xBScaled (d : BitVec 512) : Bool := dBits d 389 1 = 1
def xAZp (d : BitVec 512) : Bool := dBits d 390 1 = 1
def xBZp (d : BitVec 512) : Bool := dBits d 391 1 = 1
def xEscEn (d : BitVec 512) : Bool := dBits d 392 1 = 1
def xEscCode (d : BitVec 512) : Nat := dBits d 393 4
def xCQuant (d : BitVec 512) : Bool := dBits d 397 1 = 1
def xPolicy (d : BitVec 512) : Nat := dBits d 398 2
def xClampThr (d : BitVec 512) : Nat := dBits d 400 8
def xFlushThr (d : BitVec 512) : Nat := dBits d 408 8
def xCbOff (d : BitVec 512) : Nat := dBits d 416 32
def xAQoff (d : BitVec 512) : Nat := 16 * dBits d 448 24
def xBQoff (d : BitVec 512) : Nat := 16 * dBits d 472 24
def xCQoff (d : BitVec 512) : Nat := 16 * dBits d 496 16

/-- Late-bindable fields: LATE_MASK bit and lowest descriptor bit. -/
def matrixLate : List (Nat × Nat) := [(0, 104), (1, 128), (2, 144), (3, 160), (4, 192), (5, 224)]

/-- The classes of Table 4.3. -/
inductive MClass where
  | c4 | c816 | fp32 | s3 | s9 | s6
  deriving DecidableEq, Repr

/-- The accepted operand pairs of Table 4.2: class and accumulator before scaling (R111). -/
def pairOf (a b cb : Fmt) (cbf prec : Nat) : Option (MClass × Fmt) :=
  if a = .fp32 ∧ b = .fp32 then some (if prec = 1 then .s3 else .fp32, .fp32)
  else if a = .fp64 ∧ b = .fp64 then some (if prec = 1 then .s6 else .s9, .fp64)
  else if prec = 1 then none
  else if a = b ∧ (a = .int4 ∨ a = .uint4) then some (.c4, .int32)
  else if a = b ∧ (a = .int8 ∨ a = .uint8) then some (.c816, .int32)
  else if a = .fp4 ∧ b = .fp4 then some (.c4, .fp32)
  else if a = .cb4 ∧ b = .cb4 then
    if cbf = 3 ∨ cbf = 4 then some (.c4, .fp32) else if cbf = 1 then some (.c816, .fp32) else none
  else if a = b ∧ (a = .e4m3 ∨ a = .e5m2 ∨ a = .bf16 ∨ a = .fp16) then some (.c816, .fp32)
  else if a = .e4m3 ∨ a = .e5m2 ∨ a = .bf16 then
    if b = .int4 ∨ (b = .cb4 ∧ cb = a) ∨ (b = .uint4 ∧ a ≠ .e5m2) then some (.c816, .fp32) else none
  else none

/-- Mb × Nb of a class and SHAPE (Table 4.3). -/
def blockShape : MClass → Nat → Nat × Nat
  | .c4, 0 => (16, 16)
  | .s3, 0 => (16, 16)
  | _, 0 => (8, 8)
  | _, 1 => (4, 16)
  | _, _ => (1, 16)

/-- What a matrix descriptor asks for, after its ILLEGAL checks on fields alone. -/
structure MX where
  cls : MClass
  acc : Fmt
  fa : Fmt
  fb : Fmt
  fc : Fmt
  cbf : Fmt
  m : Nat
  n : Nat
  k : Nat
  aOff : Nat
  bOff : Nat
  cOff : Nat
  lda : Nat
  ldb : Nat
  ldc : Nat
  gs : Nat
  deriving DecidableEq, Repr

/-- Does A carry metadata, and does B (R143)? -/
def xHa (d : BitVec 512) : Bool := xAScaled d || xAZp d
def xHb (d : BitVec 512) : Bool := xBScaled d || xBZp d || xEscEn d

/-- Groups of a row or column (R142). -/
def MX.groups (x : MX) : Nat := if x.gs = 0 then 0 else (x.k + x.gs - 1) / x.gs

/-- The format of scales. -/
def scaleFmt (d : BitVec 512) : Fmt := if xSfmt d = 0 then .e8m0 else if xSfmt d = 1 then .e4m3 else .bf16

/-- The descriptor's meaning, none where R45, R76, R111, R117 or R156 makes it ILLEGAL by its fields. -/
def mxOf (r : Run) : Option MX :=
  let d := r.desc
  match fmtOfCode (dBits d 80 4), fmtOfCode (dBits d 84 4), fmtOfCode (dBits d 88 4) with
  | some fa, some fb, some fc =>
    let cbc := dBits d 92 4
    let cbf := if cbc = 3 then Fmt.e4m3 else if cbc = 4 then .e5m2 else .bf16
    let hasCb := decide (fa = .cb4) || decide (fb = .cb4)
    match pairOf fa fb cbf cbc (xPrec d) with
    | none => none
    | some (cls, acc0) =>
      let scaled := xAScaled d || xBScaled d
      let acc := if acc0 = .int32 && scaled then Fmt.fp32 else acc0
      let wide := decide (fa = .fp32 ∨ fa = .fp64 ∨ fb = .fp32 ∨ fb = .fp64)
      let unsigned := fun (f : Fmt) => decide (f = .uint4 ∨ f = .uint8)
      let bad :=
        decide (hOp d ≠ 0x10) || decide (hRsv d ≠ 0) || decide (dBits d 103 1 ≠ 0) || decide (dBits d 352 32 ≠ 0) ||
        !lateOk d matrixLate [] || (!hasCb && decide (cbc ≠ 0)) ||
        (hasCb && decide (cbc ≠ 1 ∧ cbc ≠ 3 ∧ cbc ≠ 4)) ||
        decide (xShape d = 3) || decide (xSfmt d = 3) || decide (xPolicy d = 3) || decide (fc = .cb4 ∨ fc = .e8m0) ||
        (xCinit d && decide (fc ≠ acc)) || (scaled && (decide (xGsize d = 0) || wide)) ||
        (xAZp d && !unsigned fa) || (xBZp d && !unsigned fb) || (xEscEn d && decide (fb ≠ .cb4 ∧ fb ≠ .int4)) ||
        (xCQuant d && !quantFmt fc) || (decide (xPolicy d ≠ 0) && !xCQuant d) ||
        ((xAZp d || xBZp d || xEscEn d) && decide (xGsize d = 0)) || (xEscEn d && fa.isInt) ||
        (xCQuant d && decide (xPolicy d = 2) && unsigned fc)
      if bad then none
      else some {
        cls := cls, acc := acc, fa := fa, fb := fb, fc := fc, cbf := cbf
        k := lateField d r.lbv 0 104 24, m := lateField d r.lbv 1 128 16, n := lateField d r.lbv 2 144 16
        aOff := lateField d r.lbv 3 160 32, bOff := lateField d r.lbv 4 192 32, cOff := lateField d r.lbv 5 224 32
        lda := dBits d 256 32, ldb := dBits d 288 32, ldc := dBits d 320 32
        gs := if xGsize d = 0 then 0 else 16 * 2 ^ xGsize d }
  | _, _, _ => none

/-- Does the descriptor use Q_BUF? -/
def xUsesQ (d : BitVec 512) : Bool :=
  decide (dBits d 80 4 = 10) || decide (dBits d 84 4 = 10) || xHa d || xHb d || xCQuant d

/-- The buffers that a matrix descriptor names (R45). -/
def matrixBufs (d : BitVec 512) : List Nat :=
  [xABuf d, xBBuf d, xCBuf d] ++ (if xUsesQ d then [xQBuf d] else [])

/-- The records read at the start: the side list's offset, count and format, and the output scale record, none where it could not be
read. -/
structure MRec where
  sideOff : Nat
  sideCount : Nat
  sideFp16 : Bool
  rcd : Option OutRec
  deriving DecidableEq, Repr

/-- The output scale record's read fields. -/
def MRec.out (q : MRec) : OutRec := q.rcd.getD ⟨0, 0, 0, 0⟩

/-- Reads a record that lies within its buffer's bounds and permission; a record that does not is left to the extent checks
(R619). -/
def State.readRecord (s : State) (t rq : Nat) (r : Run) (buf off n : Nat) : Ev (Option (List Byte)) :=
  let x : Extent := ⟨buf, off, (off + n : Nat), true, false⟩
  if r.extentIn x && s.extentAllowed t r x then
    Ev.andThen (s.evRead t rq r.shoot (r.buf buf) off n) fun b s1 => (.ok (some b), s1)
  else (.ok none, s)

/-- Checks an operand record (R145, R156): SIDE_OFF, SIDE_COUNT and SIDE_FMT, none where it is ILLEGAL. -/
def operandRecOf (bs : List Byte) (esc : Bool) : Option (Nat × Nat × Bool) :=
  let n := ofBytes bs
  let off := bitsAt n 0 32
  let cnt := bitsAt n 32 32
  let fm := bitsAt n 64 1
  if decide (bitsAt n 65 63 ≠ 0) then none
  else if esc then if off % 2 = 0 then some (off, cnt, decide (fm = 1)) else none
  else if off = 0 ∧ cnt = 0 ∧ fm = 0 then some (0, 0, false) else none

/-- Reads the operand and output records (R145, R158). -/
def State.mxRecords (s : State) (t : Nat) (r : Run) (x : MX) : Ev MRec :=
  let d := r.desc
  let op := fun (on : Bool) (off : Nat) (esc : Bool) (s : State) =>
    if on then
      Ev.andThen (s.readRecord t 1 r (xQBuf d) off 16) fun b s1 =>
        match b with
        | none => ((.ok (0, 0, false) : Except Nat (Nat × Nat × Bool)), s1)
        | some bs =>
          match operandRecOf bs esc with
          | some v => (.ok v, s1)
          | none => (.error stILLEGAL, s1)
    else (.ok (0, 0, false), s)
  Ev.andThen (op (xHa d) (xAQoff d) false s) fun _ s1 =>
    Ev.andThen (op (xHb d) (xBQoff d) (xEscEn d) s1) fun side s2 =>
      if xCQuant d then
        Ev.andThen (s2.readRecord t 1 r (xQBuf d) (xCQoff d) 32) fun b s3 =>
          match b with
          | none => (.ok ⟨side.1, side.2.1, side.2.2, none⟩, s3)
          | some bs =>
            match outRecOf bs x.fc (decide (xPolicy d = 2)) with
            | some o => (.ok ⟨side.1, side.2.1, side.2.2, some o⟩, s3)
            | none => (.error stILLEGAL, s3)
      else (.ok ⟨side.1, side.2.1, side.2.2, none⟩, s2)

/-- A strided operand's extent: rows × ld + the last row's bytes (R119). -/
def rowsExtent (buf off rows ld len : Nat) (rd wr : Bool) : Extent :=
  ⟨buf, off, (off : Int) + ((rows : Int) - 1) * ld + len, rd, wr⟩

/-- The metadata extents in Q_BUF (R113, R146), the codebook among them (DESIGN CHOICE, log entry 68). -/
def mxMeta (d : BitVec 512) (x : MX) (q : MRec) : List Extent :=
  let b := xQBuf d
  let ent := fun (off n : Nat) (wr : Bool) => (⟨b, off, (off + n : Nat), true, wr⟩ : Extent)
  let w := if x.cbf = .bf16 then 2 else 1
  (if x.fa = .cb4 then [ent (xCbOff d) (32 * w) false] else if x.fb = .cb4 then [ent (xCbOff d) (16 * w) false] else []) ++
    (if xHa d then [ent (xAQoff d) (16 + 8 * x.groups * x.m) false] else []) ++
    (if xHb d then [ent (xBQoff d) (16 + 8 * x.groups * x.n) false] else []) ++
    (if xEscEn d then [ent q.sideOff (2 * q.sideCount) false] else []) ++
    (if xCQuant d then [ent (xCQoff d) 32 true] else [])

/-- Does the descriptor stage its outputs (R162, R163)? -/
def xRescue (d : BitVec 512) : Bool := xCQuant d && decide (xPolicy d = 2)

/-- The checks of R119, R120 and R163: the first failing status. -/
def State.mxCheck (s : State) (t : Nat) (r : Run) (x : MX) (q : MRec) : Option Nat :=
  let d := r.desc
  let a := rowsExtent (xABuf d) x.aOff x.m x.lda (x.fa.bytes x.k) true false
  let b := rowsExtent (xBBuf d) x.bOff x.n x.ldb (x.fb.bytes x.k) true false
  let c := rowsExtent (xCBuf d) x.cOff x.m x.ldc (x.fc.bytes x.n) (xCinit d) true
  let st : List Extent :=
    if xRescue d && q.rcd.isSome then [⟨q.out.stageBuf, q.out.stageOff, (q.out.stageOff + 4 * x.m * x.n : Nat), true, true⟩] else []
  let md := mxMeta d x q
  let others := [a, b] ++ md
  let meets := (decide (1 < x.m) && decide (x.ldc < x.fc.bytes x.n)) || others.any (r.extentsClash c) ||
    st.any fun g => (c :: others).any (r.extentsClash g)
  s.checkExtents t r ([a, b, c] ++ md ++ st) meets

/-! Operands. -/

/-- The group headers of a row or column (R144). -/
def State.mxHeaders (s : State) (t : Nat) (r : Run) (x : MX) (on : Bool) (qoff i : Nat) : Ev (List Nat) :=
  if on then
    Ev.andThen (s.evRead t 1 r.shoot (r.buf (xQBuf r.desc)) (qoff + 16 + 8 * (i * x.groups)) (8 * x.groups)) fun bs s1 =>
      (.ok ((chunks 8 bs).map ofBytes), s1)
  else (.ok [], s)

/-- The value of an element that is no escape (R79, R112, R152). -/
def mxElem (x : MX) (f : Fmt) (cb : List Nat) (zp : Option Nat) (c : Nat) (fl : Fl) : Num × Fl :=
  if f = .cb4 then readIn x.cbf (cb.getD c 0) fl
  else match zp with
    | some z => (Num.ofInt ((c : Int) - z), fl)
    | none => readIn f c fl

/-- Zero point of a group header (Table 5.2). -/
def headerZp (f : Fmt) (h : Nat) : Nat := bitsAt h 16 (if f = .uint4 then 4 else 8)

/-- The values of a row's or column's elements; `esc` gives the side-list entry of each escape, with its format. -/
def mxElems (x : MX) (f : Fmt) (cb hdrs : List Nat) (zpOn : Bool) (esc : List (Nat × Nat)) (sf : Fmt) :
    List (Nat × Nat) → Fl → List Num × Fl
  | [], fl => ([], fl)
  | (k, c) :: cs, fl =>
    let v := match esc.find? fun p => p.1 = k with
      | some p => readIn sf p.2 fl
      | none => mxElem x f cb (if zpOn then some (headerZp f (hdrs.getD (k / x.gs) 0)) else none) c fl
    let q := mxElems x f cb hdrs zpOn esc sf cs v.2
    (v.1 :: q.1, q.2)

/-- The scales of a row or column (R148); none listed when the operand is not scaled. -/
def mxScales (d : BitVec 512) (on : Bool) (hdrs : List Nat) (fl : Fl) : List Num × Fl :=
  let f := scaleFmt d
  if on then readAll f (hdrs.map fun h => bitsAt h 0 f.bits) fl else ([], fl)

/-- A row of A or column of B as values: elements, scales and escape stall cycles. -/
structure MVec where
  vals : List Num
  scales : List Num
  stalls : Nat
  deriving DecidableEq, Repr

/-- Row `i` of A. -/
def State.mxRow (s : State) (t : Nat) (r : Run) (x : MX) (cb : List Nat) (i : Nat) (fl : Fl) : Ev (MVec × Fl) :=
  let d := r.desc
  Ev.andThen (s.evRead t 1 r.shoot (r.buf (xABuf d)) (x.aOff + i * x.lda) (x.fa.bytes x.k)) fun bs s1 =>
    Ev.andThen (s1.mxHeaders t r x (xHa d) (xAQoff d) i) fun hs s2 =>
      let cs := codesOf x.fa bs x.k
      let v := mxElems x x.fa cb hs (xAZp d) [] .bf16 ((List.range x.k).zip cs) fl
      let g := mxScales d (xAScaled d) hs v.2
      (.ok (⟨v.1, g.1, 0⟩, g.2), s2)

/-- Checks the escapes of group `g` of column `j` and reads their side-list entries (R153, R157). -/
def State.mxGroupEsc (s : State) (t : Nat) (r : Run) (x : MX) (q : MRec) (cs : List Nat) (j : Nat) (hdrs : List Nat)
    (got : List (Nat × Nat)) (g : Nat) : Ev (List (Nat × Nat)) :=
  let d := r.desc
  let h := hdrs.getD g 0
  let cnt := bitsAt h 24 8
  let first := bitsAt h 32 32
  let ks := (List.range (min ((g + 1) * x.gs) x.k - g * x.gs)).filterMap fun i =>
    if cs.getD (g * x.gs + i) 16 = xEscCode d then some (g * x.gs + i) else none
  if ks.length ≠ cnt then
    (.error stENGINE, s.raise 0x0112 1 t (detailOf [(2, j), (1, cnt), (1, ks.length), (4, g)]))
  else if cnt = 0 then (.ok got, s)
  else if q.sideCount < first + cnt then
    (.error stENGINE, s.raise 0x0113 1 t (detailOf [(2, j), (4, g), (8, first + cnt), (4, q.sideCount)]))
  else
    Ev.andThen (s.evRead t 1 r.shoot (r.buf (xQBuf d)) (q.sideOff + 2 * first) (2 * cnt)) fun bs s1 =>
      (.ok (got ++ ks.zip ((chunks 2 bs).map ofBytes)), s1)

/-- Escape stalls of a column: beyond two in each run of 32 (R130). -/
def escStalls (codes : List Nat) (esc : Nat) : Nat :=
  ((chunks 32 codes).map fun run => (run.filter fun c => decide (c = esc)).length - 2).sum

/-- A column of B as read: its number, codes, group headers and the side-list entries of its escapes. -/
structure MCol where
  j : Nat
  codes : List Nat
  hdrs : List Nat
  esc : List (Nat × Nat)
  deriving DecidableEq, Repr

/-- Reads column `j` of B with its headers. -/
def State.mxColRead (s : State) (t : Nat) (r : Run) (x : MX) (j : Nat) : Ev MCol :=
  let d := r.desc
  Ev.andThen (s.evRead t 1 r.shoot (r.buf (xBBuf d)) (x.bOff + j * x.ldb) (x.fb.bytes x.k)) fun bs s1 =>
    Ev.andThen (s1.mxHeaders t r x (xHb d) (xBQoff d) j) fun hs s2 => (.ok ⟨j, codesOf x.fb bs x.k, hs, []⟩, s2)

/-- Checks the escapes of a block's columns: a step takes slices of all columns, so every column's group g is checked before any
column's group g + 1 (R157). -/
def State.mxEscs (s : State) (t : Nat) (r : Run) (x : MX) (q : MRec) (cols : List MCol) : Ev (List MCol) :=
  if xEscEn r.desc then
    evFold (fun cols g s => evMap (fun (c : MCol) s =>
      Ev.andThen (s.mxGroupEsc t r x q c.codes c.j c.hdrs c.esc g) fun e s1 => (.ok { c with esc := e }, s1)) cols s)
      cols (List.range x.groups) s
  else (.ok cols, s)

/-- The values of a column. -/
def mxColVals (d : BitVec 512) (x : MX) (q : MRec) (cb : List Nat) (c : MCol) (fl : Fl) : MVec × Fl :=
  let v := mxElems x x.fb cb c.hdrs (xBZp d) c.esc (if q.sideFp16 then .fp16 else .bf16) ((List.range x.k).zip c.codes) fl
  let g := mxScales d (xBScaled d) c.hdrs v.2
  (⟨v.1, g.1, if xEscEn d then escStalls c.codes (xEscCode d) else 0⟩, g.2)

/-! Products and accumulation. -/

/-- The product of two elements in a class: exact, or the sum of the partial products that Table 3.8 uses. -/
def mxProd (cls : MClass) (a b : Num) (fl : Fl) : Num × Fl :=
  match cls, a, b with
  | .s3, .fin n m e, .fin n' m' e' =>
    (.fin (xor n n') (m * m' - (m % 4096) * (m' % 4096)) (e + e'), fl)
  | .s6, .fin n m e, .fin n' m' e' =>
    let d := m / 32 % 2 ^ 24
    let l := m % 32
    let d' := m' / 32 % 2 ^ 24
    let l' := m' % 32
    (.fin (xor n n') (m * m' - 32 * (d * l' + l * d') - l * l') (e + e'), fl)
  | _, _, _ => mulNum a b fl

/-- The products of a row and a column, in K order; `neg` negates each (R127). -/
def mxProds (cls : MClass) (neg : Bool) : List Num → List Num → Fl → List Num × Fl
  | a :: as, b :: bs, fl =>
    let p := mxProd cls a b fl
    let q := mxProds cls neg as bs p.2
    ((if neg then p.1.neg else p.1) :: q.1, q.2)
  | _, _, fl => ([], fl)

/-- The exact sum of a list of terms; a sum of no terms is +0. -/
def sumExact : List Num → Fl → Num × Fl
  | [], fl => (Num.zero, fl)
  | [x], fl => (x, fl)
  | x :: xs, fl => let q := sumExact xs fl; addNum x q.1 q.2

/-- The group sums of R122: four consecutive products added exactly and rounded once to FP32. -/
def groupSums : List (List Num) → Fl → List Num × Fl
  | [], fl => ([], fl)
  | g :: gs, fl =>
    let x := sumExact g fl
    let y := roundArith .fp32 x.1 x.2
    let q := groupSums gs y.2
    (y.1 :: q.1, q.2)

/-- Applies sA × sB exactly and rounds once to FP32 (R123, R149, R150). -/
def scalePartial (p : Num) (sa sb : Option Num) (fl : Fl) : Num × Fl :=
  let a := match sa with
    | some v => mulNum p v fl
    | none => (p, fl)
  let b := match sb with
    | some v => mulNum a.1 v a.2
    | none => a
  roundArith .fp32 b.1 b.2

/-- The scaled contributions of the scaling groups (R123, R150). -/
def State.scaledTerms (s : State) (neg int : Bool) : List (List Num) → List Num → List Num → Fl → List Num × Fl × State
  | [], _, _, fl => ([], fl, s)
  | g :: gs, sa, sb, fl =>
    let p : Num × Fl × State :=
      if int then let x := sumExact g fl; let y := satInt32 x.1.toInt x.2; (y.1, y.2, s)
      else
        let c := groupSums (chunks 4 g) fl
        let q := s.accumulate .fp32 none c.1 c.2
        (q.1.getD Num.zero, q.2.1, q.2.2)
    let y := scalePartial p.1 sa.head? sb.head? p.2.1
    let q := p.2.2.scaledTerms neg int gs sa.tail sb.tail y.2
    ((if neg then y.1.neg else y.1) :: q.1, q.2.1, q.2.2)

/-- Unbiased exponent of a non-zero finite value. -/
def expOf : Num → Int
  | .fin _ m e => magExp m e
  | _ => 0

/-- A value as a signed multiple of 2^q, rounded to nearest even, and whether that was inexact. -/
def alignTo (q : Int) : Num → Int × Bool
  | .fin n m e => let p := roundAt q none m e; (if n then -(p.1 : Int) else (p.1 : Int), p.2)
  | _ => (0, false)

/-- One 128-bit accumulation of at most 2^19 products, rounded once to FP64 (R103, R126). `E` is one more than the largest sum of
operand exponents; the terms are non-zero and finite. -/
def acc128 (E : Int) (terms : List Num) (fl : Fl) : Num × Fl :=
  let q := E - 107
  let r := terms.foldl (fun a x => let v := alignTo q x; (a.1 + v.1, a.2 || v.2)) ((0 : Int), false)
  let fl := fl.setIf r.2 fINEXACT
  roundArith .fp64 (.fin (decide (r.1 < 0)) r.1.natAbs q) fl

/-- The largest of a list of integers, if any. -/
def maxInt : List Int → Option Int
  | [] => none
  | x :: xs => match maxInt xs with
    | none => some x
    | some y => some (max x y)

/-- One block of an FP64 dot product, of at most 2^19 products with the sums of their operands' exponents, and a loaded value (R103 to
R105, R126, R620). NaN and infinite terms are added in a free order; a zero product has no exponent and does not count in E (log
entry 61). -/
def State.block128 (s : State) (ps : List (Num × Int)) (load : Option Num) (fl : Fl) : Num × Fl × State :=
  let all := load.toList ++ ps.map Prod.fst
  let special := all.filter fun v => v.isNan || v.isInf
  if !special.isEmpty then
    let p := s.shuffle special
    let q := accSeq .fp64 none p.1 fl
    (q.1.getD Num.zero, q.2, p.2)
  else if all.all Num.isZero then
    (if all.isEmpty then Num.zero else .fin (all.all Num.signBit) 0 0, fl, s)
  else
    let live := ps.filter fun p => !p.1.isZero
    let c := load.toList.filter fun v => !v.isZero
    let r := acc128 ((maxInt (live.map Prod.snd ++ c.map expOf)).getD 0 + 1) (c ++ live.map Prod.fst) fl
    (r.1, r.2, s)

/-- An FP64 dot product (R104, R125): blocks of 2^19 consecutive products, the loaded value in the first; each is rounded once to FP64
and added to the first (log entry 61). -/
def State.dot128 (s : State) (ps : List (Num × Int)) (c0 : Option Num) (fl : Fl) : Num × Fl × State :=
  let bs := chunks 524288 ps
  let r0 := s.block128 (bs.headD []) c0 fl
  let rest := bs.tail.foldl (fun (a : List Num × Fl × State) b =>
    let v := a.2.2.block128 b none a.2.1
    (a.1 ++ [v.1], v.2.1, v.2.2)) (([] : List Num), r0.2.1, r0.2.2)
  let q := rest.2.2.accumulate .fp64 (some r0.1) rest.1 rest.2.1
  (q.1.getD Num.zero, q.2.1, q.2.2)

/-- One output's accumulation (R118, R121 to R127, R150). -/
def State.mxSum (s : State) (d : BitVec 512) (x : MX) (a b : MVec) (c0 : Option Num) (fl : Fl) : Num × Fl × State :=
  let fin := fun (q : Option Num × Fl × State) => (q.1.getD Num.zero, q.2.1, q.2.2)
  let scaled := xAScaled d || xBScaled d
  let intPair := x.fa.isInt && x.fb.isInt
  match x.cls with
  | .s9 | .s6 =>
    let p := mxProds x.cls (xNeg d) a.vals b.vals fl
    s.dot128 (p.1.zip ((a.vals.zip b.vals).map fun v => expOf v.1 + expOf v.2)) c0 p.2
  | .fp32 | .s3 =>
    let p := mxProds x.cls (xNeg d) a.vals b.vals fl
    fin (s.accumulate .fp32 c0 p.1 p.2)
  | _ =>
    if scaled then
      let p := mxProds x.cls false a.vals b.vals fl
      let g := s.scaledTerms (xNeg d) intPair (chunks x.gs p.1) a.scales b.scales p.2
      fin (g.2.2.accumulate .fp32 c0 g.1 g.2.1)
    else
      let p := mxProds x.cls (xNeg d) a.vals b.vals fl
      if intPair then fin (s.accumulate .int32 c0 p.1 p.2)
      else
        let g := groupSums (chunks 4 p.1) p.2
        fin (s.accumulate .fp32 c0 g.1 g.2)

/-- One output's accumulator value. Where it depends on a NaN or infinite input its roundings set no INEXACT (R611). -/
def State.mxDot (s : State) (d : BitVec 512) (x : MX) (a b : MVec) (c0 : Option Num) (fl : Fl) : Num × Fl × State :=
  let special := (a.vals ++ b.vals ++ a.scales ++ b.scales ++ c0.toList).any fun v => v.isNan || v.isInf
  let r := s.mxSum d x a b c0 fl
  (r.1, fl.dropInexact r.2.1 special, r.2.2)

/-! Blocks. -/

/-- What a descriptor has done so far. -/
structure MAcc where
  fl : Fl
  done : Nat
  wrote : Bool
  esc : Nat
  used : Nat
  qc : Nat
  qf : Nat
  amax : Num
  code : Option Nat
  deriving DecidableEq, Repr

/-- The initial values of a row of a block's outputs (R126). -/
def State.mxLoad (s : State) (t : Nat) (r : Run) (x : MX) (i j0 n : Nat) (fl : Fl) : Ev (List (Option Num) × Fl) :=
  if xCinit r.desc then
    Ev.andThen (s.evRead t 1 r.shoot (r.buf (xCBuf r.desc)) (x.cOff + i * x.ldc + j0 * (x.fc.bits / 8)) (x.fc.bytes n))
      fun bs s1 => let v := readAll x.fc (codesOf x.fc bs n) fl; (.ok (v.1.map some, v.2), s1)
  else (.ok (List.replicate n none, fl), s)

/-- The outputs of one row of a block. -/
def State.mxDots (s : State) (d : BitVec 512) (x : MX) (a : MVec) : List (MVec × Option Num) → Fl → List Num × Fl × State
  | [], fl => ([], fl, s)
  | (b, c) :: cs, fl =>
    let p := s.mxDot d x a b c fl
    let q := p.2.2.mxDots d x a cs p.2.1
    (p.1 :: q.1, q.2.1, q.2.2)

/-- The accumulator values of a block, row by row, with its escape stalls. -/
def State.mxBlockVals (s : State) (t : Nat) (r : Run) (x : MX) (q : MRec) (cba cbb : List Nat) (is js : List Nat) (fl : Fl) :
    Ev (List (List Num) × Nat × Fl) :=
  let rows := evFold (fun (acc : List (MVec × List (Option Num)) × Fl) i s =>
    Ev.andThen (s.mxLoad t r x i (js.headD 0) js.length acc.2) fun c s1 =>
      Ev.andThen (s1.mxRow t r x cba i c.2) fun v s2 => (.ok (acc.1 ++ [(v.1, c.1)], v.2), s2)) ([], fl) is s
  Ev.andThen rows fun ra s1 =>
    Ev.andThen (evMap (fun j s => s.mxColRead t r x j) js s1) fun cols s1 =>
    Ev.andThen (s1.mxEscs t r x q cols) fun cols s2 =>
      let ca := cols.foldl (fun (acc : List MVec × Fl) c =>
        let v := mxColVals r.desc x q cbb c acc.2
        (acc.1 ++ [v.1], v.2)) ([], ra.2)
      let out := ra.1.foldl (fun (a : List (List Num) × Fl × State) rv =>
        let p := a.2.2.mxDots r.desc x rv.1 (ca.1.zip rv.2) a.2.1
        (a.1 ++ [p.1], p.2.1, p.2.2)) ([], ca.2, s2)
      (.ok (out.1, (ca.1.map (·.stalls)).sum, out.2.1), out.2.2)

/-- The bits staged for an accumulator value (R163). For a 128-bit accumulator, whose staged form the spec does not give, they are
free (log entry 31). -/
def State.stagedBits (s : State) (acc : Fmt) (v : Num) : Nat × State :=
  if acc = .int32 then (encodeInt 32 v.toInt, s)
  else if acc = .fp64 then let d := s.draw; (d.1 % 2 ^ 32, d.2)
  else ((convert .fp32 false none v Fl.clear).1, s)

/-- The pieces in which a row of a block is written: codes of C (R128), then staged values (R163). -/
def State.mxRowUnits (s : State) (r : Run) (x : MX) (q : MRec) (i j0 : Nat) (codes : List Nat) (vals : List Num) :
    List WUnit × State :=
  let d := r.desc
  let w := if x.fc.is4 then 2 else 1
  let ps := chunks w codes
  let cu := (List.range ps.length).map fun u =>
    let c := ps.getD u []
    (⟨r.buf (xCBuf d), x.cOff + i * x.ldc + (j0 + w * u) * x.fc.bits / 8, packCodes x.fc c, c.length⟩ : WUnit)
  if xRescue d then
    let st := vals.foldl (fun (a : List Nat × State) v => let b := a.2.stagedBits x.acc v; (a.1 ++ [b.1], b.2)) ([], s)
    let su := (List.range st.1.length).map fun u =>
      (⟨r.buf q.out.stageBuf, q.out.stageOff + 4 * (i * x.n + j0 + u), toBytes 4 (st.1.getD u 0), 0⟩ : WUnit)
    (cu ++ su, st.2)
  else (cu, s)

/-- Writes a block out. A failure stops the block's writes there; the order of the writes within the block is free (R140). -/
def State.mxWrite (s : State) (t : Nat) (r : Run) (us : List WUnit) : Nat × Nat × State :=
  let q := s.writeUnits t 1 r.shoot us 0
  if q.1 = 0 then q
  else let p := s.shuffle us; p.2.writeUnits t 1 r.shoot p.1 0

/-- A descriptor that abandons a block: the spec does not say what the abandoned block's part of FLAGS, CLAMPS, FLUSHES and
ESC_EXTRA is, so what it adds to each is free (log entry 56). -/
def State.abandonBlock (s : State) (a : MAcc) (c : Nat) : MAcc × State :=
  let f := s.draw
  let k := f.2.draw
  let z := k.2.draw
  let e := z.2.draw
  ({ a with
      code := some c, esc := a.esc + e.1
      fl := ⟨a.fl.flags ||| BitVec.ofNat 8 f.1, min (a.fl.clamps + k.1) 0xFFFFFFFF, min (a.fl.flushes + z.1) 0xFFFFFFFF⟩ }, e.2)

/-- Computes, converts and writes one block (R128, R134, R140, R157). -/
def State.mxBlock (s : State) (t : Nat) (r : Run) (x : MX) (q : MRec) (cv : Conv) (cba cbb : List Nat)
    (mism : Option (Nat × Nat × Nat)) (bmn : Nat × Nat) (a : MAcc) (b bi bj : Nat) : MAcc × State :=
  let is := (List.range (min bmn.1 (x.m - bi * bmn.1))).map (· + bi * bmn.1)
  let js := (List.range (min bmn.2 (x.n - bj * bmn.2))).map (· + bj * bmn.2)
  match mism with
  | some (cell, step, blk) =>
    if blk = b then
      (s.raise 0x0111 1 t (detailOf [(1, cell % 64), (1, hSeq r.desc), (4, step), (4, b)])).abandonBlock a stENGINE
    else go is js
  | none => go is js
where
  go (is js : List Nat) : MAcc × State :=
    match s.mxBlockVals t r x q cba cbb is js a.fl with
    | (.error c, s1) => s1.abandonBlock a c
    | (.ok (vals, stalls, fl), s1) =>
      let flat := vals.flatten
      let c := convAll (cv.skip a.used) flat fl
      let rows := chunks js.length c.1
      let us := (List.range rows.length).foldl (fun (u : List WUnit × State) i =>
        let p := u.2.mxRowUnits r x q (is.getD i 0) (js.headD 0) ((rows.getD i []).map (·.code)) (vals.getD i [])
        (u.1 ++ p.1, p.2)) (([] : List WUnit), s1)
      let w := us.2.mxWrite t r us.1
      let a := { a with fl := c.2, used := a.used + flat.length, esc := a.esc + stalls, wrote := a.wrote || decide (0 < w.2.1) }
      if w.1 ≠ 0 then ({ a with code := some w.1 }, w.2.2)
      else ({ a with
        done := a.done + flat.length
        qc := a.qc + (c.1.filter (·.clamped)).length
        qf := a.qf + (c.1.filter (·.flushed)).length
        amax := flat.foldl amaxStep a.amax }, w.2.2)

/-- Blocks in order of block row and then column (R128), up to the first that ends the descriptor. -/
def State.mxBlocks (s : State) (t : Nat) (r : Run) (x : MX) (q : MRec) (cv : Conv) (cba cbb : List Nat)
    (mism : Option (Nat × Nat × Nat)) (bmn : Nat × Nat) : List (Nat × Nat × Nat) → MAcc → MAcc × State
  | [], a => (a, s)
  | (b, bi, bj) :: bs, a =>
    let p := s.mxBlock t r x q cv cba cbb mism bmn a b bi bj
    if p.1.code.isSome then p else p.2.mxBlocks t r x q cv cba cbb mism bmn bs p.1

/-! The end. -/

/-- The words of CRATE.MSUM[t] (Table 4.8). -/
def msumWords (t : Nat) (d : BitVec 512) (fl : Fl) (bits esc : Nat) : List (Nat × Word) :=
  let a := hubReg t 0x800 16
  [(a, BitVec.ofNat 32 (fl.flags.toNat + 2 ^ 8 * hSeq d + 2 ^ 16 * bits)), (a + 4, BitVec.ofNat 32 fl.clamps),
    (a + 8, BitVec.ofNat 32 fl.flushes), (a + 12, BitVec.ofNat 32 (min esc 0xFFFFFFFF))]

/-- Ends a matrix run with its summary (R139); DESCRIPTOR_COMPLETE writes both out. -/
def State.mxEnd (s : State) (t : Nat) (r : Run) (code done bits esc : Nat) (fl : Fl) : State :=
  s.setRun t 0 { r with
    ended := some code, done := done, flags := fl.flags, clamps := fl.clamps, flushes := fl.flushes, phase := .work
    post := msumWords t r.desc fl bits esc }

/-- Writes the output scale record and ends the run (R166, R621). -/
def State.mxEndRec (s : State) (t : Nat) (r : Run) (code done bits esc : Nat) (fl : Fl) (w : OutWr) : State :=
  let q := s.writeRec t 1 r.shoot (r.buf (xQBuf r.desc)) (xCQoff r.desc) w
  if q.1 ≠ 0 ∧ (code = stDONE ∨ q.1 = stWAIT) then q.2.mxEnd t r q.1 done (Nat.lor bits 8) esc fl
  else q.2.mxEnd t r code done bits esc fl

/-- The conversion of a matrix descriptor's results. -/
def State.mxConv (s : State) (t : Nat) (d : BitVec 512) (x : MX) (o : OutRec) : Conv :=
  let qn := xCQuant d
  { f := x.fc, zp := if qn then o.zp else 0, rinv := if qn then some (rinvOf o.scale) else none, ovf := xOvfInf d
    sr := xSround d && (qn || !exactConv x.acc x.fc), start := s.rd (lfsrFld t), draws := [] }

/-- Runs a matrix descriptor whose checks have passed. -/
def State.mxRun (s : State) (t : Nat) (r : Run) (x : MX) (q : MRec) (mism : Option (Nat × Nat × Nat)) : State :=
  let d := r.desc
  -- the codebooks, read once (R113)
  let w := if x.cbf = .bf16 then 2 else 1
  let nb := if x.fa = .cb4 then 32 * w else if x.fb = .cb4 then 16 * w else 0
  match s.evRead t 1 r.shoot (r.buf (xQBuf d)) (xCbOff d) nb with
  | (.error c, s1) =>
    if xCQuant d then s1.mxEndRec t r c 0 0 0 Fl.clear ⟨q.out.scale, amaxEnc Num.zero, 0, 0, 0, 0⟩ else s1.mxEnd t r c 0 0 0 Fl.clear
  | (.ok bs, s1) =>
    let ent := (chunks w bs).map ofBytes
    let cba := ent.take 16
    let cbb := if x.fa = .cb4 then ent.drop 16 else cba
    let bmn := blockShape x.cls (xShape d)
    let nbj := (x.n + bmn.2 - 1) / bmn.2
    let blocks := if x.m = 0 then [] else
      (List.range ((x.m + bmn.1 - 1) / bmn.1 * nbj)).map fun b => (b, b / nbj, b % nbj)
    let dl := s1.dealDraws (s1.mxConv t d x q.out) (x.m * x.n)
    let cv := dl.1
    let p := dl.2.mxBlocks t r x q cv cba cbb mism bmn blocks ⟨Fl.clear, 0, false, 0, 0, 0, 0, Num.zero, none⟩
    let a := p.1
    let s2 := if cv.sr then p.2.advanceLfsr t a.used cv.start else p.2
    let am := amaxEnc a.amax
    match a.code with
    | some c =>
      let bits := 8 * b2n a.wrote
      if xCQuant d then s2.mxEndRec t r c a.done bits a.esc a.fl ⟨q.out.scale, am, a.qc, a.qf, 0, 0⟩
      else s2.mxEnd t r c a.done bits a.esc a.fl
    | none =>
      if !xCQuant d || decide (x.m = 0) || decide (x.n = 0) then s2.mxEnd t r stDONE a.done 0 a.esc a.fl
      else
        let fb := faultBits a.qc a.qf (x.m * x.n) (xClampThr d) (xFlushThr d)
        if fb ≠ 0 ∧ xPolicy d = 2 then
          -- RESCUE_SECOND_PASS goes on from here
          s2.setRun t 0 { r with
            done := a.done, flags := a.fl.flags, clamps := a.fl.clamps, flushes := a.fl.flushes
            phase := .rescue q.out.scale q.out.zp q.out.stageOff q.out.stageBuf am a.qc a.qf fb, post := msumWords t d a.fl 0 a.esc }
        else
          s2.mxEndRec t r stDONE a.done (b2n (decide (fb ≠ 0) && decide (xPolicy d = 1))) a.esc a.fl
            ⟨q.out.scale, am, a.qc, a.qf, fb, 0⟩

/-- A run with the staging buffer's descriptor, read at the start (R158). -/
def State.withStage (s : State) (t : Nat) (r : Run) (q : MRec) : Run :=
  if xRescue r.desc && q.rcd.isSome then { r with bufs := r.bufs ++ [(q.out.stageBuf, s.bufDesc t q.out.stageBuf)] } else r

/-- Starts and runs a matrix descriptor: ILLEGAL, then the extents, then the blocks (R115 to R128, R619). -/
def State.matrixStart (s : State) (t : Nat) (sl : Slot) (mism : Option (Nat × Nat × Nat)) : State :=
  let b := s.startRead t sl (matrixBufs sl.desc)
  let s := b.2
  let r := s.newRun t sl (s.lateValues t sl.desc matrixLate) (matrixBufs sl.desc) s.sdNum
  let s := s.beginRun t 0 r
  if b.1 then s.mxEnd t r stENGINE 0 0 0 Fl.clear
  else
  match mxOf r with
  | none => s.mxEnd t r stILLEGAL 0 0 0 Fl.clear
  | some x =>
    if !r.bufs.all fun b => bValid b.2 then s.mxEnd t r stILLEGAL 0 0 0 Fl.clear
    else
      match s.mxRecords t r x with
      | (.error c, s1) => s1.mxEnd t r c 0 0 0 Fl.clear
      | (.ok q, s1) =>
        let b := if xRescue sl.desc && q.rcd.isSome then s1.startRead t { sl with bad := false } [q.out.stageBuf] else (false, s1)
        let r := s1.withStage t r q
        let s1 := b.2
        if b.1 then s1.mxEnd t r stENGINE 0 0 0 Fl.clear
        else if !r.bufs.all fun b => bValid b.2 then s1.mxEnd t r stILLEGAL 0 0 0 Fl.clear
        else
          match s1.mxCheck t r x q with
          | some c => s1.mxEnd t r c 0 0 0 Fl.clear
          | none => s1.mxRun t r x q mism

/-- MATRIX (R115): starts the head descriptor of the matrix queue and computes C block by block. `mism` is a residue mismatch that
the array meets (R134): wide cell, step and block; in throughput mode no residue is checked (Table 22.6). -/
def execMatrix (t : TileId) (mism : Option (Nat × Nat × Nat)) (s : State) : Res :=
  s.engineCmd t 0 (fun _ => true) fun s x => s.matrixStart t x (if s.throughput then none else mism)

/-- The second pass's pieces for a matrix descriptor: outputs in ascending row and then column (R164). -/
def matrixPieces (r : Run) (x : MX) (o : OutRec) : List RUnit :=
  let w := if x.fc.is4 then 2 else 1
  (List.range x.m).flatMap fun i => (List.range ((x.n + w - 1) / w)).map fun u =>
    (⟨r.buf o.stageBuf, o.stageOff + 4 * (i * x.n + w * u), min w (x.n - w * u), if x.acc = .int32 then .int32 else .fp32, true,
      r.buf (xCBuf r.desc), x.cOff + i * x.ldc + w * u * x.fc.bits / 8⟩ : RUnit)

/-- The second pass of a matrix descriptor. The output record's read fields are those of the start: the engine alone writes the
record, and only its written fields; a store into the read fields meanwhile is not seen (R158). -/
def State.matrixRescue (s : State) (t : Nat) (r : Run) (o : OutRec) (amax qc qf faults : Nat) : State :=
  match mxOf r with
  | none => s
  | some x =>
    let d := r.desc
    let cv := { s.mxConv t d x o with sr := xSround d }
    let sb := r.buf o.stageBuf
    let vas := if bKind sb = 1 then [] else lineStarts (bBase sb + o.stageOff) (4 * x.m * x.n)
    let q := s.rescue t 1 r.shoot cv o.scale amax qc qf faults (x.m * x.n) (xClampThr d) (xFlushThr d) vas
      (matrixPieces r x o) ⟨r.flags, r.clamps, r.flushes⟩
    let esc := match r.post.find? fun p => p.1 = hubReg t 0x800 16 + 12 with
      | some p => p.2.toNat
      | none => 0
    q.2.mxEndRec t r q.1.status q.1.done q.1.bits esc q.1.fl q.1.wr

/-! The issue-rate limiter (R135 to R138, Table 4.6). -/
def issueK (c : Nat) : Fld := ⟨crateReg c 0x10, 0, 5⟩
def issueFloor (c : Nat) : Fld := ⟨crateReg c 0x10, 8, 5⟩
def issueLowest (c : Nat) : Fld := ⟨crateReg c 0x10, 16, 1⟩
def issueDroop (c : Nat) : Fld := ⟨crateReg c 0x10, 17, 1⟩
def issueStall (c : Nat) : Fld := ⟨crateReg c 0x14, 0, 32⟩

/-- The tile-cycles of matrix work that a frame under the limit in force may hold: 16 − k in each tile whose matrix engine has work
(R135). -/
def State.heldMost (s : State) (c : Nat) : Nat :=
  (16 - s.rd (issueK c)) * ((List.range 64).filter fun i => s.on (qBusy (64 * c + i) 0)).length

/-- ISSUE_FRAME_BOUNDARY (R135, R136): the frame that ends has held `held` tile-cycles of matrix work, no more than its limit and the tiles
with work allow (Table 4.7); the value of k that the governor set takes effect, with the bits that say why it is below FLOOR. -/
def execIssueFrameBoundary (c : CrateId) (held : Nat) (s : State) : Res :=
  if s.crateRuns c then
    let s := s.wr (issueStall c) (s.rd (issueStall c) + min held (s.heldMost c))
    let x := s.crate c
    match x.pendK with
    | none => .next s
    | some k =>
      let s := (s.setCrate c { x with pendK := none }).wr (issueK c) k
      .next ((s.wr (issueLowest c) (b2n (s.on govLowest))).wr (issueDroop c) (b2n (s.on (crDroopActive c))))
  else .next s

end Sys2Proof.Machine
end

