-- ==== Sys2Proof/Machine/Trans.lean ====
section
/-! DEFINITION. The five transcendentals (R184, R85, Table 6.5): the exact value to far more bits than FP32 holds, and the FP32
values within the stated error of it, among which the result is free (log entry 11). -/
namespace Sys2Proof.Machine

/-- Fraction bits of the fixed-point values below. -/
def fixBits : Nat := 288

/-- A positive value y with m·2^e ≤ y < (m + 1)·2^e, or y = m·2^e where `exact`. -/
structure Approx where
  m : Nat
  e : Int
  exact : Bool
  deriving DecidableEq, Repr

/-- Terms of the Taylor series of e^x from term k on, x and the terms as multiples of 2^-fixBits. -/
def expSeries (x : Nat) : Nat → Nat → Nat → Nat
  | 0, _, _ => 0
  | n + 1, k, term => term + expSeries x n (k + 1) (term * x / (2 ^ fixBits * (k + 1)))

/-- Squares a fixed-point value n times. -/
def squareFix : Nat → Nat → Nat
  | 0, v => v
  | n + 1, v => squareFix n (v * v / 2 ^ fixBits)

/-- e^x for x = X·2^-(fixBits - 8) below 256, as a multiple of 2^-fixBits. -/
def expFix (X : Nat) : Nat := squareFix 8 (expSeries X 70 0 (2 ^ fixBits))

/-- m·2^e in units of 2^-(fixBits - 8), truncated. -/
def toFix8 (m : Nat) (e : Int) : Nat :=
  let s := e + (fixBits - 8 : Nat)
  if 0 ≤ s then m * 2 ^ s.toNat else m / 2 ^ (-s).toNat

/-- e^(±m·2^e), m ≠ 0. -/
def expApprox (neg : Bool) (m : Nat) (e : Int) : Approx :=
  if 8 ≤ magExp m e then (if neg then ⟨1, -400, false⟩ else ⟨1, 400, false⟩)
  else
    let v := expFix (toFix8 m e)
    if neg then ⟨2 ^ (2 * fixBits) / v, -(fixBits : Int), false⟩ else ⟨v, -(fixBits : Int), false⟩

/-- Terms of atanh's series from u^(2i+1)/(2i+1) on, in fixed point. -/
def atanhSeries (u2 : Nat) : Nat → Nat → Nat → Nat
  | 0, _, _ => 0
  | n + 1, i, p => p / (2 * i + 1) + atanhSeries u2 n (i + 1) (p * u2 / 2 ^ fixBits)

/-- 2·atanh(u) for a fixed-point u of at most 1/3. -/
def twoAtanh (u : Nat) : Nat := 2 * atanhSeries (u * u / 2 ^ fixBits) 100 0 u

/-- ln(m·2^e) as a signed fixed-point value, m ≠ 0. -/
def lnFix (m : Nat) (e : Int) : Int :=
  let k := Nat.log2 m
  let u := (m - 2 ^ k) * 2 ^ fixBits / (m + 2 ^ k)
  (twoAtanh u : Int) + (e + k) * (twoAtanh (2 ^ fixBits / 3) : Int)

/-- 1 / (m·2^e), m ≠ 0. -/
def recipApprox (m : Nat) (e : Int) : Approx :=
  let g := Nat.log2 m + 64
  ⟨2 ^ g / m, -(g : Int) - e, decide (2 ^ g % m = 0)⟩

/-- The integer square root by bits: r grows from bit i − 1 down while its square does not pass n. -/
def isqrtFrom (n : Nat) : Nat → Nat → Nat
  | 0, r => r
  | i + 1, r => if (r + 2 ^ i) * (r + 2 ^ i) ≤ n then isqrtFrom n i (r + 2 ^ i) else isqrtFrom n i r

/-- 1 / sqrt(m·2^e), m ≠ 0. -/
def rsqrtApprox (m : Nat) (e : Int) : Approx :=
  let m1 := if e % 2 = 0 then m else 2 * m
  let e1 := if e % 2 = 0 then e else e - 1
  let g := Nat.log2 m1 + 64
  let y := isqrtFrom (2 ^ (2 * g) / m1) (g + 1) 0
  ⟨y, -(g : Int) - e1 / 2, decide (m1 * y * y = 2 ^ (2 * g))⟩

/-- tanh(m·2^e), m ≠ 0. -/
def tanhApprox (m : Nat) (e : Int) : Approx :=
  if 5 ≤ magExp m e then ⟨2 ^ 64 - 1, -64, false⟩
  else
    let v := expFix (toFix8 m (e + 1))
    ⟨(v - 2 ^ fixBits) * 2 ^ fixBits / (v + 2 ^ fixBits), -(fixBits : Int), false⟩

/-- How many FP32 values lie within `ulps` of the value, truncation included, and the offset of the lowest from the
truncation: the values t + j, j = −lo, …, hi. -/
def candidates (ulps : Nat) (exact : Bool) : Nat × Nat := if exact then (ulps, ulps) else (ulps - 1, ulps)

/-- The FP32-precision value of sign `s` that lies `j − lo` units from the truncation of a positive approximation, and whether it is
the exact value. -/
def nearFp32 (a : Approx) (s : Bool) (lo j : Nat) : Num × Bool :=
  let q := magExp a.m a.e - 23
  let t := if q ≤ a.e then a.m * 2 ^ (a.e - q).toNat else a.m / 2 ^ (q - a.e).toNat
  let whole := if q ≤ a.e then true else decide (a.m % 2 ^ (q - a.e).toNat = 0)
  (.fin s (t + j - lo) q, a.exact && whole && decide (j = lo))

/-- Is the truncation of the approximation its value? -/
def Approx.atFp32 (a : Approx) : Bool :=
  let q := magExp a.m a.e - 23
  a.exact && (decide (q ≤ a.e) || decide (a.m % 2 ^ (q - a.e).toNat = 0))

/-- A transcendental's result before a choice is made among the values within its error: a special value with the flags it sets, or
a sign, an approximation and the error in units in the last place. -/
inductive TransRes where
  | special (v : Num) (fl : Fl)
  | near (s : Bool) (a : Approx) (ulps : Nat)
  deriving DecidableEq, Repr

/-- The result of an invalid operation (R85). -/
def transInvalid (fl : Fl) : TransRes := .special (.nan false) ((fl.set fINVALID).set fANY_NAN)

/-- EXP (Table 6.5). -/
def transExp (x : Num) (fl : Fl) : TransRes :=
  match x with
  | .nan _ => .special (.nan false) fl
  | .inf n => .special (if n then Num.zero else .inf false) fl
  | .fin n m e => .near false (if m = 0 then ⟨1, 0, true⟩ else expApprox n m e) 2

/-- LOG (Table 6.5). The logarithm of 1 is exactly 0. -/
def transLog (x : Num) (fl : Fl) : TransRes :=
  match x with
  | .nan _ => .special (.nan false) fl
  | .inf n => if n then transInvalid fl else .special (.inf false) fl
  | .fin n m e =>
    if m = 0 then .special (.inf true) (fl.set fDIVZERO)
    else if n then transInvalid fl
    else
      let y := lnFix m e
      if y = 0 then .special Num.zero fl else .near (decide (y < 0)) ⟨y.natAbs, -(fixBits : Int), false⟩ 2

/-- RECIP (R85, Table 6.5). -/
def transRecip (x : Num) (fl : Fl) : TransRes :=
  match x with
  | .nan _ => .special (.nan false) fl
  | .inf n => .special (.fin n 0 0) fl
  | .fin n m e => if m = 0 then .special (.inf n) (fl.set fDIVZERO) else .near n (recipApprox m e) 1

/-- RSQRT (R85, Table 6.5). -/
def transRsqrt (x : Num) (fl : Fl) : TransRes :=
  match x with
  | .nan _ => .special (.nan false) fl
  | .inf n => if n then transInvalid fl else .special Num.zero fl
  | .fin n m e =>
    if m = 0 then .special (.inf n) (fl.set fDIVZERO)
    else if n then transInvalid fl
    else .near false (rsqrtApprox m e) 1

/-- TANH (Table 6.5). -/
def transTanh (x : Num) (fl : Fl) : TransRes :=
  match x with
  | .nan _ => .special (.nan false) fl
  | .inf n => .special (.fin n 1 0) fl
  | .fin n m e => if m = 0 then .special (.fin n 0 0) fl else .near n (tanhApprox m e) 2

/-- The transcendental of an operation code (Table 6.3). -/
def transOf (op : Nat) (x : Num) (fl : Fl) : TransRes :=
  match op with
  | 0x30 => transExp x fl
  | 0x31 => transLog x fl
  | 0x32 => transRecip x fl
  | 0x33 => transRsqrt x fl
  | _ => transTanh x fl

/-- Settles a transcendental with the choice `j` among its candidates: R82 and R86 applied to the FP32 value; |tanh x| never
exceeds 1. -/
def settle (op : Nat) (r : TransRes) (j : Nat) (fl : Fl) : Num × Fl :=
  match r with
  | .special v fl' => (v, fl')
  | .near s a u =>
    let c := candidates u a.atFp32
    let v := nearFp32 a s c.1 j
    let w := if op = 0x34 && (Num.ofInt 1).lt v.1.abs then Num.fin s 1 0 else v.1
    roundArith .fp32 w (fl.setIf (!v.2) fINEXACT)

/-- How many candidates a transcendental's result has. -/
def TransRes.count : TransRes → Nat
  | .special _ _ => 1
  | .near _ a u => let c := candidates u a.atFp32; c.1 + c.2 + 1

end Sys2Proof.Machine
end

