-- ==== Sys2Proof/Machine/Vector.lean ====
section
/-! DEFINITION. The vector engine (chapter 6): descriptor and loop nest, checks, operations, reductions, scans and segments, TOPK,
MEASURE, CVTQ with its policies, and the summary registers. -/
namespace Sys2Proof.Machine

/-! Fields of the vector descriptor (Table 6.1). -/
def vXBuf (d : BitVec 512) : Nat := dBits d 64 4
def vYBuf (d : BitVec 512) : Nat := dBits d 68 4
def vZBuf (d : BitVec 512) : Nat := dBits d 72 4
def vQBuf (d : BitVec 512) : Nat := dBits d 76 4
def vCoBuf (d : BitVec 512) : Nat := dBits d 92 4
def vLoopOff (d : BitVec 512) : Nat := 64 * dBits d 96 16
def vSround (d : BitVec 512) : Bool := dBits d 112 1 = 1
def vOvfInf (d : BitVec 512) : Bool := dBits d 113 1 = 1
def vYBc (d : BitVec 512) : Bool := dBits d 114 1 = 1
def vPolicy (d : BitVec 512) : Nat := dBits d 115 2
def vCin (d : BitVec 512) : Nat := dBits d 117 2
def vCout (d : BitVec 512) : Nat := dBits d 119 2
def vSegMode (d : BitVec 512) : Nat := dBits d 121 2
def vSegCont (d : BitVec 512) : Bool := dBits d 123 1 = 1
def vSegRows (d : BitVec 512) : Bool := dBits d 124 1 = 1
def vSegOff (d : BitVec 512) : Nat := dBits d 352 32
def vK (d : BitVec 512) : Nat := dBits d 384 7
def vCoTen (d : BitVec 512) : Bool := dBits d 391 1 = 1
def vClampThr (d : BitVec 512) : Nat := dBits d 392 8
def vFlushThr (d : BitVec 512) : Nat := dBits d 400 8
def vCoOff (d : BitVec 512) : Nat := dBits d 408 40
def vQoff (d : BitVec 512) : Nat := 16 * dBits d 448 24
def vCiOff (d : BitVec 512) : Nat := 16 * dBits d 472 24
def vCoTally (d : BitVec 512) : Nat := dBits d 496 16

/-- Late-bindable fields: LATE_MASK bit and lowest descriptor bit. -/
def vectorLate : List (Nat × Nat) := [(0, 128), (1, 160), (2, 192), (3, 224), (4, 256), (5, 288), (6, 320)]

/-- What an operation does with its tensors (Table 6.3). -/
inductive VKind where
  | lane | trans | cvt | cvtq | reduce | scan | topk | measure
  deriving DecidableEq, Repr

/-- The kind of an operation code, none where R179 makes it ILLEGAL. -/
def vKind (op : Nat) : Option VKind :=
  if op = 0x20 then some .cvt
  else if op = 0x21 then some .cvtq
  else if 0x22 ≤ op ∧ op ≤ 0x2E then some .lane
  else if 0x30 ≤ op ∧ op ≤ 0x34 then some .trans
  else if 0x40 ≤ op ∧ op ≤ 0x44 then some .reduce
  else if 0x48 ≤ op ∧ op ≤ 0x4A then some .scan
  else if op = 0x50 then some .topk
  else if op = 0x51 then some .measure
  else none

/-- Does an operation read Y? -/
def vReadsY (op : Nat) : Bool := (decide (0x22 ≤ op) && decide (op ≤ 0x28)) || decide (op = 0x2C) || decide (op = 0x2D)

/-- Is an operation a comparison? -/
def vIsCmp (op : Nat) : Bool := decide (0x2C ≤ op) && decide (op ≤ 0x2E)

/-- The accumulation format of a class (Table 6.4). -/
def vAccOf (used : List Fmt) : Fmt :=
  if used.any fun f => decide (f = .fp64) then .fp64 else if used.all Fmt.isInt then .int32 else .fp32

/-- What a vector descriptor asks for, after the ILLEGAL checks on its fields and its loop record. -/
structure VX where
  op : Nat
  kind : VKind
  fx : Fmt
  fy : Fmt
  fz : Fmt
  n0 : Nat
  n1 : Nat
  n2 : Nat
  n3 : Nat
  n4 : Nat
  sx : List Int
  sy : List Int
  sz : List Int
  xOff : Nat
  yOff : Nat
  zOff : Nat
  acc : Fmt
  deriving DecidableEq, Repr

/-- Rows of the nest. -/
def VX.rows (x : VX) : Nat := x.n1 * x.n2 * x.n3 * x.n4

/-- Results of each row of Z. -/
def VX.perRow (x : VX) (d : BitVec 512) : Nat :=
  match x.kind with
  | .reduce => 1
  | .topk => vK d
  | .measure => 0
  | _ => x.n0

/-- Bytes of a row of X, Y and Z (R170 to R172). -/
def VX.xRow (x : VX) : Nat := x.fx.bytes x.n0
def VX.yRow (x : VX) (d : BitVec 512) : Nat :=
  if x.kind = .topk then 4 * vK d else x.fy.bytes (if vYBc d then 1 else x.n0)
def VX.zRow (x : VX) (d : BitVec 512) : Nat := x.fz.bytes (x.perRow d)

/-- The signed 32-bit word `i` of a loop record. -/
def loopWord (l : BitVec 512) (i : Nat) : Int := signedOf 32 (bitsAt l.toNat (32 * i) 32)

/-- The four strides from word `i` of a loop record (Table 6.2). -/
def loopStrides (l : BitVec 512) (i : Nat) : List Int := (List.range 4).map fun j => loopWord l (i + j)

/-- Is a format one that X, Y or Z may have (R180)? -/
def vFmtOk (f : Fmt) (e8 : Bool) : Bool := decide (f ≠ .cb4) && (decide (f ≠ .e8m0) || e8)

/-- The field checks that make a descriptor ILLEGAL, but for the loop nest and for RESCUE with UINT4 or UINT8 (R45, R76, R158, R179 to R186). -/
def vFieldsBad (d : BitVec 512) (op : Nat) (kind : VKind) (fx fy fz : Fmt) : Bool :=
  let e8 := decide (op = 0x20)
  let z4 := decide (kind = .reduce ∨ kind = .scan ∨ kind = .topk) && fz.is4
  decide (hRsv d ≠ 0) || decide (dBits d 125 3 ≠ 0) || !lateOk d vectorLate [] ||
    !vFmtOk fx (e8 || decide (kind = .measure)) || (vReadsY op && !vFmtOk fy false) ||
    (decide (kind = .topk) && decide (fy ≠ .int32)) || (decide (kind ≠ .measure) && !vFmtOk fz e8) ||
    (vIsCmp op && decide (fz ≠ .int8 ∧ fz ≠ .uint8 ∧ fz ≠ .int32)) ||
    (decide (kind = .trans) && (fx.isInt || fz.isInt || decide (fx = .fp64 ∨ fz = .fp64))) || z4 ||
    (if kind = .topk then decide (vK d = 0 ∨ 64 < vK d) else decide (vK d ≠ 0)) ||
    decide (vPolicy d = 3) || (decide (vPolicy d ≠ 0) && decide (kind ≠ .cvtq))

/-- A format code as a format; a reserved code of an operand that the operation does not use stands for any format. -/
def vFmt (code : Nat) (used : Bool) : Option Fmt :=
  match fmtOfCode code with
  | some f => some f
  | none => if used then none else some .fp32

/-- The descriptor's meaning, none where it is ILLEGAL (R170 to R180). The loop record is in the run. -/
def vxOf (r : Run) : Option VX :=
  let d := r.desc
  let op := hOp d
  match vKind op with
  | none => none
  | some kind =>
    let usesY := vReadsY op || decide (kind = .topk)
    match vFmt (dBits d 80 4) true, vFmt (dBits d 84 4) usesY, vFmt (dBits d 88 4) (kind ≠ .measure) with
    | some fx, some fy, some fz =>
      if vFieldsBad d op kind fx fy fz then none
      else
        let n0 := lateField d r.lbv 0 128 32
        let has := decide (vLoopOff d ≠ 0)
        let l := r.loop
        let used := [fx] ++ (if vReadsY op then [fy] else []) ++ (if kind = .measure then [] else [fz])
        let x : VX := {
          op := op, kind := kind, fx := fx, fy := fy, fz := fz
          n0 := n0, n1 := lateField d r.lbv 1 160 32
          n2 := if has then bitsAt l.toNat 0 32 else 1
          n3 := if has then bitsAt l.toNat 32 32 else 1
          n4 := if has then bitsAt l.toNat 64 32 else 1
          sx := [], sy := [], sz := []
          xOff := lateField d r.lbv 2 192 32, yOff := lateField d r.lbv 3 224 32, zOff := lateField d r.lbv 4 256 32
          acc := vAccOf used }
        let dense := fun (n : Nat) => [(n : Int), 0, 0, 0]
        let x := { x with
          sx := if has then loopStrides l 4 else dense x.xRow
          sy := if has then loopStrides l 8 else dense (x.yRow d)
          sz := if has then loopStrides l 12 else dense (x.zRow d) }
        if vPolicy d = 2 ∧ (fz = .uint4 ∨ fz = .uint8) then none
        else if has && decide (bitsAt l.toNat 96 32 ≠ 0) then none
        else if 2 ^ 32 ≤ x.n0 * x.rows then none
        else some x
    | _, _, _ => none

/-! The crate chain (R191, R192, Tables 6.7 and 6.8). -/
def scanTimeout (c : Nat) : Fld := ⟨crateReg c 0x28, 0, 16⟩
def scanRefused (c : Nat) : Fld := ⟨crateReg c 0x28, 16, 1⟩

/-- The tiles of crate `c` in its scan chain, ascending. -/
def State.chainMembers (s : State) (c : Nat) : List Nat := (List.range 64).filter fun i => bitAt (s.reg64 (crateReg c 0x20)) i

/-- Is the nest empty (R174)? -/
def VX.none (x : VX) : Bool := decide (x.n0 = 0) || decide (x.rows = 0)

/-- Does the operation take carries at all? -/
def VX.carries (x : VX) : Bool := decide (x.kind = .scan ∨ x.kind = .reduce)

/-- CIN and COUT as the operation uses them; other operations ignore the fields. -/
def VX.cin (x : VX) (d : BitVec 512) : Nat := if x.carries then vCin d else 0
def VX.cout (x : VX) (d : BitVec 512) : Nat := if x.carries then vCout d else 0

/-- The carries that R190 and R192 make ILLEGAL. -/
def State.vCarryBad (s : State) (t : Nat) (d : BitVec 512) (x : VX) : Bool :=
  let ms := s.chainMembers (t / 64)
  let i := t % 64
  let ci := x.cin d
  let co := x.cout d
  decide (ci = 3) || decide (co = 3) ||
    (decide (x.kind = .reduce) && decide (ci ≠ 0 ∨ co ≠ 0) && decide (x.rows ≠ 1) && !x.none) ||
    (decide (ci = 1) && (!decide (i ∈ ms) || decide (ms.head? = some i))) ||
    (decide (co = 1) && (!decide (i ∈ ms) || decide (ms.getLast? = some i)))

/-- OPC of an operation's carries (R190). -/
def carryOpc (op : Nat) : Nat :=
  if op = 0x40 ∨ op = 0x41 ∨ op = 0x48 ∨ op = 0x49 then 0 else if op = 0x43 then 2 else 1

/-- KIND of carries in an accumulation format (Table 6.6). -/
def carryKind (acc : Fmt) : Nat := if acc = .fp32 then 0 else if acc = .fp64 then 1 else 2

/-- The identity of an operation (R190). -/
def carryIdent (op : Nat) (acc : Fmt) : Num :=
  if carryOpc op = 0 ∨ op = 0x44 then Num.zero
  else if op = 0x43 then (if acc = .int32 then Num.ofInt Fmt.int32.imax else .inf false)
  else if acc = .int32 then Num.ofInt Fmt.int32.imin else .inf true

/-- A value of the accumulation format as its encoding. -/
def accEnc (acc : Fmt) (v : Num) : Nat := if acc = .int32 then encodeInt 32 v.toInt else (convert acc true none v Fl.clear).1

/-- VALUE of a carry (Table 6.6). -/
def carryValue (acc : Fmt) (v : Num) : Nat := if acc = .int32 then encodeInt 64 v.toInt else accEnc acc v

/-- A carry-out with a value. -/
def carryOf (op : Nat) (acc : Fmt) (v : Num) (broken : Bool) : Carry :=
  ⟨carryValue acc v, carryKind acc, carryOpc op, broken, false⟩

/-- The bytes of a carry record (Table 6.6). -/
def Carry.bytes (c : Carry) : List Byte :=
  toBytes 8 c.value ++ toBytes 8 (c.kind + 4 * c.opc + 16 * b2n c.broken)

/-- Reads a carry record's bytes (Table 6.6, R193). -/
def carryFrom (bs : List Byte) : Carry :=
  let n := ofBytes bs
  let v := bitsAt n 0 64
  let kind := bitsAt n 64 2
  let hi := bitsAt n 32 32
  let rsv := decide (bitsAt n 69 59 ≠ 0) || (decide (kind = 0) && decide (hi ≠ 0)) ||
    (decide (kind = 2) && decide (hi ≠ (if bitAt v 31 then 0xFFFFFFFF else 0)))
  ⟨v, kind, bitsAt n 66 2, bitAt n 68, rsv⟩

/-- Reads a carry as an input in its receiver's format (R81, R84). -/
def Carry.read (c : Carry) (acc : Fmt) (fl : Fl) : Num × Fl := if acc = .int32 then (decodeNum .int32 c.value, fl) else readIn acc c.value fl

/-! Buffers and checks. -/

/-- Does the operation read from Q_BUF? -/
def VX.usesQ (x : VX) (d : BitVec 512) : Bool :=
  (decide (x.kind = .scan) && decide (vSegMode d ≠ 0)) || decide (x.cin d = 2) || decide (x.kind = .cvtq)

/-- Does the operation read or write Y? -/
def VX.usesY (x : VX) : Bool := vReadsY x.op || decide (x.kind = .topk)

/-- The buffers that a vector descriptor names (R45). -/
def VX.bufs (x : VX) (d : BitVec 512) : List Nat :=
  [vXBuf d] ++ (if x.usesY then [vYBuf d] else []) ++ (if x.kind = .measure then [] else [vZBuf d]) ++
    (if x.usesQ d then [vQBuf d] else []) ++ (if x.cout d = 2 then [vCoBuf d] else [])

/-- A tensor's extent over every corner of the nest (R175). -/
def VX.extent (x : VX) (buf off : Nat) (st : List Int) (row : Nat) (rd wr : Bool) : Extent :=
  let ends := ([x.n1, x.n2, x.n3, x.n4].zip st).map fun p => ((p.1 : Int) - 1) * p.2
  ⟨buf, (off : Int) + (ends.map (min 0)).sum, (off : Int) + (ends.map (max 0)).sum + row, rd, wr⟩

def VX.xExt (x : VX) (d : BitVec 512) : Extent := x.extent (vXBuf d) x.xOff x.sx x.xRow true false
def VX.yExt (x : VX) (d : BitVec 512) : Extent :=
  x.extent (vYBuf d) x.yOff x.sy (x.yRow d) (vReadsY x.op) (decide (x.kind = .topk))
def VX.zExt (x : VX) (d : BitVec 512) : Extent :=
  x.extent (vZBuf d) x.zOff x.sz (x.zRow d) (decide (x.op = 0x27)) true

/-- The segment flags and the records in Q_BUF (R175). -/
def VX.qExts (x : VX) (d : BitVec 512) : List Extent :=
  let ent := fun (off n : Nat) (wr : Bool) => (⟨vQBuf d, off, (off + n : Nat), true, wr⟩ : Extent)
  let n := x.n0 * x.rows
  (if x.kind = .scan ∧ vSegMode d = 1 then [ent (vSegOff d) ((n + 7) / 8) false]
    else if x.kind = .scan ∧ vSegMode d = 2 then [ent (vSegOff d) n false] else []) ++
    (if x.cin d = 2 then [ent (vCiOff d) 16 false] else []) ++ (if x.kind = .cvtq then [ent (vQoff d) 32 true] else [])

/-- May Z coincide with X, or with Y (R176)? -/
def VX.inPlace (x : VX) (d : BitVec 512) (buf off : Nat) (st : List Int) (f : Fmt) : Bool :=
  decide (vZBuf d = buf) && decide (x.zOff = off) && decide (x.sz = st) && decide (x.fz.bits = f.bits)

/-- The overlap that R176 refuses. -/
def VX.overlap (x : VX) (r : Run) (lens : List Extent) : Bool :=
  let d := r.desc
  let z := x.zExt d
  let meet := r.extentsClash z
  let zb := r.buf (vZBuf d)
  let loopMeets := decide (vLoopOff d ≠ 0) && decide (bKind zb = 1) && !z.empty &&
    decide ((bBase zb : Int) + z.lo < (vLoopOff d : Int) + 64) && decide ((vLoopOff d : Int) < (bBase zb : Int) + z.hi)
  decide (x.kind ≠ .measure) &&
    ((meet (x.xExt d) && !x.inPlace d (vXBuf d) x.xOff x.sx x.fx) ||
      (x.usesY && meet (x.yExt d) &&
        !(x.inPlace d (vYBuf d) x.yOff x.sy x.fy && !vYBc d)) ||
      (x.qExts d ++ lens).any meet || loopMeets)

/-! Operations on elements. -/

/-- The maximum of R182, in which −0 lies below +0. -/
def numMax (a b : Num) (fl : Fl) : Num × Fl :=
  if a.isNan || b.isNan then (.nan false, fl.set fANY_NAN) else (if a.lt b then b else a, fl)

/-- The minimum of R182. -/
def numMin (a b : Num) (fl : Fl) : Num × Fl :=
  if a.isNan || b.isNan then (.nan false, fl.set fANY_NAN) else (if b.lt a then b else a, fl)

/-- A comparison's result (R182). -/
def numCmp (c : Bool) (a b : Num) (fl : Fl) : Num × Fl :=
  if a.isNan || b.isNan then (Num.zero, fl.set fANY_NAN) else (Num.ofInt (b2n c), fl)

/-- The exact result of a lane operation (Table 6.3, R96, R181, R182). -/
def laneOp (op : Nat) (x y z s s2 : Num) (fl : Fl) : Num × Fl :=
  match op with
  | 0x22 => addNum x y fl
  | 0x23 => addNum x y.neg fl
  | 0x24 => mulNum x y fl
  | 0x25 => numMax x y fl
  | 0x26 => numMin x y fl
  | 0x27 => let p := mulNum x y fl; addNum p.1 z p.2
  | 0x28 => let p := mulNum x s fl; addNum p.1 y p.2
  | 0x29 => let p := mulNum x s fl; addNum p.1 s2 p.2
  | 0x2A => (x.abs, fl)
  | 0x2B => (x.neg, fl)
  | 0x2C => numCmp (x.gt y) x y fl
  | 0x2D => numCmp (x.numEq y) x y fl
  | _ => numCmp (x.gt s) x s fl

/-- The lane results of a row, saturated to INT32 first in the integer classes (R181). -/
def laneRow (op : Nat) (int : Bool) (s s2 : Num) : List Num → List Num → List Num → Fl → List Num × Fl
  | [], _, _, fl => ([], fl)
  | x :: xs, ys, zs, fl =>
    let p := laneOp op x (ys.headD Num.zero) (zs.headD Num.zero) s s2 fl
    let p := if int then satInt32 p.1.toInt p.2 else p
    let q := laneRow op int s s2 xs ys.tail zs.tail p.2
    (p.1 :: q.1, q.2)

/-- The transcendental results of a row, each free among the values within its error (R184). -/
def State.transRow (s : State) (op : Nat) : List Num → Fl → List Num × Fl × State
  | [], fl => ([], fl, s)
  | x :: xs, fl =>
    let r := transOf op x fl
    let j := s.pick r.count
    let p := settle op r j.1 fl
    let q := j.2.transRow op xs p.2
    (p.1 :: q.1, q.2.1, q.2.2)

/-- A reduction of one row in its accumulation format (R183); a row is never empty here. -/
def State.reduceRow (s : State) (op : Nat) (acc : Fmt) (xs : List Num) (fl : Fl) : Num × Fl × State :=
  let fin := fun (q : Option Num × Fl × State) => (q.1.getD Num.zero, q.2.1, q.2.2)
  let sum := fun (ys : List Num) (f : Fl) =>
    let q := fin (s.sumFree acc ys f)
    (q.1, f.dropInexact q.2.1 (ys.any fun v => v.isNan || v.isInf), q.2.2)
  if op = 0x40 then sum xs fl
  else if op = 0x41 then
    let sq := xs.foldl (fun (a : List Num × Fl) x => let p := mulNum x x a.2; (a.1 ++ [p.1], p.2)) ([], fl)
    sum sq.1 sq.2
  else
    let ys := if op = 0x44 then xs.map Num.abs else xs
    let step := if op = 0x43 then numMin else numMax
    let r := ys.tail.foldl (fun (a : Num × Fl) y => step a.1 y a.2) (ys.headD Num.zero, fl)
    let r := roundAcc acc r.1 r.2
    (r.1, r.2, s)

/-- One element of a scan (R187): the result and the running value after it; no running value at a segment's start. -/
def scanStep (op : Nat) (acc : Fmt) (run : Option Num) (x : Num) (fl : Fl) : Num × Num × Fl :=
  let next : Num × Fl :=
    match run with
    | none => roundAcc acc x fl
    | some v =>
      if op = 0x4A then let y := numMax v x fl; roundAcc acc y.1 y.2
      else let y := addNum v x fl; roundAcc acc y.1 y.2
  if op = 0x49 then (run.getD Num.zero, next.1, next.2) else (next.1, next.1, next.2)

/-! TOPK (R185). -/

/-- Inserts a ranked value: descending, equal values by ascending index. -/
def rankIns (p : Num × Nat) : List (Num × Nat) → List (Num × Nat)
  | [] => [p]
  | q :: qs => if q.1.lt p.1 then p :: q :: qs else q :: rankIns p qs

/-- The fill value of an unused slot. -/
def topkFill (f : Fmt) : Num :=
  if f.isInt then Num.ofInt f.imin else if f.hasInf then .inf true else let m := maxFin f; .fin true m.1 m.2

/-- The K ranked values of a row with their indices, fills included. -/
def topkRow (f : Fmt) (k : Nat) (xs : List Num) : List (Num × Nat) :=
  let live := (xs.zip (List.range xs.length)).filter fun p => !p.1.isNan
  let top := (live.foldl (fun a p => rankIns p a) []).take k
  top ++ List.replicate (k - top.length) (topkFill f, 0xFFFFFFFF)

/-! The summary (R196 to R198, Table 6.9). -/

/-- Rounds to binary64 with subnormals kept and overflow to infinity, setting no flag (R197). -/
def roundB64 : Num → Num
  | .fin s m e =>
    if m = 0 then .fin s 0 0
    else
      let q := max (magExp m e - 52) (-1074)
      let p := roundAt q none m e
      if p.1 = 0 then .fin s 0 0
      else if 1024 ≤ magExp p.1 q then .inf s else .fin s p.1 q
  | .inf s => .inf s
  | .nan _ => .nan false

/-- The binary64 encoding of a value that binary64 holds, subnormals included. -/
def encB64 : Num → Nat
  | .nan _ => encNan .fp64
  | .inf s => encInf .fp64 s
  | .fin s m e =>
    if m = 0 then encZero .fp64 s
    else if magExp m e < -1022 then encZero .fp64 s + (if -1074 ≤ e then m * 2 ^ (e + 1074).toNat else m / 2 ^ (-1074 - e).toNat)
    else encFin .fp64 s m e

/-- A sum of measured values by binary64 additions, the order free (R197). -/
def State.sumB64 (s : State) : Nat → List Num → Num × State
  | 0, xs => (xs.headD Num.zero, s)
  | fuel + 1, xs =>
    let q := s.shuffle xs
    match q.1 with
    | a :: b :: rest => q.2.sumB64 fuel (roundB64 (addNum a b Fl.clear).1 :: rest)
    | ys => (ys.headD Num.zero, q.2)

/-- The first position of the largest value, in the order of R182. -/
def argMax : List (Num × Nat) → Option (Num × Nat)
  | [] => none
  | p :: ps => match argMax ps with
    | none => some p
    | some q => if p.1.lt q.1 then some q else some p

/-- The words of the summary from MAX on, and NONZERO: measured values in iteration order, NaN included. -/
def State.measureWords (s : State) (int : Bool) (vals : List Num) : List (Nat × Nat) × State :=
  let live := (vals.zip (List.range vals.length)).filter fun p => !p.1.isNan
  let nz := min (live.filter fun p => !p.1.isZero).length 0xFFFFFFFF
  let cnt := vals.length % 2 ^ 32
  let mx := argMax live
  let mn := live.foldl (fun (a : Option Num) p => match a with
    | none => some p.1
    | some v => if p.1.lt v then some p.1 else some v) none
  let am := live.foldl (fun a p => amaxStep a p.1) Num.zero
  let enc := fun (v : Num) => if int then encodeInt 64 v.toInt else encB64 v
  let sum : Nat × State :=
    if int then (encodeInt 64 (live.map fun p => p.1.toInt).sum, s)
    else let q := s.sumB64 live.length (live.map Prod.fst); (encB64 q.1, q.2)
  let maxv := match mx with
    | some p => enc p.1
    | none => if int then 2 ^ 63 else encInf .fp64 true
  let minv := match mn with
    | some v => enc v
    | none => if int then 2 ^ 63 - 1 else encInf .fp64 false
  let arg := match mx with
    | some p => p.2 % 2 ^ 32
    | none => 0xFFFFFFFF
  ([(0xCC, nz), (0xD0, maxv % 2 ^ 32), (0xD4, maxv / 2 ^ 32), (0xD8, minv % 2 ^ 32), (0xDC, minv / 2 ^ 32),
    (0xE0, sum.1 % 2 ^ 32), (0xE4, sum.1 / 2 ^ 32), (0xE8, arg), (0xEC, cnt), (0xF0, enc am % 2 ^ 32),
    (0xF4, enc am / 2 ^ 32)], sum.2)

/-- STAT, CLAMPS and FLUSHES (Table 6.9); `bits` are those of STAT 20:16. -/
def statWords (t : Nat) (d : BitVec 512) (fl : Fl) (bits : Nat) : List (Nat × Word) :=
  [(tileReg t 0xC0, BitVec.ofNat 32 (fl.flags.toNat + 2 ^ 8 * hSeq d + 2 ^ 16 * bits + 2 ^ 24 * hOp d)),
    (tileReg t 0xC4, BitVec.ofNat 32 fl.clamps), (tileReg t 0xC8, BitVec.ofNat 32 fl.flushes)]

/-! Running a nest. -/

/-- What a vector descriptor has done so far. -/
structure VAcc where
  fl : Fl
  /-- Results written, and their codes in order. -/
  nz : Nat
  zs : List Nat
  /-- Values measured (R197). -/
  meas : List Num
  /-- Conversions made. -/
  used : Nat
  /-- A scan's local results, or the reductions' row results, in the accumulation format; the running value of the open segment; the
  number of elements scanned and the first segment start among them. -/
  locals : List Num
  run : Option Num
  f : Nat
  lead : Option Nat
  /-- Lengths mode: lengths read and their sum (R189). -/
  lens : Nat
  bound : Nat
  qc : Nat
  qf : Nat
  amax : Num
  code : Option Nat
  deriving DecidableEq, Repr

/-- The start of a nest. -/
def VAcc.init : VAcc := ⟨Fl.clear, 0, [], [], 0, [], none, 0, none, 0, 0, 0, 0, Num.zero, none⟩

/-- The byte offset of row `i` of a tensor (R170). -/
def VX.rowOff (x : VX) (off : Nat) (st : List Int) (i : Nat) : Nat :=
  let idx := [i % x.n1, i / x.n1 % x.n2, i / (x.n1 * x.n2) % x.n3, i / (x.n1 * x.n2 * x.n3)]
  ((off : Int) + ((idx.zip st).map fun p => (p.1 : Int) * p.2).sum).toNat

/-- Reads the codes of a row. -/
def State.vReadRow (s : State) (t : Nat) (r : Run) (buf : Nat) (off : Nat) (f : Fmt) (n : Nat) : Ev (List Nat) :=
  Ev.andThen (s.evRead t 2 r.shoot (r.buf buf) off (f.bytes n)) fun bs s1 => (.ok (codesOf f bs n), s1)

/-- Writes a row's codes; where that fails, the results before the failure are written one by one (R196). Answers the status and
how many are written. -/
def State.vWriteRow (s : State) (t : Nat) (r : Run) (buf off : Nat) (f : Fmt) (cs : List Nat) : Nat × Nat × State :=
  match s.bufWrite t 2 r.shoot (r.buf buf) off (packCodes f cs) with
  | (0, s1) => (0, cs.length, s1)
  | _ =>
    let w := if f.is4 then 2 else 1
    let ps := chunks w cs
    let us := (List.range ps.length).map fun u =>
      let c := ps.getD u []
      (⟨r.buf buf, off + w * u * f.bits / 8, packCodes f c, c.length⟩ : WUnit)
    s.writeUnits t 2 r.shoot us 0

/-- Writes the pairs of a TOPK row: each value and then its index. -/
def State.vWriteTop (s : State) (t : Nat) (r : Run) (x : VX) (zo yo : Nat) (cs ix : List Nat) : Nat × Nat × State :=
  let us := (List.range cs.length).flatMap fun i =>
    [(⟨r.buf (vZBuf r.desc), zo + i * (x.fz.bits / 8), toBytes (x.fz.bits / 8) (cs.getD i 0), 0⟩ : WUnit),
      ⟨r.buf (vYBuf r.desc), yo + 4 * i, toBytes 4 (ix.getD i 0), 1⟩]
  s.writeUnits t 2 r.shoot us 0

/-- How the results are converted, or none where none are (R97, R181). Comparisons write 0 or 1 and convert nothing; fused multiply-adds
always round to nearest even (R95). -/
def State.vConv (s : State) (t : Nat) (d : BitVec 512) (x : VX) (o : OutRec) : Conv :=
  let origin : Option Fmt :=
    match x.kind with
    | .cvt => some x.fx
    | .topk => some x.fx
    | .trans => some .fp32
    | .reduce => some x.acc
    | .scan => some x.acc
    | _ => if x.acc = .int32 then some .int32 else none
  -- a selected operand is converted from its own format
  let picks := decide (x.acc ≠ .int32) && exactConv x.fx x.fz &&
    (decide (x.op = 0x2A ∨ x.op = 0x2B) || (decide (x.op = 0x25 ∨ x.op = 0x26) && exactConv x.fy x.fz))
  let exact := match origin with
    | some f => exactConv f x.fz
    | none => picks
  let fused := decide (x.op = 0x27 ∨ x.op = 0x28 ∨ x.op = 0x29)
  let q := decide (x.kind = .cvtq)
  { f := x.fz, zp := if q then o.zp else 0, rinv := if q then some (rinvOf o.scale) else none, ovf := vOvfInf d
    sr := vSround d && !vIsCmp x.op && decide (x.fz ≠ .e8m0) && !fused && (q || !exact), start := s.rd (lfsrFld t)
    draws := [] }

/-- Does element `f` of a scan start a segment, or why does the engine stop before it (R188, R189)? Answers the flag and the number
and sum of the lengths read. -/
def State.vSegStart (s : State) (t : Nat) (r : Run) (x : VX) (f lens bound : Nat) : Ev (Bool × Nat × Nat) :=
  let d := r.desc
  let row := vSegRows d && decide (f % x.n0 = 0)
  let q := r.buf (vQBuf d)
  match vSegMode d with
  | 1 => Ev.andThen (s.evRead t 2 r.shoot q (vSegOff d + f / 8) 1) fun bs s1 => (.ok (row || bitAt (ofBytes bs) (f % 8), 0, 0), s1)
  | 2 => Ev.andThen (s.evRead t 2 r.shoot q (vSegOff d + f) 1) fun bs s1 => (.ok (row || decide (ofBytes bs ≠ 0), 0, 0), s1)
  | 3 =>
    if f < bound then (.ok (row, lens, bound), s)
    else go t r q row (f + 1) (bSize q / 4 + 1) lens bound s
  | _ => (.ok (row, 0, 0), s)
where
  /-- Reads lengths until `need` elements are covered. -/
  go (t : Nat) (r : Run) (q : BitVec 128) (row : Bool) (need : Nat) : Nat → Nat → Nat → State → Ev (Bool × Nat × Nat)
    | 0, _, _, s => (.error stINDEX, s)
    | fuel + 1, lens, bound, s =>
      let off := vSegOff r.desc + 4 * lens
      let e : Extent := ⟨vQBuf r.desc, off, (off + 4 : Nat), true, false⟩
      if bSize q < off + 4 then (.error stINDEX, s)
      else if !s.extentAllowed t r e then (.error stPERMISSION, s)
      else
        Ev.andThen (s.evRead t 2 r.shoot q off 4) fun bs s1 =>
          let n := signedOf 32 (ofBytes bs)
          if n < 0 then (.error stILLEGAL, s1)
          else if n = 0 ∨ bound + n.toNat < need then go t r q row need fuel (lens + 1) (bound + n.toNat) s1
          else (.ok (row || decide (lens ≠ 0) || !vSegCont r.desc, lens + 1, bound + n.toNat), s1)

/-- How many lengths a nest reads, as the segment tensor stands at the start: those that cover its elements, or all that Q_BUF holds
where they do not (R188, R189). -/
def State.vLens (s : State) (t : Nat) (r : Run) (x : VX) : Nat :=
  let q := r.buf (vQBuf r.desc)
  match (State.vSegStart.go t r q false (x.n0 * x.rows) (bSize q / 4 + 1) 0 0 s).1 with
  | .ok p => p.2.1
  | .error c => if c = stINDEX then (bSize q - vSegOff r.desc) / 4 else 1

/-- The lengths of SEG_MODE 3 as an extent of Q_BUF; a first length that lies beyond it is left to R189. -/
def State.lensExt (s : State) (t : Nat) (r : Run) (x : VX) : List Extent :=
  let d := r.desc
  let first : Extent := ⟨vQBuf d, vSegOff d, (vSegOff d + 4 : Nat), true, false⟩
  if x.kind = .scan && decide (vSegMode d = 3) && r.extentIn first then
    [{ first with hi := (vSegOff d + 4 * max 1 (if s.extentAllowed t r first then s.vLens t r x else 1) : Nat) }]
  else []

/-- The carry-out record's extent. -/
def VX.coExt (x : VX) (d : BitVec 512) : List Extent :=
  if x.cout d = 2 then [⟨vCoBuf d, vCoOff d, (vCoOff d + 16 : Nat), false, true⟩] else []

/-- The checks of R175 and R176 in the order of R619. An empty nest touches no tensor, and its carry records alone are checked. -/
def State.vCheck (s : State) (t : Nat) (r : Run) (x : VX) : Option Nat :=
  let d := r.desc
  if x.none then
    s.checkExtents t r ((if x.cin d = 2 then [⟨vQBuf d, vCiOff d, (vCiOff d + 16 : Nat), true, false⟩] else []) ++ x.coExt d) false
  else
    let lens := s.lensExt t r x
    let exts := [x.xExt d] ++ (if x.usesY then [x.yExt d] else []) ++ (if x.kind = .measure then [] else [x.zExt d]) ++
      x.qExts d ++ lens ++ x.coExt d
    s.checkExtents t r exts (x.overlap r lens)

/-- Scans a row's elements up to the first that stops the engine. -/
def State.vScanRow (s : State) (t : Nat) (r : Run) (x : VX) : List Num → VAcc → List Num → VAcc × List Num × State
  | [], a, out => (a, out, s)
  | v :: vs, a, out =>
    match s.vSegStart t r x a.f a.lens a.bound with
    | (.error c, s1) => ({ a with code := some c }, out, s1)
    | (.ok (st, lens, bound), s1) =>
      let p := scanStep x.op x.acc (if st then none else a.run) v a.fl
      let a := { a with
        fl := p.2.2, run := some p.2.1, f := a.f + 1, lens := lens, bound := bound, locals := a.locals ++ [p.1]
        lead := if st && a.lead.isNone then some a.f else a.lead }
      s1.vScanRow t r x vs a (out ++ [p.1])

/-- Converts a row's results, writes them and counts them. -/
def State.vPutRow (s : State) (t : Nat) (r : Run) (x : VX) (cv : Conv) (i : Nat) (vals : List Num) (a : VAcc) : VAcc × State :=
  let d := r.desc
  let c := convAll (cv.skip a.used) vals a.fl
  let codes := c.1.map (·.code)
  let zo := x.rowOff x.zOff x.sz i
  let w := s.vWriteRow t r (vZBuf d) zo x.fz codes
  let done := codes.take w.2.1
  let zmeas := if x.kind = .cvt ∨ x.kind = .cvtq then [] else done.map (decodeNum x.fz)
  ({ a with
    fl := c.2, used := a.used + vals.length, nz := a.nz + w.2.1, zs := a.zs ++ done, meas := a.meas ++ zmeas
    qc := a.qc + ((c.1.take w.2.1).filter (·.clamped)).length
    qf := a.qf + ((c.1.take w.2.1).filter (·.flushed)).length
    amax := (vals.take w.2.1).foldl amaxStep a.amax
    code := if w.1 ≠ 0 then some w.1 else a.code }, w.2.2)

/-- The scalars S and S2 (Table 6.1). -/
def vScalar (r : Run) (x : VX) (bit lo : Nat) (fl : Fl) : Num × Fl :=
  let v := lateField r.desc r.lbv bit lo 32
  if x.acc = .int32 then (decodeNum .int32 v, fl) else readIn .fp32 v fl

/-- The values that a row's results have before conversion (kinds that write one result per element or row). -/
def State.vRowVals (s : State) (t : Nat) (r : Run) (x : VX) (xs ys zs : List Num) (a : VAcc) : VAcc × List Num × State :=
  match x.kind with
  | .cvt => (a, xs, s)
  | .cvtq =>
    let p := xs.foldl (fun (b : List Num × Fl) v => let y := toFp32 (vOvfInf r.desc) v b.2; (b.1 ++ [y.1], y.2)) ([], a.fl)
    ({ a with fl := p.2 }, p.1, s)
  | .trans =>
    let p := s.transRow x.op xs a.fl
    ({ a with fl := p.2.1 }, p.1, p.2.2)
  | .reduce =>
    let p := s.reduceRow x.op x.acc xs a.fl
    ({ a with fl := p.2.1, locals := a.locals ++ [p.1] }, [p.1], p.2.2)
  | .scan => s.vScanRow t r x xs a []
  | .lane =>
    let s1 := if x.op = 0x28 ∨ x.op = 0x29 ∨ x.op = 0x2E then vScalar r x 5 288 a.fl else (Num.zero, a.fl)
    let s2 := if x.op = 0x29 then vScalar r x 6 320 s1.2 else (Num.zero, s1.2)
    let p := laneRow x.op (decide (x.acc = .int32)) s1.1 s2.1 xs ys zs s2.2
    ({ a with fl := p.2 }, p.1, s)
  | _ => (a, [], s)

/-- One row: reads, operation, conversion and write (R170 to R189). -/
def State.vRow (s : State) (t : Nat) (r : Run) (x : VX) (cv : Conv) (a : VAcc) (i : Nat) : VAcc × State :=
  let d := r.desc
  match s.vReadRow t r (vXBuf d) (x.rowOff x.xOff x.sx i) x.fx x.n0 with
  | (.error c, s1) => ({ a with code := some c }, s1)
  | (.ok xc, s1) =>
    let yr : Ev (List Nat) := if vReadsY x.op then
        s1.vReadRow t r (vYBuf d) (x.rowOff x.yOff x.sy i) x.fy (if vYBc d then 1 else x.n0) else (.ok [], s1)
    match yr with
    | (.error c, s2) => ({ a with code := some c }, s2)
    | (.ok yc, s2) =>
      let zr : Ev (List Nat) := if x.op = 0x27 then s2.vReadRow t r (vZBuf d) (x.rowOff x.zOff x.sz i) x.fz x.n0 else (.ok [], s2)
      match zr with
      | (.error c, s3) => ({ a with code := some c }, s3)
      | (.ok zc, s3) =>
        let xs := readAll x.fx xc a.fl
        let ys := readAll x.fy (if vYBc d then List.replicate x.n0 (yc.headD 0) else yc) xs.2
        let zs := readAll x.fz zc ys.2
        let xmeas := if x.kind = .cvt ∨ x.kind = .cvtq ∨ x.kind = .measure then xc.map (decodeNum x.fx) else []
        let a := { a with fl := zs.2, meas := a.meas ++ xmeas }
        match x.kind with
        | .measure => (a, s3)
        | .topk =>
          let top := topkRow x.fz (vK d) xs.1
          let c := convAll (cv.skip a.used) (top.map Prod.fst) a.fl
          let codes := c.1.map (·.code)
          let w := s3.vWriteTop t r x (x.rowOff x.zOff x.sz i) (x.rowOff x.yOff x.sy i) codes (top.map Prod.snd)
          let live := ((top.map Prod.snd).take w.2.1).filter fun j => decide (j ≠ 0xFFFFFFFF)
          ({ a with
            fl := c.2, used := a.used + codes.length, nz := a.nz + w.2.1, zs := a.zs ++ codes.take w.2.1
            meas := a.meas ++ ((codes.take live.length).map (decodeNum x.fz))
            code := if w.1 ≠ 0 then some w.1 else none }, w.2.2)
        | _ =>
          let p := s3.vRowVals t r x xs.1 ys.1 zs.1 a
          p.2.2.vPutRow t r x cv i p.2.1 p.1

/-- The rows of a nest in iteration order, up to the first that ends the descriptor. -/
def State.vRows (s : State) (t : Nat) (r : Run) (x : VX) (cv : Conv) : List Nat → VAcc → VAcc × State
  | [], a => (a, s)
  | i :: is, a =>
    let p := s.vRow t r x cv a i
    if p.1.code.isSome then p else p.2.vRows t r x cv is p.1

/-! The end of a descriptor. -/

/-- Is a summary held as INT64 (R197)? -/
def VX.intStats (x : VX) : Bool := if x.kind = .cvt ∨ x.kind = .cvtq ∨ x.kind = .measure then x.fx.isInt else x.fz.isInt

/-- CARRY of the summary (Table 6.9): widened to FP64 or INT64. Where the measured set is integer and the carry is a float, the
form is not given, and the value is free (log entry 32). -/
def State.carryReg (s : State) (int : Bool) (c : Option Carry) : Nat × State :=
  match c with
  | none => (0, s)
  | some k =>
    if k.kind = 2 then (k.value, s)
    else if int then let d := s.draw; (d.1 % 2 ^ 64, d.2)
    else (if k.kind = 0 then (convert .fp64 true none (decodeNum .fp32 k.value) Fl.clear).1 else k.value, s)

/-- Ends a vector run with its summary registers (R196); DESCRIPTOR_COMPLETE writes them out. `bits` are those of STAT 19:16. -/
def State.vEnd (s : State) (t : Nat) (r : Run) (code done bits : Nat) (int : Bool) (fl : Fl) (meas : List Num) (c : Option Carry) :
    State :=
  let fl := fl.setIf (meas.any Num.isNan) fANY_NAN
  let w := s.measureWords int meas
  let k := w.2.carryReg int c
  let bits := bits + (if code ≠ stDONE ∧ 0 < done then 8 * b2n (!bitAt bits 3) else 0) + 16 * b2n int
  k.2.setRun t 1 { r with
    ended := some code, done := done, flags := fl.flags, clamps := fl.clamps, flushes := fl.flushes, phase := .work
    post := statWords t r.desc fl bits ++ (w.1.map fun p => (tileReg t p.1, BitVec.ofNat 32 p.2)) ++
      [(tileReg t 0xF8, BitVec.ofNat 32 k.1), (tileReg t 0xFC, BitVec.ofNat 32 (k.1 / 2 ^ 32))] }

/-! Carry-out (R191 to R194). -/

/-- The carries on the link that leads into tile `i` of a crate, oldest first. -/
def State.link (s : State) (c i : Nat) : List Carry := lookMap [] (s.crate c).links i

/-- Sets a link. -/
def State.setLink (s : State) (c i : Nat) (ks : List Carry) : State :=
  let x := s.crate c
  s.setCrate c { x with links := putMap [] x.links i ks }

/-- The next member of the chain after a tile, none for a tile outside the mask. -/
def State.chainNext (s : State) (t : Nat) : Option Nat :=
  if t % 64 ∈ s.chainMembers (t / 64) then (s.chainMembers (t / 64)).find? fun i => decide (t % 64 < i) else none

/-- A descriptor that waits for a carry of the chain and ends without it passes its turn on: the carry that pairs with it is taken off
the link, now or when it comes (R191). -/
def State.skipCarry (s : State) (t : Nat) (cin : Nat) : State :=
  let ms := s.chainMembers (t / 64)
  if cin ≠ 1 ∨ t % 64 ∉ ms ∨ ms.head? = some (t % 64) then s
  else
    match s.link (t / 64) (t % 64) with
    | _ :: ks => s.setLink (t / 64) (t % 64) ks
    | [] =>
      let x := s.crate (t / 64)
      s.setCrate (t / 64) { x with skips := putMap 0 x.skips (t % 64) (lookMap 0 x.skips (t % 64) + 1) }

/-- Puts a carry on the link into tile `i` of a crate, unless the descriptor that it pairs with has ended. -/
def State.pushCarry (s : State) (c i : Nat) (k : Carry) : State :=
  let x := s.crate c
  let n := lookMap 0 x.skips i
  if n = 0 then s.setLink c i (s.link c i ++ [k]) else s.setCrate c { x with skips := putMap 0 x.skips i (n - 1) }

/-- Sends a carry-out: onto the chain, or as a record on its way to CO_BUF. Answers 0, a status, or `stWAIT` where the link is
full. A record buffer that failed its own checks is not written. -/
def State.sendCarry (s : State) (t : Nat) (r : Run) (cout : Nat) (k : Carry) : Nat × State :=
  let d := r.desc
  if cout = 1 then
    match s.chainNext t with
    | none => (0, s)
    | some i =>
      if 2 ≤ (s.link (t / 64) i).length then (stWAIT, s) else (0, s.pushCarry (t / 64) i k)
  else if cout = 2 then
    let b := r.buf (vCoBuf d)
    let e : Extent := ⟨vCoBuf d, vCoOff d, (vCoOff d + 16 : Nat), false, true⟩
    let tally := if vCoTen d then some (vCoTally d) else none
    let part := fun (s : State) (p : Place × Nat × Nat) =>
      (⟨p.1, match p.1 with
        | .hatch w x => some (s.window w x)
        | _ => none, p.2.1, p.2.2⟩ : CarryPart)
    let put := fun (ps : List (Place × Nat × Nat)) (s : State) =>
      { s with carryRecs := s.carryRecs ++ [⟨t, ps.map (part s), k.bytes, crc32c k.bytes, tally⟩] }
    if !bValid b then (stILLEGAL, s)
    else if !r.extentIn e then (stBOUND, s)
    else if !s.extentAllowed t r e then (stPERMISSION, s)
    else if bKind b = 1 then (0, put [(.shelf t (bBase b + vCoOff d), 0, 16)] s)
    else
      match s.vaReach t 2 r.shoot 2 (bBase b + vCoOff d) 16 with
      | (.error c, s1) => (c, s1)
      | (.ok ps, s1) => (0, put ps s1)
  else (0, s)

/-- Ends a descriptor whose carry-out has been settled with `k`: the status of a failed record stands where it was DONE. -/
def State.vEndCarry (s : State) (t : Nat) (r : Run) (x : VX) (code done : Nat) (fl : Fl) (zs : List Nat) (k : Carry) : State :=
  let q := s.sendCarry t r (x.cout r.desc) k
  if q.1 = stWAIT then
    s.setRun t 1 { r with
      done := done, flags := fl.flags, clamps := fl.clamps, flushes := fl.flushes
      phase := .carry ⟨0, done, [], 0, zs, none, some k, code⟩ }
  else
    let code := if code = stDONE ∧ q.1 ≠ 0 then q.1 else code
    q.2.vEnd t r code done 0 x.intStats fl (zs.map (decodeNum x.fz)) (if q.1 = 0 then some k else none)

/-- Ends a descriptor with a status other than DONE: with COUT it sends a BROKEN carry-out first (R194). -/
def State.vBroken (s : State) (t : Nat) (r : Run) (x : VX) (code done : Nat) (fl : Fl) (zs : List Nat)
    (meas : List Num) : State :=
  let co := x.cout r.desc
  if code = stWAIT then s.endRun t 1 r stWAIT
  else if (co = 1 ∧ (s.chainNext t).isSome) ∨ co = 2 then
    s.vEndCarry t r x code done fl zs (carryOf x.op x.acc (carryIdent x.op x.acc) true)
  else s.vEnd t r code done 0 x.intStats fl meas none

/-- The same for a descriptor that has not taken its carry-in. -/
def State.vFail (s : State) (t : Nat) (r : Run) (x : VX) (code done : Nat) (fl : Fl) (zs : List Nat)
    (meas : List Num) : State :=
  (if code = stWAIT then s else s.skipCarry t (x.cin r.desc)).vBroken t r x code done fl zs meas

/-- The running value after the last element (R190), and the leading segment's length. -/
def VAcc.leadLen (a : VAcc) : Nat := a.lead.getD a.f

/-- Combines a carry with a local result (R190). -/
def carryCombine (op : Nat) (acc : Fmt) (c v : Num) (fl : Fl) : Num × Fl :=
  if carryOpc op = 0 then let y := addNum c v fl; roundAcc acc y.1 y.2
  else if carryOpc op = 2 then numMin c v fl else numMax c v fl

/-- Runs the rows of a nest whose checks have passed, then its policy or its carry. -/
def State.vRun (s : State) (t : Nat) (r : Run) (x : VX) (o : OutRec) : State :=
  let d := r.desc
  let dl := s.dealDraws (s.vConv t d x o) (x.rows * x.perRow d)
  let cv := dl.1
  let p := dl.2.vRows t r x cv (List.range x.rows) VAcc.init
  let a := p.1
  let s1 := if cv.sr then p.2.advanceLfsr t a.used cv.start else p.2
  let fin := fun (s : State) (code done bits : Nat) (fl : Fl) (w : OutWr) =>
    let q := s.writeRec t 2 r.shoot (r.buf (vQBuf d)) (vQoff d) w
    let bad := decide (q.1 ≠ 0) && (decide (code = stDONE) || decide (q.1 = stWAIT))
    q.2.vEnd t r (if bad then q.1 else code) done bits x.intStats fl a.meas none
  match a.code with
  | some c =>
    if x.kind = .cvtq then fin s1 c a.nz 0 a.fl ⟨o.scale, amaxEnc a.amax, a.qc, a.qf, 0, 0⟩
    else s1.vFail t r x c a.nz a.fl a.zs a.meas
  | none =>
    if x.kind = .cvtq then
      let e := x.n0 * x.rows
      let fb := faultBits a.qc a.qf e (vClampThr d) (vFlushThr d)
      if fb ≠ 0 ∧ vPolicy d = 2 then
        -- RESCUE_SECOND_PASS goes on from here; the summary of X is already known
        let q := s1.vEnd t r stDONE a.nz 0 x.intStats a.fl a.meas none
        match ((q.tile t).eng 1).run with
        | some r1 => q.setRun t 1 { r1 with
            ended := none, phase := .rescue o.scale o.zp o.stageOff o.stageBuf (amaxEnc a.amax) a.qc a.qf fb }
        | none => q
      else fin s1 stDONE a.nz (b2n (decide (fb ≠ 0) && decide (vPolicy d = 1))) a.fl
        ⟨o.scale, amaxEnc a.amax, a.qc, a.qf, fb, 0⟩
    else if x.cin d = 0 then
      if x.cout d = 0 then s1.vEnd t r stDONE a.nz 0 x.intStats a.fl a.meas none
      else
        -- with no carry-in the carry is the operation's identity (R190)
        let v := if x.kind = .reduce then a.locals.headD Num.zero else a.run.getD Num.zero
        let v := if x.kind = .scan && a.lead.isSome then (v, a.fl) else carryCombine x.op x.acc (carryIdent x.op x.acc) v a.fl
        s1.vEndCarry t r x stDONE a.nz v.2 a.zs (carryOf x.op x.acc v.1 false)
    else
      let n := if x.kind = .reduce then 1 else a.leadLen
      s1.setRun t 1 { r with
        done := a.nz, flags := a.fl.flags, clamps := a.fl.clamps, flushes := a.fl.flushes
        phase := .carry ⟨n, a.nz, (a.locals.take n).map (accEnc x.acc),
          accEnc x.acc (if x.kind = .reduce then a.locals.headD Num.zero else a.run.getD Num.zero), a.zs, none, none, stDONE⟩ }

/-- The loop record, read at the start (R178): none where it is ILLEGAL. -/
def State.vLoop (s : State) (t : Nat) (d : BitVec 512) : Except Nat (BitVec 512) × State :=
  let off := vLoopOff d
  if off = 0 then (.ok 0#512, s)
  else if off < 0x1000 ∨ s.scratchEnd t < off + 64 then (.error stILLEGAL, s)
  else
    match s.scratchRead t off 64 with
    | (.ok bs, s1) => (.ok (BitVec.ofNat 512 (ofBytes bs)), s1)
    | (.bad c, s1) => (.error c, s1)

/-- Is the carry-out record's destination one that CO_TEN allows (R192)? Answers 0, ILLEGAL, or a wait for the translation; where the
record's address cannot be reached, the checks that follow say so. -/
def State.vCoTenCheck (s : State) (t : Nat) (r : Run) (x : VX) : Nat × State :=
  let d := r.desc
  let b := r.buf (vCoBuf d)
  if x.cout d = 2 && vCoTen d && decide (bKind b = 2) && (x.coExt d).all fun e => r.extentIn e && s.extentAllowed t r e then
    match s.reachNow t 2 r.shoot (bBase b + vCoOff d) false true with
    | (.error c, s1) => if c = stWAIT then (c, s1) else (0, s)
    | (.ok p, s1) =>
      match p with
      | .shelf _ _ => (0, s1)
      | .hatch _ _ => (0, s1)
      | _ => (stILLEGAL, s1)
  else (0, s)

/-- Are the statistics of a descriptor integer ones, as far as its fields tell? Those of one whose operation or fields are refused are
not (log entry 55). -/
def vStatInt (d : BitVec 512) : Bool :=
  match vKind (hOp d) with
  | none => false
  | some kind =>
    match vFmt (dBits d 80 4) true, vFmt (dBits d 84 4) (vReadsY (hOp d) || decide (kind = .topk)), vFmt (dBits d 88 4) (kind ≠ .measure) with
    | some fx, some fy, some fz =>
      !vFieldsBad d (hOp d) kind fx fy fz && (if kind = .cvt ∨ kind = .cvtq ∨ kind = .measure then fx.isInt else fz.isInt)
    | _, _, _ => false

/-- What is known of a descriptor whose fields or loop nest are refused: its operation, and its accumulation format as far as its format
codes tell. -/
def vShell (d : BitVec 512) : Option VX :=
  (vKind (hOp d)).map fun kind =>
    let f := fun lo => (fmtOfCode (dBits d lo 4)).getD .fp32
    let used := [f 80] ++ (if vReadsY (hOp d) then [f 84] else []) ++ (if kind = .measure then [] else [f 88])
    let st := if vStatInt d then Fmt.int32 else .fp32
    { op := hOp d, kind := kind, fx := st, fy := .fp32, fz := st, n0 := 0, n1 := 0, n2 := 0, n3 := 0, n4 := 0, sx := [], sy := [],
      sz := [], xOff := 0, yOff := 0, zOff := 0, acc := vAccOf used }

/-- A descriptor's meaning, or what is known of one that is refused. -/
def vxAny (r : Run) : Option VX := (vxOf r).or (vShell r.desc)

/-- Ends a descriptor whose fields or loop nest are refused, so that nothing of it is known beyond its fields; it sends its BROKEN
carry-out like any other (R194). -/
def State.vRefuse (s : State) (t : Nat) (r : Run) (code : Nat) : State :=
  match vShell r.desc with
  | some x =>
    let r := { r with bufs := (if x.cout r.desc = 2 then [vCoBuf r.desc] else []).map fun n => (n, s.bufDesc t n) }
    s.vFail t r x code 0 Fl.clear [] []
  | none => s.vEnd t r code 0 0 (vStatInt r.desc) Fl.clear [] none

/-- A descriptor with an empty nest (R174): it touches nothing, and passes its carry-in on. -/
def State.vEmpty (s : State) (t : Nat) (r : Run) (x : VX) : State :=
  let d := r.desc
  if x.cin d ≠ 0 then
    s.setRun t 1 { r with phase := .carry ⟨0, 0, [], accEnc x.acc (carryIdent x.op x.acc), [], none, none, stDONE⟩ }
  else if x.cout d ≠ 0 then
    s.vEndCarry t r x stDONE 0 Fl.clear [] (carryOf x.op x.acc (carryIdent x.op x.acc) false)
  else s.vEnd t r stDONE 0 0 x.intStats Fl.clear [] none

/-- Reads and checks the output scale record of a CVTQ (R158, R186); one that lies out of bounds is left to the extent checks. -/
def State.vOutRec (s : State) (t : Nat) (r : Run) (x : VX) : Ev OutRec :=
  let z : OutRec := ⟨0, 0, 0, 0⟩
  if x.kind = .cvtq then
    Ev.andThen (s.readRecord t 2 r (vQBuf r.desc) (vQoff r.desc) 32) fun b s1 =>
      match b with
      | none => (.ok z, s1)
      | some bs =>
        match outRecOf bs x.fz (decide (vPolicy r.desc = 2)) with
        | some o => (.ok o, s1)
        | none => (.error stILLEGAL, s1)
  else (.ok z, s)

/-- Starts and runs a vector descriptor: the ILLEGAL checks, the empty nest, the extents, then the rows (R170 to R190, R619). -/
def State.vectorStart (s : State) (t : Nat) (sl : Slot) : State :=
  let d := sl.desc
  let r := s.newRun t sl (s.lateValues t d vectorLate) [] s.sdNum
  let s0 := s.beginRun t 1 r
  if sl.bad then s0.vRefuse t r stENGINE
  else
  match s0.vLoop t d with
  | (.error c, s1) => s1.vRefuse t r c
  | (.ok l, s1) =>
    let r := { r with loop := l }
    match vxOf r with
    | none => s1.vRefuse t r stILLEGAL
    | some x =>
      let b := s1.startRead t sl (x.bufs d)
      let s1 := b.2
      let r := { r with bufs := (x.bufs d).map fun n => (n, s.bufDesc t n) }
      if b.1 then s1.vFail t r x stENGINE 0 Fl.clear [] []
      else if s1.vCarryBad t d x || !r.bufs.all fun b => bValid b.2 then s1.vFail t r x stILLEGAL 0 Fl.clear [] []
      else
        let q := s1.vCoTenCheck t r x
        if q.1 ≠ 0 then q.2.vFail t r x q.1 0 Fl.clear [] []
        else if x.none then
          match q.2.vCheck t r x with
          | some c => q.2.vFail t r x c 0 Fl.clear [] []
          | none => q.2.vEmpty t r x
        else
          match q.2.vOutRec t r x with
          | (.error c, s2) => s2.vFail t r x c 0 Fl.clear [] []
          | (.ok o, s2) =>
            match s2.vCheck t r x with
            | some c => s2.vFail t r x c 0 Fl.clear [] []
            | none => s2.vRun t r x o

/-- Starts the head descriptor of the vector queue where its OP is `op`. -/
def State.vectorCmd (s : State) (t op : Nat) : Res :=
  s.engineCmd t 1 (fun d => decide (hOp d = op)) fun s x => s.vectorStart t x

/-- CVT (R186). A descriptor with an undefined OP is also started here, and ends ILLEGAL (R179). -/
def execCvt (t : TileId) (s : State) : Res :=
  s.engineCmd t 1 (fun d => decide (hOp d = 0x20) || (vKind (hOp d)).isNone) fun s x => s.vectorStart t x
/-- CVTQ (R186). -/
def execCvtq (t : TileId) (s : State) : Res := s.vectorCmd t 0x21
/-- ADD (R181). -/
def execVadd (t : TileId) (s : State) : Res := s.vectorCmd t 0x22
/-- SUB (R181). -/
def execVsub (t : TileId) (s : State) : Res := s.vectorCmd t 0x23
/-- MUL (R181). -/
def execVmul (t : TileId) (s : State) : Res := s.vectorCmd t 0x24
/-- MAX (R182). -/
def execVmax (t : TileId) (s : State) : Res := s.vectorCmd t 0x25
/-- MIN (R182). -/
def execVmin (t : TileId) (s : State) : Res := s.vectorCmd t 0x26
/-- FMA (R96, R181). -/
def execFma (t : TileId) (s : State) : Res := s.vectorCmd t 0x27
/-- AXPY (R181). -/
def execAxpy (t : TileId) (s : State) : Res := s.vectorCmd t 0x28
/-- AFFINE (R181). -/
def execAffine (t : TileId) (s : State) : Res := s.vectorCmd t 0x29
/-- ABS (R181). -/
def execVabs (t : TileId) (s : State) : Res := s.vectorCmd t 0x2A
/-- NEG (R181). -/
def execVneg (t : TileId) (s : State) : Res := s.vectorCmd t 0x2B
/-- CMPGT (R182). -/
def execCmpgt (t : TileId) (s : State) : Res := s.vectorCmd t 0x2C
/-- CMPEQ (R182). -/
def execCmpeq (t : TileId) (s : State) : Res := s.vectorCmd t 0x2D
/-- CMPGTS (R182). -/
def execCmpgts (t : TileId) (s : State) : Res := s.vectorCmd t 0x2E
/-- EXP (R184). -/
def execVexp (t : TileId) (s : State) : Res := s.vectorCmd t 0x30
/-- LOG (R184). -/
def execVlog (t : TileId) (s : State) : Res := s.vectorCmd t 0x31
/-- RECIP (R184). -/
def execRecip (t : TileId) (s : State) : Res := s.vectorCmd t 0x32
/-- RSQRT (R184). -/
def execRsqrt (t : TileId) (s : State) : Res := s.vectorCmd t 0x33
/-- TANH (R184). -/
def execTanh (t : TileId) (s : State) : Res := s.vectorCmd t 0x34
/-- RSUM (R183). -/
def execRsum (t : TileId) (s : State) : Res := s.vectorCmd t 0x40
/-- RSUMSQ (R183). -/
def execRsumsq (t : TileId) (s : State) : Res := s.vectorCmd t 0x41
/-- RMAX (R183). -/
def execRmax (t : TileId) (s : State) : Res := s.vectorCmd t 0x42
/-- RMIN (R183). -/
def execRmin (t : TileId) (s : State) : Res := s.vectorCmd t 0x43
/-- RAMAX (R183). -/
def execRamax (t : TileId) (s : State) : Res := s.vectorCmd t 0x44
/-- SCAN (R187). -/
def execScan (t : TileId) (s : State) : Res := s.vectorCmd t 0x48
/-- XSCAN (R187). -/
def execXscan (t : TileId) (s : State) : Res := s.vectorCmd t 0x49
/-- SCANMAX (R187). -/
def execScanmax (t : TileId) (s : State) : Res := s.vectorCmd t 0x4A
/-- TOPK (R185). -/
def execTopk (t : TileId) (s : State) : Res := s.vectorCmd t 0x50
/-- MEASURE (R197). -/
def execMeasure (t : TileId) (s : State) : Res := s.vectorCmd t 0x51

end Sys2Proof.Machine
end

