-- ==== Sys2Proof/Machine/Carry.lean ====
section
/-! DEFINITION. The second pass of RESCUE, carries between tiles, and the registers of the scan chain and of the rounding generator
(R164 to R167, R190 to R195, R100). -/
namespace Sys2Proof.Machine

/-- The pieces of a CVTQ's second pass: X re-read and Z rewritten in iteration order (R186). -/
def vectorPieces (r : Run) (x : VX) : List RUnit :=
  let w := if x.fx.is4 || x.fz.is4 then 2 else 1
  (List.range x.rows).flatMap fun i => (List.range ((x.n0 + w - 1) / w)).map fun u =>
    (⟨r.buf (vXBuf r.desc), x.rowOff x.xOff x.sx i + w * u * x.fx.bits / 8, min w (x.n0 - w * u), x.fx, false,
      r.buf (vZBuf r.desc), x.rowOff x.zOff x.sz i + w * u * x.fz.bits / 8⟩ : RUnit)

/-- The lines of X behind a VA buffer (R164, R186). -/
def vectorLines (r : Run) (x : VX) : List Nat :=
  let b := r.buf (vXBuf r.desc)
  if bKind b = 1 then []
  else (List.range x.rows).flatMap fun i => lineStarts (bBase b + x.rowOff x.xOff x.sx i) x.xRow

/-- The second pass of a CVTQ. -/
def State.vectorRescue (s : State) (t : Nat) (r : Run) (o : OutRec) (amax qc qf faults : Nat) : State :=
  match vxOf r with
  | none => s
  | some x =>
    let d := r.desc
    let cv := s.vConv t d x o
    let q := s.rescue t 2 r.shoot cv o.scale amax qc qf faults (x.n0 * x.rows) (vClampThr d) (vFlushThr d) (vectorLines r x)
      (vectorPieces r x) ⟨r.flags, r.clamps, r.flushes⟩
    let w := q.2.writeRec t 2 r.shoot (r.buf (vQBuf d)) (vQoff d) q.1.wr
    let bad := decide (w.1 ≠ 0) && (decide (q.1.status = stDONE) || decide (w.1 = stWAIT))
    let code := if bad then w.1 else q.1.status
    let bits := (if bad then Nat.lor q.1.bits 8 else q.1.bits) + 16 * b2n x.intStats
    w.2.setRun t 1 { r with
      ended := some code, done := if q.1.status = stDONE then r.done else q.1.done
      flags := q.1.fl.flags, clamps := q.1.fl.clamps, flushes := q.1.fl.flushes, phase := .work
      post := statWords t d q.1.fl bits ++ r.post.drop 3 }

/-- RESCUE_SECOND_PASS (R164, R186): the engine whose first pass found a scale fault under RESCUE sweeps, and re-quantises or
degrades. -/
def execRescueSecondPass (t : TileId) (e : Fin 2) (s : State) : Res :=
  match ((s.tile t).eng e).run with
  | none => .next s
  | some r =>
    match r.phase with
    | .rescue scale zp so sb amax qc qf fb =>
      if r.ended.isSome || !s.tileLive t then .next s
      else
        let o : OutRec := ⟨scale, zp, so, sb⟩
        let s1 := if e.val = 0 then s.matrixRescue t r o amax qc qf fb else s.vectorRescue t r o amax qc qf fb
        match ((s1.tile t).eng e).run with
        | some r1 => if r1.ended = some stWAIT then .next s else .next s1
        | none => .next s1
    | _ => .next s

/-! Carries. -/

/-- The flags and counts of a run. -/
def Run.fl (r : Run) : Fl := ⟨r.flags, r.clamps, r.flushes⟩

/-- Ends a waiting descriptor with a failure: Z keeps its local results and a BROKEN carry-out is sent (R193, R194). -/
def State.carryFail (s : State) (t : Nat) (r : Run) (x : VX) (w : CarryWait) (code : Nat) : State :=
  s.vBroken t r x code w.n r.fl w.zs (w.zs.map (decodeNum x.fz))

/-- Rewrites the leading segment's rows with the carry combined, from row `i` on (R191). Answers the status. -/
def State.carryRows (s : State) (t : Nat) (r : Run) (x : VX) : Nat → List (List Nat) → Nat × State
  | _, [] => (0, s)
  | i, c :: cs =>
    let q := s.vWriteRow t r (vZBuf r.desc) (x.rowOff x.zOff x.sz i) x.fz c
    if q.1 ≠ 0 then (q.1, q.2.2) else q.2.2.carryRows t r x (i + 1) cs

/-- Combines the carry with every local result of the leading segment (R190): a scan's sum is exact until its one rounding to ZFMT, a
reduction's is held in the accumulation format. -/
def carryAll (op : Nat) (acc : Fmt) (scan : Bool) (c : Num) : List Nat → Fl → List Num × Fl
  | [], fl => ([], fl)
  | v :: vs, fl =>
    let p := if scan && decide (carryOpc op = 0) && decide (acc ≠ .int32) then addNum c (decodeNum acc v) fl
      else carryCombine op acc c (decodeNum acc v) fl
    let q := carryAll op acc scan c vs p.2
    (p.1 :: q.1, q.2)

/-- After its carry-out a descriptor rewrites the leading segment and ends (R191). -/
def State.carryRewrite (s : State) (t : Nat) (r : Run) (x : VX) (w : CarryWait) (c : Num) (out : Option Carry) : State :=
  let dl := s.dealDraws (s.vConv t r.desc x ⟨0, 0, 0, 0⟩) w.locals.length
  let cv := dl.1
  let v := carryAll x.op x.acc (decide (x.kind = .scan)) c w.locals r.fl
  let k := convAll cv v.1 v.2
  let s1 := if cv.sr then dl.2.advanceLfsr t w.locals.length cv.start else dl.2
  let codes := k.1.map (·.code)
  let q := s1.carryRows t r x 0 (chunks (if x.kind = .reduce then 1 else x.n0) codes)
  let zs := codes ++ w.zs.drop codes.length
  q.2.vEnd t r (if q.1 = 0 then stDONE else q.1) w.n 0 x.intStats k.2 (zs.map (decodeNum x.fz)) out

/-- Forwards the carry-out and goes on (R191); a full link stalls the engine with the carry-out pending. -/
def State.carrySend (s : State) (t : Nat) (r : Run) (x : VX) (w : CarryWait) (c : Carry) (out : Carry) : State :=
  let fin := fun (s : State) (o : Option Carry) (code : Nat) =>
    if code ≠ stDONE then s.vEnd t r code w.n 0 x.intStats r.fl (w.zs.map (decodeNum x.fz)) o
    else s.carryRewrite t r x w (c.read x.acc Fl.clear).1 o
  if x.cout r.desc = 0 then fin s none w.code
  else
    let q := s.sendCarry t r (x.cout r.desc) out
    if q.1 = stWAIT then s.setRun t 1 { r with phase := .carry { w with cin := some c.value, out := some out } }
    else fin q.2 (if q.1 = 0 then some out else none) (if w.code = stDONE then q.1 else w.code)

/-- A carry-in has come: it is checked, combined, and the carry-out goes on (R190 to R193). -/
def State.carryTake (s : State) (t : Nat) (r : Run) (x : VX) (w : CarryWait) (k : Carry) : State :=
  if k.kind ≠ carryKind x.acc ∨ k.opc ≠ carryOpc x.op ∨ k.rsv then (s.raise 0x0114 1 t []).carryFail t r x w stENGINE
  else if k.broken then (s.raise 0x0115 1 t []).carryFail t r x w stENGINE
  else
    -- an empty nest passes its carry-in on unchanged (R174)
    if w.n = 0 then s.carrySend t r x w k k
    else
      let v := k.read x.acc r.fl
      let run := decodeNum x.acc w.run
      let out : Num × Fl := if x.kind = .reduce ∨ w.lead = w.n then carryCombine x.op x.acc v.1 run v.2 else (run, v.2)
      let r := { r with flags := out.2.flags, clamps := out.2.clamps, flushes := out.2.flushes }
      s.carrySend t r x w k (carryOf x.op x.acc out.1 false)

/-- What a step of a waiting vector descriptor comes to: one that must wait for a translation or an access does not happen yet. -/
def State.carryStep (s : State) (t : Nat) (s1 : State) : Res :=
  match ((s1.tile t).eng 1).run with
  | some r => if r.ended = some stWAIT then .next s else .next s1
  | none => .next s1

/-- CARRY_IN_ARRIVAL (R191): a waiting scan or reduction takes its carry-in from the chain, or from the record at CI_OFF, or its
pending carry-out gets room on the link. -/
def execCarryInArrival (t : TileId) (s : State) : Res :=
  match ((s.tile t).eng 1).run with
  | none => .next s
  | some r =>
    match r.phase, vxAny r with
    | .carry w, some x =>
      if r.ended.isSome || !s.tileLive t then .next s
      else
        match w.out with
        | some k =>
          if w.code ≠ stDONE then s.carryStep t (s.vEndCarry t r x w.code w.n r.fl w.zs k)
          else
            match w.cin with
            | none => s.carryStep t (s.vEndCarry t r x w.code w.n r.fl w.zs k)
            | some c => s.carryStep t (s.carrySend t r x { w with out := none } ⟨c, carryKind x.acc, carryOpc x.op, false, false⟩ k)
        | none =>
          if x.cin r.desc = 1 then
            match s.link (t / 64) (t % 64) with
            | [] => .next s
            | k :: ks => s.carryStep t ((s.setLink (t / 64) (t % 64) ks).carryTake t r x w k)
          else
            match s.evRead t 2 r.shoot (r.buf (vQBuf r.desc)) (vCiOff r.desc) 16 with
            | (.error c, s1) => if c = stWAIT then .next s else s.carryStep t (s1.carryFail t r x w c)
            | (.ok bs, s1) => s.carryStep t (s1.carryTake t r x w (carryFrom bs))
    | _, _ => .next s

/-- CHAIN_TIMEOUT (R194): a wait for the crate chain's carry-in exceeds TIMEOUT, 0 of which is no limit. -/
def execChainTimeout (t : TileId) (s : State) : Res :=
  match ((s.tile t).eng 1).run with
  | none => .next s
  | some r =>
    match r.phase, vxOf r with
    | .carry w, some x =>
      if r.ended.isSome || decide (x.cin r.desc ≠ 1) || w.out.isSome || decide (s.rd (scanTimeout (t / 64)) = 0) then .next s
      else .next (((s.raise 0x0116 1 t []).skipCarry t 1).carryFail t r x w stENGINE)
    | _, _ => .next s

/-- Delivers a part of a carry record; one bound for a hatch leaves as a write through its window, and carries the tally if it is the
last. -/
def State.landPart (s : State) (k : CarryRec) (p : CarryPart) (bs : List Byte) (last ok : Bool) : Nat × State :=
  match p.win with
  | some w =>
    let q := (s.bump (outInflight w.w)).sendHatch k.sender (2 ^ 40) [(p.vpage, 1)] (s.crate (k.sender / 64)).sdDone w false bs.length
      (k.tally.getD 0) (last && k.tally.isSome) bs
    match q.1 with
    | .ok _ => (0, q.2)
    | .error _ => (0, q.2.wr (outInflight w.w) (q.2.rd (outInflight w.w) - 1))
  | none =>
    let c : Chunk := ⟨0, bs.length, p.dst, false, bs, k.crc, p.vpage, [], (s.crate (k.sender / 64)).sdDone, none, none, false, none, true⟩
    if ok then
      let q := s.landChunk k.sender c
      if q.1 ≠ 0 then (q.1, q.2)
      else
        match p.dst, (if last then k.tally else none) with
        | .shelf u _, some a => (0, q.2.sendInc ⟨a, some u, 1, 1, k.sender, u / 6144⟩)
        | _, _ => (0, q.2)
    else (0, s.landFree k.sender c)

/-- Delivers the parts of a carry record in order, up to the first that does not land. -/
def State.landParts (s : State) (k : CarryRec) (ok : Bool) : List CarryPart → List Byte → Nat × State
  | [], _ => (0, s)
  | p :: ps, bs =>
    let q := s.landPart k p (bs.take p.len) ps.isEmpty ok
    if q.1 ≠ 0 then q else q.2.landParts k ok ps (bs.drop p.len)

/-- The descriptor that sent a carry record ends with a status in place of DONE where the record was not delivered (R28, R196). -/
def State.recordFails (s : State) (t code : Nat) : State :=
  match ((s.tile t).eng 1).run with
  | some r =>
    if r.ended = some stDONE then
      let post := r.post.map fun p =>
        if p.1 = tileReg t 0xC0 ∧ 0 < r.done then (p.1, p.2 ||| 0x80000#32) else p
      s.setRun t 1 { r with ended := some code, post := post }
    else s
  | none => s

/-- Delivers a carry record, or not: the descriptor that sent it then ends with an error status, and the fault "queue halted" is raised
when it completes. -/
def State.landRecord (s : State) (k : CarryRec) (ok : Bool) : Nat × State :=
  let q := s.landParts k ok k.parts k.bytes
  if q.1 = stWAIT then q
  else if q.1 ≠ 0 then (0, q.2.recordFails k.sender q.1)
  else if !ok && (k.parts.any fun p => p.win.isNone) then (0, q.2.recordFails k.sender stCRC)
  else q

/-- Does a takeover hold a carry record (R240, R341): one that crosses between dies to a shelf or to the cellar? -/
def State.recordHeld (s : State) (k : CarryRec) : Bool :=
  k.parts.any fun p => match p.win, p.dst with
    | none, .shelf u _ => s.recordSeam (k.sender / 6144) (u / 6144)
    | none, .cellar a => match s.locate a with
      | some l => s.recordSeam (k.sender / 6144) (l.stack / 5)
      | none => false
    | _, _ => false

/-- CARRY_RECORD_ARRIVAL (R192): the `n`th carry record on its way is delivered, its CRC-32C checked, and CO_TALLY incremented.
A record that fails its check leaves bytes that are not valid and increments nothing, and its sender's descriptor ends with CRC_ERROR
(R28, log entry 33). -/
def execCarryRecordArrival (n : Nat) (crcOk : Bool) (s : State) : Res :=
  match s.carryRecs[n]? with
  | none => .next s
  | some k =>
    if s.recordHeld k then .next s
    else
    let q := ({ s with carryRecs := s.carryRecs.eraseIdx n } : State).landRecord k crcOk
    if q.1 = stWAIT then .next s else .next q.2

/-- Does a chained descriptor run in crate `c` (R195)? -/
def State.chainBusy (s : State) (c : Nat) : Bool :=
  (s.tiles.any fun p => decide (p.1 / 64 = c) && match p.2.eng1.run with
    | some r => (match vKind (hOp r.desc) with
      | some .scan => true
      | some .reduce => true
      | _ => false) && (decide (vCin r.desc = 1) || decide (vCout r.desc = 1))
    | none => false) || (s.crate c).links.any fun l => !l.2.isEmpty

/-- A write of CRATE.SCAN_MASK. -/
def State.scanMaskSet (s : State) (c v : Nat) : State :=
  if s.chainBusy c then s.wr (scanRefused c) 1
  else (s.setCrate c { s.crate c with skips := [] }).setReg64 (crateReg c 0x20) v

/-- SCAN_MASK_WRITE (R195). -/
def execScanMaskWrite (src : Src) (c : CrateId) (v : BitVec 64) (s : State) : Res :=
  if s.mayWrite src (crateReg c 0x20) && s.srcRuns src then .next (s.atPlace src (64 + c) fun s => s.scanMaskSet c v.toNat) else .next s

/-- A write of CRATE.LFSR[t]; 0 is ignored (R100). -/
def State.lfsrWrite (s : State) (t : Nat) (w : BitVec 32) : State :=
  if w.toNat % 65536 = 0 then s else s.wr (lfsrFld t) (w.toNat % 65536)

/-- LFSR_WRITE (R100). -/
def execLfsrWrite (src : Src) (t : TileId) (w : BitVec 32) (s : State) : Res :=
  if s.mayWrite src (hubReg t 0x400 4) && s.srcRuns src then .next (s.atPlace src (64 + t / 64) fun s => s.lfsrWrite t w) else .next s

end Sys2Proof.Machine
end

