-- ==== Sys2Proof/Machine/Coh.lean ====
section
/-! DEFINITION. Coherence (chapter 10): the requests of the host cores' caches, snoops and their responses, evictions and their
crossings, the directory's capacity, and the requests of uncached agents that meet a cached line. Commands that take a
message name it by its place among those in flight, so that the environment's order of arrival is any order. -/
namespace Sys2Proof.Machine

/-! The directory (Table 10.2). -/

/-- Replaces a line's directory entry in its place; an entry without holders becomes Uncached (R285). -/
def State.setDir (s : State) (h : Nat) (d : Dir) : State :=
  if d.owner.isNone && decide (d.vec = 0) && decide (d.f = 15) then s.dropDir h d.line
  else { s with dirs := s.dirs.map fun (e : Dir) => if e.line = d.line then d else e }

/-- Allocates a directory entry. -/
def State.addDir (s : State) (h : Nat) (d : Dir) : State := ({ s with dirs := s.dirs ++ [d] }).bump (dirUsed h)

/-- The cluster bit of VEC. -/
def vecBit (c : Nat) : Nat := 2 ^ c

/-- VEC with a cluster added or removed. -/
def vecAdd (v c : Nat) : Nat := Nat.lor v (vecBit c)
def vecDel (v c : Nat) : Nat := if bitAt v c then v - vecBit c else v

/-- A line's entry without a snooped or evicting agent. -/
def Dir.without (d : Dir) (agent : Nat) : Dir :=
  if d.owner.isSome then (if d.owner = some agent then { d with owner := none, vec := 0, f := 15 } else d)
  else if agent = 96 then { d with f := if d.f = 12 then 15 else d.f }
  else
    let c := if agent < 96 then agent / 8 else agent - 128
    { d with vec := vecDel d.vec c, f := if d.f = c then 15 else d.f }

/-- Clears an evicting agent from a line's entry. -/
def State.clearHolder (s : State) (h line agent : Nat) : State :=
  match s.dir line with
  | none => s
  | some d => s.setDir h (d.without agent)

/-- Clears a snooped agent from a pinned entry, which keeps its way until the transaction ends (R286). -/
def State.clearPinned (s : State) (line agent : Nat) : State :=
  { s with dirs := s.dirs.map fun (e : Dir) => if e.line = line then e.without agent else e }

/-- The entries in the set of a line, in allocation order. -/
def State.dirMates (s : State) (line : Nat) : List Dir := s.dirs.filter fun d => decide (s.dirSet d.line = s.dirSet line)

/-! The caches' side. -/

/-- Sends a message. -/
def State.sendMsg (s : State) (m : Msg) : State := { s with msgs := s.msgs ++ [m] }

/-- An L2 or the system cache evicts a line (Table 10.1, R283): M with a WriteBack, E with an EvictClean, F to a sibling that
holds S or else with an EvictClean, S silently. -/
def State.evictLine (s : State) (c line : Nat) : State :=
  let x := s.cacheLine c line
  let s := s.dropCopy c line
  let send := fun wb => { s with evicts := s.evicts ++ [⟨c, line, wb, false, false⟩] }
  match x.st with
  | .m => send (some x)
  | .e => send none
  | .f =>
    let sib := if c < 96 then (coresOf (c / 8)).find? fun d => decide ((s.cacheLine d line).st = .s) else none
    match sib with
    | some d => s.setCacheLine d line { s.cacheLine d line with st := .f }
    | none => send none
  | _ => s

/-- The number of sets of an agent's cache: 1,024 in an L2, 65,536 in the system cache, indexed by the low bits of the line
(log entry 34). -/
def cacheSets (c : Nat) : Nat := if c = 96 then 65536 else 1024

/-- The other lines of the set that a line falls in. -/
def State.setMates (s : State) (c line : Nat) : List Nat :=
  (s.l2.filter fun p => decide (p.1 / 2 ^ 36 = c) && decide (p.1 % 2 ^ 36 % cacheSets c = line % cacheSets c)
    && decide (p.1 % 2 ^ 36 ≠ line)).map (·.1 % 2 ^ 36)

/-- Puts a line into a 16-way cache; where the set is full, a free choice of way is evicted, but no line with a request of its
own under way. -/
def State.installLine (s : State) (c line : Nat) (x : CLine) : State :=
  let mates := s.setMates c line
  let s := if mates.length < 16 then s
    else
      let cand := mates.filter fun m => !s.creqs.any fun r => decide (r.core = c) && decide (r.line = m)
      let d := s.draw
      match cand[d.1 % cand.length]? with
      | some v => d.2.evictLine c v
      | none => d.2
  s.setCacheLine c line x

/-- The eviction of a line by an agent, or by any core of a snooped cluster, that its home has not consumed. -/
def State.evictOf (s : State) (agent line : Nat) : Option Evict :=
  s.evicts.find? fun e => decide (e.line = line) && !e.consumed &&
    (if agent < 128 then decide (e.agent = agent) else decide (e.agent < 96) && decide (e.agent / 8 = agent - 128))

/-- A cache's answer to a snoop that meets no copy (R293): EVICTED_IN_FLIGHT, EVICTED_CLEAN or NOT_HELD. -/
def State.missCode (s : State) (agent line : Nat) : Nat :=
  match s.evictOf agent line with
  | some e => if e.wb.isSome then 5 else 4
  | none => 3

/-- A line in which a cache has found uncorrectable errors in the bursts of `err` marks them as poison (R295). -/
def CLine.marked (x : CLine) (err : Nat) : CLine := { x with poison := Nat.lor x.poison (err % 4) }

/-- A cache answers a snoop (R281, R283, Table 10.3): kind 0 SnpShared, 1 SnpUnique, 2 SnpOnce, 3 SnpInv, 4 Recall. A cluster that holds
only S copies, its F copy having been dropped, answers from one of them. Bursts of `err` prove uncorrectable in the cache (R295). -/
def State.answerSnoop (s : State) (k agent line req err : Nat) : State :=
  let hs := s.holders agent line
  let drop := fun (s : State) => hs.foldl (fun s c => s.dropCopy c line) s
  let answer := fun (s : State) code dirty => s.sendMsg (.resp k agent line code dirty)
  let src := (hs.find? fun c => decide ((s.cacheLine c line).st ≠ .s)).or hs.head?
  match src with
  | none => answer s (s.missCode agent line) none
  | some c =>
    let x := (s.cacheLine c line).marked err
    let dirty := if x.st = .m then some x else none
    if k = 0 then
      let s := s.sendMsg (.data req line { x with st := .f })
      if c = 96 then answer (s.dropCopy c line) 1 dirty
      else answer ((s.setCacheLine c line { x with st := .s }).loseResv c line) 0 dirty
    else if k = 1 then
      answer ((drop s).sendMsg (.data req line { x with st := if x.st = .m then .m else .e })) 1 dirty
    else if k = 2 then answer s 2 (some x)
    else if k = 3 then answer (drop s) 1 none
    else answer (drop s) 1 dirty

/-- A snoop of kind `k` at place `n` of the messages is taken, unless a core holds it after an LR (R427) or a seam's takeover holds it. -/
def State.takeSnoop (s : State) (k n err : Nat) : Res :=
  match s.msgs[n]? with
  | some (.snp k' agent line req) =>
    if k' ≠ k || s.snoopSeam line || (s.holders agent line).any fun c => s.holdsSnoop c line then .next s
    else .next (({ s with msgs := s.msgs.eraseIdx n } : State).answerSnoop k agent line req err)
  | _ => .next s

/-! Transactions at a home. -/

/-- Counts the pinned entries of a home. -/
def State.countPinned (s : State) (h : Nat) : State :=
  let n := (s.txns.filter fun t => decide ((s.dirSet t.line).map Prod.fst = some h)).length
  let s := s.wr (cohPinned h) n
  s.wr (cohPeak h) (max n (s.rd (cohPeak h)))

/-- Opens a transaction and sends its snoops. -/
def State.openTxn (s : State) (h : Nat) (t : Txn) (req : Nat) (snps : List (Nat × Nat)) : State :=
  let s := { s with txns := s.txns ++ [{ t with waits := snps.map Prod.snd }],
                    msgs := s.msgs ++ snps.map fun (p : Nat × Nat) => Msg.snp p.1 p.2 t.line req }
  s.countPinned h

/-- Replaces the open transaction on a line. -/
def State.setTxn (s : State) (t : Txn) : State := { s with txns := s.txns.map fun (u : Txn) => if u.line = t.line then t else u }

/-- A home reads a whole line for a caching request (R261): hamper merged, errors corrected, poison counted. -/
def State.readLine (s : State) (l : Loc) (line : Nat) : CLine × State :=
  let s := s.flushLine l.home line
  let r0 := s.readBurst { l with pc := 0 } (2 * line)
  let r1 := r0.2.readBurst { l with pc := 1 } (2 * line + 1)
  let p := b2n r0.1 + 2 * b2n r1.1
  let s := if p = 0 then r1.2 else r1.2.bump (celPoisonRd l.stack)
  (⟨.i, readBytes s.cellar (128 * line) 128, p⟩, s)

/-- Ends a request without a line: its status (1 poison, 2 unit absent, 0 an atomic performed) and an old value. -/
def State.endReq (s : State) (core line st old : Nat) : State :=
  { s with creqs := s.creqs.map fun (r : CReq) => if r.core = core ∧ r.line = line then { r with stage := 3, op := [st, old] } else r }

/-- Writes a line's dirty data to the cellar. -/
def State.storeDirty (s : State) (l : Loc) (line : Nat) (x : CLine) : State := s.storeLine l line x.data x.poison

/-- Installs an evicted line in the system cache (R285). -/
def State.scInstall (s : State) (line : Nat) (x : CLine) : State := s.installLine 96 line x

/-- A home consumes an eviction that finds no crossing snoop and sends WBAck (R285). A WriteBack of a core goes to the system
cache when SC_ALLOC is 1, else to the cellar. Whether the home then also installs a line that leaves its last holder clean
is free (log entry 35). -/
def State.consumeEvict (s : State) (l : Loc) (e : Evict) : State :=
  let s := { s with evicts := s.evicts.map fun (v : Evict) =>
    if v.agent = e.agent ∧ v.line = e.line then { v with held := true, consumed := true } else v }
  let alloc := s.on cohScAlloc && decide (e.agent < 96)
  let s := match e.wb with
    | some x =>
      if alloc && !s.isRetired l then
        let s := match s.dir e.line with
          | some d => s.setDir l.home { d with owner := some 96, vec := 0, f := 15 }
          | none => s.addDir l.home ⟨e.line, some 96, 0, 15⟩
        s.scInstall e.line { x with st := .m }
      else (s.clearHolder l.home e.line e.agent).storeDirty l e.line x
    | none =>
      let d := s.dir e.line
      let owned := decide (d.bind Dir.owner = some e.agent)
      let s := s.clearHolder l.home e.line e.agent
      if alloc && (s.dir e.line).isNone && d.isSome then
        let q := s.draw
        if q.1 % 2 = 1 then
          let r := q.2.readLine l e.line
          if r.1.poison = 0 then
            if owned then (r.2.addDir l.home ⟨e.line, some 96, 0, 15⟩).scInstall e.line { r.1 with st := .e }
            else (r.2.addDir l.home ⟨e.line, none, 0, 12⟩).scInstall e.line { r.1 with st := .f }
          else q.2
        else q.2
      else s
  s.sendMsg (.wbAck e.agent e.line)

/-- Drops a line's directory entry when no holder remains in it: the line is Uncached. -/
def State.dropEmpty (s : State) (h line : Nat) : State :=
  match s.dir line with
  | some d => if d.owner.isNone && decide (d.vec = 0) && decide (d.f = 15) then s.dropDir h line else s
  | none => s

/-- Closes the transaction on a line, whose entry goes if no holder remains; an eviction that was held against it is then consumed
(R294). -/
def State.closeTxn (s : State) (l : Loc) (line : Nat) : State :=
  let s := (({ s with txns := s.txns.filter fun (t : Txn) => decide (t.line ≠ line) }).countPinned l.home).dropEmpty l.home line
  match s.evicts.find? fun e => decide (e.line = line) && e.held && !e.consumed with
  | some e => s.consumeEvict l e
  | none => s

/-- The cache that Table 10.5 names as the source of a caching request's data, as a snooped agent. -/
def dirSource (d : Dir) (cl : Nat) : Option Nat :=
  match d.owner with
  | some o => some o
  | none => if d.f = 12 then some 96 else if d.f < 12 ∧ d.f ≠ cl then some (128 + d.f) else none

/-- The snoops that Table 10.5 sends for a request of kind 0 RdShared, 1 RdUnique or 2 Upgrade from cluster `cl`. The requester's
own cluster is not snooped, but for an owner in it (log entry 36). -/
def snoopsOf (d : Dir) (kind cl : Nat) : List (Nat × Nat) :=
  let src := dirSource d cl
  if kind = 0 then (src.map fun a => (0, a)).toList
  else
    let inv := match d.owner with
      | some _ => []
      | none => ((vecOthers d.vec cl).filter fun c => decide (src ≠ some (128 + c)) || decide (kind = 2)).map fun c => (3, 128 + c)
    if kind = 2 then inv ++ (if d.f = 12 then [(3, 96)] else [])
    else (src.map fun a => (1, a)).toList ++ inv

/-- The directory entry after a caching request (Table 10.5), from the entry as the responses have left it. `wasOwner` is
the owner that answered and kept S. -/
def dirAfter (line core kind : Nat) (d : Option Dir) (keeps : Option Nat) : Dir :=
  let cl := core / 8
  if kind = 0 then
    let base := match d with
      | some d => if d.owner.isSome then 0 else d.vec
      | none => 0
    let base := match keeps with
      | some o => if o < 96 then vecAdd base (o / 8) else base
      | none => base
    ⟨line, none, vecAdd base cl, cl⟩
  else ⟨line, some core, 0, 15⟩

/-- Completes a caching request whose snoops have all been answered (R282): data from the home where no cache has sent it, Comp,
and the directory's new state. Poison ends the request without a line (R261). -/
def State.finishCaching (s : State) (l : Loc) (t : Txn) (core kind : Nat) (keeps : Option Nat) : State :=
  let d := s.dir t.line
  let set := fun (s : State) =>
    let n := dirAfter t.line core kind d keeps
    match s.dir t.line with
    | some _ => { s with dirs := s.dirs.map fun (e : Dir) => if e.line = t.line then n else e }
    | none => s.addDir l.home n
  if t.sent then
    ((set s).sendMsg (.comp core t.line t.grant)).setTxn { t with comped := true }
  else
    let r := s.readLine l t.line
    if r.1.poison ≠ 0 then (r.2.endReq core t.line 1 0).closeTxn l t.line
    else
      (((set r.2).sendMsg (.data core t.line { r.1 with st := t.grant })).sendMsg (.comp core t.line t.grant)).setTxn
        { t with comped := true, sent := true }

/-- Marks a request as taken by its home. -/
def State.markTaken (s : State) (core line stage : Nat) : State :=
  { s with creqs := s.creqs.map fun (r : CReq) => if r.core = core ∧ r.line = line then { r with stage := stage } else r }

/-- An Upgrade that its home treats as RdUnique becomes one, once, and is counted (R282, Table 10.6). -/
def State.convertUpg (s : State) (h core line : Nat) (conv : Bool) : State :=
  if conv then
    ({ s with creqs := s.creqs.map fun (r : CReq) => if r.core = core ∧ r.line = line then { r with kind := 1 } else r } : State).bump (cohUpgConv h)
  else s

/-- The requests of age 15 that wait, in order of arrival (R288). -/
def State.agedWaits (s : State) : List (Nat × Nat) :=
  s.agedQ.filter fun q => s.creqs.any fun r => decide (r.core = q.1) && decide (r.line = q.2) && decide (r.stage = 0)

/-- A request of age 15 joins those that wait. -/
def State.joinAged (s : State) (core line : Nat) : State :=
  if (core, line) ∈ s.agedQ then s else { s with agedQ := s.agedWaits ++ [(core, line)] }

/-- A request of age 15 no longer waits. -/
def State.leaveAged (s : State) (core line : Nat) : State := { s with agedQ := s.agedQ.filter fun q => decide (q ≠ (core, line)) }

/-- How many requests of age 15 that satisfy `p` wait ahead of one: those before it in the queue, or all of them. -/
def State.agedAhead (s : State) (core line : Nat) (p : Nat → Bool) : Nat :=
  ((s.agedWaits.takeWhile fun q => decide (q ≠ (core, line))).filter fun q => p q.2).length

/-- May a request that needs a new entry take a way of its line's set? Requests of age 15 that wait for one come first (R288). -/
def State.wayFor (s : State) (core line : Nat) : Bool :=
  let mates := s.dirMates line
  let avail := (16 - mates.length) + (mates.filter fun d => !s.pinned d.line).length
  decide (s.agedAhead core line (fun m => decide (m ≠ line) && (s.dir m).isNone && decide (s.dirSet m = s.dirSet line)) < avail)

/-- Refuses a request with Retry (R287). -/
def State.refuseReq (s : State) (h core line : Nat) : State :=
  ((s.markTaken core line 1).bump (cohRetries h)).sendMsg (.retry core line)

/-- Serves a caching request at its home (R282, R287, R291). -/
def State.serve (s : State) (l : Loc) (core line kind age : Nat) : State :=
  if s.isRetired l then ((s.bump (celPoisonRd l.stack)).endReq core line 1 0).leaveAged core line
  else
    let txn := fun kind sent grant : _ => (⟨line, .caching core kind, [], false, sent, none, grant, decide (age = 15)⟩ : Txn)
    match s.dir line with
    | none =>
      let conv := decide (kind = 2)
      let kind := if kind = 2 then 1 else kind
      let mates := s.dirMates line
      if !s.wayFor core line then (if age = 15 then s.joinAged core line else s.refuseReq l.home core line)
      else if mates.length < 16 then
        let r := ((s.convertUpg l.home core line conv).leaveAged core line).readLine l line
        if r.1.poison ≠ 0 then r.2.endReq core line 1 0
        else
          let s := ((r.2.addDir l.home ⟨line, some core, 0, 15⟩).markTaken core line 1).openTxn l.home
            { txn kind true CSt.e with comped := true } core []
          (s.sendMsg (.data core line { r.1 with st := .e })).sendMsg (.comp core line .e)
      else
        match mates.find? fun d => !s.pinned d.line with
        | none => if age = 15 then s.joinAged core line else s.refuseReq l.home core line
        | some v =>
          let s := (s.convertUpg l.home core line conv).leaveAged core line
          let snps := match v.owner with
            | some o => [(4, o)]
            | none => (vecOthers v.vec 12).map (fun c => (3, 128 + c)) ++ (if v.f = 12 then [(3, 96)] else [])
          ((s.markTaken core line 1).bump (cohBackinv l.home)).openTxn l.home
            ⟨v.line, .backInv core line kind, [], false, true, none, .i, decide (age = 15)⟩ core snps
    | some d =>
      let cl := core / 8
      let listed := d.owner.isNone && bitAt d.vec cl
      let s := (s.convertUpg l.home core line (decide (kind = 2) && !listed)).leaveAged core line
      let kind := if kind = 2 && !listed then 1 else kind
      let t := txn kind (decide (kind = 2)) (if kind = 0 then CSt.f else CSt.e)
      let snps := snoopsOf d kind cl
      let s := (s.markTaken core line 1).openTxn l.home t core snps
      if snps.isEmpty then s.finishCaching l t core kind none else s

/-- The trackers of a home in use, ordinary or reserved for age 15 (R288). -/
def State.trackers (s : State) (h : Nat) (aged : Bool) : Nat :=
  (s.txns.filter fun t => decide ((s.dirSet t.line).map Prod.fst = some h) && decide (t.aged = aged) &&
    (match t.kind with
     | .uncRead _ _ => false
     | .uncWrite _ _ _ => false
     | _ => true)).length

/-- Is one of the trackers that a home reserves for age 15 left for a request, behind those that wait ahead of it (R288)? -/
def State.trackerFor (s : State) (h core line : Nat) : Bool :=
  decide (s.trackers h true + s.agedAhead core line (fun m => decide ((s.dirSet m).map Prod.fst = some h)) < 8)

/-! Atomics (R292). -/

/-- The new value of a host core's atomic on `w` bits: 0 swap, 1 compare and swap, 2 add, 3 xor, 4 and, 5 or, 6 min, 7 max, 8 minu,
9 maxu. -/
def amoValue (op w old v cmp : Nat) : Nat :=
  let v := v % 2 ^ w
  match op with
  | 0 => v
  | 1 => if old = cmp % 2 ^ w then v else old
  | 2 => (old + v) % 2 ^ w
  | 3 => Nat.xor old v
  | 4 => Nat.land old v
  | 5 => Nat.lor old v
  | 6 => if signedOf w v < signedOf w old then v else old
  | 7 => if signedOf w old < signedOf w v then v else old
  | 8 => min old v
  | _ => max old v

/-- Performs a host core's atomic at its home once no cache holds the line, and returns the old value to the core. -/
def State.doAtomic (s : State) (l : Loc) (core a size op v cmp : Nat) : State :=
  let line := a / 128
  if s.isRetired l then
    ((s.bump (celRetiredWr l.stack)).raise 0x0404 5 (32 * l.stack + l.ch) []).endReq core line 1 0
  else
    let p := s.prepLine l line
    if p.1 (a % 128 / 64) then (p.2.bump (celPoisonRd l.stack)).endReq core line 1 0
    else
      let old := ofBytes (readBytes p.2.cellar a size)
      ({ p.2 with cellar := writeBytes p.2.cellar a (toBytes size (amoValue op (8 * size) old v cmp)) }).endReq core line 0 old

/-- Ends a transaction whose snoops have all been answered (R282, R289, R290). -/
def State.finishTxn (s : State) (l : Loc) (t : Txn) (keeps : Option Nat) : State :=
  match t.kind with
  | .caching core kind => s.finishCaching l t core kind keeps
  | .atomic core a size op v cmp =>
    let s := s.dropDir l.home t.line
    let s := match t.got with
      | some x => if s.isRetired l then s else s.storeDirty l t.line x
      | none => s
    (s.doAtomic l core a size op v cmp).closeTxn l t.line
  | .uncRead a n =>
    match t.got with
    | some x =>
      let bad := (burstsOf (a % 128) n).any (bitAt x.poison)
      let s := if bad then s.bump (celPoisonRd l.stack) else s
      let s := { s with answer := if bad then ⟨3, List.replicate n 0xFF#8⟩ else ⟨0, (x.data.drop (a % 128)).take n⟩ }
      s.closeTxn l t.line
    | none =>
      -- the owner had evicted the line clean: the cellar is current
      let s := s.closeTxn l t.line
      let r := s.homeRead a n
      match r.1 with
      | .ok bs => { r.2 with answer := ⟨0, bs⟩ }
      | .bad st => { r.2 with answer := if st = 13 then ⟨3, List.replicate n 0xFF#8⟩ else ⟨4, []⟩ }
  | .uncWrite a bs port =>
    let full := decide (bs.length = 128)
    let s := s.dropDir l.home t.line
    let s := match t.got with
      | some x => if full || s.isRetired l then s else s.storeDirty l t.line x
      | none => s
    let s := s.closeTxn l t.line
    let r := s.homeWrite a (bs.map fun b => (b, true)) false port
    -- a write that must still wait goes back to the front of those on their way
    if r.1 = stWAIT then { s with homeQ := ⟨a, bs, port⟩ :: s.homeQ } else r.2.releaseTallies
  | .backInv core line kind =>
    let s := s.dropDir l.home t.line
    let s := match t.got with
      | some x => s.storeDirty l t.line x
      | none => s
    let s := s.closeTxn l t.line
    -- the request goes on at once, unless its own line has been pinned meanwhile
    match s.locate (128 * line) with
    | some m => if s.pinned line then s.markTaken core line 0 else s.serve m core line kind (if t.aged then 15 else 0)
    | none => s

/-! The commands. -/

/-- A home takes the request at place `n` when it is of the kind. -/
def State.takeReq (s : State) (kind n : Nat) : Res :=
  match s.creqs[n]? with
  | none => .next s
  | some c =>
    if c.kind ≠ kind || c.stage ≠ 0 || s.pinned c.line then .next s
    else
      match s.locate (128 * c.line) with
      | none => .next (s.endReq c.core c.line 2 0)
      | some l =>
        match s.homeStatus l with
        | (0, s1) =>
          if s1.lineHeld l [0, 1] then .next s
          else if c.age = 15 then
            if !s1.trackerFor l.home c.core c.line then .next (s1.joinAged c.core c.line)
            else .next (s1.serve l c.core c.line kind 15)
          else if 120 ≤ s1.trackers l.home false then .next (s1.refuseReq l.home c.core c.line)
          else .next (s1.serve l c.core c.line kind c.age)
        | (st, s1) => if st = stWAIT then .next s else .next (s1.endReq c.core c.line 2 0)

/-- RDSHARED (R282). -/
def execRdshared (n : Nat) (s : State) : Res := s.takeReq 0 n

/-- RDUNIQUE (R282). -/
def execRdunique (n : Nat) (s : State) : Res := s.takeReq 1 n

/-- UPGRADE (R282). -/
def execUpgrade (n : Nat) (s : State) : Res := s.takeReq 2 n

/-- ATOMIC (R292): the home clears the line, the requesting core's copy included, and performs the operation. -/
def execAtomicReq (n : Nat) (s : State) : Res :=
  match s.creqs[n]? with
  | none => .next s
  | some c =>
    if c.kind ≠ 3 || c.stage ≠ 0 || s.lineBusy c.line then .next s
    else
      match s.locate (128 * c.line) with
      | none => .next (s.endReq c.core c.line 2 0)
      | some l =>
        match s.homeStatus l with
        | (0, s1) =>
          let aged := decide (c.age = 15)
          if s1.lineHeld l [0, 1] then .next s
          else if aged && !s1.trackerFor l.home c.core c.line then .next (s1.joinAged c.core c.line)
          else if !aged && decide (120 ≤ s1.trackers l.home false) then .next (s1.refuseReq l.home c.core c.line)
          else
            let s1 := s1.leaveAged c.core c.line
            let a := c.op.getD 0 0
            let size := c.op.getD 1 0
            let op := c.op.getD 2 0
            let v := c.op.getD 3 0
            let cmp := c.op.getD 4 0
            match s1.dir c.line with
            | none => .next (s1.doAtomic l c.core a size op v cmp)
            | some d =>
              let t : Txn := ⟨c.line, .atomic c.core a size op v cmp, [], false, false, none, .i, aged⟩
              let snps := clearSnoops d false
              let s1 := (s1.markTaken c.core c.line 1).openTxn l.home t c.core snps
              if snps.isEmpty then .next (s1.finishTxn l t none) else .next s1
        | (st, s1) => if st = stWAIT then .next s else .next (s1.endReq c.core c.line 2 0)

/-- Takes the eviction at place `n` at its home; bursts of `err` proved uncorrectable in the cache that writes the line back (R295). -/
def State.takeEvict (s : State) (wb : Bool) (n err : Nat) : Res :=
  match s.evicts[n]? with
  | none => .next s
  | some e =>
    if e.wb.isSome ≠ wb || e.held then .next s
    else
      match s.locate (128 * e.line) with
      | none => .next s
      | some l =>
        let e := { e with wb := e.wb.map fun x => CLine.marked x err }
        if (s.homeStatus l).1 ≠ 0 || s.lineHeld l [0, 1] then .next s
        else if e.consumed then
          -- a crossing has already completed it (R293)
          .next (({ s with evicts := s.evicts.set n { e with held := true } }).sendMsg (.wbAck e.agent e.line))
        else if s.pinned e.line then .next { s with evicts := s.evicts.set n { e with held := true } }
        else .next (s.consumeEvict l e)

/-- WRITEBACK (R285, R294). -/
def execWriteback (q : LineTaken) (s : State) : Res := s.takeEvict true q.n q.err

/-- EVICTCLEAN (R285, R294). -/
def execEvictclean (n : Nat) (s : State) : Res := s.takeEvict false n 0

/-- The transactions of uncached agents at a home. -/
def State.uncTrackers (s : State) (h : Nat) : Nat :=
  (s.txns.filter fun t => decide ((s.dirSet t.line).map Prod.fst = some h)).length - s.trackers h true - s.trackers h false

/-- UNCREAD (R289): a home takes an uncached read of bytes of one line; an owner is asked by SnpOnce. -/
def execUncread (a n : Nat) (s : State) : Res :=
  let n := inLine a n
  let plain := fun (_ : Unit) =>
    let r := s.homeRead a n
    match r.1 with
    | .bad 255 => Host.Outcome.next s
    | x => Host.Outcome.next { r.2 with answer := x.answer n }
  match s.locate a, (s.dir (a / 128)).bind Dir.owner with
  | some l, some o =>
    if s.isRetired l then plain ()
    else if s.pinned (a / 128) || s.lineHeld l (burstsOf (a % 128) n) || decide (256 ≤ s.uncTrackers l.home) then .next s
    else
      match s.homeStatus l with
      | (0, s1) => .next (s1.openTxn l.home ⟨a / 128, .uncRead a n, [], false, false, none, .i, false⟩ 255 [(2, o)])
      | (st, s1) => if st = stWAIT then .next s else .next { s1 with answer := ⟨4, []⟩ }
  | _, _ => plain ()

/-- UNCWRITE (R290): a home takes the uncached write at place `n` of those on their way, after clearing the line's copies. -/
def execUncwrite (n : Nat) (s : State) : Res :=
  match s.takeWrite n with
  | none => .next s
  | some w =>
    match s.locate w.a, s.dir (w.a / 128) with
    | some l, some d =>
      if s.pinned (w.a / 128) || s.lineHeld l (burstsOf (w.a % 128) w.bs.length) || decide (256 ≤ s.uncTrackers l.home) then .next s
      else
        match s.homeStatus l with
        | (0, s1) =>
          let full := decide (w.bs.length = 128)
          let s1 := { s1 with homeQ := s1.homeQ.eraseIdx n }
          let t : Txn := ⟨w.a / 128, .uncWrite w.a w.bs w.port, [], false, false, none, .i, false⟩
          let snps := clearSnoops d full
          let s1 := s1.openTxn l.home t 255 snps
          if snps.isEmpty then .next (s1.finishTxn l t none) else .next s1
        | (st, s1) => if st = stWAIT then .next s else .next ({ s1 with homeQ := s1.homeQ.eraseIdx n } : State).releaseTallies
    | _, _ =>
      if s.lineBusy (w.a / 128) then .next s
      else
        let r := s.homeWrite w.a (w.bs.map fun b => (b, true)) false w.port
        if r.1 = stWAIT then .next s else .next ({ r.2 with homeQ := r.2.homeQ.eraseIdx n } : State).releaseTallies

/-- SNPSHARED (R281, R283). -/
def execSnpshared (q : LineTaken) (s : State) : Res := s.takeSnoop 0 q.n q.err

/-- SNPUNIQUE (R281). -/
def execSnpunique (q : LineTaken) (s : State) : Res := s.takeSnoop 1 q.n q.err

/-- SNPONCE (R281, R289). -/
def execSnponce (q : LineTaken) (s : State) : Res := s.takeSnoop 2 q.n q.err

/-- SNPINV (R281). -/
def execSnpinv (n : Nat) (s : State) : Res := s.takeSnoop 3 n 0

/-- RECALL (R281, R290). -/
def execRecall (q : LineTaken) (s : State) : Res := s.takeSnoop 4 q.n q.err

/-- A crossing that the home matches (R293, Table 10.6): the data that the eviction carries to the request. -/
def State.crossWriteback (s : State) (l : Loc) (t : Txn) (x : CLine) : Txn × State :=
  match t.kind with
  | .caching core 0 =>
    ({ t with sent := true }, (s.storeDirty l t.line x).sendMsg (.data core t.line { x with st := .f }))
  | .caching core _ => ({ t with sent := true, grant := .m }, s.sendMsg (.data core t.line { x with st := .m }))
  | .uncRead _ _ => ({ t with got := some x }, s.storeDirty l t.line x)
  | _ => ({ t with got := some x }, s)

/-- Consumes a held eviction that a crossing has completed, and sends WBAck; one that has not arrived is marked (R293). -/
def State.matchEvict (s : State) (e : Evict) : State :=
  let s := { s with evicts := s.evicts.map fun (v : Evict) =>
    if v.agent = e.agent ∧ v.line = e.line then { v with consumed := true } else v }
  if e.held then s.sendMsg (.wbAck e.agent e.line) else s

/-- SNPRESP (R293): a home takes a snoop response; an EVICTED_IN_FLIGHT waits for its eviction to arrive. -/
def execSnpresp (n : Nat) (s : State) : Res :=
  match s.msgs[n]? with
  | some (.resp k agent line code dirty) =>
    match s.txns.find? fun t => decide (t.line = line), s.locate (128 * line) with
    | some t, some l =>
      let ev := s.evictOf agent line
      if code = 5 && !(ev.map (·.held)).getD false then .next s
      else
        let s := { s with msgs := s.msgs.eraseIdx n }
        let s := if code = 4 ∨ code = 5 then s.bump (cohEvif l.home)
          else if code = 3 then s.bump (cohNotHeld l.home) else s
        let t := { t with waits := t.waits.filter (· ≠ agent) }
        let q : Txn × State := match code, ev with
          | 5, some e =>
            let r := s.crossWriteback l t (e.wb.getD CLine.none)
            (r.1, (r.2.matchEvict e).clearPinned line agent)
          | 4, some e => (t, (s.matchEvict e).clearPinned line agent)
          | 3, _ => (t, s.clearPinned line agent)
          | _, _ =>
            -- answered with a copy: data has gone to the requester for SnpShared and SnpUnique
            let t := if k ≤ 1 then { t with sent := true } else t
            match t.kind, dirty with
            | .caching _ 0, some x => (t, s.storeDirty l line x)
            | .caching _ _, some _ => ({ t with grant := .m }, s)
            | _, some x => ({ t with got := some x }, s)
            | _, none => (t, s)
        let keeps := if code = 0 then (match (q.2.dir line).bind Dir.owner with
          | some o => some o
          | none => none) else none
        let s := q.2.setTxn q.1
        if q.1.waits.isEmpty then .next (s.finishTxn l q.1 keeps) else .next s
    | _, _ => .next s
  | _ => .next s

/-- A requester that holds Data and Comp installs the line and sends CompAck (R282); an Upgrade that kept its copy needs no
Data. -/
def State.tryInstall (s : State) (core line : Nat) : State :=
  match s.creqs.find? fun r => decide (r.core = core) && decide (r.line = line) with
  | none => s
  | some r =>
    let own := s.cacheLine core line
    let x := match r.data with
      | some x => some x
      | none => if r.kind = 2 ∧ own.st ≠ CSt.i then some own else none
    match x, r.comp with
    | some x, some g =>
      let s := { s with creqs := s.creqs.filter fun (q : CReq) => !(decide (q.core = core) && decide (q.line = line)) }
      (s.installLine core line { x with st := g }).sendMsg (.compAck core line)
    | _, _ => s

/-- DATA (R282). -/
def execDataMsg (n : Nat) (s : State) : Res :=
  match s.msgs[n]? with
  | some (.data core line x) =>
    .next (({ s with
      msgs := s.msgs.eraseIdx n,
      creqs := s.creqs.map fun (r : CReq) => if r.core = core ∧ r.line = line then { r with data := some x } else r } : State).tryInstall core line)
  | _ => .next s

/-- COMP (R282). -/
def execComp (n : Nat) (s : State) : Res :=
  match s.msgs[n]? with
  | some (.comp core line g) =>
    .next (({ s with
      msgs := s.msgs.eraseIdx n,
      creqs := s.creqs.map fun (r : CReq) => if r.core = core ∧ r.line = line then { r with comp := some g } else r } : State).tryInstall core line)
  | _ => .next s

/-- COMPACK (R286): the transaction ends and the entry is unpinned. -/
def execCompack (n : Nat) (s : State) : Res :=
  match s.msgs[n]? with
  | some (.compAck core line) =>
    match s.locate (128 * line), s.txns.find? fun t => decide (t.line = line) with
    | some l, some t =>
      match t.kind with
      | .caching c _ => if c = core then .next (({ s with msgs := s.msgs.eraseIdx n } : State).closeTxn l line) else .next s
      | _ => .next s
    | _, _ => .next s
  | _ => .next s

/-- RETRY (R288): the requester raises its request's age and will send it again. -/
def execRetry (n : Nat) (s : State) : Res :=
  match s.msgs[n]? with
  | some (.retry core line) =>
    let s := { s with msgs := s.msgs.eraseIdx n }
    match s.creqs.find? fun r => decide (r.core = core) && decide (r.line = line) with
    | none => .next s
    | some r =>
      let s := { s with creqs := s.creqs.map fun (q : CReq) =>
        if q.core = core ∧ q.line = line then { q with age := min (q.age + 1) 15, stage := 2 } else q }
      match s.locate (128 * line) with
      | some l => .next (if r.age + 1 = 15 then s.bump (cohAge15 l.home) else s)
      | none => .next s
  | _ => .next s

/-- Does an eviction of a line from the cluster of a core await WBAck (R284)? -/
def State.evicting (s : State) (core line : Nat) : Bool :=
  s.evicts.any fun e => decide (e.agent < 96) && decide (e.agent / 8 = core / 8) && decide (e.line = line)

/-- RETRY_RESEND (R288): after 8 × age ns the refused request at place `n` is sent again, once no eviction of its line from the cluster
awaits WBAck (R284). -/
def execRetryResend (n : Nat) (s : State) : Res :=
  match s.creqs[n]? with
  | some r => if r.stage = 2 && !s.evicting r.core r.line then .next { s with creqs := s.creqs.set n { r with stage := 0 } } else .next s
  | none => .next s

/-- WBACK (R284): a cache takes WBAck and frees its eviction buffer. -/
def execWback (n : Nat) (s : State) : Res :=
  match s.msgs[n]? with
  | some (.wbAck agent line) =>
    .next { s with msgs := s.msgs.eraseIdx n,
                   evicts := s.evicts.filter fun (e : Evict) => !(decide (e.agent = agent) && decide (e.line = line) && e.consumed) }
  | _ => .next s

/-- LR_HOLD_EXPIRY (R427): 64 core cycles after an LR its hold ends, so that a held snoop is answered. -/
def execLrHoldExpiry (c : CoreId) (s : State) : Res :=
  let x := s.hcore c
  if x.hold then .next (s.setHcore c { x with hold := false }) else .next s

/-! What the cores ask of their caches. -/

/-- May the cluster of a core send a request for a line: no request of the cluster for it is under way, and no eviction of it from
the cluster awaits WBAck (R284)? -/
def State.mayRequest (s : State) (core line : Nat) : Bool :=
  !(s.creqs.any fun r => decide (r.core / 8 = core / 8) && decide (r.line = line)) &&
    !s.evicting core line

/-- The cluster agent sends a request of a core (R280, Table 10.5): before RdUnique or Upgrade the siblings' S and F copies are
dropped, and a sibling that owns the line evicts it first. Unchanged where the request must wait. -/
def State.sendReq (s : State) (core line kind : Nat) (op : List Nat) : State :=
  if !s.mayRequest core line then s
  else
    let sibs := (coresOf (core / 8)).filter fun d => decide (d ≠ core) && decide ((s.cacheLine d line).st ≠ .i)
    let owner := sibs.find? fun d => decide ((s.cacheLine d line).st = .m) || decide ((s.cacheLine d line).st = .e)
    if kind = 1 ∨ kind = 2 then
      match owner with
      | some d => if s.holdsSnoop d line then s else s.evictLine d line
      | none =>
        let s := sibs.foldl (fun s d => s.dropCopy d line) s
        { s with creqs := s.creqs ++ [⟨core, line, kind, 0, 0, op, none, none⟩] }
    else { s with creqs := s.creqs ++ [⟨core, line, kind, 0, 0, op, none, none⟩] }

/-- A core asks for a line to read: a copy that a sibling holds in S or F is given within the cluster (R280). -/
def State.askShared (s : State) (core line : Nat) : State :=
  let sib := (coresOf (core / 8)).find? fun d => decide ((s.cacheLine d line).st = .s) || decide ((s.cacheLine d line).st = .f)
  match sib with
  | some d => if s.mayRequest core line then s.installLine core line { s.cacheLine d line with st := .s } else s
  | none => s.sendReq core line 0 []

/-- A core asks for a line to write. -/
def State.askUnique (s : State) (core line : Nat) : State :=
  s.sendReq core line (if (s.cacheLine core line).st = .i then 1 else 2) []

end Sys2Proof.Machine
end

