-- ==== Sys2Proof/Machine/Hatch.lean ====
section
/-! DEFINITION. Hatches (R317 to R327): writes of windows and entries, inbound checks, and requests received through an entry;
and what every received packet meets first (R363, R364, R367, R370 to R375). -/
namespace Sys2Proof.Machine

/-! Registers (Tables 11.9, 11.10). -/
def inValid (n : Nat) : Fld := ⟨0x242000 + 32 * n, 0, 1⟩
def inRd (n : Nat) : Fld := ⟨0x242000 + 32 * n, 1, 1⟩
def inWr (n : Nat) : Fld := ⟨0x242000 + 32 * n, 2, 1⟩
def inAtom (n : Nat) : Fld := ⟨0x242000 + 32 * n, 3, 1⟩
def inBusy (n : Nat) : Fld := ⟨0x242000 + 32 * n, 4, 1⟩
def inJob (n : Nat) : Fld := ⟨0x242000 + 32 * n, 8, 24⟩
def inRejects (n : Nat) : Fld := ⟨0x242018 + 32 * n, 0, 32⟩
/-- REJ_NO_ENTRY, REJ_JOB, REJ_PERM and REJ_BOUND, for response status 1 to 4. -/
def hatchRej (st : Nat) : Fld := ⟨0x244000 + 4 * (st - 1), 0, 32⟩
def outRefused : Fld := ⟨0x244010, 0, 1⟩
def inRefused : Fld := ⟨0x244010, 1, 1⟩
/-- IN[n].BASE as a byte address. -/
def State.inBase (s : State) (n : Nat) : Nat := bitsAt (s.reg64 (0x242008 + 32 * n)) 12 36 * 4096
/-- IN[n].SIZE. -/
def State.inSize (s : State) (n : Nat) : Nat := bitsAt (s.reg64 (0x242010 + 32 * n)) 0 40

/-- Bytes of the driver reserve (R552). -/
def driverReserve : Nat := 0x10000000

/-! Writes of windows and entries. -/

/-- May outbound window `w` stand as it is (R320, R327)? -/
def State.outOk (s : State) (w : Nat) : Bool :=
  decide (s.rd (outPlace w) % 4096 = 0) && decide (s.outSize w % 4096 = 0) && decide (s.outSize w ≤ 2 ^ 38) &&
    (!s.on (outOps w) || (decide (1 ≤ s.rd (outOpc w)) && decide (s.rd (outOpc w) ≤ 13)))

/-- May inbound entry `n` stand as it is: its range wholly in the cellar beyond the driver reserve, or wholly in the shelf aperture
(R323, R552)? An empty range lies in both. -/
def State.inOk (s : State) (n : Nat) : Bool :=
  let b := s.inBase n
  let z := s.inSize n
  decide (z = 0) || (decide (driverReserve ≤ b) && decide (b + z ≤ cellarSize)) ||
    (decide (0x10000000000 ≤ b) && decide (b + z ≤ 0x10180000000))

/-- A write of a word or an aligned pair of words of HATCH.OUT[w], judged as the window stands after it (R594). -/
def State.outWrite (s : State) (w i : Nat) (wide : Bool) (v : BitVec 64) : State :=
  let s' := s.plainWrites (0x240000 + 32 * w + 4 * i) wide v
  if s'.outOk w then s' else s.wr outRefused 1

/-- A write of a word or an aligned pair of words of HATCH.IN[n]. -/
def State.inWrite (s : State) (n i : Nat) (wide : Bool) (v : BitVec 64) : State :=
  let s' := s.plainWrites (0x242000 + 32 * n + 4 * i) wide v
  if s'.inOk n then s' else s.wr inRefused 1

/-- HATCH_OUT_WRITE (R320, R327): a write of word `i` of HATCH.OUT[w], or of words i and i + 1. -/
def execHatchOutWrite (src : Src) (w : Fin 256) (i : Fin 8) (wide : Bool) (v : BitVec 64) (s : State) : Res :=
  let a := 0x240000 + 32 * w.val + 4 * i.val
  if !(s.mayWrite src a && s.domOn 22) then .next (s.xltDropped src)
  else if aligned a wide then .next (s.outWrite w i wide v) else .next s

/-- HATCH_IN_WRITE (R323, R324, R552): a write of word `i` of HATCH.IN[n], or of words i and i + 1. -/
def execHatchInWrite (src : Src) (n : Fin 256) (i : Fin 8) (wide : Bool) (v : BitVec 64) (s : State) : Res :=
  let a := 0x242000 + 32 * n.val + 4 * i.val
  if !(s.mayWrite src a && s.domOn 22) then .next (s.xltDropped src)
  else if aligned a wide then .next (s.inWrite n i wide v) else .next s

/-! Packets on their way. -/

/-- The virtual channel of a packet type; none where Table 13.6 lacks the type. -/
def vcOfType (t : Nat) : Option Nat :=
  if t = 1 then some 2 else if t = 2 ∨ t = 3 then some 5 else if t = 8 ∨ t = 9 ∨ t = 10 then some 3
  else if t = 16 ∨ t = 17 ∨ t = 18 then some 0 else if t = 20 then some 1 else if t = 24 then some 4
  else if t = 31 then some 6 else none

/-- Does a unit accept a packet type (Table 13.8)? Responses end at the unit whose request they answer. -/
def unitAccepts (u t : Nat) : Bool :=
  if u = 0 then decide (t ∈ [1, 2, 3, 8, 9, 16, 20, 31])
  else if u ≤ 16 then decide (t = 31)
  else if u = 32 ∨ u = 33 then decide (t ∈ [10, 17, 18, 24])
  else decide (u = 64) && decide (t = 31)

/-- The response of a request: RD_RESP, WR_ACK or COLL_ACK with a status and data (Tables 13.6, 13.7). Its SRC is the unit that
answers: the one addressed, or the device where the packet stopped. -/
def State.response (s : State) (k : Packet) (st : Nat) (data : List Byte) : Packet :=
  { dest := k.src, src := if devPlace k.dest = s.place then k.dest else s.place, vc := 3,
    type := if k.type = 1 then 8 else if k.type = 24 then 10 else 9, job := s.rd jobId, hatch := 0, off := 0,
    len := data.length, opc := 0, hops := 0, step := k.step, tag := k.tag, tally := 0, arr := false, status := st,
    payload := data, crc := crc32c data, hdrOk := true, upper := false }

/-- Answers a request. -/
def State.respond (s : State) (k : Packet) (st : Nat) (data : List Byte) : State := (s.sendPacket (s.response k st data)).2

/-- A packet that cannot go on: a request is answered UNREACHABLE (R364, R367, R371). -/
def State.unreachable (s : State) (k : Packet) : State :=
  if k.type = 1 ∨ k.type = 2 ∨ k.type = 3 ∨ k.type = 24 then s.respond k 8 [] else s

/-- Forwards a packet that came by port `via` and is bound for another device (R360, R361, R364, R370, R371). -/
def State.forward (s : State) (via : Nat) (k : Packet) : State :=
  if 32 ≤ k.hops then (s.bump fabHopLimit).unreachable k
  else
    let r := s.sendVia (some via) { k with hops := k.hops + 1 }
    if r.1 = 8 then r.2.unreachable k else r.2

/-- A packet of one of the types in `ts` is received on port `p`; `f` takes it where it is addressed to a unit of this device that
accepts it. -/
def State.receive (s : State) (p : Nat) (k : Packet) (ts : List Nat) (f : State → Res) : Res :=
  if !s.portUp p || !(decide (k.type ∈ ts) || (vcOfType k.type).isNone) then .next s
  else if k.vc = 7 then .next (s.bump fabSpareDrops)
  else if !k.hdrOk || decide (vcOfType k.type ≠ some k.vc) then .next ((s.bump fabBadHdr).raise 0x0603 8 p [])
  else if !s.fencePasses p k.vc k.job then .next (s.bump (fenceDrops p))
  else if devPlace k.dest ≠ s.place then .next (s.forward p k)
  else if unitAccepts (k.dest % 4096) k.type then f s
  else .next (s.unreachable k)

/-- Does a payload agree with LENGTH and with its CRC-32C (R59)? -/
def Packet.crcOk (k : Packet) : Bool := decide (k.payload.length = k.len) && decide (k.crc = crc32c k.payload)

/-! Requests through an inbound entry (R321, R322). -/

/-- The checks of Table 11.6 that concern the entry, in its order: 0, or response status 1 to 4. -/
def State.entryCheck (s : State) (k : Packet) : Nat :=
  let n := k.hatch
  if !s.on (inValid n) then 1
  else if s.rd (inJob n) ≠ k.job then 2
  else if !(if k.type = 1 then s.on (inRd n) else if k.type = 2 then s.on (inWr n) else s.on (inAtom n)) then 3
  else if s.inSize n < k.off + k.len ∨ 4096 < k.len then 4
  else 0

/-- The response status for a status of Table 2.10. -/
def hatchStatus (st : Nat) : Nat :=
  if st = 0 then 0 else if st = 13 then 7 else if st = stPERMISSION then 3 else if st = stWAIT then stWAIT else 5

/-- Performs an admitted request at `base` + offset, the entry's BASE as its header arrived: its response status, or stWAIT, its data and the state after it. Operations act on
the cellar through the alias of their opcode; one whose opcode names no alias, or whose target is a shelf, finds no target (log entry 38). -/
def State.hatchServe (s : State) (base : Nat) (k : Packet) : Nat × List Byte × State :=
  let pa := base + k.off
  match placeOf pa with
  | some (.cellar a) =>
    if k.type = 1 then
      match readLines (fun s a n => s.homeRead a n) (lineFuel k.len) a k.len s with
      | (.ok d, s1) => (0, d, s1)
      | (.bad st, s1) => (hatchStatus st, [], s1)
    else if !k.crcOk then (6, [], s)
    else if k.type = 2 then
      let r := writeLines (fun s a bs => s.homeWrite a (bs.map fun b => (b, true)) false none) (lineFuel k.len) a k.payload s
      (hatchStatus r.1, [], r.2)
    else if k.opc = 0 ∨ 13 < k.opc then (5, [], s)
    else
      let r := writeLines (fun s a bs => s.homeOp k.opc a bs) (lineFuel k.len) a k.payload s
      (hatchStatus r.1, [], r.2)
  | some (.shelf u off) =>
    if !s.tileOn u then (5, [], s)
    else if k.type = 1 then
      match s.apertureRead u off k.len with
      | (.ok d, s1) => (0, d, s1)
      | (.bad st, s1) => (hatchStatus st, [], s1)
    else if k.type = 3 then (5, [], s)
    else if !k.crcOk then (6, [], s)
    else
      let r := s.apertureWrite u off k.payload
      (hatchStatus r.1, [], r.2)
  | _ => (5, [], s)

/-- The arrival increment of an accepted write that carries ARR (R62, R321, R366). -/
def State.hatchArrive (s : State) (base : Nat) (k : Packet) : State :=
  if k.type = 1 || !k.arr then s
  else
    let u := match placeOf (base + k.off) with
      | some (.shelf u _) => some u
      | _ => none
    let d := match u with
      | some t => t / 6144
      | none => match s.locate (base + k.off) with
        | some l => l.stack / 5
        | none => 4
    s.sendInc ⟨k.tally, u, 1, 0, k.src, d⟩

/-- Serves an admitted request and answers it, unless its target makes it wait. -/
def State.hatchTry (s : State) (base : Nat) (k : Packet) : Option State :=
  match s.hatchServe base k with
  | (st, d, s1) =>
    if st = stWAIT then none
    else some ((if st = 0 then s1.hatchArrive base k else s1).respond k st d)

/-- A request that reaches unit 0 of this device: rejected, served, or admitted and waiting (R321, R324). -/
def State.hatchRequest (s : State) (p : Nat) (k : Packet) : State :=
  let c := s.entryCheck k
  if c ≠ 0 then ((s.bump (hatchRej c)).bump (inRejects k.hatch)).respond k c []
  else
    match s.hatchTry (s.inBase k.hatch) k with
    | some s1 => s1
    | none => State.wr { s with inReqs := s.inReqs ++ [⟨k.hatch, p, s.inBase k.hatch, k⟩] } (inBusy k.hatch) 1

/-- HATCH_IN_DRAIN (R324): the requests that were admitted through entry `n` and waited are served, in their order, as far as their
targets take them; BUSY clears after the last. -/
def execHatchInDrain (n : Fin 256) (s : State) : Res :=
  let q := s.inReqs.foldl (fun (q : List InReq × State) r =>
    if r.entry = n.val then
      match q.2.hatchTry r.base r.pkt with
      | some s1 => (q.1, s1)
      | none => (q.1 ++ [r], q.2)
    else (q.1 ++ [r], q.2)) ([], { s with inReqs := [] })
  let s1 : State := { q.2 with inReqs := q.1 }
  if s.inReqs.any fun r => decide (r.entry = n.val) then
    .next (s1.wr (inBusy n) (b2n (q.1.any fun r => decide (r.entry = n.val))))
  else .next s

/-- RD_REQ (R321). -/
def execRdReq (p : PortId) (k : Packet) (s : State) : Res := s.receive p k [1] fun s => .next (s.hatchRequest p k)

/-- WR (R321). -/
def execWr (p : PortId) (k : Packet) (s : State) : Res := s.receive p k [2] fun s => .next (s.hatchRequest p k)

/-- OPWR (R321). -/
def execOpwr (p : PortId) (k : Packet) (s : State) : Res := s.receive p k [3] fun s => .next (s.hatchRequest p k)

/-! Responses (R319, R365, R366). -/

/-- The chunk that waits for tag `tag` in a tile's running copy. -/
def State.waitingChunk (s : State) (t tag : Nat) : Option (Run × Chunk) :=
  ((s.tile t).eng2.run).bind fun r => (r.flight.find? fun c => decide (c.waitTag = some tag)).map fun c => (r, c)

/-- Ends a chunk's wait with a status, 0 when accepted, and the data of a read. A read whose destination is another hatch window is
then written through it. -/
def State.chunkAnswer (s : State) (q : FabReq) (st : Nat) (data : List Byte) : State :=
  match s.waitingChunk q.tile q.tag with
  | none => s
  | some (r, c) =>
    let put := fun (s : State) (c' : Chunk) =>
      s.setRun q.tile 2 { r with flight := r.flight.map fun x => if x = c then c' else x }
    if st ≠ 0 then
      let s := if c.unsent then s.freeWindow c else s
      put s { c with waitTag := none, fail := some st, unsent := false }
    else if !q.read then put s { c with waitTag := none }
    else
      let c1 := { c with waitTag := none, data := data, crc := crc32c data }
      match c.win with
      | none => put s c1
      | some w =>
        if c.last then put s c1
        else
          match s.sendHatch q.tile c.pos c.spans c.sdDone w false c.len 0 false data with
          | (.ok tag, s1) => put s1 { c1 with waitTag := some tag, unsent := false }
          | (.error e, s1) => put (s1.lessInflight w.w) { c1 with fail := some e, unsent := false }

/-- A response reaches the device: the request it answers ends, or it is late. -/
def State.answerReq (s : State) (k : Packet) (read : Bool) : State :=
  match s.fabReqs.find? fun q => decide (q.tag = k.tag) && decide (q.read = read) with
  | none => s.bump fabLateResp
  | some q =>
    let st := if k.status ≠ 0 then respStatus k.status else if read && !k.crcOk then stCRC else 0
    let s : State := { s with fabReqs := s.fabReqs.filter fun x => decide (x ≠ q) }
    (s.lessInflight q.w).chunkAnswer q st k.payload

/-- RD_RESP (R365). -/
def execRdResp (p : PortId) (k : Packet) (s : State) : Res := s.receive p k [8] fun s => .next (s.answerReq k true)

/-- WR_ACK (R365). -/
def execWrAck (p : PortId) (k : Packet) (s : State) : Res := s.receive p k [9] fun s => .next (s.answerReq k false)

/-- FABRIC_RESPONSE_TIMEOUT (R365): the request with a tag has had no response within RESP_TIMEOUT. -/
def execFabricResponseTimeout (tag : Nat) (s : State) : Res :=
  match s.fabReqs.find? fun q => decide (q.tag = tag) with
  | none => .next s
  | some q =>
    let s1 : State := { s with fabReqs := s.fabReqs.filter fun x => decide (x ≠ q) }
    let s1 := (s1.bump fabRespTimeouts).raise 0x0604 8 q.port []
    .next ((s1.lessInflight q.w).chunkAnswer q stABSENT [])

/-! Messages to unit 0. -/

/-- SYNC_INC (R359): TAG, a signed amount, is added to the package tally at TALLY; any other address is dropped (R233). While the control
role between the port's die and H moves, the increment is held on its way (R240). -/
def execSyncInc (p : PortId) (k : Packet) (s : State) : Res :=
  s.receive p k [16] fun s =>
    let amt : Int := if k.tag < 32768 then k.tag else (k.tag : Int) - 65536
    let i : Inc := ⟨k.tally, none, amt, 0, k.src, 5 + p.val / 8⟩
    if bitsAt k.tally 14 2 ≠ 3 then .next (s.dropInc i)
    else if s.legHeld i.die then .next (s.sendInc i)
    else .next (s.deliver i amt)

/-- STAT.DRV.MSG_QUEUED (Table 15.7). -/
def drvQueued : Fld := ⟨0x49400, 16, 7⟩

/-- Sets the resident driver's message queue. -/
def State.setDrvMsgs (s : State) (ms : List DrvMsg) : State := State.wr { s with drvMsgs := ms } drvQueued ms.length

/-- CTRL (R367): the message joins the resident driver's queue of 64, and APLIC source 3 signals it (Table 15.5). One whose payload
fails its CRC-32C, or that finds the queue full, is not delivered. -/
def execCtrl (p : PortId) (k : Packet) (s : State) : Res :=
  s.receive p k [20] fun s =>
    if k.crcOk && decide (s.drvMsgs.length < 64) then
      .next ((s.setDrvMsgs (s.drvMsgs ++ [⟨none, k.payload⟩])).aplicSignal 3)
    else .next s

end Sys2Proof.Machine
end

