-- ==== Sys2Proof/Machine/Fabric.lean ====
section
/-! DEFINITION. Fabric ports: training, failing lanes, narrowing and loss, fences and routes (R346 to R356, R370 to R377, R550,
R551). -/
namespace Sys2Proof.Machine

/-- PWR.CLK.FAB_REF_OK of the die of port `p` (Table 16.11). -/
def fabRefOk (p : Nat) : Fld := ⟨0x1C0200, 4 + p / 8, 1⟩

/-- May port `p` train: its PHY domain on and its reference clock there (R346, R449)? -/
def State.phyOk (s : State) (p : Nat) : Bool := s.domOn (23 + p / 8) && s.on (fabRefOk p) && !s.fastStopped && !s.offline 8 p && !s.sliceOn 3 p

/-- The uses of port `p` by a plan: its reservation names the port (Table 18.1). -/
def Plan.usesPort (p : Nat) (x : Plan) : Bool := decide (x.ports.getD p 0 % 128 ≠ 0)

/-- Sets STAT.STATE of a port, with the count of ports that are Up at its level and the conditions generation (R384, R503). A
port of ADMIT_JOB's retrain that comes Up no longer delays it. -/
def State.setPortState (s : State) (p st : Nat) : State :=
  let old := s.rd (fabState p)
  if old = st then s
  else
    let l := s.rd (fabLevel p)
    let s := (s.wr (fabState p) st).condChange
    let s := if st = 6 then
        let x := s.fport p
        State.setFport { s with admitPorts := s.admitPorts.filter fun q => decide (q ≠ p) } p { x with downAt := none }
      else if old = 6 then let x := s.fport p; s.setFport p { x with downAt := some s.plt }
      else s
    if 4 < l then s
    else if st = 6 then s.wr (levelPortsUp l) (s.rd (levelPortsUp l) + 1)
    else if old = 6 then s.wr (levelPortsUp l) (s.rd (levelPortsUp l) - 1)
    else s

/-- Clears the trained width, version and lanes of a port. -/
def State.clearTrained (s : State) (p : Nat) : State :=
  ((s.wr (fabWidth p) 0).wr (fabVer p) 0).wr (fabLanes p) 0

/-- Starts a retrain of a port (R352): it returns to Detect with every lane to be tried again. -/
def State.retrainPort (s : State) (p : Nat) : State :=
  let s := ((s.setPortState p 0).clearTrained p).creditsLost p
  let x := s.fport p
  s.setFport p { x with bad := [], cw := [], narrowing := false }

/-- A port's training ends without coming Up: a retrain of ADMIT_JOB has then left its retrain, back to Detect (R549). -/
def State.trainLeft (s : State) (p : Nat) : State := { s with admitPorts := s.admitPorts.filter fun q => decide (q ≠ p) }

/-- FABRIC_DETECT_POLL (R349): a port in Detect, or one that is down and tries again (R352), looks for a partner. -/
def execFabricDetectPoll (p : PortId) (found : Bool) (s : State) : Res :=
  if (decide (s.rd (fabState p) = 0) || decide (s.rd (fabState p) = 7)) && s.phyOk p then
    if found then .next (s.setPortState p 1) else .next ((s.setPortState p 0).trainLeft p)
  else .next s

/-- A training stage exceeds its limit: back to Detect (R349). -/
def State.stageFails (s : State) (p : Nat) : State :=
  (((s.bump (fabTrainFails p)).raise 0x0600 8 p []).retrainPort p).trainLeft p

/-- The lanes of a set, ascending, cut to the widest of 4, 2 and 1 (R355). -/
def bestLanes (good : List Nat) : List Nat := good.take (if 4 ≤ good.length then 4 else if 2 ≤ good.length then 2 else good.length)

/-- Sets STAT.WIDTH and STAT.LANES. -/
def State.setLanes (s : State) (p : Nat) (ls : List Nat) : State :=
  let code := if ls.length = 4 then 3 else ls.length
  (s.wr (fabWidth p) code).wr (fabLanes p) ((ls.map fun i => 2 ^ i).foldl (· + ·) 0)

/-- FABRIC_TRAIN_STAGE_COMPLETE (R349 to R351, R581, R585): the stage that a port is in ends, and the next begins. The Credits
stage gives the partner's credits, and what waits for them leaves. -/
def execFabricTrainStageComplete (p : PortId) (e : TrainEnv) (s : State) : Res :=
  let st := s.rd (fabState p)
  if !s.phyOk p then .next s
  else if st = 1 then
    let v := min e.major (s.rd (fabMaxver p))
    if v < 2 ∨ v < e.lowest then .next ((s.setPortState p 8).trainLeft p) else .next ((s.wr (fabVer p) v).setPortState p 2)
  else if st = 2 then .next (s.setPortState p 3)
  else if st = 3 then
    let good := (List.range 4).filter fun i => e.good.getLsbD i && !(decide (i ∈ (s.fport p).lanesOut))
    if good.isEmpty then .next (s.stageFails p)
    else
      let x := s.fport p
      let bad := (List.range 4).filter fun i => !(decide (i ∈ good))
      .next (((s.setFport p { x with bad := bad }).setLanes p (bestLanes good)).setPortState p 4)
  else if st = 4 then .next (s.setPortState p 5)
  else if st = 5 then
    let diff := decide (s.rd (fabVer p) = 3) && (decide (e.mode ≠ s.rd (fenceMode p)) || decide (e.job ≠ s.rd (fenceJob p)))
    let s := ((s.wr (fabPartner p) e.place.toNat).wr (fabFenceDiff p) (b2n diff)).setPortState p 6
    let x := s.fport p
    .next ((s.setFport p { x with grant := e.credits, used := [] }).pump)
  else .next s

/-- FABRIC_TRAIN_STAGE_TIMEOUT (R349). A port that waits in Version for a partner of its major stays there (R350). -/
def execFabricTrainStageTimeout (p : PortId) (s : State) : Res :=
  if 1 ≤ s.rd (fabState p) ∧ s.rd (fabState p) ≤ 5 then .next (s.stageFails p) else .next s

/-- FABRIC_RETRAIN (R352): a write of CTL.RETRAIN = 1. -/
def execFabricRetrain (src : Src) (p : PortId) (s : State) : Res :=
  if s.mayWrite src (0x290000 + 0x400 * p) && s.domOn (23 + p / 8) then .next (s.retrainPort p) else .next s

/-- FABRIC_PARTNER_RETRAIN (R352): the partner of a port that has found one retrains, and this side with it; each keeps its own fence
(R562). -/
def execFabricPartnerRetrain (p : PortId) (s : State) : Res := if s.rd (fabState p) ≠ 0 then .next (s.retrainPort p) else .next s

/-! Failing lanes (R354 to R356). -/

/-- A lane in use is declared failing: the port holds its flits and retrains narrower. -/
def State.laneFails (s : State) (p lane : Nat) : State :=
  if s.portUp p && bitAt (s.rd (fabLanes p)) lane then
    let x := s.fport p
    s.setFport p { x with bad := if lane ∈ x.bad then x.bad else x.bad ++ [lane], narrowing := true }
  else s

/-- FABRIC_LANE_LOSS_OF_LOCK (R354). -/
def execFabricLaneLossOfLock (p : PortId) (lane : Fin 4) (s : State) : Res := .next (s.laneFails p lane)

/-- FABRIC_BER_WINDOW (R354): a lane's window of 2^30 bits ends with a number of pre-FEC errors; the lane is failing above
2.4 × 10^-4. -/
def execFabricBerWindow (p : PortId) (lane : Fin 4) (errors : Nat) (s : State) : Res :=
  if 24 * 2 ^ 30 < errors * 100000 then .next (s.laneFails p lane) else .next s

/-- An uncorrectable codeword names a lane; the fourth within the window makes it failing. -/
def State.codeword (s : State) (p lane : Nat) : State :=
  let x := s.fport p
  let n := lookMap 0 x.cw lane + 1
  let s := s.setFport p { x with cw := putMap 0 x.cw lane (if n = 4 then 0 else n) }
  if n = 4 then s.laneFails p lane else s

/-- Drops the first `n` of a port's packets, whose flits the partner has acknowledged. -/
def freePackets (p : Nat) : Nat → List (Nat × Packet) → List (Nat × Packet)
  | 0, xs => xs
  | _ + 1, [] => []
  | n + 1, x :: xs => if x.1 = p then freePackets p n xs else x :: freePackets p (n + 1) xs

/-- FABRIC_FLIT_RECEIVE (R353, R354, R357, R384): a good flit is acknowledged, its packet bytes counted, the retry buffer freed as
far as the partner has acknowledged, and the credits given back taken up; a bad one is replayed with every later one. -/
def execFabricFlitReceive (p : PortId) (f : FlitRx) (s : State) : Res :=
  if !s.portUp p then .next s
  else
    match f with
    | .good corrected bytes freed spare credits =>
      let l := s.rd (fabLevel p)
      let s := s.add64 (fabFecCorr p) corrected
      let s := if l ≤ 4 then s.add64 (levelRx l) bytes else s
      let s := State.bumpBy { s with fabTx := freePackets p freed s.fabTx } fabSpareDrops spare
      .next (if credits.isEmpty then s else s.creditsBack p credits)
    | .bad unc lanes later =>
      let s := s.bumpBy (fabReplays p) (later + 1)
      let s := if unc then s.bump (fabFecUncorr p) else s
      .next (lanes.foldl (fun (s : State) (i : Fin 4) => s.codeword p i) s)

/-- FABRIC_CODEWORD_WINDOW_EXPIRY (R354): the 1 ms window of a lane closes. -/
def execFabricCodewordWindowExpiry (p : PortId) (lane : Fin 4) (s : State) : Res :=
  let x := s.fport p
  .next (s.setFport p { x with cw := putMap 0 x.cw lane 0 })

/-- A port goes down (R355, R356): it discards its retry buffer, raises "fabric port down" and trains again (R352). -/
def State.portDown (s : State) (p : Nat) : State :=
  let s := ((s.setPortState p 7).clearTrained p).creditsLost p
  let x := s.fport p
  let s := s.setFport p { x with bad := [], cw := [], narrowing := false }
  let s : State := { s with fabTx := s.fabTx.filter fun k => decide (k.1 ≠ p) }
  ((s.raise 0x0602 8 p []).aplicSignal 7).loseGuarantee 5 p (Plan.usesPort p)

/-- FABRIC_NARROW_COMPLETE (R355): a port with failing lanes resumes on the widest of 4, 2 and 1 of its good ones, never wider than
before, or goes down. -/
def execFabricNarrowComplete (p : PortId) (s : State) : Res :=
  let x := s.fport p
  if !(s.portUp p && x.narrowing) then .next s
  else
    let old := s.rd (fabWidth p)
    let good := (List.range 4).filter fun i => !(decide (i ∈ x.bad))
    let ls := (bestLanes good).take (if old = 3 then 4 else old)
    if ls.isEmpty then .next (s.portDown p)
    else
      let s := ((s.setFport p { x with narrowing := false, cw := [] }).setLanes p ls).condChange
      let s := (s.raise 0x0601 8 p (detailOf [(1, old), (1, s.rd (fabWidth p))])).aplicSignal 7
      .next (s.loseGuarantee 5 p (Plan.usesPort p))

/-- Is a port of a ring: a port of level 0? -/
def State.ringPort (s : State) (p : Nat) : Bool := decide (s.rd (fabLevel p) = 0)

/-- RING_ROUTE_UPDATE (R373): a ring port that has left Up is removed from every FAB.ROUTE[0] entry. -/
def execRingRouteUpdate (p : PortId) (s : State) : Res :=
  if s.ringPort p && (s.fport p).downAt.isSome && !s.portUp p then
    .next ((List.range 8).foldl (fun s v =>
      let m := s.rd (fabRoute 0 v)
      if bitAt m p then s.wr (fabRoute 0 v) (m - 2 ^ p.val) else s) s)
  else .next s

/-! Routes and fences. -/

/-- Entries of FAB.ROUTE at each level (Table 13.12). -/
def routeEntries (l : Nat) : Nat := if l = 0 ∨ l = 4 then 8 else if l = 1 then 16 else 32

/-- Does a mask set only ports of level `l` (R372)? -/
def State.routeOk (s : State) (l m : Nat) : Bool :=
  (List.range 16).all fun p => !bitAt m p || decide (s.rd (fabLevel p) = l)

/-- A write of FAB.ROUTE[L], word `i` or words i and i + 1, each of two entries. -/
def State.routeWrite (s : State) (l i : Nat) (wide : Bool) (v : BitVec 64) : State :=
  let w := if wide then v.toNat else v.toNat % 2 ^ 32
  if (List.range 4).all fun j => s.routeOk l (bitsAt w (16 * j) 16) then s.plainWrites (0x2A0000 + 0x40 * l + 4 * i) wide v
  else s.wr fabRouteRefused 1

/-- ROUTE_WRITE (R372). -/
def execRouteWrite (src : Src) (l : Fin 5) (i : Fin 16) (wide : Bool) (v : BitVec 64) (s : State) : Res :=
  let a := 0x2A0000 + 0x40 * l.val + 4 * i.val
  if s.mayWrite src a && s.domOn 22 && aligned a wide && decide (2 * i.val < routeEntries l) then
    .next (s.routeWrite l i wide v)
  else .next s

/-- Sets a port's fence (R376, R377): a change of MODE discards and counts what the port holds on VCs 0 to 5 and retrains it; a
change of JOB_ID alone takes effect at once. -/
def State.setFence (s : State) (p mode job : Nat) : State :=
  if s.rd (fenceMode p) = mode then s.wr (fenceJob p) job
  else
    let gone := s.fabTx.filter fun k => decide (k.1 = p) && decide (k.2.vc ≤ 5)
    let held := s.fabWait.filter fun q => decide (q.port = p) && decide (q.pkt.vc ≤ 5)
    let s := s.bumpBy (fenceDrops p) (gone.length + held.length)
    let s : State := { s with fabTx := s.fabTx.filter (fun k => !(decide (k.1 = p) && decide (k.2.vc ≤ 5))), fabWait := s.fabWait.filter fun q => !(decide (q.port = p) && decide (q.pkt.vc ≤ 5)) }
    ((s.wr (fenceMode p) mode).wr (fenceJob p) job).retrainPort p

/-- May the driver write this fence (R551)? -/
def State.fenceAllowed (s : State) (p mode job : Nat) : Bool :=
  if s.rd jobState = 2 then
    decide (mode = 2) ||
      (decide (mode = 1) && decide (job = s.rd jobId) && decide (devPlace (s.rd (fabPartner p)) ∈ s.job.places))
  else decide (mode = 0)

/-- A write of FAB.PORT[p].FENCE. -/
def State.fenceWrite (s : State) (p : Nat) (w : Word) : State :=
  let mode := w.toNat % 4
  let job := w.toNat / 256
  if s.fenceAllowed p mode job then s.setFence p mode job else s

/-- FENCE_WRITE (R376, R377, R551). -/
def execFenceWrite (src : Src) (p : PortId) (w : BitVec 32) (s : State) : Res :=
  if s.mayWrite src (0x290010 + 0x400 * p) && s.domOn (23 + p / 8) then .next (s.fenceWrite p w) else .next s

end Sys2Proof.Machine
end

