-- ==== Sys2Proof/Machine/Collective.lean ====
section
/-! DEFINITION. The ring collective engines (R378 to R383). -/
namespace Sys2Proof.Machine

/-! Registers of FAB.COLL[e] (Table 13.16). -/
def collBase (e : Nat) : Nat := 0x2C0000 + 0x1000 * e
def collTail (e : Nat) : Fld := ⟨collBase e, 0, 4⟩
def collHead (e : Nat) : Fld := ⟨collBase e, 8, 4⟩
def collSlot (e s : Nat) : Nat := collBase e + 0x100 + 64 * (s % 8)
def collState (e s : Nat) : Fld := ⟨collBase e + 0x400 + 16 * (s % 8), 0, 4⟩
def collSteps (e s : Nat) : Fld := ⟨collBase e + 0x400 + 16 * (s % 8), 8, 8⟩
def collId (e s : Nat) : Fld := ⟨collBase e + 0x400 + 16 * (s % 8), 16, 16⟩
def collBytes (e s : Nat) : Nat := collBase e + 0x404 + 16 * (s % 8)

/-! Fields of the descriptor (Table 13.11). -/
def cBits (d : BitVec 512) (lo w : Nat) : Nat := bitsAt d.toNat lo w
def cOp (d : BitVec 512) : Nat := cBits d 0 2
def cOpc (d : BitVec 512) : Nat := cBits d 8 8
def cNext (d : BitVec 512) : Nat := cBits d 16 4
def cPrev (d : BitVec 512) : Nat := cBits d 20 4
def cRank (d : BitVec 512) : Nat := cBits d 24 8
def cNmem (d : BitVec 512) : Nat := cBits d 32 8
def cId (d : BitVec 512) : Nat := cBits d 40 16
def cBase (d : BitVec 512) : Nat := cBits d 64 48
def cSeg (d : BitVec 512) : Nat := cBits d 128 32
def cTally (d : BitVec 512) : Nat := cBits d 160 16
/-- The reserved fields. -/
def cRsv (d : BitVec 512) : Nat := cBits d 2 6 + cBits d 56 8 + cBits d 112 16 + cBits d 192 320

/-- Slots that the engine owns: pointers from HEAD to TAIL, modulo 16. -/
def State.collOwned (s : State) (e : Nat) : List Nat :=
  (List.range ((s.rd (collTail e) + 16 - s.rd (collHead e)) % 16)).map fun i => (s.rd (collHead e) + i) % 16

/-- The domain of a collective engine (Table 16.1). -/
def State.collOn (s : State) (e : Nat) : Bool := s.domOn (28 + e) && s.domOn (25 + e)

/-- A write of FAB.COLL[e].TAIL (R37, R378): accepted where the advance fits in the eight slots. The slots handed over read idle until
the engine starts them. -/
def State.collTailWrite (s : State) (e tail : Nat) : State :=
  let old := s.rd (collTail e)
  let n := (tail + 16 - old) % 16
  let owned := (old + 16 - s.rd (collHead e)) % 16
  if n ≤ 8 - owned then
    ((List.range n).map fun i => old + i).foldl (fun s i =>
      State.setReg64 (s.setReg (collState e i).a 0#32) (collBytes e i) 0) (s.wr (collTail e) tail)
  else s

/-- COLL_TAIL_WRITE (R378). -/
def execCollTailWrite (src : Src) (e : CollId) (w : BitVec 32) (s : State) : Res :=
  if s.mayWrite src (collBase e) && s.collOn e then .next (s.collTailWrite e (w.toNat % 16)) else .next s

/-- The 64 bytes of a slot as a descriptor. -/
def State.collDesc (s : State) (e ptr : Nat) : BitVec 512 := BitVec.ofNat 512 (ofBytes (s.wordBytes (collSlot e ptr) 16))

/-- Retires the oldest slots that have ended (R378): HEAD advances past them. -/
def State.collRetire (s : State) (e : Nat) : Nat → State
  | 0 => s
  | n + 1 =>
    if s.rd (collHead e) ≠ s.rd (collTail e) ∧ 3 ≤ s.rd (collState e (s.rd (collHead e))) then
      (s.wr (collHead e) (s.rd (collHead e) + 1)).collRetire e n
    else s

/-- Ends a descriptor with a state of Table 13.16. -/
def State.collEnd (s : State) (e ptr st : Nat) : State :=
  let s : State := { s with colls := s.colls.filter fun c => !(decide (c.e = e) && decide (c.ptr = ptr)) }
  (s.wr (collState e ptr) st).collRetire e 8

/-- May a port carry a collective: Up, fence mode JOB, and not GL2 (R379)? -/
def State.collPortOk (s : State) (p : Nat) : Bool := s.portUp p && decide (s.rd (fenceMode p) = 1) && decide (s.rd (fabVer p) = 3)

/-- Is a descriptor ILLEGAL (Table 13.11, R379)? -/
def State.collIllegal (s : State) (d : BitVec 512) : Bool :=
  decide (cOp d = 0) || decide (cRsv d ≠ 0) || decide (cNmem d ≤ cRank d) || decide (cNmem d < 2) || decide (64 < cNmem d) ||
    (if cOp d = 2 then decide (cOpc d ≠ 0) else decide (cOpc d = 0) || decide (10 < cOpc d)) ||
    decide (cBase d % 128 ≠ 0) || decide (cSeg d = 0) || decide (cSeg d % 128 ≠ 0) ||
    decide (cellarSize < cBase d + cNmem d * cSeg d) || !s.collPortOk (cNext d) || !s.collPortOk (cPrev d)

/-- A packet from engine `e` to the member at the far end of a port (Tables 13.5, 13.8). -/
def State.collPacket (s : State) (e p id type vc : Nat) : Packet :=
  { dest := devPlace (s.rd (fabPartner p)) + 32 + e, src := s.place + 32 + e, vc := vc, type := type, job := s.rd jobId, hatch := 0,
    off := 0, len := 0, opc := 0, hops := 0, step := 0, tag := id, tally := 0, arr := false, status := 0, payload := [],
    crc := crc32c [], hdrOk := true, upper := false }

/-- Sends a packet of a collective by its port. Answers whether it left. -/
def State.collSend (s : State) (p : Nat) (k : Packet) : Bool × State :=
  if !s.portUp p then (false, s.bump fabUnreachable)
  else if s.fencePasses p k.vc k.job then (true, s.fabSend p k)
  else (false, s.bump (fenceDrops p))

/-- Ends a descriptor without DONE: COLL_ABORT goes to both neighbours (R381). -/
def State.collFail (s : State) (c : Coll) (st : Nat) : State :=
  let s := (s.collSend (cNext c.desc) (s.collPacket c.e (cNext c.desc) (cId c.desc) 18 0)).2
  let s := (s.collSend (cPrev c.desc) (s.collPacket c.e (cPrev c.desc) (cId c.desc) 18 0)).2
  s.collEnd c.e c.ptr st

/-- Steps of a descriptor (R383). -/
def cSteps (d : BitVec 512) : Nat := if cOp d = 3 then 2 * (cNmem d - 1) else cNmem d - 1

/-- Does step `g` of a descriptor, counted over both halves, belong to its all-gather? -/
def cGather (d : BitVec 512) (g : Nat) : Bool := decide (cOp d = 2) || (decide (cOp d = 3) && decide (cNmem d - 1 ≤ g))

/-- STEP within its half. -/
def cHalf (d : BitVec 512) (g : Nat) : Nat := if cOp d = 3 ∧ cNmem d - 1 ≤ g then g - (cNmem d - 1) else g

/-- The segments that step `g` sends and receives (R380). -/
def cSegs (d : BitVec 512) (g : Nat) : Nat × Nat :=
  let n := cNmem d
  let x := cHalf d g
  if cGather d g then ((cRank d + 1 + n - x) % n, (cRank d + n - x) % n)
  else ((cRank d + n - x) % n, (cRank d + n + n - x - 1) % n)

/-- Packets of a step. -/
def cPackets (d : BitVec 512) : Nat := (cSeg d + 4095) / 4096

/-- Sends the data of a step: the packets of its segment, each up to 4,096 bytes, read from the cellar as an uncached agent. Answers 0,
stWAIT, or the state of Table 13.16 with which the descriptor ends. -/
def State.collStepSend (s : State) (c : Coll) : Nat × State :=
  let d := c.desc
  let seg := (cSegs d c.step).1
  (List.range (cPackets d)).foldl (fun q i =>
    if q.1 ≠ 0 then q
    else
      let off := seg * cSeg d + 4096 * i
      let n := min 4096 (cSeg d - 4096 * i)
      match readLines (fun s a n => s.homeRead a n) (lineFuel n) (cBase d + off) n q.2 with
      | (.bad 255, _) => (stWAIT, s)
      | (.bad 13, s1) => (9, s1)
      | (.bad _, s1) => (7, s1)
      | (.ok bs, s1) =>
        let k := s1.collPacket c.e (cNext d) (cId d) 24 4
        let r := s1.collSend (cNext d) { k with
          off := off, len := n, opc := if cGather d c.step then 0 else cOpc d, step := cHalf d c.step, payload := bs,
          crc := crc32c bs }
        (if r.1 then 0 else 7, r.2)) (0, s)

/-- Begins the data of the current step; none where an access waits. -/
def State.collBegin (s : State) (c : Coll) : Option State :=
  let r := s.collStepSend c
  if r.1 = stWAIT then none
  else if r.1 = 0 then
    let c' := { c with sent := cPackets c.desc, acked := 0 }
    some { r.2 with colls := r.2.colls.map fun x => if x.e = c.e ∧ x.ptr = c.ptr then c' else x }
  else some (r.2.collFail c r.1)

/-- A running descriptor by engine and COLL_ID. -/
def State.collOf (s : State) (e id : Nat) : Option Coll := s.colls.find? fun c => decide (c.e = e) && decide (cId c.desc = id)

/-- READY has come from the next member: the data of the first step may go. -/
def State.collReadyNow (s : State) (c : Coll) : Option State :=
  let c' := { c with ready := true }
  let s : State := { s with colls := s.colls.map fun x => if x = c then c' else x }
  (s.wr (collState c.e c.ptr) 2).collBegin c'

/-- COLL_START (R378 to R380): the engine takes its next slot, at most four at once and each of another ring (another COLL_ID; log
entry 39). An illegal one is retired; any other sends COLL_READY to the previous member. -/
def execCollStart (e : CollId) (s : State) : Res :=
  if !s.collOn e || decide (4 ≤ (s.colls.filter fun c => decide (c.e = e.val)).length) then .next s
  else
    match (s.collOwned e).find? fun p => decide (s.rd (collState e p) = 0) && !(s.colls.any fun c => decide (c.e = e.val) && decide (c.ptr = p)) with
    | none => .next s
    | some p =>
      let d := s.collDesc e p
      if (s.collOf e (cId d)).isSome then .next s
      else
        let s0 := s
        let s := ((s.wr (collId e p) (cId d)).wr (collSteps e p) 0).setReg64 (collBytes e p) 0
        if s.collIllegal d then .next (s.collEnd e p 4)
        else
          let early := decide ((e.val, cId d) ∈ s.collEarly)
          let c : Coll := ⟨e, p, d, 0, false, 0, 0, []⟩
          let s : State := { s with colls := s.colls ++ [c], collEarly := s.collEarly.filter fun x => decide (x ≠ (e.val, cId d)) }
          let s := s.wr (collState e p) 1
          let r := s.collSend (cPrev d) (s.collPacket e (cPrev d) (cId d) 17 0)
          if !r.1 then .next (r.2.collFail c 7)
          else if early then
            match r.2.collReadyNow c with
            | some s1 => .next s1
            | none => .next s0
          else .next r.2

/-- The collective engine that a packet is addressed to. -/
def Packet.engine (k : Packet) : Nat := k.dest % 4096 - 32

/-- COLL_READY (R380): from the next member. One that comes before the descriptor starts is kept for it. -/
def execCollReady (p : PortId) (k : Packet) (s : State) : Res :=
  s.receive p k [17] fun s =>
    if !s.collOn k.engine then .next s
    else
      match s.collOf k.engine k.tag with
      | some c =>
        if c.ready then .next s
        else
          match s.collReadyNow c with
          | some s1 => .next s1
          | none => .next s
      | none =>
        if (k.engine, k.tag) ∈ s.collEarly then .next s else .next { s with collEarly := s.collEarly ++ [(k.engine, k.tag)] }

/-- COLL_ABORT (R381): the descriptor ends ABORTED_BY_PARTNER and passes the abort on once, the way it was travelling. -/
def execCollAbort (p : PortId) (k : Packet) (s : State) : Res :=
  s.receive p k [18] fun s =>
    match s.collOf k.engine k.tag with
    | none => .next { s with collEarly := s.collEarly.filter fun x => decide (x ≠ (k.engine, k.tag)) }
    | some c =>
      let out := if p.val = cPrev c.desc then cNext c.desc else cPrev c.desc
      let s := (s.collSend out (s.collPacket c.e out k.tag 18 0)).2
      .next (s.collEnd c.e c.ptr 6)

/-- Bytes of step `g` that have been accepted. -/
def Coll.gotIn (c : Coll) (g : Nat) : Nat := lookMap 0 c.got g

/-- COLL_DATA (R380, R381): data for the step in progress or the one after it is combined or written at its homes and acknowledged. A
payload that fails its CRC-32C ends the descriptor. Data for no running descriptor, or beside the segment that its step receives, is
dropped. -/
def execCollData (p : PortId) (k : Packet) (s : State) : Res :=
  s.receive p k [24] fun s =>
    if !s.collOn k.engine then .next (s.respond k 5 [])
    else
      match s.collOf k.engine k.tag with
      | none => .next s
      | some c =>
        let d := c.desc
        let g := if cOp d = 3 ∧ k.opc = 0 then k.step + (cNmem d - 1) else k.step
        let seg := (cSegs d g).2
        if (g ≠ c.step ∧ g ≠ c.step + 1) ∨ cSteps d ≤ g ∨ k.off < seg * cSeg d ∨ (seg + 1) * cSeg d < k.off + k.len then .next s
        else if !k.crcOk then .next ((s.respond k 6 []).collFail c 8)
        else
          let f := fun (s : State) (a : Nat) (bs : List Byte) =>
            if cGather d g then s.homeWrite a (bs.map fun b => (b, true)) false none else s.homeOp (cOpc d) a bs
          let r := writeLines f (lineFuel k.len) (cBase d + k.off) k.payload s
          if r.1 = stWAIT then .next s
          else if r.1 ≠ 0 then .next ((r.2.respond k 5 []).collFail c 7)
          else
            let c' := { c with got := putMap 0 c.got g (c.gotIn g + k.len) }
            let s1 : State := { r.2 with colls := r.2.colls.map fun x => if x = c then c' else x }
            .next ((s1.add64 (collBytes c.e c.ptr) k.len).respond k 0 [])

/-- COLL_ACK (R380, R381): a packet of the step has been accepted, or the descriptor ends with the status it carries. -/
def execCollAck (p : PortId) (k : Packet) (s : State) : Res :=
  s.receive p k [10] fun s =>
    match s.collOf k.engine k.tag with
    | none => .next s
    | some c =>
      if k.status = 0 then
        if k.step = cHalf c.desc c.step ∧ c.acked < c.sent then
          .next { s with colls := s.colls.map fun x => if x = c then { c with acked := c.acked + 1 } else x }
        else .next s
      else .next (s.collFail c (if k.status = 6 then 8 else if k.status = 7 then 9 else 7))

/-- COLL_STEP_COMPLETE (R380): the segment of the step is wholly received and every packet it sent acknowledged; the next step sends,
or the descriptor ends DONE and increments DONE_TALLY. -/
def execCollStepComplete (e : CollId) (ptr : Nat) (s : State) : Res :=
  match s.colls.find? fun c => decide (c.e = e.val) && decide (c.ptr = ptr) with
  | none => .next s
  | some c =>
    if !(c.ready && decide (c.sent = cPackets c.desc) && decide (c.acked = c.sent) && decide (c.gotIn c.step = cSeg c.desc)) then
      .next s
    else
      let s1 := s.wr (collSteps e ptr) (c.step + 1)
      if c.step + 1 = cSteps c.desc then .next ((s1.collEnd e ptr 3).sendInc ⟨cTally c.desc, none, 1, 0, s.place, 5 + e.val⟩)
      else
        let c' := { c with step := c.step + 1, sent := 0, acked := 0 }
        let s2 : State := { s1 with colls := s1.colls.map fun x => if x = c then c' else x }
        match s2.collBegin c' with
        | some s3 => .next s3
        | none => .next s

/-- COLL_PARTNER_TIMEOUT (R381). -/
def execCollPartnerTimeout (e : CollId) (ptr : Nat) (s : State) : Res :=
  match s.colls.find? fun c => decide (c.e = e.val) && decide (c.ptr = ptr) with
  | none => .next s
  | some c => .next (s.collFail c 5)

/-- Resets a collective engine (R451, R454): what it ran is discarded and its registers return to reset. -/
def State.collReset (s : State) (e : Nat) : State :=
  State.resetRegs { s with
    colls := s.colls.filter fun c => decide (c.e ≠ e), collEarly := s.collEarly.filter fun x => decide (x.1 ≠ e) }
    (collBase e) (collBase e + 0x1000) fun _ => false

end Sys2Proof.Machine
end

