-- ==== Sys2Proof/Machine/Ring.lean ====
section
/-! DEFINITION. Command rings, command entries, status records and COPY (R397 to R413). -/
namespace Sys2Proof.Machine

/-! Registers (Tables 14.8, 14.9). -/
def hp (p off : Nat) : Nat := 0x10000 + 0x1000 * p + off
def hpCxl (p : Nat) : Fld := ⟨hp p 0, 1, 1⟩
def hpSpeed (p : Nat) : Fld := ⟨hp p 0, 2, 3⟩
def hpWidth (p : Nat) : Fld := ⟨hp p 0, 5, 3⟩
def hpCfgReady (p : Nat) : Fld := ⟨hp p 0, 8, 1⟩
def hpDevReady (p : Nat) : Fld := ⟨hp p 0, 9, 1⟩
def hpCxlOffer (p : Nat) : Fld := ⟨hp p 4, 1, 1⟩
def hpStatusPeriod (p : Nat) : Fld := ⟨hp p 4, 8, 8⟩
def hpOor (p : Nat) : Fld := ⟨hp p 0x10, 0, 32⟩
def hpDbDropped (p : Nat) : Fld := ⟨hp p 0x14, 0, 32⟩
def hpDbStale (p : Nat) : Fld := ⟨hp p 0x18, 0, 32⟩
def hpDbRefused (p : Nat) : Fld := ⟨hp p 0x1C, 0, 32⟩
def hpStaleCmds (p : Nat) : Fld := ⟨hp p 0x20, 0, 32⟩
def hpPathLosses (p : Nat) : Fld := ⟨hp p 0x24, 0, 32⟩
def hpIdeFails (p : Nat) : Fld := ⟨hp p 0x28, 0, 32⟩
def hpNonIde (p : Nat) : Fld := ⟨hp p 0x2C, 0, 32⟩
def hpAborts (p : Nat) : Fld := ⟨hp p 0x30, 0, 32⟩
/-- A register of ring 16p + r. -/
def ringReg (k off : Nat) : Nat := 0x20000 + 0x10000 * (k / 16) + 0x1000 * (k % 16) + off
def ringEnable (k : Nat) : Fld := ⟨ringReg k 0, 0, 1⟩
def ringLoc (k : Nat) : Fld := ⟨ringReg k 0, 1, 1⟩
def ringLog2 (k : Nat) : Fld := ⟨ringReg k 0, 2, 4⟩
def ringRefused (k : Nat) : Fld := ⟨ringReg k 0, 7, 1⟩
def ringOvf (k : Nat) : Fld := ⟨ringReg k 0, 8, 1⟩
def ringState (k : Nat) : Fld := ⟨ringReg k 0, 12, 4⟩
def ringEpoch (k : Nat) : Fld := ⟨ringReg k 0, 16, 16⟩
def ringSeqBase (k : Nat) : Fld := ⟨ringReg k 0x10, 0, 32⟩
def ringHead (k : Nat) : Fld := ⟨ringReg k 0x18, 0, 13⟩
def ringTail (k : Nat) : Fld := ⟨ringReg k 0x18, 16, 13⟩
def ringStaleSeq (k : Nat) : Fld := ⟨ringReg k 0x20, 0, 32⟩
def ringLostFirst (k : Nat) : Fld := ⟨ringReg k 0x28, 0, 32⟩
def ringLostCount (k : Nat) : Fld := ⟨ringReg k 0x2C, 0, 16⟩
/-- STAT.DRV.LOST (Table 15.7). -/
def drvLost : Fld := ⟨0x49400, 1, 1⟩

/-- Entries of a ring. -/
def State.ringSize (s : State) (k : Nat) : Nat := 2 ^ s.rd (ringLog2 k)

/-- COUNT of a ring. -/
def State.ringCount (s : State) (k : Nat) : Nat :=
  (s.rd (ringTail k) + 2 * s.ringSize k - s.rd (ringHead k)) % (2 * s.ringSize k)

/-- The record of a ring. -/
def State.ring (s : State) (k : Nat) : RingSt := lookMap ⟨0, 0⟩ s.rings k

/-- Sets the record of a ring. -/
def State.setRing (s : State) (k : Nat) (x : RingSt) : State := { s with rings := putMap ⟨0, 0⟩ s.rings k x }

/-- Is the I/O die logic of a port on, with the clocks of the fast domains running (R448)? -/
def State.portLogic (s : State) (p : Nat) : Bool := s.domOn (25 + p)

/-- Is DEV_READY asserted? -/
def State.devReady (s : State) : Bool := s.pins.devReady

/-! CTL (R401, R404, R405). -/

/-- May a ring be enabled as its registers stand: BASE aligned, LOG2_SIZE 4 to 12, and a cellar ring wholly in the cellar? -/
def State.ringOk (s : State) (k : Nat) : Bool :=
  let b := s.reg64 (ringReg k 8)
  let l := s.rd (ringLog2 k)
  decide (b % 4096 = 0) && decide (4 ≤ l) && decide (l ≤ 12) &&
    (decide (s.rd (ringLoc k) = 0) || decide (b + 64 * 2 ^ l ≤ cellarSize))

/-- A write of CTL: its W1C bits, LOC and LOG2_SIZE while ENABLE is 0, then ENABLE, then RETRY (R594). -/
def State.ringCtl (s : State) (k : Nat) (w : Word) : State :=
  let s := if w.getLsbD 7 then s.wr (ringRefused k) 0 else s
  let s := if w.getLsbD 8 then s.wr (ringOvf k) 0 else s
  let en := s.on (ringEnable k)
  let s := if en then s
    else (s.wr (ringLoc k) (bitsAt w.toNat 1 1)).wr (ringLog2 k) (bitsAt w.toNat 2 4)
  let s := if w.getLsbD 0 then
      if en || decide (s.rd (ringState k) ≠ 0) || !s.ringOk k then s.wr (ringRefused k) 1
      else
        let s := ((s.wr (ringEnable k) 1).wr (ringHead k) 0).wr (ringTail k) 0
        ((s.wr (ringEpoch k) (s.rd (ringEpoch k) + 1)).wr (ringState k) 1).setRing k ⟨0, 0⟩
    else if en || decide (s.rd (ringState k) = 5) then
      let live := s.cmds.any fun c => decide (c.ring = k)
      (((s.wr (ringEnable k) 0).wr (ringState k) (if live then 2 else 0))).setRing k ⟨0, 0⟩
    else s
  if w.getLsbD 6 && (decide (s.rd (ringState k) = 3) || decide (s.rd (ringState k) = 4)) then
    (s.wr (ringState k) 1).setRing k { s.ring k with tries := 0 }
  else s

/-- A write of a ring register at offset `off` (Table 14.9): BASE and SEQ_BASE only while ENABLE is 0. -/
def State.ringWrite (s : State) (k off : Nat) (w : Word) : State :=
  if off = 0 then s.ringCtl k w
  else if s.on (ringEnable k) then s
  else s.plainWrite (ringReg k off) w

/-- The key of a ring. -/
def ringKey (p : HostPortId) (r : RingId) : Nat := 16 * p.val + r.val

/-- RING_ENABLE (R405): a write of CTL with ENABLE = 1. -/
def execRingEnable (src : Src) (p : HostPortId) (r : RingId) (w : BitVec 32) (s : State) : Res :=
  if s.mayWrite src (ringReg (ringKey p r) 0) && s.portLogic p then .next (s.ringCtl (ringKey p r) (w ||| 1#32)) else .next s

/-- RING_DISABLE (R404): a write of CTL with ENABLE = 0. -/
def execRingDisable (src : Src) (p : HostPortId) (r : RingId) (w : BitVec 32) (s : State) : Res :=
  if s.mayWrite src (ringReg (ringKey p r) 0) && s.portLogic p then .next (s.ringCtl (ringKey p r) (w &&& 0xFFFFFFFE#32))
  else .next s

/-- RING_RETRY (R401): a write of CTL with RETRY = 1. -/
def execRingRetry (src : Src) (p : HostPortId) (r : RingId) (w : BitVec 32) (s : State) : Res :=
  if s.mayWrite src (ringReg (ringKey p r) 0) && s.portLogic p then .next (s.ringCtl (ringKey p r) (w ||| 0x40#32)) else .next s

/-! Status records (R410 to R413, R417). -/

/-- A field of a command entry: `n` bytes from byte `off`. -/
def Cmd.fld (c : Cmd) (off n : Nat) : Nat := ofBytes ((c.entry.drop off).take n)
def Cmd.seq (c : Cmd) : Nat := c.fld 0 4
def Cmd.opcode (c : Cmd) : Nat := c.fld 4 1
def Cmd.statusAddr (c : Cmd) : Nat := c.fld 16 8
/-- The port of the command's ring. -/
def Cmd.port (c : Cmd) : Nat := c.ring / 16

/-- Is STATUS_ADDR invalid (R412)? -/
def Cmd.badStatusAddr (c : Cmd) : Bool :=
  decide (bitsAt c.statusAddr 1 5 ≠ 0) || (bitAt c.statusAddr 0 && decide (cellarSize < c.statusAddr / 64 * 64 + 64))

/-- The 64 bytes of a status record (Table 14.6). The DETAIL of BIST and TEARDOWN runs on into bytes 52 to 55, over the low half of
PLT (log entry 41). -/
def Cmd.record (c : Cmd) (st err plt : Nat) : List Byte :=
  let b := toBytes 4 c.seq ++ toBytes 1 st ++ toBytes 1 (c.ring % 16 + 16 * c.port) ++ toBytes 2 err ++ toBytes 4 c.gen ++
    toBytes 1 c.opcode ++ toBytes 3 0 ++ toBytes 8 c.progress ++ toBytes 8 c.total ++ toBytes 8 c.valid ++
    overlay (List.replicate 12 0#8 ++ toBytes 8 plt) 0 (c.detail.take 16)
  b ++ toBytes 4 (crc32c b).toNat

/-- Writes bytes within a cellar line as the device's own posted write: at once, or on its way to the home while the home keeps it
waiting. -/
def State.postCellar (s : State) (a : Nat) (bs : List Byte) : State :=
  let r := s.homeWrite a (bs.map fun b => (b, true)) false none
  if r.1 = stWAIT then { s with homeQ := s.homeQ ++ [⟨a, bs, none⟩] } else r.2

/-- Writes bytes to host memory of port `p` at a host bus address. -/
def State.hostPut (s : State) (p a : Nat) (bs : List Byte) : State :=
  if p = 0 then { s with hostA := writeBytes s.hostA a bs } else { s with hostB := writeBytes s.hostB a bs }

/-- Writes a command's record with a state and an error: to the shadow, and to STATUS_ADDR where it may go (R411, R412, R417). -/
def State.putRecord (s : State) (c : Cmd) (st err : Nat) : Cmd × State :=
  let c := { c with gen := c.gen + 1, st := st }
  let bs := c.record st err s.plt
  let s := s.setWords (ringReg c.ring (0x400 + 64 * (c.seq % 16))) bs
  let a := c.statusAddr / 64 * 64
  (c, if c.badStatusAddr then s
      else if bitAt c.statusAddr 0 then s.postCellar a bs
      else if c.noHost || !s.hostReach c.port a 64 then s
      else s.hostPut c.port a bs)

/-- Replaces a command by its ring and SEQ, which no two waiting commands share. -/
def State.setCmd (s : State) (c : Cmd) : State :=
  { s with cmds := s.cmds.map fun x => if x.ring = c.ring ∧ x.seq = c.seq then c else x }

/-- Writes a record of a command that goes on. -/
def State.noteCmd (s : State) (c : Cmd) (st : Nat) : State :=
  let r := s.putRecord c st 0
  r.2.setCmd r.1

/-- Ends a command with its final record: 3 DONE, 4 FAILED, 5 REFUSED, 6 INTERRUPTED. The last one of a ring that stops returns it
to IDLE (R404). -/
def State.endCmd (s : State) (c : Cmd) (st err : Nat) : State :=
  let s := (s.putRecord c st err).2
  let s : State := { s with cmds := s.cmds.filter fun x => !(decide (x.ring = c.ring) && decide (x.seq = c.seq)) }
  if s.rd (ringState c.ring) = 2 ∧ !(s.cmds.any fun x => decide (x.ring = c.ring)) then s.wr (ringState c.ring) 0 else s

/-! Fetch and acceptance (R399 to R403, R406, R412). -/

/-- Table 14.5: the opcode exists. -/
def opKnown (o : Nat) : Bool := decide (o ∈ [0x00, 0x01, 0x10, 0x11, 0x20, 0x21, 0x22, 0x30, 0x31, 0x40, 0x50, 0x51])

/-- Table 14.5: the opcode needs JOB_CTL, and the resident driver (R436). -/
def opJobCtl (o : Nat) : Bool := decide (o ∈ [0x10, 0x11, 0x20, 0x21, 0x22, 0x30, 0x31, 0x50])

/-- The reserved operand bits of an opcode, as (byte, bits from, bits) in the entry. -/
def opReserved (o : Nat) : List (Nat × Nat × Nat) :=
  if o = 0x00 then [(24, 0, 320)]
  else if o = 0x01 then [(48, 0, 128)]
  else if o = 0x10 then [(36, 0, 224)]
  else if o = 0x11 then [(32, 0, 256)]
  else if o = 0x20 then [(44, 0, 160)]
  else if o = 0x21 then [(30, 0, 16), (49, 0, 120)]
  else if o = 0x22 then [(24, 0, 320)]
  else if o = 0x30 then [(26, 0, 304)]
  else if o = 0x31 then [(26, 3, 5), (27, 0, 8), (34, 0, 240)]
  else if o = 0x40 then [(36, 0, 224)]
  else if o = 0x50 then [(25, 0, 8), (28, 0, 288)]
  else if o = 0x51 then [(25, 0, 24), (36, 0, 32), (48, 0, 128)]
  else []

/-- Is a reserved field of the entry not 0 (R406)? STATUS_ADDR's reserved bits are R412's. -/
def Cmd.reservedSet (c : Cmd) : Bool :=
  decide (c.fld 6 1 / 2 ≠ 0) || decide (c.fld 7 1 ≠ 0) || decide (c.fld 10 4 ≠ 0) ||
    (opReserved c.opcode).any fun q => decide (bitsAt (c.fld q.1 40) q.2.1 q.2.2 ≠ 0)

/-- The error with which acceptance refuses a command, 0 for none (R406, R412). -/
def State.acceptError (s : State) (c : Cmd) : Nat :=
  if !opKnown c.opcode then 0x0001
  else if c.fld 5 1 ≠ 2 then 0x0002
  else if c.reservedSet then 0x0003
  else if opJobCtl c.opcode && !s.on (hpJobCtl c.port) then 0x0005
  else if c.badStatusAddr then 0x000A
  else 0

/-- Accepts a fetched command: HEAD advances, the ACCEPTED record is written, and a refused command ends (R402, R406, R411). -/
def State.acceptCmd (s : State) (k : Nat) (bs : List Byte) : State :=
  let s := s.wr (ringHead k) ((s.rd (ringHead k) + 1) % (2 * s.ringSize k))
  let s := s.setRing k ⟨(s.ring k).n + 1, 0⟩
  let c : Cmd := ⟨k, bs, 0, 0, 0, 0, 0, [], s.plt, false, none⟩
  let r := ({ s with cmds := s.cmds ++ [c] } : State).putRecord c 1 0
  let s := r.2.setCmd r.1
  let e := s.acceptError r.1
  if e ≠ 0 then s.endCmd r.1 5 e
  else if opJobCtl c.opcode then s.aplicSignal 8 else s

/-- The address of the entry at a ring's head. -/
def State.entryAddr (s : State) (k : Nat) : Nat := s.reg64 (ringReg k 8) + 64 * (s.rd (ringHead k) % s.ringSize k)

/-- Reads the entry at a ring's head: none where the home keeps the read waiting, else whether it met poison, and the bytes. -/
def State.fetchEntry (s : State) (k : Nat) (placed : List Byte) : Option (Bool × List Byte × State) :=
  let a := s.entryAddr k
  if s.on (ringLoc k) then
    match s.homeRead a 64 with
    | (.ok bs, s1) => some (false, bs, s1)
    | (.bad st, s1) => if st = stWAIT then none else some (decide (st = 13), List.replicate 64 0#8, s1)
  else
    let s := if placed.length = 64 then s.hostPut (k / 16) a placed else s
    some (false, readBytes (if k / 16 = 0 then s.hostA else s.hostB) a 64, s)

/-- DETAIL of a stale or poisoned fetch (Table 21.13). -/
def State.fetchDetail (s : State) (k seq : Nat) : List Byte :=
  detailOf [(1, k % 16), (2, s.rd (ringHead k) % s.ringSize k), (4, seq), (4, (s.rd (ringSeqBase k) + (s.ring k).n) % 2 ^ 32)]

/-- Does an entry pass SEQ, HCRC and OCRC (R399, R610)? -/
def State.entryPasses (s : State) (k : Nat) (bs : List Byte) : Bool :=
  decide (ofBytes (bs.take 4) = (s.rd (ringSeqBase k) + (s.ring k).n) % 2 ^ 32) &&
    decide (ofBytes ((bs.drop 14).take 2) = (crc16 (bs.take 14)).toNat) &&
    decide (ofBytes ((bs.drop 8).take 2) = (crc16 (bs.drop 16)).toNat)

/-- What a completed fetch does: accept, fetch again, or stop the ring (R400, R401). -/
def State.fetched (s : State) (k : Nat) (poison : Bool) (bs : List Byte) : State :=
  let x := s.ring k
  let seq := ofBytes (bs.take 4)
  if poison then
    -- the SEQ that a poisoned entry reads as is a free value: no rule gives the data of a poisoned read to a ring (log entry 53)
    let d := s.draw
    (((d.2.wr (ringState k) 4).wr (ringStaleSeq k) (d.1 % 2 ^ 32)).setRing k { x with tries := 0 }).raise 0x0701 9 (k / 16)
      (s.fetchDetail k (d.1 % 2 ^ 32))
  else if s.entryPasses k bs then s.acceptCmd k bs
  else if x.tries < 8 then s.setRing k { x with tries := x.tries + 1 }
  else
    ((((s.wr (ringState k) 3).wr (ringStaleSeq k) seq).bump (hpStaleCmds (k / 16))).setRing k { x with tries := 0 }).raise
      0x0700 9 (k / 16) (s.fetchDetail k seq)

/-- May a ring fetch: running, entries waiting, DEV_READY asserted, and its memory reachable (R418)? -/
def State.mayFetch (s : State) (k : Nat) : Bool :=
  s.devReady && s.portLogic (k / 16) && decide (s.rd (ringState k) = 1) && decide (s.ringCount k ≠ 0) &&
    (s.on (ringLoc k) || s.hostReach (k / 16) (s.entryAddr k) 64)

/-- One fetch of the entry at a ring's head. `placed` holds the 64 bytes that a host ring's memory has there, where the host has written
it since (log entry 24). -/
def State.fetch (s : State) (k : Nat) (placed : List Byte) : Res :=
  match s.fetchEntry k placed with
  | none => .next s
  | some (poison, bs, s1) => .next (s1.fetched k poison bs)

/-- COMMAND_FETCH (R399). -/
def execCommandFetch (p : HostPortId) (r : RingId) (placed : List Byte) (s : State) : Res :=
  let k := ringKey p r
  if s.mayFetch k && decide ((s.ring k).tries = 0) then s.fetch k placed else .next s

/-- COMMAND_REFETCH (R400): the timer of the next refetch expires. -/
def execCommandRefetch (p : HostPortId) (r : RingId) (placed : List Byte) (s : State) : Res :=
  let k := ringKey p r
  if s.mayFetch k && decide ((s.ring k).tries ≠ 0) then s.fetch k placed else .next s

/-! Starting commands (R403, R437). -/

/-- May the `n`th waiting command start: accepted, every earlier one of its ring started, and, with AFTER_PREV, the previous one of its
ring ended? -/
def State.cmdStartable (s : State) (n : Nat) : Bool :=
  match s.cmds[n]? with
  | none => false
  | some c =>
    decide (c.st = 1) && ((s.cmds.take n).all fun x => decide (x.ring ≠ c.ring) || decide (x.st ≠ 1)) &&
      (!bitAt (c.fld 6 1) 0 || !(s.cmds.any fun x => decide (x.ring = c.ring) && decide ((x.seq + 1) % 2 ^ 32 = c.seq)))

/-- Must the `n`th command, a COPY of a port, wait: four of the port run, or an earlier one of it may start (R408)? -/
def State.copyWaits (s : State) (n p : Nat) : Bool :=
  let mine := fun (x : Cmd) => decide (x.port = p) && decide (x.opcode = 0x01)
  decide (4 ≤ (s.cmds.filter fun x => mine x && decide (x.st = 2)).length) ||
    (List.range n).any fun i => s.cmdStartable i && ((s.cmds[i]?).map mine).getD false

/-- May the `n`th command start as soon as its ring's turn comes: startable, and neither a COPY that waits (R408) nor a TEARDOWN during an
admission (R547)? -/
def State.cmdReady (s : State) (n : Nat) : Bool :=
  match s.cmds[n]? with
  | none => false
  | some c => s.cmdStartable n && !(decide (c.opcode = 0x01) && s.copyWaits n c.port) && !(decide (c.opcode = 0x11) && decide (s.rd jobState = 1) && !s.on drvLost)

/-- How far ring `k` stands behind the ring whose turn it is. -/
def State.turnsTo (s : State) (k : Nat) : Nat := (k + 32 - s.ringTurn) % 32

/-- Is it the turn of ring `k`: no ring before it in the rotation has a command that may start (R403)? -/
def State.ringsTurn (s : State) (k : Nat) : Bool :=
  (List.range s.cmds.length).all fun i => !s.cmdReady i || ((s.cmds[i]?).map fun x => decide (s.turnsTo k ≤ s.turnsTo x.ring)).getD true

/-- Starts the `n`th waiting command where it has opcode `op`, may start and its ring's turn has come, and passes the turn on (R403); a
command that needs the resident driver is refused once the driver is lost (R437). -/
def State.startCmd (s : State) (n op : Nat) (f : Cmd → State → Res) : Res :=
  match s.cmds[n]? with
  | none => .next s
  | some c =>
    if !(s.cmdReady n && s.ringsTurn c.ring && decide (c.opcode = op)) then .next s
    else
    let s : State := { s with ringTurn := (c.ring + 1) % 32 }
    if (opJobCtl op || decide (op = 0x40)) && s.on drvLost then .next (s.endCmd c 5 0x0100)
    else f c s

/-- NOP (R406). -/
def execNop (n : Nat) (s : State) : Res := s.startCmd n 0x00 fun c s => .next (s.endCmd c 3 0)

/-! COPY (R407 to R409). -/

/-- The space that a range lies in: 0 cellar, 1 and 2 the host apertures. -/
def copySpace (a n : Nat) : Option Nat :=
  let sp := fun x => match placeOf x with
    | some (.cellar _) => some 0
    | some (.hostAp q _) => some (1 + q)
    | _ => none
  if sp a = sp (a + max n 1 - 1) then sp a else none

/-- Does a command still have data to move to or from space `x` (R416, Table 20.4)? A COPY reads its source and writes its destination; a
DRIVER_MSG reads its message until it is queued, a STOCKTAKE reads its image
and writes its slack table in the cellar, and a STRONGROOM_READ writes its blocks. -/
def Cmd.moves (c : Cmd) (x : Nat) : Bool :=
  let meets := fun (a n : Nat) => decide (copySpace a n = some x)
  (decide (c.opcode = 0x01) && (meets (c.fld 24 8) (c.fld 40 8) || meets (c.fld 32 8) (c.fld 40 8))) ||
    (decide (c.opcode = 0x40) && decide (c.st = 1) && meets (c.fld 24 8) (c.fld 32 4)) ||
    (decide (c.opcode = 0x20) && decide (x = 0)) ||
    (decide (c.opcode = 0x51) && meets (c.fld 40 8) (64 * c.fld 32 4))

/-- Does a command touch the aperture of port `p`? -/
def Cmd.touches (c : Cmd) (p : Nat) : Bool := c.moves (1 + p)

/-- Does a command touch the cellar? -/
def Cmd.touchesCellar (c : Cmd) : Bool := c.moves 0

/-- The operands satisfy R407. -/
def Cmd.copyOk (c : Cmd) : Bool :=
  let a := c.fld 24 8
  let b := c.fld 32 8
  let n := c.fld 40 8
  (copySpace a n).isSome && (copySpace b n).isSome && decide (n < 2 ^ 40) &&
    (decide (n = 0) || decide (a + n ≤ b) || decide (b + n ≤ a))

/-- COPY (R407, R408, R554): starts, at most four of a port at once, later ones in order. -/
def execCopy (n : Nat) (s : State) : Res :=
  s.startCmd n 0x01 fun c s =>
    if s.rd jobState = 3 then .next (s.endCmd c 5 0x0413)
    else if !c.copyOk then .next (s.endCmd c 5 0x0004)
    else if c.fld 40 8 = 0 then .next (s.endCmd c 3 0)
    else .next (s.noteCmd { c with total := c.fld 40 8 } 2)

/-- Reads bytes of a COPY's source. -/
def State.copyRead (s : State) (a n : Nat) : Access × State :=
  match placeOf a with
  | some (.cellar a) => readLines (fun s a n => s.homeRead a n) (lineFuel n) a n s
  | some (.hostAp q x) => (s.hostRead q x n, s)
  | _ => (.bad stABSENT, s)

/-- Writes bytes of a COPY's destination. -/
def State.copyWrite (s : State) (a : Nat) (bs : List Byte) : Nat × State :=
  match placeOf a with
  | some (.cellar a) =>
    writeLines (fun s a bs => s.homeWrite a (bs.map fun b => (b, true)) false none) (lineFuel bs.length) a bs s
  | some (.hostAp q x) => s.hostWrite q x bs
  | _ => (stABSENT, s)

/-- What a chunk that failed its check leaves at its destination: each byte old or as it arrived, freely (log entry 14). -/
def State.copyFree (s : State) (a n : Nat) : State :=
  let pick := s.draw
  let val := pick.2.draw
  let bytes := toBytes n val.1
  ((List.range n).filter fun i => bitAt pick.1 i).foldl (fun s i => (s.copyWrite (a + i) [bytes.getD i 0#8]).2) val.2

/-- COPY_CHUNK_COMPLETE (R408, R409): the next chunk of a running COPY is checked at its destination; `crcOk` says whether its CRC-32C
checks. -/
def execCopyChunkComplete (n : Nat) (crcOk : Bool) (s : State) : Res :=
  match s.cmds[n]? with
  | none => .next s
  | some c =>
    if !(decide (c.opcode = 0x01) && decide (c.st = 2)) then .next s
    else
      let m := min 4096 (c.total - c.progress)
      match s.copyRead (c.fld 24 8 + c.progress) m with
      | (.bad st, s1) =>
        if st = stWAIT then .next s else .next (s1.endCmd c 4 (if st = 13 then 0x0008 else 0x0009))
      | (.ok bs, s1) =>
        let dst := c.fld 32 8 + c.progress
        if !crcOk then .next ((s1.copyFree dst m).endCmd c 4 0x0007)
        else
          let r := s1.copyWrite dst bs
          if r.1 = stWAIT then .next s
          else if r.1 ≠ 0 then .next (r.2.endCmd c 4 0x0009)
          else
            let c := { c with progress := c.progress + m, valid := c.valid + m }
            if c.progress = c.total then .next (r.2.endCmd c 3 0) else .next (r.2.setCmd c)

/-- STATUS_PERIOD (R411): the record of the `n`th command, while it runs, is written again, once STATUS_PERIOD in µs has passed. -/
def execStatusPeriod (n : Nat) (s : State) : Res :=
  match s.cmds[n]? with
  | none => .next s
  | some c =>
    if c.st = 2 ∧ c.plt + 25 * s.rd (hpStatusPeriod c.port) ≤ s.plt then .next (s.noteCmd { c with plt := s.plt } 2) else .next s

/-! The resident driver's messages (R437, R438). -/

/-- The command of a ring with a SEQ. -/
def State.cmdOf (s : State) (k : Nat × Nat) : Option Cmd := s.cmds.find? fun c => decide (c.ring = k.1) && decide (c.seq = k.2)

/-- The driver takes its oldest message; a command that brought it ends DONE with the reply in DETAIL. -/
def State.drvTake (s : State) (reply : List Byte) : State :=
  match s.drvMsgs with
  | [] => s
  | m :: ms =>
    let s := s.setDrvMsgs ms
    match m.cmd.bind s.cmdOf with
    | none => s
    | some c => s.endCmd { c with detail := reply.take 12 } 3 0

/-- DRIVER_MSG (R438): the `n`th command queues its message for the resident driver, or is refused; with a reply, the resident driver
takes its oldest message and answers it. -/
def execDriverMsg (n : Nat) (reply : Option (List Byte)) (s : State) : Res :=
  match reply with
  | some r => if s.on drvLost then .next s else .next (s.drvTake r)
  | none =>
    s.startCmd n 0x40 fun c s =>
      let a := c.fld 24 8
      let len := c.fld 32 4
      if 64 ≤ s.drvMsgs.length then .next (s.endCmd c 5 0x0101)
      else if len = 0 ∨ 4096 < len then .next (s.endCmd c 5 0x0102)
      else if copySpace a len ≠ some 0 ∧ copySpace a len ≠ some (1 + c.port) then .next (s.endCmd c 5 0x0004)
      else
        match s.copyRead a len with
        | (.bad st, s1) => if st = stWAIT then .next s else .next (s1.endCmd c 4 (if st = 13 then 0x0008 else 0x0009))
        | (.ok bs, s1) => .next ((((s1.setDrvMsgs (s1.drvMsgs ++ [⟨some (c.ring, c.seq), bs⟩])).noteCmd c 2)).aplicSignal 3)

/-- DRIVER_MSG_TIMEOUT (R438): the driver has not taken the `n`th command's message within 10 ms. -/
def execDriverMsgTimeout (n : Nat) (s : State) : Res :=
  match s.cmds[n]? with
  | none => .next s
  | some c =>
    if decide (c.opcode = 0x40) && decide (c.st = 2) then
      .next ((s.setDrvMsgs (s.drvMsgs.filter fun m => decide (m.cmd ≠ some (c.ring, c.seq)))).endCmd c 4 0x0103)
    else .next s

/-- STAT.DRV.HEARTBEAT_MS. -/
def drvPeriod : Fld := ⟨0x49400, 8, 8⟩

/-- A write of STAT.DRV (Table 15.7): HEARTBEAT_MS below 10 is ignored; HEARTBEAT = 1 restarts the period. -/
def State.drvWrite (s : State) (w : Word) : State :=
  let s := if bitsAt w.toNat 8 8 < 10 then s else s.wr drvPeriod (bitsAt w.toNat 8 8)
  if w.getLsbD 0 then { s with heartbeat := some s.plt } else s

/-- DRIVER_HEARTBEAT (R437). -/
def execDriverHeartbeat (src : Src) (w : BitVec 32) (s : State) : Res :=
  if s.mayWrite src 0x49400 && s.domOn 22 then .next (s.drvWrite (w ||| 1#32)) else .next s

/-- HEARTBEAT_TIMEOUT (R437): HEARTBEAT_MS has passed since the driver's last heartbeat. -/
def execHeartbeatTimeout (s : State) : Res :=
  match s.heartbeat with
  | none => .next s
  | some t => if s.on drvLost || decide (s.plt < t + 25000 * s.rd drvPeriod) then .next s else .next ((s.wr drvLost 1).raise 0x080A 0 0 [])

/-! BAR accesses under link security (R420). -/

/-- Is IDE stream `i` of port `p` Secure? -/
def State.ideSecure (s : State) (p i : Nat) : Bool := bitAt (s.rd (hpIdeSecure p)) i

/-- Sets whether IDE stream `i` of port `p` is Secure. -/
def State.setIde (s : State) (p i : Nat) (b : Bool) : State := s.wr (hpIdeSecure p) (setBits (s.rd (hpIdeSecure p)) i 1 (b2n b))

/-- May a BAR access that arrived as `ide` says go on, and the state after the check: a TLP that fails its integrity check is dropped and
leaves its stream insecure; one outside a Secure stream is turned away where the port requires IDE. -/
def State.barGate (s : State) (p : Nat) (ide : Ide) : Bool × State :=
  match ide with
  | .corrupt i => (false, ((s.bump (hpIdeFails p)).setIde p i false).raise 0x0703 9 p [])
  | .secure i =>
    if s.on (hpIdeRequired p) && !s.ideSecure p i then (false, s.bump (hpNonIde p)) else (true, s)
  | .clear => if s.on (hpIdeRequired p) then (false, s.bump (hpNonIde p)) else (true, s)

/-- Does port `p` take memory requests: its link up, memory space enabled and the function in D0 (R392)? -/
def State.memSpace (s : State) (p : Nat) : Bool :=
  s.on (hpLinkUp p) && (s.hport p).mse && decide ((s.hport p).dstate = 0) && s.portLogic p

/-! Doorbells (R397, R398). -/

/-- DOORBELL (R397, R398, R420): a write of `size` bytes to BAR4 offset `off`. -/
def execDoorbell (p : HostPortId) (off size : Nat) (v : BitVec 64) (ide : Ide) (s : State) : Res :=
  let n := v.toNat
  let k := 16 * p.val + bitsAt n 0 4
  if !s.memSpace p then .next s
  else if !(s.barGate p ide).1 then .next (s.barGate p ide).2
  else if off ≠ 0 ∨ size ≠ 8 then .next s
  else if bitsAt n 4 4 ≠ 0 || bitsAt n 21 11 ≠ 0 || bitsAt n 48 16 ≠ 0 || !s.on (ringEnable k) || !s.devReady then
    .next (s.bump (hpDbDropped p))
  else if bitsAt n 32 16 ≠ s.rd (ringEpoch k) then .next (s.bump (hpDbStale p))
  else
    let z := 2 * s.ringSize k
    let t := bitsAt n 8 13 % z
    if s.ringSize k - s.ringCount k < (t + z - s.rd (ringTail k)) % z then .next ((s.bump (hpDbRefused p)).wr (ringOvf k) 1)
    else .next (s.wr (ringTail k) t)

end Sys2Proof.Machine
end

