-- ==== Sys2Proof/Machine/HostPort.lean ====
section
/-! DEFINITION. Host ports: links, resets and path loss, configuration space, the DOE mailbox, CXL snoops and the BAR2 window (R325,
R386 to R396, R414 to R420). -/
namespace Sys2Proof.Machine

/-- PWR.CLK.PCIE_REF_OK of a port (Table 16.11). -/
def pcieRefOk (p : Nat) : Fld := ⟨0x1C0200, 2 + p, 1⟩

/-- Sets DEV_READY and the bits that show it on both ports. -/
def State.setDevReady (s : State) (b : Bool) : State :=
  (State.wr { s with pins := { s.pins with devReady := b } } (hpDevReady 0) (b2n b)).wr (hpDevReady 1) (b2n b)

/-! Loss of a host path (R391, R416, R417). -/

/-- Chunks in flight to the aperture of port `p` end with UNIT_ABSENT (R416). -/
def State.loseChunks (s : State) (p : Nat) : State :=
  { s with tiles := s.tiles.foldl (fun m q =>
      let lose := fun (c : Chunk) => match c.dst with
        | .hostAp x _ => if x = p ∧ c.fail.isNone then { c with fail := some stABSENT } else c
        | _ => c
      let run := q.2.eng2.run.map fun (r : Run) => { r with flight := r.flight.map lose }
      putMap Tile.fresh m q.1 { q.2 with eng2 := { q.2.eng2 with run := run } }) [] }

/-- Ends every COPY that touches the aperture of port `p`, with STATE 6 and error 0x0006, and notes the first SEQ and the number of each
ring (R416, R417). -/
def State.loseCopies (s : State) (p : Nat) : State :=
  (s.cmds.filter fun c => c.touches p).foldl (fun s c =>
    let n := s.rd (ringLostCount c.ring)
    let s := if n = 0 then s.wr (ringLostFirst c.ring) c.seq else s
    (s.bump (ringLostCount c.ring)).endCmd c 6 0x0006) s

/-- The loss of host path `p`: its link and configuration space reset, and R416 and R417 (R391). -/
def State.losePath (s : State) (p : Nat) : State :=
  let h := s.hport p
  let s := s.setHport p { HPort.fresh with perst := h.perst }
  let s := ((((((s.wr (hpLinkUp p) 0).wr (hpCxl p) 0).wr (hpSpeed p) 0).wr (hpWidth p) 0).wr (hpCfgReady p) 0).wr (hpBme p) 0).wr
    (hpIdeSecure p) 0
  let s := s.loseChunks p
  let s : State := { s with cmds := s.cmds.map fun c => if c.port = p then { c with noHost := true } else c }
  let s := (s.raise 0x0702 9 p []).bump (hpPathLosses p)
  let hit := (s.cmds.filter fun c => c.touches p).map Cmd.ring
  let s := ((List.range 32).filter fun k => decide (k / 16 = p) || decide (k ∈ hit)).foldl
    (fun s k => (s.wr (ringLostFirst k) 0).wr (ringLostCount k) 0) s
  let s := s.loseCopies p
  (List.range 16).foldl (fun s r => (s.wr (ringState (16 * p + r)) 5).setRing (16 * p + r) ⟨(s.ring (16 * p + r)).n, 0⟩) s

/-- PERST_ASSERT (R391, R416). -/
def execPerstAssert (p : HostPortId) (s : State) : Res :=
  if (s.hport p).perst then .next s
  else
    let h := s.hport p
    .next ((s.setHport p { h with perst := true }).losePath p)

/-- PERST_RELEASE (R389): the port may train its link; it answers RRS until CFG_READY. -/
def execPerstRelease (p : HostPortId) (s : State) : Res :=
  let h := s.hport p
  .next (s.setHport p { h with perst := false })

/-- HOST_PATH_LOSS (R391, R416): a link-down, a hot reset or a Function Level Reset. -/
def execHostPathLoss (p : HostPortId) (s : State) : Res := if s.on (hpLinkUp p) then .next (s.losePath p) else .next s

/-- HOST_PORT_LINK_UP (R388, R389, R418): port `p` has trained and reaches L0; CFG_READY is set. CXL is trained only where the packing
list offers it. Rings in HOST_PATH_LOST stay there. -/
def execHostPortLinkUp (p : HostPortId) (speed : Fin 6) (width : Fin 4) (cxl : Bool) (s : State) : Res :=
  if s.on (hpLinkUp p) || (s.hport p).perst || !s.pins.resetReleased || !s.domOn 27 || !s.portLogic p || !s.on (pcieRefOk p) then
    .next s
  else
    let s := ((s.wr (hpLinkUp p) 1).wr (hpSpeed p) speed).wr (hpWidth p) width
    .next ((s.wr (hpCxl p) (b2n (cxl && s.on (hpCxlOffer p)))).wr (hpCfgReady p) 1)

/-! Configuration space (R389, R392, R393, R418, R421). -/

/-- Answers a reader outside the block. -/
def State.reply (s : State) (status : Nat) (data : List Byte) : State := { s with answer := ⟨status, data⟩ }

/-- A held MSI-X message goes out once nothing masks it (R421, R595). -/
def State.msixPending (s : State) (p : Nat) : State :=
  if (s.hport p).pba then
    let h := s.hport p
    (s.setHport p { h with pba := false }).msix p
  else s

/-- CONFIGURATION_REQUEST (R389): answered RRS before CFG_READY, else it acts on configuration space. A BAR's base is aligned to its
size. -/
def execConfigurationRequest (p : HostPortId) (q : CfgReq) (s : State) : Res :=
  let h := s.hport p
  if !s.on (hpLinkUp p) && h.perst then .next s
  else if !s.on (hpCfgReady p) then .next (s.reply 6 [])
  else
    let s := s.reply 0 []
    match q with
    | .read => .next s
    | .bar0 b => .next (s.setHport p { h with bar0 := b / 2 ^ 26 * 2 ^ 26 })
    | .bar2 b => .next (s.setHport p { h with bar2 := b / 2 ^ (36 + h.bar2Size) * 2 ^ (36 + h.bar2Size) })
    | .bar2Size c => .next (s.setHport p { h with bar2Size := c })
    | .command m b => .next ((s.setHport p { h with mse := m }).wr (hpBme p) (b2n b))
    | .power d => .next (s.setHport p { h with dstate := if d then 3 else 0 })
    | .ideAssoc i b lo hi => .next (s.setHport p { h with ideAssoc := putMap (1, 0) h.ideAssoc (2 * i.val + b.val) (lo, hi) })
    | .msix e m => .next ((s.setHport p { h with msixEn := e, msixMask := m }).msixPending p)

/-- CXL_HOST_SNOOP (R388): answered RspIHitI, status 7 of the answer, since the device holds no host line. -/
def execCxlHostSnoop (p : HostPortId) (_line : Nat) (s : State) : Res :=
  if s.on (hpLinkUp p) && s.on (hpCxl p) then .next (s.reply 7 []) else .next s

/-- DOE_REQUEST (R419): an SPDM message is answered, with bytes that the model leaves open; an IDE_KM message inside a secure session sets
up or ends a stream, and outside one it does nothing. -/
def execDoeRequest (p : HostPortId) (q : DoeReq) (s : State) : Res :=
  if !(s.on (hpLinkUp p) && s.on (hpCfgReady p)) then .next s
  else
    let s : State := { s with doeCount := s.doeCount + 1 }
    match q with
    | .spdm _ => let d := s.draw; .next (d.2.reply 0 (toBytes 64 d.1))
    | .ideKm i b inSession => if inSession then .next ((s.setIde p i b).reply 0 []) else .next (s.reply 1 [])

/-- BAR0_ACCESS_TIMEOUT (R395): a BAR0 access of port `p` has waited 0.5 ms at a crossing whose clock has stopped through a fault; it
completes with Completer Abort, and so does every later one to that block until its unit is reset. -/
def execBar0AccessTimeout (p : HostPortId) (s : State) : Res :=
  match s.held.find? fun h => decide (h.port = some p.val) with
  | none => .next s
  | some h =>
    let rest := s.held.map fun x => if x = h then { h with port := none } else x
    let bl := if h.dom ∈ s.bar0Blocked then s.bar0Blocked else s.bar0Blocked ++ [h.dom]
    .next ((State.bump { s with held := rest, bar0Blocked := bl } (hpAborts p)).reply 2 [])

/-! BAR2 (R247, R325, R396, R415). -/

/-- The cellar address of an offset in BAR2 (R325). -/
def State.bar2Addr (s : State) (p off : Nat) : Nat := bitsAt (s.reg64 (0x200030 + 8 * p)) 0 10 * 2 ^ 30 + off

/-- Does a BAR2 access reach the cellar beyond the driver reserve (R396, R552)? -/
def bar2Ok (a n : Nat) : Bool := decide (driverReserve ≤ a) && decide (a + max n 1 ≤ cellarSize)

/-- Writes to their stacks every hamper entry that holds bytes that port `p` posted (R247). -/
def State.flushPort (s : State) (p : Nat) : State :=
  (s.hampers.map (·.1)).foldl (fun s h => s.flushHamper h fun e => decide (p ∈ e.ports)) s

/-- BAR2_READ (R247, R390, R396, R420): n bytes at BAR2 offset `off`, zero for a read-back alone. It waits while a write that the port
posted has not been accepted at its home. -/
def execBar2Read (p : HostPortId) (off n : Nat) (ide : Ide) (s : State) : Res :=
  if !s.on (hpLinkUp p) then .next s
  else if !s.memSpace p || decide (2 ^ (36 + (s.hport p).bar2Size) < off + n) then .next (s.reply 1 [])
  else if !(s.barGate p ide).1 then .next ((s.barGate p ide).2.reply 1 [])
  else if !s.devReady then .next (s.reply 1 [])
  else if s.portPosted p then .next s
  else
    let s1 := s.flushPort p
    let a := s.bar2Addr p off
    if !bar2Ok a n then .next ((s1.bump (hpOor p)).reply 1 [])
    else
      match readLines (fun s a n => s.homeRead a n) (lineFuel n) a n s1 with
      | (.ok bs, s2) => .next (s2.reply 0 bs)
      | (.bad st, s2) =>
        if st = stWAIT then .next s
        else if st = 13 then .next (s2.reply 3 (List.replicate n 0xFF#8))
        else .next (s2.reply 1 [])

/-- Cuts a write into parts that each lie in one cellar line, on their way to their homes. -/
def postLines (port : Option Nat) : Nat → Nat → List Byte → List HomeWrite
  | 0, _, _ => []
  | fuel + 1, a, bs =>
    if bs.isEmpty then []
    else ⟨a, bs.take (128 - a % 128), port⟩ :: postLines port fuel (a + (128 - a % 128)) (bs.drop (128 - a % 128))

/-- BAR2_WRITE (R390, R396, R420): bytes posted at BAR2 offset `off`; each home accepts them with CELLAR_WRITE. -/
def execBar2Write (p : HostPortId) (off : Nat) (bs : List Byte) (ide : Ide) (s : State) : Res :=
  if !s.memSpace p || decide (2 ^ (36 + (s.hport p).bar2Size) < off + bs.length) then .next s
  else if !(s.barGate p ide).1 then .next (s.barGate p ide).2
  else if !s.devReady then .next s
  else
    let a := s.bar2Addr p off
    if bar2Ok a bs.length then .next { s with homeQ := s.homeQ ++ postLines (some p.val) (lineFuel bs.length) a bs }
    else .next (s.bump (hpOor p))

end Sys2Proof.Machine
end

