-- ==== Sys2Proof/Machine/Seam.lean ====
section
/-! DEFINITION. Seams between dies (chapter 12): lanes and widths, flits and replays, failing lanes and clocks, repair,
retraining and control takeover. -/
namespace Sys2Proof.Machine

/-! Registers of SEAM.B[b] (Table 12.7). -/
def seamWidth (b : Nat) : Fld := ⟨seamB b 0, 2, 2⟩
def seamReq (b : Nat) : Fld := ⟨seamB b 0, 4, 2⟩
def seamStandby (b : Nat) : Fld := ⟨seamB b 0, 9, 7⟩
def seamVer (b : Nat) : Fld := ⟨seamB b 0, 16, 3⟩
def seamThr (b : Nat) : Fld := ⟨seamB b 4, 0, 8⟩
def seamReplays (b : Nat) : Fld := ⟨seamB b 0x28, 0, 32⟩
def seamFails (b : Nat) : Fld := ⟨seamB b 0x2C, 0, 16⟩
def seamTakeovers (b : Nat) : Fld := ⟨seamB b 0x2C, 16, 8⟩
def seamFeatures : Fld := ⟨0x300000, 0, 3⟩
def seamLowest : Fld := ⟨0x300000, 8, 8⟩
def dieVersion (d : Nat) : Fld := ⟨0x300010 + 8 * d, 0, 8⟩
def dieFeatures (d : Nat) : Fld := ⟨0x300010 + 8 * d, 8, 3⟩

/-- The dies that a bundle joins, A side first, numbered as SEAM.DIE: T0 to T3, H, N, S (Table 12.1). -/
def seamDies (b : Nat) : Nat × Nat :=
  if b < 8 then (0, 2) else if b < 16 then (1, 3)
  else if b < 48 then ((b - 16) / 8, 4)
  else if b < 64 then (let k := (b - 48) / 4; (k, if k < 2 then 5 else 6))
  else if b < 66 then (4, 5) else (4, 6)

/-- The record of bundle `b`. -/
def State.seam (s : State) (b : Nat) : Seam := lookMap Seam.fresh s.seams b

/-- Sets the record of bundle `b`. -/
def State.setSeam (s : State) (b : Nat) (x : Seam) : State := { s with seams := putMap Seam.fresh s.seams b x }

/-- A direction of a bundle: 0 A to B, 1 B to A. -/
def Seam.dir (x : Seam) (d : Nat) : SeamDir := if d = 0 then x.ab else x.ba

/-- Sets a direction. -/
def Seam.setDir (x : Seam) (d : Nat) (y : SeamDir) : Seam := if d = 0 then { x with ab := y } else { x with ba := y }

/-- Good lanes of half 0 (lanes 0 to 33) or 1 (lanes 34 to 67), ascending. -/
def SeamDir.goodHalf (x : SeamDir) (h : Nat) : List Nat :=
  ((List.range 34).map (34 * h + ·)).filter fun n => !(decide (n ∈ x.bad))

/-- Does clock `n` work? -/
def SeamDir.clk (x : SeamDir) (n : Nat) : Bool := !(decide (n ∈ x.badClk))

/-- Is a half served by a working clock: its own, or the spare, which stands in for one (R328)? Where both have failed, the spare
serves the half with more good lanes. -/
def SeamDir.served (x : SeamDir) (h : Nat) : Bool :=
  x.clk h || (x.clk 2 && (x.clk (1 - h) ||
    (if h = 0 then decide ((x.goodHalf 1).length ≤ (x.goodHalf 0).length) else decide ((x.goodHalf 0).length < (x.goodHalf 1).length))))

/-- The usable lanes of a direction, ascending. -/
def SeamDir.usable (x : SeamDir) : List Nat :=
  (if x.served 0 then x.goodHalf 0 else []) ++ (if x.served 1 then x.goodHalf 1 else [])

/-- Most lanes that one working clock serves. -/
def SeamDir.oneClock (x : SeamDir) : Nat :=
  max (if x.served 0 then (x.goodHalf 0).length else 0) (if x.served 1 then (x.goodHalf 1).length else 0)

/-- The width that R331 allows, encoded as WIDTH; 48 needs the feature W48 (Table 12.4). -/
def Seam.allowed (x : Seam) (w48 : Bool) : Nat :=
  let a := x.ab.usable.length
  let b := x.ba.usable.length
  if 64 ≤ a ∧ 64 ≤ b then 3
  else if w48 ∧ 48 ≤ a ∧ 48 ≤ b then 2
  else if 32 ≤ x.ab.oneClock ∧ 32 ≤ x.ba.oneClock then 1
  else 0

/-- Lanes of a WIDTH code. -/
def widthLanes (w : Nat) : Nat := if w = 3 then 64 else if w = 2 then 48 else if w = 1 then 32 else 0

/-- Is a feature of Table 12.4 in force? -/
def State.seamFeature (s : State) (i : Nat) : Bool := bitAt (s.rd seamFeatures) i

/-- The lanes in use of a direction (USE_AB, USE_BA). -/
def State.seamUse (s : State) (b d : Nat) : List Nat :=
  let m := s.reg64 (seamB b (8 + 16 * d)) + 2 ^ 64 * s.rd ⟨seamB b (0x10 + 16 * d), 0, 4⟩
  (List.range 68).filter (bitAt m)

/-- Writes the lanes in use of a direction, with its spare lanes and clock (Table 12.7). -/
def State.setSeamUse (s : State) (b d : Nat) (lanes : List Nat) : State :=
  let m := lanes.foldl (fun m n => m + 2 ^ n) 0
  let x := (s.seam b).dir d
  let s := (s.setReg64 (seamB b (8 + 16 * d)) (m % 2 ^ 64)).wr ⟨seamB b (0x10 + 16 * d), 0, 4⟩ (m / 2 ^ 64)
  let s := s.wr ⟨seamB b 0x20, 4 + 3 * d, 3⟩ (min 7 (x.usable.filter fun n => !(decide (n ∈ lanes))).length)
  s.wr ⟨seamB b 0x20, 10 + d, 1⟩ (b2n (x.clk 0 && x.clk 1 && x.clk 2))

/-- Puts a bundle at a width on the lowest-numbered usable lanes of each direction (R332, R339). -/
def State.seamSettle (s : State) (b w : Nat) : State :=
  let x := s.seam b
  let s := s.wr (seamWidth b) w
  (s.setSeamUse b 0 (x.ab.usable.take (widthLanes w))).setSeamUse b 1 (x.ba.usable.take (widthLanes w))

/-- A bundle's width is below the one that the packing list requires (R335). -/
def State.seamReplace (s : State) (b : Nat) : State :=
  if s.rd (seamWidth b) < s.rd (seamReq b) then s.setReplace 1 else s

/-- Trains a bundle at a start or once both of its dies are out of reset (R332, R343): the lanes and clocks that fail their test
are the environment's. -/
def State.seamTrain (s : State) (b : Nat) (badA badB clkA clkB : List Nat) : State :=
  let x : Seam := ⟨⟨badA, clkA, [], 0⟩, ⟨badB, clkB, [], 0⟩, []⟩
  let s := s.setSeam b x
  let p := seamDies b
  let s := s.wr (seamVer b) (min (s.rd (dieVersion p.1)) (s.rd (dieVersion p.2)))
  let w := x.allowed (s.seamFeature 0)
  let s := (s.seamSettle b w).wr (seamState b) (if w = 0 then 4 else 0)
  let s := ((s.wr (seamReplays b) 0).wr (seamFails b) 0).wr (seamTakeovers b) 0
  let s := if w = 0 then (s.wr (seamRole b) 3).wr (offlineFld 7 b) 1 else s
  s.seamReplace b

/-- Is a lane or clock (68 + n) in use? -/
def State.seamInUse (s : State) (b d x : Nat) : Bool :=
  if x < 68 then decide (x ∈ s.seamUse b d)
  else
    let y := (s.seam b).dir d
    if x = 70 then !(y.clk 0 && y.clk 1) else true

/-- Does a spare of the same kind remain for a failing lane or clock of a direction (R338)? The failing one is already marked. -/
def State.seamSpare (s : State) (b d x : Nat) : Bool :=
  let y := (s.seam b).dir d
  if x < 68 then y.usable.any fun n => !(decide (n ∈ s.seamUse b d))
  else decide (x < 70) && y.clk 2 && y.clk (69 - x)

/-- Where the strongroom keeps the seam lane history, 68 records of 64 bytes a start, and beside it the lanes and clocks that failed, 68
records of 32 bytes a start; newest start first (R332, Table 21.6, log entry 22). -/
def seamHistAt : Nat := 0x420000
def seamBadAt : Nat := 0x470000

/-- The record of the lanes and clocks of a bundle that have failed: 16 bytes a direction, lane n in bit n and clock n in bit 68 + n. -/
def State.badBytes (s : State) (b : Nat) : List Byte :=
  let mask := fun (y : SeamDir) => (y.bad ++ y.badClk.map (68 + ·)).eraseDups.foldl (fun m n => m + 2 ^ n) 0
  toBytes 16 (mask (s.seam b).ab) ++ toBytes 16 (mask (s.seam b).ba)

/-- Brings a bundle's record of this start up to date: a lane that failed in service stays in the history beside the outcome of its next test
(R332). -/
def State.seamRecord (s : State) (b : Nat) : State :=
  (s.commit (seamHistAt + 64 * b) (s.wordBytes (seamB b 0) 16)).commit (seamBadAt + 32 * b) (s.badBytes b)

/-- Declares a lane or clock failing (R336): where it is in use, the bundle holds its flits for a repair, a takeover of the control
role, or a retraining (R338, R339, R341); a hold under way takes it in (R343). -/
def State.seamFail (s : State) (b d x : Nat) : State :=
  let m := s.seam b
  let y := m.dir d
  if (if x < 68 then decide (x ∈ y.bad) else decide (x - 68 ∈ y.badClk)) then s
  else
    let used := s.seamInUse b d x
    let lanes := s.seamUse b d
    let y := if x < 68 then { y with bad := y.bad ++ [x] } else { y with badClk := y.badClk ++ [x - 68] }
    let s := s.setSeam b { m.setDir d y with due := if used then m.due ++ [(d, x)] else m.due }
    let s := if x < 68 then s.bump (seamFails b) else s
    let s := if !used then s.setSeamUse b d lanes
      else if s.rd (seamState b) ≠ 0 then s
      else if s.seamFeature 1 && s.seamSpare b d x then s.wr (seamState b) 1
      else if s.rd (seamRole b) = 1 ∧ s.rd (seamStandby b) ≠ 0x7F then s.wr (seamState b) 3
      else s.wr (seamState b) 2
    s.seamRecord b

/-- SEAM_FLIT_RECEIVE (R336, R337): a flit of a running bundle arrives; `blame` names the lanes that its per-lane check blames,
none where its CRC is right. A flit that has failed its 8 replays marks them as failing. -/
def execSeamFlitReceive (b : BundleId) (d : Fin 2) (blame : List (Fin 68)) (s : State) : Res :=
  if s.rd (seamState b) ≠ 0 then .next s
  else
    let m := s.seam b
    let y := m.dir d
    if blame.isEmpty then .next (s.setSeam b (m.setDir d { y with tries := 0 }))
    else
      let cnt := blame.foldl (fun c (n : Fin 68) => putMap 0 c n.val (lookMap 0 c n.val + 1)) y.cnt
      let last := decide (8 ≤ y.tries)
      let s := s.setSeam b (m.setDir d { y with cnt := cnt, tries := if last then 0 else y.tries + 1 })
      let s := s.bump (seamReplays b)
      .next (blame.foldl (fun s (n : Fin 68) =>
        if last || decide (s.rd (seamThr b) ≤ lookMap 0 cnt n.val) then s.seamFail b d n else s) s)

/-- SEAM_LANE_LOSS_OF_LOCK (R336): the receiver of a lane, or of forwarded clock x − 68, loses lock. -/
def execSeamLaneLossOfLock (b : BundleId) (d : Fin 2) (x : Fin 71) (s : State) : Res :=
  if s.rd (seamState b) = 4 then .next s else .next (s.seamFail b d x)

/-- SEAM_LANE_WINDOW_EXPIRY (R336): the window of 2^20 spine cycles in which a lane's CRC failures are counted closes. -/
def execSeamLaneWindowExpiry (b : BundleId) (d : Fin 2) (n : Fin 68) (s : State) : Res :=
  let m := s.seam b
  let y := m.dir d
  .next (s.setSeam b (m.setDir d { y with cnt := putMap 0 y.cnt n.val 0 }))

/-- Repairs the failing lanes and clocks of a hold by spares, in order; those that find none stay due (R338, R343). -/
def State.seamRepair (s : State) (b : Nat) : List (Nat × Nat) → State
  | [] => s
  | (d, x) :: rest =>
    let s1 :=
      if s.seamSpare b d x then
        let use := s.seamUse b d
        let s := if x < 68 then
            match ((s.seam b).dir d).usable.find? fun n => !(decide (n ∈ use)) with
            | some n => s.setSeamUse b d ((use.filter (· ≠ x)) ++ [n])
            | none => s
          else s.setSeamUse b d use
        let m := s.seam b
        (s.setSeam b { m with due := m.due.filter fun q => decide (q ≠ (d, x)) }).raise 0x0500 7 b []
      else s
    s1.seamRepair b rest

/-- Is a takeover by bundle `y` under way? It completes first (Table 12.3). -/
def State.takesOver (s : State) (y : Nat) : Bool :=
  (List.range 68).any fun b => decide (s.rd (seamState b) = 3) && decide (s.rd (seamStandby b) = y)

/-- SEAM_LANE_REPAIR_COMPLETE (R338): the failing lanes' traffic is on spares and the bundle resumes; a failure that no spare is
left for narrows it in the same hold. -/
def execSeamLaneRepairComplete (b : BundleId) (s : State) : Res :=
  if s.rd (seamState b) ≠ 1 || s.takesOver b then .next s
  else
    let s := (s.seamRepair b (s.seam b).due).seamRecord b
    if (s.seam b).due.isEmpty then .next (s.wr (seamState b) 0).releaseSync
    else if s.rd (seamRole b) = 1 ∧ s.rd (seamStandby b) ≠ 0x7F then .next (s.wr (seamState b) 3)
    else .next (s.wr (seamState b) 2)

/-- SEAM_RETRAIN_COMPLETE (R339, R340, R342, R343): a bundle resumes at the widest width that R331 allows, or goes down. One fault is raised
for each lane or clock that failed. -/
def execSeamRetrainComplete (b : BundleId) (s : State) : Res :=
  if s.rd (seamState b) ≠ 2 || s.takesOver b then .next s
  else
    let old := s.rd (seamWidth b)
    let w := min old ((s.seam b).allowed (s.seamFeature 0))
    let due := (s.seam b).due
    let s := s.setSeam b { s.seam b with due := [] }
    let s := ((s.seamSettle b w).wr (seamState b) (if w = 0 then 4 else 0)).seamRecord b
    let control := decide (s.rd (seamRole b) = 1) && decide (s.rd (seamStandby b) = 0x7F)
    let detail := detailOf [(1, b), (1, old), (1, w)]
    let s := ((List.range (max 1 due.length)).foldl (fun s _ => s.raise (if w = 0 then 0x0502 else 0x0501) 7 b detail) s).aplicSignal 7
    let s := if w = old then s else ((s.loseGuarantee 4 b fun q => q.usesPair b).condChange).seamReplace b
    let s := if w = 0 then s.wr (offlineFld 7 b) 1 else s
    if control && decide (w = 0) then .next ((s.wr (seamRole b) 3).raise 0x0505 7 b []).releaseSync
    else if control && decide (w < old) then .next (s.raise 0x0504 7 b []).releaseSync
    else .next (if w = 0 then s.wr (seamRole b) 3 else s).releaseSync

/-- SEAM_CONTROL_TAKEOVER (R341): the control role has moved to the standby; the old bundle takes the bulk role and narrows. A
standby that is down takes nothing over (R342). -/
def execSeamControlTakeover (b : BundleId) (s : State) : Res :=
  if s.rd (seamState b) ≠ 3 then .next s
  else
    let y := s.rd (seamStandby b)
    if s.rd (seamState y) = 4 then .next ((s.wr (seamStandby b) 0x7F).wr (seamState b) 2)
    else
      let s := (s.wr (seamRole y) 1).wr (seamStandby y) 0x7F
      let s := ((s.wr (seamRole b) 0).wr (seamStandby b) 0x7F).bump (seamTakeovers b)
      .next ((s.raise 0x0503 7 b []).wr (seamState b) 2).releaseSync

end Sys2Proof.Machine
end

