-- ==== Sys2Proof/Machine/Power.lean ====
section
/-! DEFINITION. Supplies, switched domains, clocks, holds, crossings and unit resets (R439 to R455, R569, R617, R75). -/
namespace Sys2Proof.Machine

/-! Registers of PWR, of BIST's last slice and of PKL.STAT (Tables 16.8 to 16.11, 19.11, 21.12). -/
def seqViolated : Fld := ⟨0x1C0000, 0, 1⟩
def seqRail : Fld := ⟨0x1C0000, 1, 4⟩
def seqStep : Fld := ⟨0x1C0000, 5, 3⟩
def seqUnobserved : Fld := ⟨0x1C0000, 8, 1⟩
def railUp (i : Nat) : Fld := ⟨0x1C0010 + 4 * i, 0, 1⟩
def railDown (i : Nat) : Fld := ⟨0x1C0010 + 4 * i, 1, 1⟩
def railSet (i : Nat) : Fld := ⟨0x1C0010 + 4 * i, 16, 16⟩
def domBit (d : Nat) : Fld := ⟨0x1C0100 + 8 * d, 0, 1⟩
def domClkStop (d : Nat) : Fld := ⟨0x1C0100 + 8 * d, 1, 1⟩
def domRefused (d : Nat) : Fld := ⟨0x1C0100 + 8 * d, 2, 1⟩
def domSwitches (d : Nat) : Fld := ⟨0x1C0104 + 8 * d, 0, 32⟩
def pilotOk : Fld := ⟨0x1C0200, 0, 1⟩
def hangLimit : Fld := ⟨0x1C0210, 0, 8⟩
def hangCount : Fld := ⟨0x1C0210, 8, 24⟩
def bistStatBusy : Fld := ⟨0x480004, 0, 1⟩
def bistStatKind : Fld := ⟨0x480004, 1, 3⟩
def bistStatIndex : Fld := ⟨0x480004, 4, 12⟩
def bistLastKind : Fld := ⟨0x480010, 0, 3⟩
def bistLastOutcome : Fld := ⟨0x480010, 3, 2⟩
def bistLastIndex : Fld := ⟨0x480010, 16, 16⟩
def bistLastTicks : Fld := ⟨0x480014, 0, 32⟩
def pklStage : Fld := ⟨0x4C0000, 0, 4⟩
def pklStopped : Fld := ⟨0x4C0000, 4, 1⟩
def pklDefaults : Fld := ⟨0x4C0000, 5, 1⟩
def pklReason : Fld := ⟨0x4C0000, 8, 8⟩
/-- GOV.STATE.ALERT: the levels of PWR_ALERT_N. -/
def govAlert : Fld := ⟨0x180008, 1, 4⟩
def coreState (c : Nat) : Fld := ⟨0x49000 + 8 * c, 28, 2⟩

/-! Self-test slices that run (R575, R576). -/

/-- Shows the slices that run in BIST.STAT: the one begun last, if any. -/
def State.showSlices (s : State) : State :=
  match s.slices.getLast? with
  | none => ((s.wr bistStatBusy 0).wr bistStatKind 0).wr bistStatIndex 0
  | some x => ((s.wr bistStatBusy 1).wr bistStatKind x.kind).wr bistStatIndex x.index

/-- Takes a slice out of the ones that run and records its outcome: 0 passed, 1 failed, 2 abandoned (Table 21.12). -/
def State.closeSlice (s : State) (x : Slice) (outcome : Nat) : State :=
  let s := State.showSlices { s with slices := s.slices.filter fun y => decide (y ≠ x) }
  let s := ((s.wr bistLastKind x.kind).wr bistLastOutcome outcome).wr bistLastIndex x.index
  s.wr bistLastTicks ((s.plt - x.start) % 2 ^ 32)

/-- Abandons the idle slices that `p` picks: they count as neither passed nor failed (R576). -/
def State.abandonSlices (s : State) (p : Slice → Bool) : State :=
  (s.slices.filter fun x => x.idle && p x).foldl (fun s x => s.closeSlice x 2) s

/-! What a domain loses when it goes off (Table 16.2). -/

/-- Returns the crate windows of the crates that `p` picks to reset. SHELF_WAYS.DISABLED and TILE.FMAX stay (Table 23.6); with
`keepShelf`, SHELF_WAYS.SCRATCH and SHELF_CFG.LOCK stay too (R617). -/
def State.resetWindows (s : State) (p : Nat → Bool) (keepShelf : Bool) : State :=
  let win := fun (a : Nat) => decide (0x1000000 ≤ a) && decide (a < 0x1C00000) && p ((a - 0x1000000) / 0x8000)
  let off := fun (a : Nat) => (a - 0x1000000) % 0x8000
  let isWays := fun (a : Nat) => decide (0xC00 ≤ off a ∧ off a < 0x1000) && decide (off a % 16 = 4)
  let isCfg := fun (a : Nat) => decide (0xC00 ≤ off a ∧ off a < 0x1000) && decide (off a % 16 = 0)
  let isFmax := fun (a : Nat) => decide (0x4000 ≤ off a) && decide (off a % 0x100 = 8)
  s.regs.foldl (fun s e =>
    if !win e.1 then s
    else if isFmax e.1 then s
    else if isWays e.1 then (if keepShelf then s else s.setReg e.1 (e.2 &&& 0xFFF#32))
    else if isCfg e.1 && keepShelf then s.setReg e.1 (e.2 &&& 0xF#32)
    else s.setReg e.1 (resetWord e.1)) s

/-- Holds every tile of the crates that `p` picks that is not in its reset state. -/
def State.holdTiles (s : State) (p : Nat → Bool) : State :=
  (s.tiles.filter fun q => p (q.1 / 64)).foldl (fun s q => s.holdTile q.1) s

/-- Releases the blocked requesters that `p` picks (Table 16.6). -/
def State.unblock (s : State) (p : Nat → Bool) : State := { s with blocked := s.blocked.filter fun b => !p b }

/-- The BAR0 path to the units that `p` picks, as domains or 64 + crate, is served again (R395, R454). -/
def State.freeBar0 (s : State) (p : Nat → Bool) : State := { s with bar0Blocked := s.bar0Blocked.filter fun b => !p b }

/-- Everything that the crates which `mine` picks hold beside their shelves is at its reset: registers, tile tallies, queues (Table 23.6). -/
def State.clearCrates (s : State) (mine : Nat → Bool) : State :=
  let s := (s.holdTiles mine).resetWindows mine false
  { s with
    regs := s.regs.filter fun e => !(decide (tileTallyBase ≤ e.1) && mine ((e.1 - tileTallyBase) / 0x1000 / 64)),
    tiles := s.tiles.filter fun q => !mine (q.1 / 64), crates := s.crates.filter fun q => !mine q.1 }

/-- A quadrant goes off: shelves, tallies, queues and registers are lost (Tables 16.2, 23.6). -/
def State.quadrantOff (s : State) (d : Nat) : State :=
  let mine := fun (c : Nat) => decide (quadOfCrate c = d)
  let s := s.clearCrates mine
  let s := s.sideReset fun u => mine (u / 64)
  let s := s.unblock fun b => (decide (b / 2 ^ 24 = 1) && mine (b % 2 ^ 24 / 64)) || (decide (b / 2 ^ 24 = 2) && mine (b % 2 ^ 24))
  s.freeBar0 fun b => decide (64 ≤ b) && mine (b - 64)

/-- A spine goes off: the translation caches of its crates, the die's tallies, and what the cellar controllers of its stacks hold. -/
def State.spineOff (s : State) (k : Nat) : State :=
  let s := s.resetRegs (0x400000 + 0x8000 * k) (0x400000 + 0x8000 * (k + 1)) fun _ => false
  let s := s.resetRegs (0x438000 + 0x80 * k) (0x438000 + 0x80 * (k + 1)) fun _ => false
  let s : State := { s with
    crates := s.crates.foldl (fun m q =>
      putMap Crate.fresh m q.1 (if q.1 / 96 = k then { q.2 with tc := [], wc := [], walks := [] } else q.2)) [] }
  (List.range 10).foldl (fun s i => s.setHamper (10 * k + i) []) s

/-- The clusters of a core half. -/
def inHalf (d agent : Nat) : Bool := decide (agent < 96) && decide (agent / 48 = d - 20)

/-- A core half goes off: its cores and their caches (Table 16.2). No directory entry lists its clusters any more (R296). -/
def State.halfOff (s : State) (d : Nat) : State :=
  let cl := (List.range 6).map (6 * (d - 20) + ·)
  let s : State := { s with
    hcores := s.hcores.filter fun q => !inHalf d q.1, l2 := s.l2.filter fun q => !inHalf d (q.1 / 2 ^ 36),
    creqs := s.creqs.filter fun q => !inHalf d q.core }
  let s := s.dirs.foldl (fun s x =>
    match s.locate (128 * x.line) with
    | none => s
    | some l => cl.foldl (fun s c => if bitAt x.vec c then s.clearHolder l.home x.line (128 + c) else s) s) s
  let s := (List.range 48).foldl (fun s i => s.wr (coreState (48 * (d - 20) + i)) 3) s
  s.unblock fun b => decide (b / 2 ^ 24 = 10) && inHalf d (b % 2 ^ 24)

/-- The host uncore goes off: the system cache, package tallies, and whatever the protocol of chapter 10 had under way. -/
def State.uncoreOff (s : State) : State :=
  let s := s.resetRegs 0x430000 0x434000 fun _ => false
  { s with l2 := [], dirs := [], creqs := [], evicts := [], txns := [], msgs := [], homeQ := [] }

/-- A fabric PHY group goes off: the links of its ports. -/
def State.phyOff (s : State) (i : Nat) : State :=
  (List.range 8).foldl (fun s j =>
    let p := 8 * i + j
    let s := ((s.setPortState p 0).clearTrained p).setFport p { FPort.fresh with lanesOut := (s.fport p).lanesOut }
    let s := s.creditsLost p
    { s with fabTx := s.fabTx.filter (fun k => decide (k.1 ≠ p)), fabWait := s.fabWait.filter fun q => decide (q.port ≠ p) }) s

/-- A switched domain goes off. -/
def State.domainOff (s : State) (d : Nat) : State :=
  let s := if d < 16 then s.quadrantOff d
    else if d < 20 then s.spineOff (d - 16)
    else if d < 22 then s.halfOff d
    else if d = 22 then s.uncoreOff
    else if d < 25 then s.phyOff (d - 23)
    else if d = 27 then [0, 1].foldl (fun s p => if s.on (hpLinkUp p) then s.losePath p else s) s
    else if d < 28 then s
    else (s.collReset (d - 28)).unblock fun b => decide (b = 14 * 2 ^ 24 + (d - 28))
  let s := s.freeBar0 fun b => decide (b = d)
  -- an access that waits at a crossing into the domain, or into a crate of it, has nothing left to wait for (R74)
  let s : State := { s with held := s.held.filter fun h => decide (domOfPlace h.dom ≠ d) }
  if d < 16 then s.condChange else s

/-- A domain goes off at once. -/
def State.domDead (s : State) (d : Nat) : State :=
  let s := if s.rd (domState d) = 0 then s else s.domainOff d
  ((s.wr (domState d) 0).wr (domBit d) 0).wr (domClkStop d) 0

/-- A crate in the lowest state (Table 17.3): its clock at 350 MHz, its issue limit 1 at the next frame boundary, its PLL as it was. -/
def State.lowerCrate (s : State) (c : Nat) : State :=
  let f := s.rd (crCur c)
  let s : State := { s with gov := { s.gov with pllMhz := putMap 700 s.gov.pllMhz c f } }
  (s.setCrate c { s.crate c with pendK := some 1 }).wr (crCur c) 350

/-- STAT.CORE[c].CUR_MHZ and FMAX_MHZ. -/
def coreMhz (c : Nat) : Fld := ⟨0x49000 + 8 * c, 0, 12⟩
def coreFmax (c : Nat) : Fld := ⟨0x49000 + 8 * c, 16, 12⟩

/-- A host core in the lowest state: 1.2 GHz, its PLL as it was. -/
def State.lowerCore (s : State) (c : Nat) : State :=
  let f := s.rd (coreMhz c)
  State.wr { s with gov := { s.gov with pllMhz := putMap 700 s.gov.pllMhz (384 + c) f } } (coreMhz c) 1200

/-- Every bundle of a die trains again once both of its dies are out of reset (R343): on the lanes and clocks that have not failed. -/
def State.dieTrains (s : State) (k : Nat) : State :=
  ((List.range 68).filter fun b => decide ((seamDies b).1 = k) || decide ((seamDies b).2 = k)).foldl (fun s b =>
    let p := seamDies b
    let up := fun (e : Nat) => if e < 4 then s.domPowered (16 + e) else s.domPowered 22
    if s.on (forcedFld 7 b) || !(up p.1 && up p.2) then s
    else
      let x := s.seam b
      let old := s.rd (seamWidth b)
      let s := s.seamTrain b x.ab.bad x.ba.bad x.ab.badClk x.ba.badClk
      if s.rd (seamWidth b) = old then s else (s.loseGuarantee 4 b fun q => q.usesPair b).condChange) s

/-- The voltage table entry of a die for a frequency: the lowest point that reaches it (R458). -/
def State.tableMv (s : State) (d f : Nat) : Option Nat :=
  ((List.range 8).find? fun i => decide (f ≤ s.rd ⟨0x180200 + 0x20 * d + 4 * i, 0, 16⟩)).map
    fun i => s.rd ⟨0x180200 + 0x20 * d + 4 * i, 16, 16⟩

/-- A quadrant or a core half comes on: it runs at `f` MHz until its first interval is over, and the AVS rail of its die, 0 to 3 tensor or
4 host, has at least the table's voltage for it (R484). -/
def State.comesOn (s : State) (d die f : Nat) : State :=
  let s : State := { s with gov := { s.gov with newOn := s.gov.newOn.filter (fun x => decide (x ≠ d)) ++ [d] } }
  let rail := railSet (if die = 4 then 10 else 11 + die)
  match s.tableMv die f with
  | some mv => s.wr rail (max mv (s.rd rail))
  | none => s

/-- What a domain is when it comes on: shelves zeroed, tiles held, every register at reset (R75), whatever has been written since it
went off; the seams of a die trained again; cores at their reset. -/
def State.domainOn (s : State) (d : Nat) : State :=
  let s := s.wr (domState d) (if s.on (domClkStop d) then 3 else 2)
  let s := s.bump (domSwitches d)
  if d < 16 then
    let s := s.clearCrates fun c => decide (quadOfCrate c = d)
    let s : State := { s with shelf := s.shelf.filter fun c => decide (quadOfCrate (c.1 / 0x40000 / 64) ≠ d) }
    let s := (List.range 24).foldl (fun s i =>
      let c := 96 * (d / 4) + 12 * (4 * (d % 4 / 2) + i / 6) + 6 * (d % 2) + i % 6
      let s := { s with gov := { s.gov with kSet := putMap 16 s.gov.kSet c 16 } }
      let s := s.syncLimit c
      if s.on govLowest then s.lowerCrate c else s) s
    (s.comesOn d (d / 4) 700).condChange
  else if d = 20 ∨ d = 21 then
    let s : State := { s with gov := { s.gov with coreSet := s.gov.coreSet.filter fun q => decide (q.1 / 48 ≠ d - 20) } }
    (List.range 48).foldl (fun s i =>
      let c := 48 * (d - 20) + i
      let s := s.wr (coreState c) (if s.offline 11 (c / 8) then 2 else 0)
      let s := s.wr (coreMhz c) 2400
      if s.on govLowest then s.lowerCore c else s) (s.comesOn d 4 2400)
  else if 16 ≤ d ∧ d < 20 ∧ s.pins.devReady then (s.dieTrains (d - 16)).releaseSync
  else s

/-! Holds (R448, R481, R569) and start-up stops (R528). -/

/-- Does a start run: PKG_RESET_N released, t0 reached, and neither ready nor stopped (R521)? -/
def State.starting (s : State) : Bool := s.pins.resetReleased && s.t0.isSome && !s.pins.devReady && !s.on pklStopped

/-- Stops every fast clock, powers off every switched domain and deasserts DEV_READY (R569). -/
def State.holdFast (s : State) : State :=
  if s.fastStopped then s
  else
    let s := s.setDevReady false
    let s := (List.range 30).foldl State.domDead s
    { s with domQ := [], fastStopped := true, slices := [] }

/-- Powers a domain on at once, for the device's own sequences. -/
def State.domUp (s : State) (d : Nat) : State :=
  if s.domPowered d then s else (s.wr (domBit d) 1).domainOn d

/-- The start stops for a reason of Table 19.2: the reason and the stage go to the fatal area and to PKL.STAT; only I/O logic and the
host-port PHY stay on, and for a wrong supply or pilot light nothing does (R528). -/
def State.stopStart (s : State) (reason : Nat) : State :=
  let stage := s.rd pklStage
  let d := s.draw
  let rec0 : FRec := ⟨d.1 % 65536, 2, b2n (s.on pwrOnInternal), 0, 0, s.plt, detailOf [(1, reason), (1, stage)]⟩
  let s := d.2.commitFatal (recBytes rec0 s.seqCtr 0 0)
  let s := ((s.wr pklStopped 1).wr pklReason reason)
  if reason ≤ 2 then s.holdFast
  else
    let s := s.setDevReady false
    let s := ((List.range 30).filter fun i => !(decide (i ∈ [25, 26, 27]))).foldl State.domDead s
    let s : State := { s with domQ := [], slices := [] }
    let s := ((s.domUp 25).domUp 26).domUp 27
    -- without an accepted list the ports train with default roles
    if stage < 4 ∨ reason = 4 then
      [0, 1].foldl (fun s p => s.wr ⟨hp p 4, 0, 3⟩ 0) (s.wr pklDefaults 1)
    else s

/-- A fatal event that stops the fast domains, which during a start is a stop for the reason given, if Table 19.2 has one. -/
def State.stopFor (s : State) (reason : Option Nat) : State :=
  match reason with
  | some r => if s.starting then s.stopStart r else s.holdFast
  | none => s.holdFast

/-! Power requests (R444, R445). -/

/-- The rail of a switched domain, numbered as PWR.RAIL (Table 16.2); quadrants count on VDD_Tk. -/
def domRail (d : Nat) : Nat :=
  if d < 16 then 11 + d / 4 else if d < 20 then 11 + (d - 16) else if d < 23 then 10 else if d < 25 then 5 else if d = 27 then 6 else 9

/-- Is a domain off, going off or asked to go off? -/
def State.domGone (s : State) (d : Nat) : Bool :=
  decide (s.rd (domState d) = 0) || decide (s.rd (domState d) = 4) || !s.on (domBit d)

/-- Is a domain on, switching or asked to come on? -/
def State.domComes (s : State) (d : Nat) : Bool := decide (s.rd (domState d) ≠ 0) || s.on (domBit d)

/-- Is a domain's request for power refused (R444)? -/
def State.powerRefused (s : State) (core : Option Nat) (d : Nat) (on : Bool) : Bool :=
  (decide (d ∈ [22, 25, 26, 27]) && s.pins.devReady) ||
    if on then
      if d < 16 then s.domGone (16 + d / 4)
      else if d < 20 then false
      else if d < 22 then s.domGone 22
      else if d = 22 then false
      else if d < 25 then s.domGone (d + 2)
      else if d = 27 then s.domGone 25 || s.domGone 26
      else if d < 28 then false
      else s.domGone (d - 3)
    else
      if d < 16 then false
      else if d < 20 then (List.range 4).any fun q => s.domComes (4 * (d - 16) + q)
      else if d < 22 then (match core with
        | some c => decide (20 + c / 48 = d)
        | none => false)
      else if d = 22 then s.domComes 20 || s.domComes 21
      else if d < 25 then (List.range 8).any fun j => decide (s.rd (fabLevel (8 * (d - 23) + j)) ≠ 7)
      else if d < 27 then s.domComes (d - 2) || s.domComes (d + 3)
      else if d = 27 then false
      else decide (s.rd (collHead (d - 28)) ≠ s.rd (collTail (d - 28))) || s.colls.any fun c => decide (c.e = d - 28)

/-- Has R296 been met for a core half: its cores hold no line and have no request or eviction under way? -/
def State.halfQuiet (s : State) (d : Nat) : Bool :=
  !(s.evicts.any fun e => inHalf d e.agent) && !(s.creqs.any fun q => inHalf d q.core && decide (q.stage ≠ 3)) && !(s.l2.any fun q => inHalf d (q.1 / 2 ^ 36))

/-- Takes a queued power request, if its turn has come and the domain can follow it now: at most one domain of a rail switches on at
a time, and a request meets a domain that is still switching when that switching completes (R445). -/
def State.takePower (s : State) (d : Nat) (on : Bool) : Option State :=
  if on then
    if s.rd (domState d) = 0 && !((List.range 30).any fun e => decide (domRail e = domRail d) && decide (s.rd (domState e) = 1)) then
      some (s.wr (domState d) 1)
    else none
  else if s.domPowered d && (!(decide (d = 20) || decide (d = 21)) || s.halfQuiet d) then some (s.wr (domState d) 4)
  else none

/-- Takes the waiting requests in order, rail by rail. -/
def State.kickPower : List (Nat × Bool) → List (Nat × Bool) → State → State
  | [], kept, s => { s with domQ := kept }
  | (d, on) :: q, kept, s =>
    if kept.any fun k => decide (domRail k.1 = domRail d) then State.kickPower q (kept ++ [(d, on)]) s
    else
      match s.takePower d on with
      | some s => State.kickPower q kept s
      | none => State.kickPower q (kept ++ [(d, on)]) s

/-- Evicts every line that the cores of a half hold, before the half goes off (R296). -/
def State.flushHalf (s : State) (d : Nat) : State :=
  (s.l2.filter fun q => inHalf d (q.1 / 2 ^ 36)).foldl (fun s q => s.evictLine (q.1 / 2 ^ 36) (q.1 % 2 ^ 36)) s

/-- Makes a power request that is not refused. A quadrant change abandons the idle slices it meets (R576). -/
def State.requestPower (s : State) (d : Nat) (on : Bool) : State :=
  let s := s.wr (domBit d) (b2n on)
  let s := if d < 16 then s.abandonSlices fun x =>
      (decide (x.kind = 0) && decide (quadOfCrate x.index = d)) else s
  let s := if !on && (decide (d = 20) || decide (d = 21)) then s.flushHalf d else s
  State.kickPower (s.domQ ++ [(d, on)]) [] s

/-- A write of PWR.DOM[d] by a host core (R444, R445, R453, R594). A write that asks for what R444 refuses changes neither field. -/
def State.domWrite (s : State) (core : Option Nat) (d : Nat) (w : Word) : State :=
  let s := if w.getLsbD 2 then s.wr (domRefused d) 0 else s
  let on := w.getLsbD 0
  let stop := w.getLsbD 1
  let change := on ≠ s.on (domBit d)
  if (change && s.powerRefused core d on) || (stop && decide (d < 16)) then s.wr (domRefused d) 1
  else
    let s := s.wr (domClkStop d) (b2n stop)
    let st := s.rd (domState d)
    let s := if st = 2 ∧ stop then s.wr (domState d) 3 else if st = 3 ∧ !stop then s.wr (domState d) 2 else s
    if change then s.requestPower d on else s

/-- The core that a write comes from. -/
def Src.core : Src → Option Nat
  | .hostCore c => some c.val
  | _ => none

/-- A command's write of PWR.DOM[d]. -/
def State.domCmd (s : State) (src : Src) (d : Nat) (w : Word) : Res :=
  if s.mayWrite src (0x1C0100 + 8 * d) && !s.fastStopped then .next (s.domWrite src.core d w) else .next s

/-- DOMAIN_POWER_ON (R444, R445): a write of PWR.DOM[d] with ON = 1. -/
def execDomainPowerOn (src : Src) (d : DomainId) (w : BitVec 32) (s : State) : Res := s.domCmd src d (w ||| 1#32)

/-- DOMAIN_POWER_OFF (R296, R444): a write of PWR.DOM[d] with ON = 0. -/
def execDomainPowerOff (src : Src) (d : DomainId) (w : BitVec 32) (s : State) : Res := s.domCmd src d (w &&& 0xFFFFFFFE#32)

/-- DOMAIN_CLOCK_STOP (R453): a write of PWR.DOM[d] whose CLK_STOP stops or restarts the clocks. -/
def execDomainClockStop (src : Src) (d : DomainId) (w : BitVec 32) (s : State) : Res := s.domCmd src d w

/-- DOMAIN_SWITCH_COMPLETE (R75, R445, R446): a domain that switches on or off ends doing so, and waiting requests of its rail are
taken. A core half that holds no line and whose evictions are acknowledged starts its switch-off here; lines that it has taken since are
evicted first (R296, R614). -/
def execDomainSwitchComplete (d : DomainId) (s : State) : Res :=
  let st := s.rd (domState d)
  let s := if st = 1 then s.domainOn d else if st = 4 then (s.domainOff d).wr (domState d) 0 else s
  let s := s.domQ.foldl (fun s q => if !q.2 && (decide (q.1 = 20) || decide (q.1 = 21)) then s.flushHalf q.1 else s) s
  .next (State.kickPower s.domQ [] s)

/-! Rails (R441 to R443). -/

/-- The order step of a rail (Table 16.1). -/
def railOrder (i : Nat) : Nat :=
  if i < 2 then 1 else if i = 2 then 2 else if i = 3 then 3 else if i = 4 then 4 else if i < 8 then 5 else if i = 8 then 6 else 7

/-- Is every rail that `p` picks up, and every one down? -/
def State.railsUp (s : State) (p : Nat → Bool) : Bool := (List.range 15).all fun i => !p i || s.on (railUp i)
def State.railsDown (s : State) (p : Nat → Bool) : Bool := (List.range 15).all fun i => !p i || s.on (railDown i)

/-- Sets what a rail reads: its level 0 down, 1 between the thresholds, 2 up. -/
def State.setRail (s : State) (i lvl : Nat) : State := (s.wr (railUp i) (b2n (lvl = 2))).wr (railDown i) (b2n (lvl = 0))

/-- Where the clean power-down mark lies in the strongroom (log entry 22). -/
def pdMark : Nat := 0x440010

/-- Journal slots that are PENDING, written to their targets in order (R571). -/
def State.replay (s : State) : State :=
  { s with strong := s.strongNow, journal := [] }

/-- "Supply order violated", naming the first rail out of order and the step it broke; the hold of R442. -/
def State.supplyViolated (s : State) (i : Nat) : State :=
  if s.on seqViolated then s
  else
    let s := ((s.wr seqViolated 1).wr seqRail i).wr seqStep (railOrder i)
    let s := s.raise 0x0800 12 i (detailOf [(1, i), (1, railOrder i)])
    if s.starting then s.stopStart 1 else s.holdFast

/-- At the beginning of a power-up: without the mark of the last power-down, "power-down not observed" (R443). The mark is used up. -/
def State.checkMark (s : State) : State :=
  let m := (s.replay).strong
  let s := if readByte m pdMark = 0#8 then (s.wr seqUnobserved 1).raiseWith true 0x0802 0 0 [] else s.wr seqUnobserved 0
  { s.commit pdMark [0#8] with pdBroken := false }

/-- Words whose reset value is fused or comes from the strongroom, which package reset and a cold start reload (Tables 23.2, 23.6). -/
def keptWord (a : Nat) : Bool :=
  decide (a < 0x100) || decide (0x103100 ≤ a ∧ a < 0x1031E0) || decide (a = 0x140004) || decide (a = 0x140008) ||
    decide (a = 0x180004) || decide (0x180200 ≤ a ∧ a < 0x180400) || decide (0x49000 ≤ a ∧ a < 0x49300) ||
    decide (a = 0x440008) || decide (a = 0x44000C) || decide (0x440020 ≤ a ∧ a < 0x44002C) || decide (0x442000 ≤ a ∧ a < 0x444000) ||
    decide (0x4C0100 ≤ a ∧ a < 0x4C0208) ||
    decide (0x1000000 ≤ a ∧ a < 0x1C00000 ∧ 0x4000 ≤ (a - 0x1000000) % 0x8000 ∧ a % 0x100 = 8)

/-- STAT.CORE returns to its reset but for the maxima. -/
def State.resetCores (s : State) : State :=
  (s.regs.filter fun e => decide (0x49000 ≤ e.1 ∧ e.1 < 0x49300) && decide (e.1 % 8 = 0)).foldl (fun s e =>
    (s.wr ⟨e.1, 0, 12⟩ 2400).wr ⟨e.1, 28, 2⟩ 0) s

/-- The rows that have been repaired, which the strongroom records (R264, R616). -/
def State.repairedRows (s : State) : List (Nat × CRow) :=
  (s.rows.filter fun q => q.2.repaired).map fun q => (q.1, ⟨0, 0, true⟩)

/-- What outlives VDD_AON: the strongroom with its journal, flash, the hosts' memories, fuses, and the rails themselves. -/
def State.coldStart (s : State) : State :=
  State.resetCores { State.reset with
    pending := s.pending, freeCtr := s.freeCtr, strong := s.strong, journal := s.journal, flash := s.flash, chips := s.chips,
    hostA := s.hostA, hostB := s.hostB, rows := s.repairedRows, hardDone := s.hardDone, bankUsed := s.bankUsed,
    regs := s.regs.filter fun e => keptWord e.1 || decide (0x1C0010 ≤ e.1 ∧ e.1 < 0x1C004C) }

/-- Package reset (R529, R596): every switched domain off, every register at reset but those of Table 23.6, both fault queues and
the overflow counters cleared. Memory contents, the strongroom, the counter, the rails, the clocks' presence, a supply violation and
the pins that others drive stay. A hold is released unless PILOT_CLK is still gone or the supplies are wrong (R442, R448). -/
def State.packageReset (s : State) : State :=
  let epochs := (List.range 32).map fun k => s.rd (ringEpoch k)
  let stay := (s.on pwrOnInternal && !s.on pilotOk) || s.on seqViolated
  let osc := s.on pwrOnInternal && !s.on pilotOk
  let live := fun (a : Nat) => decide (0x1C0000 ≤ a ∧ a < 0x1C004C) || decide (a = 0x1C0200)
  let s' : State := { State.reset with
    pending := s.pending, freeCtr := s.freeCtr, plt := s.plt, cellar := s.cellar, shelf := s.shelf, hostA := s.hostA, hostB := s.hostB,
    strong := s.strong, journal := s.journal, flash := s.flash, chips := s.chips, burstPoison := s.burstPoison, symErr := s.symErr,
    retired := s.retired, rows := s.repairedRows, hardDone := s.hardDone, bankUsed := s.bankUsed, msixOut := s.msixOut, pdBroken := s.pdBroken, fastStopped := stay,
    pins := { State.reset.pins with tap := s.pins.tap, cells := s.pins.cells, mgtLock := s.pins.mgtLock },
    hports := s.hports.foldl (fun m q => putMap HPort.fresh m q.1 { HPort.fresh with perst := q.2.perst }) [],
    regs := s.regs.filter fun e => keptWord e.1 || live e.1 }
  let s' := (s'.resetCores.wr govAlert (s.rd govAlert)).wr pwrOnInternal (b2n osc)
  let s' := [(10, 800), (11, 750), (12, 750), (13, 750), (14, 750)].foldl (fun s q => s.wr (railSet q.1) q.2) s'
  ((List.range 32).zip epochs).foldl (fun s q => s.wr (ringEpoch q.1) q.2) s'

/-- The start begins at stage 2 at t0: PKG_RESET_N released, every rail up in order and PILOT_CLK there (R521, R600). -/
def State.tryT0 (s : State) : State :=
  if s.pins.resetReleased && s.t0.isNone && s.railsUp (fun _ => true) && s.on pilotOk && !s.fastStopped && !s.on seqViolated then
    State.wr { s with t0 := some s.plt } pklStage 2
  else s

/-- RAIL_TRANSITION (R441 to R443, R571): rail `i` reaches a level: 0 down, 1 between the thresholds, 2 up. -/
def execRailTransition (i : Fin 15) (lvl : Fin 3) (s : State) : Res :=
  let was := if s.on (railUp i) then 2 else if s.on (railDown i) then 0 else 1
  if was = lvl.val then .next s
  else if i.val = 0 then
    if lvl.val = 2 then
      -- the always-on domain wakes: pending commits are replayed and the counter starts at 0
      let s : State := (s.setRail 0 2).replay
      let s := { s with plt := 0 }
      if s.railsDown fun j => decide (2 ≤ railOrder j) then .next s else .next (s.checkMark.supplyViolated 0)
    else .next ((s.coldStart).setRail 0 lvl)
  else if !s.on (railUp 0) then .next (s.setRail i lvl)
  else
    let others := fun (j : Nat) => decide (2 ≤ railOrder j) && decide (j ≠ i.val)
    let first := decide (was = 0) && decide (2 ≤ railOrder i) && s.railsDown fun j => decide (2 ≤ railOrder j)
    let s := if first then s.checkMark else s
    let s :=
      if was = 0 ∧ !s.railsUp (fun j => decide (railOrder j < railOrder i)) then s.supplyViolated i
      else if was = 2 ∧ !s.on seqViolated ∧ !s.pdBroken ∧ !s.railsDown (fun j => decide (railOrder i < railOrder j)) then
        { s.raiseWith true 0x0801 12 i (detailOf [(1, i.val), (1, railOrder i)]) with pdBroken := true }
      else s
    let s := s.setRail i lvl
    let lastDown := decide (lvl.val = 0) && decide (2 ≤ railOrder i) && s.railsDown others
    if lastDown then
      let s := if s.pdBroken || s.on seqViolated then s else s.commit pdMark [1#8]
      -- every rail but VDD_AON and VIO18 is down: the hold of R442 ends, and the device starts as if newly powered
      if s.on seqViolated then
        let trip := s.pins.thermTrip
        let s : State := { s.packageReset with pins := { s.packageReset.pins with thermTrip := trip, resetReleased := s.pins.resetReleased } }
        let s := ((s.wr seqViolated 0).wr seqRail 0).wr seqStep 0
        .next { s with fastStopped := trip || (s.on pwrOnInternal && !s.on pilotOk) }
      else .next s
    else .next s.tryT0

/-! Clocks (R448, R449). -/

/-- PILOT_LIGHT_LOSS (R448): no edge of PILOT_CLK for 2 µs. -/
def execPilotLightLoss (s : State) : Res :=
  if !s.on (railUp 0) || !s.on pilotOk then .next s
  else
    let s := s.raise 0x0803 0 0 []
    let s := (s.wr pilotOk 0).wr pwrOnInternal 1
    let s := (s.loseGuarantee 6 0 fun _ => true).syncCauses 0
    .next (s.stopFor (some 2))

/-- PILOT_LIGHT_RETURN (R448): edges of PILOT_CLK are there again; only PKG_RESET_N releases the hold. -/
def execPilotLightReturn (s : State) : Res := if s.on (railUp 0) then .next (s.wr pilotOk 1).tryT0 else .next s

/-- A SerDes reference clock: of host port 0 or 1, or 2 + i for FAB_REFCLK[i] (Table 16.3). -/
def refOk (i : Nat) : Fld := ⟨0x1C0200, 2 + i, 1⟩

/-- SERDES_REFCLK_LOSS (R449). -/
def execSerdesRefclkLoss (i : Fin 4) (s : State) : Res :=
  if !s.on (refOk i) then .next s
  else
    let s := s.wr (refOk i) 0
    if i.val < 2 then .next (if s.on (hpLinkUp i) then s.losePath i else s)
    else .next ((List.range 8).foldl (fun s j =>
      let p := 8 * (i.val - 2) + j
      if s.rd (fabState p) = 6 then s.portDown p else (s.setPortState p 0).clearTrained p) s)

/-- SERDES_REFCLK_RETURN (R449): the clock is there again and its links can train. -/
def execSerdesRefclkReturn (i : Fin 4) (s : State) : Res := if s.on (railUp 0) then .next (s.wr (refOk i) 1) else .next s

/-! The hang watch (R454). -/

/-- HANG_WATCH_FIRE (R454): a request of the unit (kind, index) has waited for PWR.HANG.LIMIT at a crossing into a domain, or into crate
t − 64, whose clock is stopped. The request is never delivered, and the requester is blocked until its reset. -/
def execHangWatchFire (crossing : BitVec 16) (kind : Fin 16) (index : Nat) (t : Nat) (s : State) : Res :=
  if !s.clockStopped t then .next s
  else
    let unit := kind.val * 2 ^ 24 + index % 2 ^ 24
    let dom := if 64 ≤ t then 31 else t
    let s := s.raiseWith true 0x0804 kind (index % 2 ^ 24) (detailOf [(2, crossing.toNat), (4, unit), (1, dom)])
    let s := s.bump hangCount
    let s := (s.setReg 0x1C0218 (BitVec.ofNat 32 (crossing.toNat + 2 ^ 16 * dom))).setReg 0x1C021C (BitVec.ofNat 32 s.plt)
    if kind.val = 9 then
      .next { s with held := s.held.filter fun h => decide (h.dom ≠ t) || decide (h.unit ≠ unit),
                     bar0Blocked := if t ∈ s.bar0Blocked then s.bar0Blocked else s.bar0Blocked ++ [t] }
    else .next { s with held := s.held.filter fun h => decide (h.dom ≠ t) || decide (h.unit ≠ unit),
                        blocked := if unit ∈ s.blocked then s.blocked else s.blocked ++ [unit] }

/-! Unit resets (R451, R452, R454, R617). -/

/-- Resets a crate under PWR.URST: tiles held, the crate window at reset with the exceptions of R617. -/
def State.resetCrate (s : State) (c : Nat) : State :=
  let s := (s.holdTiles fun x => decide (x = c)).sideReset fun u => decide (u / 64 = c)
  let s : State := { s with tiles := s.tiles.foldl (fun m q =>
    if q.1 / 64 = c then
      putMap Tile.fresh m q.1 { Tile.fresh with lines := q.2.lines, eccErr := q.2.eccErr, wayDis := q.2.wayDis }
    else putMap Tile.fresh m q.1 q.2) [] }
  let s := (s.resetWindows (fun x => decide (x = c)) true).setCrate c Crate.fresh
  let s := s.syncLimit c
  let s := s.unblock fun b => (decide (b / 2 ^ 24 = 1) && decide (b % 2 ^ 24 / 64 = c)) || decide (b = 2 * 2 ^ 24 + c)
  s.freeBar0 fun b => decide (b = 64 + c)

/-- A write of PWR.URST (Table 16.11); values out of range are ignored. -/
def State.urstWrite (s : State) (w : Word) : State :=
  let kind := w.toNat % 4
  let i := w.toNat / 65536
  if kind = 1 then (if i < 384 && s.crateOn i then s.resetCrate i else s)
  else if kind = 2 then
    if i < 96 && s.domPowered (20 + i / 48) then
      -- the core starts again from its reset; its L2 keeps its lines, its reservation is gone, and no answer awaits it (R451)
      let s : State := { s with
        hcores := s.hcores.filter fun q => decide (q.1 ≠ i)
        creqs := s.creqs.filter fun q => !(decide (q.core = i) && decide (q.stage = 3)) }
      let s := if s.rd (coreState i) = 2 then s else s.wr (coreState i) 0
      s.unblock fun b => decide (b = 10 * 2 ^ 24 + i)
    else s
  else if kind = 3 then
    if i < 2 && s.domPowered (28 + i) then
      ((s.collReset i).unblock fun b => decide (b = 14 * 2 ^ 24 + i)).freeBar0 fun b => decide (b = 28 + i)
    else s
  else s

/-- A command's write of PWR.URST with the given KIND. -/
def State.urstCmd (s : State) (src : Src) (kind : Nat) (index : BitVec 16) : Res :=
  if s.mayWrite src 0x1C0220 && !s.fastStopped then .next (s.urstWrite (BitVec.ofNat 32 (kind + 65536 * index.toNat))) else .next s

/-- URST_CRATE (R454, R617). -/
def execUrstCrate (src : Src) (index : BitVec 16) (s : State) : Res := s.urstCmd src 1 index

/-- URST_CORE (R454). -/
def execUrstCore (src : Src) (index : BitVec 16) (s : State) : Res := s.urstCmd src 2 index

/-- URST_COLL_ENGINE (R454). -/
def execUrstCollEngine (src : Src) (index : BitVec 16) (s : State) : Res := s.urstCmd src 3 index

end Sys2Proof.Machine
end

