-- ==== Sys2Proof/Machine/SelfTest.lean ====
section
/-! DEFINITION. Units that fail, and self-test slices (R264, R435, R483, R575, R576, Tables 21.7, 21.12). -/
namespace Sys2Proof.Machine

/-! Registers of BIST (Table 21.12). -/
def bistIdleEn : Fld := ⟨0x480000, 8, 1⟩
def bistRuns : Fld := ⟨0x480008, 0, 32⟩
def bistFails : Fld := ⟨0x48000C, 0, 32⟩

/-- The number of units of a slice kind (R576). -/
def sliceUnits (kind : Nat) : Nat :=
  if kind = 0 then 384 else if kind = 1 then 640 else if kind = 2 then 68 else if kind = 3 then 16 else if kind = 4 then 12 else 0

/-- The unit kind of Table 21.2 that a slice kind tests. -/
def sliceUnitKind (kind : Nat) : Nat :=
  if kind = 0 then 2 else if kind = 1 then 5 else if kind = 2 then 7 else if kind = 3 then 8 else 11

/-- The dies on which a unit lies, numbered as SEAM.DIE; a bundle joins two. -/
def sliceDies (kind i : Nat) : List Nat :=
  if kind = 0 then [i / 96] else if kind = 1 then [i / 160]
  else if kind = 2 then (let p := seamDies i; [p.1, p.2]) else if kind = 3 then [5 + i / 8] else [4]

/-- A crate is reported failed: its tiles stay held, its clock is off, it is offline, and the device asks to be replaced (R575, R577). -/
def State.failCrate (s : State) (c : Nat) : State :=
  if s.offline 2 c then s
  else
    let s := (List.range 64).foldl (fun s i => if s.on (tHold (64 * c + i)) then s else s.holdTile (64 * c + i)) s
    let s := (s.wr (crOff c) 1).wr (crateStopped c) 1
    (((s.wr (offlineFld 2 c) 1).setReplace 0)).condChange

/-- What the failure of a unit does (R575). `bad` names what failed in it: (direction, lane) of a bundle, (0, lane) of a port,
(0, core) of a cluster by its place in it. -/
def State.failUnit (s : State) (kind i : Nat) (bad : List (Nat × Nat)) : State :=
  if kind = 0 then s.failCrate i
  else if kind = 1 then s.channelOffline (i / 32) (i % 32)
  else if kind = 2 then
    -- the bundle retrains on its passing lanes and takes the width that R331 allows, or goes down (R339)
    let x := s.seam i
    let add := fun (d : Nat) (y : SeamDir) =>
      let new := (bad.filter fun q => decide (q.1 = d) && decide (q.2 ∉ y.bad)).map (·.2)
      { y with bad := y.bad ++ new }
    let s := s.setSeam i { x with ab := add 0 x.ab, ba := add 1 x.ba }
    if s.rd (seamState i) = 4 then s
    -- a control bundle with a standby gives up its role first (R341)
    else if s.rd (seamRole i) = 1 ∧ s.rd (seamStandby i) ≠ 0x7F then s.wr (seamState i) 3
    else s.wr (seamState i) 2
  else if kind = 3 then
    let x := s.fport i
    let out := (List.range 4).filter fun l => decide (l ∈ x.lanesOut) || bad.any fun q => decide (q.2 = l)
    let s := s.setFport i { x with lanesOut := out }
    if out.length = 4 then
      let s := s.wr (offlineFld 8 i) 1
      if s.rd (fabState i) = 6 then s.portDown i else s
    else if s.rd (fabState i) = 6 then s.retrainPort i else s
  else
    let s := (bad.filter fun q => decide (q.2 < 8)).foldl (fun s q => s.wr (coreState (8 * i + q.2)) 2) s
    if (List.range 8).all fun j => decide (s.rd (coreState (8 * i + j)) = 2) then s.wr (offlineFld 11 i) 1 else s

/-- The effect of a management write that sets the forced mark of a unit: at once for crates, channels, bundles and ports, with the
effect of the failure; for clusters at the next start (R577). -/
def State.forceUnit (s : State) (kind i : Nat) : State :=
  if kind = 0 then s.failCrate i
  else if kind = 1 then s.failUnit 1 i []
  else if kind = 2 then (s.failUnit 2 i ((List.range 68).flatMap fun l => [(0, l), (1, l)])).wr (offlineFld 7 i) 1
  else if kind = 3 then s.failUnit 3 i ((List.range 4).map fun l => (0, l))
  else s

/-! Slices. -/

/-- Begins a slice. -/
def State.beginSlice (s : State) (x : Slice) : State :=
  let s : State := { s with sliceFirst := if x.kind = 0 then s.sliceFirst.filter (fun c => decide (c ≠ x.index)) else s.sliceFirst }
  State.showSlices { s with slices := s.slices ++ [x] }

/-- Writes back and invalidates the cache lines of a crate's shelves, whose cache ways an idle slice tests (R205). A line whose home must
wait stays held, and the answer is then true. -/
def State.emptyCaches (s : State) (c : Nat) : Bool × State :=
  (s.tiles.filter fun q => decide (q.1 / 64 = c)).foldl (fun b q =>
    q.2.lines.foldl (fun b l =>
      let r := b.2.cleanInvLine q.1 (l.1 % 12) (l.1 / 12)
      if r.1 = stWAIT then (true, b.2) else (b.1, r.2)) b) (false, s)

/-- Is a unit idle enough for an idle slice (R576, Table 21.7)? How long it has been idle is the environment's. -/
def State.unitIdle (s : State) (kind i : Nat) : Bool :=
  !s.offline (sliceUnitKind kind) i &&
    if kind = 0 then s.crateOn i && !s.crateTraffic i && (List.range 64).all fun j => s.on (tParked (64 * i + j)) || s.tileIdle (64 * i + j)
    else if kind = 1 then s.celLive (i / 32) && s.on (celReady (i / 32)) && !s.on (tgBusy i)
    else if kind = 2 then decide (s.rd (seamRole i) = 0) && decide (s.rd (seamState i) = 0)
    else kind = 3 && s.domOn (23 + i / 8) && decide (s.rd (fabState i) ≠ 6)

/-- IDLE_SLICE_START (R576): an idle-window slice starts on a unit. Crates with a residue mismatch go before other crates; which unit
comes next otherwise is the environment's (log entry 40). -/
def execIdleSliceStart (kind : Fin 4) (index : Nat) (s : State) : Res :=
  let die := sliceDies kind index
  let allowed := decide (index < sliceUnits kind) && s.pins.devReady && s.on bistIdleEn && s.planRun.isNone && s.tear.isNone &&
    !(s.jobAdmitted && bitAt s.job.flags 0) && s.unitIdle kind index && !s.sliceOn kind index &&
    !(s.slices.any fun x => x.idle && (sliceDies x.kind x.index).any fun d => decide (d ∈ die)) &&
    (decide (kind.val ≠ 0) || decide (index ∈ s.sliceFirst) || !(s.sliceFirst.any fun c => s.unitIdle 0 c))
  if allowed then
    let r := if kind.val = 0 then s.emptyCaches index else (false, s)
    -- the slice of a crate starts once every held line has reached its home
    .next (if r.1 then r.2 else r.2.beginSlice ⟨kind, index, true, false, none, s.plt⟩)
  else .next s

/-- The cluster that runs the resident driver: the lowest that is not offline (Table 19.1, stage 5). -/
def State.driverCluster (s : State) : Nat := ((List.range 12).find? fun i => !s.offline 11 i).getD 12

/-- BIST (R576): runs the start slice of one unit. -/
def execBist (n : Nat) (s : State) : Res :=
  s.startCmd n 0x50 fun c s =>
    let kind := c.fld 24 1
    let i := c.fld 26 2
    if s.jobAdmitted then .next (s.endCmd c 5 0x0501)
    else if sliceUnits kind ≤ i || s.offline (sliceUnitKind kind) i then .next (s.endCmd c 5 0x0502)
    else if kind = 4 ∧ i = s.driverCluster then .next (s.endCmd c 5 0x0503)
    else if s.sliceOn kind i then .next s
    else .next ((s.noteCmd c 2).beginSlice ⟨kind, i, false, false, some (c.ring, c.seq), s.plt⟩)

/-- What a slice leaves behind when its unit is re-initialised: a start slice of a crate has tested every shelf way and register, and one
of a channel has overwritten its first and last 4,096 rows (Table 21.7). `bad` of a crate names the shelf ways, as (tile, way), that
its start slice disables, besides those that are (R221). -/
def State.reinit (s : State) (x : Slice) (bad : List (Nat × Nat)) : State :=
  if x.idle then s
  else if x.kind = 0 then
    let c := x.index
    let mine := fun (y : Nat) => decide (y = c)
    let s := (s.holdTiles mine).resetWindows mine false
    let s : State := { s with
      regs := s.regs.filter fun e => !(decide (tileTallyBase ≤ e.1) && decide ((e.1 - tileTallyBase) / 0x1000 / 64 = c)),
      tiles := s.tiles.filter fun q => decide (q.1 / 64 ≠ c), crates := s.crates.filter fun q => decide (q.1 ≠ c),
      shelf := s.shelf.filter fun b => decide (b.1 / 0x40000 / 64 ≠ c) }
    let s := (List.range 64).foldl (fun s i =>
      let ways := (bad.filter fun q => decide (q.1 = i) && decide (q.2 < 12)).foldl (fun m q => Nat.lor m (2 ^ q.2)) 0
      s.wr (shDisabled (64 * c + i)) (Nat.lor (s.rd (shDisabled (64 * c + i))) ways)) s
    s.syncLimit c
  else if x.kind = 1 then
    (s.zeroRows (x.index / 32) (x.index % 32) 0 4095).zeroRows (x.index / 32) (x.index % 32) 782336 786431
  else if x.kind = 4 then
    let s := (s.l2.filter fun q => decide (q.1 / 2 ^ 36 / 8 = x.index)).foldl (fun s q => s.evictLine (q.1 / 2 ^ 36) (q.1 % 2 ^ 36)) s
    { s with hcores := s.hcores.filter fun q => decide (q.1 / 8 ≠ x.index) }
  else s

/-- A slice's run has ended with a signature; `ok` says whether it passed. The first failure is followed by another run at once, the
second fails the unit (R575). -/
def State.sliceEnds (s : State) (x : Slice) (ok : Bool) (sig expected : Nat) (bad : List (Nat × Nat)) : State :=
  let s := (s.setReg64 0x480018 sig).setReg64 0x480020 expected
  if !ok && !x.again then
    { s with slices := s.slices.map fun y => if y = x then { x with again := true, start := s.plt } else y }
  else
    let ticks := (s.plt - x.start) % 2 ^ 32
    let s := (s.closeSlice x (b2n !ok)).reinit x bad
    let s := if ok then s else
      ((s.bump bistFails).raise 0x0A00 (sliceUnitKind x.kind) x.index (detailOf [(8, sig), (8, expected)])).failUnit x.kind x.index bad
    match x.cmd.bind s.cmdOf with
    | none => s
    | some c => s.endCmd { c with detail := toBytes 4 (b2n !ok) ++ toBytes 8 sig ++ toBytes 4 ticks } 3 0

/-- SLICE_COMPLETE (R575): a slice of a unit ends with a signature, to be compared with the one that the tile firmware expects. An idle
channel slice has ECC as its only comparator, and passes unless `bad` names an error (Table 21.7). -/
def execSliceComplete (kind : Fin 5) (index : Nat) (sig expected : BitVec 64) (bad : List (Nat × Nat)) (s : State) : Res :=
  match s.slices.find? fun x => decide (x.kind = kind.val) && decide (x.index = index) with
  | none => .next s
  | some x =>
    let ecc := x.idle && decide (kind.val = 1)
    let ok := if ecc then bad.isEmpty else decide (sig = expected)
    .next ((s.bump bistRuns).sliceEnds x ok sig.toNat (if ecc then 0 else expected.toNat) bad)

/-- SLICE_TIMEOUT (R575): a slice has not ended within 4 times its budget; it has no signature, and LAST.SIG is free. -/
def execSliceTimeout (kind : Fin 5) (index : Nat) (expected : BitVec 64) (bad : List (Nat × Nat)) (s : State) : Res :=
  match s.slices.find? fun x => decide (x.kind = kind.val) && decide (x.index = index) with
  | none => .next s
  | some x =>
    let d := s.draw
    .next (d.2.sliceEnds x false (d.1 % 2 ^ 64) (if x.idle && decide (kind.val = 1) then 0 else expected.toNat) bad)

end Sys2Proof.Machine
end

