-- ==== Sys2Proof/Machine/Gov.lean ====
section
/-! DEFINITION. The power governor (R456 to R485): cap, reservations, phase hints and signatures, the control interval, alerts and
the lowest state, droop, heat and ageing. -/
namespace Sys2Proof.Machine

/-! Registers (Tables 17.5 to 17.10). -/
def capW : Fld := ⟨0x180000, 0, 16⟩
def capReq : Fld := ⟨0x180000, 16, 16⟩
def capPl : Fld := ⟨0x180004, 0, 16⟩
def capBase : Fld := ⟨0x180004, 16, 16⟩
def govHold : Fld := ⟨0x180008, 5, 1⟩
def govCapWaiting : Fld := ⟨0x180008, 6, 1⟩
def govCapRefused : Fld := ⟨0x180008, 7, 1⟩
def govResvRefused : Fld := ⟨0x180008, 8, 1⟩
def govBoundRefused : Fld := ⟨0x180008, 9, 1⟩
def govTelLost : Fld := ⟨0x180008, 10, 1⟩
def hintTag : Fld := ⟨0x180010, 0, 16⟩
def hintClass : Fld := ⟨0x180010, 16, 2⟩
def hintColl : Fld := ⟨0x180010, 18, 1⟩
def hintPower : Fld := ⟨0x180014, 0, 16⟩
def hintDur : Fld := ⟨0x180014, 16, 16⟩
def ceilPct : Fld := ⟨0x180018, 0, 8⟩
def ceilMin : Fld := ⟨0x180018, 8, 8⟩
def thermLimit : Fld := ⟨0x180024, 0, 8⟩
def thermTripC : Fld := ⟨0x180024, 8, 8⟩
def boundMin (k : Nat) : Fld := ⟨0x180040 + 8 * k, 0, 12⟩
def boundMax (k : Nat) : Fld := ⟨0x180040 + 8 * k, 16, 12⟩
def grpEst (g : Nat) : Fld := ⟨0x180080 + 8 * g, 0, 16⟩
def grpBudget (g : Nat) : Fld := ⟨0x180080 + 8 * g, 16, 16⟩
def grpResv (g : Nat) : Fld := ⟨0x180084 + 8 * g, 0, 16⟩
def govAlerts : Fld := ⟨0x180180, 0, 32⟩
def govLowTicks : Fld := ⟨0x180184, 0, 32⟩
def govDroops : Fld := ⟨0x180188, 0, 32⟩
def govFrozen : Fld := ⟨0x180190, 0, 32⟩
def govClips : Fld := ⟨0x180194, 0, 32⟩
def govHolds : Fld := ⟨0x180198, 0, 32⟩
def govHoldDenied : Fld := ⟨0x18019C, 0, 32⟩
def crTemp (c : Nat) : Fld := ⟨crateReg c 0x30, 16, 8⟩
def crDroops (c : Nat) : Fld := ⟨crateReg c 0x34, 0, 32⟩
def sigTag (i : Nat) : Fld := ⟨0x180400 + 16 * i, 0, 16⟩
def sigClass (i : Nat) : Fld := ⟨0x180400 + 16 * i, 16, 2⟩
def sigValid (i : Nat) : Fld := ⟨0x180400 + 16 * i, 18, 1⟩
def sigUses (i : Nat) : Fld := ⟨0x180400 + 16 * i, 24, 8⟩
/-- NEED_T, NEED_H, NEED_C and NEED_F for j = 0 to 3 (Table 17.6). -/
def sigNeed (i j : Nat) : Fld := ⟨0x180404 + 16 * i + 4 * (j / 2), 16 * (j % 2), 16⟩
def sigDur (i : Nat) : Fld := ⟨0x18040C + 16 * i, 0, 32⟩

/-! The issue limit and the software floors (R138, R469, R472, R474, R480). -/

/-- The issue limit that holds for a crate. -/
def State.issueTarget (s : State) (c : Nat) : Nat :=
  if s.on govLowest then 1
  else
    let k := lookMap 16 s.gov.kSet c
    let k := if s.on (crDroopActive c) then min k 4 else k
    if s.on (crThrottle c) then min k 8 else k

/-- Hands a crate its issue limit, which takes effect at the next frame boundary (R136). -/
def State.pushK (s : State) (c : Nat) : State := s.setCrate c { s.crate c with pendK := some (s.issueTarget c) }

/-- Why a setting is below a software floor now, if it is: the floor's value, its width in bytes and the cause (0 lowest state, 1 droop
response, 2 thermal response, 3 cap; log entry 42). A floor is a crate's ISSUE.FLOOR, 1000 + k for GOV.BOUND[k].FMIN_MHZ, or 2000 for
GOV.CEIL.MIN_PCT. -/
def State.clipCause (s : State) (f : Nat) : Option (Nat × Nat × Nat) :=
  let capped := decide (f ∈ s.gov.capped)
  if f < 384 then
    if s.crateOn f && decide (s.issueTarget f < s.rd (issueFloor f)) then
      if s.on govLowest then some (s.rd (issueFloor f), 1, 0)
      else if s.on (crDroopActive f) then some (s.rd (issueFloor f), 1, 1)
      else if s.on (crThrottle f) then some (s.rd (issueFloor f), 1, 2)
      else if capped then some (s.rd (issueFloor f), 1, 3)
      else none
    else none
  else if f < 1005 then
    let k := f - 1000
    let fmin := s.rd (boundMin k)
    if k < 4 then
      if s.on govLowest && s.domOn (16 + k) then some (fmin, 2, 0)
      else if decide (700 < fmin) && ((List.range 96).any fun i => s.on (crThrottle (96 * k + i))) then some (fmin, 2, 2)
      else if capped then some (fmin, 2, 3)
      else none
    else if s.on govLowest && s.domOn 22 then some (fmin, 2, 0)
    else if 2400 < fmin && !s.gov.hot.isEmpty then some (fmin, 2, 2)
    else if capped then some (fmin, 2, 3)
    else none
  else
    let m := s.rd ceilMin
    if s.on govLowest && decide (25 < m) then some (m, 1, 0) else if capped && decide (s.gov.ceil < m) then some (m, 1, 3) else none

/-- The unit that a floor's record names. -/
def clipUnit (f : Nat) : Nat × Nat := if f < 384 then (2, f) else if f < 1005 then (4, f - 1000) else (0, 0)

/-- Brings the floors that are clipped up to date: each one that begins to be is counted and reported once (R469). -/
def State.clipSync (s : State) : State :=
  let fs := List.range 384 ++ [1000, 1001, 1002, 1003, 1004, 2000]
  let now := fs.filterMap fun f => (s.clipCause f).map fun q => (f, q)
  let s' := now.foldl (fun s q =>
    if q.1 ∈ s.gov.clipped then s
    else
      let u := clipUnit q.1
      (s.bump govClips).raise 0x0806 u.1 u.2 (detailOf [(q.2.2.1, q.2.1), (1, Config.clipCode q.2.2.2 % 256)])) s
  { s' with gov := { s'.gov with clipped := now.map (·.1) } }

/-! The cap and reservations (R462 to R464, R477). -/

/-- The sum of the reservations, in units of 0.125 W. -/
def State.resvSum (s : State) : Nat := (List.range 18).foldl (fun n g => n + s.rd (grpResv g)) 0

/-- A cap change takes effect; a SET_CAP that asked for it ends DONE. -/
def State.takeCap (s : State) (q : CapReq) : State :=
  let s := if s.rd capW = q.w then s else (s.wr capW q.w).condChange
  match q.cmd.bind s.cmdOf with
  | none => s
  | some c => s.endCmd { c with detail := toBytes 2 q.w ++ toBytes 4 ((s.plt - q.since) / 25) ++ [0#8] } 3 0

/-- A request for a cap in force of `w` watts: the error that refuses it, or none when it is accepted and takes effect or waits (R462,
R477). An earlier SET_CAP that waits is superseded by a later one (R464). -/
def State.askCap (s : State) (w : Nat) (cmd : Option (Nat × Nat)) : Option Nat × State :=
  if w < 300 ∨ s.rd capPl < w then (some 0x0301, s.wr govCapRefused 1)
  else if 8 * w < 8 * s.rd capBase + s.resvSum then (some 0x0302, s.wr govCapRefused 1)
  else if s.on govHold then
    let old := if cmd.isSome then s.gov.capWait.filter fun q => q.cmd.isSome else []
    let s := old.foldl (fun s q =>
      match q.cmd.bind s.cmdOf with
      | none => s
      | some c => s.endCmd { c with
          detail := toBytes 2 (s.rd capW) ++ toBytes 4 ((s.plt - q.since) / 25) ++ [1#8] } 3 0) s
    let keep := s.gov.capWait.filter fun q => decide (q ∉ old)
    (none, State.wr { s with gov := { s.gov with capWait := keep ++ [⟨w, cmd, s.plt⟩] } } govCapWaiting 1)
  else (none, s.takeCap ⟨w, cmd, s.plt⟩)

/-- A collective hold ends, and the waiting cap changes take effect in order (R477). -/
def State.endHold (s : State) : State :=
  if !s.on govHold then s
  else
    let q := s.gov.capWait
    let s := State.wr { s with gov := { s.gov with capWait := [] } } govHold 0
    q.foldl State.takeCap (s.wr govCapWaiting 0)

/-- SET_CAP (R462, R464, R477). -/
def execSetCap (n : Nat) (s : State) : Res :=
  s.startCmd n 0x30 fun c s =>
    match (s.noteCmd c 2).askCap (c.fld 24 2) (some (c.ring, c.seq)) with
    | (none, s1) => .next s1
    | (some e, _) => .next ((s.wr govCapRefused 1).endCmd c 5 e)

/-- A write of the low word of GOV.CAP (R462). -/
def State.capWrite (s : State) (w : Word) : State :=
  let req := w.toNat / 65536
  ((s.wr capReq req).askCap req none).2

/-- CAP_REQUEST_WRITE (R462). -/
def execCapRequestWrite (src : Src) (w : BitVec 32) (s : State) : Res :=
  if s.mayWrite src 0x180000 then .next (s.capWrite w) else .next s

/-- Does a reservation of `v` for group `g` fit under the cap in force (R463)? -/
def State.resvFits (s : State) (g v : Nat) : Bool :=
  decide (8 * s.rd capBase + (s.resvSum - s.rd (grpResv g)) + v ≤ 8 * s.rd capW)

/-- A write of GOV.GRP[g].RESV by a host core. -/
def State.resvWrite (s : State) (g : Nat) (w : Word) : State :=
  let v := w.toNat % 65536
  if g = 18 then s else if s.resvFits g v then s.wr (grpResv g) v else s.wr govResvRefused 1

/-- RESV_WRITE (R463): from any other source than the driver the write is ignored and flagged. -/
def execResvWrite (src : Src) (g : Fin 19) (w : BitVec 32) (s : State) : Res :=
  if src.isCore then .next (s.resvWrite g w) else .next (s.wr govResvRefused 1)

/-! Phase hints and the signature table (R466, R468, R477, R478). -/

/-- The valid signature entry of a (CLASS, TAG) pair. -/
def State.sigFind (s : State) (cls tag : Nat) : Option Nat :=
  (List.range 64).find? fun i => s.on (sigValid i) && decide (s.rd (sigClass i) = cls) && decide (s.rd (sigTag i) = tag)

/-- Makes an entry the most recently used. -/
def State.sigTouch (s : State) (i : Nat) : State := { s with gov := { s.gov with sigLru := i :: s.gov.sigLru.filter fun j => decide (j ≠ i) } }

/-- The entry that a new signature takes: the lowest that is not valid, else the least recently used. -/
def State.sigVictim (s : State) : Nat :=
  match (List.range 64).find? fun i => !s.on (sigValid i) with
  | some i => i
  | none => s.gov.sigLru.getLast?.getD 0

/-- A quotient whose rounding no rule states: exact where it comes out even, else one of the two whole numbers beside it, by the free value
`d` (log entry 43). -/
def nearQuot (n : Int) (k d : Nat) : Int := if n % k = 0 then n / k else n / k + ((d % 2 : Nat) : Int)

/-- Moves a learned value an eighth of the way to a measured one (R468). -/
def learn (old new d : Nat) : Nat := ((old : Int) + nearQuot ((new : Int) - (old : Int)) 8 d).toNat

/-- An average of a kept duration and a new one: a free value between the two (Table 17.6, log entry 43). -/
def averaged (old new d : Nat) : Nat := min old new + d % (max old new - min old new + 1)

/-- `n` free values. -/
def State.draws : Nat → State → List Nat × State
  | 0, s => ([], s)
  | n + 1, s => let q := State.draws n s.draw.2; (s.draw.1 :: q.1, q.2)

/-- The active hint ends: its signature entry is updated, or a new one is filled (R468), and a hold ends with it (R477). The averages are
those of the interval estimates within the hint; with no interval boundary in it they are free (log entry 43). -/
def State.endHint (s : State) : State :=
  match s.gov.hintAt with
  | none => s
  | some t =>
    let g := s.gov
    let q := State.draws 9 s
    let d := fun i => q.1.getD i 0
    let avg := fun (n i : Nat) => (if g.hintN ≠ 0 then (nearQuot n g.hintN (d i)).toNat else d i) % 65536
    let m := [avg g.hintT 0, avg g.hintH 1, avg g.hintC 2, avg g.hintF 3]
    let s := q.2
    let dur := (s.plt - t) / 25 % 2 ^ 32
    let cls := s.rd hintClass
    let tag := s.rd hintTag
    let s := match s.sigFind cls tag with
      | some i =>
        let s := (List.range 4).foldl (fun (s : State) j => s.wr (sigNeed i j) (learn (s.rd (sigNeed i j)) (m.getD j 0) (d (4 + j)))) s
        (s.wr (sigDur i) (averaged (s.rd (sigDur i)) dur (d 8))).sigTouch i
      | none =>
        let i := s.sigVictim
        let s := s.resetRegs (0x180400 + 16 * i) (0x180410 + 16 * i) fun _ => false
        let s := ((s.wr (sigTag i) tag).wr (sigClass i) cls).wr (sigValid i) 1
        let s := (List.range 4).foldl (fun (s : State) j => s.wr (sigNeed i j) (m.getD j 0)) s
        (s.wr (sigDur i) dur).sigTouch i
    State.endHold { s with gov := { s.gov with hintAt := none, hintT := 0, hintH := 0, hintC := 0, hintF := 0, hintN := 0 } }

/-- A hint begins: a matching entry is used, and COLL begins a hold unless the last one began within 10 ms (R466, R477, R478). -/
def State.startHint (s : State) : State :=
  let s : State := { s with gov := { s.gov with hintAt := some s.plt } }
  let s := match s.sigFind (s.rd hintClass) (s.rd hintTag) with
    | some i => (s.bump (sigUses i)).sigTouch i
    | none => s
  if s.on hintColl then
    let recent := match s.gov.lastHold with
      | some t => decide (s.plt < t + 250000)
      | none => false
    if recent then s.bump govHoldDenied
    else State.bump (State.wr { s with gov := { s.gov with lastHold := some s.plt } } govHold 1) govHolds
  else s

/-- A write of GOV.HINT: the hint in force ends and the written one begins (R466). -/
def State.hintWrite (s : State) (hi wide : Bool) (v : BitVec 64) : State :=
  ((s.endHint).plainWrites (if hi then 0x180014 else 0x180010) wide v).startHint

/-- The driver writes a whole hint: TAG, CLASS, COLL, POWER_W and DURATION in units of 16 µs (Table 17.7). -/
def State.putHint (s : State) (tag cls coll power dur : Nat) : State :=
  s.hintWrite false true (BitVec.ofNat 64 (tag % 2 ^ 16 + 2 ^ 16 * (cls % 4) + 2 ^ 18 * (coll % 2) + 2 ^ 32 * (power % 2 ^ 16) +
    2 ^ 48 * min dur 0xFFFF))

/-- GOV_HINT_WRITE (R466, R477, R478): a write of the low word, the high word or both of GOV.HINT. -/
def execGovHintWrite (src : Src) (hi wide : Bool) (v : BitVec 64) (s : State) : Res :=
  if s.mayWrite src 0x180010 && !(hi && wide) then .next (s.hintWrite hi wide v) else .next s

/-- PHASE_HINT (R466): the driver writes the hint. -/
def execPhaseHint (n : Nat) (s : State) : Res :=
  s.startCmd n 0x31 fun c s =>
    let s := s.putHint (c.fld 24 2) (c.fld 26 1 % 4) (c.fld 26 1 / 4) (c.fld 32 2) ((c.fld 28 4 + 15) / 16)
    match s.cmdOf (c.ring, c.seq) with
    | none => .next s
    | some c => .next (s.endCmd c 3 0)

/-- HINT_EXPIRY (R466, R468): DURATION, in units of 16 µs, has elapsed. -/
def execHintExpiry (s : State) : Res :=
  match s.gov.hintAt with
  | none => .next s
  | some t => if s.rd hintDur ≠ 0 ∧ t + 400 * s.rd hintDur ≤ s.plt then .next s.endHint else .next s

/-- COLL_HOLD_END (R477): a hold has lasted 2 ms. -/
def execCollHoldEnd (s : State) : Res :=
  match s.gov.lastHold with
  | none => .next s
  | some t => if s.on govHold && decide (t + 50000 ≤ s.plt) then .next s.endHold else .next s

/-! The control interval (R457 to R461, R467, R484). -/

/-- The rails that supply a group (Tables 16.1, 17.1). -/
def grpRails (g : Nat) : List Nat := if g < 16 then [11 + g / 4, 8] else if g = 16 then [10] else if g = 17 then [2, 4, 7] else [0, 1, 3, 5, 6, 9]

/-- Is a rail's regulator marked lost (R461)? -/
def State.railLost (s : State) (i : Nat) : Bool := decide (3 ≤ lookMap 0 s.gov.pmFails i)

/-- The miss charge of a hint for group `g` (Table 17.2): to the quadrants with unparked tiles in equal parts, or to the cellar. -/
def State.missCharge (s : State) (g : Nat) : Nat :=
  let w := 8 * s.rd hintPower
  if s.rd hintClass = 1 ∧ g < 16 then
    let qs := (List.range 16).filter fun q => s.domOn q && (List.range 384).any fun c =>
      decide (quadOfCrate c = q) && (List.range 64).any fun i => !s.on (tParked (64 * c + i))
    if g ∈ qs then w / qs.length else 0
  else if s.rd hintClass = 2 ∧ g = 17 then w
  else 0

/-- need[g] of R467 for a proposal: estimate `p`, groups held below their request, and how NEED_T is shared. -/
def State.needOf (s : State) (e : GovStep) (g : Nat) : Nat :=
  let p := e.est.getD g 0
  let p := if g ∈ e.low then p * 9 / 8 else p
  let h := if s.gov.hintAt.isNone then 0
    else match s.sigFind (s.rd hintClass) (s.rd hintTag) with
      | some i => if g < 16 then e.share.getD g 0 else if g = 16 then s.rd (sigNeed i 1) else s.rd (sigNeed i 2)
      | none => s.missCharge g
  max (max (s.rd (grpResv g)) p) h

/-- Sum of a list. -/
def total (l : List Nat) : Nat := l.foldl (· + ·) 0

/-- Do the needs exceed what the cap leaves (R467)? -/
def State.overCap (s : State) (e : GovStep) : Bool :=
  decide (8 * s.rd capW < e.est.getD 18 0 + total ((List.range 18).map (s.needOf e)))

/-- Are the budgets of an interval ones that R467 allows: never more than the cap in all; between reservation and need where power is
short, at least the need elsewhere; and the share of NEED_T whole? -/
def State.budgetsOk (s : State) (e : GovStep) : Bool :=
  let share := match s.sigFind (s.rd hintClass) (s.rd hintTag) with
    | some i => s.gov.hintAt.isNone || decide (total (e.share.take 16) ≤ s.rd (sigNeed i 0))
    | none => true
  share && decide (e.budgets.length = 19) && decide (total e.budgets ≤ 8 * s.rd capW) &&
    (List.range 18).all fun g =>
      let b := e.budgets.getD g 0
      if s.overCap e then decide (s.rd (grpResv g) ≤ b) && decide (b ≤ s.needOf e g) else decide (s.needOf e g ≤ b)

/-! Settings (R456, R457, R467, Table 17.1). A crate or core that a proposal does not name keeps its settings, moved into the software bounds
as fast as R457 lets them rise. -/

/-- The highest and the lowest frequency that the bounds leave a crate, in steps of 10 MHz. -/
def State.crateHi (s : State) (c : Nat) : Nat :=
  if quadOfCrate c ∈ s.gov.newOn then 700 else max 700 (min (min 880 (s.crateLimit c)) (s.rd (boundMax (c / 96))) / 10 * 10)
def State.crateLo (s : State) (c : Nat) : Nat := min (s.crateHi c) ((s.rd (boundMin (c / 96)) + 9) / 10 * 10)

/-- The issue limit and the frequency that a crate has without a proposal: never below the floors for longer than R457 makes it (R138). -/
def State.kKept (s : State) (c : Nat) : Nat := max (lookMap 16 s.gov.kSet c) (min 16 (s.rd (issueFloor c)))
def State.fKept (s : State) (c : Nat) : Nat :=
  let f := min (s.rd (crSet c)) (s.crateHi c)
  max f (min (s.crateLo c) ((s.cratePll c + 40) / 10 * 10))

/-- The highest and the lowest frequency that the bounds leave a core, in steps of 100 MHz, and the one it has without a proposal. -/
def State.coreHi (s : State) (c : Nat) : Nat :=
  if 20 + c / 48 ∈ s.gov.newOn then 2400 else max 2400 (min (s.rd (coreFmax c)) (s.rd (boundMax 4)) / 100 * 100)
def State.coreLo (s : State) (c : Nat) : Nat := min (s.coreHi c) ((s.rd (boundMin 4) + 99) / 100 * 100)
def State.coreKept (s : State) (c : Nat) : Nat :=
  let f := min (lookMap 2400 s.gov.coreSet c) (s.coreHi c)
  max f (min (s.coreLo c) ((s.rd (coreMhz c) + 400) / 100 * 100))

/-- The settings once a proposal holds. -/
def State.kAfter (s : State) (e : GovStep) (c : Nat) : Nat :=
  match e.crates.find? fun q => decide (q.1 = c) with
  | some q => q.2.1
  | none => s.kKept c
def State.fAfter (s : State) (e : GovStep) (c : Nat) : Nat :=
  match e.crates.find? fun q => decide (q.1 = c) with
  | some q => q.2.2
  | none => s.fKept c
def State.coreAfter (s : State) (e : GovStep) (c : Nat) : Nat :=
  match e.cores.find? fun q => decide (q.1 = c) with
  | some q => q.2
  | none => s.coreKept c

/-- The crates of a quadrant whose clock runs and that have work. -/
def State.workCrates (s : State) (e : GovStep) (g : Nat) : List Nat :=
  (List.range 384).filter fun c => decide (quadOfCrate c = g) && s.crateRuns c && decide (c ∉ e.off)

/-- The cores that are powered. -/
def State.coresOn (s : State) : List Nat := (List.range 96).filter fun c => s.domOn (20 + c / 48)

/-- Is a group at the bottom of its range in Table 17.1? -/
def State.atBottom (s : State) (e : GovStep) (g : Nat) : Bool :=
  if g < 16 then (s.workCrates e g).all fun c => decide (s.kAfter e c ≤ s.rd (issueFloor c)) && decide (s.fAfter e c ≤ 700)
  else if g = 16 then s.coresOn.all fun c => decide (s.coreAfter e c ≤ 2400)
  else decide (e.ceil ≤ s.rd ceilMin)

/-- Does a proposal lower a setting of a group, or raise one? -/
def State.lowers (s : State) (e : GovStep) (g : Nat) : Bool :=
  if g < 16 then
    (e.crates.any fun q => decide (quadOfCrate q.1 = g) && (decide (q.2.1 < s.kKept q.1) || decide (q.2.2 < s.fKept q.1))) ||
      e.off.any fun c => decide (quadOfCrate c = g) && s.crateRuns c
  else if g = 16 then e.cores.any fun q => decide (q.2 < s.coreKept q.1)
  else decide (e.ceil < s.gov.ceil)
def State.raises (s : State) (e : GovStep) (g : Nat) : Bool :=
  if g < 16 then e.crates.any fun q => decide (quadOfCrate q.1 = g) && (decide (s.kKept q.1 < q.2.1) || decide (s.fKept q.1 < q.2.2))
  else if g = 16 then e.cores.any fun q => decide (s.coreKept q.1 < q.2)
  else decide (s.gov.ceil < e.ceil)

/-- Are the settings tied to the budgets (R22, R24, R25, R465, R467)? Each group's estimate for the coming interval keeps its budget, or the
group is at the bottom of its range; a group that drew more than its budget is slowed and nothing of it rises; and nothing is lowered to
less than what is reserved. -/
def State.tiedOk (s : State) (e : GovStep) : Bool :=
  decide (e.coming.length = 19) &&
    (decide (total e.coming ≤ 8 * s.rd capW) || (List.range 18).all fun g => s.atBottom e g) &&
    (List.range 18).all fun g =>
      let b := if s.on govHold then s.rd (grpBudget g) else e.budgets.getD g 0
      let p := e.est.getD g 0
      let m := e.coming.getD g 0
      (decide (m ≤ b) || s.atBottom e g) && (decide (p ≤ b) || ((s.atBottom e g || s.lowers e g) && !s.raises e g)) &&
        (!s.lowers e g || decide (min (s.rd (grpResv g)) p ≤ m))

/-- Is a quadrant's power taken as far as one of its actuators gives: `f` says so of each crate at work, or the quadrant is down to its
reservation? -/
def State.spent (s : State) (e : GovStep) (f : Nat → Bool) : Bool :=
  (List.range 16).all fun g => decide (e.budgets.getD g 0 ≤ s.rd (grpResv g)) || (s.workCrates e g).all f

/-- Are the actuators taken in the order of R456 where power is short: issue limits, crate frequencies, core frequencies, the ceiling; and
given back in the reverse order elsewhere, the ceiling first? -/
def State.orderOk (s : State) (e : GovStep) : Bool :=
  let kDone := s.spent e fun c => decide (s.kAfter e c ≤ s.rd (issueFloor c))
  let fDone := s.spent e fun c => decide (s.fAfter e c ≤ 700)
  let coreDone := decide (e.budgets.getD 16 0 ≤ s.rd (grpResv 16)) || s.atBottom e 16
  if s.overCap e then
    (!(e.crates.any fun q => decide (q.2.2 < s.fKept q.1)) || kDone) && (!s.lowers e 16 || (kDone && fDone)) &&
      (!s.lowers e 17 || (kDone && fDone && coreDone))
  else !(e.crates.any fun q => decide (s.kKept q.1 < q.2.1)) || decide (min 100 (s.rd ceilPct + 20) ≤ e.ceil + 4)

/-- Is every issue limit 16 and the ceiling at 100 % once a proposal holds, as frequencies above the assured values need (R467)? -/
def State.allFull (s : State) (e : GovStep) : Bool :=
  decide (e.ceil = 100) && (e.crates.all fun q => decide (q.2.1 = 16)) &&
    s.gov.kSet.all fun q => e.crates.any fun r => decide (r.1 = q.1)

/-- May a setting of group `g` lie below a software floor: for the cap, where the floor asks for more than the group's reservation, which the
group keeps (R465, R469)? -/
def State.belowOk (s : State) (e : GovStep) (g : Nat) : Bool := s.overCap e && decide (s.rd (grpResv g) ≤ e.coming.getD g 0)

/-- May a crate be set to issue limit `k` and frequency `f` (R138, R456, R457, R467, Table 17.1)? -/
def State.crateSetOk (s : State) (e : GovStep) (c k f : Nat) : Bool :=
  decide (c < 384) && s.crateOn c && decide (1 ≤ k) && decide (k ≤ 16) && decide (f % 10 = 0) && decide (700 ≤ f) && decide (f ≤ s.crateHi c) &&
    ((decide (s.rd (issueFloor c) ≤ k) && decide (s.crateLo c ≤ f ∨ s.fKept c ≤ f)) || s.belowOk e (quadOfCrate c)) &&
    decide (f ≤ s.cratePll c + 40) && (decide (f ≤ max 700 (s.fKept c)) || s.allFull e)

/-- May a core be set to a frequency (R434, R456, R457, R467)? -/
def State.coreSetOk (s : State) (e : GovStep) (c f : Nat) : Bool :=
  decide (c < 96) && decide (f % 100 = 0) && decide (2400 ≤ f) && decide (f ≤ s.coreHi c) &&
    (decide (s.coreLo c ≤ f ∨ s.coreKept c ≤ f) || s.belowOk e 16) && decide (f ≤ s.rd (coreMhz c) + 400) &&
    (decide (f ≤ max 2400 (s.coreKept c)) || (s.allFull e && decide (c / 8 ∉ s.gov.hot)))

/-- The fastest frequency set on a die (0 to 3 tensor, 4 host) once the proposal holds. -/
def State.fastest (s : State) (e : GovStep) (d : Nat) : Nat :=
  if d < 4 then ((List.range 96).map fun i => if s.crateOn (96 * d + i) then s.fAfter e (96 * d + i) else 700).foldl max 700
  else (s.coresOn.map (s.coreAfter e)).foldl max 2400

/-- May an AVS setpoint be set (R440, R458, R461): within its rail's range, at most the table's entry for the die's fastest crate or core,
and the regulator not lost? -/
def State.voltOk (s : State) (e : GovStep) (d mv : Nat) : Bool :=
  let rail := if d = 4 then 10 else 11 + d
  decide (d < 5) && !s.railLost rail && (if d = 4 then decide (650 ≤ mv ∧ mv ≤ 950) else decide (550 ≤ mv ∧ mv ≤ 850)) &&
    match s.tableMv d (s.fastest e d) with
    | some m => decide (mv ≤ m)
    | none => true

/-- Is a whole proposal one that the rules allow? A lost AVS regulator's die is not set faster (R461). -/
def State.proposalOk (s : State) (e : GovStep) : Bool :=
  (s.on govHold || s.budgetsOk e) && s.tiedOk e && (s.on govHold || s.orderOk e) && (e.crates.all fun q => s.crateSetOk e q.1 q.2.1 q.2.2 &&
      (!s.railLost (11 + q.1 / 96) || decide (q.2.2 ≤ s.cratePll q.1))) &&
    (e.cores.all fun q => s.coreSetOk e q.1 q.2 && (!s.railLost 10 || decide (q.2 ≤ s.rd (coreMhz q.1)))) &&
    decide (e.ceil % 5 = 0) && decide (e.ceil ≤ 100) && decide (e.ceil ≤ s.rd ceilPct + 20) &&
    (decide (s.rd ceilMin ≤ e.ceil) || s.belowOk e 17) && e.volts.all fun q => s.voltOk e q.1 q.2

/-- The ceiling in force in GOV.CEIL.PCT. -/
def State.showCeil (s : State) : State := s.wr ceilPct (if s.on govLowest then 25 else s.gov.ceil)

/-- Turns a crate's clock off for want of work, or lets it run again (R467, Table 2.15): a cause of its own beside CRATE.CLK.OFF. -/
def State.setGovOff (s : State) (c : Nat) (off : Bool) : State :=
  if (s.crate c).govOff == off then s
  else
    let s := s.setCrate c { s.crate c with govOff := off }
    if off || s.on (crOff c) then s else s.wr (crateStopped c) 0

/-- The software floors that a proposal's settings lie below (R469). -/
def State.cappedBy (s : State) (e : GovStep) : List Nat :=
  (e.crates.filter fun q => decide (q.2.1 < s.rd (issueFloor q.1))).map (·.1) ++
    ((List.range 4).filter fun k => e.crates.any fun q => decide (q.1 / 96 = k) && decide (q.2.2 < s.crateLo q.1) && decide (q.2.2 < s.fKept q.1)).map
      (1000 + ·) ++
    (if e.cores.any fun q => decide (q.2 < s.coreLo q.1) && decide (q.2 < s.coreKept q.1) then [1004] else []) ++
    (if e.ceil < s.rd ceilMin then [2000] else [])

/-- Applies a proposal's settings: voltages, issue limits and frequencies of crates, crates whose clock goes off or runs again, cores,
ceiling. -/
def State.applyStep (s : State) (e : GovStep) : State :=
  let capped := s.cappedBy e
  let sets := ((List.range 384).filter fun c => s.crateOn c).map fun c => (c, s.kAfter e c, s.fAfter e c)
  let sets := sets.filter fun q =>
    (e.crates.any fun r => decide (r.1 = q.1)) || decide (q.2.1 ≠ lookMap 16 s.gov.kSet q.1) || decide (q.2.2 ≠ s.rd (crSet q.1))
  let cores := s.coresOn.map fun c => (c, s.coreAfter e c)
  let s := e.volts.foldl (fun s q => s.wr (railSet (if q.1 = 4 then 10 else 11 + q.1)) q.2) s
  let s := sets.foldl (fun s q =>
    let s : State := { s with gov := { s.gov with kSet := putMap 16 s.gov.kSet q.1 q.2.1 } }
    ((s.wr (crSet q.1) q.2.2).pushK q.1).stepCrate q.1) s
  let s := ((List.range 384).filter fun c => s.crateOn c).foldl (fun s c => s.setGovOff c (decide (c ∈ e.off))) s
  let s : State := { s with gov := { s.gov with
    coreSet := cores.foldl (fun m q => putMap 2400 m q.1 q.2) s.gov.coreSet, ceil := e.ceil, capped := capped } }
  s.showCeil.clipSync

/-- GOVERNOR_INTERVAL (R459, R461, R467, R472, R477): an interval boundary. The estimates, and which of the budgets and settings that the
rules allow the controller picks, are the environment's (log entry 44). In the lowest state it only measures; a collective hold keeps
every budget. What has come on since the last boundary stays at its assured frequency for one interval more (R484). -/
def execGovernorInterval (e : GovStep) (s : State) : Res :=
  if !s.pins.devReady || !s.domOn 22 || decide (e.est.length ≠ 19) then .next s
  else
    let est := (List.range 19).map fun g =>
      let p := e.est.getD g 0
      min 65535 (if (grpRails g).any s.railLost then p * 11 / 10 else p)
    let s1 := (List.range 19).foldl (fun s g => s.wr (grpEst g) (est.getD g 0)) s
    let g := s1.gov
    let s1 : State := if g.hintAt.isNone then s1 else { s1 with gov := { g with
      hintT := g.hintT + total (est.take 16), hintH := g.hintH + est.getD 16 0, hintC := g.hintC + est.getD 17 0,
      hintF := g.hintF + est.getD 18 0, hintN := g.hintN + 1 } }
    let seen := fun (s : State) => ({ s with gov := { s.gov with newOn := [] } } : State)
    if s.on govLowest then .next (seen s1)
    else
      let e := { e with est := est }
      if !s1.proposalOk e then .next s1
      else
        let s1 := if s.on govHold then s1 else (List.range 19).foldl (fun s g => s.wr (grpBudget g) (e.budgets.getD g 0)) s1
        .next (seen (s1.applyStep e))

/-- CORE_FREQUENCY_CHANGE (R434, R457): a change of 100 MHz of a core towards the governor's setting completes. In the lowest state the
core's PLL changes and its clock stays at 1.2 GHz. -/
def execCoreFrequencyChange (c : CoreId) (s : State) : Res :=
  let low := s.on govLowest
  let cur := if low then lookMap 700 s.gov.pllMhz (384 + c) else s.rd (coreMhz c)
  let goal := if c.val / 8 ∈ s.gov.hot then 2400 else max 2400 (min (lookMap 2400 s.gov.coreSet c) (s.rd (coreFmax c)))
  if !s.domOn (20 + c / 48) || decide (cur = goal) then .next s
  else
    let f := if cur < goal then min (cur + 100) goal else max (cur - 100) goal
    if low then .next { s with gov := { s.gov with pllMhz := putMap 700 s.gov.pllMhz (384 + c) f } }
    else .next (s.wr (coreMhz c) f)

/-- RAIL_TELEMETRY_READ (R459, R461): the reading of a rail's regulator returns, or fails or fails its packet error check; the third
failure in a row marks it lost, until it answers again. -/
def execRailTelemetryRead (i : Fin 15) (ok : Bool) (s : State) : Res :=
  if !s.on (railUp 0) || !s.pins.resetReleased then .next s
  else
    let n := if ok then 0 else lookMap 0 s.gov.pmFails i + 1
    let first := decide (n = 3)
    let s : State := { s with gov := { s.gov with pmFails := putMap 0 s.gov.pmFails i (min n 4) } }
    let s := if first then s.raise 0x0805 12 i [] else s
    .next (s.wr govTelLost (b2n (s.gov.pmFails.any fun q => decide (3 ≤ q.2))))

/-! Alerts and the lowest state (R471 to R473). -/

/-- Enters the lowest state (Table 17.3). -/
def State.enterLowest (s : State) : State :=
  let s := (s.wr govLowest 1).bump govAlerts
  let s : State := { s with gov := { s.gov with enteredAt := s.plt, pllMhz := [] } }
  let s := (List.range 384).foldl (fun s c => if s.crateOn c then s.lowerCrate c else s) s
  let s := (List.range 96).foldl (fun s c => if s.domOn (20 + c / 48) then s.lowerCore c else s) s
  (s.showCeil.clipSync).syncCauses 0

/-- PWR_ALERT_ASSERT (R471, R473): a bit of PWR_ALERT_N has been low for 5 ns. -/
def execPwrAlertAssert (i : Fin 4) (s : State) : Res :=
  if !s.on (railUp 1) || bitAt (s.rd govAlert) i then .next s
  else
    let s := (s.wr govAlert (s.rd govAlert + 2 ^ i.val)).aplicSignal 6
    .next (if s.on govLowest then s else s.enterLowest)

/-- PWR_ALERT_RELEASE (R471, R473). -/
def execPwrAlertRelease (i : Fin 4) (s : State) : Res :=
  if !bitAt (s.rd govAlert) i then .next s
  else .next ((s.wr govAlert (s.rd govAlert - 2 ^ i.val)).aplicSignal 6)

/-- LOWEST_STATE_EXIT (R472, R473): 50 µs after the last release, the clocks return to their PLLs, and the issue limits and the ceiling to
their values at the next frame boundary. -/
def execLowestStateExit (s : State) : Res :=
  if !s.on govLowest || decide (s.rd govAlert ≠ 0) then .next s
  else
    let plls := s.gov.pllMhz
    let start := s.gov.enteredAt
    let s := (s.wr govLowest 0).bumpBy govLowTicks (s.plt - start)
    let s := (List.range 384).foldl (fun s c =>
      if s.crateOn c then ((s.wr (crCur c) (lookMap 700 plls c)).pushK c).stepCrate c else s) s
    let s := (List.range 96).foldl (fun s c => if s.domOn (20 + c / 48) then s.wr (coreMhz c) (lookMap 700 plls (384 + c)) else s) s
    let s := s.raise 0x0809 0 0 (detailOf [(8, start), (8, s.plt)])
    .next ((State.showCeil { s with gov := { s.gov with pllMhz := [] } }).clipSync.syncCauses 0)

/-! Droop (R474 to R476). -/

/-- DROOP_DETECT (R474 to R476): a crate's droop detector trips. A droop that comes back while its response lasts has not cleared. -/
def execDroopDetect (c : CrateId) (s : State) : Res :=
  if !s.crateOn c then .next s
  else
    let x := s.crate c
    if s.on (crDroopActive c) then .next (s.setCrate c { x with droopClear := false })
    else
      let s := (s.wr (crDroopActive c) 1).wr (issueDroop c) 1
      let s := (s.bump (crDroops c)).bump govDroops
      let s := if x.stepTo.isSome && !x.frozen then s.bump govFrozen else s
      let s := (s.setCrate c { x with frozen := true, droopClear := false }).pushK c
      .next (s.clipSync.syncCauses 0)

/-- DROOP_CLEAR (R474). -/
def execDroopClear (c : CrateId) (s : State) : Res :=
  if s.on (crDroopActive c) then .next (s.setCrate c { s.crate c with droopClear := true }) else .next s

/-- DROOP_RESPONSE_END (R474): 1 µs after the droop has cleared. -/
def execDroopResponseEnd (c : CrateId) (s : State) : Res :=
  if s.on (crDroopActive c) && (s.crate c).droopClear then .next ((((s.wr (crDroopActive c) 0).pushK c).clipSync).syncCauses 0)
  else .next s

/-- FROZEN_STEP_RESUME (R475): 5 µs after the droop has cleared. -/
def execFrozenStepResume (c : CrateId) (s : State) : Res :=
  let x := s.crate c
  if x.frozen && x.droopClear && !s.on (crDroopActive c) then
    .next ((s.setCrate c { x with frozen := false, droopClear := false }).stepCrate c)
  else .next s

/-! Heat (R480, R481). -/

/-- A sensor reads the trip temperature: THERM_TRIP_N, the fatal fault and the hold (R481). -/
def State.thermalTrip (s : State) (kind i : Nat) : State :=
  if s.pins.thermTrip then s
  else State.stopFor (State.raise { s with pins := { s.pins with thermTrip := true } } 0x0807 kind i []) none

/-- CRATE_TEMPERATURE_CHANGE (R480, R481): a sensor of a crate, of a host cluster or of an I/O die reads a temperature. -/
def execCrateTemperatureChange (x : HeatSensor) (t : Fin 256) (s : State) : Res :=
  if !s.on (railUp 0) || s.fastStopped then .next s
  else
    let limit := s.rd thermLimit
    let hot := decide (limit ≤ t.val)
    let cool := decide (t.val + 3 ≤ limit)
    let trip := decide (s.rd thermTripC ≤ t.val)
    match x with
    | .crate c =>
      if !s.crateOn c then .next s
      else
        let s := s.wr (crTemp c) t
        let was := s.on (crThrottle c)
        let s := if hot && !was then (s.wr (crThrottle c) 1).raise 0x0808 2 c []
          else if cool && was then (s.wr (crThrottle c) 0).raise 0x0808 2 c []
          else s
        let s := if s.on (crThrottle c) = was then s else (((s.pushK c).stepCrate c).clipSync).syncCauses 0
        .next (if trip then s.thermalTrip 2 c else s)
    | .cluster n =>
      let was := decide (n.val ∈ s.gov.hot)
      let s : State := if hot && !was then { s with gov := { s.gov with hot := s.gov.hot ++ [n.val] } }
        else if cool && was then { s with gov := { s.gov with hot := s.gov.hot.filter fun m => decide (m ≠ n.val) } }
        else s
      let s := if hot == was then s else s.clipSync
      .next (if trip then s.thermalTrip 11 n else s)
    | .ioDie i => .next (if trip then s.thermalTrip 4 (5 + i) else s)

/-! Ageing (R482, R483). -/

/-- AGEING_MEASURE (R482, R483): a monitor measures a tile's or a core's maximum frequency; only a lower one counts, in steps of 5 MHz, and
it is recorded in the strongroom. The crate steps down to a tile's new maximum (R65, R68), which waits while a droop response freezes its
steps (R475). A tile whose maximum would fall below 700 MHz keeps 700 and fails its crate. -/
def execAgeingMeasure (x : AgeSensor) (mhz : Nat) (s : State) : Res :=
  let v := mhz / 5 * 5
  match x with
  | .tile t =>
    let c := t.val / 64
    if !s.tileOn t || decide (s.rd (tFmax t) ≤ v) then .next s
    else if (s.crate c).frozen && decide (max 700 v < max (s.cratePll c) ((s.crate c).stepTo.getD 0)) then .next s
    else
      let s := (s.wr (tFmax t) (max 700 v)).commit (0x430000 + 2 * t) (toBytes 2 v)
      let s := (s.syncLimit c).stepCrate c
      .next (if v < 700 then s.failCrate c else s)
  | .core c =>
    if !s.domOn (20 + c / 48) || decide (s.rd (coreFmax c) ≤ v) then .next s
    else
      let old := s.rd (coreFmax c)
      let s := (s.wr (coreFmax c) v).commit (0x43C000 + 2 * c) (toBytes 2 v)
      .next (if v < 2400 ∧ 2400 ≤ old then s.raise 0x080B 10 c [] else s)

end Sys2Proof.Machine
end

