-- ==== Sys2Proof/Machine/PlanPrice.lean ====
section
/-! DEFINITION. The plan image and its worst-case price (R486 to R499): parsing, time charges, power charges and the checks of the
stocktake, in units of 0.1 ns and 0.125 W. -/
namespace Sys2Proof.Machine

/-! The plan image (Tables 18.1 to 18.3). -/

/-- A field of `n` bytes at byte `o` of an image. -/
def fldAt (bs : List Byte) (o n : Nat) : Nat := ofBytes ((bs.drop o).take n)

/-- Reads a step record at byte `o`. -/
def pstepAt (bs : List Byte) (o : Nat) : PStep :=
  let f := fun a n => fldAt bs (o + a) n
  { trig := f 0 1, lane := f 1 1, kMin := f 2 1, hint := f 3 1, tally := f 4 2, src := f 6 2, offset := f 8 4, deadline := f 12 4,
    ends := ((List.range 4).map fun j => f (16 + 2 * j) 2).filter fun a => decide (a ≠ 0)
    first := f 24 2, count := f 26 2, power := f 28 2 }

/-- Bytes of an item's parameter block, whose bytes from `o` on are given: a vector item's loop record follows its descriptor. -/
def paramLen (kind : Nat) (bs : List Byte) (o : Nat) : Nat :=
  if kind = 1 ∨ kind = 5 then 64
  else if kind = 2 then (if vLoopOff (BitVec.ofNat 512 (fldAt bs o 64)) = 0 then 64 else 128)
  else if kind = 3 then 16 else 8

/-- Reads an item record at byte `o`, with its parameter block. -/
def pitemAt (bs : List Byte) (o : Nat) : PItem :=
  let f := fun a n => fldAt bs (o + a) n
  { kind := f 0 1, preds := (List.range (min 4 (f 1 1))).map fun j => f (4 + 2 * j) 2, flags := f 2 1, crateLo := f 12 2, crateHi := f 14 2,
    tiles := f 16 8, extra := f 28 4, param := (bs.drop (f 24 4)).take (paramLen (f 0 1) bs (f 24 4)) }

/-- The plan that an image spells, before it is priced. -/
def planOf (bs : List Byte) : Plan :=
  let f := fldAt bs
  { id := f 8 4, job := f 12 3, flags := f 15 1, period := f 16 4, slip := f 20 4
    near := (List.range 4).map fun k => f (32 + 2 * k) 2
    spread := f 40 2, headroom := f 42 1, ports := (List.range 16).map fun p => f (44 + p) 1
    steps := (List.range (f 24 2)).map fun i => pstepAt bs (64 + 32 * i)
    items := (List.range (f 26 2)).map fun i => pitemAt bs (f 28 4 + 32 * i)
    lens := [], resv := [] }

/-- ANCHOR, ABORT_LATE and ABORT_FAIL. -/
def Plan.anchor (p : Plan) : Bool := bitAt p.flags 0
def Plan.abortLate (p : Plan) : Bool := bitAt p.flags 1
def Plan.abortFail (p : Plan) : Bool := bitAt p.flags 2

/-- An item that a plan does not have. -/
def PItem.absent : PItem := ⟨0, [], 0, 1, 0, 0, 0, []⟩

/-- A step that a plan does not have. -/
def PStep.absent : PStep := ⟨0, 0, 1, 0, 0, 0xFFFF, 0, 0, [], 0, 0, 0⟩

/-- Item `i` and step `i` of a plan. -/
def Plan.item (p : Plan) (i : Nat) : PItem := p.items.getD i PItem.absent
def Plan.step (p : Plan) (i : Nat) : PStep := p.steps.getD i PStep.absent

/-- Does a step hold item `i`? -/
def PStep.has (st : PStep) (i : Nat) : Bool := decide (st.first ≤ i) && decide (i < st.first + st.count)

/-- The items of a step. -/
def PStep.members (st : PStep) : List Nat := (List.range st.count).map (st.first + ·)

/-- The step of item `i`. -/
def Plan.stepOf (p : Plan) (i : Nat) : Nat := ((List.range p.steps.length).find? fun j => (p.step j).has i).getD 0

/-- Is a step started by an item of this plan? -/
def PStep.internal (st : PStep) : Bool := decide (st.trig = 1) && decide (st.src ≠ 0xFFFF)

/-- What an item waits for: its predecessors, or with none the item that fires its step's trigger. -/
def Plan.sources (p : Plan) (i : Nat) : List Nat :=
  let it := p.item i
  if !it.preds.isEmpty then it.preds
  else
    let st := p.step (p.stepOf i)
    if st.internal then [st.src] else []

/-- Does item `i` wait for item `j`, over at most `n` links? -/
def Plan.waitsFor (p : Plan) : Nat → Nat → Nat → Bool
  | 0, _, _ => false
  | n + 1, i, j => (p.sources i).any fun k => decide (k = j) || p.waitsFor n k j

/-- Is there a dependency path between two items, either way? -/
def Plan.linked (p : Plan) (i j : Nat) : Bool := p.waitsFor p.items.length i j || p.waitsFor p.items.length j i

/-- Is a tally address one of level 2 or 3 that exists? -/
def tallyHigh (a : Nat) : Bool := decide (2 ≤ bitsAt a 14 2) && (tallyOfAddr a none).isSome

/-- Offsets among `n` bytes from `o` that hold a byte which is not 0. -/
def setBytes (bs : List Byte) (o n : Nat) : List Nat := ((List.range n).map (o + ·)).filter fun i => decide (bs.getD i 0#8 ≠ 0#8)

/-- `o` where a check fails. -/
def offends (bad : Bool) (o : Nat) : List Nat := if bad then [o] else []

/-- The run that an engine item's parameter block stands for. -/
def PItem.run (it : PItem) : Run :=
  { slot := 0, desc := BitVec.ofNat 512 (fldAt it.param 0 64), loop := BitVec.ofNat 512 (fldAt it.param 64 64), lbv := [], bufs := []
    shoot := 0, pos := 0, done := 0, crc := 0#32, flight := [], destKind := 0, idx := [], stop := none, recv := none, flush := none, bad := false
    flags := 0#8, clamps := 0, flushes := 0, phase := .work, post := [], ended := none }

/-- A collective item's descriptor (Table 13.11). -/
def PItem.coll (it : PItem) : BitVec 512 := BitVec.ofNat 512 (fldAt it.param 0 64)

/-- Are the fields of a collective descriptor out of their ranges? -/
def collFieldsBad (d : BitVec 512) : Bool :=
  decide (cOp d = 0) || decide (cRsv d ≠ 0) || decide (cNmem d ≤ cRank d) || decide (cNmem d < 2) || decide (64 < cNmem d) ||
    (if cOp d = 2 then decide (cOpc d ≠ 0) else decide (cOpc d = 0) || decide (10 < cOpc d)) ||
    decide (cBase d % 128 ≠ 0) || decide (cSeg d = 0) || decide (cSeg d % 128 ≠ 0)

/-- Offending bytes of the header of an image of `len` bytes (R487, log entry 45). -/
def headerBad (bs : List Byte) (len : Nat) : List Nat :=
  let f := fldAt bs
  offends (decide (f 0 2 ≠ 1)) 0 ++ offends (decide (8 ≤ f 15 1)) 15 ++
    offends (decide (f 16 4 < 40 ∨ 1000000000 < f 16 4 ∨ f 16 4 % 40 ≠ 0)) 16 ++ offends (decide (f 16 4 < 4 * f 20 4)) 20 ++
    offends (decide (f 24 2 = 0 ∨ 256 < f 24 2 ∨ len < 68 + 32 * f 24 2)) 24 ++
    offends (decide (f 26 2 = 0 ∨ 16384 < f 26 2)) 26 ++
    offends (decide (f 28 4 % 8 ≠ 0 ∨ len < f 28 4 + 32 * f 26 2 + 4)) 28 ++
    offends (decide (f 42 1 < 10 ∨ 50 < f 42 1)) 42 ++ setBytes bs 43 1 ++
    ((List.range 16).filter fun p => decide (90 < f (44 + p) 1 % 128)).map (44 + ·) ++ setBytes bs 60 4

/-- Offending bytes of the step record at byte `o`. -/
def stepBad (bs : List Byte) (p : Plan) (o : Nat) (st : PStep) : List Nat :=
  let n := p.items.length
  offends (decide (1 < st.trig)) o ++ offends (decide (7 < st.lane)) (o + 1) ++
    offends (decide (st.kMin = 0 ∨ 16 < st.kMin)) (o + 2) ++ offends (decide (16 ≤ st.hint)) (o + 3) ++
    offends (!tallyHigh st.tally && !(decide (st.trig = 0) && decide (st.tally = 0))) (o + 4) ++
    offends (decide (st.src ≠ 0xFFFF) && decide (n ≤ st.src)) (o + 6) ++
    offends st.ends.isEmpty (o + 16) ++
    (List.range 4).flatMap (fun j =>
      let a := fldAt bs (o + 16 + 2 * j) 2
      offends (decide (a ≠ 0) && !tallyHigh a) (o + 16 + 2 * j)) ++
    offends (decide (n ≤ st.first)) (o + 24) ++ offends (decide (st.count = 0 ∨ n < st.first + st.count)) (o + 26) ++ setBytes bs (o + 30) 2

/-- Offending bytes of the parameter block at byte `o` of an item (log entry 45). -/
def paramBad (bs : List Byte) (it : PItem) (o : Nat) : List Nat :=
  if it.kind = 1 then offends (mxOf it.run).isNone o
  else if it.kind = 2 then offends (vxOf it.run).isNone o
  else if it.kind = 3 then
    offends (decide (5 < fldAt it.param 8 1)) (o + 8) ++
      offends (decide (fldAt it.param 8 1 = 5) && decide (15 < fldAt it.param 9 1)) (o + 9) ++
      offends (decide (fldAt it.param 8 1 = 2) && decide (3 < fldAt it.param 11 1)) (o + 11) ++ setBytes bs (o + 12) 4
  else if it.kind = 4 then offends (decide (4 < fldAt it.param 0 1)) o
  else offends (collFieldsBad it.coll) o

/-- Offending bytes of item `i`, whose record lies at byte `o` of an image of `len` bytes. -/
def itemBad (bs : List Byte) (p : Plan) (len o i : Nat) : List Nat :=
  let it := p.item i
  let owners := (p.steps.filter fun st => st.has i).length
  let po := fldAt bs (o + 24) 4
  let blockOk := decide (1 ≤ it.kind ∧ it.kind ≤ 5) && decide (po % 8 = 0) &&
    decide (po + 4 + paramLen it.kind bs po ≤ len)
  offends (decide (owners ≠ 1)) o ++ offends (decide (it.kind = 0 ∨ 5 < it.kind)) o ++ offends (decide (4 < fldAt bs (o + 1) 1)) (o + 1) ++
    offends (decide (2 ≤ it.flags)) (o + 2) ++ setBytes bs (o + 3) 1 ++
    (List.range it.preds.length).flatMap (fun j =>
      let k := it.preds.getD j 0
      offends (!(p.step (p.stepOf i)).has k || decide (k = i) || p.waitsFor p.items.length k i) (o + 4 + 2 * j)) ++
    offends (decide (384 ≤ it.crateLo ∨ it.crateHi < it.crateLo)) (o + 12) ++ offends (decide (384 ≤ it.crateHi)) (o + 14) ++
    offends (!blockOk) (o + 24) ++ (if blockOk then paramBad bs it po else [])

/-- Offending bytes of the steps that a chain of TRIG_SRC makes wait for themselves (log entry 45). -/
def trigBad (p : Plan) : List Nat :=
  ((List.range p.steps.length).filter fun i =>
    let st := p.step i
    st.internal && (st.members.any fun k => decide (k = st.src) || p.waitsFor p.items.length st.src k)).map fun i => 64 + 32 * i + 6

/-- The least of a list of offsets. -/
def leastOf : List Nat → Option Nat
  | [] => none
  | x :: xs => some (match leastOf xs with
    | some y => min x y
    | none => x)

/-- The first offending byte of an image whose length is in range, none where it is sound (R487). -/
def imageBad (bs : List Byte) : Option Nat :=
  let len := bs.length
  let crcBad := offends (decide (BitVec.ofNat 32 (fldAt bs (len - 4) 4) ≠ crc32c (bs.take (len - 4)))) (len - 4)
  match leastOf (headerBad bs len) with
  | some o => some o
  | none =>
    let p := planOf bs
    leastOf (((List.range p.steps.length).flatMap fun i => stepBad bs p (64 + 32 * i) (p.step i)) ++
      ((List.range p.items.length).flatMap fun i => itemBad bs p len (fldAt bs 28 4 + 32 * i) i) ++ trigBad p ++ crcBad)

/-! Fractions: a numerator and a denominator; a denominator of 0 stands for no bound. -/

/-- A non-negative number of units of 0.1 ns. -/
structure Frac where
  n : Nat
  d : Nat
  deriving DecidableEq, Repr

/-- Is `a` less than `b`? -/
def Frac.lt (a b : Frac) : Bool :=
  if a.d = 0 then false else if b.d = 0 then true else decide (a.n * b.d < b.n * a.d)

/-- The sum of two fractions, rounded up; no bound gives the largest value of a 32-bit field. -/
def Frac.addUp (a b : Frac) : Nat :=
  if a.d = 0 ∨ b.d = 0 then 2 ^ 32 - 1 else (a.n * b.d + b.n * a.d + a.d * b.d - 1) / (a.d * b.d)

/-- Tile cycles at 700 MHz. -/
def cycles (n : Nat) : Frac := ⟨100 * n, 7⟩

/-- `b` bytes at `num`/`den` GB/s. -/
def atRate (b num den : Nat) : Frac := if b = 0 then ⟨0, 1⟩ else ⟨10 * b * den, num⟩

/-! Time charges (Table 18.4). -/

/-- Kc of a class and SHAPE (Table 4.3). -/
def stepDepth : MClass → Nat → Nat
  | .c4, 0 => 4
  | .c4, 1 => 16
  | .c4, _ => 64
  | .c816, 0 => 4
  | .c816, 1 => 4
  | .c816, _ => 16
  | .s3, 0 => 1
  | .s3, 1 => 4
  | .s3, _ => 16
  | _, 0 => 1
  | _, 1 => 1
  | _, _ => 4

/-- P of a class (Table 4.3). -/
def stepPeriod : MClass → Nat
  | .s3 => 3
  | .s9 => 9
  | .s6 => 6
  | _ => 1

/-- Tile cycles of the `n` steps of one group (R129, R147): a step's operand bytes and its even share of the group's metadata bytes, at
256 bytes a cycle, and no fewer than the class's period. -/
def groupCycles (n period ops md : Nat) : Nat := n * max period ((ops * n + md + 256 * n - 1) / (256 * n))

/-- Metadata bytes of a group of `len` consecutive K indices in one column of B that carries escapes: 2 for each of the two escapes that
each run of 32 may hold at no cost (R130, R147; an image names no more of them, log entry 65). -/
def sideBytes (len : Nat) : Nat := (len + 7) / 8

/-- Tile cycles of one pass over K (R129, R147): the whole groups, and the group that K cuts short, over its own steps. A step that
holds more than one group carries the headers of each. -/
def passCycles (k kc gs period ops hdr nesc : Nat) : Nat :=
  let part := fun len =>
    let md := if gs = 0 then 0 else hdr * ((len + gs - 1) / gs) + nesc * sideBytes len
    if len = 0 then 0 else groupCycles ((len + kc - 1) / kc) period ops md
  let u := max (max gs kc) 1
  k / u * part u + part (k % u)

/-- T of R129, with EXTRA as the sum of X(b). -/
def matrixT (d : BitVec 512) (x : MX) (extra : Nat) : Nat :=
  let mb := (blockShape x.cls (xShape d)).1
  let nb := (blockShape x.cls (xShape d)).2
  let kc := stepDepth x.cls (xShape d)
  let ops := (mb * kc * x.fa.bits + kc * nb * x.fb.bits) / 8
  let hdr := 8 * ((if xHa d then mb else 0) + (if xHb d then nb else 0))
  let pass := passCycles x.k kc x.gs (stepPeriod x.cls) ops hdr (if xEscEn d then nb else 0)
  let blocks := (x.m + mb - 1) / mb * ((x.n + nb - 1) / nb)
  let out := (mb * nb * x.fc.bits + 7) / 8 + (if xRescue d then 4 * mb * nb else 0)
  let dd := 8 + (out + 127) / 128
  let l := if xCinit d then ((mb * nb * x.fc.bits + 7) / 8 + 255) / 256 else 0
  24 + (if x.cls = .s9 ∨ x.cls = .s6 then (x.k + 7) / 8 else 0) + blocks * max (pass + l) dd + extra + dd

/-- T2 of R168, without the staging-read term: an item that may be charged stages in a shelf. -/
def matrixT2 (x : MX) : Nat := 16 + (x.m * x.n + 511) / 512 + (x.m * x.n * x.fc.bits + 1023) / 1024

/-- Tile cycles of a MATRIX item at an issue limit of `k` (R137, R168, R169). -/
def matrixCycles (it : PItem) (k : Nat) : Nat :=
  match mxOf it.run with
  | none => 0
  | some x =>
    let d := it.run.desc
    let t := matrixT d x it.extra + (if xCQuant d then 4 else 0)
    (t * 16 + k - 1) / k + (if xRescue d then matrixT2 x else 0)

/-- Lanes per tile cycle (Table 6.4, R199). -/
def vLanes (x : VX) : Nat :=
  let used := [x.fx] ++ (if vReadsY x.op then [x.fy] else []) ++ (if x.kind = .measure then [] else [x.fz])
  if x.kind = .trans then 8
  else if x.kind = .topk then 16
  else if used.any fun f => decide (f = .fp64) then 4
  else if (used.all fun f => decide (f = .bf16)) || (used.all fun f => decide (f = .fp16)) then 64
  else if decide (x.op = 0x22 ∨ x.op = 0x23 ∨ x.op = 0x25 ∨ x.op = 0x26) && (used.all fun f => decide (f = .int8)) then 128
  else 32

/-- r of R199. -/
def vRate (d : BitVec 512) (x : VX) : Nat :=
  let rd := x.fx.bits + (if vReadsY x.op && !vYBc d then x.fy.bits else 0) + (if x.op = 0x27 then x.fz.bits else 0) +
    (if vSegMode d = 1 then 1 else if vSegMode d = 2 then 8 else 0)
  let wr := if x.kind = .reduce ∨ x.kind = .topk ∨ x.kind = .measure then 0 else x.fz.bits
  let r := min (vLanes x) (2048 / max rd 1)
  max 1 (if wr = 0 then r else min r (1024 / wr))

/-- Tile cycles of a VECTOR item: Tv and EXTRA, and T2v under RESCUE (R199). The leading segment is charged at its longest. -/
def vectorCycles (it : PItem) : Nat :=
  match vxOf it.run with
  | none => 0
  | some x =>
    let d := it.run.desc
    let r := vRate d x
    let up := fun n => (n + r - 1) / r
    let c := if x.kind = .reduce ∨ x.kind = .scan then 2 else if x.kind = .topk then 2 * vK d else 0
    let lead := if vSegRows d || decide (x.kind = .reduce) then x.n0 else x.n0 * x.rows
    let f := if vCin d ≠ 0 ∧ x.carries then up lead else 0
    16 + x.rows * (up x.n0 + c) + f + 8 + (if x.kind = .cvtq then 4 else 0) + it.extra +
      (if x.kind = .cvtq ∧ vPolicy d = 2 then 16 + up (x.n0 * x.rows) else 0)

/-- Tiles of an item in a crate. -/
def PItem.tileCount (it : PItem) : Nat := ((List.range 64).filter (bitAt it.tiles)).length

/-- Crates of an item. -/
def PItem.crates (it : PItem) : List Nat := (List.range (it.crateHi + 1 - it.crateLo)).map (it.crateLo + ·)

/-- Does an item use crate `c`? -/
def PItem.inCrate (it : PItem) (c : Nat) : Bool := decide (it.crateLo ≤ c) && decide (c ≤ it.crateHi) && decide (it.tiles ≠ 0)

/-- Crates of an item on die `k`. -/
def PItem.onDie (it : PItem) (k : Nat) : Nat := (it.crates.filter fun c => decide (c / 96 = k)).length

/-- Do two items use a tile in common? -/
def PItem.meets (a b : PItem) : Bool :=
  decide (a.crateLo ≤ b.crateHi) && decide (b.crateLo ≤ a.crateHi) && decide (Nat.land a.tiles b.tiles ≠ 0)

/-- Is there an item of the other engine on one of an item's tiles with no dependency path to it (R131)? Two steps of one lane never
overlap (R488). -/
def Plan.sharesPort (p : Plan) (i : Nat) : Bool :=
  let it := p.item i
  (List.range p.items.length).any fun j =>
    let jt := p.item j
    decide (jt.kind = 3 - it.kind) && it.meets jt &&
      (decide (p.stepOf i = p.stepOf j) || decide ((p.step (p.stepOf i)).lane ≠ (p.step (p.stepOf j)).lane)) && !p.linked i j

/-! Fields of a MOVE's parameter block. -/
def PItem.bytes (it : PItem) : Nat := fldAt it.param 0 8
def PItem.path (it : PItem) : Nat := fldAt it.param 8 1
def PItem.port (it : PItem) : Nat := fldAt it.param 9 1
def PItem.links (it : PItem) : Nat := fldAt it.param 10 1
def PItem.peer (it : PItem) : Nat := fldAt it.param 11 1

/-- The MOVE items that share rates with item `i`: those of its step with no dependency path to it, and itself (R493). -/
def Plan.rivals (p : Plan) (i : Nat) : List PItem :=
  (((p.step (p.stepOf i)).members.filter fun j =>
    decide ((p.item j).kind = 3) && (decide (j = i) || !p.linked i j)).map p.item)

/-- The sum of a function over a list. -/
def sumOf {α : Type} (l : List α) (f : α → Nat) : Nat := (l.map f).foldl (· + ·) 0

/-- The largest value of a function over a list. -/
def maxOf {α : Type} (l : List α) (f : α → Nat) : Nat := (l.map f).foldl max 0

/-- Bandwidth in GB/s per direction of the bulk bundles from `lo` on, at their current widths (Table 1.2). -/
def State.bulkBw (s : State) (lo n : Nat) : Nat :=
  sumOf (List.range n) fun i => if s.rd (seamRole (lo + i)) = 0 then 4 * widthLanes (s.rd (seamWidth (lo + i))) else 0

/-- Bulk bandwidth between die `k` and H, and between it and its I/O die. -/
def State.bulkH (s : State) (k : Nat) : Nat := s.bulkBw (16 + 8 * k) 8
def State.bulkIo (s : State) (k : Nat) : Nat := s.bulkBw (48 + 4 * k) 4

/-- The rate left to moves on a pair (R493), as a numerator and a denominator in GB/s. -/
def State.legRate (s : State) (p : Plan) (leg : Nat) : Nat × Nat :=
  if leg < 16 then (16 * s.bulkBw leg 8 - p.spread, 16)
  else
    let k := (leg - 16) / 8
    let h := s.bulkH k
    let both := h + s.bulkIo k
    (h * (8 * both - p.spread), 8 * both)

/-- Bandwidth of a fabric port in GB/s at its current version and width (Table 13.1). -/
def State.portBw (s : State) (p : Nat) : Nat :=
  let lanes := let w := s.rd (fabWidth p); if w = 3 then 4 else w
  (if s.rd (fabVer p) = 3 then 50 else 25) * lanes

/-- The plan's reservation on a port as a numerator over 100, in GB/s. -/
def State.portRate (s : State) (p : Plan) (q : Nat) : Nat := p.ports.getD q 0 % 128 * s.portBw q

/-- Bytes that a MOVE sends on its port, with 36 bytes for each packet (Table 18.5). -/
def PItem.wireBytes (it : PItem) : Nat := it.tileCount * it.crates.length * (it.bytes + 36 * ((it.bytes + 4095) / 4096))

/-- The quotients of a MOVE, each with its resource (Table 18.5, R493). -/
def State.moveRates (s : State) (p : Plan) (i : Nat) : List (Nat × Frac) :=
  let it := p.item i
  let rs := p.rivals i
  let mover := 0x300 + it.crateLo / 96
  let path := it.path
  let tile := maxOf it.crates fun c => maxOf ((List.range 64).filter (bitAt it.tiles)) fun t =>
    sumOf (rs.filter fun r => r.inCrate c && bitAt r.tiles t) PItem.bytes
  let router := maxOf it.crates fun c =>
    sumOf (rs.filter fun r => r.inCrate c && decide (r.path ≠ 0)) fun r => r.bytes * r.tileCount
  let dies := (List.range 4).filter fun k => decide (it.onDie k ≠ 0)
  let nearB := fun k => sumOf (rs.filter fun r => decide (r.path = 3)) fun r => r.bytes * r.tileCount * r.onDie k
  let legB := fun leg => sumOf (rs.filter fun r => decide (r.path = 2)) fun r =>
    r.bytes * r.tileCount * sumOf ((List.range 4).filter fun k => decide (leg ∈ legsOf k r.peer)) r.onDie
  [(mover, (⟨100 * tile, 7 * 128⟩ : Frac))] ++
    (if path = 0 then [] else [(mover, atRate router 2688 10)]) ++
    (if path = 2 then (dies.flatMap fun k => legsOf k it.peer).map fun l => (0x600 + l, atRate (legB l) (s.legRate p l).1 (s.legRate p l).2)
     else if path = 3 then dies.map fun k => (0x400 + k, atRate (nearB k) (p.near.getD k 0) 1)
     else if path = 4 then
       [(0x500, atRate (sumOf (rs.filter fun r => decide (r.path = 4)) fun r => r.bytes * r.tileCount * r.crates.length) p.spread 1)]
     else if path = 5 then
       [(0x700 + it.port,
         atRate (sumOf (rs.filter fun r => decide (r.path = 5) && decide (r.port = it.port)) PItem.wireBytes) (s.portRate p it.port) 100)]
     else [])

/-- The fixed charge of a MOVE (Table 18.5). -/
def State.moveFixed (s : State) (it : PItem) : Frac :=
  if it.path = 0 then cycles 24
  else if it.path = 1 then ⟨1000, 1⟩
  else if it.path = 2 then ⟨2000, 1⟩
  else if it.path = 3 then ⟨3000, 1⟩
  else if it.path = 4 then ⟨4500, 1⟩
  else ⟨3500 + 1500 * (it.links - 1) * (if s.rd (fabVer it.port) = 2 then 2 else 1), 1⟩

/-- The resource that a MOVE's path stands for, where its fixed charge is the larger part. -/
def PItem.pathRes (it : PItem) : Nat :=
  let k := it.crateLo / 96
  if it.path = 2 then 0x600 + (legsOf k it.peer).headD 0
  else if it.path = 3 then 0x400 + k
  else if it.path = 4 then 0x500
  else if it.path = 5 then 0x700 + it.port
  else 0x300 + k

/-- The largest of the quotients, the first on a tie. -/
def worstRate : List (Nat × Frac) → Nat × Frac
  | [] => (0, ⟨0, 1⟩)
  | x :: xs => let y := worstRate xs; if x.2.lt y.2 then y else x

/-- Does some port of this device run GL2 (log entry 46)? -/
def State.slowFabric (s : State) : Bool := (List.range 16).any fun p => s.portUp p && decide (s.rd (fabVer p) = 2)

/-- The charge of item `i` in units of 0.1 ns, and the resource it is charged to (Tables 18.4, 18.5, 18.9). -/
def State.itemCharge (s : State) (p : Plan) (i : Nat) : Nat × Nat :=
  let it := p.item i
  let die := it.crateLo / 96
  if it.kind = 1 ∨ it.kind = 2 then
    let n := if it.kind = 1 then matrixCycles it (p.step (p.stepOf i)).kMin else vectorCycles it
    ((cycles (if p.sharesPort i then 2 * n else n)).addUp ⟨0, 1⟩, 0x100 * it.kind + die)
  else if it.kind = 3 then
    let fixed := s.moveFixed it
    let w := worstRate (s.moveRates p i)
    (fixed.addUp w.2, if w.2.lt fixed then it.pathRes else w.1)
  else if it.kind = 4 then
    let l := fldAt it.param 0 1
    let n := fldAt it.param 1 1
    ((if l = 0 then 200 else if l = 1 then 1500 else if l = 2 then 4000 else if l = 3 then 12000
      else 4000 + n * (if s.slowFabric then 10000 else 5000)), 0x800 + l)
  else
    let d := it.coll
    let a := cNext d
    let b := cPrev d
    let q := if s.portBw a < s.portBw b then a else if s.portBw b < s.portBw a then b
      else if s.portRate p a ≤ s.portRate p b then a else b
    let r := atRate (cSteps d * cSeg d) (s.portRate p q) 100
    (r.addUp ⟨30000 * cSteps d + 50000, 1⟩, 0x700 + q)

/-- The end charge of tally addresses: 150 ns when every one is a die tally, else 400 ns (Table 18.4). -/
def endCharge (as : List Nat) : Nat := if as.all fun a => decide (bitsAt a 14 2 = 2) then 1500 else 4000

/-- The worst-case finish of item `i` from the period start, over at most `n` links, with the items' charges given (R491, R492). -/
def Plan.finish (p : Plan) (ch : List Nat) : Nat → Nat → Nat
  | 0, _ => 0
  | n + 1, i =>
    let st := p.step (p.stepOf i)
    let start := if (p.item i).preds.isEmpty then
        (if st.internal then p.finish ch n st.src + endCharge [st.tally] else 10 * st.offset)
      else maxOf (p.sources i) (p.finish ch n)
    start + ch.getD i 0

/-- The worst-case finish of item `i`. -/
def Plan.finishOf (p : Plan) (ch : List Nat) (i : Nat) : Nat := p.finish ch (p.items.length + 1) i

/-- The worst-case trigger and end of step `j` (R491, R492). -/
def Plan.trigOf (p : Plan) (ch : List Nat) (j : Nat) : Nat :=
  let st := p.step j
  if st.internal then p.finishOf ch st.src + endCharge [st.tally] else 10 * st.offset
def Plan.endOf (p : Plan) (ch : List Nat) (j : Nat) : Nat :=
  let st := p.step j
  maxOf st.members (p.finishOf ch) + endCharge st.ends

/-- The items of the critical path that ends at item `i`, first item first: at each item the predecessor that finishes latest. -/
def Plan.pathTo (p : Plan) (ch : List Nat) : Nat → Nat → List Nat
  | 0, i => [i]
  | n + 1, i =>
    let ps := (p.item i).preds
    let top := maxOf ps (p.finishOf ch)
    match ps.find? fun j => decide (p.finishOf ch j = top) with
    | none => [i]
    | some j => p.pathTo ch n j ++ [i]

/-- The critical resource of step `j` and the first item of its critical path that is charged to it (R501, R502). -/
def Plan.critical (p : Plan) (ch res : List Nat) (j : Nat) : Nat × Nat :=
  let st := p.step j
  let top := maxOf st.members (p.finishOf ch)
  let last := (st.members.find? fun i => decide (p.finishOf ch i = top)).getD st.first
  let path := p.pathTo ch st.count last
  let sync := 0x800 + (if st.ends.all fun a => decide (bitsAt a 14 2 = 2) then 1 else 2)
  let parts := (path.map fun i => (res.getD i 0, ch.getD i 0)) ++ [(sync, endCharge st.ends)]
  let sums := parts.map fun x => (x.1, sumOf (parts.filter fun y => decide (y.1 = x.1)) Prod.snd)
  let best := maxOf sums Prod.snd
  let code := ((leastOf ((sums.filter fun x => decide (x.2 = best)).map Prod.fst)).getD 0)
  (code, ((path.find? fun i => decide (res.getD i 0 = code)).getD 0xFFFF))

/-! Power charges (Table 18.6), in units of 0.125 W / 1,600. -/

/-- The factor in percent of the matrix rows under the profile in force (Table 22.6). -/
def State.arrayPct (s : State) : Nat :=
  let v := s.rd ⟨0x500028, 0, 3⟩
  if v % 2 = 0 ∨ v / 2 = 0 then 100 else if v / 2 = 1 then 96 else 92

/-- The weight of a matrix class: 9, 8 or 7 sixteenths of a unit for each step of K. -/
def classWeight : MClass → Nat
  | .c4 => 9
  | .c816 => 8
  | _ => 7

/-- The charge of crate `c` in a step. -/
def State.cratePower (s : State) (p : Plan) (st : PStep) (c : Nat) : Nat :=
  let its := (st.members.map p.item).filter fun it => it.inCrate c
  let cls := maxOf (its.filter fun it => decide (it.kind = 1)) fun it => match mxOf it.run with
    | some x => classWeight x.cls
    | none => 0
  (if its.isEmpty then 0 else 3200) + cls * st.kMin * s.arrayPct +
    (if its.any fun it => decide (it.kind = 2) then 1600 else 0) + (if its.any fun it => decide (it.kind = 3) then 1600 else 0)

/-- A step's charge to quadrant group `g` (R497). -/
def State.stepGroup (s : State) (p : Plan) (st : PStep) (g : Nat) : Nat :=
  sumOf ((List.range 384).filter fun c => decide (quadOfCrate c = g)) (s.cratePower p st)

/-- The plan's reservation of group `g`, in units of 0.125 W rounded up (R497). -/
def State.planResv (s : State) (p : Plan) (g : Nat) : Nat :=
  if g < 16 then
    (sumOf (List.range 8) (fun l => maxOf (p.steps.filter fun st => decide (st.lane = l)) fun st => s.stepGroup p st g) + 1599) / 1600
  else if g = 17 then (((sumOf p.near fun n => n) + p.spread) * 1408 + 9999) / 10000
  else 0

/-! The checks (R488, R494 to R499). -/

/-- What a stocktake finds: REASON, step, resource, the slack or shortfall, and how many steps it priced. -/
structure Found where
  reason : Nat
  step : Nat
  res : Nat
  amount : Int
  priced : Nat
  deriving DecidableEq, Repr

/-- PLACEMENT (R498): the first item with tiles in a quadrant that is off or switching, or in a crate reported failed. -/
def State.placementBad (s : State) (p : Plan) : Option Nat :=
  (List.range p.items.length).find? fun i =>
    decide ((p.item i).tiles ≠ 0) && (p.item i).crates.any fun c => !s.domPowered (quadOfCrate c) || s.offline 2 c

/-- LANE_ORDER (R488, R509): the first step that breaks the rule. -/
def Plan.laneBad (p : Plan) (ch : List Nat) : Option Nat :=
  (List.range p.steps.length).find? fun j =>
    let st := p.step j
    if j = 0 ∧ p.anchor ∧ !(decide (st.trig = 1) && decide (st.src = 0xFFFF)) then true
    else
      match ((List.range j).filter fun k => decide ((p.step k).lane = st.lane)).getLast? with
      | none => false
      | some k =>
        let ms := (p.step k).members
        let sinks := ms.filter fun i => !(ms.any fun m => decide (i ∈ (p.item m).preds))
        !(st.internal && decide (st.src ∈ sinks) && decide (p.finishOf ch st.src = maxOf sinks (p.finishOf ch)))

/-- NOT_CHARGEABLE (R494): the first engine item without SCRATCH. The other cases have no code in an image. -/
def Plan.unchargeable (p : Plan) : Option Nat :=
  (List.range p.items.length).find? fun i => decide ((p.item i).kind = 1 ∨ (p.item i).kind = 2) && !bitAt (p.item i).flags 0

/-- Does port `q` fail R496 for a plan? -/
def State.portBad (s : State) (p : Plan) (q : Nat) : Bool :=
  let r := p.ports.getD q 0
  let hatch := p.items.any fun it => decide (it.kind = 3) && decide (it.path = 5) && decide (it.port = q)
  let coll := p.items.any fun it => decide (it.kind = 5) && (decide (cNext it.coll = q) || decide (cPrev it.coll = q))
  (decide (r % 128 ≠ 0) || hatch || coll) &&
    (!s.portUp q || decide (s.rd (fenceMode q) ≠ 1) || decide (s.rd (fenceJob q) ≠ p.job) || decide (r % 128 = 0) ||
      (hatch && bitAt r 7) || (coll && !bitAt r 7) || (coll && decide (s.rd (fabVer q) ≠ 3)))

/-- CELLAR (R495): the resource and the shortfall in GB/s of the first reservation that does not fit. -/
def State.cellarBad (s : State) (p : Plan) : Option (Nat × Nat) :=
  let h := 100 - p.headroom
  let stack := (List.range 20).find? fun st =>
    let on := ((List.range 32).filter fun c => !s.offline 5 (32 * st + c)).length
    decide (20 * h * 2048 * on < (4 * p.near.getD (st / 5) 0 + p.spread) * 100 * 32 * (if s.on (stThrottle st) then 2 else 1))
  match stack with
  | some st =>
    let on := ((List.range 32).filter fun c => !s.offline 5 (32 * st + c)).length
    let need := (4 * p.near.getD (st / 5) 0 + p.spread) * 100 * 32 * (if s.on (stThrottle st) then 2 else 1)
    let den := 20 * 100 * 32 * (if s.on (stThrottle st) then 2 else 1)
    some (if p.near.getD (st / 5) 0 = 0 then 0x500 else 0x400 + st / 5, (need - 20 * h * 2048 * on + den - 1) / den)
  | none =>
    let least := (leastOf ((List.range 4).map fun k => s.bulkH k + s.bulkIo k)).getD 0
    if h * 8 * least < 100 * p.spread then some (0x500, (100 * p.spread - h * 8 * least + 99) / 100) else none

/-- POWER_STEP (R497): the first step whose POWER is below its charge, and the shortfall. -/
def State.powerBad (s : State) (p : Plan) : Option (Nat × Nat) :=
  (List.range p.steps.length).findSome? fun j =>
    let st := p.step j
    let sum := sumOf (List.range 16) (s.stepGroup p st)
    if st.power * 1600 < sum then some (j, (sum - st.power * 1600 + 1599) / 1600) else none

/-- The resource of item `i` by its kind, for reasons that name an item. -/
def Plan.itemRes (p : Plan) (i : Nat) : Nat :=
  let it := p.item i
  if it.kind = 1 ∨ it.kind = 2 then 0x100 * it.kind + it.crateLo / 96
  else if it.kind = 3 then it.pathRes
  else if it.kind = 4 then 0x800 + fldAt it.param 0 1 else 0x700 + cNext it.coll

/-- PERIOD (R498): the lowest lane whose last step ends later than the period, that step and the shortfall. -/
def Plan.periodBad (p : Plan) (ch : List Nat) : Option (Nat × Nat × Nat) :=
  (List.range 8).findSome? fun l =>
    match ((List.range p.steps.length).filter fun j => decide ((p.step j).lane = l)).getLast? with
    | none => none
    | some j => if 10 * p.period < p.endOf ch j then some (l, j, p.endOf ch j - 10 * p.period) else none

/-- The slack of step `j`. -/
def Plan.slackOf (p : Plan) (ch : List Nat) (j : Nat) : Int := (10 * (p.step j).deadline : Nat) - (p.endOf ch j : Int)

/-- The step with the least slack, the lowest on a tie. -/
def Plan.tightest (p : Plan) (ch : List Nat) : List Nat → Nat
  | [] => 0
  | [j] => j
  | j :: js => let k := p.tightest ch js; if p.slackOf ch k < p.slackOf ch j then k else j

/-- The stocktake's checks in order (R499), with the items' charges and resources. -/
def State.judgePlan (s : State) (p : Plan) (ch res : List Nat) : Found :=
  let n := p.steps.length
  let total := 8 * s.rd capBase + sumOf (List.range 18) (s.planResv p)
  match s.placementBad p with
  | some i => ⟨7, p.stepOf i, p.itemRes i, 0, 0⟩
  | none =>
  match p.laneBad ch with
  | some j => ⟨9, j, 0, 0, 0⟩
  | none =>
  match p.unchargeable with
  | some i => ⟨8, p.stepOf i, p.itemRes i, 0, 0⟩
  | none =>
  match (List.range 16).find? (s.portBad p) with
  | some q => ⟨4, 0xFFFF, 0x700 + q, 0, 0⟩
  | none =>
  match s.cellarBad p with
  | some (r, x) => ⟨3, 0xFFFF, r, x, 0⟩
  | none =>
  match s.powerBad p with
  | some (j, x) => ⟨5, j, 0x9FF, x, 0⟩
  | none =>
  if 8 * s.rd capW < total then ⟨6, 0xFFFF, 0x9FF, (total - 8 * s.rd capW : Nat), 0⟩
  else
  match (List.range n).find? fun j => decide (p.slackOf ch j < 0) with
  | some j => ⟨1, j, (p.critical ch res j).1, -p.slackOf ch j, j + 1⟩
  | none =>
  match p.periodBad ch with
  | some (l, j, x) => ⟨2, j, 0xA00 + l, x, n⟩
  | none =>
    let j := p.tightest ch (List.range n)
    ⟨0, j, (p.critical ch res j).1, p.slackOf ch j, n⟩

/-- The entries of the slack table: the priced steps, then the power entry once every step has been priced (R502). -/
def State.slackTable (s : State) (p : Plan) (ch res : List Nat) (priced : Nat) : List (List Byte) :=
  let total := 8 * s.rd capBase + sumOf (List.range 18) (s.planResv p)
  let cap := (8 * s.rd capW : Nat)
  let int4 := fun (x : Int) => toBytes 4 (encodeInt 32 x)
  ((List.range priced).map fun j =>
    let c := p.critical ch res j
    toBytes 2 j ++ toBytes 2 c.1 ++ toBytes 4 (min (p.endOf ch j) (2 ^ 32 - 1)) ++ int4 (p.slackOf ch j) ++ toBytes 2 c.2 ++ toBytes 2 0) ++
  (if priced = p.steps.length then
    [toBytes 2 0xFFFF ++ toBytes 2 0x9FF ++ toBytes 4 total ++ int4 ((cap : Int) - total) ++ toBytes 4 0] else [])

end Sys2Proof.Machine
end

