-- ==== Sys2Proof/Machine/Plan.lean ====
section
/-! DEFINITION. STOCKTAKE, RUN_PLAN, STOP_PLAN and the step monitor (R500 to R520), and the firing of tallies, which the monitor
watches. -/
namespace Sys2Proof.Machine

/-! STOCKTAKE (R487, R500 to R502). -/

/-- Reads an image from the cellar at `a` (R486, R487, R500): the bytes, or an error with the offending offset, or stWAIT as an error. -/
def State.readImage (s : State) (a : Nat) : Except (Nat × Nat) (List Byte) × State :=
  if cellarSize < a + 64 then (.error (0x0200, 0), s)
  else
    match s.copyRead a 64 with
    | (.bad st, s1) => (.error (if st = stWAIT then (stWAIT, 0) else (0x0200, 0)), s1)
    | (.ok h, s1) =>
      let len := fldAt h 4 4
      if fldAt h 0 2 ≠ 1 then (.error (0x0201, 0), s1)
      else if len < 128 ∨ 2 ^ 20 < len ∨ len % 8 ≠ 0 ∨ cellarSize < a + len then (.error (0x0201, 4), s1)
      else
        match s1.copyRead a len with
        | (.bad st, s2) => (.error (if st = stWAIT then (stWAIT, 0) else (0x0200, 0)), s2)
        | (.ok bs, s2) =>
          match imageBad bs with
          | some o => (.error (0x0201, o), s2)
          | none => (.ok bs, s2)

/-- Is a job admitted under this ID? -/
def State.jobAdmittedIs (s : State) (job : Nat) : Bool := decide (s.rd jobState = 2) && decide (s.rd jobId = job)

/-- What a stocktake finds over a sound image of the admitted job, under the conditions as they stand (R489, R501 to R503). -/
def State.takeOf (s : State) (p : Plan) : Take :=
  let cr := (List.range p.items.length).map (s.itemCharge p)
  let ch := cr.map Prod.fst
  let res := cr.map Prod.snd
  let f := s.judgePlan p ch res
  let q := { p with
    lens := (List.range p.steps.length).map fun j => p.endOf ch j - p.trigOf ch j
    resv := (List.range 18).map (s.planResv p) }
  ⟨s.rd plnCondGen, f.reason, toBytes 2 f.step ++ toBytes 2 f.res ++ toBytes 4 (encodeInt 32 f.amount), q,
    s.slackTable p ch res f.priced, 0⟩

/-- A running stocktake goes on: it writes its next slack-table entry, as far as RESULT_LEN holds it (R500, R502), or, with none left, ends
with its verdict, CHANGED where COND_GEN has changed since its start, and keeps the plan that it accepts (R489, R501, R503). -/
def State.takeOn (s : State) (c : Cmd) (t : Take) : State :=
  match t.table with
  | e :: es =>
    let ra := c.fld 32 8
    let fits := decide (ra ≠ 0) && decide (16 * (t.done + 1) ≤ c.fld 40 4)
    let s := if fits then s.postCellar (ra + 16 * t.done) e else s
    s.setCmd { c with
      progress := min (t.done + 1) c.total
      valid := if fits then 16 * (t.done + 1) else c.valid
      take := some { t with table := es, done := t.done + 1 } }
  | [] =>
    let changed := b2n (decide (s.rd plnCondGen ≠ t.token))
    let s := if t.reason = 0 then State.wr (State.wr { s with plan := some t.plan } plnId t.plan.id) plnToken t.token else s
    s.endCmd { c with detail := toBytes 2 (t.reason + 0x8000 * changed) ++ t.verdict ++ toBytes 2 t.token, take := none } 3 0

/-- The `n`th command, where it is a stocktake under way, with what it found. -/
def State.taking (s : State) (n : Nat) : Option (Cmd × Take) :=
  (s.cmds[n]?).bind fun c => if c.opcode = 0x20 ∧ c.st = 2 then c.take.map fun t => (c, t) else none

/-- STOCKTAKE (R486 to R503): the `n`th command starts, or, where it is a stocktake under way, goes on (log entry 70). A stocktake needs
the resident driver to its end (R437). -/
def execStocktake (n : Nat) (s : State) : Res :=
  match s.taking n with
  | some (c, t) => if s.on drvLost then .next (s.endCmd c 5 0x0100) else .next (s.takeOn c t)
  | none =>
  s.startCmd n 0x20 fun c s =>
    let a := c.fld 24 8
    let ra := c.fld 32 8
    if decide (a % 8 ≠ 0) || decide (ra % 16 ≠ 0) || (decide (ra ≠ 0) && decide (cellarSize < ra + c.fld 40 4)) then
      .next (s.endCmd c 5 0x0004)
    else
      match s.readImage a with
      | (.error (e, o), s1) =>
        if e = stWAIT then .next s else .next (s1.endCmd { c with detail := if e = 0x0201 then toBytes 4 o else [] } 5 e)
      | (.ok bs, s1) =>
        let p := planOf bs
        if !s1.jobAdmittedIs p.job then .next (s1.endCmd c 5 0x0202)
        else
          .next (s1.noteCmd { c with total := p.steps.length, take := some (s1.takeOf p) } 2)

/-! Set-up and release (R505, R507, R508). -/

/-- Writes a reservation as the resident driver does, none where R463 refuses it. -/
def State.tryResv (s : State) (g v : Nat) : Option State := if s.resvFits g v then some (s.wr (grpResv g) v) else none

/-- Step 1 of R505: every group's RESV, none where one is refused. -/
def State.setResvs (s : State) (p : Plan) : Option State :=
  (List.range 18).foldlM (fun s g => s.tryResv g (p.resv.getD g 0)) s

/-- The largest K_MIN among the steps that use crate `c`, none where no step does. -/
def Plan.floorOf (p : Plan) (c : Nat) : Option Nat :=
  let ks := (p.steps.filter fun st => st.members.any fun i => (p.item i).inCrate c).map PStep.kMin
  if ks.isEmpty then none else some (maxOf ks fun k => k)

/-- Step 2 of R505. -/
def State.setFloors (s : State) (p : Plan) : State :=
  (List.range 384).foldl (fun s c => match p.floorOf c with
    | some k => s.wr (issueFloor c) k
    | none => s) s

/-- Step 3 of R505: the cellar reservation as a share of 40.96 TB/s, rounded up to a multiple of 5, and at least 10 (Table 17.5). -/
def Plan.minPct (p : Plan) : Nat := max 10 ((((sumOf p.near fun n => n) + p.spread) * 100 + 204799) / 204800 * 5)

/-- The weight of a VC on a fabric port in the round-robin of Table 13.4, with a running plan's reservation (R507).
Packets leave one by one in this model, so that no command reads it. -/
def State.vcWeight (s : State) (p vc : Nat) : Nat :=
  let base := fun v => if v = 1 then 1 else if v = 2 then 2 else if v = 4 ∨ v = 5 then 6 else 0
  match s.planRun with
  | none => base vc
  | some r =>
    let x := r.plan.ports.getD p 0
    let v := if bitAt x 7 then 4 else 5
    if x % 128 = 0 ∨ vc ≠ v then base vc
    else (9 * (x % 128) + (99 - x % 128)) / (100 - x % 128)

/-- Releases everything that R505 set up, and stops the monitor (R508). -/
def State.releasePlan (s : State) : State :=
  let s := { s with planRun := none }
  let s := s.wr ceilMin 10
  let s := (List.range 384).foldl (fun s c => s.wr (issueFloor c) 1) s
  let s := (List.range 18).foldl (fun s g => s.wr (grpResv g) 0) s
  let s := (s.wr plnState 0).wr plnGuarantee 0
  s.wr plnSuspend (s.causesNow (fun _ => true) fun _ => true)

/-- The running RUN_PLAN command. -/
def State.runCmd (s : State) : Option Cmd := s.cmds.find? fun c => decide (c.opcode = 0x21) && decide (c.st = 2)

/-- DETAIL and PROGRESS of RUN_PLAN as the monitor stands. -/
def PRun.report (r : PRun) (c : Cmd) : Cmd :=
  { c with progress := r.period, total := r.periods, detail := toBytes 4 r.nLate ++ toBytes 4 r.nSusp ++ toBytes 2 r.lastLate }

/-- Keeps RUN_PLAN's DETAIL and PROGRESS current. -/
def State.showRun (s : State) : State :=
  match s.planRun, s.runCmd with
  | some r, some c => s.setCmd (r.report c)
  | _, _ => s

/-- The plan ends: it is released, RUN_PLAN ends with its final record, and every STOP_PLAN that waits ends DONE after it (R508,
R518). -/
def State.endPlan (s : State) (done : Nat) (st err : Nat) : State :=
  match s.planRun with
  | none => s
  | some r =>
    let cmd := s.runCmd
    let s := s.releasePlan
    let s := match cmd with
      | some c => s.endCmd { r.report c with progress := done } st err
      | none => s
    (s.cmds.filter fun c => decide (c.opcode = 0x22) && decide (c.st = 2)).foldl (fun s c => s.endCmd c 3 0) s

/-- An abort (R517): the event, the release, the fault and RUN_PLAN's end. -/
def State.abortPlan (s : State) (err step : Nat) : State :=
  match s.planRun with
  | none => s
  | some r =>
    let s := s.planEvent 8 step r.period 0 (Nat.lor r.causes r.lost) 0
    (s.raise 0x0904 0 0 []).endPlan r.period 4 err

/-- RUN_PLAN (R504, R505, R509, R520). -/
def execRunPlan (n : Nat) (s : State) : Res :=
  s.startCmd n 0x21 fun c s =>
    let base := c.fld 40 8
    let lg := c.fld 48 1
    match s.plan with
    | none => .next (s.endCmd c 5 (if s.rd jobState = 2 then (if s.planRun.isSome then 0x0203 else 0x0204) else 0x0202))
    | some p =>
      if !s.jobAdmittedIs p.job then .next (s.endCmd c 5 0x0202)
      else if s.planRun.isSome then .next (s.endCmd c 5 0x0203)
      else if c.fld 24 4 ≠ p.id ∨ c.fld 28 2 ≠ s.rd plnToken then .next (s.endCmd c 5 0x0204)
      else if s.rd plnCondGen ≠ c.fld 28 2 then .next (s.endCmd c 5 0x0205)
      else if base % 32 ≠ 0 ∨ lg < 4 ∨ 16 < lg ∨ cellarSize < base + 32 * 2 ^ lg then .next (s.endCmd c 5 0x0207)
      else
        match s.setResvs p with
        | none => .next ((s.wr govResvRefused 1).endCmd c 5 0x0205)
        | some s1 =>
          let s1 := (s1.setFloors p).wr ceilMin p.minPct
          let s1 := s1.resetRegs 0x4A100 0x4B100 fun _ => false
          let s1 := ((s1.wr plnEvHead 0).wr plnEvTail 0).wr plnEvLost 0
          let s1 := ((s1.wr plnState 1).wr plnGuarantee 1).wr plnPeriods 0
          let causes := s1.causesNow p.usesCrate p.usesStack
          let r : PRun :=
            { plan := p, periods := c.fld 32 8, evBase := base, evLog := lg, seq := 0, starts := [], fires := [], insts := []
              causes := causes, lost := 0, timed := [], nLate := 0, nSusp := 0, lastLate := 0, stopAt := none }
          -- the tick at which the monitor is armed is where period 0 of ANCHOR = 0 starts
          let r := { r with fires := if p.anchor then [] else [s.plt] }
          .next (State.noteCmd { s1 with planRun := some r } { c with total := c.fld 32 8 } 2)

/-- STOP_PLAN (R518). -/
def execStopPlan (n : Nat) (s : State) : Res :=
  s.startCmd n 0x22 fun c s =>
    match s.planRun with
    | none => .next (s.endCmd c 5 0x0206)
    | some r =>
      let at' := r.stopAt.getD s.plt
      .next (State.noteCmd (State.wr { s with planRun := some { r with stopAt := some at' } } plnState 2) c 2)

/-- PLAN_STOP_COMPLETE (R508, R518): after STOP_PLAN, the unfinished instances have ended, or two periods have passed. -/
def execPlanStopComplete (s : State) : Res :=
  match s.planRun with
  | none => .next s
  | some r =>
    match r.stopAt with
    | none => .next s
    | some t =>
      if r.insts.isEmpty ∨ t + 2 * (r.plan.period / 40) ≤ s.plt then .next (s.endPlan r.period 3 0) else .next s

/-! Periods and instances (R509 to R513). -/

/-- Ticks of a period. -/
def PRun.ticks (r : PRun) : Nat := r.plan.period / 40

/-- The nominal start of the next period, none before the first one of ANCHOR = 1. -/
def PRun.nominal (r : PRun) : Option Nat :=
  if r.plan.anchor then r.starts.getLast?.map (· + r.ticks)
  else r.fires.head?.map (· + r.starts.length * r.ticks)

/-- Have PERIODS periods started? -/
def PRun.full (r : PRun) : Bool := decide (r.periods ≠ 0) && decide (r.periods ≤ r.starts.length)

/-- A period starts at tick `t`. -/
def State.startPeriod (s : State) (r : PRun) (t : Nat) : State :=
  let s : State := { s with planRun := some { r with starts := r.starts ++ [t] } }
  (s.wr plnPeriods (r.starts.length + 1)).showRun

/-- PERIOD_START (R508, R509, R518): the next period's start has come, or with PERIODS periods started the last one has ended. -/
def execPeriodStart (s : State) : Res :=
  match s.planRun with
  | none => .next s
  | some r =>
    match r.nominal with
    | none => .next s
    | some n =>
      if r.stopAt.isSome then .next s
      else if r.full then (if n ≤ s.plt then .next (s.endPlan r.starts.length 3 0) else .next s)
      else if r.plan.anchor then
        -- the re-anchoring window has passed without step 0's firing
        (if n + (r.plan.slip + 39) / 40 < s.plt then .next (s.startPeriod r n) else .next s)
      else if n ≤ s.plt then .next (s.startPeriod r n) else .next s

/-- The period of an instance that starts at tick `t`: the latest whose start does not follow it. -/
def PRun.periodAt (r : PRun) (t : Nat) : Nat := (r.starts.filter fun x => decide (x ≤ t)).length - 1

/-- An instance of step `j` starts at tick `t` (R510, R511, R513). -/
def State.startInst (s : State) (j t : Nat) : State :=
  match s.planRun with
  | none => s
  | some r =>
    let st := r.plan.step j
    let p := r.periodAt t
    let causes := Nat.lor r.causes r.lost
    let s := if bitAt st.hint 0 then
        s.putHint (0xF000 + j) (bitsAt st.hint 1 2) (bitsAt st.hint 3 1) ((st.power + 7) / 8)
          (max 1 ((r.plan.lens.getD j 0 + 159999) / 160000))
      else s
    if 4 ≤ (r.insts.filter fun i => decide (i.step = j)).length then
      ((s.bump (stepOverrun j)).planEvent 7 j p 0 causes 0).planEvent 1 j p 0xFFFFFFFF causes 0
    else
      { s with planRun := s.planRun.map fun r => { r with insts := r.insts ++ [⟨j, p, t, st.ends, causes, false⟩] } }

/-- Ticks of OFFSET_NS, rounded up. -/
def PStep.offTicks (st : PStep) : Nat := (st.offset + 39) / 40

/-- TIME_STEP_START (R510): step `j`, a TIME step, starts in the earliest started period in which it has not, once its tick has
come. -/
def execTimeStepStart (j : Fin 256) (s : State) : Res :=
  match s.planRun with
  | none => .next s
  | some r =>
    let st := r.plan.step j
    if r.stopAt.isSome ∨ r.plan.steps.length ≤ j ∨ st.trig ≠ 0 then .next s
    else
      match (List.range r.starts.length).find? fun p => decide (256 * p + j.val ∉ r.timed) with
      | none => .next s
      | some p =>
        let t := r.starts.getD p 0 + st.offTicks
        if s.plt < t then .next s
        else
          let s : State := { s with planRun := some { r with timed := r.timed ++ [256 * p + j.val] } }
          let s := if st.tally = 0 then s else s.sendInc ⟨st.tally, none, 1, 3, 0, 4⟩
          .next (s.startInst j t)

/-! Firings that the monitor watches (R509, R510, R512). -/

/-- An instance ends (R512, R515, R516). -/
def State.endInst (s : State) (i : PInst) : State :=
  match s.planRun with
  | none => s
  | some r =>
    let start := r.starts.getD i.period 0
    let ns := (s.plt - start) * 40
    let dl := (r.plan.step i.step).deadline
    let susp := decide (Nat.lor i.causes r.lost ≠ 0)
    let late := decide (dl + 40 < ns)
    let s : State := { s with planRun := some { r with
      nSusp := r.nSusp + b2n susp, nLate := r.nLate + b2n late, lastLate := if late then i.step else r.lastLate } }
    let s := if s.rd (stepWorst i.step) < ns then s.wr (stepWorst i.step) (min ns 0xFFFFFFFF) else s
    let s := if susp then s.bump (stepSuspended i.step) else s
    let s := if late then s.planEvent 1 i.step i.period (min (ns - dl) 0xFFFFFFFE) (Nat.lor i.causes r.lost) 0 else s
    let s := s.showRun
    if late && !susp && r.plan.abortLate then s.abortPlan 0x0220 i.step else s

/-- A firing of tally address `a` as an END tally: of each step, the oldest unfinished instance that awaits it counts it. -/
def awaitOne (a : Nat) : List Nat → List PInst → List PInst
  | _, [] => []
  | seen, i :: is =>
    if decide (a ∈ i.ends) && !decide (i.step ∈ seen) then { i with ends := i.ends.filter fun x => decide (x ≠ a) } :: awaitOne a (i.step :: seen) is
    else i :: awaitOne a seen is

/-- The monitor's ends at a firing. -/
def State.firedEnd (s : State) (a : Nat) : State :=
  match s.planRun with
  | none => s
  | some r =>
    let is := awaitOne a [] r.insts
    let ended := is.filter fun i => i.ends.isEmpty
    let s : State := { s with planRun := some { r with insts := is.filter fun i => !i.ends.isEmpty } }
    ended.foldl State.endInst s

/-- Step 0's firing under ANCHOR = 1: it starts the next period where R509 says so. -/
def State.firedAnchor (s : State) : State :=
  match s.planRun with
  | none => s
  | some r =>
    let f := r.fires.length
    let r := { r with fires := r.fires ++ [s.plt] }
    let s : State := { s with planRun := some r }
    if f = r.starts.length ∧ !r.full then
      match r.nominal with
      | none => s.startPeriod r s.plt
      | some n => s.startPeriod r (if s.plt ≤ n + (r.plan.slip + 39) / 40 then s.plt else n)
    else s

/-- The monitor's starts at a firing of tally address `a`, for the steps of the running plan that it triggers. -/
def State.firedStart (s : State) (a : Nat) : State :=
  match s.planRun with
  | none => s
  | some r =>
    (List.range r.plan.steps.length).foldl (fun s j =>
      match s.planRun with
      | none => s
      | some r =>
        let st := r.plan.step j
        if st.trig ≠ 1 ∨ st.tally ≠ a ∨ r.stopAt.isSome then s
        else
          let s := if j = 0 ∧ r.plan.anchor then s.firedAnchor else s
          let r := s.planRun.getD r
          if r.starts.isEmpty then s
          else
            let p := r.periodAt s.plt
            let ns := (s.plt - r.starts.getD p 0) * 40
            let s := if st.src = 0xFFFF ∧ st.offset + 40 < ns then
                s.planEvent 2 j p (ns - st.offset) (Nat.lor r.causes r.lost) 0
              else s
            s.startInst j s.plt) s

/-- TALLY_FIRE (R234 to R237, R509 to R517): a tally whose VALUE has reached its TARGET fires, and the step monitor sees it. -/
def execTallyFire (l : TallyLoc) (s : State) : Res :=
  if s.canFire l && l.exists' then .next (((s.fireTally l).firedEnd l.addr).firedStart l.addr) else .next s

/-! Step-fatal faults (R516), handled with the records of a tick. -/

/-- The crate of a fault's unit: a tile's or a crate's. -/
def FRec.crate (r : FRec) : Option Nat := if r.kind = 1 then some (r.index / 64) else if r.kind = 2 then some r.index else none

/-- A step-fatal fault in a crate of unfinished instances' items (R516). -/
def State.stepFatal (s : State) (x : FRec) : State :=
  match s.planRun, x.crate with
  | some r, some c =>
    let hit := fun (i : PInst) => (r.plan.step i.step).members.any fun k => (r.plan.item k).inCrate c
    let new := r.insts.filter fun i => hit i && !i.failed
    let s : State := { s with planRun := some { r with insts := r.insts.map fun i => if hit i then { i with failed := true } else i } }
    let s := new.foldl (fun (s : State) i =>
      (s.bump (stepFailed i.step)).planEvent 3 i.step i.period 0 (Nat.lor i.causes r.lost) 0) s
    if r.plan.abortFail ∧ r.insts.any hit then s.abortPlan 0x0221 ((r.insts.filter hit).head?.map PInst.step |>.getD 0) else s
  | _, _ => s

/-! EV_TAIL (R520). -/

/-- A write of EV_TAIL: ignored where it would move EV_TAIL backwards or past EV_HEAD. -/
def State.evTailWrite (s : State) (w : Word) : State :=
  let new := w.toNat % 65536
  let old := s.rd plnEvTail
  if (s.rd plnEvHead + 65536 - old) % 65536 < (new + 65536 - old) % 65536 then s else s.wr plnEvTail new

/-- EV_TAIL_WRITE (R520): from host cores and host ports. -/
def execEvTailWrite (src : Src) (w : BitVec 32) (s : State) : Res :=
  if s.mayWrite src 0x4A010 && s.domOn 22 then .next (s.evTailWrite w) else .next s

end Sys2Proof.Machine
end

