-- ==== Sys2Proof/Machine/Job.lean ====
section
/-! DEFINITION. Jobs: admission, fences, teardown, wipe certificates and signing keys (R546 to R563, R586, R587). -/
namespace Sys2Proof.Machine

/-! Registers of JOB and of the owner key slots (Tables 20.6, 19.13). -/
def jobTdStep : Fld := ⟨0x440004, 0, 3⟩
def jobTdError : Fld := ⟨0x440004, 16, 16⟩
def jobSeqLast : Nat := 0x440008
def akGen : Fld := ⟨0x440020, 0, 32⟩
def akUsed : Fld := ⟨0x440024, 0, 21⟩
def ikUsed : Fld := ⟨0x440028, 0, 17⟩
def akNext : Fld := ⟨0x440028, 17, 1⟩
def jobCert : Nat := 0x441000
def jobAkCert : Nat := 0x442000
def keyState (i : Nat) : Fld := ⟨0x4C0100 + 0x40 * i, 0, 2⟩
def keyHashAt (i : Nat) : Nat := 0x4C0120 + 0x40 * i
def updState : Fld := ⟨0x4C0300, 2, 2⟩

/-- The serial of the package. -/
def State.serial (s : State) : List Byte := s.wordBytes 0x10 4

/-! Signed images (Table 19.4, R535, R536, R548). -/

/-- The signature length of an accepted XMSS parameter set, none for any other OID. -/
def sigLen (oid : Nat) : Option Nat := if oid = 0x10 then some 2500 else if oid = 0x11 then some 2692 else if oid = 0x12 then some 2820 else none

/-- The key hash of a 68-byte public key: the first 32 bytes of the digest (log entry 15). -/
def keyHash (key : List Byte) : Nat := Config.digest key % 2 ^ 256

/-- Does the signature after `n` bytes of an image verify over them under a key? -/
def sigOk (bs key : List Byte) (n len : Nat) : Bool := Config.verify (ofBytes key) (ofBytes (bs.take n)) (fldAt bs n len)

/-- The hash that an owner key slot holds. -/
def State.slotHash (s : State) (i : Nat) : Nat := ofBytes (s.wordBytes (keyHashAt i) 8)

/-- The active owner key slot that a key hashes to. -/
def State.activeSlot (s : State) (key : List Byte) : Option Nat :=
  (List.range 4).find? fun i => decide (s.rd (keyState i) = 1) && decide (s.slotHash i = keyHash key)

/-! Admission (R548 to R550). -/

/-- Devices that a manifest names, its key and its key block's place. -/
def manPlaces (bs : List Byte) : List Nat := (List.range (fldAt bs 12 4)).map fun i => fldAt bs (64 + 4 * i) 4
def manKeyAt (bs : List Byte) : Nat := 64 + 4 * fldAt bs 12 4
def manKey (bs : List Byte) : List Byte := (bs.drop (manKeyAt bs)).take 68

/-- Do the numbers stand in strictly ascending order? -/
def rising : List Nat → Bool
  | x :: y :: l => decide (x < y) && rising (y :: l)
  | _ => true

/-- Is the manifest well formed (Table 20.2, R582, R586)? Every place address with UNIT 0 has its fields in range (R14). -/
def manifestOk (bs : List Byte) : Bool :=
  let f := fldAt bs
  let flags := f 11 1
  let flagsOk := if f 5 1 = 0 then decide (flags < 2)
    else decide (flags < 16) && decide (bitsAt flags 2 2 ≠ 3) && (bitAt flags 1 || decide (bitsAt flags 2 2 = 0))
  decide (f 0 4 = 0x4D424F4A) && decide (f 4 1 = 1) && flagsOk && decide (f 40 24 = 0) &&
    decide (1 ≤ f 12 4) && decide (f 12 4 ≤ 262144) &&
    (match sigLen (f (manKeyAt bs) 4) with
     | some n => decide (bs.length = manKeyAt bs + 72 + n)
     | none => false) &&
    decide (f (manKeyAt bs + 68) 4 = 0) && ((manPlaces bs).all fun a => decide (a % 4096 = 0)) && rising (manPlaces bs)

/-- The checks of Table 20.3 on a manifest that has been read: the error of the first one that fails. -/
def State.manifestError (s : State) (bs : List Byte) : Option Nat :=
  let f := fldAt bs
  let key := manKey bs
  if !manifestOk bs then some 0x0402
  else if f 8 3 = 0 then some 0x0409
  else if (s.activeSlot key).isNone || !sigOk bs key (manKeyAt bs + 72) ((sigLen (f (manKeyAt bs) 4)).getD 0) then some 0x0403
  else if f 24 16 ≠ ofBytes s.list.inst then some 0x0406
  else if f 16 8 ≤ s.reg64 jobSeqLast then some 0x0404
  else if devPlace s.place ∉ manPlaces bs then some 0x0405
  else none

/-- The fence that a port receives at admission (R550). -/
def State.admitFence (s : State) (p : Nat) : Nat :=
  if s.rd (fabLevel p) = 7 then 0
  else if s.portUp p && decide (devPlace (s.rd (fabPartner p)) ∈ s.job.places) then 1
  else 2

/-- Writes every fence at admission; the ports whose mode changes are the ones that the admission waits for (R549, R550). -/
def State.admitFences (s : State) (job : Nat) : State :=
  let modes := (List.range 16).map fun p => (p, s.admitFence p)
  let changed := (modes.filter fun q => decide (s.rd (fenceMode q.1) ≠ q.2)).map Prod.fst
  let s := modes.foldl (fun s q => s.setFence q.1 q.2 (if q.2 = 1 then job else 0)) s
  { s with admitPorts := changed.filter fun p => decide (s.rd (fabLevel p) ≠ 7) }

/-- Steps 1 to 4 of an accepted admission (R549), and its profile (R586, R587). -/
def State.admitJob (s : State) (c : Cmd) (bs : List Byte) : State :=
  let f := fldAt bs
  let s := (s.commit 0x440000 (toBytes 8 (f 16 8))).setReg64 jobSeqLast (f 16 8)
  let s := (s.wr jobId (f 8 3)).wr jobState 1
  let s : State := { s with job := ⟨manPlaces bs, f 11 1, f 6 2, f 16 8⟩ }
  let s := s.wr verProfile (if f 5 1 = 0 then 0 else bitsAt (f 11 1) 1 3)
  let s := (s.admitFences (f 8 3)).condChange
  s.noteCmd c 2

/-- ADMIT_JOB (R546 to R550, R582, R586). -/
def execAdmitJob (n : Nat) (s : State) : Res :=
  s.startCmd n 0x10 fun c s =>
    let a := c.fld 24 8
    let len := c.fld 32 4
    let st := s.rd jobState
    if st = 1 ∨ st = 2 then .next (s.endCmd c 5 0x0400)
    else if st ≠ 0 then .next (s.endCmd c 5 0x0408)
    else if s.rd updState = 1 then .next (s.endCmd c 5 0x0407)
    else if a % 8 ≠ 0 then .next (s.endCmd c 5 0x0004)
    else if a < driverReserve ∨ cellarSize < a + len then .next (s.endCmd c 5 0x0401)
    else
      match s.copyRead a len with
      | (.bad e, s1) => if e = stWAIT then .next s else .next (s1.endCmd c 5 0x0401)
      | (.ok bs, s1) =>
        match s1.manifestError bs with
        | some e => .next (s1.endCmd c 5 e)
        | none => .next (s1.admitJob c bs)

/-- A mask of the ports that `p` picks. -/
def portMask (p : Nat → Bool) : Nat := ((List.range 16).map fun i => if p i then 2 ^ i else 0).foldl (· + ·) 0

/-- DETAIL of ADMIT_JOB at its end. -/
def State.admitDetail (s : State) : List Byte :=
  toBytes 2 (portMask fun p => decide (s.rd (fenceMode p) = 1)) ++ toBytes 2 (portMask fun p => decide (s.rd (fenceMode p) = 2)) ++
    toBytes 2 (portMask fun p => s.on (fabFenceDiff p))

/-- ADMIT_RETRAIN_COMPLETE (R549): every port whose fence mode changed has left its retrain. -/
def execAdmitRetrainComplete (s : State) : Res :=
  if s.rd jobState = 1 ∧ s.admitPorts = [] then
    let s := s.wr jobState 2
    match s.cmds.find? fun c => decide (c.opcode = 0x10) && decide (c.st = 2) with
    | some c => .next (s.endCmd { c with detail := s.admitDetail } 3 0)
    | none => .next s
  else .next s

/-! Signing keys (R558 to R561). -/

/-- The three KEYS words, as the strongroom keeps them (log entry 22). -/
def State.commitKeys (s : State) : State := s.commit 0x410000 (s.wordBytes 0x440020 3)

/-- Where the strongroom keeps the next attestation key, as a secret part of the signature state (Table 21.6, log entry 22). -/
def nextKeyAt : Nat := 0x411000

/-- The next attestation key is generated and certified with the identity key, whose index is committed first; with none left,
"identity key exhausted" (R559 to R561). -/
def State.makeKey (s : State) : State :=
  if 65536 ≤ s.rd ikUsed then s.raise 0x0905 0 0 []
  else
    let s := ((s.wr ikUsed (s.rd ikUsed + 1)).wr akNext 1).commitKeys
    let d := s.draw
    let body := toBytes 4 (s.rd akGen + 1) ++ s.serial ++ toBytes 68 d.1
    let sig := Config.sign (2 ^ 64 + s.rd ikUsed - 1) (ofBytes body)
    d.2.commit nextKeyAt (body ++ toBytes 2692 sig)

/-- The certified next key becomes the current one. -/
def State.takeKey (s : State) : State :=
  let cert := readBytes (s.replay).strong nextKeyAt 4096
  let s := s.setWords jobAkCert cert
  (((s.wr akGen (s.rd akGen + 1)).wr akUsed 0).wr akNext 0).commitKeys

/-- ATTESTATION_KEY_GENERATED (R560): the background generation ends, once 4,096 or fewer indices are left. -/
def execAttestationKeyGenerated (s : State) : Res :=
  if 2 ^ 20 ≤ s.rd akUsed + 4096 ∧ !s.on akNext then .next s.makeKey else .next s

/-- Commits the next index of the attestation key and signs with it, generating a key first when none is left (R559, R560); none where
the identity key is exhausted (R561). After the last index the device changes key when one is ready. -/
def State.attest (s : State) (body : State → List Byte) : Option (Nat × Nat × List Byte) × State :=
  let s := if s.rd akUsed < 2 ^ 20 then s else if s.on akNext then s.takeKey else
    (let s := s.makeKey; if s.on akNext then s.takeKey else s)
  if 2 ^ 20 ≤ s.rd akUsed then (none, s)
  else
    let i := s.rd akUsed
    let g := s.rd akGen
    let b := body s
    let s := (s.wr akUsed (i + 1)).commitKeys
    let sig := toBytes 2820 (Config.sign (g * 2 ^ 20 + i) (ofBytes b))
    let s := if i + 1 = 2 ^ 20 ∧ s.on akNext then s.takeKey else s
    (some (g, i, b ++ sig), s)

/-! Teardown (R553 to R557). -/

/-- The running TEARDOWN. -/
def State.tearCmd (s : State) : Option Cmd := s.cmds.find? fun c => decide (c.opcode = 0x11) && decide (c.st = 2)

/-- Shows the step in progress. -/
def State.tearStep (s : State) (k : Nat) : State :=
  let s := s.wr jobTdStep k
  match s.tearCmd with
  | some c => s.setCmd { c with progress := k }
  | none => s

/-- Closes every fence that is not closed already (Table 20.4 step 2, R557). -/
def State.closeFences (s : State) : State := (List.range 16).foldl (fun s p => if s.rd (fenceMode p) = 0 then s else s.setFence p 0 0) s

/-- The teardown ends FAILED: the device enters WIPE_FAILED with every fence closed (R557). -/
def State.tearFail (s : State) (err : Nat) : State :=
  let s := ((s.closeFences.wr jobTdStep 0).wr jobTdError err).wr jobState 4
  let s : State := { s with tear := none }
  match s.tearCmd with
  | some c => s.endCmd c 4 err
  | none => s

/-- Sends FLUSH to every tile queue (R43). -/
def State.flushAll (s : State) : State :=
  s.tiles.foldl (fun s q => if s.tileOn q.1 then [0, 1, 2].foldl (fun s e => s.flushQueue q.1 e) s else s) s

/-- TEARDOWN (R519, R547, R553): accepted from ADMITTED or IDLE; step 1 begins. -/
def execTeardown (n : Nat) (s : State) : Res :=
  s.startCmd n 0x11 fun c s =>
    let a := c.fld 24 8
    let st := s.rd jobState
    if st ≠ 0 ∧ st ≠ 2 then .next (s.endCmd c 5 0x0410)
    else if a ≠ 0 ∧ (a % 8 ≠ 0 ∨ a < driverReserve ∨ cellarSize < a + 2948) then .next (s.endCmd c 5 0x0004)
    else
      let s := s.endPlan ((s.planRun.map PRun.period).getD 0) 4 0x0222
      let s := (s.abandonSlices fun _ => true).wr jobState 3
      let s := if st = 0 then State.wr { s with job := ⟨[], 0, 0xFFFF, 0⟩ } jobId 0 else s
      let s : State := { s.condChange with tear := some ⟨a, s.plt, 0, 0, 0, 0, 0, 0⟩ }
      let s := s.noteCmd { c with total := 7 } 2
      .next (s.tearStep 1).flushAll

/-- Step 1 ends: tiles held, collective queues retired with COLL_ABORT, COPY commands that touch the cellar ended (Table 20.4). -/
def State.tearStop (s : State) : State :=
  let s := (s.tiles.filter fun q => s.tileOn q.1).foldl (fun s q => s.holdTile q.1) s
  let s := s.colls.foldl (fun s c => s.collFail c 6) s
  let s := [0, 1].foldl (fun s e => s.wr (collHead e) (s.rd (collTail e))) s
  let s : State := { s with collEarly := [] }
  (s.cmds.filter fun c => c.touchesCellar && decide (c.st = 2)).foldl (fun s c => s.endCmd c 4 0x0412) s

/-- Has the drain of step 2 ended: no hatch request in flight and no inbound hatch busy? -/
def State.drained (s : State) : Bool :=
  ((List.range 256).all fun w => decide (s.rd (outInflight w) = 0)) && (List.range 256).all fun n => !s.on (inBusy n)

/-- The quadrants that are powered. -/
def State.quadsOn (s : State) : List Nat := (List.range 16).filter s.domPowered

/-- Step 3: every shelf of every powered quadrant is zeroed, disabled ways too; crates whose clock is off are woken (Table 20.4, R72,
R554). -/
def State.tearShelves (s : State) (x : TearInfo) : State :=
  let qs := s.quadsOn
  let mine := fun (t : Nat) => decide (quadOfCrate (t / 64) ∈ qs)
  let ways := sumOf ((List.range 24576).filter mine) fun t => ((List.range 12).filter fun w => bitAt (s.rd (shDisabled t)) w).length
  let off := ((List.range 16).map fun d => if d ∈ qs then 0 else 2 ^ d).foldl (· + ·) 0
  let s := ((List.range 384).filter fun c => s.on (crateStopped c)).foldl (fun s c => s.wr (crateStopped c) 0) s
  { s with
    shelf := s.shelf.filter fun c => !mine (c.1 / 0x40000)
    tiles := s.tiles.foldl (fun m q => putMap Tile.fresh m q.1 (if mine q.1 then { q.2 with lines := [], eccErr := [] } else q.2)) []
    tear := some { x with tiles := 1536 * qs.length, ways := ways, quads := off } }

/-- Step 4 begins: every cluster and the system cache write back or evict what they hold (R296). -/
def State.flushCaches (s : State) : State := s.l2.foldl (fun s q => s.evictLine (q.1 / 2 ^ 36) (q.1 % 2 ^ 36)) s

/-- Once no cache holds a line and nothing is under way, the entries left name only copies that were dropped silently (R283); the homes
drop them (R296). -/
def State.emptyDirs (s : State) : State :=
  if s.l2.isEmpty && s.evicts.isEmpty && (s.creqs.all fun q => decide (q.stage = 3)) && s.txns.isEmpty then
    s.dirs.foldl (fun s d => match s.locate (128 * d.line) with
      | some l => s.dropDir l.home d.line
      | none => s) s
  else s

/-- Has the flush of step 4 ended: no line held, no eviction under way, and every directory empty? -/
def State.cachesEmpty (s : State) : Bool := s.l2.isEmpty && s.evicts.isEmpty && s.dirs.isEmpty

/-- Retired granules outside offline channels. -/
def State.lostGranules (s : State) : List Nat :=
  (s.retired.filter fun q => q.2 && !s.on (celOffline (q.1 / 2 ^ 25) (q.1 / 2 ^ 20 % 32))).map Prod.fst

/-- The offline channels, as 32s + c. -/
def State.lostChannels (s : State) : List Nat := (List.range 640).filter fun i => s.on (celOffline (i / 32) (i % 32))

/-- Granules of a channel (R242): 1.5 GiB in granules of 2 KiB. -/
def chanGranules : Nat := 786432

/-- Must the memory-side fill wait for a line whose copies cannot be cleared yet, as every uncached write does (R290, R291)? -/
def State.fillWaits (s : State) (lo : Nat) : Bool :=
  s.dirs.any fun d => decide (lo ≤ 128 * d.line) && (s.lineBusy d.line || s.clearWaits d.line)

/-- The memory-side fill: zeros in every line from `lo` on. As an uncached write it clears every cached copy first (R291). It discards hamper
entries, clears poison but at retired granules, and counts the writes that it drops there (R266, R524, R555, R556). -/
def State.fill (s : State) (lo : Nat) : State :=
  let s := (s.dirs.filter fun d => decide (lo ≤ 128 * d.line)).foldl (fun s d => match s.locate (128 * d.line) with
    | some l => s.clearCopies l d.line true
    | none => s) s
  let dead := fun (b : Nat) => match s.locate (64 * b) with
    | some l => s.isRetired l
    | none => false
  let s : State := { s with
    cellar := s.cellar.filter fun c => decide (c.1 < lo)
    burstPoison := s.burstPoison.filter fun q => decide (64 * q.1 < lo) || dead q.1
    symErr := s.symErr.filter fun q => decide (64 * q.1 < lo) }
  let s := (List.range 40).foldl (fun s h => s.setHamper h ((s.hamper h).filter fun e => decide (128 * e.line < lo))) s
  (List.range 20).foldl (fun s st =>
    s.bumpBy (celRetiredWr st) (16 * ((s.lostGranules.filter fun g => decide (g / 2 ^ 25 = st)).length +
      chanGranules * (s.lostChannels.filter fun i => decide (i / 32 = st)).length))) s

/-- The driver writes a memory-heavy phase hint for step 5 (R555); its TAG, POWER_W and DURATION are the driver's. -/
def State.tearHint (s : State) : State :=
  let a := s.draw
  let b := a.2.draw
  let c := b.2.draw
  c.2.putHint a.1 2 0 b.1 c.1

/-- Step 5 ends: the fill has covered every line outside the reserve (R555, R556, log entry 47). -/
def State.tearCellar (s : State) (x : TearInfo) : State :=
  let gs := s.lostGranules
  let nc := s.lostChannels.length
  let pages := (gs.filterMap fun g =>
    (s.burstAddr (g / 2 ^ 25) (g / 2 ^ 20 % 32) 0 (g % 2 ^ 20) 0).map (· / 4096)).eraseDups.length
  let x := { x with
    zeroed := cellarSize - driverReserve - 2048 * (gs.length + chanGranules * nc)
    skipped := min 0xFFFF (pages + chanGranules * nc) }
  let s := s.fill driverReserve
  { s with tear := some x }

/-- Words of FAB that a teardown leaves: CTL of the ports, and what shows the live state of the links (Table 23.6, log entry 48). -/
def fabKept (a : Nat) : Bool :=
  (decide (0x290000 ≤ a) && decide (a < 0x294000) && (decide (a % 0x400 = 0) || decide (a % 0x400 = 8) || decide (a % 0x400 = 12))) ||
    (decide (0x2B0000 ≤ a) && decide (a < 0x2B0140) && decide (a % 0x40 = 0x18))

/-- Step 6: the registers that Table 23.6 names return to reset, and with them what they show. -/
def State.tearTables (s : State) : State :=
  let s : State := { s.dropXlate with sds := [], sdNum := 0, sdLast := 0, sdRecent := [], inReqs := [] }
  let s : State := { s with crates := s.crates.foldl (fun m q => putMap Crate.fresh m q.1 { q.2 with walks := [], sdDone := 0 }) [] }
  let s := s.resetRegs 0x200000 0x280000 fun _ => false
  let s := s.resetRegs 0x280000 0x300000 fabKept
  let ctl := (List.range 16).map fun p => (s.rd (fabLevel p), s.rd (fabDateline p), s.rd (fabMaxver p))
  let s := (List.range 16).foldl (fun s p =>
    let k := ctl.getD p (0, 0, 0)
    (((s.setReg (0x290000 + 0x400 * p) (resetWord (0x290000 + 0x400 * p))).wr (fabLevel p) k.1).wr (fabDateline p) k.2.1).wr
      (fabMaxver p) k.2.2) s
  let s := (s.resetRegs 0x400000 0x440000 fun _ => false).resetRegs 0x180010 0x180018 fun _ => false
  let s := (s.resetRegs 0x180040 0x180180 fun _ => false).resetRegs 0x180400 0x180800 fun _ => false
  let win := fun (a : Nat) => (a - 0x1000000) % 0x8000
  let s : State := { s with
    gov := { s.gov with hintAt := none, sigLru := [], hintT := 0, hintH := 0, hintC := 0, hintF := 0, hintN := 0 }
    regs := s.regs.filter fun e =>
      decide (e.1 < 0x1000000) ||
        (decide (e.1 < 0x1C00000) && !(decide (0x1000 ≤ win e.1 ∧ win e.1 < 0x2000) || decide (0x40 ≤ win e.1 ∧ win e.1 < 0x80))) ||
        (decide (0x1C00000 ≤ e.1) && decide (e.1 < tileTallyBase)) }
  (s.endHold).wr verProfile 0

/-- Loads the tile firmware into a held tile and releases it into its idle loop (R525). -/
def State.loadTile (s : State) (fw : TileFw) (t : Nat) : State :=
  let now := (s.enabledWays t).take fw.lock
  let changed := (s.enabledWays t).filter fun w => decide (w ∈ now) != s.isScratchWay t w
  let s := changed.foldl (fun s w => s.wipeWay t w) s
  let s := (s.wr (shScratch t) ((now.map fun w => 2 ^ w).foldl (· + ·) 0)).wr (shLock t) fw.lock
  let s := s.scratchWriteRaw t 0 fw.bytes
  let s := (s.wr (tBase t) fw.base).wr (tLimit t) fw.limit
  let s := s.runWrite t 0#32
  if s.on (tHold t) then s
  else
    let x := s.tile t
    (s.setTile t { x with cpu := { x.cpu with pc := fw.pc } }).wr (tState t) 2

/-- Loads every tile of every powered crate that is not failed. -/
def State.loadTiles (s : State) (fw : TileFw) : State :=
  ((List.range 24576).filter fun t => s.tileOn t && !s.offline 2 (t / 64) && !(s.crate (t / 64)).clockLost).foldl
    (fun s t => s.loadTile fw t) s

/-- The certificate's body (Table 20.5). -/
def State.certBody (s : State) (x : TearInfo) : List Byte :=
  toBytes 4 0x45504957 ++ toBytes 1 1 ++ toBytes 1 (b2n (decide (x.skipped ≠ 0))) ++ toBytes 2 0 ++ toBytes 3 (s.rd jobId) ++ toBytes 1 0 ++
    toBytes 4 (s.rd akGen) ++ s.serial ++ ((s.list.inst ++ List.replicate 16 0#8).take 16) ++ toBytes 8 s.job.seq ++ toBytes 8 x.start ++
    toBytes 8 x.end6 ++ toBytes 8 x.zeroed ++ toBytes 4 x.tiles ++ toBytes 2 x.quads ++ toBytes 2 x.skipped ++ toBytes 4 x.ways ++
    toBytes 4 (s.rd akUsed) ++ toBytes 32 (keyHash (s.wordBytes (jobAkCert + 20) 17))

/-- The device's own posted write of a range of the cellar, line by line. -/
def State.postRange (s : State) : Nat → Nat → List Byte → State
  | 0, _, _ => s
  | n + 1, a, bs =>
    if bs.isEmpty then s
    else
      let k := 128 - a % 128
      State.postRange (s.postCellar a (bs.take k)) n (a + k) (bs.drop k)

/-- Step 7: the certificate is formed, signed, written and logged, and the teardown ends (R557 to R561). -/
def State.tearSign (s : State) (x : TearInfo) : State :=
  let out := fun (s : State) (bs : List Byte) =>
    let s := s.setWords jobCert ((bs ++ List.replicate 4096 0#8).take 4096)
    if x.cert = 0 then s else s.postRange (lineFuel bs.length) x.cert bs
  match s.attest (fun s => s.certBody x) with
  | (none, s1) => (out s1 (s1.certBody x)).tearFail 0x0415
  | (some (g, i, bs), s1) =>
    let s := out s1 bs
    let d := s.draw
    let s := d.2.logRec (recBytes ⟨d.1 % 65536, 3, 2 + b2n (s.on pwrOnInternal), 0, 0, s.plt, toBytes 32 (Config.digest bs)⟩ s.seqCtr 0 0)
    let cmd := s.tearCmd
    let s := (((s.wr jobTdStep 0).wr jobState 0).wr jobId 0)
    let s : State := { s with tear := none, job := ⟨[], 0, 0xFFFF, 0⟩ }
    match cmd with
    | some c =>
      let outcome := b2n (decide (x.skipped ≠ 0))
      let detail := toBytes 1 outcome ++ toBytes 3 0 ++ toBytes 4 g ++ toBytes 4 i ++ toBytes 4 ((s.plt - x.start) / 25)
      s.endCmd { c with progress := 7, detail := detail } 3 0
    | none => s

/-- Is a stack in thermal stop (R274)? -/
def State.anyThermalStop (s : State) : Bool := (List.range 20).any fun st => s.on (celThermalStop st)

/-- TEARDOWN_STEP_COMPLETE (R553 to R561): the step in progress ends, when what it waits for has come, and the next begins. `fw` is what
the resident driver reloads into the tiles in step 6. -/
def execTeardownStepComplete (fw : TileFw) (s : State) : Res :=
  match s.tear with
  | none => .next s
  | some x =>
    let k := s.rd jobTdStep
    if k = 1 then .next (s.tearStop.tearStep 2)
    else if k = 2 then (if s.drained then .next (s.closeFences.tearStep 3) else .next s)
    else if k = 3 then
      if (List.range 16).any fun d => decide (s.rd (domState d) = 1 ∨ s.rd (domState d) = 4) then .next s
      else .next ((s.tearShelves x).tearStep 4).flushCaches
    else if k = 4 then (if s.emptyDirs.cachesEmpty then .next (s.emptyDirs.tearHint.tearStep 5) else .next s.flushCaches)
    else if k = 5 then (if s.anyThermalStop || s.fillWaits driverReserve then .next s else .next ((s.tearCellar x).tearStep 6))
    else if k = 6 then
      -- the XLT block is reset only once no shootdown is pending (R310)
      if !s.sds.isEmpty then .next s else
      let s := s.tearTables.loadTiles fw
      .next (State.tearStep { s with tear := some { x with end6 := s.plt } } 7)
    else .next (s.tearSign x)

/-- TEARDOWN_DRAIN_TIMEOUT (R553): RESP_TIMEOUT has passed in step 2. -/
def execTeardownDrainTimeout (s : State) : Res :=
  if s.tear.isSome ∧ s.rd jobTdStep = 2 then .next (s.closeFences.tearStep 3) else .next s

/-- TEARDOWN_THERMAL_TIMEOUT (R556, R557): a stack in thermal stop has not returned within 10 s of halting step 5. -/
def execTeardownThermalTimeout (s : State) : Res :=
  if s.tear.isSome ∧ s.rd jobTdStep = 5 ∧ s.anyThermalStop then .next (s.tearFail 0x0414) else .next s

end Sys2Proof.Machine
end

