-- ==== Sys2Proof/Machine/Images.lean ====
section
/-! DEFINITION. The images in the flash (R530 to R541, Tables 19.3 to 19.8): the firmware header, the packing list, and the reason for which
a copy is rejected. -/
namespace Sys2Proof.Machine

/-! The flash (Table 19.3). -/

/-- Where copy `c` begins (0 firmware A, 1 firmware B, 2 list A, 3 list B): both B copies lie on the second chip when one answers (R531). -/
def State.copyBase (s : State) (c : Nat) : Nat :=
  (if c = 0 then 0 else if c = 1 then 0x1000000 else if c = 2 then 0x2000000 else 0x2400000) +
    (if c % 2 = 1 && s.chips.2 then 2 ^ 26 else 0)

/-- The size of a copy's area. -/
def copyRoom (c : Nat) : Nat := if c < 2 then 2 ^ 24 else 2 ^ 22

/-- Does the chip on which a copy lies answer the SFDP read (R532)? -/
def State.copyAnswers (s : State) (c : Nat) : Bool := s.chips.1 || (decide (c % 2 = 1) && s.chips.2)

/-- The bytes of a copy: its 128-byte header, and the whole image where the header's MAGIC and TOTAL_LEN allow (R537). -/
def State.copyBytes (s : State) (c : Nat) : List Byte :=
  let hd := readBytes s.flash (s.copyBase c) 128
  let total := if c < 2 then fldAt hd 4 4 else fldAt hd 8 4
  let magic := if c < 2 then 0x3157465A else 0x334C4B50
  if fldAt hd 0 4 = magic ∧ total ≤ copyRoom c then readBytes s.flash (s.copyBase c) total else hd

/-- GENERATION and SVN of an image, by kind. -/
def imageGen (list : Bool) (bs : List Byte) : Nat := if list then fldAt bs 20 4 else fldAt bs 8 4
def imageSvn (list : Bool) (bs : List Byte) : Nat := if list then fldAt bs 24 4 else fldAt bs 12 1

/-! Firmware (R535, Table 19.5). -/

/-- OFFSET, LENGTH and CRC-32C of component `i`. -/
def compOff (bs : List Byte) (i : Nat) : Nat := fldAt bs (64 + 16 * i) 4
def compLen (bs : List Byte) (i : Nat) : Nat := fldAt bs (68 + 16 * i) 4
def compCrc (bs : List Byte) (i : Nat) : Nat := fldAt bs (72 + 16 * i) 4

/-- The reason of Table 19.12 for which a firmware image is rejected, 0 when it is accepted. The checks go in the order of R535. -/
def fwReason (minSvn : Nat) (bs : List Byte) : Nat :=
  let f := fldAt bs
  let total := f 4 4
  let keyAt := total - 2892
  let key := (bs.drop keyAt).take 68
  if f 0 4 ≠ 0x3157465A ∨ f 16 2 ≠ 4 then 0x11
  else if 2 ^ 24 < total ∨ total < 3020 ∨
      (List.range 4).any (fun i => decide (compOff bs i < 128) || decide (keyAt < compOff bs i + compLen bs i)) then 0x12
  else if f 13 3 ≠ 0 ∨ f 18 46 ≠ 0 ∨ (List.range 4).any (fun i => decide (f (76 + 16 * i) 4 ≠ 0)) ∨ f (keyAt + 68) 4 ≠ 0 ∨ 63 < f 12 1 then 0x18
  else if f keyAt 4 ≠ 0x12 ∨ (keyHash key ≠ Config.loholtKey 0 ∧ keyHash key ≠ Config.loholtKey 1) then 0x15
  else if !Config.verify (ofBytes key) (ofBytes (bs.take (keyAt + 68))) (f (keyAt + 72) 2820) then 0x14
  else if f 12 1 < minSvn then 0x16
  else if (List.range 4).any fun i => decide ((crc32c ((bs.drop (compOff bs i)).take (compLen bs i))).toNat ≠ compCrc bs i) then 0x13
  else 0

/-! The packing list (R536, R540, R541, Tables 19.6 to 19.8). -/

/-- A section: its header's fields and where its body begins. -/
structure Sect where
  type : Nat
  major : Nat
  minor : Nat
  len : Nat
  crc : Nat
  rsv : Nat
  off : Nat
  deriving DecidableEq, Repr

/-- The sections of a list, one after another from byte `o` to exactly byte `lim`; none when one runs past it or they do not end there
(R540). -/
def sections (bs : List Byte) : Nat → Nat → Nat → Option (List Sect)
  | 0, o, lim => if o = lim then some [] else none
  | n + 1, o, lim =>
    let f := fun a k => fldAt bs (o + a) k
    if lim < o + 16 + f 4 4 then none
    else (sections bs n (o + 16 + f 4 4) lim).map fun l => ⟨f 0 2, f 2 1, f 3 1, f 4 4, f 8 4, f 12 4, o + 16⟩ :: l

/-- The least body length of a section type, with its fields (Table 19.8). -/
def sectMin (bs : List Byte) (x : Sect) : Nat :=
  if x.type = 1 then 56 else if x.type = 2 then 128 else if x.type = 3 then 280 else if x.type = 4 then 8 + 8 * fldAt bs x.off 1
  else if x.type = 5 then 72 else if x.type = 6 then 32 else if x.type = 7 then 8 else if x.type = 8 then 8 else if x.type = 10 then 40 else 0

/-- Is a section's length right: its fields lie in its body, and at MINOR 0 the body ends with them (log entry 49)? -/
def sectFits (bs : List Byte) (x : Sect) : Bool :=
  if 0x8000 ≤ x.type then true
  else if x.type = 9 then decide (x.len ≤ 2 ^ 20)
  else decide (sectMin bs x ≤ x.len)

/-- Reserved fields of a section body that are not 0 (R541). -/
def sectRsv (bs : List Byte) (x : Sect) : Bool :=
  let f := fun a k => fldAt bs (x.off + a) k
  let any0 := fun (n : Nat) (p : Nat → Nat) => (List.range n).any fun i => decide (p i ≠ 0)
  decide (x.rsv ≠ 0) ||
    (if x.type = 1 then decide (2 ≤ f 48 1) || decide (f 49 7 ≠ 0)
     else if x.type = 2 then any0 15 (fun i => f (8 * i + 4) 4) || decide (f 122 6 ≠ 0)
     else if x.type = 3 then decide (f 2 6 ≠ 0) || any0 68 (fun i => f (8 + 4 * i + 3) 1)
     else if x.type = 4 then decide (f 1 7 ≠ 0) || any0 (f 0 1) (fun i => f (8 + 8 * i + 4) 4)
     else if x.type = 5 then any0 16 (fun i => f (4 * i + 3) 1) || any0 2 (fun i => f (64 + 4 * i) 4 / 8)
     else if x.type = 6 then decide (f 28 4 ≠ 0)
     else if x.type = 7 then decide (f 2 6 ≠ 0)
     else if x.type = 8 then decide (f 4 4 ≠ 0)
     else if x.type = 10 then decide (f 33 7 ≠ 0)
     else false) ||
    (decide (x.type < 0x8000) && decide (x.type ≠ 9) && decide (x.minor = 0) && decide (sectMin bs x < x.len))

/-- The body of the section of a type. -/
def sectOf (ss : List Sect) (type : Nat) : Option Sect := ss.find? fun x => decide (x.type = type)

/-- A field of the section of a type. -/
def sectFld (bs : List Byte) (ss : List Sect) (type a n : Nat) : Nat :=
  match sectOf ss type with
  | some x => fldAt bs (x.off + a) n
  | none => 0

/-- Currents of Table 16.1 in units of 0.25 A, in PWR.RAIL order. -/
def railAmps : List Nat := [16, 2, 120, 100, 1680, 320, 48, 1200, 720, 480, 1200, 920, 920, 920, 920]

/-- Does a group of bundles, from `lo`, `n` of them, meet Table 12.2? `role` and `standby` are the list's. -/
def pairOk (role standby : Nat → Nat) (kind lo n : Nat) : Bool :=
  let bs := (List.range n).map (lo + ·)
  let count := fun (r : Nat) => (bs.filter fun b => decide (role b = r)).length
  if kind = 0 then
    decide (count 1 = 1) && decide (count 2 = 0) && decide (1 ≤ count 0) &&
      bs.all fun b => decide (role b ≠ 1) || (decide (standby b ∈ bs) && decide (role (standby b) = 0))
  else decide (count 1 = 0)

/-- Do the seam roles meet R334? -/
def rolesOk (role standby : Nat → Nat) : Bool :=
  ([0, 8, 16, 24, 32, 40].all fun lo => pairOk role standby 0 lo 8) && ([48, 52, 56, 60].all fun lo => pairOk role standby 1 lo 4) &&
    [64, 66].all fun lo => pairOk role standby 0 lo 2

/-- The carving of a list (Table 19.8). -/
def listCarve (bs : List Byte) (ss : List Sect) : List Region :=
  (List.range (sectFld bs ss 4 0 1)).map fun i =>
    ⟨decide (sectFld bs ss 4 (8 + 8 * i) 1 = 0), sectFld bs ss 4 (9 + 8 * i) 1, sectFld bs ss 4 (10 + 8 * i) 2 * 2 ^ 30⟩

/-- The text form of a place address (Table 0.6). -/
def placeText (a : Nat) : List Byte :=
  let d := fun (n : Nat) => [BitVec.ofNat 8 (0x30 + n % 10)]
  let dd := fun (n : Nat) => d (n / 10) ++ d n
  let dot : List Byte := [0x2E#8]
  d (bitsAt a 29 3) ++ dot ++ dd (bitsAt a 24 5) ++ dot ++ dd (bitsAt a 19 5) ++ dot ++ dd (bitsAt a 15 4) ++ dot ++ d (bitsAt a 12 3)

/-- The reason for which the values of a list's sections are rejected, in the order of their types (Table 19.8), 0 for none. A place text in
the form of Table 0.6 that writes the unit, '/0', differs from the text form of the address and is rejected (DESIGN CHOICE, log entry 67). -/
def valueReason (bs : List Byte) (ss : List Sect) : Nat :=
  let f := sectFld bs ss
  let bad := fun (n : Nat) (p : Nat → Bool) => (List.range n).any p
  let regs := listCarve bs ss
  if bad 15 (fun i => decide (f 2 (8 * i) 1 < 0x08) || decide (0x77 < f 2 (8 * i) 1) || decide (railAmps.getD i 0 < f 2 (8 * i + 2) 2)) ∨
      f 2 120 1 < 85 ∨ 105 < f 2 120 1 ∨ f 2 121 1 < 20 ∨ 80 < f 2 121 1 then 0x18
  else if f 3 0 1 < 1 ∨ 2 < f 3 0 1 ∨ 8 ≤ f 3 1 1 ∨
      bad 68 (fun b => decide (f 3 (9 + 4 * b) 1 < 1) || decide (3 < f 3 (9 + 4 * b) 1)) then 0x18
  -- a ROLE or a STANDBY that names nothing is no assignment of Table 12.2 (R334)
  else if bad 68 (fun b => decide (2 < f 3 (8 + 4 * b) 1) || (decide (68 ≤ f 3 (10 + 4 * b) 1) && decide (f 3 (10 + 4 * b) 1 ≠ 0x7F))) ||
      !rolesOk (fun b => f 3 (8 + 4 * b) 1) (fun b => f 3 (10 + 4 * b) 1) then 0x1A
  else if !carvingOk regs ∨ bad (f 4 0 1) (fun i =>
      decide (1 < f 4 (8 + 8 * i) 1) || (decide (f 4 (8 + 8 * i) 1 = 0) && decide (f 4 (9 + 8 * i) 1 ≠ 0))) then 0x19
  else if bad 16 (fun p => (decide (4 < f 5 (4 * p) 1) && decide (f 5 (4 * p) 1 ≠ 7)) || decide (1 < f 5 (4 * p + 1) 1) ||
      (decide (f 5 (4 * p + 2) 1 ≠ 2) && decide (f 5 (4 * p + 2) 1 ≠ 3))) then 0x18
  else if f 6 0 4 % 4096 ≠ 0 ∨ f 6 4 20 ≠ ofBytes (placeText (f 6 0 4)) then 0x1B
  else if 262144 < f 6 24 4 then 0x1C
  else if f 7 0 2 < 300 ∨ 1200 < f 7 0 2 then 0x1D
  else if 32 ≤ f 8 0 1 ∨ 2 ≤ f 8 1 1 ∨ 16 ≤ f 10 32 1 then 0x18
  else 0

/-- Where a list's key block begins. -/
def listKeyAt (bs : List Byte) : Nat := 128 + fldAt bs 12 4

/-- The reason for which the format of a list is rejected, 0 for none; lengths before CRCs (R540, R541). -/
def listFormat (bs : List Byte) : Nat × List Sect :=
  let f := fldAt bs
  let keyAt := listKeyAt bs
  if f 0 4 ≠ 0x334C4B50 ∨ f 4 1 ≠ 3 ∨ f 6 2 ≠ 128 ∨ f 124 4 ≠ (crc32c (bs.take 124)).toNat ∨ f 16 2 < 8 ∨ 64 < f 16 2 then (0x11, [])
  else if 2 ^ 22 < f 8 4 ∨ f 8 4 < keyAt + 72 ∨ f 8 4 ≠ keyAt + 72 + (sigLen (f keyAt 4)).getD (f 8 4 - keyAt - 72) then (0x12, [])
  else
    match sections bs (f 16 2) 128 keyAt with
    | none => (0x12, [])
    | some ss =>
      let known := fun (x : Sect) => decide (1 ≤ x.type) && decide (x.type ≤ 10)
      if ss.any fun x => !sectFits bs x then (0x12, [])
      else if ss.any fun x => decide ((crc32c ((bs.drop x.off).take x.len)).toNat ≠ x.crc) then (0x13, [])
      else if (ss.any fun x => !known x && decide (x.type < 0x8000)) || (ss.any fun x => known x && decide (x.major ≠ 1)) ||
          ((List.range 10).any fun i =>
            let n := (ss.filter fun x => decide (x.type = i + 1)).length
            decide (1 < n) || (decide (i < 8) && decide (n = 0))) then (0x17, [])
      else if f 18 2 ≠ 0 ∨ f 28 20 ≠ 0 ∨ f 64 60 ≠ 0 ∨ f 12 4 % 8 ≠ 0 ∨ f (keyAt + 68) 4 ≠ 0 ∨
          ss.any (fun x => decide (x.len % 8 ≠ 0) || sectRsv bs x) then (0x18, [])
      else (0, ss)

/-- The reason for which a packing list is rejected, 0 when it is accepted; the checks go in the order of R536. -/
def State.listReason (s : State) (bs : List Byte) : Nat :=
  let f := fldAt bs
  let keyAt := listKeyAt bs
  let key := (bs.drop keyAt).take 68
  let fmt := listFormat bs
  if fmt.1 ≠ 0 then fmt.1
  else if (sigLen (f keyAt 4)).isNone || (s.activeSlot key).isNone then 0x15
  else if !sigOk bs key (keyAt + 72) ((sigLen (f keyAt 4)).getD 0) then 0x14
  else if f 24 4 < s.rd ⟨0x4C0204, 0, 32⟩ then 0x16
  else if f 48 16 ≠ 0 ∧ f 48 16 ≠ ofBytes s.serial then 0x1E
  else valueReason bs fmt.2

/-- The reason for which an image is rejected, by kind. -/
def State.imageReason (s : State) (list : Bool) (bs : List Byte) : Nat :=
  if list then s.listReason bs else fwReason (s.rd ⟨0x4C0200, 0, 6⟩) bs

end Sys2Proof.Machine
end

