-- ==== Sys2Proof/Machine/Start.lean ====
section
/-! DEFINITION. Start-up: package reset, the stages of Table 19.1, the stop reasons, key rotation and flash updates (R521 to R545, R572,
R600, R601). -/
namespace Sys2Proof.Machine

/-! Registers of PKL, of STG and of the blocks that the packing list sets (Tables 19.10 to 19.13, 21.11). -/
def pklFwCopy : Fld := ⟨0x4C0000, 16, 1⟩
def pklListCopy : Fld := ⟨0x4C0000, 17, 1⟩
def pklCs1 : Fld := ⟨0x4C0000, 18, 1⟩
def pklStageEnd (i : Nat) : Fld := ⟨0x4C0040 + 4 * (i - 1), 0, 32⟩
def copyGen (c : Nat) : Fld := ⟨0x4C0080 + 16 * c, 0, 32⟩
def copySvn (c : Nat) : Fld := ⟨0x4C0084 + 16 * c, 0, 32⟩
def copyReason (c : Nat) : Fld := ⟨0x4C0088 + 16 * c, 0, 8⟩
def copyState (c : Nat) : Fld := ⟨0x4C0088 + 16 * c, 8, 2⟩
def copySlot (c : Nat) : Fld := ⟨0x4C008C + 16 * c, 0, 2⟩
def minFw : Fld := ⟨0x4C0200, 0, 6⟩
def minList : Fld := ⟨0x4C0204, 0, 32⟩
def updKind : Fld := ⟨0x4C0300, 1, 1⟩
def updResult : Fld := ⟨0x4C0300, 8, 8⟩
def updProgress : Fld := ⟨0x4C0300, 16, 7⟩
def stgRestored (i : Nat) : Fld := ⟨0x140000, 1 + i, 1⟩
def stgLost (i : Nat) : Fld := ⟨0x140000, 5 + i, 1⟩
def stgMirrorOk : Fld := ⟨0x140000, 9, 1⟩

/-! Package reset (R529, R533, R600, R601). -/

/-- PKG_RESET_ASSERT (R522, R529, R533, R544, R596): the start, or the run, is abandoned; every switched domain goes off. -/
def execPkgResetAssert (s : State) : Res := .next s.packageReset

/-- PKG_RESET_RELEASE (R600, R601): the straps are sampled; the start begins at stage 2 once every rail is up and PILOT_CLK runs. `prog` is
what a board programmer has written to the flash while the device was held (R533), and `chips` says which chips will answer (R532). The
TAP treats the reset-only instructions as BYPASS from here on (R606). -/
def execPkgResetRelease (strap : BitVec 8) (prog : List (Nat × List Byte)) (chips : Bool × Bool) (s : State) : Res :=
  if s.pins.resetReleased then .next s
  else
    let flash := prog.foldl (fun m q => writeBytes m q.1 q.2) s.flash
    let pins := { s.pins with resetReleased := true, strap := strap.toNat, tap := if 2 ≤ s.pins.tap then 1 else s.pins.tap, cells := 0 }
    .next (State.tryT0 { s with flash := flash, chips := chips, pins := pins })

/-! The end of a stage (R521, R523). -/

/-- Ticks from t0 at which stage `k` must have ended (Table 19.1). -/
def stageLimit (k : Nat) : Nat := 25000 * [0, 0, 5, 600, 1000, 1300, 4000, 7000, 7600, 7900, 8000, 9000].getD k 0

/-- A stage has ended: PKL.STAGE_END, "start-up stage late", and the next stage (R523). -/
def State.endStage (s : State) (k : Nat) : State :=
  let ticks := s.plt - s.t0.getD s.plt
  let s := s.wr (pklStageEnd k) ticks
  let s := if stageLimit k < ticks then s.raise 0x0900 0 0 (detailOf [(1, k), (4, ticks % 2 ^ 32)]) else s
  s.wr pklStage (min 11 (k + 1))

/-! Stage 2: the strongroom (R572). -/

/-- Offset and end of a strongroom region (Table 21.5). -/
def regionLo (i : Nat) : Nat := [0, 0x10000, 0x410000, 0x510000].getD i 0
def regionHi (i : Nat) : Nat := [0x10000, 0x410000, 0x510000, 0x800000].getD i 0

/-- The mirror in the flash: the strongroom's bytes at the same offsets (log entry 22). -/
def mirrorBase : Nat := 0x2800000

/-- The listed bytes of a memory in [lo, hi). -/
def cellsIn (m : List Host.Cell) (lo hi : Nat) : List Host.Cell := m.filter fun c => decide (lo ≤ c.1) && decide (c.1 < hi)

/-- Replaces the bytes [lo, hi) of a memory by listed bytes that all lie there. -/
def spliceCells (m : List Host.Cell) (lo hi : Nat) (cs : List Host.Cell) : List Host.Cell :=
  (m.filter fun c => decide (c.1 < lo)) ++ cs ++ (m.filter fun c => decide (hi ≤ c.1))

/-- Registers that the always-on domain reloads from the strongroom's tables (Tables 20.6, 21.6, 21.9; log entry 22). A place that holds
nothing leaves the fused value. -/
def State.reloadTables (s : State) : State :=
  let rdN := fun (a n : Nat) => ofBytes (readBytes s.strong a n)
  let s := (s.setReg64 jobSeqLast (rdN 0x440000 8)).wr minList (rdN 0x440008 4)
  let keys := readBytes s.strong 0x410000 12
  let s := if keys.all fun b => decide (b = 0#8) then
      (List.range 3).foldl (fun s i => s.setReg (0x440020 + 4 * i) (resetWord (0x440020 + 4 * i))) s
    else s.setWords 0x440020 keys
  let s := s.setWords 0x103100 (readBytes s.strong 0x440100 0xE0)
  let s := (List.range 24576).foldl (fun s t =>
    let v := rdN (0x430000 + 2 * t) 2
    if v = 0 then s.setReg (tileReg t 8) (resetWord (tileReg t 8)) else s.wr ⟨tileReg t 8, 0, 10⟩ (max 700 v)) s
  (List.range 96).foldl (fun s c =>
    let v := rdN (0x43C000 + 2 * c) 2
    if v = 0 then s.wr (coreFmax c) 2400 else s.wr (coreFmax c) v) s

/-- What a region's registers read once it has been restored or emptied: the fatal area's records fill in order, and an emptied service log
starts again. -/
def State.regionCounts (s : State) (i : Nat) (lost : Bool) : State :=
  if i = 1 then
    let last := ((cellsIn s.strong 0x10000 0x410000).getLast?.map fun c => (c.1 - 0x10000) / 64 + 1).getD 0
    s.wr stgFatalUsed last
  else if i = 2 then
    let s := s.reloadTables
    if lost then s.resetRegs 0x442000 0x443000 fun _ => false else s
  else if i = 3 ∧ lost then (s.wr stgLogNext 0).wr stgLogWraps 0
  else s

/-- A region whose CRC fails is restored from the mirror, or emptied (R572, R577). -/
def State.checkRegion (s : State) (i : Nat) (mirror : Bool) : State :=
  let lo := regionLo i
  let hi := regionHi i
  if mirror then
    let cs := (cellsIn s.flash (mirrorBase + lo) (mirrorBase + hi)).map fun c => (c.1 - mirrorBase, c.2)
    let s : State := { s with strong := spliceCells s.strong lo hi cs }
    ((s.regionCounts i false).wr (stgRestored i) 1).raise 0x0A04 15 0 (detailOf [(1, i)])
  else
    let s : State := { s with strong := spliceCells s.strong lo hi [] }
    (((s.regionCounts i true).wr (stgLost i) 1).raise 0x0A05 15 0 (detailOf [(1, i)])).setReplace 4

/-- Stage 2: the strongroom's regions are checked, and I/O logic N is powered. -/
def State.stage2 (s : State) (e : StageEnv) : State :=
  let s := s.replay
  let s := ((List.range 4).filter fun i => e.badRegions.any fun b => decide (b.val = i)).foldl
    (fun s i => s.checkRegion i (e.mirrorOk.any fun b => decide (b.val = i))) s
  ((s.wr stgReady 1).domUp 25).endStage 2

/-! Stages 3 and 4: the copies (R531 to R538). -/

/-- A copy is rejected: its reason, the service log and the fault (R537). -/
def State.rejectCopy (s : State) (c reason : Nat) : State :=
  ((s.wr (copyReason c) reason).wr (copyState c) 2).raiseWith true (if c < 2 then 0x0901 else 0x0902) 0 0 (detailOf [(1, c), (1, reason)])

/-- Shows what a copy's header gives. -/
def State.showHeader (s : State) (c : Nat) (bs : List Byte) : State :=
  (s.wr (copyGen c) (imageGen (decide (2 ≤ c)) bs)).wr (copySvn c) (imageSvn (decide (2 ≤ c)) bs)

/-- Tries copies in order; answers the one accepted. A copy on a chip that does not answer fails in any case (R532). -/
def State.tryCopies (s : State) : List Nat → Option Nat × State
  | [] => (none, s)
  | c :: cs =>
    if !s.copyAnswers c then (s.rejectCopy c 0x10).tryCopies cs
    else
      let bs := s.copyBytes c
      let s := s.showHeader c bs
      let r := s.imageReason (decide (2 ≤ c)) bs
      if r ≠ 0 then (s.rejectCopy c r).tryCopies cs
      else
        let rest := cs.filter fun d => !s.copyAnswers d
        (some c, rest.foldl (fun s d => s.rejectCopy d 0x10) (s.wr (copyState c) 1))

/-- The order in which two copies are tried: the larger GENERATION first, A first when they are equal (R537). -/
def State.copyOrder (s : State) (a : Nat) : List Nat :=
  let gen := fun (c : Nat) => if s.copyAnswers c then imageGen (decide (2 ≤ c)) (s.copyBytes c) else 0
  if gen a < gen (a + 1) then [a + 1, a] else [a, a + 1]

/-- Stage 3: a firmware copy is read and verified (R531, R532, R535); no copy accepted stops the start. -/
def State.stage3 (s : State) : State :=
  let s := s.wr pklCs1 (b2n s.chips.2)
  match s.tryCopies (s.copyOrder 0) with
  | (none, s) => s.stopStart 3
  | (some c, s) => (s.wr pklFwCopy (c % 2)).endStage 3

/-- The owner key rotation of an accepted list (R539). -/
def State.rotateKeys (s : State) (bs : List Byte) (ss : List Sect) (slot : Nat) : State :=
  match sectOf ss 10 with
  | none => s
  | some x =>
    let hash := (bs.drop x.off).take 32
    let revoke := fldAt bs (x.off + 32) 1
    let s := (List.range 4).foldl (fun s i => if bitAt revoke i ∧ i ≠ slot then s.wr (keyState i) 3 else s) s
    if (List.range 4).any fun i => decide (s.rd (keyState i) = 1) && decide (s.slotHash i = ofBytes hash) then s
    else
      match (List.range 4).find? fun i => decide (s.rd (keyState i) = 0) with
      | some i => (s.wr (keyState i) 1).setWords (keyHashAt i) hash
      | none => s.raise 0x0903 0 0 []

/-- What an accepted list sets (Table 19.8). -/
def State.applyList (s : State) (bs : List Byte) (ss : List Sect) (slot : Nat) : State :=
  let f := sectFld bs ss
  let part := fun (type a n : Nat) => match sectOf ss type with
    | some x => (bs.drop (x.off + a)).take n
    | none => []
  let s := (s.wr ⟨0x180024, 0, 8⟩ (f 2 120 1)).wr ⟨0x180020, 0, 7⟩ (f 2 121 1)
  let s := (List.range 68).foldl (fun s b =>
    ((s.wr (seamRole b) (f 3 (8 + 4 * b) 1)).wr (seamReq b) (f 3 (9 + 4 * b) 1)).wr (seamStandby b) (f 3 (10 + 4 * b) 1)) s
  let s := (List.range 16).foldl (fun s p =>
    ((s.wr (fabLevel p) (f 5 (4 * p) 1)).wr (fabDateline p) (f 5 (4 * p + 1) 1)).wr (fabMaxver p) (f 5 (4 * p + 2) 1)) s
  let s := [0, 1].foldl (fun s p => s.wr ⟨hp p 4, 0, 3⟩ (f 5 (64 + 4 * p) 4)) s
  let w := f 7 0 2
  let s := ((s.wr capPl w).wr capW w).wr capReq w
  let s := ((s.wr ⟨0x480000, 0, 5⟩ (f 8 0 1)).wr bistIdleEn (f 8 1 1)).wr ⟨0x480000, 16, 16⟩ (f 8 2 2)
  let info : ListInfo :=
    ⟨part 1 0 16, decide (f 1 48 1 = 1), part 9 0 (((sectOf ss 9).map Sect.len).getD 0), part 2 0 120, part 1 16 32, f 3 0 1, f 3 1 1⟩
  let s : State := { s with carve := listCarve bs ss, place := f 6 0 4, list := info }
  s.rotateKeys bs ss slot

/-- Stage 4: a list copy is read, verified and applied, I/O logic S and the host-port PHY are powered, and the host ports may train (R536 to
R539); no copy accepted stops the start. -/
def State.stage4 (s : State) : State :=
  match s.tryCopies (s.copyOrder 2) with
  | (none, s) => s.stopStart 4
  | (some c, s) =>
    let bs := s.copyBytes c
    let slot := (s.activeSlot ((bs.drop (listKeyAt bs)).take 68)).getD 0
    let s := (s.wr pklListCopy (c % 2)).wr (copySlot c) slot
    let s := s.applyList bs (listFormat bs).2 slot
    ((s.domUp 26).domUp 27).endStage 4

/-! Stages 5 to 7: seams, cellar, self-test (R265, R267, R268, R332 to R335, R344, R345, R435, R524, R575). -/

/-- The start slices of one kind on every unit that is not offline: runs counted, failing units failed, LAST shows the last unit. -/
def State.startSlices (s : State) (e : StageEnv) (kind : Nat) : State :=
  let units := (List.range (sliceUnits kind)).filter fun i => !s.offline (sliceUnitKind kind) i
  let fails := e.slices.filter fun x => decide (x.kind.val = kind) && decide (x.index ∈ units)
  let s := s.bumpBy bistRuns (units.length + fails.length)
  let s := fails.foldl (fun s x =>
    ((s.bump bistFails).raise 0x0A00 (sliceUnitKind kind) x.index (detailOf [(8, x.sig.toNat), (8, x.expected.toNat)])).failUnit kind x.index x.bad) s
  match units.getLast? with
  | none => s
  | some i =>
    let x := fails.find? fun x => decide (x.index = i)
    let d := s.draw
    let s := ((d.2.wr bistLastKind kind).wr bistLastOutcome (b2n x.isSome)).wr bistLastIndex i
    let t := s.draw
    let s := t.2.wr bistLastTicks (t.1 % 2 ^ 32)
    let sig := match x with
      | some x => (x.sig.toNat, x.expected.toNat)
      | none => (d.1 % 2 ^ 64, d.1 % 2 ^ 64)
    (s.setReg64 0x480018 sig.1).setReg64 0x480020 sig.2

/-- Features in force and the lowest version that a seam runs (R344). -/
def State.seamVersions (s : State) : State :=
  let ver := fun (d : Nat) => s.rd (dieVersion d)
  let mask := (List.range 7).foldl (fun m d => Nat.land m (if ver d < 2 then 0 else s.rd (dieFeatures d))) 7
  let low := (List.range 68).foldl (fun m b => min m (min (ver (seamDies b).1) (ver (seamDies b).2))) 2
  (s.wr seamFeatures mask).wr seamLowest low

/-- Trains every bundle and records the seam lane history, newest start first, with the lanes and clocks that failed (R332, log entry 22). A
bundle with a forced mark stays down (R577). -/
def State.trainSeams (s : State) (e : StageEnv) : State :=
  let all := List.range 68
  let s := all.foldl (fun s b =>
    if s.on (forcedFld 7 b) then s.seamTrain b all all [] []
    else
      match e.lanes.find? fun x => decide (x.b.val = b) with
      | some x => s.seamTrain b (x.ab.map Fin.val) (x.ba.map Fin.val) (x.clkAb.map Fin.val) (x.clkBa.map Fin.val)
      | none => s.seamTrain b [] [] [] []) s
  let m := s.replay.strong
  let now := all.flatMap fun b => s.wordBytes (seamB b 0) 16
  let s := s.commit seamHistAt (now ++ readBytes m seamHistAt (14 * 4352))
  s.commit seamBadAt ((all.flatMap s.badBytes) ++ readBytes m seamBadAt (14 * 2176))

/-- Takes offline the clusters with a forced mark and the cores below the assured frequency (R435, R483, R577). -/
def State.startCores (s : State) : State :=
  let s := (List.range 12).foldl (fun s i =>
    if s.on (forcedFld 11 i) then s.failUnit 4 i ((List.range 8).map fun j => (0, j)) else s) s
  (List.range 96).foldl (fun s c => if s.rd (coreFmax c) < 2400 then s.failUnit 4 (c / 8) [(0, c % 8)] else s) s

/-- Stage 5: uncore, core halves and spines are powered, the seams trained, the host clusters tested. -/
def State.stage5 (s : State) (e : StageEnv) : State :=
  let s := [22, 20, 21, 16, 17, 18, 19].foldl State.domUp s
  let s := s.seamVersions.trainSeams e
  if s.rd seamLowest < s.list.minVer then s.stopStart 5
  else if Nat.land s.list.reqFeat (s.rd seamFeatures) ≠ s.list.reqFeat then s.stopStart 6
  else
    let s := s.startCores.startSlices e 4
    if (List.range 12).all fun i => s.offline 11 i then s.stopStart 7 else s.endStage 5

/-- The retirement list of a stack as the strongroom holds it (Table 21.6). -/
def State.retireList (s : State) (st : Nat) : List Nat :=
  let m := s.replay.strong
  ((List.range 128).map fun i => ofBytes (readBytes m (0x418000 + 0x400 * st + 8 * i) 8)).filter fun v => bitAt v 31

/-- Retires again every row of the strongroom's lists under the carving in force, and lists its page (R267, R577). -/
def State.retireAgain (s : State) : State :=
  let s : State := { s with retired := [] }
  (List.range 20).foldl (fun s st =>
    (s.retireList st).zipIdx.foldl (fun s q =>
      let v := q.1
      let l : Loc := ⟨st, 2 * st + bitsAt v 21 5 / 16, bitsAt v 21 5, bitsAt v 20 1, bitsAt v 0 20, 0⟩
      let page := (s.burstAddr st l.ch l.pc l.row 0).getD 0 / 4096
      let known := (List.range q.2).any fun i => decide (s.reg64 (cel st (0x800 + 8 * i)) / 4096 = page)
      let s := s.setReg64 (cel st (0x800 + 8 * q.2)) (1 + 4096 * page)
      let s : State := { s with retired := putMap false s.retired l.granule true }
      let s := (s.rowBursts l).foldl (fun s b => s.setPoison b true) s
      if known then s else s.addRetired 1) s) s

/-- The spare rows left, from the count fused at test and the repairs that the strongroom records (R616). -/
def State.setSpares (s : State) : State :=
  let s : State := { s with bankUsed := (s.repairRecs.filter fun v => bitAt v 31).foldl (fun m v =>
    let b := bankOfKey (v % 2 ^ 31)
    putMap 0 m b (lookMap 0 m b + 1)) [] }
  (List.range 20).foldl (fun s st =>
    s.wr (celSparesMin st) ((s.bankUsed.filter fun q => decide (q.1 / 2 ^ 26 = st)).foldl (fun m q => min m (sparesFused - q.2)) sparesFused)) s

/-- Makes the pending repairs permanent and records the outcome; a hard repair that fails retires the row (R265, R266). -/
def State.hardRepairs (s : State) (fails : List Nat) : State :=
  ((s.rows.filter fun q => q.2.repaired && !decide (q.1 ∈ s.hardDone)).map Prod.fst).foldl (fun s k =>
    let bad := decide (k ∈ fails)
    let s : State := { s with hardDone := s.hardDone ++ [k] }
    -- the outcome goes into the repair's own record
    let n := (s.repairRecs.zipIdx.find? fun q => decide (q.1 % 2 ^ 31 = k)).map (·.2)
    let s := s.commit (repairAt + 8 * n.getD s.repairRecs.length) (toBytes 8 (k + 2 ^ 31 + 2 ^ 32 + (if bad then 2 ^ 33 else 0)))
    if bad then
      let ch := k / 2 ^ 21
      s.retireRow ⟨ch / 32, 2 * (ch / 32) + ch % 32 / 16, ch % 32, k / 2 ^ 20 % 2, k % 2 ^ 20, 0⟩
    else s) s

/-- Stage 6: the stacks are trained, repaired and tested, and the fill zeroes the cellar (R524). -/
def State.stage6 (s : State) (e : StageEnv) : State :=
  let s := s.setSpares.retireAgain.hardRepairs e.hardFails
  let s := ((List.range 640).filter fun i => s.on (forcedFld 5 i) || e.channels.any fun c => decide (c.val = i)).foldl
    (fun s i => s.channelOffline (i / 32) (i % 32)) s
  let s := s.fill 0
  ((List.range 20).foldl (fun s st => s.wr (celReady st) 1) s).endStage 6

/-- Stage 7: every quadrant is powered, and the start slices that the BIST policy names run (R221, R575). -/
def State.stage7 (s : State) (e : StageEnv) : State :=
  let s := (List.range 16).foldl State.domUp s
  -- a crate with a forced mark, or with a tile whose recorded maximum lies below 700 MHz (R483)
  let m := s.replay.strong
  let slow := fun (c : Nat) => (List.range 64).any fun i =>
    let v := ofBytes (readBytes m (0x430000 + 2 * (64 * c + i)) 2)
    decide (v ≠ 0) && decide (v < 700)
  let s := (List.range 384).foldl (fun s c => if s.on (forcedFld 2 c) || slow c then s.failCrate c else s) s
  let mask := s.rd ⟨0x480000, 0, 5⟩
  let s := if bitAt mask 0 then
      e.ways.foldl (fun s q => s.wr (shDisabled q.1) (Nat.lor (s.rd (shDisabled q.1)) (2 ^ q.2.val))) s
    else s
  ([0, 1, 2, 3].foldl (fun s k => if bitAt mask k then s.startSlices e k else s) s).endStage 7

/-! Stages 8 to 11 (R525, R526, R538, R572). -/

/-- The first part of stage 9, which begins when stage 8 ends: fabric PHY groups and collective engines of each I/O die with a port in use
are powered, and those ports may train. Ports with a forced mark stay out (R577). -/
def State.beginFabric (s : State) : State :=
  let s := (List.range 16).foldl (fun s p => if s.on (forcedFld 8 p) then s.forceUnit 3 p else s) s
  [0, 1].foldl (fun s i =>
    if (List.range 8).any fun j => decide (s.rd (fabLevel (8 * i + j)) ≠ 7) then (s.domUp (23 + i)).domUp (28 + i) else s) s

/-- Stage 9 ends once every port in use is Up, or 300 ms after it began (R526). -/
def State.stage9Over (s : State) : Bool :=
  ((List.range 16).all fun p => decide (s.rd (fabLevel p) = 7) || decide (s.rd (fabState p) = 6)) ||
    decide (7500000 ≤ (s.plt - s.t0.getD s.plt) % 2 ^ 32 - s.rd (pklStageEnd 8))

/-- Writes the strongroom to its mirror in the flash. -/
def State.writeMirror (s : State) : State :=
  let s := s.replay
  State.wr { s with flash := spliceCells s.flash mirrorBase (mirrorBase + 0x800000) ((cellsIn s.strong 0 0x800000).map fun c => (c.1 + mirrorBase, c.2)) } stgMirrorOk 1

/-- Stage 11: the security-version minima rise, the start record and the mirror are written, and DEV_READY is asserted (R522, R538). What
a start record holds is not given, and is free. -/
def State.stage11 (s : State) : State :=
  let fw := s.rd (copySvn (s.rd pklFwCopy))
  let list := s.rd (copySvn (2 + s.rd pklListCopy))
  let s := (s.wr minFw (max (s.rd minFw) fw)).wr minList (max (s.rd minList) list)
  let s := s.commit 0x440008 (toBytes 4 (s.rd minList))
  let d := s.draw
  let s := (d.2.commit 0x440040 (toBytes 64 d.1)).writeMirror
  (s.endStage 11).setDevReady true

/-- STARTUP_STAGE_COMPLETE (R521 to R528): the stage in progress ends with what `e` says it found, and the next begins; or the start
stops. -/
def execStartupStageComplete (e : StageEnv) (s : State) : Res :=
  if !s.starting then .next s
  else
    let k := s.rd pklStage
    if k = 2 then .next (s.stage2 e)
    else if k = 3 then .next s.stage3
    else if k = 4 then .next s.stage4
    else if k = 5 then .next (s.stage5 e)
    else if k = 6 then .next (s.stage6 e)
    else if k = 7 then .next (s.stage7 e)
    else if k = 8 then .next (((s.loadTiles e.fw).endStage 8).beginFabric)
    else if k = 9 then (if s.stage9Over then .next (s.endStage 9) else .next s)
    -- the resident driver starts and writes its first heartbeat (R437)
    else if k = 10 then .next (State.endStage { s with heartbeat := some s.plt } 10)
    else if k = 11 then .next s.stage11
    else .next s

/-! Updates (R542 to R544). -/

/-- May the source start an update (R542)? -/
def State.mayUpdate (s : State) (src : Src) : Bool :=
  s.pins.devReady && !s.jobAdmitted && decide (s.rd updState ≠ 1) &&
    match src with
    | .hostCore _ => true
    | .hostPort p => s.on (hpJobCtl p)
    | _ => false

/-- An update ends FAILED with a result before it has written anything. -/
def State.updFail (s : State) (r : Nat) : State := ((s.wr updState 3).wr updResult r).wr updProgress 0

/-- Checks the image of an update and erases the copy's area; the update is then BUSY (R543). The copy written is the other one of its
kind. -/
def State.updBegin (s : State) : State :=
  let list := s.on updKind
  let a := bitsAt (s.reg64 0x4C0308) 0 48
  let room := if list then 2 ^ 22 else 2 ^ 24
  let read := fun (s : State) (n : Nat) => if cellarSize < a + n then (Access.bad stABSENT, s) else s.copyRead a n
  if a % 8 ≠ 0 then s.updFail 0x23
  else
    match read s 128 with
    | (.bad e, s1) => if e = stWAIT then s else s1.updFail 0x23
    | (.ok hd, s) =>
      let total := if list then fldAt hd 8 4 else fldAt hd 4 4
      let whole := decide (fldAt hd 0 4 = (if list then 0x334C4B50 else 0x3157465A)) && decide (total ≤ room)
      match (if whole then read s total else (.ok hd, s)) with
      | (.bad e, s1) => if e = stWAIT then s else s1.updFail 0x23
      | (.ok bs, s) =>
        let r := s.imageReason list bs
        let inUse := if list then 2 + s.rd pklListCopy else s.rd pklFwCopy
        if r ≠ 0 then s.updFail r
        else if imageGen list bs ≤ s.rd (copyGen inUse) then s.updFail 0x21
        else
          let c := if inUse % 2 = 0 then inUse + 1 else inUse - 1
          let s : State := { s with
            flash := zeroRange s.flash (s.copyBase c) (s.copyBase c + copyRoom c), upd := some (c, bs) }
          ((s.wr updState 1).wr updResult 0).wr updProgress 0

/-- A write of PKL.UPD.CTL (R542, R545, R594). -/
def State.updWrite (s : State) (src : Src) (w : Word) : State :=
  let s := if s.mayWrite src 0x4C0300 then s.wr updKind (b2n (w.getLsbD 1)) else s
  if !w.getLsbD 0 then s
  else if s.mayUpdate src then s.updBegin
  else s.wr updResult 0x20

/-- PKL_UPDATE_START (R542, R543): a write of PKL.UPD.CTL with START = 1. -/
def execPklUpdateStart (src : Src) (w : BitVec 32) (s : State) : Res :=
  if s.fastStopped then .next s else .next (s.updWrite src (w ||| 1#32))

/-- The bytes of an image in the order in which an update writes them: from offset 4,096 on, then the first 4 KiB; each with its offset. -/
def updOrder (bs : List Byte) : List (Nat × Byte) :=
  let xs := bs.zipIdx.map fun q => (q.2, q.1)
  xs.drop 4096 ++ xs.take 4096

/-- PKL_UPDATE_COMPLETE (R543, R544): the write and the read-back end. An update that fails has written `written` bytes in its order. -/
def execPklUpdateComplete (ok : Bool) (written : Nat) (s : State) : Res :=
  match s.upd with
  | none => .next s
  | some (c, bs) =>
    let ws := if ok then updOrder bs else (updOrder bs).take written
    let base := s.copyBase c
    let s : State := { s with flash := ws.foldl (fun m q => writeByte m (base + q.1) q.2) s.flash, upd := none }
    if ok then .next ((s.wr updState 2).wr updProgress 100)
    else .next ((s.wr updState 3).wr updResult 0x22)

end Sys2Proof.Machine
end

