-- ==== Sys2Proof/Machine/RegAccess.lean ====
section
/-! DEFINITION. The register map as accesses see it (R7, R8, R394, R395, R589 to R595): which domain holds a register, what a read returns,
what a write of any register does, BAR0 reads and the writes that have no command of their own. -/
namespace Sys2Proof.Machine

/-! Where a register lies. -/

/-- The switched domain that holds the register at an offset, or 64 + its crate; none in the always-on domain. The spec fixes the units'
own registers; for the blocks that belong to no one unit the die is the model's choice (log entry 50). -/
def regDomain (a : Nat) : Option Nat :=
  if a < 0x10000 then none
  else if a < 0x20000 then (if a < 0x12000 then some (25 + (a - 0x10000) / 0x1000) else some 25)
  else if a < 0x40000 then some (25 + (a - 0x20000) / 0x10000)
  else if a < 0x100000 then some 22
  else if a < 0x180000 then none
  else if a < 0x1C0000 then some 22
  else if a < 0x200000 then none
  else if a < 0x280000 then some 22
  else if a < 0x290000 then some 25
  else if a < 0x2A0000 then some (23 + min 1 ((a - 0x290000) / 0x2000))
  else if a < 0x2B0000 then some 22
  else if a < 0x2C0000 then some 25
  else if a < 0x300000 then some (28 + min 1 ((a - 0x2C0000) / 0x1000))
  else if a < 0x380000 then some 25
  else if a < 0x3D0000 then some (16 + min 19 ((a - 0x380000) / 0x4000) / 5)
  else if a < 0x400000 then none
  else if a < 0x420000 then some (16 + (a - 0x400000) / 0x8000)
  else if a < 0x430000 then some (16 + (a - 0x420000) / 0x4000)
  else if a < 0x438000 then some 22
  else if a < 0x438200 then some (16 + (a - 0x438000) / 0x80)
  else if a < 0x440000 then some 22
  else if a < 0x510000 then some 25
  else if 0x1000000 ≤ a ∧ a < 0x1C00000 then some (64 + (a - 0x1000000) / 0x8000)
  else none

/-- Is the unit at a register powered? -/
def State.regPowered (s : State) (a : Nat) : Bool :=
  match regDomain a with
  | none => true
  | some d => s.domPowered (domOfPlace d)

/-- Must an access of a register wait at its crossing (R73, R453, R576)? -/
def State.regStopped (s : State) (a : Nat) : Bool :=
  match regDomain a with
  | none => false
  | some d => s.mustWait d

/-- An access reaches a register: the crate's clock runs for it (R72). -/
def State.regArouse (s : State) (a : Nat) : State :=
  match regDomain a with
  | none => s
  | some d => s.arouse d

/-- An access of a tile's register window has ungated the tile's clock (R70). -/
def State.regUngate (s : State) (a : Nat) : State :=
  if 0x1000000 ≤ a ∧ a < 0x1C00000 ∧ 0x4000 ≤ (a - 0x1000000) % 0x8000 then
    s.ungate (64 * ((a - 0x1000000) / 0x8000) + ((a - 0x1000000) % 0x8000 - 0x4000) / 0x100)
  else s

/-- The domains of a block whose later BAR0 accesses are answered Completer Abort with one of its units (R395, Table 16.7). -/
def sameBlock (a d : Nat) : Bool :=
  if 0x280000 ≤ a ∧ a < 0x300000 then decide (d ∈ [23, 24, 28, 29])
  else if 0x380000 ≤ a ∧ a < 0x3D0000 then decide (16 ≤ d ∧ d < 20)
  else if 0x400000 ≤ a ∧ a < 0x440000 then decide (16 ≤ d ∧ d < 20 ∨ d = 22)
  else decide (regDomain a = some d)

/-- Are accesses of a host port to the block at a register answered Completer Abort (R395)? -/
def State.regBlocked (s : State) (a : Nat) : Bool := s.bar0Blocked.any fun d => sameBlock a d

/-- Blocks that a port's BAR0 serves before DEV_READY (R390). -/
def servedEarly (a : Nat) : Bool :=
  decide (a < 0x20000) || (decide (0x100000 ≤ a) && decide (a < 0x180000)) || (decide (0x4C0000 ≤ a) && decide (a < 0x510000))

/-! Reads. -/

/-- The word that a read returns: the bits that the field tables give it, 0 where no block lists the place (R589). -/
def State.mapWord (s : State) (a : Nat) : Word :=
  match regRow a with
  | none => 0#32
  | some r => s.reg a &&& BitVec.ofNat 32 r.impl

/-- A byte of the register map. -/
def State.mapByte (s : State) (a : Nat) : Byte := ((s.mapWord (a / 4 * 4)) >>> (8 * (a % 4))).setWidth 8

/-- `n` bytes of the register map from offset `a`; a read may be of any size (R590). -/
def State.mapRead (s : State) (a n : Nat) : List Byte := (List.range n).map fun i => s.mapByte (a + i)

/-- The part of the map in which each port sees its own MSI-X table and pending bits (R595). -/
def msixRange (a : Nat) : Bool := decide (0x18000 ≤ a) && decide (a < 0x19000)

/-- A byte of a port's MSI-X window. -/
def State.msixByte (s : State) (p a : Nat) : Byte :=
  if a < 0x18800 then ((lookMap (if (a - 0x18000) / 4 = 3 then 1#32 else 0#32) (s.hport p).msixTab ((a - 0x18000) / 4)) >>> (8 * (a % 4))).setWidth 8
  else if a = 0x18800 then BitVec.ofNat 8 (b2n (s.hport p).pba)
  else 0#8

/-- An access of a unit waits at the crossing into the domain of a register whose clock has stopped (R395, R453). -/
def State.holdAt (s : State) (unit a : Nat) (port : Option Nat) : State :=
  match regDomain a with
  | none => s
  | some d => s.holdCross unit d port

/-- BAR0_READ (R70, R72, R390, R392, R394, R395, R420, R589 to R591, R595): `n` bytes at BAR0 offset `a` of port `p`. -/
def execBar0Read (p : HostPortId) (a n : Nat) (ide : Ide) (s : State) : Res :=
  if !s.on (hpLinkUp p) then .next s
  else if !s.memSpace p || decide (2 ^ 26 < a + n) then .next (s.reply 1 [])
  else if !(s.barGate p ide).1 then .next ((s.barGate p ide).2.reply 1 [])
  else
    let ones := List.replicate n 0xFF#8
    if !s.devReady && !servedEarly a then .next (s.reply 0 ones)
    else if msixRange a then .next (s.reply 0 ((List.range n).map fun i => s.msixByte p (a + i)))
    else if s.regBlocked a then .next (s.reply 2 [])
    else if !s.regPowered a then .next ((s.bump (hpAbsent p)).reply 0 ones)
    else if s.regStopped a then .next (s.holdAt (portUnit p) a (some p))
    else .next ((((s.unheld (portUnit p)).regArouse a).reply 0 ((s.regArouse a).mapRead a n)).regUngate a)

/-! Writes of single registers that have a rule of their own. -/

/-- Removes what a write frees of the fault queue: FULL and FOLDING end once it is not full (Table 21.10). -/
def State.afterDrain (s : State) : State := if s.mainCount < 1024 then (s.wr fltFull 0).wr fltFolding 0 else s

/-- A write of FLT.MAIN.HEAD: ignored where it would pass TAIL (R569). A move backwards is a move past TAIL modulo twice the size. -/
def State.mainHeadWrite (s : State) (h : Nat) : State :=
  if (h % 2048 + 2048 - s.rd fltHead) % 2048 ≤ s.mainCount then (s.wr fltHead (h % 2048)).afterDrain else s

/-- A write of FLT.FATAL.HEAD. -/
def State.fatalHeadWrite (s : State) (h : Nat) : State :=
  if (h % 64 + 64 - s.rd fatHead) % 64 ≤ s.fatalCount then s.wr fatHead (h % 64) else s

/-- A write of FLT.OVF_CTL with CLEAR: every counter is free and OTHER is 0 (R567, Table 21.10). -/
def State.ovfClear (s : State) : State := ((s.resetRegs 0x101000 0x102000 fun _ => false).wr ovfUsed 0).wr ovfOther 0

/-- A field that a write sets only to a value that `ok` accepts (Table 0.5). -/
def State.guarded (s : State) (f : Fld) (w : Word) (ok : Nat → Bool) : State :=
  let v := bitsAt w.toNat f.lo f.w
  if ok v then s.wr f v else s

/-- A write of GOV.BOUND[k] (R470). -/
def State.boundWrite (s : State) (k : Nat) (w : Word) : State :=
  let lo := if k = 4 then 2400 else 700
  let hi := if k = 4 then 3600 else 880
  let fmin := bitsAt w.toNat 0 12
  let fmax := bitsAt w.toNat 16 12
  if lo ≤ fmin ∧ fmin ≤ fmax ∧ fmax ≤ hi then (s.wr (boundMin k) fmin).wr (boundMax k) fmax else s.wr govBoundRefused 1

/-- A write of CEL[s].THERM (R594, Table 9.6): what the temperature makes of the stack follows the new thresholds at once (R272, R273). -/
def State.thermWrite (s : State) (st : Nat) (w : Word) : State :=
  let t := bitsAt w.toNat 0 8
  let t := if 85 ≤ t ∧ t ≤ 95 then t else s.rd (celThrottleC st)
  let r := bitsAt w.toNat 8 8
  if r < t then
    let s := (s.wr (celThrottleC st) t).wr (celReleaseC st) r
    if s.celLive st && s.on (celReady st) then s.stackThermal st else s
  else s

/-- A write of a word of a crate window below the tile windows (Table 23.3). -/
def State.crateWordWrite (s : State) (c off : Nat) (w : Word) : State :=
  let a := crateReg c off
  if off = 0 then s.clkWrite c w
  else if off = 0x10 then s.guarded (issueFloor c) w fun v => decide (1 ≤ v) && decide (v ≤ 16)
  else if off = 0x20 ∨ off = 0x24 then
    let old := s.reg64 (crateReg c 0x20)
    s.scanMaskSet c (if off = 0x20 then setBits old 0 32 w.toNat else setBits old 32 32 w.toNat)
  else if 0x400 ≤ off ∧ off < 0x500 then s.lfsrWrite (64 * c + (off - 0x400) / 4) w
  else if 0xC00 ≤ off ∧ off < 0x1000 then
    let t := 64 * c + (off - 0xC00) / 16
    if off % 16 = 0 then s.shelfCfgWrite t w
    else if off % 16 = 12 then (if w.toNat % 65536 = 0 then s else s.plainWrite a w)
    else s.plainWrite a w
  else if isTallyReg a then s.tallyWord a w
  else s.plainWrite a w

/-- A write of a word of a tile window (Table 2.6). -/
def State.tileWordWrite (s : State) (t off : Nat) (w : Word) : State :=
  if off = 4 then s.runWrite t w
  else if off = 12 then (if s.on (tHold t) then s.plainWrite (tileReg t 12) w else s)
  else if 0x20 ≤ off ∧ off < 0x2C then s.tailWrite t ((off - 0x20) / 4) (w.toNat % 32)
  else if 0x30 ≤ off ∧ off < 0x3C then s.qstatWrite t ((off - 0x30) / 4) w
  else s.plainWrite (tileReg t off) w

/-- A write of one register word by a source that its block accepts (R590 to R594). -/
def State.wordWrite (s : State) (src : Src) (a : Nat) (w : Word) : State :=
  let plain := s.plainWrite a w
  if a < 0x20000 then s.guarded ⟨a, 8, 8⟩ w fun v => decide (v ≠ 0) && decide (a = 0x10004 ∨ a = 0x11004)
  else if a < 0x40000 then s.ringWrite (16 * ((a - 0x20000) / 0x10000) + a % 0x10000 / 0x1000) (a % 0x1000) w
  else if a = 0x49400 then s.drvWrite w
  else if a = 0x4A010 then s.evTailWrite w
  else if a = 0x100000 then s.mainHeadWrite (w.toNat % 2048)
  else if a = 0x100008 then s.fatalHeadWrite (w.toNat % 64)
  else if a = 0x100018 then (if w.getLsbD 16 then s.ovfClear else s)
  else if a = 0x180000 then s.capWrite w
  else if a = 0x180010 then s.hintWrite false false (w.setWidth 64)
  else if a = 0x180014 then s.hintWrite true false (w.setWidth 64)
  else if a = 0x180018 then s.guarded ceilMin w fun v => decide (10 ≤ v) && decide (v ≤ 100) && decide (v % 5 = 0)
  else if a = 0x180020 then s.guarded ⟨a, 0, 7⟩ w fun v => decide (20 ≤ v) && decide (v ≤ 80)
  else if a = 0x180024 then s.guarded thermLimit w fun v => decide (85 ≤ v) && decide (v ≤ 105)
  else if 0x180040 ≤ a ∧ a < 0x180068 ∧ a % 8 = 0 then s.boundWrite ((a - 0x180040) / 8) w
  else if 0x180080 ≤ a ∧ a < 0x180118 ∧ a % 8 = 4 then s.resvWrite ((a - 0x180080) / 8) w
  else if 0x1C0100 ≤ a ∧ a < 0x1C01F0 ∧ a % 8 = 0 then s.domWrite src.core ((a - 0x1C0100) / 8) w
  else if a = 0x1C0210 then s.guarded hangLimit w fun v => decide (v ≠ 0)
  else if a = 0x1C0220 then s.urstWrite w
  else if a = 0x200000 then s.rootWrite (setBits (s.reg64 0x200000) 0 32 w.toNat)
  else if a = 0x200004 then s.rootWrite (setBits (s.reg64 0x200000) 32 32 w.toNat)
  else if a = 0x20001C then s.sdSubmit w.toNat
  else if a = 0x200030 ∨ a = 0x200038 then s.guarded ⟨a, 0, 10⟩ w fun v => decide (v < 960)
  else if 0x240000 ≤ a ∧ a < 0x242000 then s.outWrite ((a - 0x240000) / 32) (a % 32 / 4) false (w.setWidth 64)
  else if 0x242000 ≤ a ∧ a < 0x244000 then s.inWrite ((a - 0x242000) / 32) (a % 32 / 4) false (w.setWidth 64)
  else if a = 0x280000 then
    let s := (s.guarded ⟨a, 0, 8⟩ w fun v => decide (v ≠ 0)).guarded ⟨a, 8, 8⟩ w fun v => decide (v ≠ 0)
    if w.getLsbD 16 then s.wr fabRouteRefused 0 else s
  else if 0x290000 ≤ a ∧ a < 0x294000 then
    if a % 0x400 = 0 then (if w.getLsbD 4 then s.retrainPort ((a - 0x290000) / 0x400) else s)
    else if a % 0x400 = 0x10 then s.fenceWrite ((a - 0x290000) / 0x400) w else plain
  else if 0x2A0000 ≤ a ∧ a < 0x2A0140 then
    let l := (a - 0x2A0000) / 0x40
    if a % 0x40 / 2 < routeEntries l then s.routeWrite l (a % 0x40 / 4) false (w.setWidth 64) else s
  else if a = 0x2C0000 ∨ a = 0x2C1000 then s.collTailWrite ((a - 0x2C0000) / 0x1000) (w.toNat % 16)
  else if 0x301000 ≤ a ∧ a < 0x302100 ∧ a % 0x40 = 4 then s.guarded ⟨a, 0, 8⟩ w fun v => decide (v ≠ 0)
  else if 0x380000 ≤ a ∧ a < 0x3D0000 then
    let st := (a - 0x380000) / 0x4000
    let off := a % 0x4000
    if off = 8 then s.thermWrite st w
    else if off = 0x10 then s.hamperCtlWrite st w
    else if off = 0x38 then
      let s := s.guarded (celThr st) w fun v => decide (v ≠ 0)
      let s := s.guarded ⟨a, 4, 5⟩ w fun v => decide (20 ≤ v) && decide (v ≤ 30)
      s.wr (celScrub st) (bitsAt w.toNat 9 1)
    else if 0x800 ≤ off ∧ off < 0xC00 ∧ off % 8 = 0 then (if w.getLsbD 2 then s.wr ⟨a, 1, 1⟩ 1 else s)
    else if 0x1000 ≤ off ∧ off < 0x1800 ∧ off % 0x40 = 0 then s.tgCtlWrite (32 * st + (off - 0x1000) / 0x40) w
    else plain
  else if 0x400000 ≤ a ∧ a < 0x438200 then s.tallyWord a w
  else if a = 0x4C0300 then s.updWrite src w
  else if 0x1000000 ≤ a ∧ a < 0x1C00000 then
    let c := (a - 0x1000000) / 0x8000
    let off := (a - 0x1000000) % 0x8000
    if off < 0x4000 then s.crateWordWrite c off w else s.tileWordWrite (64 * c + (off - 0x4000) / 0x100) (off % 0x100) w
  else plain

/-- A write of an 8-byte pair of words that is judged as a whole; otherwise the words are written in order. -/
def State.pairWrite (s : State) (src : Src) (a : Nat) (v : BitVec 64) : State :=
  if a = 0x200000 then s.rootWrite v.toNat
  else if a = 0x180010 then s.hintWrite false true v
  else if 0x240000 ≤ a ∧ a < 0x242000 then s.outWrite ((a - 0x240000) / 32) (a % 32 / 4) true v
  else if 0x242000 ≤ a ∧ a < 0x244000 then s.inWrite ((a - 0x242000) / 32) (a % 32 / 4) true v
  else if 0x2A0000 ≤ a ∧ a < 0x2A0140 then
    let l := (a - 0x2A0000) / 0x40
    if a % 0x40 / 2 < routeEntries l then s.routeWrite l (a % 0x40 / 4) true v else s
  else if 0x1000000 ≤ a ∧ a < 0x1C00000 ∧ (a - 0x1000000) % 0x8000 = 0x20 then s.scanMaskSet ((a - 0x1000000) / 0x8000) v.toNat
  else
    let s := if s.mayWrite src a then s.wordWrite src a (v.setWidth 32) else s
    if s.mayWrite src (a + 4) then s.wordWrite src (a + 4) ((v >>> 32).setWidth 32) else s

/-- A write of `size` bytes at a register offset by a source, where the unit is powered and clocked: R590's widths, the writer rules of Table
23.1, and the counts of R308 and R463 for writes that are ignored. -/
def State.mapWrite (s : State) (src : Src) (a size : Nat) (v : BitVec 64) : State :=
  if !((decide (size = 4) || decide (size = 8)) && decide (a % size = 0)) then s
  else if !(s.mayWrite src a || (decide (size = 8) && s.mayWrite src (a + 4))) then
    if 0x200000 ≤ a ∧ a < 0x280000 then s.xltDropped src
    else if 0x180080 ≤ a ∧ a < 0x180118 ∧ (size = 8 ∨ a % 8 = 4) then s.wr govResvRefused 1
    -- a refused START of an update is shown (R542)
    else if a = 0x4C0300 then s.updWrite src (v.setWidth 32)
    else s
  else if size = 8 then s.pairWrite src a v
  else s.wordWrite src a (v.setWidth 32)

/-- A write of a port's MSI-X table (R421, R595). -/
def State.msixWrite (s : State) (p a size : Nat) (v : BitVec 64) : State :=
  if !((decide (size = 4) || decide (size = 8)) && decide (a % size = 0)) || decide (0x18010 ≤ a) then s
  else
    let h := s.hport p
    let k := (a - 0x18000) / 4
    let put := fun (m : List (Nat × Word)) (k : Nat) (w : Word) => putMap (if k = 3 then 1#32 else 0#32) m k w
    let m := put h.msixTab k (v.setWidth 32)
    let m := if size = 8 then put m (k + 1) ((v >>> 32).setWidth 32) else m
    (s.setHport p { h with msixTab := m }).msixPending p

/-- The tally words that a host port's write leaves waiting behind its BAR2 writes (R231). -/
def queuedWords (p a size : Nat) (v : BitVec 64) : List (Nat × Nat × Word) :=
  if size = 4 then [(p, a, v.setWidth 32)] else [(p, a, v.setWidth 32), (p, a + 4, (v >>> 32).setWidth 32)]

/-- A write that has reached the register map: dropped at a unit that is off, waiting at a stopped clock (R394, R453), started for at a
crate whose clock a request has stopped (R72), and for a tally waiting for its port's BAR2 writes (R231). -/
def State.regWrite (s : State) (src : Src) (a size : Nat) (v : BitVec 64) : State :=
  if isTallyReg a && s.tallyWaits src && (decide (size = 4) || decide (size = 8)) && decide (a % size = 0) then
    { s with tallyQ := s.tallyQ ++ queuedWords (src.port.getD 0) a size v }
  else
    match regDomain a with
    | none => (s.unheld src.unit).mapWrite src a size v
    | some d => s.atPlace src d fun s => (s.mapWrite src a size v).regUngate a

/-- REGISTER_WRITE (R7, R8, R64, R138, R231, R308, R390, R394, R420, R455, R470, R485, R545, R589 to R595): a write of `size` bytes at a register
offset by a host core, a host port or a control core; management writes are MGMT_REGISTER_WRITE. -/
def execRegisterWrite (src : Src) (a size : Nat) (v : BitVec 64) (ide : Ide) (s : State) : Res :=
  match src with
  | .mgmt => .next s
  | .hostPort p =>
    if !s.memSpace p || decide (2 ^ 26 < a + size) then .next s
    else if !(s.barGate p ide).1 then .next (s.barGate p ide).2
    else if !s.devReady && !servedEarly a then .next s
    else if msixRange a then .next (s.msixWrite p a size v)
    else if s.regBlocked a then .next s
    else .next (s.regWrite src a size v)
  | _ => .next (s.regWrite src a size v)

/-- FAULT_HEAD_WRITE (R568, R569): a write of FLT.MAIN.HEAD, or of FLT.FATAL.HEAD. -/
def execFaultHeadWrite (src : Src) (fatal : Bool) (w : BitVec 32) (s : State) : Res :=
  if s.mayWrite src (if fatal then 0x100008 else 0x100000) then
    .next (if fatal then s.fatalHeadWrite (w.toNat % 64) else s.mainHeadWrite (w.toNat % 2048))
  else .next s

/-- OVF_CLEAR (R567): a write of FLT.OVF_CTL with CLEAR. -/
def execOvfClear (src : Src) (s : State) : Res := if s.mayWrite src 0x100018 then .next s.ovfClear else .next s

end Sys2Proof.Machine
end

