-- ==== Sys2Proof/Machine/Rv.lean ====
section
/-! DEFINITION. The RISC-V instructions that the control cores (R32) and the host cores (R422) share: decoding, compressed forms,
and integer results. The spec names the instruction set and leaves its meaning to the RISC-V specification (PRESUMED, log
entry 12). -/
namespace Sys2Proof.Machine

/-- Integer operations of the base set, M, Zba, Zbb, and, for host cores, Zbs, Zbc and Zicond. -/
inductive AluOp where
  | add | sub | sll | slt | sltu | xor | srl | sra | or | and
  | mul | mulh | mulhsu | mulhu | div | divu | rem | remu
  | sh1add | sh2add | sh3add | andn | orn | xnor | min | minu | max | maxu | rol | ror
  | clz | ctz | cpop | sextB | sextH | zextH | orcB | rev8
  | bclr | bext | binv | bset | clmul | clmulh | clmulr | czeroEqz | czeroNez
  deriving DecidableEq, Repr

/-- How the operands of an integer operation of RV64 are taken: whole, as 32-bit words with a sign-extended result, or with
rs1 zero-extended from 32 bits (the .uw forms). -/
inductive AluW where
  | full | word | uw
  deriving DecidableEq, Repr

/-- An instruction. Immediates are sign-extended integers; `sz` is log2 of an access's bytes. -/
inductive Rv where
  | lui (rd : Nat) (imm : Int)
  | auipc (rd : Nat) (imm : Int)
  | jal (rd : Nat) (imm : Int)
  | jalr (rd rs1 : Nat) (imm : Int)
  | branch (f3 rs1 rs2 : Nat) (imm : Int)
  | load (sz : Nat) (sgn : Bool) (rd rs1 : Nat) (imm : Int)
  | store (sz rs1 rs2 : Nat) (imm : Int)
  | alu (w : AluW) (op : AluOp) (rd rs1 rs2 : Nat)
  | alui (w : AluW) (op : AluOp) (rd rs1 : Nat) (imm : Int)
  /-- A CSR access: kind 1 write, 2 set, 3 clear; the source is a register or a 5-bit immediate. -/
  | csr (kind : Nat) (imm : Bool) (rd rs1 num : Nat)
  | ecall
  | ebreak
  | mret
  | sret
  | wfi
  | fence
  | fenceI
  /-- SFENCE.VMA and the instructions of Svinval. -/
  | sfence
  /-- WRS.NTO and WRS.STO (Zawrs). -/
  | wrs
  /-- A may-be-operation: writes 0 to rd (Zimop). -/
  | mop (rd : Nat)
  | lr (sz rd rs1 : Nat)
  | sc (sz rd rs1 rs2 : Nat)
  /-- An AMO by its funct5; 5 is AMOCAS of Zacas. -/
  | amo (op sz rd rs1 rs2 : Nat)
  /-- CBO: 0 inval, 1 clean, 2 flush, 4 zero. -/
  | cbo (kind rs1 : Nat)
  | fload (sz rd rs1 : Nat) (imm : Int)
  | fstore (sz rs1 rs2 : Nat) (imm : Int)
  /-- A scalar floating-point instruction other than a load or store, with its word. -/
  | fp (w : Nat)
  /-- A vector instruction, with its word. -/
  | vec (w : Nat)
  | illegal
  deriving DecidableEq, Repr

/-! Fields of a 32-bit instruction. -/
def rvRd (w : Nat) : Nat := bitsAt w 7 5
def rvF3 (w : Nat) : Nat := bitsAt w 12 3
def rvRs1 (w : Nat) : Nat := bitsAt w 15 5
def rvRs2 (w : Nat) : Nat := bitsAt w 20 5
def rvF7 (w : Nat) : Nat := bitsAt w 25 7

/-- The low `n` bits of a number as a two's complement integer. -/
def sext (n v : Nat) : Int := if v % 2 ^ n < 2 ^ (n - 1) then (v % 2 ^ n : Nat) else (v % 2 ^ n : Nat) - (2 ^ n : Nat)

/-- The immediate of an I-type instruction. -/
def immI (w : Nat) : Int := sext 12 (bitsAt w 20 12)

/-- The immediate of an S-type instruction. -/
def immS (w : Nat) : Int := sext 12 (bitsAt w 7 5 + 32 * bitsAt w 25 7)

/-- The immediate of a B-type instruction. -/
def immB (w : Nat) : Int := sext 13 (2 * bitsAt w 8 4 + 32 * bitsAt w 25 6 + 2048 * bitsAt w 7 1 + 4096 * bitsAt w 31 1)

/-- The immediate of a U-type instruction. -/
def immU (w : Nat) : Int := sext 32 (bitsAt w 12 20 * 4096)

/-- The immediate of a J-type instruction. -/
def immJ (w : Nat) : Int :=
  sext 21 (2 * bitsAt w 21 10 + 2048 * bitsAt w 20 1 + 4096 * bitsAt w 12 8 + 1048576 * bitsAt w 31 1)

/-! Integer results. -/

/-- Number of leading zeros. -/
def clzOf {n : Nat} (a : BitVec n) : Nat := ((List.range n).takeWhile fun i => !a.getMsbD i).length

/-- Number of trailing zeros. -/
def ctzOf {n : Nat} (a : BitVec n) : Nat := ((List.range n).takeWhile fun i => !a.getLsbD i).length

/-- Number of ones. -/
def popOf {n : Nat} (a : BitVec n) : Nat := ((List.range n).filter fun i => a.getLsbD i).length

/-- The carry-less product, 2n bits. -/
def clmulOf {n : Nat} (a b : BitVec n) : BitVec (2 * n) :=
  (List.range n).foldl (fun r i => if b.getLsbD i then r ^^^ (a.setWidth (2 * n) <<< i) else r) 0#(2 * n)

/-- Each byte as a function of it. -/
def mapBytes {n : Nat} (a : BitVec n) (f : Nat → Nat) : BitVec n :=
  (List.range (n / 8)).foldl (fun r i => r + BitVec.ofNat n (f (bitsAt a.toNat (8 * i) 8) * 2 ^ (8 * i))) 0#n

/-- The result of an integer operation on n-bit operands. -/
def aluFn (n : Nat) (op : AluOp) (a b : BitVec n) : BitVec n :=
  let sh := b.toNat % n
  let bool := fun (p : Bool) => if p then 1#n else 0#n
  match op with
  | .add => a + b
  | .sub => a - b
  | .sll => a <<< sh
  | .slt => bool (a.slt b)
  | .sltu => bool (a.ult b)
  | .xor => a ^^^ b
  | .srl => a >>> sh
  | .sra => a.sshiftRight sh
  | .or => a ||| b
  | .and => a &&& b
  | .mul => a * b
  | .mulh => BitVec.ofInt n (a.toInt * b.toInt / 2 ^ n)
  | .mulhsu => BitVec.ofInt n (a.toInt * b.toNat / 2 ^ n)
  | .mulhu => BitVec.ofNat n (a.toNat * b.toNat / 2 ^ n)
  | .div => if b = 0#n then BitVec.allOnes n else a.sdiv b
  | .divu => if b = 0#n then BitVec.allOnes n else a / b
  | .rem => if b = 0#n then a else a.srem b
  | .remu => if b = 0#n then a else a % b
  | .sh1add => (a <<< 1) + b
  | .sh2add => (a <<< 2) + b
  | .sh3add => (a <<< 3) + b
  | .andn => a &&& ~~~b
  | .orn => a ||| ~~~b
  | .xnor => ~~~(a ^^^ b)
  | .min => if a.slt b then a else b
  | .minu => if a.ult b then a else b
  | .max => if a.slt b then b else a
  | .maxu => if a.ult b then b else a
  | .rol => (a <<< sh) ||| (a >>> (n - sh))
  | .ror => (a >>> sh) ||| (a <<< (n - sh))
  | .clz => BitVec.ofNat n (clzOf a)
  | .ctz => BitVec.ofNat n (ctzOf a)
  | .cpop => BitVec.ofNat n (popOf a)
  | .sextB => (a.setWidth 8).signExtend n
  | .sextH => (a.setWidth 16).signExtend n
  | .zextH => (a.setWidth 16).setWidth n
  | .orcB => mapBytes a fun x => if x = 0 then 0 else 255
  | .rev8 => (List.range (n / 8)).foldl (fun r i => r + BitVec.ofNat n (bitsAt a.toNat (8 * i) 8 * 2 ^ (n - 8 - 8 * i))) 0#n
  | .bclr => a &&& ~~~(1#n <<< sh)
  | .bext => bool (a.getLsbD sh)
  | .binv => a ^^^ (1#n <<< sh)
  | .bset => a ||| (1#n <<< sh)
  | .clmul => (clmulOf a b).setWidth n
  | .clmulh => ((clmulOf a b) >>> n).setWidth n
  | .clmulr => ((clmulOf a b) >>> (n - 1)).setWidth n
  | .czeroEqz => if b = 0#n then 0#n else a
  | .czeroNez => if b = 0#n then a else 0#n

/-- An operation of RV64 with its operand form. -/
def aluFn64 (w : AluW) (op : AluOp) (a b : BitVec 64) : BitVec 64 :=
  match w with
  | .full => aluFn 64 op a b
  | .word => (aluFn 32 op (a.setWidth 32) (b.setWidth 32)).signExtend 64
  | .uw => aluFn 64 op ((a.setWidth 32).setWidth 64) b

/-- Is a branch with the funct3 taken? -/
def branchTaken {n : Nat} (f3 : Nat) (a b : BitVec n) : Bool :=
  if f3 = 0 then decide (a = b) else if f3 = 1 then decide (a ≠ b)
  else if f3 = 4 then a.slt b else if f3 = 5 then !a.slt b
  else if f3 = 6 then a.ult b else !a.ult b

/-- The value of a load of 2^sz bytes. -/
def loadVal (n sz : Nat) (sgn : Bool) (bs : List Byte) : BitVec n :=
  if sgn then BitVec.ofInt n (sext (8 * 2 ^ sz) (ofBytes bs)) else BitVec.ofNat n (ofBytes bs)

/-! Decoding. `host` selects RV64 with the host cores' extensions; otherwise RV32IMC, Zicsr, Zba and Zbb. -/

/-- A register-register operation of opcode 0x33. -/
def rvOp (host : Bool) (f7 f3 rs2 : Nat) : Option AluOp :=
  match f7, f3 with
  | 0, 0 => some .add | 0, 1 => some .sll | 0, 2 => some .slt | 0, 3 => some .sltu | 0, 4 => some .xor | 0, 5 => some .srl
  | 0, 6 => some .or | 0, 7 => some .and
  | 0x20, 0 => some .sub | 0x20, 5 => some .sra | 0x20, 7 => some .andn | 0x20, 6 => some .orn | 0x20, 4 => some .xnor
  | 1, 0 => some .mul | 1, 1 => some .mulh | 1, 2 => some .mulhsu | 1, 3 => some .mulhu
  | 1, 4 => some .div | 1, 5 => some .divu | 1, 6 => some .rem | 1, 7 => some .remu
  | 0x10, 2 => some .sh1add | 0x10, 4 => some .sh2add | 0x10, 6 => some .sh3add
  | 5, 4 => some .min | 5, 5 => some .minu | 5, 6 => some .max | 5, 7 => some .maxu
  | 5, 1 => if host then some .clmul else none
  | 5, 3 => if host then some .clmulh else none
  | 5, 2 => if host then some .clmulr else none
  | 0x30, 1 => some .rol | 0x30, 5 => some .ror
  | 4, 4 => if !host && decide (rs2 = 0) then some .zextH else none
  | 0x24, 1 => if host then some .bclr else none
  | 0x24, 5 => if host then some .bext else none
  | 0x34, 1 => if host then some .binv else none
  | 0x14, 1 => if host then some .bset else none
  | 7, 5 => if host then some .czeroEqz else none
  | 7, 7 => if host then some .czeroNez else none
  | _, _ => none

/-- A register-register operation of opcode 0x3B, with its operand form. -/
def rvOpW (f7 f3 rs2 : Nat) : Option (AluW × AluOp) :=
  match f7, f3 with
  | 0, 0 => some (.word, .add) | 0x20, 0 => some (.word, .sub) | 0, 1 => some (.word, .sll) | 0, 5 => some (.word, .srl)
  | 0x20, 5 => some (.word, .sra) | 1, 0 => some (.word, .mul) | 1, 4 => some (.word, .div) | 1, 5 => some (.word, .divu)
  | 1, 6 => some (.word, .rem) | 1, 7 => some (.word, .remu) | 4, 0 => some (.uw, .add)
  | 0x10, 2 => some (.uw, .sh1add) | 0x10, 4 => some (.uw, .sh2add) | 0x10, 6 => some (.uw, .sh3add)
  | 0x30, 1 => some (.word, .rol) | 0x30, 5 => some (.word, .ror)
  | 4, 4 => if rs2 = 0 then some (.full, .zextH) else none
  | _, _ => none

/-- A shift or unary operation of opcodes 0x13 and 0x1B, from the bits above the shift amount (`hi` is the 12-bit immediate) for
`n`-bit operands. Unary operations answer with their operand ignored. -/
def rvShift (host : Bool) (n f3 hi : Nat) : Option AluOp :=
  let top := hi / n
  let full := decide (n = (if host then 64 else 32))
  let k := if n = 64 then 1 else 2
  if f3 = 1 then
    if top = 0 then some .sll
    else if hi = 0x600 then some .clz
    else if hi = 0x601 then some .ctz
    else if hi = 0x602 then some .cpop
    else if hi = 0x604 ∧ full then some .sextB
    else if hi = 0x605 ∧ full then some .sextH
    else if host && full && decide (top = 0x12 * k) then some .bclr
    else if host && full && decide (top = 0x1A * k) then some .binv
    else if host && full && decide (top = 0x0A * k) then some .bset
    else none
  else
    if top = 0 then some .srl
    else if top = 0x10 * k then some .sra
    else if top = 0x18 * k then some .ror
    else if full ∧ hi = 0x287 then some .orcB
    else if full ∧ hi = (if host then 0x6B8 else 0x698) then some .rev8
    else if host && full && decide (top = 0x12 * k) then some .bext
    else none

/-- An operation of opcode 0x13 with a 12-bit immediate. -/
def rvImmOp (f3 : Nat) : AluOp :=
  match f3 with
  | 2 => .slt | 3 => .sltu | 4 => .xor | 6 => .or | 7 => .and | _ => .add

/-- Instructions of opcode 0x73. -/
def rvSystem (host : Bool) (w : Nat) : Rv :=
  let f3 := rvF3 w
  if f3 = 0 then
    if w = 0x73 then .ecall
    else if w = 0x100073 then .ebreak
    else if w = 0x30200073 then .mret
    else if w = 0x10500073 then .wfi
    else if !host then .illegal
    else if w = 0x10200073 then .sret
    else if w = 0xD00073 ∨ w = 0x1D00073 then .wrs
    else if rvRd w = 0 ∧ (rvF7 w = 9 ∨ rvF7 w = 11 ∨ w = 0x18000073 ∨ w = 0x18100073) then .sfence
    else .illegal
  else if f3 = 4 then
    -- MOP.R.n and MOP.RR.n
    if host && bitAt w 31 && decide (bitsAt w 28 2 = 0) && (bitAt w 25 || decide (bitsAt w 22 3 = 7)) then .mop (rvRd w)
    else .illegal
  else .csr (f3 % 4) (decide (4 < f3)) (rvRd w) (rvRs1 w) (bitsAt w 20 12)

/-- AMO, LR and SC of opcode 0x2F. -/
def rvAmo (w : Nat) : Rv :=
  let f3 := rvF3 w
  let f5 := bitsAt w 27 5
  if f3 = 2 ∨ f3 = 3 then
    if f5 = 2 then (if rvRs2 w = 0 then .lr f3 (rvRd w) (rvRs1 w) else .illegal)
    else if f5 = 3 then .sc f3 (rvRd w) (rvRs1 w) (rvRs2 w)
    else if f5 ∈ [0, 1, 4, 5, 8, 12, 16, 20, 24, 28] then .amo f5 f3 (rvRd w) (rvRs1 w) (rvRs2 w)
    else .illegal
  else if f3 = 4 ∧ f5 = 5 ∧ rvRd w % 2 = 0 ∧ rvRs2 w % 2 = 0 then .amo 5 4 (rvRd w) (rvRs1 w) (rvRs2 w)
  else .illegal

/-- Decodes a 32-bit instruction. -/
def rvDecode (host : Bool) (w : Nat) : Rv :=
  let f3 := rvF3 w
  let rd := rvRd w
  let rs1 := rvRs1 w
  let rs2 := rvRs2 w
  let hi := bitsAt w 20 12
  match w % 128 with
  | 0x37 => .lui rd (immU w)
  | 0x17 => .auipc rd (immU w)
  | 0x6F => .jal rd (immJ w)
  | 0x67 => if f3 = 0 then .jalr rd rs1 (immI w) else .illegal
  | 0x63 => if f3 = 2 ∨ f3 = 3 then .illegal else .branch f3 rs1 rs2 (immB w)
  | 0x03 =>
    if f3 < 3 then .load f3 true rd rs1 (immI w)
    else if f3 = 4 ∨ f3 = 5 then .load (f3 - 4) false rd rs1 (immI w)
    else if host && decide (f3 = 3) then .load 3 true rd rs1 (immI w)
    else if host && decide (f3 = 6) then .load 2 false rd rs1 (immI w)
    else .illegal
  | 0x23 => if f3 < 3 ∨ (host ∧ f3 = 3) then .store f3 rs1 rs2 (immS w) else .illegal
  | 0x13 =>
    if f3 = 1 ∨ f3 = 5 then
      match rvShift host (if host then 64 else 32) f3 hi with
      | some op => .alui .full op rd rs1 (hi % (if host then 64 else 32) : Nat)
      | none => .illegal
    else .alui .full (rvImmOp f3) rd rs1 (immI w)
  | 0x33 =>
    match rvOp host (rvF7 w) f3 rs2 with
    | some op => .alu .full op rd rs1 rs2
    | none => .illegal
  | 0x0F =>
    if f3 = 0 then .fence
    else if f3 = 1 then (if host then .fenceI else .illegal)
    else if host && decide (f3 = 2) && decide (rd = 0) && decide (hi ∈ [0, 1, 2, 4]) then .cbo hi rs1
    else .illegal
  | 0x73 => rvSystem host w
  | op =>
    if !host then .illegal
    else match op with
      | 0x1B =>
        if f3 = 0 then .alui .word .add rd rs1 (immI w)
        else if f3 = 1 ∧ bitsAt w 26 6 = 2 then .alui .uw .sll rd rs1 (hi % 64 : Nat)
        else if f3 = 1 ∨ f3 = 5 then
          match rvShift host 32 f3 hi with
          | some op => .alui .word op rd rs1 (hi % 32 : Nat)
          | none => .illegal
        else .illegal
      | 0x3B =>
        match rvOpW (rvF7 w) f3 rs2 with
        | some (x, op) => .alu x op rd rs1 rs2
        | none => .illegal
      | 0x2F => rvAmo w
      | 0x07 => if f3 = 1 ∨ f3 = 2 ∨ f3 = 3 then .fload f3 rd rs1 (immI w) else if f3 = 4 then .illegal else .vec w
      | 0x27 => if f3 = 1 ∨ f3 = 2 ∨ f3 = 3 then .fstore f3 rs1 rs2 (immS w) else if f3 = 4 then .illegal else .vec w
      | 0x43 => .fp w
      | 0x47 => .fp w
      | 0x4B => .fp w
      | 0x4F => .fp w
      | 0x53 => .fp w
      | 0x57 => .vec w
      | _ => .illegal

/-! Compressed instructions, expanded to the 32-bit word of the same meaning. -/

/-- Words by format, from their fields. -/
def encR (op f3 f7 rd rs1 rs2 : Nat) : Nat := op + 128 * rd + 4096 * f3 + 32768 * rs1 + 1048576 * rs2 + 33554432 * f7
def encI (op f3 rd rs1 imm : Nat) : Nat := op + 128 * rd + 4096 * f3 + 32768 * rs1 + 1048576 * (imm % 4096)
def encS (op f3 rs1 rs2 imm : Nat) : Nat :=
  op + 128 * (imm % 32) + 4096 * f3 + 32768 * rs1 + 1048576 * rs2 + 33554432 * (imm / 32 % 128)
def encB (f3 rs1 rs2 : Nat) (imm : Int) : Nat :=
  let v := (imm % 8192).toNat
  0x63 + 128 * bitsAt v 11 1 + 256 * bitsAt v 1 4 + 4096 * f3 + 32768 * rs1 + 1048576 * rs2 + 33554432 * bitsAt v 5 6
    + 2147483648 * bitsAt v 12 1
def encJ (rd : Nat) (imm : Int) : Nat :=
  let v := (imm % 2097152).toNat
  0x6F + 128 * rd + 4096 * bitsAt v 12 8 + 1048576 * bitsAt v 11 1 + 2097152 * bitsAt v 1 10 + 2147483648 * bitsAt v 20 1

/-- A signed immediate's low 12 bits. -/
def imm12 (i : Int) : Nat := (i % 4096).toNat

/-- Expands quadrant 0. -/
def expand0 (host : Bool) (h : Nat) : Option Nat :=
  let rd := 8 + bitsAt h 2 3
  let rs1 := 8 + bitsAt h 7 3
  let uw := 8 * bitsAt h 10 3 + 4 * bitsAt h 6 1 + 64 * bitsAt h 5 1
  let ud := 8 * bitsAt h 10 3 + 64 * bitsAt h 5 2
  match h / 8192 with
  | 0 =>
    let u := 16 * bitsAt h 11 2 + 64 * bitsAt h 7 4 + 4 * bitsAt h 6 1 + 8 * bitsAt h 5 1
    if u = 0 then none else some (encI 0x13 0 rd 2 u)
  | 1 => if host then some (encI 0x07 3 rd rs1 ud) else none
  | 2 => some (encI 0x03 2 rd rs1 uw)
  | 3 => if host then some (encI 0x03 3 rd rs1 ud) else none
  | 4 =>
    -- Zcb
    let ub := bitsAt h 6 1 + 2 * bitsAt h 5 1
    let uh := 2 * bitsAt h 5 1
    if !host then none
    else match bitsAt h 10 3 with
      | 0 => some (encI 0x03 4 rd rs1 ub)
      | 1 => some (encI 0x03 (if bitAt h 6 then 1 else 5) rd rs1 uh)
      | 2 => some (encS 0x23 0 rs1 rd ub)
      | 3 => if bitAt h 6 then none else some (encS 0x23 1 rs1 rd uh)
      | _ => none
  | 5 => if host then some (encS 0x27 3 rs1 rd ud) else none
  | 6 => some (encS 0x23 2 rs1 rd uw)
  | _ => if host then some (encS 0x23 3 rs1 rd ud) else none

/-- Expands quadrant 1. -/
def expand1 (host : Bool) (h : Nat) : Option Nat :=
  let rd := bitsAt h 7 5
  let rc := 8 + bitsAt h 7 3
  let rs2 := 8 + bitsAt h 2 3
  let imm := sext 6 (bitsAt h 2 5 + 32 * bitsAt h 12 1)
  let sh := bitsAt h 2 5 + 32 * bitsAt h 12 1
  let jmp := sext 12 (2 * bitsAt h 3 3 + 16 * bitsAt h 11 1 + 32 * bitsAt h 2 1 + 64 * bitsAt h 7 1 + 128 * bitsAt h 6 1
    + 256 * bitsAt h 9 2 + 1024 * bitsAt h 8 1 + 2048 * bitsAt h 12 1)
  let br := sext 9 (2 * bitsAt h 3 2 + 8 * bitsAt h 10 2 + 32 * bitsAt h 2 1 + 64 * bitsAt h 5 2 + 256 * bitsAt h 12 1)
  match h / 8192 with
  | 0 => some (encI 0x13 0 rd rd (imm12 imm))
  | 1 => if host then (if rd = 0 then none else some (encI 0x1B 0 rd rd (imm12 imm))) else some (encJ 1 jmp)
  | 2 => some (encI 0x13 0 rd 0 (imm12 imm))
  | 3 =>
    if rd = 2 then
      let u := sext 10 (16 * bitsAt h 6 1 + 32 * bitsAt h 2 1 + 64 * bitsAt h 5 1 + 128 * bitsAt h 3 2 + 512 * bitsAt h 12 1)
      if u = 0 then none else some (encI 0x13 0 2 2 (imm12 u))
    else if imm = 0 then (if host && decide (rd % 2 = 1) && decide (rd < 16) then some 0x13 else none)
    else some (0x37 + 128 * rd + 4096 * (imm % 1048576).toNat)
  | 4 =>
    match bitsAt h 10 2 with
    | 0 => if !host && bitAt h 12 then none else some (encI 0x13 5 rc rc sh)
    | 1 => if !host && bitAt h 12 then none else some (encI 0x13 5 rc rc (sh + 0x400))
    | 2 => some (encI 0x13 7 rc rc (imm12 imm))
    | _ =>
      match bitsAt h 12 1, bitsAt h 5 2 with
      | 0, 0 => some (encR 0x33 0 0x20 rc rc rs2)
      | 0, 1 => some (encR 0x33 4 0 rc rc rs2)
      | 0, 2 => some (encR 0x33 6 0 rc rc rs2)
      | 0, _ => some (encR 0x33 7 0 rc rc rs2)
      | _, 0 => if host then some (encR 0x3B 0 0x20 rc rc rs2) else none
      | _, 1 => if host then some (encR 0x3B 0 0 rc rc rs2) else none
      | _, 2 => if host then some (encR 0x33 0 1 rc rc rs2) else none
      | _, _ =>
        -- Zcb
        if !host then none
        else match bitsAt h 2 3 with
          | 0 => some (encI 0x13 7 rc rc 255)
          | 1 => some (encI 0x13 1 rc rc 0x604)
          | 2 => some (encR 0x3B 4 4 rc rc 0)
          | 3 => some (encI 0x13 1 rc rc 0x605)
          | 4 => some (encR 0x3B 0 4 rc rc 0)
          | 5 => some (encI 0x13 4 rc rc 0xFFF)
          | _ => none
  | 5 => some (encJ 0 jmp)
  | 6 => some (encB 0 rc 0 br)
  | _ => some (encB 1 rc 0 br)

/-- Expands quadrant 2. -/
def expand2 (host : Bool) (h : Nat) : Option Nat :=
  let rd := bitsAt h 7 5
  let rs2 := bitsAt h 2 5
  let sh := bitsAt h 2 5 + 32 * bitsAt h 12 1
  let lw := 4 * bitsAt h 4 3 + 32 * bitsAt h 12 1 + 64 * bitsAt h 2 2
  let ld := 8 * bitsAt h 5 2 + 32 * bitsAt h 12 1 + 64 * bitsAt h 2 3
  let sw := 4 * bitsAt h 9 4 + 64 * bitsAt h 7 2
  let sd := 8 * bitsAt h 10 3 + 64 * bitsAt h 7 3
  match h / 8192 with
  | 0 => if !host && bitAt h 12 then none else some (encI 0x13 1 rd rd sh)
  | 1 => if host then some (encI 0x07 3 rd 2 ld) else none
  | 2 => if rd = 0 then none else some (encI 0x03 2 rd 2 lw)
  | 3 => if host then (if rd = 0 then none else some (encI 0x03 3 rd 2 ld)) else none
  | 4 =>
    if bitAt h 12 then
      if rs2 = 0 then (if rd = 0 then some 0x100073 else some (encI 0x67 0 1 rd 0))
      else some (encR 0x33 0 0 rd rd rs2)
    else if rs2 = 0 then (if rd = 0 then none else some (encI 0x67 0 0 rd 0))
    else some (encR 0x33 0 0 rd 0 rs2)
  | 5 => if host then some (encS 0x27 3 2 rs2 sd) else none
  | 6 => some (encS 0x23 2 2 rs2 sw)
  | _ => if host then some (encS 0x23 3 2 rs2 sd) else none

/-- Decodes a 16-bit instruction. -/
def rvDecodeC (host : Bool) (h : Nat) : Rv :=
  let e := match h % 4 with
    | 0 => expand0 host h
    | 1 => expand1 host h
    | _ => expand2 host h
  match e with
  | some w => rvDecode host w
  | none => .illegal

end Sys2Proof.Machine
end

