-- ==== Sys2Proof/Machine/CtlCore.lean ====
section
/-! DEFINITION. The control core of a tile (R32 to R36, R38, R64, R204 to R208, R227, R230): fetch from the code window, traps, and the
four commands in which it executes the instruction at its pc. -/
namespace Sys2Proof.Machine

/-! Registers. -/

/-- Sets the core of a tile. -/
def State.setCpu (s : State) (t : Nat) (c : Cpu) : State := s.setTile t { s.tile t with cpu := c }

/-- Register x[r]; x0 reads 0. -/
def Cpu.xr (c : Cpu) (r : Nat) : Word := if r = 0 then 0#32 else lookMap 0#32 c.x r

/-- Sets x[r]; a write of x0 is discarded. -/
def Cpu.setX (c : Cpu) (r : Nat) (v : Word) : Cpu := if r = 0 then c else { c with x := putMap 0#32 c.x r v }

/-- A CSR as it is held. -/
def Cpu.csrOf (c : Cpu) (n : Nat) : Word := lookMap 0#32 c.csr n

/-- Sets a held CSR. -/
def Cpu.setCsr (c : Cpu) (n : Nat) (v : Word) : Cpu := { c with csr := putMap 0#32 c.csr n v }

/-! CSRs of the control core by number (PRESUMED, log entry 12). -/
def csrMstatus : Nat := 0x300
def csrMtvec : Nat := 0x305
def csrMepc : Nat := 0x341
def csrMcause : Nat := 0x342
def csrMtval : Nat := 0x343

/-- The bits of a held CSR that a write sets: mstatus.MIE and MPIE, mtvec, mscratch, mepc, mcause and mtval; no interrupt reaches the core,
so mie and mip stay 0. -/
def ctlCsrMask (n : Nat) : Word :=
  if n = 0x300 then 0x88#32 else if n = 0x305 then 0xFFFFFFFD#32 else if n = 0x340 then 0xFFFFFFFF#32
  else if n = 0x341 then 0xFFFFFFFE#32 else if n = 0x342 ∨ n = 0x343 then 0xFFFFFFFF#32 else 0#32

/-- CSRs that exist and read 0 or a constant: misa, mie, mip, mstatush, mcountinhibit, the event selectors and counters. -/
def ctlCsrZero (n : Nat) : Bool :=
  decide (n = 0x301 ∨ n = 0x304 ∨ n = 0x344 ∨ n = 0x310) || (decide (0x320 ≤ n) && decide (n < 0x340) && decide (n ≠ 0x321) && decide (n ≠ 0x322)) ||
    (decide (0xB03 ≤ n) && decide (n < 0xB20)) || (decide (0xB83 ≤ n) && decide (n < 0xBA0))

/-- CSRs whose value the spec leaves open: the cycle and instruction counters, a new value at each read, and the identity registers, one value
for each core (log entry 12). -/
def ctlCsrOpen (n : Nat) : Bool := decide (n ∈ [0xB00, 0xB02, 0xB80, 0xB82, 0xF11, 0xF12, 0xF13, 0xF14, 0xF15])

/-- Does the CSR exist? -/
def ctlCsrExists (n : Nat) : Bool := decide (ctlCsrMask n ≠ 0#32) || ctlCsrZero n || ctlCsrOpen n

/-- What a read of a CSR gives. -/
def State.ctlCsrRead (s : State) (t n : Nat) : Word × State :=
  if 0xF11 ≤ n then (BitVec.ofNat 32 (Config.implCsr t n), s)
  else if ctlCsrOpen n then let d := s.draw; (BitVec.ofNat 32 d.1, d.2)
  else if n = 0x301 then (0x40001104#32, s)
  else if n = 0x300 then ((s.tile t).cpu.csrOf n ||| 0x1800#32, s)
  else ((s.tile t).cpu.csrOf n, s)

/-! Traps (R34). -/

/-- Does a scratch offset lie in the code window of TILE.CODE (R33)? -/
def State.inCode (s : State) (t a : Nat) : Bool := decide (1024 * s.rd (tBase t) ≤ a) && decide (a < 1024 * s.rd (tLimit t))

/-- A trap: mepc, mcause, mtval and mstatus as the RISC-V privileged rules have them, and the pc at mtvec, or the core halted with the fault
"control core halted" where mtvec lies outside the code window (R34, Table 21.13). -/
def State.ctlTrap (s : State) (t cause tval : Nat) : State :=
  let c := (s.tile t).cpu
  let st := (c.csrOf csrMstatus).toNat
  let pc := c.pc
  let c := (((c.setCsr csrMepc pc).setCsr csrMcause (BitVec.ofNat 32 cause)).setCsr csrMtval (BitVec.ofNat 32 tval)).setCsr csrMstatus
    (BitVec.ofNat 32 (128 * bitsAt st 3 1))
  let base := (c.csrOf csrMtvec).toNat / 4 * 4
  let s := s.setCpu t { c with pc := BitVec.ofNat 32 base }
  if s.inCode t base then s
  else (s.wr (tState t) 5).raise 0x0110 1 t (detailOf [(4, pc.toNat), (4, cause), (4, tval)])

/-! Fetch (R33). -/

/-- A fetched instruction: its decoding, its length and its word; or the trap that ended the fetch. -/
inductive CtlFetch where
  | ok (i : Rv) (len w : Nat)
  | bad (cause tval : Nat)
  deriving DecidableEq, Repr

/-- Reads a half word of code. -/
def State.codeHalf (s : State) (t a : Nat) : Option Nat × State :=
  if s.inCode t a && s.inCode t (a + 1) then
    match s.scratchRead t a 2 with
    | (.ok bs, s1) => (some (ofBytes bs), s1)
    | (.bad _, s1) => (none, s1)
  else (none, s)

/-- Fetches the instruction at the pc; a fetch outside the code window, or of a word that the array has lost, takes an instruction access
fault at the half word that failed (R33, R222). -/
def State.ctlFetch (s : State) (t : Nat) : CtlFetch × State :=
  let pc := (s.tile t).cpu.pc.toNat
  match s.codeHalf t pc with
  | (none, s1) => (.bad 1 pc, s1)
  | (some lo, s1) =>
    if lo % 4 ≠ 3 then (.ok (rvDecodeC false lo) 2 lo, s1)
    else
      match s1.codeHalf t (pc + 2) with
      | (none, s2) => (.bad 1 (pc + 2), s2)
      | (some hi, s2) => (.ok (rvDecode false (lo + 65536 * hi)) 4 (lo + 65536 * hi), s2)

/-- May the core of a tile execute an instruction: released, not parked, not waiting and not halted, not blocked at a crossing, its crate
clocked? -/
def State.ctlRuns (s : State) (t : Nat) : Bool :=
  s.tileLive t && !s.tileBlocked t && !s.on (tHold t) && !s.on (tParked t) && decide (s.rd (tState t) = 1)

/-- Ends an instruction: rd takes its value and the pc its next one. -/
def State.ctlRetire (s : State) (t rd : Nat) (v pc : Word) : State :=
  s.setCpu t { (s.tile t).cpu.setX rd v with pc := pc }

/-! Loads (R34, R204 to R207, R222, R261, R307). -/

/-- How an access of the core ends: its bytes, an access fault, or a wait in a state of its own. -/
inductive CtlAcc where
  | ok (bs : List Byte)
  | fault
  | wait
  deriving DecidableEq, Repr

/-- Ends an access by its status. -/
def ctlAcc : Access → CtlAcc
  | .ok bs => .ok bs
  | .bad st => if st = stWAIT then .wait else .fault

/-- The device virtual address of a far-window address (Table 2.8). -/
def State.farVa (s : State) (t a : Nat) : Nat := bitsAt (s.reg64 (tileReg t 0x10)) 31 17 * 2 ^ 31 + a % 2 ^ 31

/-- Translates a far-window access, waiting for a walk where it must, and judges it. -/
def State.farReach (s : State) (t va : Nat) (rd wr : Bool) : Except Nat Place × State :=
  match s.xlateWait t (2 * t + 1) va with
  | (.hit e, s1) => s1.judge t 4 s1.sdNum va e rd wr false
  | (.fault l r, s1) => let q := s1.xlateFail t 4 s1.sdNum (va / 4096) va l r; (.error q.1, q.2)
  | (.wait, s1) => (.error stWAIT, s1)

/-- A far-window load of the cellar with COH = 0: a hit in the shelf cache, a fill that the load then waits for, or a read without
allocation. A fill that failed gives its status to the load once. -/
def State.farCached (s : State) (t a n vpage : Nat) : CtlAcc × State :=
  let x := s.tile t
  let p := a / 128
  match x.fillBad with
  | some (q, _) =>
    let s1 := s.setTile t { x with fillBad := none }
    if q = p then (.fault, s1) else (.wait, s1)
  | none =>
    let hit := match s.lookup t p with
      | none => false
      | some w =>
        let l := s.line t w (setOf p)
        decide (l.st ≠ .part) || (List.range n).all fun i => l.mask.getLsbD (a % 128 + i)
    if hit || ((s.lookup t p).isNone && (s.victims t (setOf p)).isEmpty) then
      let r := s.cachedRead t a n vpage
      (ctlAcc r.1, r.2)
    else (.wait, s.setTile t { x with fill := some (p, vpage) })

/-- Reads a place that is not cellar memory, for the core of a tile. -/
def State.corePlaceRead (s : State) (t : Nat) (p : Place) (n vpage : Nat) : Access × State :=
  match p with
  | .hatch w x => s.hatchRead t corePos [(vpage, 1)] w x n
  | p => s.placeRead t p n vpage

/-- Writes a place that is not cellar memory, for the core of a tile. -/
def State.corePlaceWrite (s : State) (t : Nat) (p : Place) (bs : List Byte) (vpage : Nat) : Nat × State :=
  match p with
  | .hatch w x => s.hatchWrite t corePos [(vpage, 1)] w x bs
  | p => s.placeWrite t p bs vpage

/-- A far-window load. -/
def State.farLoad (s : State) (t a n : Nat) : CtlAcc × State :=
  let va := s.farVa t a
  match s.farReach t va true false with
  | (.error st, s1) => (if st = stWAIT then .wait else .fault, s1)
  | (.ok (.cellar pa), s1) =>
    if s1.on ⟨tileReg t 0x10, 0, 1⟩ then
      let r := s1.tileHomeRead t pa n
      if r.1 = .bad stWAIT then (.wait, s1) else (ctlAcc r.1, r.2)
    else
      let r := s1.farCached t pa n (va / 4096)
      r
  | (.ok p, s1) =>
    let r := s1.corePlaceRead t p n (va / 4096)
    if r.1 = .bad stWAIT then (.wait, s1) else (ctlAcc r.1, r.2)

/-- A load of the core by Table 2.1. -/
def State.ctlLoad (s : State) (t a n : Nat) : CtlAcc × State :=
  if a < 0x30000 then let r := s.scratchRead t a n; (ctlAcc r.1, r.2)
  else if 0x40000 ≤ a ∧ a < 0x41000 then let r := s.scratchRead t (a - 0x40000) n; (ctlAcc r.1, r.2)
  else if 0x80000 ≤ a ∧ a < 0x80100 then (.ok (s.mapRead (tileReg t (a - 0x80000)) n), s)
  else if 0x81000 ≤ a ∧ a < 0x82000 then
    let r := tileTallyBase + 0x1000 * t + (a - 0x81000)
    if 0x81200 ≤ a ∧ a < 0x81300 then
      -- TAKE[n]
      let l := TallyLoc.tile t ((a - 0x81200) / 4)
      let v := s.rd l.value
      (.ok ((toBytes 4 v).drop (a % 4) |>.take n), if v = 0 then s else s.wr l.value (v - 1))
    else (.ok (s.mapRead r n), s)
  else if 0xC0000 ≤ a ∧ a < 0xC8000 then (.ok (s.mapRead (crateReg (t / 64) (a - 0xC0000)) n), s)
  else if 0x80000000 ≤ a then s.farLoad t a n
  else (.fault, s)

/-- CONTROL_CORE_LOAD (R33, R34, R64, R204 to R207, R217, R222, R227, R261, R307): the core of a tile executes the load at its pc. -/
def execControlCoreLoad (t : TileId) (s : State) : Res :=
  if !s.ctlRuns t then .next s
  else
    match s.ctlFetch t with
    | (.bad c v, s1) => .next (s1.ctlTrap t c v)
    | (.ok (.load sz sgn rd rs1 imm) len _, s1) =>
      let c := (s1.tile t).cpu
      let a := (c.xr rs1 + BitVec.ofInt 32 imm).toNat
      if a % 2 ^ sz ≠ 0 then .next (s1.ctlTrap t 4 a)
      else
        match s1.ctlLoad t a (2 ^ sz) with
        | (.ok bs, s2) => .next (s2.ctlRetire t rd (loadVal 32 sz sgn bs) (c.pc + BitVec.ofNat 32 len))
        | (.fault, s2) => .next (s2.ctlTrap t 5 a)
        | (.wait, s2) => .next s2
    | _ => .next s

/-! Stores (R34, R36, R38, R64, R208, R227, R230, R253). -/

/-- The queue slot that a header offset lies in, if an engine owns it (R38). -/
def State.ownedSlot (s : State) (t o : Nat) : Option Nat :=
  if o < 0xC00 then
    let e := o / 0x400
    if ((s.tile t).eng e).owned.any fun x => decide (x.ptr % 16 = o % 0x400 / 64) then some e else none
  else none

/-- A store of the core into scratch; one into a slot that an engine owns is dropped and sets SLOTW (R38). -/
def State.ctlScratchStore (s : State) (t o : Nat) (bs : List Byte) : CtlAcc × State :=
  if s.scratchEnd t < o + bs.length then (.fault, s)
  else
    match s.ownedSlot t o with
    | some e => (.ok [], s.wr (qSlotw t e) 1)
    | none => (.ok [], s.scratchWrite t o bs)

/-- A store to a tile register: any with a writable field but TILE.RUN and TILE.CODE (R64), W1C fields among them (DESIGN CHOICE, log entry
68); R590 fixes its width. -/
def State.ctlRegStore (s : State) (t off : Nat) (bs : List Byte) : CtlAcc × State :=
  let ok := match regRow (tileReg t (off / 4 * 4)) with
    | some r => decide (r.rw + r.w1c + r.wo ≠ 0) && decide (off / 4 ≠ 1) && decide (off / 4 ≠ 3)
    | none => false
  if !ok then (.fault, s)
  else if bs.length = 4 then (.ok [], s.tileWordWrite t off (BitVec.ofNat 32 (ofBytes bs)))
  else (.ok [], s)

/-- A store to a tally register of the tile (Table 8.7). -/
def State.ctlTallyStore (s : State) (t off : Nat) (bs : List Byte) : State :=
  let w := BitVec.ofNat 32 (ofBytes bs)
  let v := w.toNat % 65536
  let signed : Nat → Int := fun v => if v < 32768 then (v : Int) else (v : Int) - 65536
  if bs.length ≠ 4 then s
  else if off < 0x100 then s.wr (TallyLoc.tile t (off / 4)).value v
  else if off < 0x200 then s.addTally (.tile t ((off - 0x100) / 4)) (signed v)
  else if off = 0x320 then s.sendInc ⟨v, some t, signed (w.toNat / 65536), 2, t, t / 6144⟩
  else s.plainWrite (tileTallyBase + 0x1000 * t + off) w

/-- A far-window store: written through to the cellar, or to the place that the page maps; never cached (R208). -/
def State.farStore (s : State) (t a : Nat) (bs : List Byte) : CtlAcc × State :=
  let va := s.farVa t a
  match s.farReach t va false true with
  | (.error st, s1) => (if st = stWAIT then .wait else .fault, s1)
  | (.ok p, s1) =>
    let r := match p with
      | .cellar pa => s1.storeThrough t pa bs
      | p => s1.corePlaceWrite t p bs (va / 4096)
    if r.1 = 0 then (.ok [], r.2) else if r.1 = stWAIT then (.wait, s1) else (.fault, r.2)

/-- A store of the core by Table 2.1. -/
def State.ctlStore (s : State) (t a : Nat) (bs : List Byte) : CtlAcc × State :=
  if a < 0x30000 then s.ctlScratchStore t a bs
  else if 0x40000 ≤ a ∧ a < 0x41000 then s.ctlScratchStore t (a - 0x40000) bs
  else if 0x80000 ≤ a ∧ a < 0x80100 then s.ctlRegStore t (a - 0x80000) bs
  else if 0x81000 ≤ a ∧ a < 0x82000 then
    -- every earlier store of the core has been accepted first (R230)
    if s.storesOut t then (.wait, s) else (.ok [], s.ctlTallyStore t (a - 0x81000) bs)
  else if 0xC0000 ≤ a ∧ a < 0xC8000 then
    let off := a - 0xC0000
    if !tileMayWriteCrate t (off / 4 * 4) then (.fault, s)
    else if bs.length = 4 then (.ok [], s.crateWordWrite (t / 64) off (BitVec.ofNat 32 (ofBytes bs)))
    else (.ok [], s)
  else if 0x80000000 ≤ a then s.farStore t a bs
  else (.fault, s)

/-- CONTROL_CORE_STORE (R33, R34, R38, R64, R208, R222, R230): the core of a tile executes the store at its pc. -/
def execControlCoreStore (t : TileId) (s : State) : Res :=
  if !s.ctlRuns t then .next s
  else
    match s.ctlFetch t with
    | (.bad c v, s1) => .next (s1.ctlTrap t c v)
    | (.ok (.store sz rs1 rs2 imm) len _, s1) =>
      let c := (s1.tile t).cpu
      let a := (c.xr rs1 + BitVec.ofInt 32 imm).toNat
      if a % 2 ^ sz ≠ 0 then .next (s1.ctlTrap t 6 a)
      else
        match s1.ctlStore t a (toBytes (2 ^ sz) (c.xr rs2).toNat) with
        | (.ok _, s2) => .next (s2.ctlRetire t 0 0#32 (c.pc + BitVec.ofNat 32 len))
        | (.fault, s2) => .next (s2.ctlTrap t 7 a)
        | (.wait, s2) => .next s2
    | _ => .next s

/-! WFI and the other instructions (R32, R33, R70). -/

/-- WFI (R32, R70): the core waits for a wake condition, a queue halt or a write of TILE.RUN; one that holds already ends the wait at
once. -/
def execWfi (t : TileId) (s : State) : Res :=
  if !s.ctlRuns t then .next s
  else
    match s.ctlFetch t with
    | (.bad c v, s1) => .next (s1.ctlTrap t c v)
    | (.ok .wfi len _, s1) =>
      let s2 := s1.ctlRetire t 0 0#32 ((s1.tile t).cpu.pc + BitVec.ofNat 32 len)
      .next (if s2.wakeMet t then s2 else s2.wr (tState t) 2)
    | _ => .next s

/-- A CSR instruction: none where the CSR does not exist or a read-only one is written. -/
def State.ctlCsr (s : State) (t kind : Nat) (imm : Bool) (rd rs1 num len : Nat) : Option State :=
  let c := (s.tile t).cpu
  let src : Word := if imm then BitVec.ofNat 32 rs1 else c.xr rs1
  let writes := decide (kind = 1) || decide (rs1 ≠ 0)
  if !ctlCsrExists num || (writes && decide (0xC00 ≤ num)) then none
  else
    let r := s.ctlCsrRead t num
    let new := if kind = 1 then src else if kind = 2 then r.1 ||| src else r.1 &&& ~~~src
    let s1 := if writes && decide (ctlCsrMask num ≠ 0#32) then r.2.setCpu t ((r.2.tile t).cpu.setCsr num (new &&& ctlCsrMask num)) else r.2
    some (s1.ctlRetire t rd r.1 (c.pc + BitVec.ofNat 32 len))

/-- CONTROL_CORE_INSTRUCTION (R32, R33): the core of a tile executes the instruction at its pc, when it is no load, store or WFI. -/
def execControlCoreInstruction (t : TileId) (s : State) : Res :=
  if !s.ctlRuns t then .next s
  else
    match s.ctlFetch t with
    | (.bad c v, s1) => .next (s1.ctlTrap t c v)
    | (.ok i len w, s1) =>
      let c := (s1.tile t).cpu
      let nx := c.pc + BitVec.ofNat 32 len
      let done := fun (rd : Nat) (v : Word) => Host.Outcome.next (s1.ctlRetire t rd v nx)
      match i with
      | .load .. => .next s
      | .store .. => .next s
      | .wfi => .next s
      | .lui rd imm => done rd (BitVec.ofInt 32 imm)
      | .auipc rd imm => done rd (c.pc + BitVec.ofInt 32 imm)
      | .jal rd imm => .next (s1.ctlRetire t rd nx (c.pc + BitVec.ofInt 32 imm))
      | .jalr rd rs1 imm => .next (s1.ctlRetire t rd nx ((c.xr rs1 + BitVec.ofInt 32 imm) &&& 0xFFFFFFFE#32))
      | .branch f3 rs1 rs2 imm =>
        .next (s1.ctlRetire t 0 0#32 (if branchTaken f3 (c.xr rs1) (c.xr rs2) then c.pc + BitVec.ofInt 32 imm else nx))
      | .alu _ op rd rs1 rs2 => done rd (aluFn 32 op (c.xr rs1) (c.xr rs2))
      | .alui _ op rd rs1 imm => done rd (aluFn 32 op (c.xr rs1) (BitVec.ofInt 32 imm))
      | .csr kind imm rd rs1 num =>
        match s1.ctlCsr t kind imm rd rs1 num len with
        | some s2 => .next s2
        | none => .next (s1.ctlTrap t 2 w)
      | .ecall => .next (s1.ctlTrap t 11 0)
      | .ebreak => .next (s1.ctlTrap t 3 c.pc.toNat)
      | .mret =>
        let st := (c.csrOf csrMstatus).toNat
        let c1 := c.setCsr csrMstatus (BitVec.ofNat 32 (0x80 + 8 * bitsAt st 7 1))
        .next (s1.setCpu t { c1 with pc := c.csrOf csrMepc })
      | .fence => done 0 0#32
      | _ => .next (s1.ctlTrap t 2 w)

end Sys2Proof.Machine
end

