-- ==== Sys2Proof/Machine/FaultOps.lean ====
section
/-! DEFINITION. The end of a pilot-light tick and the strongroom's commands (R134, R516, R564 to R573). -/
namespace Sys2Proof.Machine

/-- A residue mismatch counts against its crate, which is tested first at the next idle window; at the third since package reset the crate is
reported failed (R134, R576). -/
def State.residue (s : State) (r : FRec) : State :=
  match r.crate with
  | none => s
  | some c =>
    let n := lookMap 0 s.residues c + 1
    let first := if c ∈ s.sliceFirst then s.sliceFirst else s.sliceFirst ++ [c]
    let s : State := { s with residues := putMap 0 s.residues c n, sliceFirst := first }
    if n = 3 then s.failCrate c else s

/-- What the records gathered in a tick do beyond their queues: step-fatal records meet the running plan (R516), residue mismatches their
crate. -/
def State.recEffects (s : State) : State :=
  s.gathered.foldl (fun s r =>
    let s := if r.cls = 1 then s.stepFatal r else s
    if r.code = 0x0111 then s.residue r else s) s

/-- Handles the gathered records in the order of R565. -/
def State.placeAll (s : State) : State := (sortRecs s.gathered).foldl State.placeRec { s with gathered := [] }

/-- FAULT_TICK (R431, R565 to R569): the pilot-light counter advances, and the records gathered in the tick are handled together. A fatal
queue that has become full stops the fast domains. -/
def execFaultTick (s : State) : Res :=
  if !s.on (railUp 0) then .next s
  else
    let held := s.on fatHeld
    let s := s.recEffects.placeAll
    let s := if s.on fatHeld && !held then s.stopFor (some 8) else s
    .next { s with plt := (s.plt + 1) % 2 ^ 64 }

/-- STRONGROOM_COMMIT_COMPLETE (R571): the oldest PENDING commit has written its target. -/
def execStrongroomCommitComplete (s : State) : Res :=
  match s.journal with
  | [] => .next s
  | (off, bs) :: rest => .next { s with strong := writeBytes s.strong off bs, journal := rest }

/-- Offset and units of a region of STRONGROOM_READ. -/
def stgRegion (r : Nat) : Option (Nat × Nat) :=
  if r = 0 then some (0x10000, 65536) else if r = 1 then some (0x510000, 48128) else if r = 2 then some (0x410000, 16384) else none

/-- Copies units of 64 bytes to a destination, in ascending order, until one meets an absent unit or must wait: the status, and how many
were written. -/
def State.copyUnits (s : State) (src dst : Nat) : Nat → Nat → Nat × Nat × State
  | 0, k => (0, k, s)
  | n + 1, k =>
    let r := s.copyWrite (dst + 64 * k) (s.strongRead (src + 64 * k) 64)
    if r.1 ≠ 0 then (r.1, k, r.2) else r.2.copyUnits src dst n (k + 1)

/-- STRONGROOM_READ (R573). A destination that does not answer ends it FAILED, as it ends a COPY (R409; log entry 51). -/
def execStrongroomRead (n : Nat) (s : State) : Res :=
  s.startCmd n 0x51 fun c s =>
    let first := c.fld 28 4
    let count := c.fld 32 4
    let dst := c.fld 40 8
    match stgRegion (c.fld 24 1) with
    | none => .next (s.endCmd c 5 0x0500)
    | some (lo, units) =>
      let sp := copySpace dst (64 * count)
      if units < first + count ∨ (sp ≠ some 0 ∧ sp ≠ some (1 + c.port)) then .next (s.endCmd c 5 0x0500)
      else
        let r := s.copyUnits (lo + 64 * first) dst count 0
        if r.1 = stWAIT then .next s
        else
          let c := { c with total := 64 * count, progress := 64 * r.2.1, valid := 64 * r.2.1 }
          if r.1 = 0 then .next (r.2.2.endCmd c 3 0) else .next (r.2.2.endCmd c 4 0x0009)

end Sys2Proof.Machine
end

