-- ==== Sys2Proof/Machine/HostFp.lean ====
section
/-! DEFINITION. Scalar floating point of the host cores (R423): IEEE 754-2019 with subnormals, every rounding mode and the fflags, as the
F, D, Zfa and Zfhmin extensions of RISC-V name the operations (PRESUMED, log entry 13). Half precision is only moved and converted. -/
namespace Sys2Proof.Machine

/-! fflags. -/
def fpNV : Nat := 16
def fpDZ : Nat := 8
def fpOF : Nat := 4
def fpUF : Nat := 2
def fpNX : Nat := 1

/-- An answer of an operation: its encoding and its flags. -/
abbrev FpAns := Nat × Nat

/-- Is a magnitude t with the remainder d of 2^sh to be rounded up, in mode 0 RNE, 1 RTZ, 2 RDN, 3 RUP, 4 RMM? -/
def fpUp (rm : Nat) (neg : Bool) (t d sh : Nat) : Bool :=
  if d = 0 then false
  else if rm = 0 then decide (2 ^ sh < 2 * d) || (decide (2 * d = 2 ^ sh) && decide (t % 2 = 1))
  else if rm = 1 then false
  else if rm = 2 then neg
  else if rm = 3 then !neg
  else decide (2 ^ sh ≤ 2 * d)

/-- The magnitude m·2^e in multiples of 2^q, rounded, and whether it was inexact. -/
def fpAt (rm : Nat) (neg : Bool) (m : Nat) (e q : Int) : Nat × Bool :=
  if q ≤ e then (m * 2 ^ (e - q).toNat, false)
  else
    let sh := (q - e).toNat
    let t := m / 2 ^ sh
    let d := m % 2 ^ sh
    (if fpUp rm neg t d sh then t + 1 else t, decide (d ≠ 0))

/-- Rounds an exact value into a format: subnormals are kept, tininess is judged after rounding. -/
def fpRound (f : Fmt) (rm : Nat) (neg : Bool) (m : Nat) (e : Int) : FpAns :=
  let sg := if neg then 2 ^ (f.bits - 1) else 0
  if m = 0 then (sg, 0)
  else
    let qmin : Int := 1 - (f.bias : Int) - f.frac
    let q0 := magExp m e - f.frac
    let q := max q0 qmin
    let k := fpAt rm neg m e q
    let free := fpAt rm neg m e q0
    let tiny := magLt free.1 q0 (2 ^ f.frac) qmin
    let maxe : Int := (2 ^ f.expw : Nat) - 2
    let bits := (q - qmin).toNat * 2 ^ f.frac + k.1
    if maxe < (bits / 2 ^ f.frac : Nat) then
      let toInf := decide (rm = 0 ∨ rm = 4) || (decide (rm = 3) && !neg) || (decide (rm = 2) && neg)
      (if toInf then encInf f neg else encMax f neg, fpOF + fpNX)
    else (sg + bits, (if k.2 then fpNX else 0) + (if tiny && k.2 then fpUF else 0))

/-- Is the value a signalling NaN? -/
def Num.isSnan : Num → Bool
  | .nan b => b
  | _ => false

/-- NV where one of the values is a signalling NaN. -/
def snanFlag (xs : List Num) : Nat := if xs.any Num.isSnan then fpNV else 0

/-- A NaN answer. -/
def fpNan (f : Fmt) (flags : Nat) : FpAns := (encNan f, flags)

/-- Rounds a value that is no NaN. -/
def fpNum (f : Fmt) (rm : Nat) : Num → FpAns
  | .nan _ => fpNan f 0
  | .inf n => (encInf f n, 0)
  | .fin n m e => fpRound f rm n m e

/-- The exact sum of two values that are no NaNs, none for ∞ − ∞; an exact zero of unlike signs is −0 only in RDN. -/
def fpSum (rm : Nat) : Num → Num → Option Num
  | .inf n, .inf n' => if n = n' then some (.inf n) else none
  | .inf n, _ => some (.inf n)
  | _, .inf n => some (.inf n)
  | .fin n m e, .fin n' m' e' =>
    let k := min e e'
    let x : Int := (if n then -1 else 1) * ((m * 2 ^ (e - k).toNat : Nat) : Int)
    let y : Int := (if n' then -1 else 1) * ((m' * 2 ^ (e' - k).toNat : Nat) : Int)
    if x + y = 0 then some (.fin (if n = n' && m = 0 then n else decide (rm = 2)) 0 0)
    else some (.fin (decide (x + y < 0)) (x + y).natAbs k)
  | _, _ => none

/-- The exact product of two values that are no NaNs, none for 0 × ∞. -/
def fpProd : Num → Num → Option Num
  | .inf n, .inf n' => some (.inf (xor n n'))
  | .inf n, .fin n' m _ => if m = 0 then none else some (.inf (xor n n'))
  | .fin n m _, .inf n' => if m = 0 then none else some (.inf (xor n n'))
  | .fin n m e, .fin n' m' e' => some (.fin (xor n n') (m * m') (e + e'))
  | _, _ => none

/-- a + b. -/
def fpAdd (f : Fmt) (rm : Nat) (a b : Num) : FpAns :=
  if a.isNan || b.isNan then fpNan f (snanFlag [a, b])
  else match fpSum rm a b with
    | some x => fpNum f rm x
    | none => fpNan f fpNV

/-- a × b. -/
def fpMul (f : Fmt) (rm : Nat) (a b : Num) : FpAns :=
  if a.isNan || b.isNan then fpNan f (snanFlag [a, b])
  else match fpProd a b with
    | some x => fpNum f rm x
    | none => fpNan f fpNV

/-- a × b + c, rounded once. -/
def fpFma (f : Fmt) (rm : Nat) (a b c : Num) : FpAns :=
  let invalid := !a.isNan && !b.isNan && (fpProd a b).isNone
  if a.isNan || b.isNan || c.isNan then fpNan f (if invalid then fpNV else snanFlag [a, b, c])
  else match fpProd a b with
    | none => fpNan f fpNV
    | some p =>
      match fpSum rm p c with
      | some x => fpNum f rm x
      | none => fpNan f fpNV

/-- a ÷ b. -/
def fpDiv (f : Fmt) (rm : Nat) (a b : Num) : FpAns :=
  if a.isNan || b.isNan then fpNan f (snanFlag [a, b])
  else match a, b with
    | .inf _, .inf _ => fpNan f fpNV
    | .inf n, y => (encInf f (xor n y.signBit), 0)
    | x, .inf n => (encZero f (xor x.signBit n), 0)
    | .fin n m e, .fin n' m' e' =>
      if m' = 0 then (if m = 0 then fpNan f fpNV else (encInf f (xor n n'), fpDZ))
      else
        -- a quotient with more bits than any format keeps, its last bit sticky
        let sh := 2 * f.bits + Nat.log2 m' + 2
        let q := m * 2 ^ sh / m'
        fpRound f rm (xor n n') (2 * q + (if m * 2 ^ sh % m' = 0 then 0 else 1)) (e - e' - sh - 1)
    | _, _ => fpNan f 0

/-- The integer square root, by binary digits from 2^n down. -/
def isqrt (x : Nat) : Nat → Nat → Nat
  | 0, r => r
  | n + 1, r => isqrt x n (if (r + 2 ^ n) * (r + 2 ^ n) ≤ x then r + 2 ^ n else r)

/-- √a. -/
def fpSqrt (f : Fmt) (rm : Nat) (a : Num) : FpAns :=
  match a with
  | .nan b => fpNan f (if b then fpNV else 0)
  | .inf n => if n then fpNan f fpNV else (encInf f false, 0)
  | .fin n m e =>
    if m = 0 then (encZero f n, 0)
    else if n then fpNan f fpNV
    else
      let odd := e % 2 = 1
      let sh := 2 * f.bits
      let x := (if odd then 2 * m else m) * 2 ^ (2 * sh)
      let r := isqrt x (Nat.log2 x / 2 + 1) 0
      fpRound f rm false (2 * r + (if r * r = x then 0 else 1)) ((if odd then e - 1 else e) / 2 - sh - 1)

/-- Rounds to an integer: the value, and whether it was inexact. -/
def fpInt (rm : Nat) : Num → Option (Int × Bool)
  | .fin n m e =>
    let k := fpAt rm n m e 0
    some (if n then -(k.1 : Int) else k.1, k.2)
  | _ => none

/-- A conversion to an integer of `w` bits, saturating with NV. The answer is sign-extended to 64 bits. -/
def fpToInt (w : Nat) (signed : Bool) (rm : Nat) (a : Num) : FpAns :=
  let lo : Int := if signed then -(2 ^ (w - 1) : Nat) else 0
  let hi : Int := if signed then (2 ^ (w - 1) : Nat) - 1 else (2 ^ w : Nat) - 1
  let out := fun (i : Int) => encodeInt 64 (signedOf w (encodeInt w i))
  match a with
  | .nan _ => (out hi, fpNV)
  | .inf n => (out (if n then lo else hi), fpNV)
  | _ =>
    match fpInt rm a with
    | none => (out hi, fpNV)
    | some (i, x) => if i < lo then (out lo, fpNV) else if hi < i then (out hi, fpNV) else (out i, if x then fpNX else 0)

/-- FCVTMOD.W.D: towards zero, modulo 2^32. -/
def fpCvtMod (a : Num) : FpAns :=
  match fpInt 1 a with
  | none => (0, fpNV)
  | some (i, x) =>
    let v := encodeInt 64 (signedOf 32 (encodeInt 32 i))
    (v, if i < -2147483648 ∨ 2147483647 < i then fpNV else if x then fpNX else 0)

/-- FROUND and FROUNDNX. -/
def fpRoundInt (f : Fmt) (rm : Nat) (nx : Bool) (a : Num) : FpAns :=
  match a with
  | .nan b => fpNan f (if b then fpNV else 0)
  | .inf n => (encInf f n, 0)
  | .fin n m e =>
    let k := fpAt rm n m e 0
    ((fpRound f rm n k.1 0).1, if nx && k.2 then fpNX else 0)

/-- FMIN, FMAX, and FMINM and FMAXM, which propagate NaNs. -/
def fpMinMax (f : Fmt) (max nanWins : Bool) (x y : Nat) : FpAns :=
  let a := decodeNum f x
  let b := decodeNum f y
  let fl := snanFlag [a, b]
  if a.isNan && b.isNan then fpNan f fl
  else if a.isNan then (if nanWins then fpNan f fl else (y, fl))
  else if b.isNan then (if nanWins then fpNan f fl else (x, fl))
  else (if xor max (a.lt b) then x else y, fl)

/-- FCLASS. -/
def fpClass (f : Fmt) (x : Nat) : Nat :=
  match decodeNum f x with
  | .nan s => if s then 0x100 else 0x200
  | .inf n => if n then 1 else 0x80
  | .fin n m _ =>
    if m = 0 then (if n then 8 else 16)
    else if isSubnormal f x then (if n then 4 else 32)
    else if n then 2 else 64

/-- A comparison: 2 FEQ, 1 FLT, 0 FLE, 5 FLTQ, 4 FLEQ. -/
def fpCompare (k : Nat) (a b : Num) : Nat × Nat :=
  if a.isNan || b.isNan then (0, if k < 2 then fpNV else snanFlag [a, b])
  else
    let eq := a.numEq b || (a.isZero && b.isZero)
    let r := if k = 2 then eq else if k % 4 = 1 then b.gt a else eq || b.gt a
    (b2n r, 0)

/-- The constants of FLI as (m, e): entry 1 is the smallest normal, 30 +∞ and 31 the NaN. -/
def fliTable : List (Nat × Int) :=
  [(1, 0), (1, 0), (1, -16), (1, -15), (1, -8), (1, -7), (1, -4), (1, -3), (1, -2), (5, -4), (3, -3), (7, -4), (1, -1), (5, -3), (3, -2), (7, -3),
   (1, 0), (5, -2), (3, -1), (7, -2), (1, 1), (5, -1), (3, 0), (1, 2), (1, 3), (1, 4), (1, 7), (1, 8), (1, 15), (1, 16)]

/-- FLI. -/
def fpLi (f : Fmt) (i : Nat) : Nat :=
  if i = 30 then encInf f false
  else if i = 31 then encNan f
  else if i = 1 then 2 ^ f.frac
  else
    let p := fliTable.getD i (1, 0)
    (fpRound f 0 (decide (i = 0)) p.1 p.2).1

/-- The format of an instruction's two-bit field: S, D or H. -/
def fpFmt (k : Nat) : Option Fmt := if k = 0 then some .fp32 else if k = 1 then some .fp64 else if k = 2 then some .fp16 else none

/-- A register's value in a format; a narrower one that is not NaN-boxed reads as the NaN. -/
def unbox (f : Fmt) (v : Nat) : Nat :=
  if f.bits = 64 then v
  else if v / 2 ^ f.bits = 2 ^ (64 - f.bits) - 1 then v % 2 ^ f.bits else encNan f

/-- A value boxed into a 64-bit register. -/
def box (f : Fmt) (v : Nat) : Nat := if f.bits = 64 then v else v + (2 ^ (64 - f.bits) - 1) * 2 ^ f.bits

/-- What an instruction gives: a value for f[rd] or x[rd], and flags. -/
inductive FpOut where
  | toF (v flags : Nat)
  | toX (v flags : Nat)
  deriving DecidableEq, Repr

/-- A scalar floating-point instruction of word `w` on register values: rs1 as x, rs1 to rs3 as f, and frm. None where it is illegal. -/
def fpExec (w x a b c frm : Nat) : Option FpOut :=
  let op := w % 128
  let f3 := rvF3 w
  let rm := if f3 = 7 then frm else f3
  let f5 := bitsAt w 27 5
  let rs2 := rvRs2 w
  match fpFmt (bitsAt w 25 2) with
  | none => none
  | some f =>
    let u := unbox f a
    let v := unbox f b
    let na := decodeNum f u
    let nb := decodeNum f v
    let half := decide (f = .fp16)
    let ok := decide (rm ≤ 4)
    let out := fun (r : FpAns) => some (FpOut.toF (box f r.1) r.2)
    let rounded := fun (r : FpAns) => if ok && !half then some (FpOut.toF (box f r.1) r.2) else none
    if op ≠ 0x53 then
      let nc := decodeNum f (unbox f c)
      rounded (fpFma f rm (if op = 0x4B ∨ op = 0x4F then na.neg else na) nb (if op = 0x47 ∨ op = 0x4F then nc.neg else nc))
    else match f5 with
      | 0 => rounded (fpAdd f rm na nb)
      | 1 => rounded (fpAdd f rm na nb.neg)
      | 2 => rounded (fpMul f rm na nb)
      | 3 => rounded (fpDiv f rm na nb)
      | 11 => if rs2 = 0 then rounded (fpSqrt f rm na) else none
      | 4 =>
        let sg := 2 ^ (f.bits - 1)
        let sa := u / sg
        let sb := v / sg
        let s := if f3 = 0 then sb else if f3 = 1 then 1 - sb else (sa + sb) % 2
        if half || decide (2 < f3) then none else out (u % sg + s * sg, 0)
      | 5 => if half || decide (3 < f3) then none else out (fpMinMax f (decide (f3 % 2 = 1)) (decide (2 ≤ f3)) u v)
      | 8 =>
        if (rs2 = 4 ∨ rs2 = 5) ∧ !half then rounded (fpRoundInt f rm (decide (rs2 = 5)) na)
        else
          match fpFmt rs2 with
          | none => none
          | some g =>
            if g = f ∨ !ok then none
            else
              match decodeNum g (unbox g a) with
              | .nan s => out (fpNan f (if s then fpNV else 0))
              | y => out (fpNum f rm y)
      | 20 => if half || decide (f3 ∈ [3, 6, 7]) then none else let r := fpCompare f3 na nb; some (.toX r.1 r.2)
      | 24 =>
        if half then none
        else if rs2 = 8 then (if f = .fp64 ∧ f3 = 1 then let r := fpCvtMod na; some (.toX r.1 r.2) else none)
        else if rs2 < 4 ∧ ok then
          let r := fpToInt (if rs2 < 2 then 32 else 64) (decide (rs2 % 2 = 0)) rm na
          some (.toX r.1 r.2)
        else none
      | 26 =>
        if half || !ok || decide (4 ≤ rs2) then none
        else
          let n := if rs2 < 2 then 32 else 64
          let i : Int := if rs2 % 2 = 0 then signedOf n x else (x % 2 ^ n : Nat)
          rounded (fpRound f rm (decide (i < 0)) i.natAbs 0)
      | 28 =>
        if rs2 ≠ 0 then none
        else if f3 = 0 then some (.toX (encodeInt 64 (signedOf f.bits a)) 0)
        else if f3 = 1 ∧ !half then some (.toX (fpClass f u) 0)
        else none
      | 30 =>
        if f3 ≠ 0 then none
        else if rs2 = 0 then out (x % 2 ^ f.bits, 0)
        else if rs2 = 1 ∧ !half then out (fpLi f (rvRs1 w), 0)
        else none
      | _ => none

end Sys2Proof.Machine
end

