-- ==== Sys2Proof/Machine/HartCsr.lean ====
section
/-! DEFINITION. The host cores' control state (R422, R426, R431 to R433): registers, CSRs, interrupt files, traps and returns. The privileged
architecture is the RISC-V specification's (PRESUMED, log entry 12). -/
namespace Sys2Proof.Machine

/-! Registers. -/

/-- x[r]; x0 reads 0. -/
def HCore.xr (c : HCore) (r : Nat) : BitVec 64 := if r = 0 then 0#64 else BitVec.ofNat 64 (lookMap 0 c.x r)

/-- Sets x[r]; a write of x0 is discarded. -/
def HCore.setX (c : HCore) (r : Nat) (v : BitVec 64) : HCore := if r = 0 then c else { c with x := putMap 0 c.x r v.toNat }

/-- f[r], NaN-boxed. -/
def HCore.fr (c : HCore) (r : Nat) : Nat := lookMap 0 c.f r

/-- A CSR as it is held. -/
def HCore.csrOf (c : HCore) (n : Nat) : Nat := lookMap 0 c.csr n

/-- Sets a held CSR. -/
def HCore.setCsr (c : HCore) (n v : Nat) : HCore := { c with csr := putMap 0 c.csr n (v % 2 ^ 64) }

/-- Sets f[r]; FS becomes dirty. -/
def HCore.setF (c : HCore) (r v : Nat) : HCore :=
  { c with f := putMap 0 c.f r (v % 2 ^ 64) }.setCsr 0x300 (setBits (c.csrOf 0x300) 13 2 3)

/-- Bits of mstatus. -/
def HCore.mst (c : HCore) (lo w : Nat) : Nat := bitsAt (c.csrOf 0x300) lo w

/-! Interrupt files (R432), under their indirect numbers: 0x70 eidelivery, 0x72 eithreshold, 0x80 + 2k eip and 0xC0 + 2k eie of 64 identities each. -/

/-- The key of an interrupt file's register; the machine file's, or the supervisor file's. -/
def imsicKey (m : Bool) (r : Nat) : Nat := (if m then 0x10000 else 0x20000) + r

/-- Is a bit of an interrupt file's array set? -/
def HCore.eiBit (c : HCore) (m : Bool) (base id : Nat) : Bool := bitAt (c.csrOf (imsicKey m (base + 2 * (id / 64)))) (id % 64)

/-- Sets a bit of an interrupt file's array. -/
def HCore.setEi (c : HCore) (m : Bool) (base id v : Nat) : HCore :=
  c.setCsr (imsicKey m (base + 2 * (id / 64))) (setBits (c.csrOf (imsicKey m (base + 2 * (id / 64)))) (id % 64) 1 v)

/-- The top pending and enabled identity below the threshold, 0 for none. -/
def HCore.topei (c : HCore) (m : Bool) : Nat :=
  let thr := c.csrOf (imsicKey m 0x72)
  ((List.range 256).find? fun id => decide (0 < id) && (decide (thr = 0) || decide (id < thr)) && c.eiBit m 0x80 id && c.eiBit m 0xC0 id).getD 0

/-- Does an interrupt file signal its core? -/
def HCore.eiSignals (c : HCore) (m : Bool) : Bool := decide (c.csrOf (imsicKey m 0x70) = 1) && decide (c.topei m ≠ 0)

/-- The registers that an indirect access reaches: eidelivery, eithreshold, the even arrays, and the priority arrays, which read 0. -/
def imsicMask (r : Nat) : Option Nat :=
  if r = 0x70 then some 1 else if r = 0x72 then some 0xFF
  else if (0x80 ≤ r ∧ r < 0x88 ∨ 0xC0 ≤ r ∧ r < 0xC8) ∧ r % 2 = 0 then some (if r % 64 = 0 then 2 ^ 64 - 2 else 2 ^ 64 - 1)
  else if (0x80 ≤ r ∧ r < 0x100 ∨ 0x30 ≤ r ∧ r < 0x40) ∧ r % 2 = 0 then some 0
  else none

/-! CSRs. -/

/-- The bits that a write of a plainly held CSR sets, by number: none where the CSR has its own rule or does not exist. -/
def hartCsrMask (n : Nat) : Option Nat :=
  if n = 0x300 then some 0x7E7FAA
  else if n = 0x302 then some 0xCB3FF else if n = 0x303 then some 0x2222
  else if n = 0x304 then some 0x2AAA
  else if n = 0x305 ∨ n = 0x105 then some (2 ^ 64 - 3)
  else if n = 0x306 ∨ n = 0x106 then some (2 ^ 32 - 1)
  else if n = 0x30A then some 0xC0000000000000F1 else if n = 0x10A then some 0xF1
  else if n = 0x30C then some 0xDC00000000000000 else if n = 0x30D ∨ n = 0x30E ∨ n = 0x30F then some 0x8000000000000000
  else if n = 0x320 then some 0xFFFFFFFD
  else if n = 0x340 ∨ n = 0x140 ∨ n = 0x343 ∨ n = 0x143 ∨ n = 0x342 ∨ n = 0x142 ∨ n = 0x14D then some (2 ^ 64 - 1)
  else if n = 0x341 ∨ n = 0x141 then some (2 ^ 64 - 2)
  else if n = 0x350 ∨ n = 0x150 then some 0xFFF
  else if n = 8 then some 0x1FF else if n = 9 then some 1 else if n = 10 then some 3
  else none

/-- CSRs that exist and read 0: sstateen, mvien, mvip, mseccfg, counter inhibition and events, event counters, scountovf. -/
def hartCsrZero (n : Nat) : Bool :=
  decide (n ∈ [0x10C, 0x10D, 0x10E, 0x10F, 0x308, 0x309, 0x747, 0xDA0]) || (decide (0x323 ≤ n) && decide (n < 0x340)) ||
    (decide (0xB03 ≤ n) && decide (n < 0xB20)) || (decide (0xC03 ≤ n) && decide (n < 0xC20))

/-- misa: RV64 with A, B, C, D, F, I, M, S, U and V. -/
def hartMisa : Nat := 2 * 2 ^ 62 + 0x34112F

/-- mip as it reads: held bits, the timer of Sstc, and the interrupt files. -/
def State.hartMip (s : State) (x : HCore) : Nat :=
  let v := x.csrOf 0x344
  let v := if bitAt (x.csrOf 0x30A) 63 then setBits v 5 1 (b2n (decide (x.csrOf 0x14D ≤ s.plt % 2 ^ 64))) else v
  let v := setBits v 9 1 (b2n (bitAt v 9 || x.eiSignals false))
  setBits v 11 1 (b2n (x.eiSignals true))

/-- mstatus as it reads: UXL and SXL are 64 bits, SD shows a dirty FS or VS. -/
def HCore.mstatus (c : HCore) : Nat :=
  c.csrOf 0x300 + 0xA00000000 + (if c.mst 13 2 = 3 ∨ c.mst 9 2 = 3 then 2 ^ 63 else 0)

/-- The interrupts in the order of their priority. -/
def irqOrder : List Nat := [11, 3, 7, 9, 1, 5, 13]

/-- mtopi and stopi: the top pending and enabled interrupt among those for the mode, as IID in bits 27:16 and priority 1. -/
def State.topi (s : State) (x : HCore) (m : Bool) : Nat :=
  let en := Nat.land (s.hartMip x) (x.csrOf 0x304)
  match irqOrder.find? fun i => bitAt en i && (bitAt (x.csrOf 0x303) i != m) with
  | some i => i * 65536 + 1
  | none => 0

/-- pmpaddr's grain of 4 KiB: bits 8:0 read 1 in NAPOT mode, bits 9:0 read 0 otherwise. -/
def HCore.pmpAddr (c : HCore) (i : Nat) : Nat :=
  let a := c.csrOf (0x3B0 + i)
  let cfg := bitsAt (c.csrOf (0x3A0 + 2 * (i / 8))) (8 * (i % 8)) 8
  if 2 ≤ bitsAt cfg 3 2 then setBits a 0 9 511 else setBits a 0 10 0

/-- The configuration byte of PMP entry i. -/
def HCore.pmpCfg (c : HCore) (i : Nat) : Nat := bitsAt (c.csrOf (0x3A0 + 2 * (i / 8))) (8 * (i % 8)) 8

/-- May the mode access the CSR: its privilege, the counter enables, Smstateen and TVM. -/
def HCore.csrAllowed (c : HCore) (n : Nat) : Bool :=
  let lvl := bitsAt n 8 2
  let st0 := c.csrOf 0x30C
  if c.mode < lvl then false
  else if 0xC00 ≤ n ∧ n < 0xC20 then
    (decide (c.mode = 3) || bitAt (c.csrOf 0x306) (n - 0xC00)) && (decide (c.mode ≠ 0) || bitAt (c.csrOf 0x106) (n - 0xC00))
  else if c.mode = 3 then true
  else if n = 0x180 then !(decide (c.mode = 1) && decide (c.mst 20 1 = 1))
  else if n = 0x10A then bitAt st0 62
  else if n = 0x10C then bitAt st0 63
  else if n = 0x10D then bitAt (c.csrOf 0x30D) 63 else if n = 0x10E then bitAt (c.csrOf 0x30E) 63 else if n = 0x10F then bitAt (c.csrOf 0x30F) 63
  else if n = 0x150 ∨ n = 0x151 then bitAt st0 60
  else if n = 0x15C then bitAt st0 58
  else if n = 0xDB0 then bitAt st0 59
  else if n = 0x14D then bitAt (c.csrOf 0x30A) 63 && bitAt (c.csrOf 0x306) 1
  else true

/-- What a read of a CSR gives, none where it does not exist. Counters of cycles and instructions are open values. -/
def State.hartCsrRead (s : State) (c n : Nat) : Option (Nat × State) :=
  let x := s.hcore c
  let ok := fun (v : Nat) => some (v, s)
  if n = 0x001 then (if x.mst 13 2 = 0 then none else ok (x.csrOf 3 % 32))
  else if n = 0x002 then (if x.mst 13 2 = 0 then none else ok (bitsAt (x.csrOf 3) 5 3))
  else if n = 0x003 then (if x.mst 13 2 = 0 then none else ok (x.csrOf 3))
  else if n ∈ [8, 9, 10, 0xF, 0xC20, 0xC21, 0xC22] ∧ x.mst 9 2 = 0 then none
  else if n = 0x00F then ok (x.csrOf 9 % 2 + 2 * (x.csrOf 10 % 4))
  else if n = 0xC20 ∨ n = 0xC21 then ok (x.csrOf n)
  else if n = 0xC22 then ok 64
  else if n = 0xC01 then ok (s.plt % 2 ^ 64)
  else if n ∈ [0xC00, 0xC02, 0xB00, 0xB02] then let d := s.draw; some (d.1 % 2 ^ 64, d.2)
  else if n ∈ [0xF11, 0xF12, 0xF13, 0xF14, 0xF15] then ok (Config.implCsr (24576 + c) n % 2 ^ 64)
  else if n = 0x301 then ok hartMisa
  else if n = 0x300 then ok x.mstatus
  else if n = 0x100 then ok (Nat.land x.mstatus 0x80000003000C6722)
  else if n = 0x344 then ok (s.hartMip x)
  else if n = 0x144 then ok (Nat.land (s.hartMip x) (x.csrOf 0x303))
  else if n = 0x104 then ok (Nat.land (x.csrOf 0x304) (x.csrOf 0x303))
  else if n = 0x180 then ok (x.csrOf n)
  else if n = 0x3A0 ∨ n = 0x3A2 then ok (x.csrOf n)
  else if 0x3B0 ≤ n ∧ n < 0x3C0 then ok (x.pmpAddr (n - 0x3B0))
  else if 0x3A4 ≤ n ∧ n < 0x3B0 ∧ n % 2 = 0 then ok 0
  else if 0x3C0 ≤ n ∧ n < 0x3F0 then ok 0
  else if n = 0x351 ∨ n = 0x151 then
    let m := decide (n = 0x351)
    (imsicMask (x.csrOf (n - 1))).map fun _ => (x.csrOf (imsicKey m (x.csrOf (n - 1))), s)
  else if n = 0x35C ∨ n = 0x15C then let t := x.topei (decide (n = 0x35C)); ok (t * 65536 + t)
  else if n = 0xFB0 then ok (s.topi x true)
  else if n = 0xDB0 then ok (s.topi x false)
  else if hartCsrZero n then ok 0
  else (hartCsrMask n).map fun _ => (x.csrOf n, s)

/-- Writes the bits of a mask. -/
def maskedWrite (old mask v : Nat) : Nat := Nat.lor (old - Nat.land old mask) (Nat.land v mask)

/-- A write of a PMP configuration: locked entries keep theirs, NA4 is not offered with a grain of 4 KiB. -/
def HCore.pmpCfgWrite (c : HCore) (n v : Nat) : HCore :=
  let old := c.csrOf n
  c.setCsr n ((List.range 8).foldl (fun r i =>
    let o := bitsAt old (8 * i) 8
    let w := Nat.land (bitsAt v (8 * i) 8) 0x9F
    let w := if bitsAt w 3 2 = 2 then w - 16 + 8 * (bitsAt o 3 2 % 2) else w
    r + (if bitAt o 7 then o else w) * 2 ^ (8 * i)) 0)

/-- A write of a CSR that exists. -/
def HCore.csrWrite (c : HCore) (n v : Nat) : HCore :=
  let dirtyF := fun (c : HCore) => c.setCsr 0x300 (setBits (c.csrOf 0x300) 13 2 3)
  let dirtyV := fun (c : HCore) => c.setCsr 0x300 (setBits (c.csrOf 0x300) 9 2 3)
  if n = 1 then dirtyF (c.setCsr 3 (setBits (c.csrOf 3) 0 5 v))
  else if n = 2 then dirtyF (c.setCsr 3 (setBits (c.csrOf 3) 5 3 v))
  else if n = 3 then dirtyF (c.setCsr 3 (v % 256))
  else if n = 0xF then dirtyV ((c.setCsr 9 (v % 2)).setCsr 10 (bitsAt v 1 2))
  else if n = 0x300 then
    let w := maskedWrite (c.csrOf n) 0x7E7FAA v
    c.setCsr n (if bitsAt w 11 2 = 2 then setBits w 11 2 (c.mst 11 2) else w)
  else if n = 0x100 then c.setCsr 0x300 (maskedWrite (c.csrOf 0x300) 0xC6722 v)
  else if n = 0x344 then c.setCsr n (maskedWrite (c.csrOf n) (if bitAt (c.csrOf 0x30A) 63 then 0x2202 else 0x2222) v)
  else if n = 0x144 then c.setCsr 0x344 (maskedWrite (c.csrOf 0x344) (Nat.land 0x2002 (c.csrOf 0x303)) v)
  else if n = 0x104 then c.setCsr 0x304 (maskedWrite (c.csrOf 0x304) (c.csrOf 0x303) v)
  else if n = 0x180 then (if bitsAt v 60 4 = 0 ∨ bitsAt v 60 4 = 9 then c.setCsr n v else c)
  else if n = 0x3A0 ∨ n = 0x3A2 then c.pmpCfgWrite n v
  else if 0x3B0 ≤ n ∧ n < 0x3C0 then
    let i := n - 0x3B0
    let next := if i = 15 then 0 else c.pmpCfg (i + 1)
    if bitAt (c.pmpCfg i) 7 || (bitAt next 7 && decide (bitsAt next 3 2 = 1)) then c else c.setCsr n (v % 2 ^ 54)
  else if n = 0x351 ∨ n = 0x151 then
    let k := imsicKey (decide (n = 0x351)) (c.csrOf (n - 1))
    match imsicMask (c.csrOf (n - 1)) with
    | some m => c.setCsr k (Nat.land v m)
    | none => c
  else if n = 0x35C ∨ n = 0x15C then
    -- a write claims the top identity
    let m := decide (n = 0x35C)
    if c.topei m = 0 then c else c.setEi m 0x80 (c.topei m) 0
  else if n = 8 ∨ n = 9 ∨ n = 10 then dirtyV (c.setCsr n (maskedWrite (c.csrOf n) ((hartCsrMask n).getD 0) v))
  else match hartCsrMask n with
    | some m => c.setCsr n (maskedWrite (c.csrOf n) m v)
    | none => c

/-! Traps. -/

/-- Takes a trap into the mode that medeleg or mideleg name, with the reservation lost (R426). -/
def HCore.trap (c : HCore) (irq : Bool) (code tval : Nat) : HCore :=
  let deleg := decide (c.mode ≤ 1) && bitAt (c.csrOf (if irq then 0x303 else 0x302)) code
  let cause := code + (if irq then 2 ^ 63 else 0)
  let vec := fun (tv : Nat) => tv / 4 * 4 + (if irq && decide (tv % 4 = 1) then 4 * code else 0)
  let st := c.csrOf 0x300
  let c := { c with resv := none, hold := false, wfi := false }
  if deleg then
    let st := setBits (setBits (setBits st 8 1 c.mode) 5 1 (bitsAt st 1 1)) 1 1 0
    let d := (((c.setCsr 0x141 c.pc).setCsr 0x142 cause).setCsr 0x143 tval).setCsr 0x300 st
    { d with mode := 1, pc := vec (c.csrOf 0x105) % 2 ^ 64 }
  else
    let st := setBits (setBits (setBits st 11 2 c.mode) 7 1 (bitsAt st 3 1)) 3 1 0
    let d := (((c.setCsr 0x341 c.pc).setCsr 0x342 cause).setCsr 0x343 tval).setCsr 0x300 st
    { d with mode := 3, pc := vec (c.csrOf 0x305) % 2 ^ 64 }

/-- MRET. -/
def HCore.mret (c : HCore) : HCore :=
  let st := c.csrOf 0x300
  let mpp := bitsAt st 11 2
  let st := setBits (setBits (setBits st 3 1 (bitsAt st 7 1)) 7 1 1) 11 2 0
  let st := if mpp = 3 then st else setBits st 17 1 0
  { c.setCsr 0x300 st with mode := mpp, pc := c.csrOf 0x341 }

/-- SRET. -/
def HCore.sret (c : HCore) : HCore :=
  let st := c.csrOf 0x300
  let spp := bitsAt st 8 1
  let st := setBits (setBits (setBits (setBits st 1 1 (bitsAt st 5 1)) 5 1 1) 8 1 0) 17 1 0
  { c.setCsr 0x300 st with mode := spp, pc := c.csrOf 0x141 }

/-- The interrupt that a core takes now: the highest of those for machine mode, else of those for supervisor mode, where its mode and enables
allow it. -/
def State.irqNow (s : State) (x : HCore) : Option Nat :=
  let en := Nat.land (s.hartMip x) (x.csrOf 0x304)
  let del := x.csrOf 0x303
  let m := decide (x.mode < 3) || decide (x.mst 3 1 = 1)
  let sv := decide (x.mode < 1) || (decide (x.mode = 1) && decide (x.mst 1 1 = 1))
  match (if m then irqOrder.find? fun i => bitAt en i && !bitAt del i else none) with
  | some i => some i
  | none => if sv then irqOrder.find? fun i => bitAt en i && bitAt del i else none

/-- Is an interrupt pending and enabled, so that WFI ends? -/
def State.irqWakes (s : State) (x : HCore) : Bool := decide (Nat.land (s.hartMip x) (x.csrOf 0x304) ≠ 0)

end Sys2Proof.Machine
end

