-- ==== Sys2Proof/Machine/HartMem.lean ====
section
/-! DEFINITION. Memory as the host cores reach it (R424 to R430, R280, R289 to R292): protection, Sv48 translation, and accesses by the
attributes of Table 15.4. -/
namespace Sys2Proof.Machine

/-- What a core does at an address: kind 0 fetch, 1 load, 2 store or AMO. -/
def accessFaultOf (kind : Nat) : Nat := if kind = 0 then 1 else if kind = 1 then 5 else 7
def pageFaultOf (kind : Nat) : Nat := if kind = 0 then 12 else if kind = 1 then 13 else 15

/-- How an access ends: bytes, an exception by its cause, or a wait. -/
inductive HAcc where
  | ok (bs : List Byte)
  | exc (cause : Nat)
  | wait
  deriving DecidableEq, Repr

/-! Physical memory protection: 16 entries at a 4 KiB granule (Table 15.1). -/

/-- The range of PMP entry i, none where it is off. -/
def HCore.pmpRange (c : HCore) (i : Nat) : Option (Nat × Nat) :=
  let a := c.csrOf (0x3B0 + i)
  match bitsAt (c.pmpCfg i) 3 2 with
  | 1 => some (if i = 0 then 0 else c.csrOf (0x3B0 + i - 1) / 1024 * 4096, a / 1024 * 4096)
  | 3 =>
    -- NAPOT: trailing ones of pmpaddr, of which the grain's nine read 1
    let a := setBits a 0 9 511
    let t := ((List.range 54).takeWhile fun j => bitAt a j).length
    some (a / 2 ^ (t + 1) * 2 ^ (t + 3), (a / 2 ^ (t + 1) + 1) * 2 ^ (t + 3))
  | _ => none

/-- Does PMP let a mode make an access of n bytes? The first entry that matches a byte must hold them all. -/
def HCore.pmpOk (c : HCore) (mode kind a n : Nat) : Bool :=
  match (List.range 16).find? fun i => match c.pmpRange i with
    | some (lo, hi) => decide (a < hi) && decide (lo < a + n)
    | none => false with
  | none => decide (mode = 3)
  | some i =>
    let cfg := c.pmpCfg i
    let inside := match c.pmpRange i with
      | some (lo, hi) => decide (lo ≤ a) && decide (a + n ≤ hi)
      | none => false
    inside && ((decide (mode = 3) && !bitAt cfg 7) || bitAt cfg (if kind = 0 then 2 else if kind = 1 then 0 else 1))

/-! Lines in the core's L2 (R280, R282). -/

/-- The line of a core in its L2, in a state that a store needs where `write` is set; where it is not there, the core asks for it and waits. A
request that ended without a line gives its exception once: poison a hardware error, an absent unit an access fault (R261). -/
def State.coreLine (s : State) (c line kind : Nat) (write : Bool) : (Except HAcc CLine) × State :=
  match s.creqs.find? fun r => decide (r.core = c) && decide (r.line = line) && decide (r.stage = 3) && decide (r.kind < 3) with
  | some r =>
    let s := { s with creqs := s.creqs.filter fun q => decide (q ≠ r) }
    (.error (.exc (if r.op.head? = some 1 then 19 else accessFaultOf kind)), s)
  | none =>
    let x := s.cacheLine c line
    if x.st = .i then (.error .wait, if write then s.askUnique c line else s.askShared c line)
    else if write && !(decide (x.st = .e) || decide (x.st = .m)) then (.error .wait, s.askUnique c line)
    else (.ok x, s)

/-- Reads bytes of one line through the core's caches. -/
def State.coreLineRead (s : State) (c a n kind : Nat) : HAcc × State :=
  match s.coreLine c (a / 128) kind false with
  | (.error e, s1) => (e, s1)
  | (.ok x, s1) =>
    if (burstsOf (a % 128) n).any (bitAt x.poison) then (.exc 19, s1) else (.ok ((x.data.drop (a % 128)).take n), s1)

/-- Writes bytes of one line in the core's L2, which must hold it in E or M. A burst written whole is no longer poisoned. -/
def State.coreLineWrite (s : State) (c a : Nat) (bs : List Byte) : HAcc × State :=
  match s.coreLine c (a / 128) 2 true with
  | (.error e, s1) => (e, s1)
  | (.ok x, s1) =>
    let off := a % 128
    let whole := fun (i : Nat) => decide (off ≤ 64 * i) && decide (64 * i + 64 ≤ off + bs.length)
    let p := (if whole 0 then 0 else x.poison % 2) + (if whole 1 then 0 else x.poison / 2 * 2)
    (.ok [], s1.setCacheLine c (a / 128) ⟨.m, overlay x.data off bs, p⟩)

/-! Physical accesses by Table 15.4. -/

/-- The device register range. -/
def regRange (pa : Nat) : Bool := decide (0xF00000000000 ≤ pa) && decide (pa < 0x1000000000000)

/-- Ends an access at a home or a unit by its status. -/
def hAcc (kind : Nat) : Access → HAcc
  | .ok bs => .ok bs
  | .bad st => if st = stWAIT then .wait else if st = 13 then .exc 19 else .exc (accessFaultOf kind)

/-- A read of n bytes within one page, with the page's NC or IO type in `nc`; `mode` is the mode of the access (R428 to R430). -/
def State.physRead (s : State) (c mode kind pa n : Nat) (nc : Bool) : HAcc × State :=
  let fault := (HAcc.exc (accessFaultOf kind), s)
  if !(s.hcore c).pmpOk mode kind pa n then fault
  else if regRange pa then
    let a := pa - 0xF00000000000
    if mode = 0 ∨ kind = 0 ∨ pa % n ≠ 0 then fault
    else if msixRange a then (.ok (List.replicate n 0#8), s)
    else if !s.regPowered a then (.ok (List.replicate n 0xFF#8), s)
    else if s.regStopped a then (.wait, s.holdAt (10 * 2 ^ 24 + c) a none)
    else let s := s.unheld (10 * 2 ^ 24 + c); (.ok (s.mapRead a n), s)
  else
    match placeOf pa with
    | some (.cellar a) =>
      if nc then
        let r := readLines (fun s a n => s.homeRead a n) (lineFuel n) a n s
        if r.1 = .bad stWAIT then (.wait, s) else (hAcc kind r.1, r.2)
      else if a % 128 + n ≤ 128 then s.coreLineRead c a n kind
      else
        let m := 128 - a % 128
        match s.coreLineRead c a m kind with
        | (.ok b, s1) =>
          match s1.coreLineRead c (a + m) (n - m) kind with
          | (.ok b', s2) => (.ok (b ++ b'), s2)
          | r => r
        | r => r
    | some p =>
      if kind = 0 ∨ pa % n ≠ 0 then fault
      else
        let r := match p with
          | .opAlias _ a => s.homeRead a n
          | .hatch w x =>
            if !s.on (outValid w) || decide (s.outSize w ≤ x) || !s.on (outRd w) then (.bad stPERMISSION, s)
            else s.hatchRead (24576 + c) corePos [] w x n
          | p => s.placeRead 0 p n 0
        if r.1 = .bad stWAIT then (.wait, s) else (hAcc kind r.1, r.2)
    | none => fault

/-- A write within one page. -/
def State.physWrite (s : State) (c mode pa : Nat) (bs : List Byte) (nc : Bool) : HAcc × State :=
  let n := bs.length
  let fault := (HAcc.exc 7, s)
  if !(s.hcore c).pmpOk mode 2 pa n then fault
  else if regRange pa then
    let a := pa - 0xF00000000000
    if mode = 0 ∨ pa % n ≠ 0 then fault
    else if s.regPowered a && s.regStopped a then (.wait, s.holdAt (10 * 2 ^ 24 + c) a none)
    else if h : c < 96 then (.ok [], s.regWrite (.hostCore ⟨c, h⟩) a n (BitVec.ofNat 64 (ofBytes bs)))
    else fault
  else
    match placeOf pa with
    | some (.cellar a) =>
      if nc then
        let r := writeLines (fun s a bs => s.homeWrite a (bs.map fun b => (b, true)) false none) (lineFuel n) a bs s
        if r.1 = stWAIT then (.wait, s) else if r.1 = 0 then (.ok [], r.2) else (.exc 7, r.2)
      else if a % 128 + n ≤ 128 then s.coreLineWrite c a bs
      else
        let m := 128 - a % 128
        -- both lines first, so that neither part is written without the other
        match s.coreLine c (a / 128) 2 true with
        | (.error e, s1) => (e, s1)
        | (.ok _, s1) =>
          match s1.coreLine c ((a + m) / 128) 2 true with
          | (.error e, s2) => (e, s2)
          | (.ok _, s2) => (s2.coreLineWrite c a (bs.take m)).2.coreLineWrite c (a + m) (bs.drop m)
    | some p =>
      if pa % n ≠ 0 then fault
      else
        let r := match p with
          | .opAlias opc a => s.aliasWrite 0 opc a bs
          | .hatch w x =>
            if !s.on (outValid w) || decide (s.outSize w ≤ x) || !s.on (outWr w) then (stPERMISSION, s)
            else s.hatchWrite (24576 + c) corePos [] w x bs
          | p => s.placeWrite 0 p bs 0
        if r.1 = stWAIT then (.wait, s) else if r.1 = 0 then (.ok [], r.2) else (.exc 7, r.2)
    | none => fault

/-! Translation: Sv48 with 64 KiB Svnapot pages and Svpbmt (Table 15.1, R429). The core holds no translation between accesses (log entry 12). -/

/-- What a translation gives: a physical address and whether the page's type makes the access non-cacheable, or how it ends. -/
inductive HXlate where
  | ok (pa : Nat) (nc : Bool)
  | exc (cause : Nat)
  | wait
  deriving DecidableEq, Repr

/-- The mode that a data access is judged in: mstatus.MPRV borrows MPP. -/
def HCore.dataMode (c : HCore) : Nat := if c.mode = 3 ∧ c.mst 17 1 = 1 then c.mst 11 2 else c.mode

/-- Judges a leaf entry of level `l` (3 maps 512 GiB, 0 maps 4 KiB): permissions, A and D, alignment, Svnapot, Svpbmt. -/
def HCore.leaf (c : HCore) (mode kind va l e : Nat) : HXlate :=
  let bad := HXlate.exc (pageFaultOf kind)
  let r := bitAt e 1 || (bitAt e 3 && decide (c.mst 19 1 = 1))
  let perm := if kind = 0 then bitAt e 3 else if kind = 1 then r else bitAt e 2
  let user := bitAt e 4
  let priv := if mode = 0 then user else !user || (decide (kind ≠ 0) && decide (c.mst 18 1 = 1))
  let ppn := bitsAt e 10 44
  let napot := bitAt e 63
  let pbmt := bitsAt e 61 2
  let pbmtOk := decide (pbmt = 0) || (decide (pbmt ≠ 3) && bitAt (c.csrOf 0x30A) 62)
  if !perm || !priv || !bitAt e 6 || (decide (kind = 2) && !bitAt e 7) || !pbmtOk then bad
  else if ppn % 512 ^ l ≠ 0 then bad
  else if napot && (decide (l ≠ 0) || decide (ppn % 16 ≠ 8)) then bad
  else
    let size := if napot then 65536 else 4096 * 512 ^ l
    .ok (4096 * ppn / size * size + va % size) (decide (pbmt ≠ 0))

/-- Walks from a table at level `l`, for at most `fuel` reads. -/
def State.hartWalk (s : State) (c mode kind va : Nat) : Nat → Nat → Nat → HXlate × State
  | 0, _, _ => (.exc (pageFaultOf kind), s)
  | fuel + 1, l, table =>
    let x := s.hcore c
    let r := s.physRead c 1 1 (table + 8 * bitsAt va (12 + 9 * l) 9) 8 false
    match r.1 with
    | .wait => (.wait, r.2)
    | .exc k => (.exc (if k = 19 then 19 else accessFaultOf kind), r.2)
    | .ok bs =>
      let e := ofBytes bs
      let rwx := bitsAt e 1 3
      if !bitAt e 0 || decide (rwx % 4 = 2) || decide (bitsAt e 54 7 ≠ 0) then (.exc (pageFaultOf kind), r.2)
      else if rwx ≠ 0 then (x.leaf mode kind va l e, r.2)
      else if l = 0 ∨ bitAt e 4 ∨ bitAt e 6 ∨ bitAt e 7 ∨ bitsAt e 61 3 ≠ 0 then (.exc (pageFaultOf kind), r.2)
      else r.2.hartWalk c mode kind va fuel (l - 1) (4096 * bitsAt e 10 44)

/-- Translates an address of a core. -/
def State.hartXlate (s : State) (c mode kind va : Nat) : HXlate × State :=
  let x := s.hcore c
  let satp := x.csrOf 0x180
  if mode = 3 ∨ satp / 2 ^ 60 = 0 then (if va < 2 ^ 56 then (.ok va false, s) else (.exc (accessFaultOf kind), s))
  else if !(decide (va < 2 ^ 47) || decide (2 ^ 64 - 2 ^ 47 ≤ va)) then (.exc (pageFaultOf kind), s)
  else s.hartWalk c mode kind va 4 3 (4096 * bitsAt satp 0 44)

/-! Virtual accesses (R425). -/

/-- Is a page of an access cellar memory of the ordinary type or of NC or IO type? Both parts of a misaligned access must be. -/
def isCellar (pa : Nat) : Bool :=
  match placeOf pa with
  | some (.cellar _) => true
  | _ => false

/-- Translates an access of n bytes: one part, or two across a page boundary, as (address, bytes, non-cacheable). A misaligned access whose
parts do not all lie in cellar memory of one type takes an access fault (R425). -/
def State.hartParts (s : State) (c mode kind va n : Nat) : (Except HAcc (List (Nat × Nat × Bool))) × State :=
  match s.hartXlate c mode kind va with
  | (.exc k, s1) => (.error (.exc k), s1)
  | (.wait, s1) => (.error .wait, s1)
  | (.ok pa nc, s1) =>
    if va % n = 0 then (.ok [(pa, n, nc)], s1)
    else if !isCellar pa then (.error (.exc (accessFaultOf kind)), s1)
    else if va % 4096 + n ≤ 4096 then (.ok [(pa, n, nc)], s1)
    else
      let m := 4096 - va % 4096
      match s1.hartXlate c mode kind ((va + m) % 2 ^ 64) with
      | (.exc k, s2) => (.error (.exc k), s2)
      | (.wait, s2) => (.error .wait, s2)
      | (.ok pb nc', s2) =>
        if isCellar pb && nc == nc' then (.ok [(pa, m, nc), (pb, n - m, nc)], s2)
        else (.error (.exc (accessFaultOf kind)), s2)

/-- Reads the parts of an access in order. -/
def State.readParts (s : State) (c mode kind : Nat) : List (Nat × Nat × Bool) → HAcc × State
  | [] => (.ok [], s)
  | (pa, n, nc) :: ps =>
    match s.physRead c mode kind pa n nc with
    | (.ok b, s1) =>
      match s1.readParts c mode kind ps with
      | (.ok b', s2) => (.ok (b ++ b'), s2)
      | r => r
    | r => r

/-- Writes the parts of an access in order. -/
def State.writeParts (s : State) (c mode : Nat) : List (Nat × Nat × Bool) → List Byte → HAcc × State
  | [], _ => (.ok [], s)
  | (pa, n, nc) :: ps, bs =>
    match s.physWrite c mode pa (bs.take n) nc with
    | (.ok _, s1) => s1.writeParts c mode ps (bs.drop n)
    | r => r

/-- A load of n bytes at a virtual address. -/
def State.hartRead (s : State) (c mode kind va n : Nat) : HAcc × State :=
  match s.hartParts c mode kind va n with
  | (.error e, s1) => (e, s1)
  | (.ok ps, s1) => s1.readParts c mode kind ps

/-- A store at a virtual address. -/
def State.hartWrite (s : State) (c mode va : Nat) (bs : List Byte) : HAcc × State :=
  match s.hartParts c mode 2 va bs.length with
  | (.error e, s1) => (e, s1)
  | (.ok ps, s1) => s1.writeParts c mode ps bs

end Sys2Proof.Machine
end

