-- ==== Sys2Proof/Machine/HartVec.lean ====
section
/-! DEFINITION. The vector unit of the host cores (R422, VLEN 512, ELEN 64): configuration, element loads and stores, and the results of the
single-width integer and float operations, as the V extension names them. Results of its other operations are free (log entry 13). -/
namespace Sys2Proof.Machine

/-! vtype and vl. -/
def HCore.vl (c : HCore) : Nat := c.csrOf 0xC20
def HCore.vtype (c : HCore) : Nat := c.csrOf 0xC21
def HCore.vill (c : HCore) : Bool := bitAt c.vtype 63

/-- SEW in bits. -/
def HCore.sew (c : HCore) : Nat := 8 * 2 ^ bitsAt c.vtype 3 3

/-- LMUL in eighths. -/
def lmul8 (vt : Nat) : Nat := let m := bitsAt vt 0 3; if m < 4 then 8 * 2 ^ m else 2 ^ (m - 5)

/-- VLMAX. -/
def vlmax (vt : Nat) : Nat := 512 * lmul8 vt / (8 * 8 * 2 ^ bitsAt vt 3 3)

/-- Is a vtype supported? -/
def vtypeOk (vt : Nat) : Bool :=
  decide (vt < 256) && decide (bitsAt vt 3 3 < 4) && decide (bitsAt vt 0 3 ≠ 4) && decide (8 * 2 ^ bitsAt vt 3 3 * 8 ≤ 64 * max 8 (lmul8 vt)) &&
    decide (8 * 2 ^ bitsAt vt 3 3 ≤ 8 * lmul8 vt ∨ 8 ≤ lmul8 vt)

/-- VSETVLI, VSETIVLI and VSETVL. -/
def HCore.vsetvl (c : HCore) (w : Nat) : HCore :=
  let imm := decide (bitsAt w 30 2 = 3)
  let reg := decide (bitsAt w 30 2 = 2)
  let vt := if imm then bitsAt w 20 10 else if reg then (c.xr (rvRs2 w)).toNat else bitsAt w 20 11
  let rd := rvRd w
  let rs1 := rvRs1 w
  if vtypeOk vt then
    let avl := if imm then rs1 else if rs1 ≠ 0 then (c.xr rs1).toNat else if rd ≠ 0 then 2 ^ 64 - 1 else c.vl
    let vl := min avl (vlmax vt)
    (((c.setCsr 0xC20 vl).setCsr 0xC21 vt).setCsr 8 0).setX rd (BitVec.ofNat 64 vl)
  else (((c.setCsr 0xC20 0).setCsr 0xC21 (2 ^ 63)).setCsr 8 0).setX rd 0#64

/-! Elements. -/

/-- Element i of a register group, of `e` bits. -/
def HCore.elem (c : HCore) (r e i : Nat) : Nat := bitsAt (lookMap 0 c.v ((r + i * e / 512) % 32)) (i * e % 512) e

/-- Sets an element. -/
def HCore.setElem (c : HCore) (r e i v : Nat) : HCore :=
  let k := (r + i * e / 512) % 32
  { c with v := putMap 0 c.v k (setBits (lookMap 0 c.v k) (i * e % 512) e v) }

/-- Is element i active under v0 where the instruction is masked? -/
def HCore.active (c : HCore) (w i : Nat) : Bool := bitAt w 25 || decide (c.elem 0 1 i = 1)

/-- VS becomes dirty and vstart 0. -/
def HCore.vDone (c : HCore) : HCore := (c.setCsr 0x300 (setBits (c.csrOf 0x300) 9 2 3)).setCsr 8 0

/-! Loads and stores. -/

/-- The shape of a vector memory instruction: the width of its data elements and of its index elements, the elements, the fields, and the
registers between fields; none where it is reserved. -/
def HCore.vmem (c : HCore) (w : Nat) : Option (Nat × Nat × Nat × Nat × Nat) :=
  let f3 := rvF3 w
  let eew := if f3 = 0 then 8 else 8 * 2 ^ (f3 - 4)
  let mop := bitsAt w 26 2
  let nf := bitsAt w 29 3 + 1
  let um := rvRs2 w
  if bitAt w 28 then none
  else if mop = 0 ∧ um = 8 then (if nf ∈ [1, 2, 4, 8] ∧ bitAt w 25 then some (eew, eew, nf * 512 / eew, 1, 1) else none)
  else if c.vill then none
  else if mop = 0 ∧ um = 11 then (if nf = 1 ∧ eew = 8 ∧ bitAt w 25 then some (8, 8, (c.vl + 7) / 8, 1, 1) else none)
  else if mop = 0 ∧ um ≠ 0 ∧ um ≠ 16 then none
  else
    let data := if mop % 2 = 1 then c.sew else eew
    let emul8 := data * lmul8 c.vtype / c.sew
    let regs := max 1 (emul8 / 8)
    if emul8 = 0 ∨ 64 < emul8 ∨ 8 < regs * nf then none else some (data, eew, c.vl, nf, regs)

/-- The address of field f of element i. -/
def HCore.vaddr (c : HCore) (w data idx nf i f : Nat) : Nat :=
  let base := (c.xr (rvRs1 w)).toNat
  let mop := bitsAt w 26 2
  let at' := if mop = 0 then i * nf * (data / 8) else if mop = 2 then i * (c.xr (rvRs2 w)).toNat else c.elem (rvRs2 w) idx i
  (base + at' + f * (data / 8)) % 2 ^ 64

/-- Loads or stores the elements from `vstart` on, one field at a time, until one waits or takes an exception; vstart then names it. Answers the
exception with its address, or a wait. -/
def State.vmemRun (s : State) (c mode w : Nat) (write : Bool) (data idx nf regs : Nat) : List (Nat × Nat) → Option (HAcc × Nat) × State
  | [] => (none, s)
  | (i, f) :: rest =>
    let x := s.hcore c
    if !x.active w i then s.vmemRun c mode w write data idx nf regs rest
    else
      let a := x.vaddr w data idx nf i f
      let r := if write then s.hartWrite c mode a (toBytes (data / 8) (x.elem (rvRd w + f * regs) data i)) else s.hartRead c mode 1 a (data / 8)
      match r.1 with
      | .ok bs =>
        let s1 := if write then r.2 else r.2.setHcore c ((r.2.hcore c).setElem (rvRd w + f * regs) data i (ofBytes bs))
        s1.vmemRun c mode w write data idx nf regs rest
      | e => (some (e, a), r.2.setHcore c ((r.2.hcore c).setCsr 8 i))

/-! Arithmetic. -/

/-- The integer operation of a single-width instruction by funct6, in the OPI and OPM spaces. -/
def vIntOp (opm : Bool) (f6 : Nat) : Option AluOp :=
  if opm then
    match f6 with
    | 0x24 => some .mulhu | 0x25 => some .mul | 0x26 => some .mulhsu | 0x27 => some .mulh
    | 0x20 => some .divu | 0x21 => some .div | 0x22 => some .remu | 0x23 => some .rem | _ => none
  else
    match f6 with
    | 0x00 => some .add | 0x02 => some .sub | 0x04 => some .minu | 0x05 => some .min | 0x06 => some .maxu | 0x07 => some .max
    | 0x09 => some .and | 0x0A => some .or | 0x0B => some .xor | 0x25 => some .sll | 0x28 => some .srl | 0x29 => some .sra
    | 0x01 => some .andn | 0x14 => some .ror | 0x15 => some .rol | _ => none

/-- A comparison of the OPI space: a is vs2's element, b the other operand. -/
def vIntCmp (n f6 a b : Nat) : Option Bool :=
  let sa := signedOf n a
  let sb := signedOf n b
  match f6 with
  | 0x18 => some (decide (a = b)) | 0x19 => some (decide (a ≠ b)) | 0x1A => some (decide (a < b)) | 0x1B => some (decide (sa < sb))
  | 0x1C => some (decide (a ≤ b)) | 0x1D => some (decide (sa ≤ sb)) | 0x1E => some (decide (b < a)) | 0x1F => some (decide (sb < sa)) | _ => none

/-- A float operation of the OPF space on elements a (vs2), b (vs1 or f) and d (vd): result and flags. -/
def vFpOp (f : Fmt) (rm f6 a b d : Nat) : Option FpAns :=
  let na := decodeNum f a
  let nb := decodeNum f b
  let nd := decodeNum f d
  let sg := 2 ^ (f.bits - 1)
  match f6 with
  | 0x00 => some (fpAdd f rm na nb) | 0x02 => some (fpAdd f rm na nb.neg) | 0x27 => some (fpAdd f rm nb na.neg)
  | 0x24 => some (fpMul f rm na nb) | 0x20 => some (fpDiv f rm na nb) | 0x21 => some (fpDiv f rm nb na)
  | 0x04 => some (fpMinMax f false false a b) | 0x06 => some (fpMinMax f true false a b)
  | 0x08 => some (a % sg + b / sg * sg, 0) | 0x09 => some (a % sg + (1 - b / sg) * sg, 0) | 0x0A => some (a % sg + (a / sg + b / sg) % 2 * sg, 0)
  | 0x28 => some (fpFma f rm nd nb na) | 0x29 => some (fpFma f rm nd.neg nb na.neg)
  | 0x2A => some (fpFma f rm nd nb na.neg) | 0x2B => some (fpFma f rm nd.neg nb na)
  | 0x2C => some (fpFma f rm nb na nd) | 0x2D => some (fpFma f rm nb.neg na nd.neg)
  | 0x2E => some (fpFma f rm nb na nd.neg) | 0x2F => some (fpFma f rm nb.neg na nd)
  | _ => none

/-- A float comparison of the OPF space. -/
def vFpCmp (f : Fmt) (f6 a b : Nat) : Option (Nat × Nat) :=
  let na := decodeNum f a
  let nb := decodeNum f b
  match f6 with
  | 0x18 => some (fpCompare 2 na nb) | 0x19 => some (fpCompare 0 na nb) | 0x1B => some (fpCompare 1 na nb)
  | 0x1C => let r := fpCompare 2 na nb; some (1 - r.1, r.2)
  | 0x1D => some (fpCompare 1 nb na) | 0x1F => some (fpCompare 0 nb na) | _ => none

/-- A logical operation on masks (OPM 0x18 to 0x1F). -/
def maskOp (f6 a b : Nat) : Nat :=
  let nb := 1 - b
  match f6 with
  | 0x18 => a * nb | 0x19 => a * b | 0x1A => max a b | 0x1B => (a + b) % 2
  | 0x1C => max a nb | 0x1D => 1 - a * b | 0x1E => 1 - max a b | _ => 1 - (a + b) % 2

/-- The registers that an instruction whose results are free writes: one for reductions and masks, twice LMUL for widening operations. -/
def vFreeRegs (f3 f6 lm : Nat) : Nat :=
  let red := (decide (f3 = 2) && decide (f6 < 8)) || (decide (f3 = 1) && decide (f6 ∈ [1, 3, 5, 7, 0x31, 0x33])) || (decide (f3 = 0) && decide (f6 ∈ [0x30, 0x31]))
  let mask := (decide (f3 ∈ [0, 3, 4]) && decide (f6 ∈ [0x11, 0x13])) || (decide (f3 = 2) && decide (f6 = 0x14))
  if red || mask then 1 else if f6 < 0x30 then max 1 (lm / 8) else max 1 (2 * lm / 8)

/-- Draws free values into registers of a group. -/
def State.freeRegs (s : State) (c rd : Nat) : Nat → State
  | 0 => s
  | n + 1 =>
    let d := s.draw
    let x := d.2.hcore c
    State.freeRegs (d.2.setHcore c { x with v := putMap 0 x.v ((rd + n) % 32) (d.1 % 2 ^ 512) }) c rd n

/-- One element of an operation: its value and flags, with whether it is a mask bit. None where the model leaves the result free. -/
def HCore.vElem (c : HCore) (w i : Nat) : Option (Nat × Nat × Bool) :=
  let f3 := rvF3 w
  let f6 := bitsAt w 26 6
  let n := c.sew
  let a := c.elem (rvRs2 w) n i
  let xs := (c.xr (rvRs1 w)).toNat % 2 ^ n
  let imm := encodeInt n (sext 5 (rvRs1 w))
  let b := if f3 = 0 ∨ f3 = 2 then c.elem (rvRs1 w) n i else if f3 = 3 then imm else xs
  if f3 ∈ [0, 3, 4] then
    if f6 = 0x17 then some (if c.active w i then b else a, 0, false)
    else if f6 = 3 then some (encodeInt n ((b : Int) - a), 0, false)
    else match vIntCmp n f6 a b with
      | some t => some (b2n t, 0, true)
      | none => (vIntOp false f6).map fun op =>
          let b := if f3 = 3 ∧ f6 ∈ [0x25, 0x28, 0x29] then rvRs1 w else if f3 = 3 ∧ (f6 = 0x14 ∨ f6 = 0x15) then rvRs1 w + 32 * (f6 % 2) else b
          ((aluFn n (if f3 = 3 ∧ f6 = 0x15 then .ror else op) (BitVec.ofNat n a) (BitVec.ofNat n b)).toNat, 0, false)
  else if f3 = 2 ∨ f3 = 6 then
    if f3 = 2 ∧ 0x18 ≤ f6 ∧ f6 < 0x20 then some (maskOp f6 (c.elem (rvRs2 w) 1 i) (c.elem (rvRs1 w) 1 i), 0, true)
    else if f6 ∈ [0x29, 0x2B, 0x2D, 0x2F] then
      let d := c.elem (rvRd w) n i
      let v : Int := match f6 with
        | 0x29 => (b * d : Int) + a | 0x2B => (a : Int) - b * d | 0x2D => (b * a : Int) + d | _ => (d : Int) - b * a
      some (encodeInt n v, 0, false)
    else (vIntOp true f6).map fun op => ((aluFn n op (BitVec.ofNat n a) (BitVec.ofNat n b)).toNat, 0, false)
  else if n = 32 ∨ n = 64 then
    let f : Fmt := if n = 32 then .fp32 else .fp64
    let b := if f3 = 1 then c.elem (rvRs1 w) n i else unbox f (c.fr (rvRs1 w))
    if f6 = 0x17 ∧ f3 = 5 then some (if c.active w i then b else a, 0, false)
    else match vFpCmp f f6 a b with
      | some r => some (r.1, r.2, true)
      | none => (vFpOp f (bitsAt (c.csrOf 3) 5 3) f6 a b (c.elem (rvRd w) n i)).map fun r => (r.1, r.2, false)
  else none

/-- Executes the elements of an operation from vstart to vl. A merge writes every element, another only the active ones; a mask result is a
bit of vd. -/
def HCore.vRun (c src : HCore) (w : Nat) : List Nat → HCore
  | [] => c
  | i :: rest =>
    let f6 := bitsAt w 26 6
    let all := decide (f6 = 0x17) || (decide (rvF3 w = 2) && decide (0x18 ≤ f6) && decide (f6 < 0x20))
    if all || src.active w i then
      match src.vElem w i with
      | some (v, fl, m) =>
        let c := if m then c.setElem (rvRd w) 1 i v else c.setElem (rvRd w) src.sew i v
        (if fl = 0 then c else c.setCsr 3 (Nat.lor (c.csrOf 3) fl)).vRun src w rest
      | none => c.vRun src w rest
    else c.vRun src w rest

/-- A vector instruction of the OP-V space; none where it is illegal. -/
def State.vecExec (s : State) (c w : Nat) : Option State :=
  let x := s.hcore c
  let f3 := rvF3 w
  let f6 := bitsAt w 26 6
  let fpOp := decide (f3 = 1 ∨ f3 = 5)
  if x.mst 9 2 = 0 ∨ (fpOp ∧ (x.mst 13 2 = 0 ∨ 4 < bitsAt (x.csrOf 3) 5 3)) then none
  else if f3 = 7 then
    if bitAt w 31 && decide (bitsAt w 30 2 = 2) && decide (bitsAt w 25 5 ≠ 0) then none else some (s.setHcore c (x.vsetvl w).vDone)
  else if f3 = 3 ∧ f6 = 0x27 ∧ bitAt w 25 then
    -- VMV<nr>R
    let nr := rvRs1 w % 8 + 1
    if nr ∈ [1, 2, 4, 8] then
      let y := (List.range nr).foldl (fun (y : HCore) k =>
        { y with v := putMap 0 y.v ((rvRd w + k) % 32) (lookMap 0 x.v ((rvRs2 w + k) % 32)) }) x
      some (s.setHcore c y.vDone)
    else none
  else if x.vill then none
  else if f3 = 2 ∧ f6 = 0x10 then
    -- VMV.X.S, VCPOP.M, VFIRST.M
    let bits := ((List.range x.vl).filter fun i => x.active w i && decide (x.elem (rvRs2 w) 1 i = 1))
    let v : Option Int := match rvRs1 w with
      | 0 => some (signedOf x.sew (x.elem (rvRs2 w) x.sew 0))
      | 16 => some bits.length
      | 17 => some (match bits.head? with | some i => (i : Int) | none => -1)
      | _ => none
    v.map fun v => s.setHcore c ((x.setX (rvRd w) (BitVec.ofInt 64 v)).vDone)
  else if f3 = 6 ∧ f6 = 0x10 then
    some (s.setHcore c (if x.vl = 0 then x else x.setElem (rvRd w) x.sew 0 (x.xr (rvRs1 w)).toNat).vDone)
  else if f3 = 1 ∧ f6 = 0x10 ∧ (x.sew = 32 ∨ x.sew = 64) then
    some (s.setHcore c ((x.setF (rvRd w) (box (if x.sew = 32 then .fp32 else .fp64) (x.elem (rvRs2 w) x.sew 0))).vDone))
  else if f3 = 5 ∧ f6 = 0x10 ∧ (x.sew = 32 ∨ x.sew = 64) then
    some (s.setHcore c (if x.vl = 0 then x
      else x.setElem (rvRd w) x.sew 0 (unbox (if x.sew = 32 then .fp32 else .fp64) (x.fr (rvRs1 w)))).vDone)
  else
    let is := (List.range x.vl).drop (x.csrOf 8)
    if (x.vElem w 0).isSome then some (s.setHcore c (x.vRun x w is).vDone)
    else
      let s1 := if is.isEmpty then s else s.freeRegs c (rvRd w) (vFreeRegs f3 f6 (lmul8 x.vtype))
      some (s1.setHcore c (s1.hcore c).vDone)

end Sys2Proof.Machine
end

