-- ==== Sys2Proof/Machine/Mgmt.lean ====
section
/-! DEFINITION. The management path: management frames over Grenlink and over the ring (R368, R577 to R579), and the test access port
(R606). -/
namespace Sys2Proof.Machine

/-! Management frames (Table 21.8). -/
def mgOp (f : List Byte) : Nat := fldAt f 0 1
def mgMode (f : List Byte) : Nat := fldAt f 1 1
def mgPos (f : List Byte) : Nat := fldAt f 2 2
def mgPlace (f : List Byte) : Nat := fldAt f 4 4
def mgAddr (f : List Byte) : Nat := fldAt f 8 4
def mgLen (f : List Byte) : Nat := fldAt f 12 2
def mgTag (f : List Byte) : Nat := fldAt f 14 2

/-- A frame with its CRC-32C. -/
def withCrc (body : List Byte) : List Byte := body ++ toBytes 4 (crc32c body).toNat

/-- Does a frame's CRC-32C check? -/
def frameCrcOk (f : List Byte) : Bool := decide (20 ≤ f.length) && decide (fldAt f (f.length - 4) 4 = (crc32c (f.take (f.length - 4))).toNat)

/-- A response: OP 4, the status, the request's ADDR and TAG, and data. -/
def respFrame (f : List Byte) (place status : Nat) (data : List Byte) : List Byte :=
  withCrc (toBytes 1 4 ++ toBytes 1 (1 + 16 * status) ++ toBytes 2 0 ++ toBytes 4 place ++ toBytes 4 (mgAddr f) ++ toBytes 2 data.length ++
    toBytes 2 (mgTag f) ++ data)

/-- A register read over the management path: STATUS and data (R578). The ID, FLT, STG and PWR blocks answer at all times. -/
def State.mgRead (s : State) (a n : Nat) : Nat × List Byte :=
  if s.regPowered a then (0, s.mapRead a n) else (2, [])

/-- A strongroom read over the management path: bytes of Table 21.5, of which the secret parts read 0. -/
def State.mgStrong (s : State) (a n : Nat) : Nat × List Byte :=
  if a + n ≤ 0x800000 then (0, s.strongRead a n) else (1, [])

/-- The answer to a request received over Grenlink, by unit (Table 13.17). -/
def State.mgAnswer (s : State) (unit : Nat) (f : List Byte) : Nat × List Byte :=
  let a := mgAddr f
  let n := mgLen f
  if mgOp f = 1 ∧ unit = 0 then s.mgRead a n
  else if mgOp f = 1 ∧ 1 ≤ unit ∧ unit ≤ 16 then
    if a + n ≤ 0x30 then s.mgRead (0x290000 + 0x400 * (unit - 1) + a) n else (1, [])
  else if mgOp f = 3 ∧ (unit = 0 ∨ unit = 64) then
    if a % 64 = 0 ∧ n % 64 = 0 ∧ n ≤ 448 then s.mgStrong a n else (1, [])
  else (1, [])

/-- MGMT (R368): a management frame in a packet. A frame whose LENGTH, PLACE or CRC does not match is dropped and counted; a response
matches no request that this device has sent. -/
def execMgmt (p : PortId) (k : Packet) (s : State) : Res :=
  s.receive p k [31] fun s =>
    let f := k.payload
    let n := mgLen f
    let carries := decide (mgOp f = 2) || (decide (mgOp f = 4) && decide (k.len ≠ 20))
    if !k.crcOk || !frameCrcOk f || decide (k.len ≠ (if carries then 20 + n else 20)) || decide (480 < n) || decide (n % 4 ≠ 0) ||
        decide (mgPlace f ≠ devPlace k.dest) then .next (s.bump fabBadHdr)
    else if mgOp f = 4 then .next s
    else
      let r := s.mgAnswer (k.dest % 4096) f
      let bs := respFrame f (devPlace k.src) r.1 r.2
      let out : Packet := { s.response k 0 bs with type := 31, vc := 6, status := 0 }
      .next (s.sendPacket out).2

/-! The ring (R577 to R579). -/

/-- Is the device on the ring: not bypassed, and its receiver in lock? -/
def State.onRing (s : State) : Bool := s.pins.bypLow && s.pins.mgtLock

/-- Does the device take a frame: a request that is for its position or for its place (Table 21.8)? -/
def State.takesFrame (s : State) (f : List Byte) : Bool :=
  decide (mgOp f ≠ 4) && (if mgMode f % 2 = 0 then decide (mgPos f = 0) else decide (mgPlace f = s.place))

/-- A frame of the given OP that the device takes; `g` gives its status and data. -/
def State.ringRequest (s : State) (f : List Byte) (op : Nat) (g : State → Nat × List Byte × State) : Res :=
  if s.onRing && frameCrcOk f && decide (mgOp f = op) && s.takesFrame f then
    let r := g s
    .next (r.2.2.reply 0 (respFrame f s.place r.1 r.2.1))
  else .next s

/-- MGMT_REGISTER_READ (R7, R578). -/
def execMgmtRegisterRead (f : List Byte) (s : State) : Res :=
  s.ringRequest f 1 fun s => let r := s.mgRead (mgAddr f) (mgLen f); (r.1, r.2, s)

/-- The units that a forced mark may name, as slice kind and index. -/
def forcedUnits : List (Nat × Nat) := (List.range 5).flatMap fun k => (List.range (sliceUnits k)).map fun i => (k, i)

/-- A write of the forced half of FLT.OFFLINE: stored in the strongroom, and a mark that it sets takes effect (R577). -/
def State.forcedWrite (s : State) (a : Nat) (bs : List Byte) : State :=
  let before := s
  let s := (List.range (bs.length / 4)).foldl (fun s i => s.plainWrite (a + 4 * i) (BitVec.ofNat 32 (fldAt bs (4 * i) 4))) s
  let s := s.commit (0x440100 + (a - 0x103100)) (s.wordBytes a (bs.length / 4))
  forcedUnits.foldl (fun s u =>
    let f := forcedFld (sliceUnitKind u.1) u.2
    if s.on f && !before.on f then s.forceUnit u.1 u.2 else s) s

/-- MGMT_REGISTER_WRITE (R577, R578): writes to the forced half of FLT.OFFLINE are taken, every other is answered STATUS 1. -/
def execMgmtRegisterWrite (f : List Byte) (s : State) : Res :=
  s.ringRequest f 2 fun s =>
    let a := mgAddr f
    let bs := (f.drop 16).take (mgLen f)
    if a % 4 = 0 ∧ mgLen f % 4 = 0 ∧ bs.length = mgLen f ∧ 0x103100 ≤ a ∧ a + mgLen f ≤ 0x1031E0 then (0, [], s.forcedWrite a bs)
    else (1, [], s)

/-- MGMT_STRONGROOM_READ (R578). -/
def execMgmtStrongroomRead (f : List Byte) (s : State) : Res :=
  s.ringRequest f 3 fun s => let r := s.mgStrong (mgAddr f) (mgLen f); (r.1, r.2, s)

/-- MGMT_FRAME_FORWARD (R578): a frame that is not taken goes on with POS one lower; a frame whose CRC fails is dropped. -/
def execMgmtFrameForward (f : List Byte) (s : State) : Res :=
  if !s.onRing || s.takesFrame f && frameCrcOk f then .next s
  else if !frameCrcOk f then .next (s.reply 4 [])
  else
    let body := (f.take (f.length - 4))
    .next (s.reply 0 (withCrc (body.take 2 ++ toBytes 2 (mgPos f + 65535) ++ body.drop 4)))

/-- MGT_BYPASS_ENGAGE (R579): MGT_BYP_N follows its conditions; `healthy` says that the ring interface has passed its self-check and its
watchdog. -/
def execMgtBypassEngage (healthy : Bool) (s : State) : Res :=
  .next { s with pins := { s.pins with bypLow := s.on (railUp 0) && s.on (railUp 1) && s.pins.resetReleased && healthy } }

/-- MGT_LINK_RELOCK (R579): the receiver on MGT_IN loses or regains lock. -/
def execMgtLinkRelock (lock : Bool) (s : State) : Res := .next { s with pins := { s.pins with mgtLock := lock } }

/-! The test access port (R606). -/

/-- IDCODE of the stepping that ID.PART shows (Table 0.3, R606). -/
def State.idcode (s : State) : Nat := (if s.reg 0 = 0x5A480020#32 then 0 else if s.reg 0 = 0x5A480120#32 then 1 else 2) * 2 ^ 28 + 0x5A4874B

/-- The TAP's supplies are there. -/
def State.tapOn (s : State) : Bool := s.on (railUp 0) && s.on (railUp 1)

/-- Sets the TAP's instruction and what the boundary cells drive. -/
def State.setTap (s : State) (tap cells : Nat) : State := { s with pins := { s.pins with tap := tap, cells := cells } }

/-- An instruction that the TAP accepts only while PKG_RESET_N is asserted, and otherwise treats as BYPASS. -/
def State.resetTap (s : State) (tap cells : Nat) : State :=
  if !s.tapOn then s else if s.pins.resetReleased then s.setTap 1 0 else s.setTap tap cells

/-- JTAG_IDCODE (R606). -/
def execJtagIdcode (s : State) : Res := if s.tapOn then .next ((s.setTap 0 0).reply 0 (toBytes 4 s.idcode)) else .next s

/-- JTAG_BYPASS (R606). -/
def execJtagBypass (s : State) : Res := if s.tapOn then .next (s.setTap 1 0) else .next s

/-- JTAG_EXTEST (R606). -/
def execJtagExtest (cells : Nat) (s : State) : Res := .next (s.resetTap 2 cells)

/-- JTAG_INTEST (R606). -/
def execJtagIntest (cells : Nat) (s : State) : Res := .next (s.resetTap 3 cells)

/-- JTAG_EXTEST_PULSE (R606). -/
def execJtagExtestPulse (cells : Nat) (s : State) : Res := .next (s.resetTap 4 cells)

/-- JTAG_EXTEST_TRAIN (R606). -/
def execJtagExtestTrain (cells : Nat) (s : State) : Res := .next (s.resetTap 5 cells)

end Sys2Proof.Machine
end

