-- ==== Sys2Proof/Machine/Hart.lean ====
section
/-! DEFINITION. The host cores' commands (chapter 15, R292): a core executes the instruction at its pc, takes an interrupt, or is reached by
the debug module. -/
namespace Sys2Proof.Machine

/-! Running. -/

/-- May core `c` execute an instruction: its half on and clocked, not offline, not blocked at a crossing (R454), no slice on its cluster, not in
WFI, not halted by the debug module? -/
def State.hartRuns (s : State) (c : Nat) : Bool :=
  s.domOn (20 + c / 48) && decide (s.rd (coreState c) ≠ 2) && !decide (10 * 2 ^ 24 + c ∈ s.blocked) && !s.sliceOn 4 (c / 8) &&
    !(s.hcore c).wfi && !(s.dmActive && (s.hcore c).halted)

/-- Takes an exception on a core. -/
def State.hartTrap (s : State) (c cause tval : Nat) : State := s.setHcore c ((s.hcore c).trap false cause tval)

/-- The core halts for the debug module, and with it every core of its halt group (R433). dcsr keeps the mode and the cause. -/
def State.haltCore (s : State) (c cause : Nat) : State :=
  let g := (s.hcore c).group
  let stop := fun (s : State) (d k : Nat) =>
    let x := s.hcore d
    s.setHcore d { x.setCsr 0x7B0 (setBits (setBits (x.csrOf 0x7B0) 0 2 x.mode) 6 3 k) with halted := true, wfi := false }
  let s := stop s c cause
  if g = 0 then s
  else ((List.range 96).filter fun d => decide (d ≠ c) && decide ((s.hcore d).group = g) && !(s.hcore d).halted).foldl (fun s d => stop s d 6) s

/-- Does a trigger of a core match: 0 at execution, 1 at a load, 2 at a store of n bytes? -/
def State.trigHit (s : State) (c kind a n : Nat) : Bool :=
  s.dmActive && (s.hcore c).trigs.any fun t =>
    (if kind = 0 then t.2.exec else if kind = 1 then t.2.load else t.2.store) && decide (a ≤ t.2.addr) && decide (t.2.addr < a + n)

/-- A fetched instruction, or the exception that ended its fetch with its address, or a wait. -/
inductive HFetch where
  | ok (i : Rv) (len w : Nat)
  | exc (cause tval : Nat)
  | wait
  deriving DecidableEq, Repr

/-- Fetches a half word of code. -/
def State.hartHalf (s : State) (c a : Nat) : HAcc × State := s.hartRead c (s.hcore c).mode 0 a 2

/-- Fetches the instruction at the pc. -/
def State.hartFetch (s : State) (c : Nat) : HFetch × State :=
  let pc := (s.hcore c).pc
  match s.hartHalf c pc with
  | (.wait, s1) => (.wait, s1)
  | (.exc k, s1) => (.exc k pc, s1)
  | (.ok lo, s1) =>
    if ofBytes lo % 4 ≠ 3 then (.ok (rvDecodeC true (ofBytes lo)) 2 (ofBytes lo), s1)
    else
      match s1.hartHalf c ((pc + 2) % 2 ^ 64) with
      | (.wait, s2) => (.wait, s2)
      | (.exc k, s2) => (.exc k ((pc + 2) % 2 ^ 64), s2)
      | (.ok hi, s2) =>
        let w := ofBytes lo + 65536 * ofBytes hi
        (.ok (rvDecode true w) 4 w, s2)

/-- The outcome of an instruction: retired, or still to be executed again once what it waits for has come. -/
abbrev HDone := Bool × State

/-- Moves the pc past an instruction with x[rd] set. -/
def State.hartRetire (s : State) (c rd : Nat) (v : BitVec 64) (pc : Nat) : State :=
  s.setHcore c { (s.hcore c).setX rd v with pc := pc % 2 ^ 64 }

/-- Ends an instruction with its access. -/
def State.hartEnd (c tval : Nat) (r : HAcc × State) (k : List Byte → State → State) : HDone :=
  match r.1 with
  | .ok bs => (true, k bs r.2)
  | .exc cause => (true, r.2.hartTrap c cause tval)
  | .wait => (false, r.2)

/-- Executes the instruction at a core's pc when it is one of the command's: a trigger may halt the core first, a fetch that fails traps, and a
single step halts the core after it. -/
def State.hartStep (s : State) (c : Nat) (mine : Rv → Bool) (go : Rv → Nat → Nat → State → HDone) : Res :=
  if !s.hartRuns c then .next s
  else if s.trigHit c 0 (s.hcore c).pc 1 then .next (s.haltCore c 2)
  else
    match s.hartFetch c with
    | (.wait, s1) => .next s1
    | (.exc k v, s1) => .next (s1.hartTrap c k v)
    | (.ok i len w, s1) =>
      if mine i then
        let r := go i len w s1
        let step := r.1 && r.2.dmActive && bitAt ((r.2.hcore c).csrOf 0x7B0) 2
        .next (if step then r.2.haltCore c 4 else r.2)
      else .next s

/-- An address from x[rs1] and an immediate. -/
def HCore.addr (c : HCore) (rs1 : Nat) (imm : Int) : Nat := (c.xr rs1 + BitVec.ofInt 64 imm).toNat

/-! Loads and stores (R425, R428 to R430, R590, R595). -/

/-- A vector load or store as one instruction. -/
def State.hartVmem (s : State) (c len w : Nat) (write : Bool) : HDone :=
  let x := s.hcore c
  if x.mst 9 2 = 0 then (true, s.hartTrap c 2 w)
  else
    match x.vmem w with
    | none => (true, s.hartTrap c 2 w)
    | some (data, idx, n, nf, regs) =>
      let todo := ((List.range n).drop (x.csrOf 8)).flatMap fun i => (List.range nf).map fun f => (i, f)
      let ff := decide (bitsAt w 26 2 = 0) && decide (rvRs2 w = 16)
      let ended := fun (s : State) => s.setHcore c { (s.hcore c).vDone with pc := (x.pc + len) % 2 ^ 64 }
      match s.vmemRun c x.dataMode w write data idx nf regs todo with
      | (none, s1) => (true, ended s1)
      | (some (.exc k, a), s1) =>
        let i := (s1.hcore c).csrOf 8
        -- fault-only-first: a later element's exception shortens vl
        if ff && decide (i ≠ 0) then (true, ended (s1.setHcore c ((s1.hcore c).setCsr 0xC20 i))) else (true, s1.hartTrap c k a)
      | (some _, s1) => (false, s1)

/-- Is a vector instruction a load, or a store? -/
def isVecMem (write : Bool) (w : Nat) : Bool := decide (w % 128 = (if write then 0x27 else 0x07))

/-- HOST_CORE_LOAD (R280, R425, R428 to R430, R595): a core executes the load at its pc. -/
def execHostCoreLoad (c : CoreId) (s : State) : Res :=
  s.hartStep c (fun i => match i with | .load .. => true | .fload .. => true | .vec w => isVecMem false w | _ => false) fun i len w s =>
    let x := s.hcore c
    match i with
    | .load sz sgn rd rs1 imm =>
      let a := x.addr rs1 imm
      if s.trigHit c 1 a (2 ^ sz) then (false, s.haltCore c 2)
      else State.hartEnd c a (s.hartRead c x.dataMode 1 a (2 ^ sz)) fun bs s => s.hartRetire c rd (loadVal 64 sz sgn bs) (x.pc + len)
    | .fload sz rd rs1 imm =>
      let a := x.addr rs1 imm
      if x.mst 13 2 = 0 then (true, s.hartTrap c 2 w)
      else if s.trigHit c 1 a (2 ^ sz) then (false, s.haltCore c 2)
      else
        State.hartEnd c a (s.hartRead c x.dataMode 1 a (2 ^ sz)) fun bs s =>
          let v := ofBytes bs + (if sz = 3 then 0 else (2 ^ (64 - 8 * 2 ^ sz) - 1) * 2 ^ (8 * 2 ^ sz))
          (s.setHcore c ((s.hcore c).setF rd v)).hartRetire c 0 0#64 (x.pc + len)
    | _ => s.hartVmem c len w false

/-- HOST_CORE_STORE (R425, R428 to R430, R253, R590, R595): a core executes the store at its pc. -/
def execHostCoreStore (c : CoreId) (s : State) : Res :=
  s.hartStep c (fun i => match i with | .store .. => true | .fstore .. => true | .vec w => isVecMem true w | _ => false) fun i len w s =>
    let x := s.hcore c
    let put := fun (sz rs1 : Nat) (imm : Int) (v : Nat) =>
      let a := x.addr rs1 imm
      if s.trigHit c 2 a (2 ^ sz) then (false, s.haltCore c 2)
      else State.hartEnd c a (s.hartWrite c x.dataMode a (toBytes (2 ^ sz) v)) fun _ s => s.hartRetire c 0 0#64 (x.pc + len)
    match i with
    | .store sz rs1 rs2 imm => put sz rs1 imm (x.xr rs2).toNat
    | .fstore sz rs1 rs2 imm => if x.mst 13 2 = 0 then (true, s.hartTrap c 2 w) else put sz rs1 imm (x.fr rs2)
    | _ => s.hartVmem c len w true

/-! Atomics (R292, R426, R427). -/

/-- The physical address of an AMO, LR or SC: naturally aligned, in the cellar, and allowed; else its exception. -/
def State.atomicPa (s : State) (c kind misaligned a n : Nat) : (Except HAcc (Nat × Bool)) × State :=
  let x := s.hcore c
  if a % n ≠ 0 then (.error (.exc misaligned), s)
  else
    match s.hartXlate c x.dataMode kind a with
    | (.exc k, s1) => (.error (.exc k), s1)
    | (.wait, s1) => (.error .wait, s1)
    | (.ok pa nc, s1) =>
      if isCellar pa && x.pmpOk x.dataMode kind pa n then (.ok (pa, nc), s1) else (.error (.exc (accessFaultOf kind)), s1)

/-- The operation code of an AMO's funct5 as the home takes it. -/
def amoCode (f5 : Nat) : Nat :=
  match f5 with
  | 1 => 0 | 5 => 1 | 0 => 2 | 4 => 3 | 12 => 4 | 8 => 5 | 16 => 6 | 20 => 7 | 24 => 8 | _ => 9

/-- A register pair as one 128-bit operand; a pair at x0 reads 0. -/
def HCore.pair (c : HCore) (r : Nat) : Nat := if r = 0 then 0 else (c.xr r).toNat + 2 ^ 64 * (c.xr (r + 1)).toNat

/-- AMO (R292, R425, R428): a core executes the AMO at its pc: the home performs it and the old value comes back. -/
def execAmo (c : CoreId) (s : State) : Res :=
  s.hartStep c (fun i => match i with | .amo .. => true | _ => false) fun i len _ s =>
    match i with
    | .amo op sz rd rs1 rs2 =>
      let x := s.hcore c
      let n := 2 ^ sz
      let a := (x.xr rs1).toNat
      match s.atomicPa c 2 6 a n with
      | (.error .wait, s1) => (false, s1)
      | (.error (.exc k), s1) => (true, s1.hartTrap c k a)
      | (.error (.ok _), s1) => (false, s1)
      | (.ok (pa, _), s1) =>
        match s1.creqs.find? fun r => decide (r.core = c.val) && decide (r.line = pa / 128) && decide (r.kind = 3) && decide (r.stage = 3) with
        | some r =>
          let s2 := { s1 with creqs := s1.creqs.filter fun q => decide (q ≠ r) }
          let st := r.op.getD 0 0
          let old := r.op.getD 1 0
          if st ≠ 0 then (true, s2.hartTrap c (if st = 1 then 19 else 7) a)
          else if sz = 4 then
            let s3 := if rd = 0 then s2 else s2.setHcore c ((s2.hcore c).setX (rd + 1) (BitVec.ofNat 64 (old / 2 ^ 64)))
            (true, s3.hartRetire c rd (BitVec.ofNat 64 old) (x.pc + len))
          else (true, s2.hartRetire c rd (BitVec.ofInt 64 (sext (8 * n) old)) (x.pc + len))
        | none =>
          let v := if sz = 4 then x.pair rs2 else (x.xr rs2).toNat
          let cmp := if sz = 4 then x.pair rd else (x.xr rd).toNat
          (false, s1.sendReq c (pa / 128) 3 [pa, n, amoCode op, v, cmp])
    | _ => (false, s)

/-- LR (R426, R427): the core obtains the line in E or M, places its reservation and holds snoops to the line. -/
def execLr (c : CoreId) (s : State) : Res :=
  s.hartStep c (fun i => match i with | .lr .. => true | _ => false) fun i len _ s =>
    match i with
    | .lr sz rd rs1 =>
      let x := s.hcore c
      let a := (x.xr rs1).toNat
      match s.atomicPa c 1 4 a (2 ^ sz) with
      | (.error .wait, s1) => (false, s1)
      | (.error (.exc k), s1) => (true, s1.hartTrap c k a)
      | (.error (.ok _), s1) => (false, s1)
      | (.ok (pa, nc), s1) =>
        if nc then (true, s1.hartTrap c 5 a)
        else
          match s1.coreLine c (pa / 128) 1 true with
          | (.error (.exc k), s2) => (true, s2.hartTrap c k a)
          | (.error _, s2) => (false, s2)
          | (.ok _, s2) =>
            State.hartEnd c a (s2.coreLineRead c pa (2 ^ sz) 1) fun bs s3 =>
              let y := s3.hcore c
              (s3.setHcore c { y with resv := some (pa / 64), hold := true }).hartRetire c rd (loadVal 64 sz true bs) (x.pc + len)
    | _ => (false, s)

/-- SC (R426): it succeeds while the reservation is held and the line is still in E or M, and ends the reservation and the hold. -/
def execSc (c : CoreId) (s : State) : Res :=
  s.hartStep c (fun i => match i with | .sc .. => true | _ => false) fun i len _ s =>
    match i with
    | .sc sz rd rs1 rs2 =>
      let x := s.hcore c
      let a := (x.xr rs1).toNat
      match s.atomicPa c 2 6 a (2 ^ sz) with
      | (.error .wait, s1) => (false, s1)
      | (.error (.exc k), s1) => (true, s1.hartTrap c k a)
      | (.error (.ok _), s1) => (false, s1)
      | (.ok (pa, _), s1) =>
        let st := (s1.cacheLine c (pa / 128)).st
        let ok := decide ((s1.hcore c).resv = some (pa / 64)) && (decide (st = .e) || decide (st = .m))
        let s2 := if ok then (s1.coreLineWrite c pa (toBytes (2 ^ sz) (x.xr rs2).toNat)).2 else s1
        let y := s2.hcore c
        (true, (s2.setHcore c { y with resv := none, hold := false }).hartRetire c rd (if ok then 0#64 else 1#64) (x.pc + len))
    | _ => (false, s)

/-! Cache-block operations (R424). -/

/-- Is a cache-block operation enabled for the core's mode by the bit of menvcfg and senvcfg? -/
def HCore.cboOn (c : HCore) (bit : Nat) : Bool :=
  decide (c.mode = 3) || (bitAt (c.csrOf 0x30A) bit && (decide (c.mode = 1) || bitAt (c.csrOf 0x10A) bit))

/-- The line of a cache-block operation: translated for a load (a store for cbo.zero), in the cellar; its exceptions are a store's. -/
def State.cboLine (s : State) (c kind a : Nat) : (Except HAcc (Nat × Bool)) × State :=
  match s.atomicPa c kind 6 (a / 64 * 64) 64 with
  | (.error (.exc k), s1) => (.error (.exc (if k = 13 then 15 else if k = 5 then 7 else k)), s1)
  | r => r

/-- cbo.zero writes zeros to its 64-byte block only. -/
def State.cboZero (s : State) (c rs1 len : Nat) (w : Nat) : HDone :=
  let x := s.hcore c
  let a := (x.xr rs1).toNat
  if !x.cboOn 7 then (true, s.hartTrap c 2 w)
  else
    match s.cboLine c 2 a with
    | (.error (.exc k), s1) => (true, s1.hartTrap c k a)
    | (.error _, s1) => (false, s1)
    | (.ok (pa, nc), s1) =>
      State.hartEnd c a (s1.physWrite c x.dataMode pa (List.replicate 64 0#8) nc) fun _ s2 => s2.hartRetire c 0 0#64 (x.pc + len)

/-- cbo.clean (`flush` unset) and cbo.flush act on the whole line: the core's own copy is evicted with its data where it must be, and the home
then clears the copies that other caches hold, of a dirty line only for cbo.clean (log entry 12). -/
def State.cboLineOp (s : State) (c rs1 len w : Nat) (flush always : Bool) : HDone :=
  let x := s.hcore c
  let a := (x.xr rs1).toNat
  if !always && !x.cboOn 6 then (true, s.hartTrap c 2 w)
  else
    match s.cboLine c 1 a with
    | (.error (.exc k), s1) => (true, s1.hartTrap c k a)
    | (.error _, s1) => (false, s1)
    | (.ok (pa, _), s1) =>
      let line := pa / 128
      let own := s1.cacheLine c line
      if decide (own.st = .m) || (flush && decide (own.st ≠ .i)) then (false, s1.evictLine c line)
      else if s1.lineBusy line || s1.clearWaits line || (s1.locate (128 * line)).any fun l => s1.lineHeld l [0, 1] then (false, s1)
      else
        let due := if flush then (s1.dir line).isSome else (s1.dirtyCopy line).isSome
        let s2 := match due, s1.locate (128 * line) with
          | true, some l => s1.clearCopies l line false
          | _, _ => s1
        (true, s2.hartRetire c 0 0#64 (x.pc + len))

/-- CBO_ZERO (R424). -/
def execCboZero (c : CoreId) (s : State) : Res :=
  s.hartStep c (fun i => match i with | .cbo 4 _ => true | _ => false) fun i len w s =>
    match i with
    | .cbo _ rs1 => s.cboZero c rs1 len w
    | _ => (false, s)

/-- CBO_CLEAN (R424). -/
def execCboClean (c : CoreId) (s : State) : Res :=
  s.hartStep c (fun i => match i with | .cbo 1 _ => true | _ => false) fun i len w s =>
    match i with
    | .cbo _ rs1 => s.cboLineOp c rs1 len w false false
    | _ => (false, s)

/-- CBO_FLUSH (R424). -/
def execCboFlush (c : CoreId) (s : State) : Res :=
  s.hartStep c (fun i => match i with | .cbo 2 _ => true | _ => false) fun i len w s =>
    match i with
    | .cbo _ rs1 => s.cboLineOp c rs1 len w true false
    | _ => (false, s)

/-- CBO_INVAL (R424): executes as cbo.flush, whatever menvcfg.CBIE says. -/
def execCboInval (c : CoreId) (s : State) : Res :=
  s.hartStep c (fun i => match i with | .cbo 0 _ => true | _ => false) fun i len w s =>
    match i with
    | .cbo _ rs1 => s.cboLineOp c rs1 len w true true
    | _ => (false, s)

/-! Every other instruction (R422, R423, R431). -/

/-- A CSR instruction: none where it is illegal. -/
def State.hartCsr (s : State) (c kind : Nat) (imm : Bool) (rd rs1 num len : Nat) : Option State :=
  let x := s.hcore c
  let src := if imm then rs1 else (x.xr rs1).toNat
  let writes := decide (kind = 1) || decide (rs1 ≠ 0)
  if !x.csrAllowed num || (writes && decide (0xC00 ≤ num)) then none
  else
    (s.hartCsrRead c num).map fun r =>
      -- mip and sip are changed from the bits that are held
      let base := if num = 0x344 ∨ num = 0x144 then x.csrOf 0x344 else r.1
      let new := if kind = 1 then src else if kind = 2 then Nat.lor base src else base - Nat.land base src
      let s1 := if writes then r.2.setHcore c ((r.2.hcore c).csrWrite num new) else r.2
      s1.hartRetire c rd (BitVec.ofNat 64 r.1) (x.pc + len)

/-- A scalar floating-point instruction: none where it is illegal. -/
def State.hartFp (s : State) (c w len : Nat) : Option State :=
  let x := s.hcore c
  if x.mst 13 2 = 0 then none
  else
    let acc := fun (x : HCore) fl => if fl = 0 then x else (x.setCsr 3 (Nat.lor (x.csrOf 3) fl)).setCsr 0x300 (setBits (x.csrOf 0x300) 13 2 3)
    (fpExec w (x.xr (rvRs1 w)).toNat (x.fr (rvRs1 w)) (x.fr (rvRs2 w)) (x.fr (bitsAt w 27 5)) (bitsAt (x.csrOf 3) 5 3)).map fun o =>
      match o with
      | .toF v fl => (s.setHcore c (acc (x.setF (rvRd w) v) fl)).hartRetire c 0 0#64 (x.pc + len)
      | .toX v fl => (s.setHcore c (acc x fl)).hartRetire c (rvRd w) (BitVec.ofNat 64 v) (x.pc + len)

/-- Is an instruction one of HOST_CORE_INSTRUCTION: none of the memory commands has it? -/
def isHartOther (i : Rv) : Bool :=
  match i with
  | .load .. => false | .store .. => false | .fload .. => false | .fstore .. => false
  | .lr .. => false | .sc .. => false | .amo .. => false | .cbo .. => false
  | .vec w => !isVecMem false w && !isVecMem true w
  | _ => true

/-- Executes an instruction that no memory command has. -/
def State.hartOther (s : State) (c : Nat) (i : Rv) (len w : Nat) : State :=
  let x := s.hcore c
  let nx := x.pc + len
  let done := fun (rd : Nat) (v : BitVec 64) => s.hartRetire c rd v nx
  let go := fun (d : Int) => ((x.pc : Int) + d) % (2 ^ 64 : Nat)
  let orIllegal := fun (o : Option State) => o.getD (s.hartTrap c 2 w)
  match i with
  | .lui rd imm => done rd (BitVec.ofInt 64 imm)
  | .auipc rd imm => done rd (BitVec.ofInt 64 (go imm))
  | .jal rd imm => s.hartRetire c rd (BitVec.ofNat 64 nx) (go imm).toNat
  | .jalr rd rs1 imm => s.hartRetire c rd (BitVec.ofNat 64 nx) (x.addr rs1 imm / 2 * 2)
  | .branch f3 rs1 rs2 imm => s.hartRetire c 0 0#64 (if branchTaken f3 (x.xr rs1) (x.xr rs2) then (go imm).toNat else nx)
  | .alu k op rd rs1 rs2 => done rd (aluFn64 k op (x.xr rs1) (x.xr rs2))
  | .alui k op rd rs1 imm => done rd (aluFn64 k op (x.xr rs1) (BitVec.ofInt 64 imm))
  | .csr kind imm rd rs1 num => orIllegal (s.hartCsr c kind imm rd rs1 num len)
  | .ecall => s.hartTrap c (8 + x.mode) 0
  | .ebreak =>
    -- dcsr.ebreakm, ebreaks or ebreaku enter debug mode
    if s.dmActive && bitAt (x.csrOf 0x7B0) (12 + x.mode) then s.haltCore c 1 else s.hartTrap c 3 x.pc
  | .mret => if x.mode = 3 then s.setHcore c x.mret else s.hartTrap c 2 w
  | .sret => if x.mode = 0 ∨ (x.mode = 1 ∧ x.mst 22 1 = 1) then s.hartTrap c 2 w else s.setHcore c x.sret
  | .wfi =>
    if x.mode ≠ 3 ∧ (x.mode = 0 ∨ x.mst 21 1 = 1) then s.hartTrap c 2 w
    else
      let s1 := done 0 0#64
      if s1.irqWakes x then s1 else (s1.setHcore c { s1.hcore c with wfi := true }).wr (coreState c) 1
  | .sfence => if x.mode = 0 ∨ (x.mode = 1 ∧ x.mst 20 1 = 1) then s.hartTrap c 2 w else done 0 0#64
  | .fence => done 0 0#64
  | .fenceI => done 0 0#64
  | .wrs => done 0 0#64
  | .mop rd => done rd 0#64
  | .fp f => orIllegal (s.hartFp c f len)
  | .vec v => orIllegal ((s.vecExec c v).map fun s1 => s1.hartRetire c 0 0#64 nx)
  | _ => s.hartTrap c 2 w

/-- HOST_CORE_INSTRUCTION (R422, R423, R431): a core executes the instruction at its pc, when it is no memory access, AMO, LR, SC or CBO. -/
def execHostCoreInstruction (c : CoreId) (s : State) : Res :=
  s.hartStep c isHartOther fun i len w s => (true, s.hartOther c i len w)

/-! Interrupts (R432). -/

/-- Delivers an APLIC source's message to an identity of a core's interrupt file. -/
def State.deliverMsi (s : State) (c : Nat) (m : ApMsi) : State :=
  if m.source ∈ s.aplic then
    let s : State := { s with aplic := s.aplic.filter fun n => decide (n ≠ m.source) }
    s.setHcore c ((s.hcore c).setEi m.machine 0x80 m.id.val 1)
  else s

/-- HOST_CORE_INTERRUPT (R432): the APLIC delivers a source to a core's interrupt file, if one is named; the core leaves WFI when an enabled
interrupt is pending, and takes the one that its mode and enables allow. An AMO under way at its home is finished first. -/
def execHostCoreInterrupt (c : CoreId) (m : Option ApMsi) (s : State) : Res :=
  let off := !s.domOn (20 + c.val / 48) || decide (s.rd (coreState c) = 2)
  if off then .next s
  else
    let s := match m with
      | some x => s.deliverMsi c x
      | none => s
    let x := s.hcore c
    let s := if x.wfi && s.irqWakes x then (s.setHcore c { x with wfi := false }).wr (coreState c) 0 else s
    if !s.hartRuns c || (s.creqs.any fun r => decide (r.core = c.val) && decide (r.kind = 3)) then .next s
    else
      match s.irqNow (s.hcore c) with
      | some i => .next (s.setHcore c ((s.hcore c).trap true i 0))
      | none => .next s

/-! Debug (R433). -/

/-- Is debug available: the packing list enables it, STRAP[2] puts the debug TAP into the chain, and no job is admitted? -/
def State.debugOk (s : State) : Bool := s.list.debug && bitAt s.pins.strap 2 && s.tapOn && decide (s.rd jobState = 0)

/-- A register by its abstract number: 0x1000 + x, 0x1020 + f, a CSR below 0x1000; 0x7B1 is the pc. -/
def State.debugRead (s : State) (c n : Nat) : Option (Nat × State) :=
  let x := s.hcore c
  if n = 0x7B1 then some (x.pc, s)
  else if n = 0x7B0 then some (x.csrOf 0x7B0, s)
  else if n < 0x1000 then s.hartCsrRead c n
  else if n < 0x1020 then some ((x.xr (n - 0x1000)).toNat, s)
  else if n < 0x1040 then some (x.fr (n - 0x1020), s)
  else none

/-- Writes a register by its abstract number. dcsr keeps its ebreak, step and mode fields. -/
def HCore.debugWrite (c : HCore) (n v : Nat) : HCore :=
  if n = 0x7B1 then { c with pc := v / 2 * 2 }
  else if n = 0x7B0 then
    let d := c.setCsr 0x7B0 (maskedWrite (c.csrOf 0x7B0) 0xB007 v)
    { d with mode := if v % 4 = 2 then c.mode else v % 4 }
  else if n < 0x1000 then c.csrWrite n v
  else if n < 0x1020 then c.setX (n - 0x1000) (BitVec.ofNat 64 v)
  else if n < 0x1040 then c.setF (n - 0x1020) v
  else c

/-- Serves a debug request on an active debug module. -/
def State.debugServe (s : State) (q : DebugReq) : State :=
  let amo := fun (c : Nat) => s.creqs.any fun r => decide (r.core = c) && decide (r.kind = 3)
  match q with
  | .active on => { s with dmActive := on }
  | .halt c => if s.domOn (20 + c.val / 48) && !amo c then (s.haltCore c 3).reply 0 [] else s.reply 7 []
  | .resume c =>
    let x := s.hcore c
    if x.halted then ((s.setHcore c { x with halted := false }).wr (coreState c) 0).reply 0 [] else s.reply 7 []
  | .readReg c n =>
    if (s.hcore c).halted then
      match s.debugRead c n with
      | some (v, s1) => s1.reply 0 (toBytes 8 v)
      | none => s.reply 5 []
    else s.reply 7 []
  | .writeReg c n v =>
    if (s.hcore c).halted then (s.setHcore c ((s.hcore c).debugWrite n v.toNat)).reply 0 [] else s.reply 7 []
  | .sbRead a n =>
    let r := s.physRead 96 3 1 a n true
    match r.1 with
    | .ok bs => r.2.reply 0 bs
    | .exc _ => r.2.reply 5 []
    | .wait => s.reply 7 []
  | .sbWrite a bs =>
    let r := if regRange a then (HAcc.ok [], s.regWrite (.hostCore 0) (a - 0xF00000000000) bs.length (BitVec.ofNat 64 (ofBytes bs)))
      else s.physWrite 96 3 a bs true
    match r.1 with
    | .ok _ => r.2.reply 0 []
    | .exc _ => r.2.reply 5 []
    | .wait => s.reply 7 []
  | .trigger c i t =>
    let x := s.hcore c
    (s.setHcore c { x with trigs := putMap ⟨false, false, false, 0⟩ x.trigs i.val t }).reply 0 []
  | .group c g => (s.setHcore c { s.hcore c with group := g }).reply 0 []

/-- DEBUG_REQUEST (R433): a request through the JTAG debug transport is served while debug is available and the module active, and answered with
the busy error otherwise. -/
def execDebugRequest (q : DebugReq) (s : State) : Res :=
  if !s.debugOk then .next (State.reply { s with dmActive := false } 7 [])
  else
    match q with
    | .active on => .next (s.debugServe (.active on))
    | q => if s.dmActive then .next (s.debugServe q) else .next (s.reply 7 [])

end Sys2Proof.Machine
end

