-- ==== Sys2Proof/Machine/Dispatch.lean ====
section
/-! DEFINITION. One arm per command of the table, each a direct call of its meaning. -/

namespace Sys2Proof.Machine

def exec (instr : Instr) (s : State) : Host.Outcome State Fault Refusal :=
  match instr with
  | .controlCoreLoad t => Sys2Proof.Machine.execControlCoreLoad t s
  | .controlCoreStore t => Sys2Proof.Machine.execControlCoreStore t s
  | .wfi t => Sys2Proof.Machine.execWfi t s
  | .wfiWake t => Sys2Proof.Machine.execWfiWake t s
  | .tileRunRelease src t w => Sys2Proof.Machine.execTileRunRelease src t w s
  | .tileRunHold src t w => Sys2Proof.Machine.execTileRunHold src t w s
  | .tileCodeWrite src t w => Sys2Proof.Machine.execTileCodeWrite src t w s
  | .shelfApertureAccess u off write n => Sys2Proof.Machine.execShelfApertureAccess u off write n s
  | .queueTailWrite src t e w => Sys2Proof.Machine.execQueueTailWrite src t e w s
  | .queueResume src t e w => Sys2Proof.Machine.execQueueResume src t e w s
  | .queueFlush src t e w => Sys2Proof.Machine.execQueueFlush src t e w s
  | .descriptorComplete t e => Sys2Proof.Machine.execDescriptorComplete t e s
  | .moverStrided t => Sys2Proof.Machine.execMoverStrided t s
  | .moverGather t => Sys2Proof.Machine.execMoverGather t s
  | .moverScatter t => Sys2Proof.Machine.execMoverScatter t s
  | .moverChunkIssue t => Sys2Proof.Machine.execMoverChunkIssue t s
  | .chunkArrival t crcOk => Sys2Proof.Machine.execChunkArrival t crcOk s
  | .shelfZero t => Sys2Proof.Machine.execShelfZero t s
  | .shelfClean t => Sys2Proof.Machine.execShelfClean t s
  | .shelfInvalidate t => Sys2Proof.Machine.execShelfInvalidate t s
  | .shelfCleanInv t => Sys2Proof.Machine.execShelfCleanInv t s
  | .shelfWipe t => Sys2Proof.Machine.execShelfWipe t s
  | .matrix t mism => Sys2Proof.Machine.execMatrix t mism s
  | .rescueSecondPass t e => Sys2Proof.Machine.execRescueSecondPass t e s
  | .issueFrameBoundary c held => Sys2Proof.Machine.execIssueFrameBoundary c held s
  | .cvt t => Sys2Proof.Machine.execCvt t s
  | .cvtq t => Sys2Proof.Machine.execCvtq t s
  | .vadd t => Sys2Proof.Machine.execVadd t s
  | .vsub t => Sys2Proof.Machine.execVsub t s
  | .vmul t => Sys2Proof.Machine.execVmul t s
  | .vmax t => Sys2Proof.Machine.execVmax t s
  | .vmin t => Sys2Proof.Machine.execVmin t s
  | .fma t => Sys2Proof.Machine.execFma t s
  | .axpy t => Sys2Proof.Machine.execAxpy t s
  | .affine t => Sys2Proof.Machine.execAffine t s
  | .vabs t => Sys2Proof.Machine.execVabs t s
  | .vneg t => Sys2Proof.Machine.execVneg t s
  | .cmpgt t => Sys2Proof.Machine.execCmpgt t s
  | .cmpeq t => Sys2Proof.Machine.execCmpeq t s
  | .cmpgts t => Sys2Proof.Machine.execCmpgts t s
  | .vexp t => Sys2Proof.Machine.execVexp t s
  | .vlog t => Sys2Proof.Machine.execVlog t s
  | .recip t => Sys2Proof.Machine.execRecip t s
  | .rsqrt t => Sys2Proof.Machine.execRsqrt t s
  | .tanh t => Sys2Proof.Machine.execTanh t s
  | .rsum t => Sys2Proof.Machine.execRsum t s
  | .rsumsq t => Sys2Proof.Machine.execRsumsq t s
  | .rmax t => Sys2Proof.Machine.execRmax t s
  | .rmin t => Sys2Proof.Machine.execRmin t s
  | .ramax t => Sys2Proof.Machine.execRamax t s
  | .scan t => Sys2Proof.Machine.execScan t s
  | .xscan t => Sys2Proof.Machine.execXscan t s
  | .scanmax t => Sys2Proof.Machine.execScanmax t s
  | .topk t => Sys2Proof.Machine.execTopk t s
  | .measure t => Sys2Proof.Machine.execMeasure t s
  | .carryInArrival t => Sys2Proof.Machine.execCarryInArrival t s
  | .chainTimeout t => Sys2Proof.Machine.execChainTimeout t s
  | .carryRecordArrival n crcOk => Sys2Proof.Machine.execCarryRecordArrival n crcOk s
  | .scanMaskWrite src c v => Sys2Proof.Machine.execScanMaskWrite src c v s
  | .lfsrWrite src t w => Sys2Proof.Machine.execLfsrWrite src t w s
  | .shelfLockWrite src t w => Sys2Proof.Machine.execShelfLockWrite src t w s
  | .shelfLockComplete t => Sys2Proof.Machine.execShelfLockComplete t s
  | .shelfFillComplete t => Sys2Proof.Machine.execShelfFillComplete t s
  | .shelfWayDisable t w => Sys2Proof.Machine.execShelfWayDisable t w s
  | .shelfWayDisableComplete t w => Sys2Proof.Machine.execShelfWayDisableComplete t w s
  | .shelfEccWindowExpiry t w => Sys2Proof.Machine.execShelfEccWindowExpiry t w s
  | .shelfScrubRead t errs => Sys2Proof.Machine.execShelfScrubRead t errs s
  | .tilePark t => Sys2Proof.Machine.execTilePark t s
  | .tileUnpark t => Sys2Proof.Machine.execTileUnpark t s
  | .tileClockGate t => Sys2Proof.Machine.execTileClockGate t s
  | .crateClockOffRequest src c w => Sys2Proof.Machine.execCrateClockOffRequest src c w s
  | .crateClockStop c => Sys2Proof.Machine.execCrateClockStop c s
  | .crateClockWake c => Sys2Proof.Machine.execCrateClockWake c s
  | .crateClockLost c => Sys2Proof.Machine.execCrateClockLost c s
  | .frequencyStepComplete c => Sys2Proof.Machine.execFrequencyStepComplete c s
  | .tallyValueWrite src l w => Sys2Proof.Machine.execTallyValueWrite src l w s
  | .tallyAdd src l w => Sys2Proof.Machine.execTallyAdd src l w s
  | .tallyTake t n => Sys2Proof.Machine.execTallyTake t n s
  | .tallySend t w => Sys2Proof.Machine.execTallySend t w s
  | .tallyIncrementArrival ps => Sys2Proof.Machine.execTallyIncrementArrival ps s
  | .tallyFire l => Sys2Proof.Machine.execTallyFire l s
  | .tallyConfigWrite src f w => Sys2Proof.Machine.execTallyConfigWrite src f w s
  | .cellarRead a n e => Sys2Proof.Machine.execCellarRead a n e s
  | .cellarWrite n => Sys2Proof.Machine.execCellarWrite n s
  | .hamperTimeout h line => Sys2Proof.Machine.execHamperTimeout h line s
  | .hamperFlush src st w => Sys2Proof.Machine.execHamperFlush src st w s
  | .hamperFlushComplete h => Sys2Proof.Machine.execHamperFlushComplete h s
  | .opIntAdd32 a bs => Sys2Proof.Machine.execOpIntAdd32 a bs s
  | .opIntAdd64 a bs => Sys2Proof.Machine.execOpIntAdd64 a bs s
  | .opFloatAdd f a bs => Sys2Proof.Machine.execOpFloatAdd f a bs s
  | .opIntMin a bs => Sys2Proof.Machine.execOpIntMin a bs s
  | .opIntMax a bs => Sys2Proof.Machine.execOpIntMax a bs s
  | .opFloatMin a bs => Sys2Proof.Machine.execOpFloatMin a bs s
  | .opFloatMax a bs => Sys2Proof.Machine.execOpFloatMax a bs s
  | .opAnd a bs => Sys2Proof.Machine.execOpAnd a bs s
  | .opOr a bs => Sys2Proof.Machine.execOpOr a bs s
  | .opXor a bs => Sys2Proof.Machine.execOpXor a bs s
  | .opAliasReserved a bs => Sys2Proof.Machine.execOpAliasReserved a bs s
  | .swap t a r => Sys2Proof.Machine.execSwap t a r s
  | .cas t a r => Sys2Proof.Machine.execCas t a r s
  | .fetchAdd t a r => Sys2Proof.Machine.execFetchAdd t a r s
  | .fetchFadd t a r => Sys2Proof.Machine.execFetchFadd t a r s
  | .fetchMin t a r => Sys2Proof.Machine.execFetchMin t a r s
  | .fetchMax t a r => Sys2Proof.Machine.execFetchMax t a r s
  | .fetchAnd t a r => Sys2Proof.Machine.execFetchAnd t a r s
  | .fetchOr t a r => Sys2Proof.Machine.execFetchOr t a r s
  | .fetchXor t a r => Sys2Proof.Machine.execFetchXor t a r s
  | .cellarScrubRead c e => Sys2Proof.Machine.execCellarScrubRead c e s
  | .rowRepairComplete => Sys2Proof.Machine.execRowRepairComplete s
  | .retireAck src st i w => Sys2Proof.Machine.execRetireAck src st i w s
  | .tgStart src c w => Sys2Proof.Machine.execTgStart src c w s
  | .tgStop src c w => Sys2Proof.Machine.execTgStop src c w s
  | .tgRunComplete c pass row burst one many => Sys2Proof.Machine.execTgRunComplete c pass row burst one many s
  | .stackTemperatureChange st t => Sys2Proof.Machine.execStackTemperatureChange st t s
  | .rdshared n => Sys2Proof.Machine.execRdshared n s
  | .rdunique n => Sys2Proof.Machine.execRdunique n s
  | .upgrade n => Sys2Proof.Machine.execUpgrade n s
  | .writeback q => Sys2Proof.Machine.execWriteback q s
  | .evictclean n => Sys2Proof.Machine.execEvictclean n s
  | .atomicReq n => Sys2Proof.Machine.execAtomicReq n s
  | .uncread a n => Sys2Proof.Machine.execUncread a n s
  | .uncwrite n => Sys2Proof.Machine.execUncwrite n s
  | .snpshared q => Sys2Proof.Machine.execSnpshared q s
  | .snpunique q => Sys2Proof.Machine.execSnpunique q s
  | .snponce q => Sys2Proof.Machine.execSnponce q s
  | .snpinv n => Sys2Proof.Machine.execSnpinv n s
  | .recall q => Sys2Proof.Machine.execRecall q s
  | .snpresp n => Sys2Proof.Machine.execSnpresp n s
  | .dataMsg n => Sys2Proof.Machine.execDataMsg n s
  | .comp n => Sys2Proof.Machine.execComp n s
  | .compack n => Sys2Proof.Machine.execCompack n s
  | .retry n => Sys2Proof.Machine.execRetry n s
  | .retryResend n => Sys2Proof.Machine.execRetryResend n s
  | .wback n => Sys2Proof.Machine.execWback n s
  | .hostCoreLoad c => Sys2Proof.Machine.execHostCoreLoad c s
  | .hostCoreStore c => Sys2Proof.Machine.execHostCoreStore c s
  | .amo c => Sys2Proof.Machine.execAmo c s
  | .lr c => Sys2Proof.Machine.execLr c s
  | .sc c => Sys2Proof.Machine.execSc c s
  | .lrHoldExpiry c => Sys2Proof.Machine.execLrHoldExpiry c s
  | .cboZero c => Sys2Proof.Machine.execCboZero c s
  | .cboClean c => Sys2Proof.Machine.execCboClean c s
  | .cboFlush c => Sys2Proof.Machine.execCboFlush c s
  | .cboInval c => Sys2Proof.Machine.execCboInval c s
  | .walkTableReadComplete c n => Sys2Proof.Machine.execWalkTableReadComplete c n s
  | .xltRootWrite src v => Sys2Proof.Machine.execXltRootWrite src v s
  | .shootdownSubmit src w => Sys2Proof.Machine.execShootdownSubmit src w s
  | .shootdownCrateApply c => Sys2Proof.Machine.execShootdownCrateApply c s
  | .shootdownPost => Sys2Proof.Machine.execShootdownPost s
  | .hatchOutWrite src w i wide v => Sys2Proof.Machine.execHatchOutWrite src w i wide v s
  | .hatchInWrite src n i wide v => Sys2Proof.Machine.execHatchInWrite src n i wide v s
  | .hatchInDrain n => Sys2Proof.Machine.execHatchInDrain n s
  | .hatchLastChunkSend t => Sys2Proof.Machine.execHatchLastChunkSend t s
  | .seamFlitReceive b d blame => Sys2Proof.Machine.execSeamFlitReceive b d blame s
  | .seamLaneLossOfLock b d x => Sys2Proof.Machine.execSeamLaneLossOfLock b d x s
  | .seamLaneWindowExpiry b d n => Sys2Proof.Machine.execSeamLaneWindowExpiry b d n s
  | .seamLaneRepairComplete b => Sys2Proof.Machine.execSeamLaneRepairComplete b s
  | .seamRetrainComplete b => Sys2Proof.Machine.execSeamRetrainComplete b s
  | .seamControlTakeover b => Sys2Proof.Machine.execSeamControlTakeover b s
  | .fabricDetectPoll p found => Sys2Proof.Machine.execFabricDetectPoll p found s
  | .fabricTrainStageComplete p e => Sys2Proof.Machine.execFabricTrainStageComplete p e s
  | .fabricTrainStageTimeout p => Sys2Proof.Machine.execFabricTrainStageTimeout p s
  | .fabricRetrain src p => Sys2Proof.Machine.execFabricRetrain src p s
  | .fabricFlitReceive p f => Sys2Proof.Machine.execFabricFlitReceive p f s
  | .fabricLaneLossOfLock p lane => Sys2Proof.Machine.execFabricLaneLossOfLock p lane s
  | .fabricBerWindow p lane errors => Sys2Proof.Machine.execFabricBerWindow p lane errors s
  | .fabricNarrowComplete p => Sys2Proof.Machine.execFabricNarrowComplete p s
  | .rdReq p k => Sys2Proof.Machine.execRdReq p k s
  | .wr p k => Sys2Proof.Machine.execWr p k s
  | .opwr p k => Sys2Proof.Machine.execOpwr p k s
  | .rdResp p k => Sys2Proof.Machine.execRdResp p k s
  | .wrAck p k => Sys2Proof.Machine.execWrAck p k s
  | .collAck p k => Sys2Proof.Machine.execCollAck p k s
  | .syncInc p k => Sys2Proof.Machine.execSyncInc p k s
  | .collReady p k => Sys2Proof.Machine.execCollReady p k s
  | .collAbort p k => Sys2Proof.Machine.execCollAbort p k s
  | .ctrl p k => Sys2Proof.Machine.execCtrl p k s
  | .collData p k => Sys2Proof.Machine.execCollData p k s
  | .mgmt p k => Sys2Proof.Machine.execMgmt p k s
  | .fabricResponseTimeout tag => Sys2Proof.Machine.execFabricResponseTimeout tag s
  | .ringRouteUpdate p => Sys2Proof.Machine.execRingRouteUpdate p s
  | .routeWrite src l i wide v => Sys2Proof.Machine.execRouteWrite src l i wide v s
  | .fenceWrite src p w => Sys2Proof.Machine.execFenceWrite src p w s
  | .collTailWrite src e w => Sys2Proof.Machine.execCollTailWrite src e w s
  | .collStart e => Sys2Proof.Machine.execCollStart e s
  | .collStepComplete e ptr => Sys2Proof.Machine.execCollStepComplete e ptr s
  | .collPartnerTimeout e ptr => Sys2Proof.Machine.execCollPartnerTimeout e ptr s
  | .perstAssert p => Sys2Proof.Machine.execPerstAssert p s
  | .perstRelease p => Sys2Proof.Machine.execPerstRelease p s
  | .hostPathLoss p => Sys2Proof.Machine.execHostPathLoss p s
  | .bar0AccessTimeout p => Sys2Proof.Machine.execBar0AccessTimeout p s
  | .bar2Read p off n ide => Sys2Proof.Machine.execBar2Read p off n ide s
  | .bar2Write p off bs ide => Sys2Proof.Machine.execBar2Write p off bs ide s
  | .doorbell p off size v ide => Sys2Proof.Machine.execDoorbell p off size v ide s
  | .ringEnable src p r w => Sys2Proof.Machine.execRingEnable src p r w s
  | .ringDisable src p r w => Sys2Proof.Machine.execRingDisable src p r w s
  | .ringRetry src p r w => Sys2Proof.Machine.execRingRetry src p r w s
  | .commandFetch p r placed => Sys2Proof.Machine.execCommandFetch p r placed s
  | .commandRefetch p r placed => Sys2Proof.Machine.execCommandRefetch p r placed s
  | .nop n => Sys2Proof.Machine.execNop n s
  | .copy n => Sys2Proof.Machine.execCopy n s
  | .copyChunkComplete n crcOk => Sys2Proof.Machine.execCopyChunkComplete n crcOk s
  | .statusPeriod n => Sys2Proof.Machine.execStatusPeriod n s
  | .admitJob n => Sys2Proof.Machine.execAdmitJob n s
  | .admitRetrainComplete => Sys2Proof.Machine.execAdmitRetrainComplete s
  | .teardown n => Sys2Proof.Machine.execTeardown n s
  | .teardownStepComplete fw => Sys2Proof.Machine.execTeardownStepComplete fw s
  | .teardownDrainTimeout => Sys2Proof.Machine.execTeardownDrainTimeout s
  | .teardownThermalTimeout => Sys2Proof.Machine.execTeardownThermalTimeout s
  | .attestationKeyGenerated => Sys2Proof.Machine.execAttestationKeyGenerated s
  | .stocktake n => Sys2Proof.Machine.execStocktake n s
  | .runPlan n => Sys2Proof.Machine.execRunPlan n s
  | .stopPlan n => Sys2Proof.Machine.execStopPlan n s
  | .planStopComplete => Sys2Proof.Machine.execPlanStopComplete s
  | .periodStart => Sys2Proof.Machine.execPeriodStart s
  | .timeStepStart j => Sys2Proof.Machine.execTimeStepStart j s
  | .evTailWrite src w => Sys2Proof.Machine.execEvTailWrite src w s
  | .setCap n => Sys2Proof.Machine.execSetCap n s
  | .phaseHint n => Sys2Proof.Machine.execPhaseHint n s
  | .capRequestWrite src w => Sys2Proof.Machine.execCapRequestWrite src w s
  | .resvWrite src g w => Sys2Proof.Machine.execResvWrite src g w s
  | .govHintWrite src hi wide v => Sys2Proof.Machine.execGovHintWrite src hi wide v s
  | .hintExpiry => Sys2Proof.Machine.execHintExpiry s
  | .governorInterval e => Sys2Proof.Machine.execGovernorInterval e s
  | .railTelemetryRead i ok => Sys2Proof.Machine.execRailTelemetryRead i ok s
  | .pwrAlertAssert i => Sys2Proof.Machine.execPwrAlertAssert i s
  | .pwrAlertRelease i => Sys2Proof.Machine.execPwrAlertRelease i s
  | .lowestStateExit => Sys2Proof.Machine.execLowestStateExit s
  | .droopDetect c => Sys2Proof.Machine.execDroopDetect c s
  | .droopClear c => Sys2Proof.Machine.execDroopClear c s
  | .droopResponseEnd c => Sys2Proof.Machine.execDroopResponseEnd c s
  | .frozenStepResume c => Sys2Proof.Machine.execFrozenStepResume c s
  | .collHoldEnd => Sys2Proof.Machine.execCollHoldEnd s
  | .crateTemperatureChange x t => Sys2Proof.Machine.execCrateTemperatureChange x t s
  | .ageingMeasure x mhz => Sys2Proof.Machine.execAgeingMeasure x mhz s
  | .railTransition i lvl => Sys2Proof.Machine.execRailTransition i lvl s
  | .domainPowerOn src d w => Sys2Proof.Machine.execDomainPowerOn src d w s
  | .domainPowerOff src d w => Sys2Proof.Machine.execDomainPowerOff src d w s
  | .domainClockStop src d w => Sys2Proof.Machine.execDomainClockStop src d w s
  | .domainSwitchComplete d => Sys2Proof.Machine.execDomainSwitchComplete d s
  | .pilotLightLoss => Sys2Proof.Machine.execPilotLightLoss s
  | .serdesRefclkLoss i => Sys2Proof.Machine.execSerdesRefclkLoss i s
  | .hangWatchFire crossing kind index t => Sys2Proof.Machine.execHangWatchFire crossing kind index t s
  | .urstCrate src index => Sys2Proof.Machine.execUrstCrate src index s
  | .urstCore src index => Sys2Proof.Machine.execUrstCore src index s
  | .urstCollEngine src index => Sys2Proof.Machine.execUrstCollEngine src index s
  | .coreFrequencyChange c => Sys2Proof.Machine.execCoreFrequencyChange c s
  | .driverHeartbeat src w => Sys2Proof.Machine.execDriverHeartbeat src w s
  | .heartbeatTimeout => Sys2Proof.Machine.execHeartbeatTimeout s
  | .driverMsg n reply => Sys2Proof.Machine.execDriverMsg n reply s
  | .driverMsgTimeout n => Sys2Proof.Machine.execDriverMsgTimeout n s
  | .debugRequest q => Sys2Proof.Machine.execDebugRequest q s
  | .doeRequest p q => Sys2Proof.Machine.execDoeRequest p q s
  | .pkgResetAssert => Sys2Proof.Machine.execPkgResetAssert s
  | .pkgResetRelease strap prog chips => Sys2Proof.Machine.execPkgResetRelease strap prog chips s
  | .startupStageComplete e => Sys2Proof.Machine.execStartupStageComplete e s
  | .pklUpdateStart src w => Sys2Proof.Machine.execPklUpdateStart src w s
  | .pklUpdateComplete ok written => Sys2Proof.Machine.execPklUpdateComplete ok written s
  | .bist n => Sys2Proof.Machine.execBist n s
  | .strongroomRead n => Sys2Proof.Machine.execStrongroomRead n s
  | .idleSliceStart kind index => Sys2Proof.Machine.execIdleSliceStart kind index s
  | .sliceComplete kind index sig expected bad => Sys2Proof.Machine.execSliceComplete kind index sig expected bad s
  | .sliceTimeout kind index expected bad => Sys2Proof.Machine.execSliceTimeout kind index expected bad s
  | .faultTick => Sys2Proof.Machine.execFaultTick s
  | .faultHeadWrite src fatal w => Sys2Proof.Machine.execFaultHeadWrite src fatal w s
  | .ovfClear src => Sys2Proof.Machine.execOvfClear src s
  | .mgmtRegisterRead f => Sys2Proof.Machine.execMgmtRegisterRead f s
  | .mgmtRegisterWrite f => Sys2Proof.Machine.execMgmtRegisterWrite f s
  | .mgmtStrongroomRead f => Sys2Proof.Machine.execMgmtStrongroomRead f s
  | .mgmtFrameForward f => Sys2Proof.Machine.execMgmtFrameForward f s
  | .mgtBypassEngage healthy => Sys2Proof.Machine.execMgtBypassEngage healthy s
  | .jtagIdcode => Sys2Proof.Machine.execJtagIdcode s
  | .jtagExtest cells => Sys2Proof.Machine.execJtagExtest cells s
  | .jtagIntest cells => Sys2Proof.Machine.execJtagIntest cells s
  | .jtagExtestPulse cells => Sys2Proof.Machine.execJtagExtestPulse cells s
  | .jtagExtestTrain cells => Sys2Proof.Machine.execJtagExtestTrain cells s
  | .jtagBypass => Sys2Proof.Machine.execJtagBypass s
  | .registerWrite src a size v ide => Sys2Proof.Machine.execRegisterWrite src a size v ide s
  | .controlCoreInstruction t => Sys2Proof.Machine.execControlCoreInstruction t s
  | .hostCoreInstruction c => Sys2Proof.Machine.execHostCoreInstruction c s
  | .hostCoreInterrupt c m => Sys2Proof.Machine.execHostCoreInterrupt c m s
  | .hostPortLinkUp p speed width cxl => Sys2Proof.Machine.execHostPortLinkUp p speed width cxl s
  | .configurationRequest p q => Sys2Proof.Machine.execConfigurationRequest p q s
  | .bar0Read p a n ide => Sys2Proof.Machine.execBar0Read p a n ide s
  | .cxlHostSnoop p line => Sys2Proof.Machine.execCxlHostSnoop p line s
  | .pilotLightReturn => Sys2Proof.Machine.execPilotLightReturn s
  | .serdesRefclkReturn i => Sys2Proof.Machine.execSerdesRefclkReturn i s
  | .fabricPartnerRetrain p => Sys2Proof.Machine.execFabricPartnerRetrain p s
  | .fabricCodewordWindowExpiry p lane => Sys2Proof.Machine.execFabricCodewordWindowExpiry p lane s
  | .cellarRowCeWindowExpiry c pc row => Sys2Proof.Machine.execCellarRowCeWindowExpiry c pc row s
  | .strongroomCommitComplete => Sys2Proof.Machine.execStrongroomCommitComplete s
  | .mgtLinkRelock lock => Sys2Proof.Machine.execMgtLinkRelock lock s

end Sys2Proof.Machine
end

