-- ==== Sys2Proof/Safety.lean ====
section
/-! DEFINITION. What the claims call a good state, a safe run and a frame: the canonical form of every memory and map, runs that neither fault
nor are refused, and states that differ in named registers only. -/
namespace Sys2Proof.Machine

/-- The register map and every memory are in their canonical form. -/
def State.memOk (s : State) : Bool :=
  wfMap resetWord s.regs && Memory.wf s.cellar && Memory.wf s.shelf && Memory.wf s.hostA && Memory.wf s.hostB && Memory.wf s.strong &&
    Memory.wf s.flash

/-- A step of the state has a next state. -/
def State.stepSafe (s : State) : Prop := ∃ t, step s = .next t

/-- State `t` is state `s` but for the register words at the offsets `as`: every other register, every byte of every memory and every
other field is the same. -/
def OnlyRegs (as : List Nat) (s t : State) : Prop := (∀ a, a ∉ as → t.reg a = s.reg a) ∧ t = { s with regs := t.regs }

end Sys2Proof.Machine
end

