-- ==== Sys2Proof/Certificates/Slice0/Obligations.lean ====
section
/-! DEFINITION. The statements for the provers. Every clause about a command says that it answers a next state and what that state holds;
`OnlyRegs` and the equalities of states are its frame. -/

open Sys2Proof Sys2Proof.Machine

/-- The vector commands with their operation codes (Table 6.3). -/
def vectorRows : List (Nat × (TileId → Instr)) :=
  [(0x20, .cvt), (0x21, .cvtq), (0x22, .vadd), (0x23, .vsub), (0x24, .vmul), (0x25, .vmax), (0x26, .vmin), (0x27, .fma), (0x28, .axpy),
    (0x29, .affine), (0x2A, .vabs), (0x2B, .vneg), (0x2C, .cmpgt), (0x2D, .cmpeq), (0x2E, .cmpgts), (0x30, .vexp), (0x31, .vlog),
    (0x32, .recip), (0x33, .rsqrt), (0x34, .tanh), (0x40, .rsum), (0x41, .rsumsq), (0x42, .rmax), (0x43, .rmin), (0x44, .ramax),
    (0x48, .scan), (0x49, .xscan), (0x4A, .scanmax), (0x50, .topk), (0x51, .measure)]

/-- Every buffer descriptor of a run is of kind SHELF. -/
def AllShelf (r : Run) : Prop := ∀ b ∈ r.bufs, bKind b.2 = 1

/-- No word of a tile's shelf array is in error. -/
def NoArrayErrors (s : State) (t : TileId) : Prop := (s.tile t).eccErr = []

/-- The aperture of tile `u`'s shelf answers: its quadrant is on, its crate is in the decode list, and the crate's clock is good with no self-test
slice on it; whether a request has stopped that clock does not matter (R72, R74, R574, R576). -/
structure ShelfAnswers (s : State) (u : Nat) : Prop where
  on : s.tileOn u
  listed : s.offline 2 (u / 64) = false
  clock : (s.crate (u / 64)).clockLost = false
  noSlice : s.sliceOn 0 (u / 64) = false

/-- Shelf key `k` is no byte of an extent in a SHELF buffer of a run. -/
def OutsideExtent (s : State) (t : TileId) (r : Run) (e : Extent) (k : Nat) : Prop :=
  ∀ o : Nat, (bBase (r.buf e.buf) : Int) + e.lo ≤ o → (o : Int) < (bBase (r.buf e.buf) : Int) + e.hi → s.scratchKey t o ≠ some k

/-- A tally's value after a change to `v` (R226). -/
def clamp16 (v : Int) : Nat := if v < 0 then 0 else if 0xFFFF < v then 0xFFFF else v.toNat

/-- The signed amount of a 16-bit field. -/
def signed16 (n : Nat) : Int := if n < 32768 then (n : Int) else (n : Int) - 65536

/-- TILE.RUN of the tile that holds a tally: what arrives for it ungates the tile (R70). -/
def wakeRegs : TallyLoc → List Nat
  | .tile t _ => [tileReg t 4]
  | _ => []

/-- The enabled ways of tile `t` that change role when LOCK becomes `n` (R201). -/
def roleChanges (s : State) (t : TileId) (n : Nat) : List Nat :=
  (s.enabledWays t).filter fun w => decide (w ∈ (s.enabledWays t).take n) != s.isScratchWay t w

/-- The write-backs of a role change, cache way by cache way: the first status that is not 0, and the state after them. -/
def roleWriteBacks (s : State) (t : TileId) (n : Nat) : Nat × State :=
  ((roleChanges s t n).filter fun w => !s.isScratchWay t w).foldl (fun q w => if q.1 = stWAIT then q else q.2.writeBackWay t w) (0, s)

/-- Every byte of a way reads 0 and every line of it is Invalid. -/
def WayEmpty (s : State) (t : TileId) (w : Nat) : Prop :=
  (∀ i < 16384, readByte s.shelf (shelfKey t w 0 0 + i) = 0#8) ∧ ∀ st : Fin 128, s.line t w st = Line.none

/-- Two states have the same shelves, cellar, host memory and strongroom. -/
def SameMemory (s t : State) : Prop :=
  t.shelf = s.shelf ∧ t.cellar = s.cellar ∧ t.hostA = s.hostA ∧ t.hostB = s.hostB ∧ t.strong = s.strong

/-- Address `a` lies at location `l` in a line that its home serves at once and that nothing holds but the stack: no cached copy, no
hamper entry, no repair, no error, no retirement. -/
structure PlainLine (s : State) (l : Loc) (a : Nat) : Prop where
  place : s.locate a = some l
  serves : s.homeStatus l = (0, s)
  free : s.lineBusy (a / 128) = false
  unrepaired : s.lineHeld l [0, 1] = false
  uncached : s.dir (a / 128) = none
  unbuffered : ∀ e ∈ s.hamper l.home, e.line ≠ a / 128
  inUse : s.isRetired l = false
  clean : ∀ b, b / 2 = a / 128 → lookMap 0 s.symErr b = 0 ∧ s.isPoison b = false

/-- The operation commands with their opcodes (Table 9.1). -/
def opRows : List (Nat × (Nat → List Byte → Instr)) :=
  [(1, .opIntAdd32), (2, .opIntAdd64), (3, .opFloatAdd 0), (4, .opFloatAdd 1), (5, .opFloatAdd 2), (6, .opFloatAdd 3), (7, .opIntMin),
    (8, .opIntMax), (9, .opFloatMin), (10, .opFloatMax), (11, .opAnd), (12, .opOr), (13, .opXor)]

/-- The fetching requests with their FOP values (Table 9.2). -/
def fetchRows : List (Nat × (TileId → Nat → BitVec 256 → Instr)) :=
  [(0, .swap), (1, .cas), (2, .fetchAdd), (3, .fetchFadd), (4, .fetchMin), (5, .fetchMax), (6, .fetchAnd), (7, .fetchOr), (8, .fetchXor)]

/-- The format of a float operation opcode (Table 9.1). -/
def opFmt (opc : Nat) : Option Fmt :=
  if opc = 3 then some .bf16 else if opc = 4 then some .fp16 else if opc = 5 ∨ opc = 9 ∨ opc = 10 then some .fp32
  else if opc = 6 then some .fp64 else none

/-- Is an encoding a NaN of the format? -/
def isNanEnc (f : Fmt) (n : Nat) : Bool := (addIn f n).isNan

/-- The home of a request's line takes it at once: it is on its way, no transaction is open on its line, the home serves with no repair
at the line's banks, and a tracker is free for a request below age 15. -/
structure HomeTakes (s : State) (n : Nat) (c : CReq) (l : Loc) : Prop where
  here : s.creqs[n]? = some c
  onWay : c.stage = 0
  unpinned : s.pinned c.line = false
  place : s.locate (128 * c.line) = some l
  serves : s.homeStatus l = (0, s)
  unrepaired : s.lineHeld l [0, 1] = false
  young : c.age < 15
  tracker : s.trackers l.home false < 120

/-- The request commands with their kinds (Table 10.3). -/
def requestRows : List (Nat × (Nat → Instr)) := [(0, .rdshared), (1, .rdunique), (2, .upgrade)]

/-- The snoop commands with their kinds (Table 10.3): of the message's place and the bursts that prove uncorrectable in the cache (R295). -/
def snoopRows : List (Nat × (Nat → Nat → Instr)) :=
  [(0, fun n e => .snpshared ⟨n, e⟩), (1, fun n e => .snpunique ⟨n, e⟩), (2, fun n e => .snponce ⟨n, e⟩), (3, fun n _ => .snpinv n),
    (4, fun n e => .recall ⟨n, e⟩)]

/-- A host core that may execute, outside the debug module, has fetched instruction `i` of `len` bytes at its pc; `s1` is the state after
the fetch. -/
structure HartAt (s s1 : State) (c : CoreId) (i : Rv) (len w : Nat) : Prop where
  runs : s.hartRuns c
  quiet : s.dmActive = false
  fetched : s.hartFetch c = (.ok i len w, s1)
  quiet' : s1.dmActive = false

/-- An aligned access of a core in machine mode to the cellar that PMP allows (kind 1 a load, 2 a store), while no request of the core for
the line has ended without it. -/
structure CellarAt (s : State) (c : CoreId) (kind a n : Nat) : Prop where
  mode : (s.hcore c).mode = 3
  own : (s.hcore c).mst 17 1 ≠ 1
  aligned : a % n = 0
  fits : a % 128 + n ≤ 128
  cellar : a < cellarSize
  pmp : (s.hcore c).pmpOk 3 kind a n
  noEnded : ∀ r ∈ s.creqs, r.core = c → r.line = a / 128 → r.stage ≠ 3

/-- The core's record with x[rd] set and the pc moved past an instruction of `len` bytes. -/
def retired (x : HCore) (rd : Nat) (v : BitVec 64) (len : Nat) : HCore := { x.setX rd v with pc := (x.pc + len) % 2 ^ 64 }


/-- The word that a write leaves in a register: the written value in the bits that a write sets, 0 in the bits that it clears by 1, and the
old value elsewhere; a place that no block lists keeps nothing (R7, R8, R589). -/
def writtenWord (a : Nat) (old v : Word) : Word :=
  match regRow a with
  | none => old
  | some r => ((old &&& ~~~BitVec.ofNat 32 r.rw) ||| (v &&& BitVec.ofNat 32 r.rw)) &&& ~~~(v &&& BitVec.ofNat 32 r.w1c)

/-- All the credits of Table 13.4 are there at port `p`: none is in use or taken for a response, and nothing waits there. -/
structure PortClear (s : State) (p : Nat) : Prop where
  grant : (s.fport p).grant = tableCredits
  used : (s.fport p).used = []
  waits : ∀ q ∈ s.fabWait, q.port ≠ p
  taken : ∀ r ∈ s.fabRsv, r.port ≠ p

/-- The route towards a place is the one port `p`, its fence passes this job's packets of a virtual channel, and its credits are there. -/
structure OneRoute (s : State) (dest p vc : Nat) : Prop where
  route : s.routePorts dest = [p]
  fence : s.fencePasses p vc (s.rd jobId)
  clear : PortClear s p


/-- The packet commands with their types (Table 13.6). -/
def packetRows : List (Nat × (PortId → Packet → Instr)) :=
  [(1, .rdReq), (2, .wr), (3, .opwr), (8, .rdResp), (9, .wrAck), (10, .collAck), (16, .syncInc), (17, .collReady), (18, .collAbort),
    (20, .ctrl), (24, .collData), (31, .mgmt)]

/-- A packet is for this device: it comes in through a port that is Up, its header checks, its channel is that of its type, the port's fence
passes it, and the unit it names takes its type. -/
structure Arrives (s : State) (p : PortId) (k : Packet) : Prop where
  up : s.portUp p
  header : k.hdrOk
  channel : vcOfType k.type = some k.vc
  fence : s.fencePasses p k.vc k.job
  here : devPlace k.dest = s.place
  unit : unitAccepts (k.dest % 4096) k.type

/-- The status with which a request through an inbound entry is rejected, 0 where it is admitted (Table 11.6). -/
def rejection (s : State) (k : Packet) : Nat :=
  if s.on (inValid k.hatch) = false then 1
  else if s.rd (inJob k.hatch) ≠ k.job then 2
  else if s.on (if k.type = 1 then inRd k.hatch else if k.type = 2 then inWr k.hatch else inAtom k.hatch) = false then 3
  else if s.inSize k.hatch < k.off + k.len ∨ 4096 < k.len then 4
  else 0

/-- One chunk of tile `t`'s running copy is in flight, and it waits for the response to tag `tag`. -/
structure ChunkWaits (s : State) (t tag : Nat) (r : Run) (c : Chunk) : Prop where
  run : ((s.tile t).eng2).run = some r
  flight : r.flight = [c]
  waits : c.waitTag = some tag


/-- Both ports of a collective descriptor are Up, fenced to this device's job, run GL3, and have their credits. -/
def CollPorts (s : State) (d : BitVec 512) : Prop :=
  ∀ q ∈ [cNext d, cPrev d], s.portUp q ∧ s.rd (fenceMode q) = 1 ∧ s.rd (fenceJob q) = s.rd jobId ∧ s.rd (fabVer q) = 3 ∧ PortClear s q

/-- The fields of a collective descriptor that is not ILLEGAL (Table 13.11). -/
structure CollFields (d : BitVec 512) : Prop where
  op : cOp d ≠ 0
  reserved : cRsv d = 0
  rank : cRank d < cNmem d
  members : 2 ≤ cNmem d ∧ cNmem d ≤ 64
  opc : if cOp d = 2 then cOpc d = 0 else 1 ≤ cOpc d ∧ cOpc d ≤ 10
  base : cBase d % 128 = 0
  seg : 0 < cSeg d ∧ cSeg d % 128 = 0
  buffer : cBase d + cNmem d * cSeg d ≤ cellarSize

/-- The state after an engine's descriptor, the only one that runs, has ended in state `st` before DONE: COLL_ABORT has gone to both
neighbours where their ports take it, ahead of other channels' packets where it finds them (R358). -/
def CollEnded (s u : State) (c : Coll) (st : Nat) : Prop :=
  u.colls = [] ∧ u.rd (collState c.e c.ptr) = st ∧ SameMemory s u ∧ u.incs = s.incs ∧
    (CollPorts s c.desc → ∃ k1 k2, (s.fabTx ++ [(cNext c.desc, k1), (cPrev c.desc, k2)]).Perm u.fabTx ∧ k1.type = 18 ∧ k2.type = 18 ∧
      k1.tag = cId c.desc ∧ k2.tag = cId c.desc)


/-- A port's BAR accesses that arrive outside every IDE stream go on: its link is up with memory space enabled and D0, and the port does
not require IDE. -/
def BarOpen (s : State) (p : HostPortId) : Prop := s.memSpace p ∧ s.on (hpIdeRequired p) = false

/-- The unit at a register answers: it is powered and its clock runs. -/
def UnitAnswers (s : State) (a : Nat) : Prop := s.regPowered a ∧ s.regStopped a = false


/-- The shadow record of command `c` in its ring shows state `st` and error `err` (Tables 14.6, 14.9). -/
def Noted (u : State) (c : Cmd) (st err : Nat) : Prop :=
  (u.reg (ringReg c.ring (0x404 + 64 * (c.seq % 16)))).toNat = st + 256 * (c.ring % 16 + 16 * (c.ring / 16)) + 65536 * err

/-- Command `c` of a ring with opcode `op` is the only one and has not started. -/
structure OnlyCmd (s : State) (c : Cmd) (op : Nat) : Prop where
  only : s.cmds = [c]
  ring : c.ring < 32
  fresh : c.st = 1
  opcode : c.opcode = op

/-- A ring in the cellar may fetch and the entry at its head is a plain line's 64 bytes. -/
structure RingFetches (s : State) (k : Nat) (l : Loc) (bs : List Byte) : Prop where
  may : s.mayFetch k
  loc : s.on (ringLoc k)
  align : (s.reg64 (ringReg k 8) + 64 * (s.rd (ringHead k) % s.ringSize k)) % 64 = 0
  line : PlainLine s l (s.reg64 (ringReg k 8) + 64 * (s.rd (ringHead k) % s.ringSize k))
  entry : bs = readBytes s.cellar (s.reg64 (ringReg k 8) + 64 * (s.rd (ringHead k) % s.ringSize k)) 64

/-- For every command c, queue q and state s, one step of s with c in front of q is exec of c on s with the queue q; on an empty queue
a step answers the same state (the model's choice, log entry 3). (spec/95_what_each_step_holds.md) -/
def Obligations.StepRunsFrontCommand : Prop :=
  (∀ (c : Instr) (q : List Instr) (s : State), step { s with pending := c :: q } = exec c { s with pending := q }) ∧
    ∀ s : State, s.pending = [] → step s = .next s

/-- No command faults or is refused: for every command and every state, exec answers a next state. The spec stops the machine on no
command, and every failure that it describes is a status, a record or an interrupt. (spec/95_what_each_step_holds.md) -/
def Obligations.EveryCommandAnswersNext : Prop :=
  ∀ (c : Instr) (s : State), ∃ t, exec c s = .next t

/-- Whatever a command does, the queue of the state it answers is the queue of the state it began in.
(spec/95_what_each_step_holds.md) -/
def Obligations.CommandsLeaveTheQueue : Prop :=
  ∀ (c : Instr) (s t : State), exec c s = .next t → t.pending = s.pending

/-- If the register map lists no word at its reset value and its offsets rise, and the cellar, the shelves, the two host memories, the
strongroom and the flash list no byte that reads 0 and their addresses rise, then so it is after every step. Equal contents are
then equal data. That an unlisted byte reads 0 is the model's choice (log entry 6). (spec/23_register_summary.md R589,
spec/09_cellar.md R246) -/
def Obligations.EveryStepKeepsCanonicalMemory : Prop :=
  ∀ s t : State, s.memOk → step s = .next t → t.memOk

/-- At reset the register map and every memory are in canonical form, no command waits, and every register word reads its reset value
of the register map (the values that the spec leaves open are the model's choice, log entry 5). (spec/23_register_summary.md R589) -/
def Obligations.ResetMemoryIsCanonical : Prop :=
  State.reset.memOk ∧ State.reset.pending = [] ∧ ∀ a, State.reset.reg a = resetWord a

/-- A write of TILE.RUN with HOLD = 0 to a held tile whose registers answer: with a scratch way locked, and a code window that is not
empty and lies at or above 0x1000 in locked scratch (and a crate not reported failed), HOLD becomes 0, STATE reads running (parked
if the tile is parked, and then it runs once unparked) and the core starts at the window's base. Without that the tile stays held
and START_REFUSED is set. Either way nothing but TILE.RUN and, on release, the core changes, and the write no longer waits at a
crossing if it did. (R35) -/
def Obligations.TileLeavesResetOnlyWithScratchAndCode : Prop :=
  ∀ (src : Src) (t : TileId) (w : BitVec 32) (s : State), s.mayWrite src (tileReg t 4) → s.tileLive t → s.on (tHold t) →
    (1 ≤ (s.scratchWays t).length ∧ s.rd (tBase t) < s.rd (tLimit t) ∧ 0x1000 ≤ 1024 * s.rd (tBase t) ∧
        1024 * s.rd (tLimit t) ≤ s.scratchEnd t ∧ s.offline 2 (t / 64) = false →
      ∃ u v, exec (.tileRunRelease src t w) s = .next u ∧ u.on (tHold t) = false ∧
        u.rd (tState t) = (if s.on (tParked t) then 4 else 1) ∧
        (u.tile t).cpu = { Tile.fresh.cpu with pc := BitVec.ofNat 32 (1024 * s.rd (tBase t)) } ∧
        OnlyRegs [tileReg t 4] ((s.unheld src.unit).setTile t v) u ∧
        v = { s.tile t with cpu := v.cpu, woken := s.on (tParked t) || (s.tile t).woken }) ∧
    ((s.scratchWays t = [] ∨ s.rd (tLimit t) ≤ s.rd (tBase t) ∨ 1024 * s.rd (tBase t) < 0x1000 ∨ s.scratchEnd t < 1024 * s.rd (tLimit t)) →
      ∃ u, exec (.tileRunRelease src t w) s = .next u ∧ u.on (tHold t) ∧ u.on (tRefused t) ∧ OnlyRegs [tileReg t 4] (s.unheld src.unit) u)

/-- A write of TILE.RUN with HOLD = 1 to a released tile whose mover has no chunk in flight leaves it held, STATE 0, its queues empty,
its engines idle and its core at its reset. A write of TILE.CODE takes effect only while the tile is held and changes that word
alone; like every access it ungates a gated tile's clock. A tile in WFI or clock-gated resumes (STATE 1) once a wake condition is
met, and nothing else changes; a parked one remembers it until it is unparked. (02_tiles_and_crates.md Table 2.12, R46, R70) -/
def Obligations.TileHoldAndCodeWrites : Prop :=
  (∀ (src : Src) (t : TileId) (w : BitVec 32) (s : State), s.mayWrite src (tileReg t 4) → s.tileLive t → s.on (tHold t) = false →
    (∀ r, (s.tile t).eng2.run = some r → r.flight = []) →
      ∃ u, exec (.tileRunHold src t w) s = .next u ∧ u.on (tHold t) ∧ u.rd (tState t) = 0 ∧ (u.tile t).cpu = Tile.fresh.cpu ∧
        (∀ e : Fin 3, (u.tile t).eng e = .idle ∧ u.rd (qCount t e) = 0 ∧ u.on (qBusy t e) = false ∧ u.on (qHalted t e) = false) ∧
        u.shelf = s.shelf ∧ u.cellar = s.cellar ∧ u.incs = s.incs) ∧
  (∀ (src : Src) (t : TileId) (w : BitVec 32) (s : State), s.mayWrite src (tileReg t 12) → s.tileLive t →
    (s.on (tHold t) → ∃ u, exec (.tileCodeWrite src t w) s = .next u ∧ u.rd (tBase t) = w.toNat % 256 ∧
      u.rd (tLimit t) = w.toNat / 65536 % 256 ∧
      u.rd (tState t) = (if s.rd (tState t) = 3 then 2 else s.rd (tState t)) ∧
      u.rd ⟨tileReg t 4, 0, 4⟩ = s.rd ⟨tileReg t 4, 0, 4⟩ ∧ OnlyRegs [tileReg t 12, tileReg t 4] (s.unheld src.unit) u) ∧
    (s.on (tHold t) = false → exec (.tileCodeWrite src t w) s = .next ((s.unheld src.unit).ungate t))) ∧
  ∀ (t : TileId) (s : State), s.tileLive t → s.wakeMet t → (s.rd (tState t) = 2 ∨ s.rd (tState t) = 3) →
    exec (.wfiWake t) s = .next (s.wr (tState t) 1)

/-- When a control core runs and the instruction at its pc has been fetched from the code window: a load that its place answers writes
rd and moves the pc past the instruction; a store that its place takes moves the pc and writes no register; WFI with no wake
condition met puts the core in WFI (STATE 2), and with one met it goes on; an integer operation writes its result to rd; a branch
or jump sets the pc; a CSR read answers the CSR; ECALL traps with cause 11. Nothing else of the core changes. The meaning of an
encoding is the RISC-V specification's (log entry 12). (02_tiles_and_crates.md R32, R33, R34, R70, log entry 12) -/
def Obligations.CoreExecutesLoadsStoresAndInstructions : Prop :=
  (∀ (t : TileId) (s s1 s2 : State) (sz : Nat) (sgn : Bool) (rd rs1 : Nat) (imm : Int) (len w : Nat) (bs : List Byte), s.ctlRuns t →
    s.ctlFetch t = (.ok (.load sz sgn rd rs1 imm) len w, s1) →
    (((s1.tile t).cpu.xr rs1 + BitVec.ofInt 32 imm).toNat) % 2 ^ sz = 0 →
    s1.ctlLoad t ((s1.tile t).cpu.xr rs1 + BitVec.ofInt 32 imm).toNat (2 ^ sz) = (.ok bs, s2) →
      exec (.controlCoreLoad t) s = .next (s2.setTile t { s2.tile t with
        cpu := { (s2.tile t).cpu.setX rd (loadVal 32 sz sgn bs) with pc := (s1.tile t).cpu.pc + BitVec.ofNat 32 len } })) ∧
  (∀ (t : TileId) (s s1 s2 : State) (sz rs1 rs2 : Nat) (imm : Int) (len w : Nat) (bs : List Byte), s.ctlRuns t →
    s.ctlFetch t = (.ok (.store sz rs1 rs2 imm) len w, s1) →
    (((s1.tile t).cpu.xr rs1 + BitVec.ofInt 32 imm).toNat) % 2 ^ sz = 0 →
    s1.ctlStore t ((s1.tile t).cpu.xr rs1 + BitVec.ofInt 32 imm).toNat (toBytes (2 ^ sz) ((s1.tile t).cpu.xr rs2).toNat) = (.ok bs, s2) →
      exec (.controlCoreStore t) s = .next (s2.setTile t { s2.tile t with
        cpu := { (s2.tile t).cpu with pc := (s1.tile t).cpu.pc + BitVec.ofNat 32 len } })) ∧
  (∀ (t : TileId) (s s1 : State) (len w : Nat), s.ctlRuns t → s.ctlFetch t = (.ok .wfi len w, s1) →
      ∃ u, exec (.wfi t) s = .next u ∧ (u.tile t).cpu = { (s1.tile t).cpu with pc := (s1.tile t).cpu.pc + BitVec.ofNat 32 len } ∧
        (s1.wakeMet t → u.rd (tState t) = s1.rd (tState t)) ∧ (s1.wakeMet t = false → u.rd (tState t) = 2) ∧
        ∀ a, a ≠ tileReg t 4 → u.reg a = s1.reg a) ∧
  (∀ (t : TileId) (s s1 : State) (x : AluW) (op : AluOp) (rd rs1 rs2 len w : Nat), s.ctlRuns t →
    s.ctlFetch t = (.ok (.alu x op rd rs1 rs2) len w, s1) →
      exec (.controlCoreInstruction t) s = .next (s1.setTile t { s1.tile t with
        cpu := { (s1.tile t).cpu.setX rd (aluFn 32 op ((s1.tile t).cpu.xr rs1) ((s1.tile t).cpu.xr rs2)) with
          pc := (s1.tile t).cpu.pc + BitVec.ofNat 32 len } })) ∧
  (∀ (t : TileId) (s s1 : State) (f3 rs1 rs2 : Nat) (imm : Int) (len w : Nat), s.ctlRuns t →
    s.ctlFetch t = (.ok (.branch f3 rs1 rs2 imm) len w, s1) →
      ∃ u, exec (.controlCoreInstruction t) s = .next u ∧ (u.tile t).cpu.x = (s1.tile t).cpu.x ∧ (u.tile t).cpu.pc =
        (s1.tile t).cpu.pc + (if branchTaken f3 ((s1.tile t).cpu.xr rs1) ((s1.tile t).cpu.xr rs2) then BitVec.ofInt 32 imm
          else BitVec.ofNat 32 len)) ∧
  (∀ (t : TileId) (s s1 : State) (rd : Nat) (imm : Int) (len w : Nat), s.ctlRuns t → s.ctlFetch t = (.ok (.jal rd imm) len w, s1) →
      ∃ u, exec (.controlCoreInstruction t) s = .next u ∧ (u.tile t).cpu.pc = (s1.tile t).cpu.pc + BitVec.ofInt 32 imm ∧
        (u.tile t).cpu.xr rd = (if rd = 0 then 0#32 else (s1.tile t).cpu.pc + BitVec.ofNat 32 len)) ∧
  ∀ (t : TileId) (s s1 : State) (len w : Nat), s.ctlRuns t → s.ctlFetch t = (.ok .ecall len w, s1) →
      ∃ u, exec (.controlCoreInstruction t) s = .next u ∧ (u.tile t).cpu.csrOf csrMcause = 11#32 ∧
        (u.tile t).cpu.csrOf csrMepc = (s1.tile t).cpu.pc ∧ u.shelf = s1.shelf

/-- Let the control core of a running tile have fetched a naturally aligned load or store whose address lies between the ranges of
Table 2.1, or at a scratch offset at or beyond the locked ways. The load takes a load access fault (mcause 5) and the store a
store access fault (mcause 7), with mepc the pc and mtval the address; no byte of the shelves, the cellar or host memory changes,
no packet or increment is sent, and no x register changes. (R34) -/
def Obligations.CoreAccessOutsideTheMapTraps : Prop :=
  ∀ (t : TileId) (s s1 : State) (sz rs1 : Nat) (imm : Int) (len w a : Nat), s.ctlRuns t → sz ≤ 2 →
    a = ((s1.tile t).cpu.xr rs1 + BitVec.ofInt 32 imm).toNat → a % 2 ^ sz = 0 →
    ((0x30000 ≤ a ∧ a < 0x40000) ∨ (0x41000 ≤ a ∧ a < 0x80000) ∨ (0x80100 ≤ a ∧ a < 0x81000) ∨ (0x82000 ≤ a ∧ a < 0xC0000) ∨
      (0xC8000 ≤ a ∧ a < 0x80000000) ∨ (a < 0x30000 ∧ s1.scratchEnd t ≤ a)) →
    (∀ (sgn : Bool) (rd : Nat), s.ctlFetch t = (.ok (.load sz sgn rd rs1 imm) len w, s1) →
      ∃ u, exec (.controlCoreLoad t) s = .next u ∧ (u.tile t).cpu.csrOf csrMcause = 5#32 ∧
        (u.tile t).cpu.csrOf csrMepc = (s1.tile t).cpu.pc ∧ (u.tile t).cpu.csrOf csrMtval = BitVec.ofNat 32 a ∧
        (u.tile t).cpu.x = (s1.tile t).cpu.x ∧ u.shelf = s1.shelf ∧ u.cellar = s1.cellar) ∧
    ∀ rs2 : Nat, s.ctlFetch t = (.ok (.store sz rs1 rs2 imm) len w, s1) →
      ∃ u, exec (.controlCoreStore t) s = .next u ∧ (u.tile t).cpu.csrOf csrMcause = 7#32 ∧
        (u.tile t).cpu.csrOf csrMepc = (s1.tile t).cpu.pc ∧ (u.tile t).cpu.csrOf csrMtval = BitVec.ofNat 32 a ∧
        (u.tile t).cpu.x = (s1.tile t).cpu.x ∧ u.shelf = s1.shelf ∧ u.cellar = s1.cellar ∧ u.hostA = s1.hostA ∧ u.hostB = s1.hostB ∧
        u.incs = s1.incs ∧ u.fabTx = s1.fabTx

/-- For a released tile, a write of TAIL is accepted if (new TAIL minus old TAIL) mod 32 is at most 16 minus COUNT: the engine then
owns the new slots with the contents they held (and whether it read them as poison), and TAIL and COUNT follow; otherwise only OVF
is set. RESUME of a halted queue clears HALTED and retires the failed slot. FLUSH of a queue that neither runs nor is halted
retires every owned slot, and of one that runs leaves the running descriptor with the flush recorded. (R37, R38, R43,
02_tiles_and_crates.md Tables 2.3 and 2.4) -/
def Obligations.QueueWritesMoveTheirPointers : Prop :=
  (∀ (src : Src) (t : TileId) (e : EngineId) (w : BitVec 32) (s : State) (n : Nat), tileRegWriter src t → s.tileLive t →
    s.on (tHold t) = false → n = (w.toNat % 32 + 32 - s.rd (qTail t e)) % 32 →
    (n + s.rd (qCount t e) ≤ 16 → ∃ u, exec (.queueTailWrite src t e w) s = .next u ∧ u.rd (qTail t e) = w.toNat % 32 ∧
      u.rd (qHead t e) = s.rd (qHead t e) ∧ u.rd (qCount t e) = (w.toNat % 32 + 32 - s.rd (qHead t e)) % 32 ∧
      ((u.tile t).eng e).run = ((s.tile t).eng e).run ∧
      ((u.tile t).eng e).owned = ((s.tile t).eng e).owned ++
        (List.range n).map (fun i => ⟨(s.rd (qTail t e) + i) % 32, s.slotBits t e (s.rd (qTail t e) + i),
          s.scratchPoison t (slotOff e (s.rd (qTail t e) + i)) 64⟩) ∧
      ∀ k, (∀ i < n, s.scratchKey t (statusOff e (s.rd (qTail t e) + i) + 2) ≠ some k) → readByte u.shelf k = readByte s.shelf k) ∧
    (16 < n + s.rd (qCount t e) → ∃ u, exec (.queueTailWrite src t e w) s = .next u ∧ u.on (qOvf t e) ∧
      u.rd (qTail t e) = s.rd (qTail t e) ∧ OnlyRegs [tileReg t (0x30 + 4 * e), tileReg t 4] (s.unheld src.unit) u)) ∧
  (∀ (src : Src) (t : TileId) (e : EngineId) (w : BitVec 32) (s : State) (x : Slot) (rest : List Slot), tileRegWriter src t →
    s.tileLive t → w.getLsbD 25 = false → s.on (qHalted t e) → ((s.tile t).eng e).owned = x :: rest →
      ∃ u, exec (.queueResume src t e w) s = .next u ∧ u.on (qHalted t e) = false ∧ ((u.tile t).eng e).owned = rest ∧
        u.rd (qHead t e) = (s.rd (qHead t e) + 1) % 32 ∧ u.rd (qTail t e) = s.rd (qTail t e) ∧ u.shelf = s.shelf) ∧
  ∀ (src : Src) (t : TileId) (e : EngineId) (w : BitVec 32) (s : State), tileRegWriter src t → s.tileLive t →
    w.getLsbD 24 = false → s.on (qHalted t e) = false →
    (((s.tile t).eng e).run = none → ∃ u, exec (.queueFlush src t e w) s = .next u ∧ ((u.tile t).eng e).owned = [] ∧
      u.rd (qHead t e) = (s.rd (qHead t e) + ((s.tile t).eng e).owned.length) % 32 ∧ u.rd (qTail t e) = s.rd (qTail t e) ∧
      u.incs = s.incs ∧ u.cellar = s.cellar) ∧
    ∀ r : Run, ((s.tile t).eng e).run = some r → ∃ u r', exec (.queueFlush src t e w) s = .next u ∧
      ((u.tile t).eng e).run = some r' ∧ r'.flush = some (((s.tile t).eng e).owned.length - 1) ∧ r'.desc = r.desc ∧
      ((u.tile t).eng e).owned = ((s.tile t).eng e).owned ∧ u.shelf = s.shelf ∧ u.cellar = s.cellar

/-- Let engine e of tile t have finished its running descriptor, its summary words lying outside its queue registers and the tile
tallies, let no carry record of a vector descriptor be on its way (R196), and let no FLUSH wait for it. With DONE the engine is
idle, HEAD advances by one, the oldest owned slot is retired, and DONE_TALLY rises by one (held at 0xFFFF) if DONE_EN is set. With
any other status no tally of the tile changes, HEAD stays, HALTED is set, LAST_ERR and ERR_SLOT record status and slot, and a tile
fault of code 0x0100 + status is raised. (R41) -/
def Obligations.DescriptorCompletionFollowsItsStatus : Prop :=
  ∀ (t : TileId) (e : EngineId) (s : State) (r : Run) (code : Nat), ((s.tile t).eng e).run = some r → r.ended = some code → r.flush = none →
    (e.val = 1 → ∀ k ∈ s.carryRecs, k.sender ≠ (t : Nat)) →
    (∀ p ∈ r.post, p.1 < tileTallyBase ∧ p.1 ≠ tileReg t (0x20 + 4 * e) ∧ p.1 ≠ tileReg t (0x30 + 4 * e) ∧ p.1 ≠ 0x1C0200) →
    (code = stDONE → ∃ u, exec (.descriptorComplete t e) s = .next u ∧ ((u.tile t).eng e).run = none ∧ u.on (qBusy t e) = false ∧
      u.rd (qHead t e) = (s.rd (qHead t e) + 1) % 32 ∧ ((u.tile t).eng e).owned = ((s.tile t).eng e).owned.tail ∧
      (hDoneEn r.desc → u.rd (TallyLoc.tile t (hDoneTally r.desc)).value =
        min 0xFFFF (s.rd (TallyLoc.tile t (hDoneTally r.desc)).value + 1)) ∧
      ∀ n : Fin 64, ((n : Nat) ≠ hDoneTally r.desc ∨ hDoneEn r.desc = false) →
        u.rd (TallyLoc.tile t n).value = s.rd (TallyLoc.tile t n).value) ∧
    (code ≠ stDONE → code < 256 → r.slot < 32 → ∃ u, exec (.descriptorComplete t e) s = .next u ∧ ((u.tile t).eng e).run = none ∧
      u.on (qHalted t e) ∧ u.rd (qLastErr t e) = code ∧ u.rd (qErrSlot t e) = r.slot ∧ u.rd (qHead t e) = s.rd (qHead t e) ∧
      (∀ n : Fin 64, u.rd (TallyLoc.tile t n).value = s.rd (TallyLoc.tile t n).value) ∧ u.incs = s.incs ∧
      ∃ f, u.gathered = s.gathered ++ [f] ∧ f.code = 0x0100 + code ∧ f.kind = 1 ∧ f.index = (t : Nat))

/-- When the mover's head descriptor may start and is read without error: in STRIDED, GATHER and SCATTER mode, if it is well formed,
moves between 1 and 2^40 - 1 bytes, passes the bound, permission and overlap checks, and its arrival (if enabled) goes to a SHELF
buffer, the mover is BUSY with that descriptor, its late values and buffer descriptors read, no byte moved, and nothing else
changes. If it is malformed it ends ILLEGAL; if a check fails it ends with that check's status; in both cases no byte of memory
changes. If its slot or one of its buffer descriptors holds an uncorrectable error, it ends ENGINE_FAULT. (R39, R45, R50, R53,
R55, R57, R222, R619) -/
def Obligations.MoverStartsAndEndsItsChecks : Prop :=
  ∀ (t : TileId) (s : State) (x : Slot) (r : Run), s.startable t 2 = some x → hOp x.desc = 1 →
    r = s.newRun t x (s.lateValues t x.desc moverLate) (mBufs x.desc) s.sdNum →
    (x.bad = false → NoArrayErrors s t → r.mIllegal = false → 0 < r.mTotal → r.mTotal < 2 ^ 40 →
      s.checkExtents t r r.mExtents (r.mOverlap && !(decide (mMode r.desc = 0) && decide (r.mCount1 = 1) && decide (r.mCount2 = 1))) = none →
      (mArrEn r.desc → bKind (r.buf (mDstBuf r.desc)) = 1) →
      ∃ u v, (mMode x.desc = 0 → exec (.moverStrided t) s = .next u) ∧ (mMode x.desc = 1 → exec (.moverGather t) s = .next u) ∧
        (mMode x.desc = 2 → exec (.moverScatter t) s = .next u) ∧ u.on (qBusy t 2) ∧
        (u.tile t).eng2.run = some { r with destKind := if mArrEn r.desc then 1 else 0 } ∧
        OnlyRegs [tileReg t 0x38] (s.setTile t v) u ∧ v = { s.tile t with eng2 := v.eng2 } ∧ v.eng2.owned = (s.tile t).eng2.owned) ∧
    ((s.startRead t x (mBufs x.desc)).1 = true → ∃ u, (mMode x.desc ≠ 1 ∧ mMode x.desc ≠ 2 → exec (.moverStrided t) s = .next u) ∧
      (mMode x.desc = 1 → exec (.moverGather t) s = .next u) ∧ (mMode x.desc = 2 → exec (.moverScatter t) s = .next u) ∧
      (u.tile t).eng2.run = some { r with ended := some stENGINE } ∧ u.shelf = s.shelf ∧ u.cellar = s.cellar ∧ u.incs = s.incs) ∧
    ∀ st : Nat, x.bad = false → NoArrayErrors s t → (r.mIllegal ∧ st = stILLEGAL ∨ r.mIllegal = false ∧ 0 < r.mTotal ∧ r.mTotal < 2 ^ 40 ∧
        s.checkExtents t r r.mExtents (r.mOverlap && !(decide (mMode r.desc = 0) && decide (r.mCount1 = 1) && decide (r.mCount2 = 1))) = some st) →
      ∃ u, (mMode x.desc ≠ 1 ∧ mMode x.desc ≠ 2 → exec (.moverStrided t) s = .next u) ∧
        (mMode x.desc = 1 → exec (.moverGather t) s = .next u) ∧ (mMode x.desc = 2 → exec (.moverScatter t) s = .next u) ∧
        (u.tile t).eng2.run = some { r with ended := some st } ∧ u.shelf = s.shelf ∧ u.cellar = s.cellar ∧ u.incs = s.incs

/-- For a STRIDED transfer between SHELF buffers, MOVER_CHUNK_ISSUE reads the next chunk of the transfer order, keeps its bytes and
their CRC-32C in flight and advances the position, changing no byte. CHUNK_ARRIVAL of a chunk for the tile's own scratch whose CRC
checks writes its bytes at consecutive scratch offsets from its destination and changes no other shelf byte; DONE bytes grow by
its length, and the last chunk ends the descriptor DONE. In throughput mode a chunk whose CRC fails lands without a check of its
own, and the last one's arrival then ends the transfer with CRC and no byte done. Otherwise a chunk whose CRC fails ends it with
CRC, and no increment is sent while the later ones in flight go to shelves. (R58, R59, R61, R62, R201, R588) -/
def Obligations.MoverChunksCarryTheirBytes : Prop :=
  (∀ (t : TileId) (s s1 : State) (r : Run) (bs : List Byte), (s.tile t).eng2.run = some r → r.ended = none → r.stop = none →
    r.flush = none → r.pos < r.mTotal → (∀ c ∈ r.flight, c.fail = none) → hOp r.desc = 1 → s.tileLive t → mMode r.desc = 0 → bKind (r.buf (mSrcBuf r.desc)) = 1 →
    bKind (r.buf (mDstBuf r.desc)) = 1 → (mArrEn r.desc → r.destKind = 1) →
    s.scratchRead t (bBase (r.buf (mSrcBuf r.desc)) + (r.mCut r.idx).1) (r.mCut r.idx).2.2 = (.ok bs, s1) →
      ∃ u c, exec (.moverChunkIssue t) s = .next u ∧
        (u.tile t).eng2.run = some { r with pos := r.pos + (r.mCut r.idx).2.2, flight := r.flight ++ [c] } ∧
        c.data = bs ∧ c.crc = crc32c bs ∧ c.pos = r.pos ∧ c.len = (r.mCut r.idx).2.2 ∧
        c.dst = .shelf t (bBase (r.buf (mDstBuf r.desc)) + (r.mCut r.idx).2.1) ∧
        c.last = decide (r.pos + (r.mCut r.idx).2.2 = r.mTotal) ∧ u.shelf = s.shelf ∧ u.cellar = s.cellar) ∧
  ∀ (t : TileId) (s : State) (r : Run) (c : Chunk) (rest : List Chunk) (off : Nat), (s.tile t).eng2.run = some r →
    r.ended = none → r.flight = c :: rest → c.unsent = false → c.waitTag = none → c.fail = none → c.win = none →
    c.dst = .shelf t off → c.own → c.data.length = c.len → r.bad = false →
    (∃ u r', exec (.chunkArrival t true) s = .next u ∧ (u.tile t).eng2.run = some r' ∧ r'.flight = rest ∧
      r'.done = r.done + c.len ∧ r'.crc = crc32cUpd r.crc c.data ∧ (c.last → r'.ended = some stDONE) ∧
      (∀ i k, i < c.len → s.scratchKey t (off + i) = some k → readByte u.shelf k = c.data.getD i 0#8) ∧
      (∀ k, (∀ i < c.len, s.scratchKey t (off + i) ≠ some k) → readByte u.shelf k = readByte s.shelf k) ∧ u.cellar = s.cellar) ∧
    (s.throughput → ∃ u r', exec (.chunkArrival t false) s = .next u ∧ (u.tile t).eng2.run = some r' ∧ r'.bad ∧ u.incs = s.incs ∧
      (c.last → r'.ended = some stCRC ∧ r'.done = 0) ∧ (c.last = false → r'.flight = rest ∧ r'.done = r.done + c.len)) ∧
    (s.throughput = false → (∀ x ∈ rest, ∃ v o, x.dst = .shelf v o) → ∃ u r', exec (.chunkArrival t false) s = .next u ∧ (u.tile t).eng2.run = some r' ∧ r'.ended = some stCRC ∧ r'.done = r.done ∧
      u.incs = s.incs)

/-- When a well-formed maintenance descriptor at the head of the mover queue may start, is read without error and passes its checks,
the mover is BUSY with it and no byte has changed: CLEAN, INVALIDATE and CLEAN_INV of a SHELF buffer are then done; any other acts
line by line (that the commands come one per line is the model's choice, log entry 58). A step of ZERO of a SHELF buffer leaves
zero in the next line that its range touches and changes no other shelf byte. A step under ALL takes the next line of the way
order: INVALIDATE leaves it invalid and changes no byte; CLEAN and CLEAN_INV leave it neither dirty nor partial once its write-
back is taken; WIPE leaves it zero and invalid and changes no other shelf byte. The byte count grows with each line, and the last
one ends the descriptor DONE. (R43, R212, R213, R216, 07_shelves.md Table 7.3) -/
def Obligations.ShelfMaintenanceActsOnLinesAndScratch : Prop :=
  (∀ (t : TileId) (s : State) (x : Slot) (r : Run), s.startable t 2 = some x → hOp x.desc = 2 → x.bad = false → NoArrayErrors s t →
    r = s.newRun t x (s.lateValues t x.desc maintLate) (if xAll x.desc then [] else [xBuf x.desc]) s.sdNum → r.xIllegal = false →
    (xAll x.desc = false → r.extentIn ⟨xBuf x.desc, r.xOff, (r.xOff + r.xLength : Nat), false, decide (xAction x.desc ≠ 1)⟩ ∧
      s.extentAllowed t r ⟨xBuf x.desc, r.xOff, (r.xOff + r.xLength : Nat), false, decide (xAction x.desc ≠ 1)⟩ ∧
      (xAction x.desc = 1 → bRd (r.buf (xBuf x.desc)) || bWr (r.buf (xBuf x.desc)))) →
    ∃ u, (xAction x.desc = 0 → exec (.shelfZero t) s = .next u) ∧ (xAction x.desc = 1 → exec (.shelfClean t) s = .next u) ∧
      (xAction x.desc = 2 → exec (.shelfInvalidate t) s = .next u) ∧ (xAction x.desc = 3 → exec (.shelfCleanInv t) s = .next u) ∧
      (xAction x.desc = 4 → exec (.shelfWipe t) s = .next u) ∧ u.on (qBusy t 2) ∧ u.shelf = s.shelf ∧ u.cellar = s.cellar ∧
      (u.tile t).lines = (s.tile t).lines ∧
      (xAll x.desc = false → bKind (r.buf (xBuf x.desc)) = 1 → xAction x.desc ≠ 0 →
        (u.tile t).eng2.run = some { r with done := r.xLength, ended := some stDONE }) ∧
      (xAll x.desc = false → (bKind (r.buf (xBuf x.desc)) = 2 ∨ xAction x.desc = 0) → 0 < r.xLength → (u.tile t).eng2.run = some r) ∧
      (xAll x.desc → nextLine (s.maintWays t (xAction x.desc)) 0 ≠ none → (u.tile t).eng2.run = some r)) ∧
  (∀ (t : TileId) (s : State) (r : Run) (m o : Nat), (s.tile t).eng2.run = some r → r.ended = none → r.flush = none → hOp r.desc = 2 →
    s.tileLive t → xAll r.desc = false → xAction r.desc = 0 → bKind (r.buf (xBuf r.desc)) = 1 → r.pos < r.xLength →
    o = bBase (r.buf (xBuf r.desc)) + r.xOff + r.pos → m = min (r.xLength - r.pos) (128 - o % 128) →
    ∃ u, exec (.shelfZero t) s = .next u ∧ u.cellar = s.cellar ∧
      (u.tile t).eng2.run = some { r with
        pos := r.pos + m, done := r.pos + m, idx := [0],
        ended := if r.xLength ≤ r.pos + m then some stDONE else none } ∧
      (∀ i < 128, ∀ k, s.scratchKey t (o / 128 * 128 + i) = some k → readByte u.shelf k = 0#8) ∧
      ∀ k, (∀ i < 128, s.scratchKey t (o / 128 * 128 + i) ≠ some k) → readByte u.shelf k = readByte s.shelf k) ∧
  ∀ (t : TileId) (s : State) (r : Run) (p : Nat), (s.tile t).eng2.run = some r → r.ended = none → r.flush = none → hOp r.desc = 2 →
    s.tileLive t → xAll r.desc → nextLine (s.maintWays t (xAction r.desc)) r.pos = some p →
    (xAction r.desc = 2 → ∃ u e, exec (.shelfInvalidate t) s = .next u ∧ u.shelf = s.shelf ∧ u.cellar = s.cellar ∧
      u.line t (p % 12) (p / 12) = Line.none ∧
      (u.tile t).eng2.run = some { r with pos := p + 1, done := r.done + 128, ended := e } ∧
      (e = some stDONE ↔ nextLine (s.cacheWays t) (p + 1) = none) ∧ (e ≠ some stDONE → e = none)) ∧
    ((xAction r.desc = 1 ∨ xAction r.desc = 3) → (s.actLine t (p % 12) (p / 12) (xAction r.desc)).1 ≠ stWAIT →
      ∃ u e, (xAction r.desc = 1 → exec (.shelfClean t) s = .next u) ∧ (xAction r.desc = 3 → exec (.shelfCleanInv t) s = .next u) ∧
        (u.line t (p % 12) (p / 12)).st ≠ .dirty ∧ (u.line t (p % 12) (p / 12)).st ≠ .part ∧
        (u.tile t).eng2.run = some { r with pos := p + 1, done := r.done + 128, ended := e }) ∧
    (xAction r.desc = 4 → ∃ u e, exec (.shelfWipe t) s = .next u ∧ u.cellar = s.cellar ∧ u.line t (p % 12) (p / 12) = Line.none ∧
      (∀ i < 128, readByte u.shelf (shelfKey t (p % 12) (p / 12) 0 + i) = 0#8) ∧
      (∀ k, (∀ i < 128, k ≠ shelfKey t (p % 12) (p / 12) 0 + i) → readByte u.shelf k = readByte s.shelf k) ∧
      (u.tile t).eng2.run = some { r with pos := p + 1, done := r.done + 128, ended := e } ∧
      (e = some stDONE ↔ nextLine (s.enabledWays t) (p + 1) = none) ∧ (e ≠ some stDONE → e = none))

/-- When the matrix queue's head descriptor may start, is well formed, has every buffer in the tile's scratch, no escapes and no
RESCUE policy, its records are accepted and its extents pass their checks, no array word is in error and no residue mismatch is
met: MATRIX leaves the engine BUSY with the descriptor ended DONE, DONE counting all M x N outputs, its summary ready for
CRATE.MSUM, and no shelf byte outside the extents it writes changed, nor any cellar byte. (R115, R119, R128, R139, R619) -/
def Obligations.MatrixDescriptorRunsToDone : Prop :=
  ∀ (t : TileId) (s : State) (sl : Slot) (r : Run) (x : MX) (q : MRec), s.startable t 0 = some sl → sl.bad = false →
    r = s.newRun t sl (s.lateValues t sl.desc matrixLate) (matrixBufs sl.desc) s.sdNum → mxOf r = some x →
    (r.bufs.all fun b => bValid b.2) → (s.mxRecords t r x).1 = .ok q → s.mxCheck t r x q = none → AllShelf r → NoArrayErrors s t →
    xEscEn sl.desc = false → xRescue sl.desc = false →
      ∃ u r', exec (.matrix t none) s = .next u ∧ (u.tile t).eng0.run = some r' ∧ r'.ended = some stDONE ∧ r'.desc = sl.desc ∧
        r'.done = x.m * x.n ∧ r'.post.map Prod.fst = [0, 4, 8, 12].map (hubReg t 0x800 16 + ·) ∧ u.on (qBusy t 0) ∧
        (u.tile t).eng0.owned = (s.tile t).eng0.owned ∧ u.cellar = s.cellar ∧
        ∀ k, (∀ e : Extent, e ∈ mxMeta sl.desc x q ∨
            e = rowsExtent (xCBuf sl.desc) x.cOff x.m x.ldc (x.fc.bytes x.n) (xCinit sl.desc) true →
            e.writes → OutsideExtent s t r e k) → readByte u.shelf k = readByte s.shelf k

/-- When the vector queue's head descriptor has an operation's code, may start, is well formed with a non-empty nest, has every buffer
in the tile's scratch, no carry, no segments and no RESCUE policy, its output record (of a CVTQ) is accepted and its extents pass
their checks, and no array word is in error: that operation's command leaves the engine BUSY with the descriptor ended DONE, DONE
counting the results of every row (one each for a reduction, K for TOPK, none for MEASURE), and no shelf byte outside the extents
it writes changed, nor any cellar byte. (R170, R175, R179, R181, R182, R183, R184, R185, R186, R187, R197, R619) -/
def Obligations.VectorDescriptorRunsToDone : Prop :=
  ∀ p ∈ vectorRows, ∀ (t : TileId) (s : State) (sl : Slot) (l : BitVec 512) (r : Run) (x : VX), s.startable t 1 = some sl →
    sl.bad = false → hOp sl.desc = p.1 → (s.vLoop t sl.desc).1 = .ok l →
    r = { s.newRun t sl (s.lateValues t sl.desc vectorLate) [] s.sdNum with
      loop := l, bufs := (x.bufs sl.desc).map fun n => (n, s.bufDesc t n) } → vxOf r = some x →
    s.vCarryBad t sl.desc x = false → (r.bufs.all fun b => bValid b.2) → x.n0 ≠ 0 → x.rows ≠ 0 →
    (∃ o, (s.vOutRec t r x).1 = .ok o) → s.vCheck t r x = none → x.cin sl.desc = 0 → x.cout sl.desc = 0 →
    vPolicy sl.desc ≠ 2 → vSegMode sl.desc = 0 → AllShelf r → NoArrayErrors s t →
      ∃ u r', exec (p.2 t) s = .next u ∧ (u.tile t).eng1.run = some r' ∧ r'.ended = some stDONE ∧ r'.desc = sl.desc ∧
        r'.done = x.rows * x.perRow sl.desc ∧ u.on (qBusy t 1) ∧ (u.tile t).eng1.owned = (s.tile t).eng1.owned ∧ u.cellar = s.cellar ∧
        ∀ k, (∀ e ∈ x.zExt sl.desc :: x.yExt sl.desc :: x.qExts sl.desc, e.writes → OutsideExtent s t r e k) →
          readByte u.shelf k = readByte s.shelf k

/-- For every lane operation, every row of X, Y and Z values and every element of it, the result is the operation's exact result on
that element's own operands (saturated to INT32 in the integer classes), whatever the other elements are: x + y, x - y, x times y,
the larger, the smaller, x times y + z, x times s + y, x times s + s2, the absolute value, the negation, or a comparison as 1 or
0, with a NaN operand of a comparison giving 0. (R96, R181, R182, 06_vector_engine.md Table 6.3) -/
def Obligations.LaneOperationsActElementByElement : Prop :=
  ∀ (op : Nat) (int : Bool) (a b : Machine.Num) (xs ys zs : List Machine.Num) (fl : Fl),
    (laneRow op int a b xs ys zs fl).1.length = xs.length ∧
    ∀ i < xs.length, ∃ x y z v : Machine.Num, xs[i]? = some x ∧ y = (ys[i]?).getD Machine.Num.zero ∧ z = (zs[i]?).getD Machine.Num.zero ∧
      (laneRow op int a b xs ys zs fl).1[i]? = some (if int then (satInt32 v.toInt Fl.clear).1 else v) ∧
      (op = 0x22 → v = (addNum x y Fl.clear).1) ∧ (op = 0x23 → v = (addNum x y.neg Fl.clear).1) ∧
      (op = 0x24 → v = (mulNum x y Fl.clear).1) ∧
      (op = 0x25 → x.isNan = false → y.isNan = false → v = if x.lt y then y else x) ∧
      (op = 0x26 → x.isNan = false → y.isNan = false → v = if y.lt x then y else x) ∧
      (op = 0x27 → v = (addNum (mulNum x y Fl.clear).1 z Fl.clear).1) ∧
      (op = 0x28 → v = (addNum (mulNum x a Fl.clear).1 y Fl.clear).1) ∧
      (op = 0x29 → v = (addNum (mulNum x a Fl.clear).1 b Fl.clear).1) ∧ (op = 0x2A → v = x.abs) ∧ (op = 0x2B → v = x.neg) ∧
      (op = 0x2C → v = if x.isNan || y.isNan then Machine.Num.zero else Machine.Num.ofInt (b2n (x.gt y))) ∧
      (op = 0x2D → v = if x.isNan || y.isNan then Machine.Num.zero else Machine.Num.ofInt (b2n (x.numEq y))) ∧
      (op = 0x2E → v = if x.isNan || a.isNan then Machine.Num.zero else Machine.Num.ofInt (b2n (x.gt a)))

/-- A matrix run in RESCUE whose derived scale does not exist, and whose output record lies in scratch, ends DONE with the first
pass's outputs as they are. A waiting scan or reduction over scratch with no carry-out takes the oldest carry of its chain link:
one of its own kind and operation ends it DONE; a BROKEN one, or one of another kind, ends it ENGINE_FAULT. A wait for the chain
longer than TIMEOUT ends it ENGINE_FAULT with the fault 0x0116. At a frame boundary the limit k that the governor set takes
effect, and the tile-cycles held are counted: at most 16 − k, for the k in force until then, for each tile with matrix work.
(R136, R164, R191, R193, R194, 05_quantisation.md Table 5.4) -/
def Obligations.RescueAndCarriesEndTheirDescriptors : Prop :=
  (∀ (t : TileId) (s : State) (r : Run) (x : MX) (sc zp so sb amax qc qf fb reason : Nat), (s.tile t).eng0.run = some r →
    r.phase = .rescue sc zp so sb amax qc qf fb → r.ended = none → s.tileLive t → mxOf r = some x →
    rescueScale x.fc amax sc = .error reason → bKind (r.buf (xQBuf r.desc)) = 1 →
    bBase (r.buf (xQBuf r.desc)) + xCQoff r.desc + 32 ≤ s.scratchEnd t →
      ∃ u r', exec (.rescueSecondPass t 0) s = .next u ∧ (u.tile t).eng0.run = some r' ∧ r'.ended = some stDONE ∧
        r'.done = x.m * x.n ∧ u.cellar = s.cellar ∧
        ∀ k, (∀ i < 32, s.scratchKey t (bBase (r.buf (xQBuf r.desc)) + xCQoff r.desc + i) ≠ some k) → readByte u.shelf k = readByte s.shelf k) ∧
  (∀ (t : TileId) (s : State) (r : Run) (x : VX) (w : CarryWait) (k : Carry) (ks : List Carry), (s.tile t).eng1.run = some r →
    r.phase = .carry w → vxOf r = some x → r.ended = none → s.tileLive t → w.out = none → w.code = stDONE → x.cin r.desc = 1 →
    x.cout r.desc = 0 → s.link (t / 64) (t % 64) = k :: ks →
    (k.kind = carryKind x.acc → k.opc = carryOpc x.op → k.rsv = false → k.broken = false → bKind (r.buf (vZBuf r.desc)) = 1 →
      s.extentAllowed t r (x.zExt r.desc) → r.extentIn (x.zExt r.desc) → x.n0 ≠ 0 → x.rows ≠ 0 →
      w.locals.length ≤ (if x.kind = .reduce then 1 else x.n0 * x.rows) →
      ∃ u r', exec (.carryInArrival t) s = .next u ∧ (u.tile t).eng1.run = some r' ∧ r'.ended = some stDONE ∧ r'.done = w.n ∧
        u.link (t / 64) (t % 64) = ks) ∧
    ((k.kind ≠ carryKind x.acc ∨ k.opc ≠ carryOpc x.op ∨ k.rsv ∨ k.broken) →
      ∃ u r', exec (.carryInArrival t) s = .next u ∧ (u.tile t).eng1.run = some r' ∧ r'.ended = some stENGINE ∧
        u.link (t / 64) (t % 64) = ks ∧ u.shelf = s.shelf)) ∧
  (∀ (t : TileId) (s : State) (r : Run) (x : VX) (w : CarryWait), (s.tile t).eng1.run = some r → r.phase = .carry w →
    vxOf r = some x → r.ended = none → w.out = none → x.cin r.desc = 1 → x.cout r.desc = 0 → s.rd (scanTimeout (t / 64)) ≠ 0 →
      ∃ u r' f, exec (.chainTimeout t) s = .next u ∧ (u.tile t).eng1.run = some r' ∧ r'.ended = some stENGINE ∧
        u.gathered = s.gathered ++ [f] ∧ f.code = 0x0116 ∧ f.index = (t : Nat) ∧ u.shelf = s.shelf) ∧
  ∀ (c : CrateId) (held k : Nat) (s : State), s.crateRuns c → (s.crate c).pendK = some k → k < 32 →
      ∃ u v, exec (.issueFrameBoundary c held) s = .next u ∧ u.rd (issueK c) = k ∧
        u.rd (issueStall c) = (s.rd (issueStall c) + min held (s.heldMost c)) % 2 ^ 32 ∧ u.on (issueLowest c) = s.on govLowest ∧
        OnlyRegs [crateReg c 0x10, crateReg c 0x14] (s.setCrate c v) u ∧ v = { s.crate c with pendK := none }

/-- The n-th carry record on its way leaves the list when it arrives, unless a seam takeover holds it; one for a shelf that takes it
whole increments its tally; one that fails its CRC increments nothing, and its sender's descriptor, which had ended DONE, ends
CRC_ERROR (log entry 33). A permitted write of CRATE.SCAN_MASK sets the mask when no chained descriptor runs in the crate and no
carry waits on its links, and else only sets REFUSED. A permitted write of CRATE.LFSR sets the state to its low 16 bits, and a
zero is ignored. (R100, R192, R195) -/
def Obligations.CarryRecordsAndChainRegisters : Prop :=
  (∀ (n : Nat) (s s1 : State) (k : CarryRec) (u off vp : Nat), s.carryRecs[n]? = some k → k.parts = [⟨.shelf u off, none, vp, k.bytes.length⟩] →
    s.recordHeld k = false →
    (({ s with carryRecs := s.carryRecs.eraseIdx n } : State).apertureWrite u off k.bytes = (0, s1) →
      ∃ v, exec (.carryRecordArrival n true) s = .next v ∧ v.carryRecs = s.carryRecs.eraseIdx n ∧
        v.incs = s.incs ++ (match k.tally with
          | some a => [⟨a, some u, 1, 1, k.sender, u / 6144⟩]
          | none => []) ∧ v.shelf = s1.shelf) ∧
    ∃ v, exec (.carryRecordArrival n false) s = .next v ∧ v.carryRecs = s.carryRecs.eraseIdx n ∧ v.incs = s.incs ∧
      ∀ r, (s.tile k.sender).eng1.run = some r → r.ended = some stDONE →
        ∃ r', (v.tile k.sender).eng1.run = some r' ∧ r'.ended = some stCRC) ∧
  (∀ (src : Src) (c : CrateId) (v : BitVec 64) (s : State), s.mayWrite src (crateReg c 0x20) → s.crateRuns c →
    (s.chainBusy c = false → ∃ u, exec (.scanMaskWrite src c v) s = .next u ∧ u.reg64 (crateReg c 0x20) = v.toNat ∧
      OnlyRegs [crateReg c 0x20, crateReg c 0x24] ((s.unheld src.unit).setCrate c { s.crate c with skips := [] }) u) ∧
    (s.chainBusy c → exec (.scanMaskWrite src c v) s = .next ((s.unheld src.unit).wr (scanRefused c) 1))) ∧
  ∀ (src : Src) (t : TileId) (w : BitVec 32) (s : State), s.mayWrite src (hubReg t 0x400 4) → s.crateRuns (t / 64) →
    (w.toNat % 65536 ≠ 0 → ∃ u, exec (.lfsrWrite src t w) s = .next u ∧ u.rd (lfsrFld t) = w.toNat % 65536 ∧
      OnlyRegs [hubReg t 0x400 4] (s.unheld src.unit) u) ∧
    (w.toNat % 65536 = 0 → exec (.lfsrWrite src t w) s = .next (s.unheld src.unit))

/-- A permitted write of CRATE.SHELF_CFG[t] of a shelf that answers: SCRUB takes bit 10 and REFUSED is cleared by bit 9, whatever LOCK
says. A LOCK equal to the one in force changes nothing else. Another LOCK is accepted while the tile is held, BUSY is 0 and it
does not exceed the enabled ways: BUSY is set and the change is pending; otherwise REFUSED is set and the LOCK in force stays. No
byte and no line changes, and the write no longer waits at a crossing if it did. (R202) -/
def Obligations.LockWritesAreAcceptedOrRefused : Prop :=
  ∀ (src : Src) (t : TileId) (w : BitVec 32) (s : State), s.mayWrite src (hubReg t 0xC00 16) → s.shelfLive t →
    (w.toNat % 16 = s.rd (shLock t) → ∃ u, exec (.shelfLockWrite src t w) s = .next u ∧ u.rd (shLock t) = s.rd (shLock t) ∧
      u.on (shScrub t) = w.getLsbD 10 ∧ u.on (shRefused t) = (s.on (shRefused t) && !w.getLsbD 9) ∧
      u.on (shBusy t) = s.on (shBusy t) ∧ OnlyRegs [hubReg t 0xC00 16] (s.unheld src.unit) u) ∧
    (w.toNat % 16 ≠ s.rd (shLock t) → s.on (tHold t) → s.on (shBusy t) = false → w.toNat % 16 ≤ (s.enabledWays t).length →
      ∃ u, exec (.shelfLockWrite src t w) s = .next u ∧ u.rd (shLock t) = s.rd (shLock t) ∧ u.on (shBusy t) ∧
        u.on (shScrub t) = w.getLsbD 10 ∧ u.on (shRefused t) = (s.on (shRefused t) && !w.getLsbD 9) ∧
        OnlyRegs [hubReg t 0xC00 16] ((s.unheld src.unit).setTile t { s.tile t with lockNew := some (w.toNat % 16) }) u) ∧
    (w.toNat % 16 ≠ s.rd (shLock t) → (s.on (tHold t) = false ∨ s.on (shBusy t) ∨ (s.enabledWays t).length < w.toNat % 16) →
      ∃ u, exec (.shelfLockWrite src t w) s = .next u ∧ u.rd (shLock t) = s.rd (shLock t) ∧ u.on (shRefused t) ∧
        u.on (shScrub t) = w.getLsbD 10 ∧ u.on (shBusy t) = s.on (shBusy t) ∧ OnlyRegs [hubReg t 0xC00 16] (s.unheld src.unit) u)

/-- When an accepted LOCK write completes, no disable under way and its write-backs taken: the first n enabled ways are scratch, LOCK
is n, BUSY is 0, every way that changed role is zero with Invalid lines, and no other shelf byte changed. A due disable of a cache
way starts (one due to corrected errors only while no line is held) and, its write-backs taken, leaves the way empty, its DISABLED
bit set and the fault 0x0202 raised and logged. A line that a load waits for, in no way being disabled, is installed Clean, or
merged under the written bytes of a Partial line, which becomes Dirty. An ECC window that closes, at a crate whose clock runs, has
count 0. (R201, R203, R205, R219, R220, 07_shelves.md Table 7.1) -/
def Obligations.ShelfChangesEmptyTheirWays : Prop :=
  (∀ (t : TileId) (s : State) (n : Nat), (s.tile t).lockNew = some n → n ≤ 12 → s.shelfLive t →
    (∀ w ∈ s.enabledWays t, s.disabling t w = false) → (roleWriteBacks s t n).1 ≠ stWAIT →
    ∃ u, exec (.shelfLockComplete t) s = .next u ∧ u.rd (shLock t) = n ∧ u.on (shBusy t) = false ∧ (u.tile t).lockNew = none ∧
      (∀ w < 12, u.isScratchWay t w ↔ w ∈ (s.enabledWays t).take n) ∧ (∀ w ∈ roleChanges s t n, WayEmpty u t w) ∧
      ∀ k, (∀ w ∈ roleChanges s t n, k < shelfKey t w 0 0 ∨ shelfKey t w 0 0 + 16384 ≤ k) → readByte u.shelf k = readByte s.shelf k) ∧
  (∀ (t : TileId) (w : Fin 12) (s : State), s.shelfLive t → s.isScratchWay t w = false →
    (lookMap 0 (s.tile t).wayDis w = 2 ∨ lookMap 0 (s.tile t).wayDis w = 1 ∧ ∀ st < 128, (s.line t w st).held = false) →
      ∃ u, exec (.shelfWayDisable t w) s = .next u ∧ u.disabling t w ∧
        u = s.setTile t { s.tile t with wayDis := (u.tile t).wayDis }) ∧
  (∀ (t : TileId) (w : Fin 12) (s : State), s.shelfLive t → s.disabling t w → (s.writeBackWay t w).1 ≠ stWAIT →
    ∃ u f, exec (.shelfWayDisableComplete t w) s = .next u ∧ bitAt (u.rd (shDisabled t)) w ∧ u.disabling t w = false ∧
      WayEmpty u t w ∧ u.gathered = (s.writeBackWay t w).2.gathered ++ [f] ∧ f.code = 0x0202 ∧ f.kind = 1 ∧ f.index = (t : Nat) ∧
      bitAt f.flags 1 ∧ u.cellar = (s.writeBackWay t w).2.cellar) ∧
  (∀ (t : TileId) (s s1 s2 : State) (pline vpage : Nat) (bs : List Byte), (s.tile t).fill = some (pline, vpage) → s.shelfLive t →
    s1 = s.setTile t { s.tile t with fill := none } → bs.length = 128 →
    (∀ w, s1.lookup t pline = none → s1.fetchLine t pline vpage = (.ok bs, s2) → (s1.allocate t (setOf pline)).2.1 = some w →
      exec (.shelfFillComplete t) s = .next s2 ∧ w ∈ s1.victims t (setOf pline) ∧
        s2.line t w (setOf pline) = ⟨.clean, pline, vpage, 0#128, false⟩ ∧ s2.lineBytes t w (setOf pline) = bs) ∧
    ∀ w, s1.lookup t pline = some w → s1.disabling t w = false → (s1.line t w (setOf pline)).st = .part → s1.tileHomeRead t (128 * pline) 128 = (.ok bs, s2) →
      ∃ u, exec (.shelfFillComplete t) s = .next u ∧ (u.line t w (setOf pline)).st = .dirty ∧
        ∀ i < 128, (u.lineBytes t w (setOf pline))[i]? =
          if (s2.line t w (setOf pline)).mask.getLsbD i then (s2.lineBytes t w (setOf pline))[i]? else bs[i]?) ∧
  ∀ (t : TileId) (w : Fin 12) (s : State), s.shelfLive t → ∃ u, exec (.shelfEccWindowExpiry t w) s = .next u ∧ lookMap 0 (u.tile t).eccWin w = 0 ∧
    u = s.setTile t { s.tile t with eccWin := (u.tile t).eccWin }

/-- With SCRUB set, the scrub reads the next line of an enabled way. With no error it moves on and changes nothing else. One bad bit
is corrected and counted. Two in a scratch line are counted as uncorrectable, set the way's SCRATCH_FAILED bit and raise the step-
fatal fault 0x0203; two in an Invalid cache line are counted, and the way is disabled. An access through the aperture of a powered
shelf, whose crate is in the decode list with a good clock and no self-test, starts a clock stopped by request and ungates the
tile. A write within locked scratch stores its bytes; of those below 0x1000 of a released tile none, and the drop is counted; one
beyond it stores nothing, is counted and is answered without data. A read within it answers the bytes; one beyond it none, and is
counted. (R72, R217, R222, R225, R299, R36) -/
def Obligations.ScrubReadsFindArrayErrors : Prop :=
  (∀ (t : TileId) (s : State) (p : Nat), s.shelfLive t → s.on (shScrub t) → p = scrubFrom (s.enabledWays t) (s.tile t).scrub →
    NoArrayErrors s t → (s.tile t).scrub < 1536 →
    (exec (.shelfScrubRead t []) s = .next (s.setTile t { s.tile t with scrub := (p + 1) % 1536 })) ∧
    ∀ i, 16 * p ≤ i → i < 16 * p + 16 →
      (∃ u, exec (.shelfScrubRead t [(i, 1)]) s = .next u ∧ u.rd (shCorrected t) = min (s.rd (shCorrected t) + 1) 65535 ∧
        NoArrayErrors u t ∧ u.shelf = s.shelf ∧ u.rd (shUncorr t) = s.rd (shUncorr t)) ∧
      (s.isScratchWay t (p / 128) → ∃ u f, exec (.shelfScrubRead t [(i, 2)]) s = .next u ∧ bitAt (u.rd (shScrFailed t)) (p / 128) ∧
        u.rd (shUncorr t) = min (s.rd (shUncorr t) + 1) 15 ∧ u.gathered = s.gathered ++ [f] ∧ f.code = 0x0203 ∧ f.cls = 1 ∧
        f.index = (t : Nat) ∧ u.shelf = s.shelf) ∧
      (s.isScratchWay t (p / 128) = false → (s.line t (p / 128) (p % 128)).st = .invalid →
        ∃ u, exec (.shelfScrubRead t [(i, 2)]) s = .next u ∧ u.disabling t (p / 128) ∧
          u.rd (shUncorr t) = min (s.rd (shUncorr t) + 1) 15 ∧ u.shelf = s.shelf)) ∧
  ∀ (u : TileId) (off n : Nat) (bs : List Byte) (s r : State), ShelfAnswers s u → r = (s.arouse (64 + u / 64)).ungate u →
    (off + bs.length ≤ min 0x30000 (s.scratchEnd u) → (s.on (tHold u) ∨ 0x1000 ≤ off) →
      ∃ v, exec (.shelfApertureAccess u off (some bs) n) s = .next v ∧ v.answer = ⟨0, []⟩ ∧ v.regs = r.regs ∧ v.cellar = s.cellar ∧
        (∀ i k, i < bs.length → s.scratchKey u (off + i) = some k → readByte v.shelf k = bs.getD i 0#8) ∧
        ∀ k, (∀ i < bs.length, s.scratchKey u (off + i) ≠ some k) → readByte v.shelf k = readByte s.shelf k) ∧
    (off + bs.length ≤ min 0x30000 (s.scratchEnd u) → s.on (tHold u) = false → off < 0x1000 →
      ∃ v, exec (.shelfApertureAccess u off (some bs) n) s = .next v ∧ v.answer = ⟨0, []⟩ ∧ v.cellar = s.cellar ∧
        v.rd (apertureDrops (u / 64)) = min (s.rd (apertureDrops (u / 64)) + 1) (2 ^ 32 - 1) ∧
        (∀ i k, i < bs.length → 0x1000 ≤ off + i → s.scratchKey u (off + i) = some k → readByte v.shelf k = bs.getD i 0#8) ∧
        ∀ k, (∀ i < bs.length, 0x1000 ≤ off + i → s.scratchKey u (off + i) ≠ some k) → readByte v.shelf k = readByte s.shelf k) ∧
    (min 0x30000 (s.scratchEnd u) < off + bs.length →
      ∃ v, exec (.shelfApertureAccess u off (some bs) n) s = .next v ∧ v.answer = ⟨4, []⟩ ∧ v.shelf = s.shelf ∧ v.cellar = s.cellar ∧
        v.rd (apertureDrops (u / 64)) = min (s.rd (apertureDrops (u / 64)) + 1) (2 ^ 32 - 1)) ∧
    (off + n ≤ min 0x30000 (s.scratchEnd u) → NoArrayErrors s u →
      ∃ v, exec (.shelfApertureAccess u off none n) s = .next v ∧ v = { r with answer := v.answer } ∧ v.answer.status = 0 ∧
        v.answer.data.length = n ∧ ∀ i k, i < n → s.scratchKey u (off + i) = some k → v.answer.data[i]? = some (readByte s.shelf k)) ∧
    (min 0x30000 (s.scratchEnd u) < off + n →
      ∃ v, exec (.shelfApertureAccess u off none n) s = .next v ∧ v.answer = ⟨4, []⟩ ∧ v.shelf = s.shelf ∧ v.cellar = s.cellar ∧
        v.rd (apertureDrops (u / 64)) = min (s.rd (apertureDrops (u / 64)) + 1) (2 ^ 32 - 1))

/-- A tile with PARK set that is idle becomes PARKED (STATE 4 unless held), and the crate's limit becomes the lowest FMAX of its
unparked tiles. A tile whose PARK was cleared leaves park, where no droop response has frozen the crate's steps: the crate's PLL
is stepped down to the tile's FMAX by counted steps of at most 10 MHz if it is faster, and a released tile runs if it was released
or woken while parked, and is in WFI otherwise. An idle tile in WFI gates its clock. An off request sets OFF; a crate with one, of
software or of the governor, stops once its tiles are idle or parked and nothing is on its way; traffic wakes it with OFF still 1;
a lost clock raises 0x0205. A frequency step ends at its target, or lower where the limit or the setting has fallen since, but no
more than 10 MHz down, and the next one begins unless the setting is reached. (R65, R66, R67, R68, R70, R71, R72, R73) -/
def Obligations.ParkingAndCrateClocks : Prop :=
  (∀ (t : TileId) (s : State), s.tileLive t → s.on (tPark t) → s.on (tParked t) = false → s.tileIdle t →
    ∃ u, exec (.tilePark t) s = .next u ∧ u.on (tParked t) ∧ u.rd (tState t) = (if s.on (tHold t) then s.rd (tState t) else 4) ∧
      u.rd (crLimit (t / 64)) = u.crateLimit (t / 64) ∧ OnlyRegs [tileReg t 4, crateReg (t / 64) 0] s u) ∧
  (∀ (t : TileId) (s : State), s.tileLive t → s.on (tPark t) = false → s.on (tParked t) → (s.crate (t / 64)).frozen = false →
    ∃ u, exec (.tileUnpark t) s = .next u ∧ u.on (tParked t) = false ∧
      u.rd (tState t) = (if s.on (tHold t) then s.rd (tState t) else if (s.tile t).woken then 1 else 2) ∧
      u.rd (crLimit (t / 64)) = u.crateLimit (t / 64) ∧ u.cratePll (t / 64) ≤ s.rd (tFmax t) ∧
      ((s.crate (t / 64)).stepTo = none → s.on govLowest = false →
        u.rd (crCur (t / 64)) = min (s.rd (crCur (t / 64))) (s.rd (tFmax t)) ∧
        u.rd govFsteps = min (s.rd govFsteps + (s.rd (crCur (t / 64)) - s.rd (tFmax t) + 9) / 10) (2 ^ 32 - 1) ∧
        OnlyRegs [tileReg t 4, crateReg (t / 64) 0, 0x18018C] (s.setTile t { s.tile t with woken := false }) u)) ∧
  (∀ (t : TileId) (s : State), s.tileLive t → s.tileIdle t → s.rd (tState t) = 2 →
    ∃ u, exec (.tileClockGate t) s = .next u ∧ u.rd (tState t) = 3 ∧ OnlyRegs [tileReg t 4] s u) ∧
  (∀ (src : Src) (c : CrateId) (w : BitVec 32) (s : State), s.mayWrite src (crateReg c 0) → s.crateRuns c →
    ∃ u, exec (.crateClockOffRequest src c w) s = .next u ∧ u.on (crOff c) ∧ u.on (crateStopped c) = false ∧
      u.rd (crCur c) = s.rd (crCur c) ∧ OnlyRegs [crateReg c 0] (s.unheld src.unit) u) ∧
  (∀ (c : CrateId) (s : State), s.crateRuns c → (s.on (crOff c) ∨ (s.crate c).govOff) → s.crateTraffic c = false →
    (∀ i < 64, s.on (tParked (64 * c + i)) ∨ s.tileIdle (64 * c + i)) →
      ∃ u, exec (.crateClockStop c) s = .next u ∧ u.on (crateStopped c) ∧ OnlyRegs [crateReg c 0] s u) ∧
  (∀ (c : CrateId) (s : State), s.crateOn c → s.on (crateStopped c) → (s.crate c).clockLost = false →
    ∃ u, exec (.crateClockWake c) s = .next u ∧ u.on (crateStopped c) = false ∧ u.on (crOff c) = s.on (crOff c) ∧
      OnlyRegs [crateReg c 0] s u) ∧
  (∀ (c : CrateId) (s : State), s.crateOn c → (s.crate c).clockLost = false →
    ∃ u f, exec (.crateClockLost c) s = .next u ∧ u.crateRuns c = false ∧ u.gathered = s.gathered ++ [f] ∧ f.code = 0x0205 ∧
      f.cls = 1 ∧ f.kind = 2 ∧ f.index = (c : Nat) ∧
      u = { s.setCrate c { s.crate c with clockLost := true } with gathered := u.gathered }) ∧
  ∀ (c : CrateId) (s : State) (f g v : Nat), (s.crate c).stepTo = some f → (s.crate c).frozen = false → s.crateOn c →
    s.on govLowest = false → g = (if s.on (crThrottle c) then 700 else min (s.rd (crSet c)) (s.crateLimit c)) →
    v = max (s.rd (crCur c) - 10) (min f g) →
      ∃ u, exec (.frequencyStepComplete c) s = .next u ∧ u.rd (crCur c) = v ∧
        u.rd govFsteps = min (s.rd govFsteps + 1) (2 ^ 32 - 1) ∧
        (u.crate c).stepTo = (if v = g then none else some (if v < g then min (v + 10) g else max (v - 10) g)) ∧
        u.on (crStepping c) = decide (v ≠ g) ∧
        ∀ a, a ≠ crateReg c 0 → a ≠ 0x18018C → u.reg a = s.reg a

/-- A permitted write of an ADD register of a powered and clocked tally by a source of which no BAR2 write waits, a write of VALUE, a
TAKE, and the arrival of one increment or of several for one tally in one cycle: the tally takes the written value, the value less
1 (0 stays 0), or its value plus the sum; a sum outside 0 to 0xFFFF leaves it at the nearer bound with RANGE set and the fault
0x0300 of class 0, applied once to the sum. Inside, RANGE is as it was and no fault is raised. Nothing else changes, but that an
arrival ungates the tile of a tile tally and that a write no longer waits at a crossing if it did. (R226) -/
def Obligations.TallyChangesAreClamped : Prop :=
  (∀ (src : Src) (l : TallyLoc) (w : BitVec 32) (s : State), l.exists' → tallyWriter src l → s.tallyOn l → s.tallyClocked l →
    s.tallyWaits src = false →
    (∃ u, exec (.tallyValueWrite src l w) s = .next u ∧ u.rd l.value = w.toNat % 65536 ∧ u.rd l.gen = s.rd l.gen ∧
      OnlyRegs [l.value.a] (s.unheld src.unit) u) ∧
    ∃ u, exec (.tallyAdd src l w) s = .next u ∧ u.rd l.value = clamp16 (s.rd l.value + signed16 (w.toNat % 65536)) ∧
      u.rd l.gen = s.rd l.gen ∧
      (0 ≤ (s.rd l.value : Int) + signed16 (w.toNat % 65536) → (s.rd l.value : Int) + signed16 (w.toNat % 65536) ≤ 0xFFFF →
        OnlyRegs [l.value.a] (s.unheld src.unit) u) ∧
      (((s.rd l.value : Int) + signed16 (w.toNat % 65536) < 0 ∨ 0xFFFF < (s.rd l.value : Int) + signed16 (w.toNat % 65536)) →
        u.on l.range ∧ ∃ f, u.gathered = s.gathered ++ [f] ∧ f.code = 0x0300 ∧ f.cls = 0 ∧ (f.kind, f.index) = l.unit ∧
          OnlyRegs [l.value.a, l.range.a] { s.unheld src.unit with gathered := s.gathered ++ [f] } u)) ∧
  (∀ (t : TileId) (n : Fin 64) (s : State), s.tallyOn (.tile t n) → s.tallyClocked (.tile t n) →
    ∃ u, exec (.tallyTake t n) s = .next u ∧ u.answer = ⟨0, toBytes 4 (s.rd (TallyLoc.tile t n).value)⟩ ∧
      u.rd (TallyLoc.tile t n).value = s.rd (TallyLoc.tile t n).value - 1 ∧
      OnlyRegs [(TallyLoc.tile t n).value.a] { s with answer := u.answer } u) ∧
  ∀ (ps : List Nat) (s : State) (l : TallyLoc), (∃ p ∈ ps, p < s.incs.length) → s.tallyOn l → s.tallyClocked l →
    (∀ p i, p ∈ ps → s.incs[p]? = some i → i.loc = some l ∧ s.seamHolds i.die l.onDie = false) →
      ∃ u, exec (.tallyIncrementArrival ps) s = .next u ∧ u.incs = (takeAt ps s.incs).2 ∧
        u.rd l.value = clamp16 (s.rd l.value + ((takeAt ps s.incs).1.map Inc.amount).sum) ∧
        (0 ≤ (s.rd l.value : Int) + ((takeAt ps s.incs).1.map Inc.amount).sum →
          (s.rd l.value : Int) + ((takeAt ps s.incs).1.map Inc.amount).sum ≤ 0xFFFF →
          OnlyRegs (l.value.a :: wakeRegs l) { s with incs := u.incs } u) ∧
        (((s.rd l.value : Int) + ((takeAt ps s.incs).1.map Inc.amount).sum < 0 ∨
            0xFFFF < (s.rd l.value : Int) + ((takeAt ps s.incs).1.map Inc.amount).sum) →
          u.on l.range ∧ ∃ f, u.gathered = s.gathered ++ [f] ∧ f.code = 0x0300 ∧ f.cls = 0 ∧
            OnlyRegs (l.value.a :: l.range.a :: wakeRegs l) { s with incs := u.incs, gathered := s.gathered ++ [f] } u)

/-- A write of TILE_TLY.SEND of a running tile, none of whose stores through a hatch awaits its acceptance, puts one increment with
its signed amount, address and sender behind those on their way. An increment whose address is not valid is dropped on arrival,
counted in DROPPED, and raises 0x0301; one for a unit that is off is counted in ABSENT and raises 0x0302; one for a crate whose
clock does not run, or that crosses between dies while the control bundle of a seam on its way is under repair, retraining or
moving, stays where it is. A host port's write of a tally register waits while BAR2 writes of that port do. A permitted write of a
tally's configuration or of a member mask gives its RW bits the written values, clears the W1C bits written 1, and changes no
other word. (R72, R230, R231, R232, R233, R235, R236, R240) -/
def Obligations.IncrementsAreSentHeldOrDropped : Prop :=
  (∀ (t : TileId) (w : BitVec 32) (s : State), s.tileOn t → s.crateRuns (t / 64) → s.storesOut t = false →
    exec (.tallySend t w) s = .next { s with
      incs := s.incs ++ [⟨w.toNat % 65536, some t, signed16 (w.toNat / 65536), 2, t, t / 6144⟩] }) ∧
  (∀ (n : Nat) (s : State) (i : Inc), s.incs[n]? = some i →
    (i.loc = none → ∃ u f, exec (.tallyIncrementArrival [n]) s = .next u ∧ u.incs = s.incs.eraseIdx n ∧
      u.rd tlyDropped = min (s.rd tlyDropped + 1) (2 ^ 32 - 1) ∧ u.gathered = s.gathered ++ [f] ∧ f.code = 0x0301 ∧
      OnlyRegs [0x439000] { s with incs := u.incs, gathered := u.gathered } u) ∧
    (∀ l, i.loc = some l → s.tallyOn l = false → s.seamHolds i.die l.onDie = false → ∃ u f, exec (.tallyIncrementArrival [n]) s = .next u ∧
      u.incs = s.incs.eraseIdx n ∧ u.rd tlyAbsent = min (s.rd tlyAbsent + 1) (2 ^ 32 - 1) ∧ u.gathered = s.gathered ++ [f] ∧
      f.code = 0x0302 ∧ OnlyRegs [0x439004] { s with incs := u.incs, gathered := u.gathered } u) ∧
    ∀ l, i.loc = some l → (s.tallyOn l ∧ s.tallyClocked l = false ∨ ∃ d b, d ∈ [i.die, l.onDie] ∧ b ∈ hubBundles d ∧ i.die ≠ l.onDie ∧
        s.rd (seamRole b) = 1 ∧ 1 ≤ s.rd (seamState b) ∧ s.rd (seamState b) ≤ 3) → exec (.tallyIncrementArrival [n]) s = .next s) ∧
  (∀ (p : HostPortId) (l : TallyLoc) (w : BitVec 32) (s : State), l.exists' → tallyWriter (.hostPort p) l → s.tallyWaits (.hostPort p) →
    exec (.tallyAdd (.hostPort p) l w) s = .next { s with tallyQ := s.tallyQ ++ [((p : Nat), l.addReg, w)] } ∧
    exec (.tallyValueWrite (.hostPort p) l w) s = .next { s with tallyQ := s.tallyQ ++ [((p : Nat), l.value.a, w)] }) ∧
  ∀ (src : Src) (f : TallyCfg) (w : BitVec 32) (s : State) (a : Nat) (r : RegRow), f.addr = some a → f.owner.exists' →
    tallyWriter src f.owner → s.tallyOn f.owner → s.tallyClocked f.owner → regRow a = some r →
    s.tallyWaits src = false →
      ∃ u, exec (.tallyConfigWrite src f w) s = .next u ∧ OnlyRegs [a] (s.unheld src.unit) u ∧
        ∀ i < 32, (u.reg a).getLsbD i = if bitAt r.w1c i then (s.reg a).getLsbD i && !w.getLsbD i
          else if bitAt r.rw i then w.getLsbD i else (s.reg a).getLsbD i

/-- A crate, die or package tally of the package that is powered and clocked, with TARGET not 0 and VALUE at least TARGET, fires while
no plan runs: VALUE loses TARGET and GEN advances modulo 2^16. A crate tally with its tile fan enabled sends to the indexed tally
of each member tile; a die tally to each member crate that is on; a package tally to each enabled die that is powered, and a
SYNC_INC through each enabled port that is Up and whose fence passes the job, which waits while a control bundle holds it or its
channel has no credit. Every other register but the tally unit's counters, FENCE_DROPS and the fabric's TX_BYTES, and every byte
of memory, is unchanged. (R234, R236, R237, R240, R357, 08_tallies.md Table 8.3) -/
def Obligations.TalliesFireIntoTheirFans : Prop :=
  ∀ (l : TallyLoc) (s : State), l.exists' → s.canFire l → s.planRun = none →
    ∃ u, exec (.tallyFire l) s = .next u ∧ u.rd l.value = s.rd l.value - s.rd l.target ∧
      u.rd l.gen = (s.rd l.gen + 1) % 65536 ∧ SameMemory s u ∧
      (∀ a, a ≠ l.value.a → a < 0x439000 ∨ 0x439008 < a → (∀ p < 16, a ≠ (fenceDrops p).a) → (∀ v < 5, a ≠ levelTx v ∧ a ≠ levelTx v + 4) →
        u.reg a = s.reg a) ∧
      (∀ c n, l = .crate c n → s.rd ⟨crateReg c (0x1008 + 16 * n), 22, 1⟩ = 1 →
        ∀ t ∈ s.members (crateReg c (0x40 + 8 * s.rd ⟨crateReg c (0x1008 + 16 * n), 24, 3⟩)) 64,
          ⟨s.rd ⟨crateReg c (0x1008 + 16 * n), 16, 6⟩, some (64 * c + t), 1, 3, l.addr, l.onDie⟩ ∈ u.incs) ∧
      (∀ k n, l = .die k n → s.rd ⟨0x400004 + 0x8000 * k + 8 * n, 24, 1⟩ = 1 →
        ∀ c ∈ s.members (0x438000 + 0x80 * k + 16 * s.rd ⟨0x400004 + 0x8000 * k + 8 * n, 26, 3⟩) 96, s.crateOn (96 * k + c) →
          ⟨2 ^ 14 + s.rd ⟨0x400004 + 0x8000 * k + 8 * n, 16, 8⟩, some (64 * (96 * k + c)), 1, 3, l.addr, l.onDie⟩ ∈ u.incs) ∧
      ∀ n, l = .pkg n →
        (∀ k < 4, bitAt (s.rd ⟨0x430008 + 16 * n, 16, 4⟩) k → s.domPowered (16 + k) →
          ⟨2 ^ 15 + k * 2 ^ 12 + s.rd ⟨0x430004 + 16 * n, 16, 12⟩, none, 1, 3, l.addr, l.onDie⟩ ∈ u.incs) ∧
        ∀ p < 16, bitAt (s.rd ⟨0x430008 + 16 * n, 0, 16⟩) p → s.rd (fabState p) = 6 → s.fencePasses p 0 (s.rd jobId) →
          if s.legHeld (5 + p / 8) then (p, s.syncPacket p (s.rd ⟨0x43000C + 16 * n, 0, 10⟩) 1) ∈ u.syncHeld
          else if s.mayLeave ⟨p, none, s.syncPacket p (s.rd ⟨0x43000C + 16 * n, 0, 10⟩) 1⟩ then
            (p, s.syncPacket p (s.rd ⟨0x43000C + 16 * n, 0, 10⟩) 1) ∈ u.fabTx
          else ⟨p, none, s.syncPacket p (s.rd ⟨0x43000C + 16 * n, 0, 10⟩) 1⟩ ∈ u.fabWait

/-- A home accepts the first posted write of a plain line, whole or in part, whose hamper has room, while no tally write waits for it:
a read of the same bytes then answers them, whether they went to the stack or to a hamper entry, and every other byte of the
cellar is as it was. An entry's age limit flushes that line's entry and no other. A permitted write of HAMPER_CTL with FLUSH0 or
FLUSH1 sets that home's BUSY and covers the entries present, keeping their bytes; when the flush completes no covered entry is
left, the others are, and BUSY is 0. (R246, R249, R250, R252) -/
def Obligations.CellarReadsReturnWhatWasWritten : Prop :=
  (∀ (n : Nat) (s : State) (w : HomeWrite) (l : Loc), s.takeWrite n = some w → PlainLine s l w.a → w.a % 128 + w.bs.length ≤ 128 →
    (s.hamper l.home).length < 256 → s.tallyQ = [] →
      ∃ u v, exec (.cellarWrite n) s = .next u ∧ u.homeQ = s.homeQ.eraseIdx n ∧
        exec (.cellarRead w.a w.bs.length 0) u = .next v ∧ v.answer = ⟨0, w.bs⟩ ∧
        (∀ x, x < w.a ∨ w.a + w.bs.length ≤ x → readByte v.cellar x = readByte s.cellar x) ∧
        v.shelf = s.shelf ∧ v.hostA = s.hostA ∧ v.hostB = s.hostB) ∧
  (∀ (a n : Nat) (s : State) (l : Loc), PlainLine s l a →
      ∃ u, exec (.cellarRead a n 0) s = .next u ∧ u.answer = ⟨0, readBytes s.cellar a (min n (128 - a % 128))⟩ ∧ SameMemory s u) ∧
  (∀ (h : HomeId) (line : Nat) (s : State),
      ∃ u, exec (.hamperTimeout h line) s = .next u ∧ u.hamper h = (s.hamper h).filter (fun e => decide (e.line ≠ line)) ∧
        u.shelf = s.shelf) ∧
  (∀ (src : Src) (st : StackId) (w : BitVec 32) (s : State), s.mayWrite src (cel st 0x10) → s.celLive st →
      ∃ u, exec (.hamperFlush src st w) s = .next u ∧ u.cellar = s.cellar ∧ ∀ i < 2,
        (w.getLsbD i → u.on (hamperBusy (2 * st + i)) ∧
          u.hamper (2 * st + i) = (s.hamper (2 * st + i)).map fun e => { e with covered := true }) ∧
        (w.getLsbD i = false → u.on (hamperBusy (2 * st + i)) = s.on (hamperBusy (2 * st + i)) ∧
          u.hamper (2 * st + i) = s.hamper (2 * st + i))) ∧
  ∀ (h : HomeId) (s : State), s.on (hamperBusy h) → s.on (celThermalStop (h / 2)) = false →
      ∃ u, exec (.hamperFlushComplete h) s = .next u ∧ u.on (hamperBusy h) = false ∧
        u.hamper h = (s.hamper h).filter fun e => !e.covered

/-- On a plain line, each of the 13 operation commands replaces every element that it writes whole by the operation of the old element
and the operand: sums modulo 2^32 or 2^64, the signed minimum or maximum, AND, OR, XOR, and a canonical NaN where a float
operation meets a NaN. Bytes of elements written in part, and all others, stay. A part of an element is counted in OP_MISALIGNED
and raises 0x0401; without one no fault is raised. A write to the alias of OPC 0xE changes nothing and raises 0x0400. (R253, R254,
R255, 09_cellar.md Table 9.1) -/
def Obligations.OperationWritesCombineElements : Prop :=
  (∀ p ∈ opRows, ∀ (a : Nat) (bs : List Byte) (s : State) (l : Loc) (w : Nat), PlainLine s l a → 0 < bs.length →
    a % 128 + bs.length ≤ 128 → w = opElem p.1 →
      ∃ u, exec (p.2 a bs) s = .next u ∧ u.shelf = s.shelf ∧
        (∀ x, x < a ∨ a + bs.length ≤ x → readByte u.cellar x = readByte s.cellar x) ∧
        (∀ ea, ea % w = 0 → (ea < a ∨ a + bs.length < ea + w) →
          ∀ i < w, readByte u.cellar (ea + i) = readByte s.cellar (ea + i)) ∧
        (a % w = 0 → bs.length % w = 0 → u.gathered = s.gathered) ∧
        ((a % w ≠ 0 ∨ bs.length % w ≠ 0) → min (s.rd (celMisaligned l.stack) + 1) (2 ^ 32 - 1) ≤ u.rd (celMisaligned l.stack) ∧
          ∃ f ∈ u.gathered, f.code = 0x0401 ∧ f.kind = 6 ∧ f.index = l.home) ∧
        ∀ ea, ea % w = 0 → a ≤ ea → ea + w ≤ a + bs.length → ∀ old v new, old = ofBytes (readBytes s.cellar ea w) →
          v = ofBytes ((bs.drop (ea - a)).take w) → new = ofBytes (readBytes u.cellar ea w) →
            (p.1 = 1 → new = (old + v) % 2 ^ 32) ∧ (p.1 = 2 → new = (old + v) % 2 ^ 64) ∧
            (p.1 = 7 → new = if (BitVec.ofNat 32 v).slt (BitVec.ofNat 32 old) then v else old) ∧
            (p.1 = 8 → new = if (BitVec.ofNat 32 old).slt (BitVec.ofNat 32 v) then v else old) ∧
            (p.1 = 11 → new = Nat.land old v) ∧ (p.1 = 12 → new = Nat.lor old v) ∧ (p.1 = 13 → new = Nat.xor old v) ∧
            ∀ f, opFmt p.1 = some f → isNanEnc f old || isNanEnc f v → new = encNan f) ∧
  ∀ (a : Nat) (bs : List Byte) (s : State) (l : Loc), s.locate a = some l → s.homeStatus l = (0, s) →
    s.writeBusy l (a / 128) [0, 1] = false →
      ∃ u f, exec (.opAliasReserved a bs) s = .next u ∧ f.code = 0x0400 ∧ f.cls = 0 ∧ f.kind = 6 ∧ f.index = l.home ∧
        u = { s with gathered := s.gathered ++ [f] }

/-- On a plain line and for a tile that is on and whose crate's clock is good, each of the nine fetching requests with a valid record
and RET_OFF within the tile's locked scratch writes its result to the target word of 4 or 8 bytes and to no other byte of the
cellar (SWAP the operand, CAS the operand where the old value equals COMPARE, the sum, signed minimum or maximum, AND, OR, XOR),
puts OLD and STATUS 0 at RET_OFF, and sends +1 to RET_TALLY. An unaligned target, SIZE above 1 or a reserved byte that is not 0
gives OLD 0 and STATUS 2 and writes no cellar byte; a RET_OFF not a multiple of 16 or below 0x1000 writes nothing and raises
0x0400. (R72, R256, R257, R613, 09_cellar.md Table 9.2) -/
def Obligations.FetchingRequestsAnswerTheOldValue : Prop :=
  ∀ p ∈ fetchRows, ∀ (t : TileId) (a : Nat) (r : BitVec 256) (s : State) (l : Loc) (n : Nat), PlainLine s l a →
    bitsAt (frRetTally r) 14 2 < 2 → n = (if frSize r = 0 then 4 else 8) → s.resultWaits t = false →
    (s.tileOn t → frRetOff r % 16 = 0 → 0x1000 ≤ frRetOff r → frRetOff r + 16 ≤ min 0x30000 (s.scratchEnd t) →
      (frSize r ≤ 1 → frRsv r = 0 → a % n = 0 →
        ∃ u old new, exec (p.2 t a r) s = .next u ∧ old = ofBytes (readBytes s.cellar a n) ∧ new = ofBytes (readBytes u.cellar a n) ∧
          u.incs = s.incs ++ [⟨frRetTally r, some t, 1, 4, t, t / 6144⟩] ∧
          (∀ x, x < a ∨ a + n ≤ x → readByte u.cellar x = readByte s.cellar x) ∧
          (∀ i k, i < 16 → s.scratchKey t (frRetOff r + i) = some k →
            some (readByte u.shelf k) = (toBytes 8 old ++ toBytes 8 0)[i]?) ∧
          (∀ k, (∀ i < 16, s.scratchKey t (frRetOff r + i) ≠ some k) → readByte u.shelf k = readByte s.shelf k) ∧
          (p.1 = 0 → new = frOperand r % 2 ^ (8 * n)) ∧
          (p.1 = 1 → new = if old = frCompare r % 2 ^ (8 * n) then frOperand r % 2 ^ (8 * n) else old) ∧
          (p.1 = 2 → new = (old + frOperand r) % 2 ^ (8 * n)) ∧
          (p.1 = 4 → new = if (BitVec.ofNat (8 * n) (frOperand r)).slt (BitVec.ofNat (8 * n) old) then frOperand r % 2 ^ (8 * n) else old) ∧
          (p.1 = 5 → new = if (BitVec.ofNat (8 * n) old).slt (BitVec.ofNat (8 * n) (frOperand r)) then frOperand r % 2 ^ (8 * n) else old) ∧
          (p.1 = 6 → new = Nat.land old (frOperand r % 2 ^ (8 * n))) ∧ (p.1 = 7 → new = Nat.lor old (frOperand r % 2 ^ (8 * n))) ∧
          (p.1 = 8 → new = Nat.xor old (frOperand r % 2 ^ (8 * n)))) ∧
      ((1 < frSize r ∨ frRsv r ≠ 0 ∨ a % n ≠ 0) →
        ∃ u, exec (p.2 t a r) s = .next u ∧ u.cellar = s.cellar ∧ u.incs = s.incs ++ [⟨frRetTally r, some t, 1, 4, t, t / 6144⟩] ∧
          ∀ i k, i < 16 → s.scratchKey t (frRetOff r + i) = some k →
            some (readByte u.shelf k) = (toBytes 8 0 ++ toBytes 8 2)[i]?)) ∧
    ((frRetOff r % 16 ≠ 0 ∨ frRetOff r < 0x1000) →
      ∃ u f, exec (p.2 t a r) s = .next u ∧ u.cellar = s.cellar ∧ u.shelf = s.shelf ∧ u.gathered = s.gathered ++ [f] ∧ f.code = 0x0400)

/-- A channel's scrub reads its next burst, no other being in error: one bad symbol is corrected and counted in ECC_CE, two are
counted in ECC_UE and poison it, none changes nothing. A row's window that has closed leaves the count 0. The oldest repair ends,
releases its bank and raises 0x0402. ACK marks a retirement entry. START on an idle channel starts a run, but is refused while one
runs or for DESTRUCTIVE with a job admitted and no slice; STOP is recorded. A run that ends is not BUSY and sets its counters and
signature to what its accesses found: a read-only one finds nothing where nothing is in error, and changes no byte where no hamper
holds one; a destructive one leaves zeros in every row of its range that is not retired. (R259, R262, R263, R264, R266, R270) -/
def Obligations.CellarErrorsAndGenerators : Prop :=
  (∀ (c : ChannelId) (e a : Nat) (l : Loc) (s : State) (n : Nat), s.on (celScrub (c / 32)) → s.celLive (c / 32) →
    s.on (celReady (c / 32)) → s.on (celThermalStop (c / 32)) = false → s.on (celOffline (c / 32) (c % 32)) = false →
    n = lookMap 0 s.scrubNext c → s.burstAddr (c / 32) (c % 32) (n % 2) (n / 32) (n / 2 % 16) = some a → s.locate a = some l →
    s.isRetired l = false → s.isPoison (a / 64) = false → s.symErr = [] →
      ∃ u, exec (.cellarScrubRead c e) s = .next u ∧ lookMap 0 u.scrubNext c = (n + 1) % chBursts ∧ u.cellar = s.cellar ∧
        (e = 0 → u = { s with scrubNext := u.scrubNext }) ∧
        (e = 1 → u.rd (celCE l.stack) = min (s.rd (celCE l.stack) + 1) (2 ^ 32 - 1) ∧ lookMap 0 u.symErr (a / 64) = 0 ∧
          u.rd (celUE l.stack) = s.rd (celUE l.stack)) ∧
        (2 ≤ e → u.rd (celUE l.stack) = min (s.rd (celUE l.stack) + 1) (2 ^ 32 - 1) ∧ u.isPoison (a / 64))) ∧
  (∀ (c : ChannelId) (pc : Fin 2) (row : Fin 786432) (s : State),
      s.ceClosed (c / 32) (lookMap CRow.fresh s.rows ((c * 2 + pc) * 2 ^ 20 + row)) →
      ∃ u, exec (.cellarRowCeWindowExpiry c pc row) s = .next u ∧
        (lookMap CRow.fresh u.rows ((c * 2 + pc) * 2 ^ 20 + row)).ce = 0 ∧
        (lookMap CRow.fresh u.rows ((c * 2 + pc) * 2 ^ 20 + row)).repaired =
          (lookMap CRow.fresh s.rows ((c * 2 + pc) * 2 ^ 20 + row)).repaired ∧ u = { s with rows := u.rows }) ∧
  (∀ (k : Nat) (ks : List Nat) (s : State), s.repairing = k :: ks →
      ∃ u, exec .rowRepairComplete s = .next u ∧ u.repairing = ks ∧ u.cellar = s.cellar ∧
        (∃ f, f ∈ u.gathered ∧ f.code = 0x0402 ∧ f.kind = 5 ∧ f.index = k / 2 ^ 21) ∧
        ((∀ j ∈ ks, j / 2 ^ 26 ≠ k / 2 ^ 26) → u.on (celRepairBusy (k / 2 ^ 26)) = false)) ∧
  (∀ (src : Src) (st : StackId) (i : Fin 128) (w : BitVec 32) (s : State), s.mayWrite src (cel st (0x800 + 8 * i)) → s.celLive st →
    w.getLsbD 2 →
      ∃ u, exec (.retireAck src st i w) s = .next u ∧ u.on ⟨cel st (0x800 + 8 * i), 1, 1⟩ ∧
        OnlyRegs [cel st (0x800 + 8 * i)] s u) ∧
  (∀ (src : Src) (c : ChannelId) (w : BitVec 32) (s : State), s.mayWrite src (tg c 0) → s.celLive (c / 32) →
    (s.on (tgBusy c) = false → (w.getLsbD 3 = false ∨ s.jobAdmitted = false) →
      ∃ u, exec (.tgStart src c w) s = .next u ∧ u.on (tgBusy c) ∧ u.on (tgRefused c) = (s.on (tgRefused c) && !w.getLsbD 7) ∧
        u.cellar = s.cellar) ∧
    ((s.on (tgBusy c) ∨ w.getLsbD 3 ∧ s.jobAdmitted ∧ s.on bistBusy = false) →
      ∃ u, exec (.tgStart src c w) s = .next u ∧ u.on (tgBusy c) = s.on (tgBusy c) ∧ u.on (tgRefused c) ∧ u.cellar = s.cellar) ∧
    (s.on (tgBusy c) → w.getLsbD 0 = false →
      ∃ u, exec (.tgStop src c w) s = .next u ∧ lookMap false u.tgStop c ∧ u.on (tgBusy c) ∧ u.cellar = s.cellar)) ∧
  ∀ (c : ChannelId) (pass row burst m : Nat) (one many : List Nat) (q : TgRun) (s : State), s.on (tgBusy c) →
    (s.rd (tgPasses c) ≠ 0 ∨ lookMap false s.tgStop c) → m = s.tgCount c (s.tgStopAt c pass row burst) → q = (s.tgRun c m (tgErrs one many)).2 →
      ∃ u, exec (.tgRunComplete c pass row burst one many) s = .next u ∧ u.on (tgBusy c) = false ∧
        u.reg64 (tg c 0x18) = m % 2 ^ 64 ∧ (u.reg (tg c 0x20)).toNat = min q.mism 0xFFFFFFFF ∧
        (u.reg (tg c 0x24)).toNat = min q.ces 0xFFFFFFFF ∧ u.reg64 (tg c 0x30) = q.sig.toNat ∧
        (s.on (tgDestr c) = false → (∀ h, s.hamper h = []) → u.cellar = s.cellar) ∧
        (s.on (tgDestr c) = false → one = [] → many = [] → s.symErr = [] → (∀ b, s.isPoison b = false) → (∀ l, s.isRetired l = false) →
          q.mism = 0 ∧ q.ces = 0) ∧
        (s.on (tgDestr c) → ∀ b l, s.locate (64 * b) = some l → l.stack = c / 32 → l.ch = c % 32 → s.rd (tgFirst c) ≤ l.row →
          l.row ≤ s.rd (tgLast c) → lookMap false u.retired l.granule = false → ∀ i < 64, readByte u.cellar (64 * b + i) = 0#8)

/-- When a trained stack of a die that is on reads t degrees: at 105 or above it is in self-refresh (rate 3), stops with the fatal
fault 0x0406 if it had not stopped, and serves nothing; above THROTTLE_C and below 103 its rate is 2, above 85 and at least 2
below THROTTLE_C (and below 103) 1, at 83 or below (and at least 2 below THROTTLE_C) 0. It is throttled above THROTTLE_C, no
longer at or below RELEASE_C, and as before in between; the event 0x0407 marks each change. Its ceiling is 0, 50 or 100 percent.
(R272, R273, R274, 09_cellar.md Table 9.3) -/
def Obligations.StackTemperatureSetsRefreshAndThrottle : Prop :=
  ∀ (st : StackId) (t : Fin 256) (s : State), s.celLive st → s.on (celReady st) →
    ∃ u, exec (.stackTemperatureChange st t) s = .next u ∧ u.rd (celTemp st) = t ∧ u.cellar = s.cellar ∧
      (105 ≤ t.val → u.rd (celRefresh st) = 3 ∧ u.on (celThermalStop st) ∧ u.rd (celCeil st) = 0 ∧
        (s.on (celThermalStop st) = false → ∃ f ∈ u.gathered, f.code = 0x0406 ∧ f.cls = 2 ∧ f.kind = 4 ∧ f.index = st / 5) ∧
        ∀ l : Loc, l.stack = st → (u.homeStatus l).1 = 6) ∧
      (t.val < 103 → u.on (celThermalStop st) = false) ∧
      (s.rd (celThrottleC st) < t → t.val < 103 → u.rd (celRefresh st) = 2) ∧
      (85 < t.val → t.val < 103 → t.val + 2 ≤ s.rd (celThrottleC st) → u.rd (celRefresh st) = 1) ∧
      (t.val ≤ 83 → t.val + 2 ≤ s.rd (celThrottleC st) → u.rd (celRefresh st) = 0) ∧
      (s.rd (celThrottleC st) < t → u.on (celThrottle st) ∧ (u.on (celThermalStop st) = false → u.rd (celCeil st) = 50)) ∧
      (t.val ≤ s.rd (celThrottleC st) → t.val ≤ s.rd (celReleaseC st) →
        u.on (celThrottle st) = false ∧ (u.on (celThermalStop st) = false → u.rd (celCeil st) = 100)) ∧
      (t.val ≤ s.rd (celThrottleC st) → s.rd (celReleaseC st) < t → u.on (celThrottle st) = s.on (celThrottle st)) ∧
      (u.on (celThrottle st) ≠ s.on (celThrottle st) → ∃ f ∈ u.gathered, f.code = 0x0407 ∧ f.cls = 3)

/-- When a home takes a caching request below age 15: a plain Uncached line, a way of its set being left for it, goes to the requester
in E with Data and Comp, and the core becomes its owner; an Owned line is snooped at its owner, by SnpShared for RdShared and else
by SnpUnique (an Upgrade is converted and counted); a Shared line is snooped for RdShared at the system cache if it holds F, or at
another cluster that does, and for an Upgrade by a listed cluster every other listed cluster and an F system cache get SnpInv. The
line is then pinned. With all ordinary trackers in use the request gets Retry, counted. (R282, R286, R287, R288, 10_coherence.md
Table 10.5) -/
def Obligations.HomesServeCachingRequests : Prop :=
  ∀ p ∈ requestRows, ∀ (n : Nat) (s : State) (c : CReq) (l : Loc), c.kind = p.1 →
    (HomeTakes s n c l → PlainLine s l (128 * c.line) → (s.dirMates c.line).length < 16 → s.wayFor c.core c.line →
      ∃ u, exec (p.2 n) s = .next u ∧ u.dir c.line = some ⟨c.line, some c.core, 0, 15⟩ ∧ u.pinned c.line ∧ u.cellar = s.cellar ∧
        u.msgs = s.msgs ++ [.data c.core c.line ⟨.e, readBytes s.cellar (128 * c.line) 128, 0⟩, .comp c.core c.line .e]) ∧
    (∀ d o, HomeTakes s n c l → s.isRetired l = false → s.dir c.line = some d → d.owner = some o →
      ∃ u, exec (p.2 n) s = .next u ∧ u.pinned c.line ∧ u.dirs = s.dirs ∧ u.cellar = s.cellar ∧ u.l2 = s.l2 ∧
        u.msgs = s.msgs ++ [.snp (if p.1 = 0 then 0 else 1) o c.line c.core] ∧
        (p.1 = 2 → u.rd (cohUpgConv l.home) = min (s.rd (cohUpgConv l.home) + 1) (2 ^ 32 - 1))) ∧
    (∀ d, HomeTakes s n c l → s.isRetired l = false → s.dir c.line = some d → d.owner = none → p.1 = 0 →
      (d.f = 12 → ∃ u, exec (p.2 n) s = .next u ∧ u.pinned c.line ∧ u.dirs = s.dirs ∧
        u.msgs = s.msgs ++ [.snp 0 96 c.line c.core]) ∧
      (d.f < 12 → d.f ≠ c.core / 8 → ∃ u, exec (p.2 n) s = .next u ∧ u.pinned c.line ∧ u.dirs = s.dirs ∧
        u.msgs = s.msgs ++ [.snp 0 (128 + d.f) c.line c.core])) ∧
    (∀ d inv, HomeTakes s n c l → s.isRetired l = false → s.dir c.line = some d → d.owner = none → p.1 = 2 →
      bitAt d.vec (c.core / 8) → inv = (vecOthers d.vec (c.core / 8)).map (fun k => Msg.snp 3 (128 + k) c.line c.core) ++
        (if d.f = 12 then [Msg.snp 3 96 c.line c.core] else []) →
      (inv ≠ [] → ∃ u, exec (p.2 n) s = .next u ∧ u.pinned c.line ∧ u.dirs = s.dirs ∧ u.msgs = s.msgs ++ inv) ∧
      (inv = [] → ∃ u, exec (p.2 n) s = .next u ∧ u.pinned c.line ∧ u.dir c.line = some ⟨c.line, some c.core, 0, 15⟩ ∧
        u.msgs = s.msgs ++ [.comp c.core c.line .e])) ∧
    (s.creqs[n]? = some c → c.stage = 0 → s.pinned c.line = false → s.locate (128 * c.line) = some l → s.homeStatus l = (0, s) →
      s.lineHeld l [0, 1] = false → c.age < 15 → 120 ≤ s.trackers l.home false →
        ∃ u, exec (p.2 n) s = .next u ∧ u.msgs = s.msgs ++ [.retry c.core c.line] ∧ u.dirs = s.dirs ∧ u.txns = s.txns ∧
          u.rd (cohRetries l.home) = min (s.rd (cohRetries l.home) + 1) (2 ^ 32 - 1))

/-- A core's cache or the system cache that takes a snoop for a line it does not hold answers NOT_HELD, EVICTED_CLEAN or
EVICTED_IN_FLIGHT. Holding it (bursts in which it finds uncorrectable errors are marked as poison in what it sends): SnpShared
sends the data in F to the requester and keeps S, with dirty data to the home (the system cache drops its copy); SnpUnique sends
it, in M if dirty and else E, and drops it; SnpOnce answers the data and keeps the state. SnpInv drops any copy, a cluster's in
every core; Recall drops it and gives dirty data to the home. This is while no takeover of a seam's control role holds snoops.
While a core of the holders is within the hold of an LR the snoop waits; the hold's end clears it. (R278, R279, R281, R283, R293,
R295, R427, 10_coherence.md Tables 10.1, 10.3, 10.4) -/
def Obligations.CachesAnswerSnoops : Prop :=
  (∀ p ∈ snoopRows, ∀ (n agent line req err : Nat) (s : State), s.msgs[n]? = some (.snp p.1 agent line req) →
    agent ≤ 96 → s.snoopSeam line = false →
    (s.holdsSnoop agent line = false →
      ∃ u x, exec (p.2 n err) s = .next u ∧ x = (s.cacheLine agent line).marked err ∧ u.cellar = s.cellar ∧ u.dirs = s.dirs ∧
        (x.st = .i → u.msgs = s.msgs.eraseIdx n ++ [.resp p.1 agent line (s.missCode agent line) none] ∧ u.l2 = s.l2) ∧
        (p.1 = 0 → x.st ≠ .i →
          u.cacheLine agent line = (if agent = 96 then CLine.none else { x with st := .s }) ∧
          u.msgs = s.msgs.eraseIdx n ++ [.data req line { x with st := .f },
            .resp 0 agent line (if agent = 96 then 1 else 0) (if x.st = .m then some x else none)]) ∧
        (p.1 = 1 → x.st ≠ .i → u.cacheLine agent line = CLine.none ∧
          u.msgs = s.msgs.eraseIdx n ++ [.data req line { x with st := if x.st = .m then .m else .e },
            .resp 1 agent line 1 (if x.st = .m then some x else none)]) ∧
        (p.1 = 2 → x.st ≠ .i → u.cacheLine agent line = s.cacheLine agent line ∧
          u.msgs = s.msgs.eraseIdx n ++ [.resp 2 agent line 2 (some x)]) ∧
        (p.1 = 3 → x.st ≠ .i → u.cacheLine agent line = CLine.none ∧ u.msgs = s.msgs.eraseIdx n ++ [.resp 3 agent line 1 none]) ∧
        (p.1 = 4 → x.st ≠ .i → u.cacheLine agent line = CLine.none ∧
          u.msgs = s.msgs.eraseIdx n ++ [.resp 4 agent line 1 (if x.st = .m then some x else none)]) ∧
        ∀ c k, c < 97 → k < 2 ^ 36 → line < 2 ^ 36 → (c ≠ agent ∨ k ≠ line) → u.cacheLine c k = s.cacheLine c k) ∧
    ((s.cacheLine agent line).st ≠ .i → s.holdsSnoop agent line → exec (p.2 n err) s = .next s)) ∧
  (∀ (n k line req : Nat) (s : State), k < 12 → s.msgs[n]? = some (.snp 3 (128 + k) line req) → s.snoopSeam line = false →
    (∀ c ∈ coresOf k, s.holdsSnoop c line = false) → (∃ c ∈ coresOf k, (s.cacheLine c line).st ≠ .i) →
      ∃ u, exec (.snpinv n) s = .next u ∧ (∀ c ∈ coresOf k, (u.cacheLine c line).st = .i) ∧
        u.msgs = s.msgs.eraseIdx n ++ [.resp 3 (128 + k) line 1 none]) ∧
  ∀ (c : CoreId) (s : State), (s.hcore c).hold →
      exec (.lrHoldExpiry c) s = .next (s.setHcore c { s.hcore c with hold := false })

/-- A response that does not end its transaction only removes its agent from those awaited; the last of an owner's DONE_S to RdShared
writes dirty data to the cellar before Comp and leaves a Shared entry with the requester's cluster as F; the last to RdUnique
makes the requester the owner. EVICTED_IN_FLIGHT waits for its eviction. A requester with Data and Comp installs the line in the
granted state and sends CompAck, and with one of them waits; CompAck unpins the line. Retry raises the age, and the request is
sent again once no eviction of its line from the cluster awaits WBAck. WBAck frees the eviction buffer. (R282, R283, R284, R286,
R288, R293, 10_coherence.md Tables 10.4, 10.6) -/
def Obligations.ResponsesCompleteRequests : Prop :=
  (∀ (n k agent line code : Nat) (dirty : Option CLine) (s : State) (t : Txn) (l : Loc),
    s.msgs[n]? = some (.resp k agent line code dirty) → s.txns.find? (fun t => decide (t.line = line)) = some t →
    s.locate (128 * line) = some l →
    (code ≤ 2 → t.waits.filter (· ≠ agent) ≠ [] → ∃ u v, exec (.snpresp n) s = .next u ∧ u.msgs = s.msgs.eraseIdx n ∧
      u.txns.find? (fun t => decide (t.line = line)) = some v ∧ v.waits = t.waits.filter (· ≠ agent) ∧ v.kind = t.kind ∧
      u.dirs = s.dirs ∧ u.creqs = s.creqs) ∧
    (∀ core o d x, code = 0 → k = 0 → t.waits.filter (· ≠ agent) = [] → t.kind = .caching core 0 → s.dir line = some d →
      d.owner = some o → o < 96 → dirty = some x → x.poison = 0 → x.data.length = 128 → s.isRetired l = false →
        ∃ u v, exec (.snpresp n) s = .next u ∧ readBytes u.cellar (128 * line) 128 = x.data ∧
          u.msgs = s.msgs.eraseIdx n ++ [.comp core line t.grant] ∧ u.dir line = some ⟨line, none, v, core / 8⟩ ∧
          bitAt v (core / 8) ∧ bitAt v (o / 8) ∧ u.pinned line) ∧
    (∀ core d, code = 1 → k = 1 → t.waits.filter (· ≠ agent) = [] → t.kind = .caching core 1 → s.dir line = some d →
      dirty = none → ∃ u, exec (.snpresp n) s = .next u ∧ u.cellar = s.cellar ∧ u.dir line = some ⟨line, some core, 0, 15⟩ ∧
        u.msgs = s.msgs.eraseIdx n ++ [.comp core line t.grant] ∧ u.pinned line) ∧
    (code = 5 → (∀ e, s.evictOf agent line = some e → e.held = false) → exec (.snpresp n) s = .next s)) ∧
  (∀ (n core line : Nat) (x : CLine) (g : CSt) (s : State) (r : CReq),
    s.creqs.find? (fun r => decide (r.core = core) && decide (r.line = line)) = some r →
    (s.msgs[n]? = some (.data core line x) → r.comp = some g → ∃ u, exec (.dataMsg n) s = .next u ∧
      u.cacheLine core line = { x with st := g } ∧ Msg.compAck core line ∈ u.msgs ∧
      u.creqs.find? (fun r => decide (r.core = core) && decide (r.line = line)) = none) ∧
    (s.msgs[n]? = some (.data core line x) → r.comp = none → ∃ u, exec (.dataMsg n) s = .next u ∧ u.l2 = s.l2 ∧
      u.msgs = s.msgs.eraseIdx n ∧
      u.creqs.find? (fun r => decide (r.core = core) && decide (r.line = line)) = some { r with data := some x }) ∧
    (s.msgs[n]? = some (.comp core line g) → r.data = some x → ∃ u, exec (.comp n) s = .next u ∧
      u.cacheLine core line = { x with st := g } ∧ Msg.compAck core line ∈ u.msgs ∧
      u.creqs.find? (fun r => decide (r.core = core) && decide (r.line = line)) = none) ∧
    (s.msgs[n]? = some (.comp core line g) → r.data = none → r.kind ≠ 2 → ∃ u, exec (.comp n) s = .next u ∧ u.l2 = s.l2 ∧
      u.msgs = s.msgs.eraseIdx n ∧
      u.creqs.find? (fun r => decide (r.core = core) && decide (r.line = line)) = some { r with comp := some g }) ∧
    (s.msgs[n]? = some (.retry core line) → ∃ u, exec (.retry n) s = .next u ∧ u.msgs = s.msgs.eraseIdx n ∧
      u.creqs.find? (fun r => decide (r.core = core) && decide (r.line = line)) = some { r with
        age := min (r.age + 1) 15, stage := 2 })) ∧
  (∀ (n : Nat) (s : State) (r : CReq), s.creqs[n]? = some r → r.stage = 2 → s.evicting r.core r.line = false →
      exec (.retryResend n) s = .next { s with creqs := s.creqs.set n { r with stage := 0 } }) ∧
  (∀ (n core line k : Nat) (s : State) (t : Txn) (l : Loc), s.msgs[n]? = some (.compAck core line) →
    s.locate (128 * line) = some l → s.txns.find? (fun t => decide (t.line = line)) = some t → t.kind = .caching core k →
    (∀ e ∈ s.evicts, e.line = line → e.held = false) → (∀ d, s.dir line = some d → d.owner.isSome ∨ d.vec ≠ 0 ∨ d.f ≠ 15) →
      ∃ u, exec (.compack n) s = .next u ∧ u.pinned line = false ∧ u.dirs = s.dirs ∧ u.l2 = s.l2 ∧ u.msgs = s.msgs.eraseIdx n) ∧
  ∀ (n agent line : Nat) (s : State), s.msgs[n]? = some (.wbAck agent line) →
      ∃ u, exec (.wback n) s = .next u ∧ u = { s with msgs := s.msgs.eraseIdx n, evicts := u.evicts } ∧
        ∀ e, e ∈ u.evicts ↔ e ∈ s.evicts ∧ ¬(e.agent = agent ∧ e.line = line ∧ e.consumed)

/-- A WriteBack of the owner that meets no transaction is acknowledged with WBAck: with SC_ALLOC 0 its data is in the cellar and the
line Uncached, with SC_ALLOC 1 the system cache owns it in M. An EvictClean of the owner with SC_ALLOC 0 leaves the line Uncached
and the cellar as it was; one that meets a transaction is held. An atomic on a plain line writes swap, compare-and-swap or sum to
its word alone and returns the old value to the core. An uncached read or write of a plain line reads or writes the cellar; one
that meets an owner sends it SnpOnce, or Recall (SnpInv for a full line), and pins the line. (R277, R285, R289, R290, R292, R294) -/
def Obligations.EvictionsAtomicsAndUncachedAgents : Prop :=
  (∀ (n err : Nat) (s : State) (e : Evict) (l : Loc) (d : Dir), s.evicts[n]? = some e → e.held = false → e.consumed = false →
    s.locate (128 * e.line) = some l → s.homeStatus l = (0, s) → s.lineHeld l [0, 1] = false → s.isRetired l = false → s.dir e.line = some d →
    d.owner = some e.agent →
    (∀ x, e.wb = some x → s.pinned e.line = false → x.data.length = 128 →
      (x.poison = 0 → err % 4 = 0 → s.on cohScAlloc = false → ∃ u, exec (.writeback ⟨n, err⟩) s = .next u ∧ readBytes u.cellar (128 * e.line) 128 = x.data ∧
        u.dir e.line = none ∧ u.msgs = s.msgs ++ [.wbAck e.agent e.line]) ∧
      (s.on cohScAlloc → e.agent < 96 → ∃ u, exec (.writeback ⟨n, err⟩) s = .next u ∧ u.cellar = s.cellar ∧
        u.cacheLine 96 e.line = { x.marked err with st := .m } ∧ u.dir e.line = some ⟨e.line, some 96, 0, 15⟩ ∧
        Msg.wbAck e.agent e.line ∈ u.msgs)) ∧
    (e.wb = none → s.pinned e.line = false → s.on cohScAlloc = false → ∃ u, exec (.evictclean n) s = .next u ∧
      u.cellar = s.cellar ∧ u.dir e.line = none ∧ u.msgs = s.msgs ++ [.wbAck e.agent e.line]) ∧
    (s.pinned e.line → (e.wb.isSome → err % 4 = 0 → exec (.writeback ⟨n, err⟩) s = .next { s with evicts := s.evicts.set n { e with held := true } }) ∧
      (e.wb = none → exec (.evictclean n) s = .next { s with evicts := s.evicts.set n { e with held := true } }))) ∧
  (∀ (n a size op v cmp : Nat) (s : State) (c : CReq) (l : Loc), HomeTakes s n c l → c.kind = 3 → c.op = [a, size, op, v, cmp] →
    a / 128 = c.line → a % 128 + size ≤ 128 → PlainLine s l (128 * c.line) →
      ∃ u old new, exec (.atomicReq n) s = .next u ∧ old = ofBytes (readBytes s.cellar a size) ∧
        new = ofBytes (readBytes u.cellar a size) ∧ u.creqs[n]? = some { c with stage := 3, op := [0, old] } ∧ u.l2 = s.l2 ∧
        (∀ x, x < a ∨ a + size ≤ x → readByte u.cellar x = readByte s.cellar x) ∧ (op = 0 → new = v % 2 ^ (8 * size)) ∧
        (op = 1 → new = if old = cmp % 2 ^ (8 * size) then v % 2 ^ (8 * size) else old) ∧
        (op = 2 → new = (old + v) % 2 ^ (8 * size))) ∧
  (∀ (a n : Nat) (s : State) (l : Loc),
    (PlainLine s l a → ∃ u, exec (.uncread a n) s = .next u ∧
      u.answer = ⟨0, readBytes s.cellar a (min n (128 - a % 128))⟩ ∧ SameMemory s u) ∧
    ∀ d o, s.locate a = some l → s.homeStatus l = (0, s) → s.isRetired l = false →
      s.pinned (a / 128) = false → s.lineHeld l [0, 1] = false → s.uncTrackers l.home < 256 →
      s.dir (a / 128) = some d → d.owner = some o → ∃ u, exec (.uncread a n) s = .next u ∧ u.pinned (a / 128) ∧ u.dirs = s.dirs ∧
        u.cellar = s.cellar ∧ u.msgs = s.msgs ++ [.snp 2 o (a / 128) 255]) ∧
  ∀ (n : Nat) (s : State) (w : HomeWrite) (l : Loc), s.takeWrite n = some w → w.a % 128 + w.bs.length ≤ 128 →
    (PlainLine s l w.a → (s.hamper l.home).length < 256 → s.tallyQ = [] → ∃ u v, exec (.uncwrite n) s = .next u ∧ u.homeQ = s.homeQ.eraseIdx n ∧
      exec (.uncread w.a w.bs.length) u = .next v ∧ v.answer = ⟨0, w.bs⟩) ∧
    ∀ d o, s.locate w.a = some l → s.homeStatus l = (0, s) → s.pinned (w.a / 128) = false →
      s.lineHeld l [0, 1] = false → s.uncTrackers l.home < 256 →
      s.dir (w.a / 128) = some d → d.owner = some o → ∃ u, exec (.uncwrite n) s = .next u ∧ u.pinned (w.a / 128) ∧
        u.cellar = s.cellar ∧ u.homeQ = s.homeQ.eraseIdx n ∧
        u.msgs = s.msgs ++ [.snp (if w.bs.length = 128 then 3 else 4) o (w.a / 128) 255]

/-- In machine mode, on cellar memory: a load of a line held without poison gives rd its bytes; a store to a line held in E or M puts
its bytes into it, now M; LR places the reservation and the hold and loads; SC with its reservation and the line in E or M stores
and gives rd 0, else gives 1, and ends both; cbo.zero zeroes its block. The pc moves past each and nothing else changes. A load or
store of a line that the core does not hold sends RdShared, RdUnique or Upgrade and leaves the core as it was. The instruction set
is the RISC-V specification's (log entry 12). (R280, R282, R424, R425, R426, R428, 15_host_cores.md Table 15.4, log entry 12) -/
def Obligations.HostCoresLoadAndStoreThroughTheirCaches : Prop :=
  (∀ (c : CoreId) (s s1 : State) (sz : Nat) (sgn : Bool) (rd rs1 : Nat) (imm : Int) (len w a : Nat), sz ≤ 3 →
    HartAt s s1 c (.load sz sgn rd rs1 imm) len w → a = ((s1.hcore c).xr rs1 + BitVec.ofInt 64 imm).toNat →
    CellarAt s1 c 1 a (2 ^ sz) →
    ((s1.cacheLine c (a / 128)).st ≠ .i → (s1.cacheLine c (a / 128)).poison = 0 →
      exec (.hostCoreLoad c) s = .next (s1.setHcore c (retired (s1.hcore c) rd
        (loadVal 64 sz sgn (((s1.cacheLine c (a / 128)).data.drop (a % 128)).take (2 ^ sz))) len))) ∧
    ((∀ d ∈ coresOf (c / 8), (s1.cacheLine d (a / 128)).st = .i) → s1.mayRequest c (a / 128) →
      exec (.hostCoreLoad c) s = .next { s1 with creqs := s1.creqs ++ [⟨c, a / 128, 0, 0, 0, [], none, none⟩] })) ∧
  (∀ (c : CoreId) (s s1 : State) (sz rs1 rs2 : Nat) (imm : Int) (len w a : Nat), sz ≤ 3 →
    HartAt s s1 c (.store sz rs1 rs2 imm) len w → a = ((s1.hcore c).xr rs1 + BitVec.ofInt 64 imm).toNat →
    CellarAt s1 c 2 a (2 ^ sz) →
    (((s1.cacheLine c (a / 128)).st = .e ∨ (s1.cacheLine c (a / 128)).st = .m) →
      exec (.hostCoreStore c) s = .next ((s1.setCacheLine c (a / 128) ⟨.m, overlay (s1.cacheLine c (a / 128)).data (a % 128)
        (toBytes (2 ^ sz) ((s1.hcore c).xr rs2).toNat), (s1.cacheLine c (a / 128)).poison⟩).setHcore c (retired (s1.hcore c) 0 0#64 len))) ∧
    ((∀ d ∈ coresOf (c / 8), d ≠ c → (s1.cacheLine d (a / 128)).st = .i) → s1.mayRequest c (a / 128) →
      ((s1.cacheLine c (a / 128)).st = .i →
        exec (.hostCoreStore c) s = .next { s1 with creqs := s1.creqs ++ [⟨c, a / 128, 1, 0, 0, [], none, none⟩] }) ∧
      (((s1.cacheLine c (a / 128)).st = .s ∨ (s1.cacheLine c (a / 128)).st = .f) →
        exec (.hostCoreStore c) s = .next { s1 with creqs := s1.creqs ++ [⟨c, a / 128, 2, 0, 0, [], none, none⟩] }))) ∧
  (∀ (c : CoreId) (s s1 : State) (sz rd rs1 len w a : Nat), sz ≤ 3 → HartAt s s1 c (.lr sz rd rs1) len w →
    a = ((s1.hcore c).xr rs1).toNat → CellarAt s1 c 1 a (2 ^ sz) →
    ((s1.cacheLine c (a / 128)).st = .e ∨ (s1.cacheLine c (a / 128)).st = .m) → (s1.cacheLine c (a / 128)).poison = 0 →
      exec (.lr c) s = .next (s1.setHcore c (retired { s1.hcore c with resv := some (a / 64), hold := true } rd
        (loadVal 64 sz true (((s1.cacheLine c (a / 128)).data.drop (a % 128)).take (2 ^ sz))) len))) ∧
  (∀ (c : CoreId) (s s1 : State) (sz rd rs1 rs2 len w a : Nat), sz ≤ 3 → HartAt s s1 c (.sc sz rd rs1 rs2) len w →
    a = ((s1.hcore c).xr rs1).toNat → CellarAt s1 c 2 a (2 ^ sz) →
    ((s1.hcore c).resv = some (a / 64) → ((s1.cacheLine c (a / 128)).st = .e ∨ (s1.cacheLine c (a / 128)).st = .m) →
      ∃ u, exec (.sc c) s = .next u ∧ u.hcore c = retired { s1.hcore c with resv := none, hold := false } rd 0#64 len ∧
        (u.cacheLine c (a / 128)).st = .m ∧ (u.cacheLine c (a / 128)).data = overlay (s1.cacheLine c (a / 128)).data (a % 128)
          (toBytes (2 ^ sz) ((s1.hcore c).xr rs2).toNat) ∧ u = { s1 with l2 := u.l2, hcores := u.hcores }) ∧
    (((s1.hcore c).resv ≠ some (a / 64) ∨ (s1.cacheLine c (a / 128)).st = .i ∨ (s1.cacheLine c (a / 128)).st = .s ∨
        (s1.cacheLine c (a / 128)).st = .f) →
      exec (.sc c) s = .next (s1.setHcore c (retired { s1.hcore c with resv := none, hold := false } rd 1#64 len)))) ∧
  ∀ (c : CoreId) (s s1 : State) (rs1 len w b : Nat), HartAt s s1 c (.cbo 4 rs1) len w →
    b = ((s1.hcore c).xr rs1).toNat / 64 * 64 → CellarAt s1 c 2 b 64 →
    ((s1.cacheLine c (b / 128)).st = .e ∨ (s1.cacheLine c (b / 128)).st = .m) →
      ∃ u, exec (.cboZero c) s = .next u ∧ u.hcore c = retired (s1.hcore c) 0 0#64 len ∧ (u.cacheLine c (b / 128)).st = .m ∧
        (u.cacheLine c (b / 128)).data = overlay (s1.cacheLine c (b / 128)).data (b % 128) (List.replicate 64 0#8) ∧
        bitAt (u.cacheLine c (b / 128)).poison (b % 128 / 64) = false ∧ u = { s1 with l2 := u.l2, hcores := u.hcores }

/-- An AMO of a core in machine mode on the cellar sends its operands to the home and waits; when the home's answer has come, rd takes
the old value, sign-extended from 32 bits for a word, and the pc moves on. cbo.clean of a line held in M evicts it with its data
and then waits; with no dirty copy anywhere it changes nothing but the pc. cbo.flush and cbo.inval evict a line held in M with its
data and one held in E without, and with no copy anywhere change nothing but the pc. Which instruction encodes each operation is
the RISC-V specification's (log entry 12). (R292, R424, R284, log entry 12) -/
def Obligations.HostCoreAtomicsAndCacheBlocks : Prop :=
  (∀ (c : CoreId) (s s1 : State) (op sz rd rs1 rs2 len w a : Nat), (sz = 2 ∨ sz = 3) → HartAt s s1 c (.amo op sz rd rs1 rs2) len w →
    a = ((s1.hcore c).xr rs1).toNat → (s1.hcore c).mode = 3 → (s1.hcore c).mst 17 1 ≠ 1 → a % 2 ^ sz = 0 → a < cellarSize →
    (s1.hcore c).pmpOk 3 2 a (2 ^ sz) →
    ((∀ r ∈ s1.creqs, r.core = c → r.line = a / 128 → r.kind = 3 → r.stage ≠ 3) → s1.mayRequest c (a / 128) →
      exec (.amo c) s = .next { s1 with creqs := s1.creqs ++ [⟨c, a / 128, 3, 0, 0,
        [a, 2 ^ sz, amoCode op, ((s1.hcore c).xr rs2).toNat, ((s1.hcore c).xr rd).toNat], none, none⟩] }) ∧
    ∀ r old, s1.creqs.find? (fun r => decide (r.core = c.val) && decide (r.line = a / 128) && decide (r.kind = 3) && decide (r.stage = 3)) = some r →
      r.op = [0, old] →
        exec (.amo c) s = .next (({ s1 with creqs := s1.creqs.filter fun q => decide (q ≠ r) }).setHcore c
          (retired (s1.hcore c) rd (if sz = 3 then BitVec.ofNat 64 old else (BitVec.ofNat 32 old).signExtend 64) len))) ∧
  ∀ (c : CoreId) (s s1 : State) (k rs1 len w b : Nat) (cmd : Instr), HartAt s s1 c (.cbo k rs1) len w →
    (k = 1 ∧ cmd = .cboClean c ∨ k = 2 ∧ cmd = .cboFlush c ∨ k = 0 ∧ cmd = .cboInval c) →
    b = ((s1.hcore c).xr rs1).toNat / 64 * 64 → CellarAt s1 c 1 b 64 →
    ((s1.cacheLine c (b / 128)).st = .m → ∃ u, exec cmd s = .next u ∧ u.cacheLine c (b / 128) = CLine.none ∧
      u.evicts = s1.evicts ++ [⟨c, b / 128, some (s1.cacheLine c (b / 128)), false, false⟩] ∧
      (u.hcore c).pc = (s1.hcore c).pc ∧ u.cellar = s1.cellar) ∧
    ((s1.cacheLine c (b / 128)).st = .e → k ≠ 1 → ∃ u, exec cmd s = .next u ∧ u.cacheLine c (b / 128) = CLine.none ∧
      u.evicts = s1.evicts ++ [⟨c, b / 128, none, false, false⟩] ∧ (u.hcore c).pc = (s1.hcore c).pc ∧ u.cellar = s1.cellar) ∧
    (s1.lineBusy (b / 128) = false → s1.clearWaits (b / 128) = false →
      (∀ l, s1.locate (128 * (b / 128)) = some l → s1.lineHeld l [0, 1] = false) → ((s1.cacheLine c (b / 128)).st = .i ∧ s1.dir (b / 128) = none ∨
        k = 1 ∧ (s1.cacheLine c (b / 128)).st ≠ .m ∧ s1.dirtyCopy (b / 128) = none) →
      exec cmd s = .next (s1.setHcore c (retired (s1.hcore c) 0 0#64 len)))

/-- An integer operation, a jump, a branch, a fence, a read of time, a floating-point operation, ECALL, MRET and WFI have the RISC-V
specification's effect (log entry 12): the destination or the pc changes, ECALL in machine mode saves the pc and the cause 11 and
jumps to mtvec, and WFI with nothing pending puts the core to sleep. A delivered APLIC source becomes pending in the interrupt
file; an enabled interrupt in machine mode with MIE set traps. A debug request is answered busy and ends debug mode where debug is
not available; else it halts a core or answers a register of a halted one. (R422, R431, R432, R433, log entry 12, log entry 52) -/
def Obligations.HostCoresExecuteTrapAndTakeInterrupts : Prop :=
  (∀ (c : CoreId) (s s1 : State) (len w : Nat),
    (∀ k op rd rs1 rs2, HartAt s s1 c (.alu k op rd rs1 rs2) len w → exec (.hostCoreInstruction c) s =
      .next (s1.setHcore c (retired (s1.hcore c) rd (aluFn64 k op ((s1.hcore c).xr rs1) ((s1.hcore c).xr rs2)) len))) ∧
    (∀ rd imm, HartAt s s1 c (.jal rd imm) len w → ∃ u, exec (.hostCoreInstruction c) s = .next u ∧
      (u.hcore c).pc = (((s1.hcore c).pc + imm) % 2 ^ 64).toNat ∧
      (rd ≠ 0 → (u.hcore c).xr rd = BitVec.ofNat 64 ((s1.hcore c).pc + len)) ∧ u = { s1 with hcores := u.hcores }) ∧
    (∀ f3 rs1 rs2 imm, HartAt s s1 c (.branch f3 rs1 rs2 imm) len w → ∃ u, exec (.hostCoreInstruction c) s = .next u ∧
      u.hcore c = { s1.hcore c with pc := if branchTaken f3 ((s1.hcore c).xr rs1) ((s1.hcore c).xr rs2) then
        (((s1.hcore c).pc + imm) % 2 ^ 64).toNat else ((s1.hcore c).pc + len) % 2 ^ 64 } ∧ u = { s1 with hcores := u.hcores }) ∧
    ((HartAt s s1 c .fence len w ∨ HartAt s s1 c .fenceI len w) →
      exec (.hostCoreInstruction c) s = .next (s1.setHcore c (retired (s1.hcore c) 0 0#64 len))) ∧
    (∀ rd, HartAt s s1 c (.csr 2 false rd 0 0xC01) len w → (s1.hcore c).mode = 3 → exec (.hostCoreInstruction c) s =
      .next (s1.setHcore c (retired (s1.hcore c) rd (BitVec.ofNat 64 s1.plt) len))) ∧
    (∀ f v fl, HartAt s s1 c (.fp f) len w → (s1.hcore c).mst 13 2 ≠ 0 →
      fpExec f ((s1.hcore c).xr (rvRs1 f)).toNat ((s1.hcore c).fr (rvRs1 f)) ((s1.hcore c).fr (rvRs2 f)) ((s1.hcore c).fr (bitsAt f 27 5))
        (bitsAt ((s1.hcore c).csrOf 3) 5 3) = some (.toF v fl) →
      ∃ u, exec (.hostCoreInstruction c) s = .next u ∧ (u.hcore c).fr (rvRd f) = v % 2 ^ 64 ∧
        (u.hcore c).pc = ((s1.hcore c).pc + len) % 2 ^ 64 ∧ (u.hcore c).x = (s1.hcore c).x ∧ u = { s1 with hcores := u.hcores }) ∧
    (HartAt s s1 c .ecall len w → (s1.hcore c).mode = 3 → ∃ u, exec (.hostCoreInstruction c) s = .next u ∧
      (u.hcore c).csrOf 0x342 = 11 ∧ (u.hcore c).csrOf 0x341 = (s1.hcore c).pc % 2 ^ 64 ∧ (u.hcore c).mode = 3 ∧ (u.hcore c).mst 11 2 = 3 ∧
      (u.hcore c).mst 3 1 = 0 ∧ (u.hcore c).pc = (s1.hcore c).csrOf 0x305 / 4 * 4 % 2 ^ 64 ∧ u = { s1 with hcores := u.hcores }) ∧
    (HartAt s s1 c .mret len w → (s1.hcore c).mode = 3 → ∃ u, exec (.hostCoreInstruction c) s = .next u ∧
      (u.hcore c).pc = (s1.hcore c).csrOf 0x341 ∧ (u.hcore c).mode = (s1.hcore c).mst 11 2 ∧ (u.hcore c).mst 3 1 = (s1.hcore c).mst 7 1 ∧
      u = { s1 with hcores := u.hcores }) ∧
    (HartAt s s1 c .wfi len w → (s1.hcore c).mode = 3 → ∃ u, exec (.hostCoreInstruction c) s = .next u ∧
      (s1.irqWakes (s1.hcore c) → u = s1.setHcore c (retired (s1.hcore c) 0 0#64 len)) ∧
      (s1.irqWakes (s1.hcore c) = false → (u.hcore c).wfi ∧ u.rd (coreState c) = 1))) ∧
  (∀ (c : CoreId) (m : ApMsi) (s : State), s.domOn (20 + c / 48) → s.rd (coreState c) ≠ 2 → m.source ∈ s.aplic →
    s.irqWakes ((s.hcore c).setEi m.machine 0x80 m.id 1) = false →
      ∃ u, exec (.hostCoreInterrupt c (some m)) s = .next u ∧ m.source ∉ u.aplic ∧ (u.hcore c).eiBit m.machine 0x80 m.id ∧
        (u.hcore c).pc = (s.hcore c).pc ∧ (u.hcore c).x = (s.hcore c).x) ∧
  (∀ (c : CoreId) (s : State) (i : Nat), s.hartRuns c → (∀ r ∈ s.creqs, r.core = c → r.kind ≠ 3) →
    s.irqNow (s.hcore c) = some i → (s.hcore c).mode = 3 →
      ∃ u, exec (.hostCoreInterrupt c none) s = .next u ∧ (u.hcore c).csrOf 0x342 = (i + 2 ^ 63) % 2 ^ 64 ∧
        (u.hcore c).csrOf 0x341 = (s.hcore c).pc % 2 ^ 64 ∧ (u.hcore c).mode = 3 ∧ (u.hcore c).resv = none) ∧
  ∀ (q : DebugReq) (s : State),
    (s.debugOk = false → ∃ u, exec (.debugRequest q) s = .next u ∧ u.dmActive = false ∧ u.answer = ⟨7, []⟩ ∧
      u = { s with dmActive := false, answer := u.answer }) ∧
    (s.debugOk → (∀ on, exec (.debugRequest (.active on)) s = .next { s with dmActive := on }) ∧
      (s.dmActive → ∀ c : CoreId, ∀ n : Nat, (s.domOn (20 + c / 48) → (s.hcore c).group = 0 → (∀ r ∈ s.creqs, r.core = c → r.kind ≠ 3) →
        ∃ u, exec (.debugRequest (.halt c)) s = .next u ∧ (u.hcore c).halted ∧ (u.hcore c).pc = (s.hcore c).pc ∧ u.hartRuns c = false) ∧
        ((s.hcore c).halted → n < 32 → exec (.debugRequest (.readReg c (0x1000 + n))) s =
          .next { s with answer := ⟨0, toBytes 8 ((s.hcore c).xr n).toNat⟩ })))

/-- A table read of a plain line ends a walk in a level and reason 0 fault where V is 0 and reason 1 where a reserved bit is set,
holds a leaf in the crate's translation cache and in the waiting tiles' micro-TLBs, and moves a walk to the next table. XLT.ROOT
takes a write only while no job is admitted and with V 0 or a root in the cellar, and then no translation is held; else
ROOT_REFUSED is set. A shootdown is queued if its sequence follows, fewer than 16 wait and its range is not empty; else the flags
say why. A crate that applies it holds no translation and no line of its range and restarts the walks in it. It is posted once
every crate has applied it and no older chunk is in flight, and no older request awaits its response, that a translation in its
range serves. (R301, R302, R309, R310, R311, R314, R308, R315) -/
def Obligations.WalksRootsAndShootdowns : Prop :=
  (∀ (c : CrateId) (n : Nat) (s : State) (w : Walk) (l : Loc) (ea e k : Nat), (s.crate c).walks[n]? = some w → w.bad = none → s.crateRuns c →
    w.level ≤ 3 → w.table % 4096 = 0 → ea = w.table + 8 * (w.vpage * 4096 / 2 ^ levelShift w.level % 512) →
    PlainLine s l (if w.level = 3 then ea / 128 * 128 else ea) → e = ofBytes (readBytes s.cellar ea 8) →
    (bitAt e 0 = false → ∃ u, exec (.walkTableReadComplete c n) s = .next u ∧
      (u.crate c).walks = (s.crate c).walks.map fun v => if v = w then { v with bad := some (w.level, 0) } else v) ∧
    (bitAt e 0 → bitsAt e 48 16 ≠ 0 ∨ bitsAt e 5 3 ≠ 0 → ∃ u, exec (.walkTableReadComplete c n) s = .next u ∧
      (u.crate c).walks = (s.crate c).walks.map fun v => if v = w then { v with bad := some (w.level, 1) } else v) ∧
    (bitAt e 0 → bitAt e 1 = false → bitsAt e 48 16 = 0 → bitsAt e 2 6 = 0 → w.level < 3 → bitsAt e 12 36 * 4096 < cellarSize →
      ∃ u, exec (.walkTableReadComplete c n) s = .next u ∧ (u.crate c).walks =
        (s.crate c).walks.map fun v => if v = w then { v with level := w.level + 1, table := bitsAt e 12 36 * 4096 } else v) ∧
    (bitAt e 0 → bitAt e 1 → bitsAt e 48 16 = 0 → bitsAt e 4 4 = 0 → 0 < w.level → k = 512 ^ (3 - w.level) → bitsAt e 12 36 % k = 0 →
      ∃ u, exec (.walkTableReadComplete c n) s = .next u ∧ (u.crate c).walks = (s.crate c).walks.filter (fun v => decide (v ≠ w)) ∧
        (u.crate c).tc.head? = some ⟨w.vpage / k * k, k, bitsAt e 12 36 * 4096, bitAt e 2, bitAt e 3⟩ ∧
        ∀ q ∈ w.waiters, (u.tile (q / 2)).tlb.head? = some ⟨w.vpage / k * k, k, bitsAt e 12 36 * 4096, bitAt e 2, bitAt e 3⟩)) ∧
  (∀ (src : Src) (v : BitVec 64) (s : State) (b : Bool), s.mayWrite src xltRoot → s.domOn 22 →
    b = (!s.jobAdmitted && (!v.getLsbD 0 || decide (bitsAt v.toNat 12 36 * 4096 < cellarSize))) →
    (b → ∃ u, exec (.xltRootWrite src v) s = .next u ∧ u.reg64 xltRoot = (v &&& 0x0000FFFFFFFFF001#64).toNat ∧
      (∀ t : TileId, (u.tile t).tlb = []) ∧ (∀ c : CrateId, (u.crate c).tc = [] ∧ (u.crate c).wc = []) ∧
      ∀ a, a ≠ 0x200000 → a ≠ 0x200004 → u.reg a = s.reg a) ∧
    (b = false → ∃ u, exec (.xltRootWrite src v) s = .next u ∧ u.on xltRootRefused ∧ OnlyRegs [0x200024] s u)) ∧
  (∀ (p : HostPortId) (v : BitVec 64) (s : State), ∃ u, exec (.xltRootWrite (.hostPort p) v) s = .next u ∧
    u.rd xltHostwDropped = min (s.rd xltHostwDropped + 1) (2 ^ 32 - 1) ∧ OnlyRegs [0x200058] s u) ∧
  (∀ (src : Src) (w : BitVec 32) (s : State) (all : Bool) (pages : Nat), s.mayWrite src 0x20001C → s.domOn 22 →
    all = bitAt (s.reg64 xltSdRange) 0 → pages = s.rd xltSdPages →
    (w.toNat = (s.sdLast + 1) % 2 ^ 32 → s.sds.length < 16 → (all ∨ pages ≠ 0) → ∃ u d, exec (.shootdownSubmit src w) s = .next u ∧
      u.sds = s.sds ++ [d] ∧ d.seq = w.toNat ∧ d.applied = [] ∧ u.sdLast = w.toNat ∧ u.rd xltPending = s.sds.length + 1 ∧
      d.lo = (if all then 0 else bitsAt (s.reg64 xltSdRange) 12 36) ∧ d.hi = (if all then 2 ^ 36 else d.lo + pages)) ∧
    ((w.toNat ≠ (s.sdLast + 1) % 2 ^ 32 ∨ 16 ≤ s.sds.length ∨ (all = false ∧ pages = 0)) →
      ∃ u, exec (.shootdownSubmit src w) s = .next u ∧ OnlyRegs [0x200024] s u ∧
      (w.toNat ≠ (s.sdLast + 1) % 2 ^ 32 → u.on xltSeqErr) ∧ (16 ≤ s.sds.length → u.on xltFull) ∧
      (all = false → pages = 0 → u.on xltRangeErr))) ∧
  (∀ (c : CrateId) (s : State) (d : Shootdown) (ds : List Shootdown), s.sds = d :: ds → c.val ∉ d.applied →
    (s.crateRuns c ∨ s.crateOn c = false) → (∀ t : Nat, t / 64 = c.val → ∀ p ∈ (s.tile t).lines, p.2.st = .clean) →
    ∃ u, exec (.shootdownCrateApply c) s = .next u ∧ u.regs = s.regs ∧ SameMemory s u ∧
      u.sds = s.sds.map (fun e => if e.num = d.num then { e with applied := e.applied ++ [c.val] } else e) ∧ (u.crate c).sdDone = d.num ∧
      (∀ e ∈ (u.crate c).tc, e.vpage + e.pages ≤ d.lo ∨ d.hi ≤ e.vpage) ∧
      (∀ w ∈ (u.crate c).walks, w.bad = none → d.lo ≤ w.vpage → w.vpage < d.hi → w.level = 0) ∧
      ∀ t : Nat, t / 64 = c.val → (∀ e ∈ (u.tile t).tlb, e.vpage + e.pages ≤ d.lo ∨ d.hi ≤ e.vpage) ∧
        ∀ p ∈ (u.tile t).lines, p.2.vpage < d.lo ∨ d.hi ≤ p.2.vpage) ∧
  ∀ (s : State) (d : Shootdown) (ds : List Shootdown), s.sds = d :: ds →
    ((∀ c < 384, c ∈ d.applied) → (∀ k ∈ s.flights, d.num ≤ k.sdDone ∨ ∀ v ∈ k.spans, v.1 + v.2 ≤ d.lo ∨ d.hi ≤ v.1) →
      (∀ q ∈ s.fabReqs, d.num ≤ q.sdDone ∨ ∀ v ∈ q.spans, v.1 + v.2 ≤ d.lo ∨ d.hi ≤ v.1) →
      ∃ u, exec .shootdownPost s = .next u ∧ u.sds = ds ∧ u.rd xltDoneSeq = d.seq % 2 ^ 32 ∧ u.rd xltPending = ds.length % 32 ∧ 4 ∈ u.aplic ∧
        OnlyRegs [0x200020, 0x200024] { s with sds := ds, aplic := u.aplic } u) ∧
    ((∃ c < 384, c ∉ d.applied) → exec .shootdownPost s = .next s)

/-- A permitted aligned write of a word of HATCH.OUT[w] takes effect as its access codes say if afterwards PLACE has UNIT 0, SIZE is a
multiple of 4 KiB and at most 2^38, and OPS comes with OPC 1 to 0xD; else it only sets OUT_REFUSED. One of HATCH.IN[n] does if the
entry's range is empty or lies wholly in the cellar beyond the driver reserve or wholly in the shelf aperture (an empty range is
the model's reading); else it only sets IN_REFUSED. A waiting read whose target is served now is answered, from the BASE that the
entry had as it came, and BUSY clears; one whose line is still held waits on with BUSY 1. The last chunk of a hatch transfer is
sent with the descriptor's ARR and TALLY where the port has its credits and awaits its response, or fails where no port leads to
the place. (R320, R323, R324, R327, R357, R366, R552) -/
def Obligations.HatchWindowsEntriesAndLastChunks : Prop :=
  (∀ (src : Src) (w : Fin 256) (i : Fin 8) (wide : Bool) (v : BitVec 64) (s t : State) (a : Nat), a = 0x240000 + 32 * w + 4 * i →
    s.mayWrite src a → s.domOn 22 → aligned a wide → t = s.plainWrites a wide v →
    ((t.rd (outPlace w) % 4096 = 0 ∧ t.outSize w % 4096 = 0 ∧ t.outSize w ≤ 2 ^ 38 ∧
        (t.on (outOps w) → 1 ≤ t.rd (outOpc w) ∧ t.rd (outOpc w) ≤ 13)) →
      ∃ u, exec (.hatchOutWrite src w i wide v) s = .next u ∧ u.reg a = writtenWord a (s.reg a) (v.setWidth 32) ∧
        (wide → u.reg (a + 4) = writtenWord (a + 4) (s.reg (a + 4)) ((v >>> 32).setWidth 32)) ∧
        OnlyRegs (if wide then [a, a + 4] else [a]) s u) ∧
    (¬(t.rd (outPlace w) % 4096 = 0 ∧ t.outSize w % 4096 = 0 ∧ t.outSize w ≤ 2 ^ 38 ∧
        (t.on (outOps w) → 1 ≤ t.rd (outOpc w) ∧ t.rd (outOpc w) ≤ 13)) →
      ∃ u, exec (.hatchOutWrite src w i wide v) s = .next u ∧ u.on outRefused ∧ OnlyRegs [0x244010] s u)) ∧
  (∀ (src : Src) (n : Fin 256) (i : Fin 8) (wide : Bool) (v : BitVec 64) (s t : State) (a : Nat), a = 0x242000 + 32 * n + 4 * i →
    s.mayWrite src a → s.domOn 22 → aligned a wide → t = s.plainWrites a wide v →
    ((t.inSize n = 0 ∨ (driverReserve ≤ t.inBase n ∧ t.inBase n + t.inSize n ≤ cellarSize) ∨
        (0x10000000000 ≤ t.inBase n ∧ t.inBase n + t.inSize n ≤ 0x10180000000)) →
      ∃ u, exec (.hatchInWrite src n i wide v) s = .next u ∧ u.reg a = writtenWord a (s.reg a) (v.setWidth 32) ∧
        (wide → u.reg (a + 4) = writtenWord (a + 4) (s.reg (a + 4)) ((v >>> 32).setWidth 32)) ∧
        OnlyRegs (if wide then [a, a + 4] else [a]) s u) ∧
    (¬(t.inSize n = 0 ∨ (driverReserve ≤ t.inBase n ∧ t.inBase n + t.inSize n ≤ cellarSize) ∨
        (0x10000000000 ≤ t.inBase n ∧ t.inBase n + t.inSize n ≤ 0x10180000000)) →
      ∃ u, exec (.hatchInWrite src n i wide v) s = .next u ∧ u.on inRefused ∧ OnlyRegs [0x244010] s u)) ∧
  (∀ (n : Fin 256) (s : State) (r : InReq) (a : Nat) (l : Loc), s.inReqs = [r] → r.entry = n.val → r.pkt.type = 1 → 0 < r.pkt.len →
    a = r.base + r.pkt.off → a % 128 + r.pkt.len ≤ 128 → a < cellarSize →
    (∀ p, PlainLine s l a → OneRoute s r.pkt.src p 3 →
      ∃ u k, exec (.hatchInDrain n) s = .next u ∧ u.inReqs = [] ∧ u.on (inBusy n) = false ∧ SameMemory s u ∧
        u.fabTx = s.fabTx ++ [(p, k)] ∧ k.type = 8 ∧ k.dest = r.pkt.src ∧ k.tag = r.pkt.tag ∧ k.status = 0 ∧
        k.payload = readBytes s.cellar a r.pkt.len) ∧
    (s.locate a = some l → s.lineBusy (a / 128) → ∃ u, exec (.hatchInDrain n) s = .next u ∧ u.inReqs = [r] ∧ u.on (inBusy n) ∧
      OnlyRegs [0x242000 + 32 * n] s u)) ∧
  ∀ (t : TileId) (s : State) (r : Run) (c : Chunk) (w : Window), ((s.tile t).eng2).run = some r → r.flight = [c] → c.win = some w →
    c.unsent → c.last → c.waitTag = none → c.fail = none → c.data.length ≤ 4096 →
    (∀ p, OneRoute s (devPlace w.place) p 5 → ∃ u k tag, exec (.hatchLastChunkSend t) s = .next u ∧ u.fabTx = s.fabTx ++ [(p, k)] ∧
      k.type = (if w.opc = 0 then 2 else 3) ∧ k.arr = mArrEn r.desc ∧ k.tally = mArrTally r.desc ∧ k.hatch = w.hatch ∧ k.off = w.off ∧
      k.payload = c.data ∧ k.tag = tag ∧
      ((u.tile t).eng2).run = some { r with flight := [{ c with unsent := false, waitTag := some tag }] } ∧ SameMemory s u) ∧
    (s.routePorts (devPlace w.place) = [] → ∃ u, exec (.hatchLastChunkSend t) s = .next u ∧ u.fabTx = s.fabTx ∧
      ((u.tile t).eng2).run = some { r with flight := [{ c with unsent := false, fail := some stABSENT }] } ∧ SameMemory s u)

/-- A good flit clears the replay count. A bad one below 8 tries and below the lane's threshold counts a replay and a failure and
marks no lane; a lane that an eighth replay blames, or that loses lock, is marked: in use it makes the bundle hold for a repair (a
spare lane and the feature), a takeover (control role with a standby) or a retraining. A window's end clears that lane's count
only. Where the bundle takes no control role over meanwhile, a repair moves the failing lane's traffic to the lowest free usable
lane, raises 0x0500 and resumes. A retraining settles on the widest width allowed, never wider than before, on the lowest usable
lanes, raising 0x0501 or, down, 0x0502, with 0x0504 or 0x0505 for a control bundle that has no standby. A takeover that no
SYNC_INC waits for swaps the roles, raises 0x0503 and retrains; a standby that is down takes nothing over. (R331, R336, R337,
R338, R339, R340, R341, R342) -/
def Obligations.SeamsCountRepairNarrowAndTakeOver : Prop :=
  (∀ (b : BundleId) (d : Fin 2) (s : State), s.rd (seamState b) = 0 →
    ∃ u, exec (.seamFlitReceive b d []) s = .next u ∧ (u.seam b).dir d = { (s.seam b).dir d with tries := 0 } ∧
      (u.seam b).dir (1 - d.val) = (s.seam b).dir (1 - d.val) ∧ (u.seam b).due = (s.seam b).due ∧ u = { s with seams := u.seams }) ∧
  (∀ (b : BundleId) (d : Fin 2) (n : Fin 68) (s : State), s.rd (seamState b) = 0 → ((s.seam b).dir d).tries < 8 →
    lookMap 0 ((s.seam b).dir d).cnt n + 1 < s.rd (seamThr b) →
    ∃ u, exec (.seamFlitReceive b d [n]) s = .next u ∧ u.rd (seamReplays b) = min (s.rd (seamReplays b) + 1) (2 ^ 32 - 1) ∧
      ((u.seam b).dir d).tries = ((s.seam b).dir d).tries + 1 ∧ ((u.seam b).dir d).bad = ((s.seam b).dir d).bad ∧
      lookMap 0 ((u.seam b).dir d).cnt n = lookMap 0 ((s.seam b).dir d).cnt n + 1 ∧
      OnlyRegs [seamB b 0x28] { s with seams := u.seams } u) ∧
  (∀ (b : BundleId) (d : Fin 2) (n : Fin 68) (x : Fin 71) (s : State) (c : Instr) (y : SeamDir), x.val = n.val → s.rd (seamState b) = 0 →
    y = (s.seam b).dir d → n.val ∉ y.bad →
    (c = .seamLaneLossOfLock b d x ∨ (c = .seamFlitReceive b d [n] ∧ 8 ≤ y.tries)) →
    ∃ u, exec c s = .next u ∧ ((u.seam b).dir d).bad = y.bad ++ [n.val] ∧ u.rd (seamFails b) = min (s.rd (seamFails b) + 1) 65535 ∧
      (n.val ∉ s.seamUse b d → u.rd (seamState b) = 0 ∧ (u.seam b).due = (s.seam b).due) ∧
      (n.val ∈ s.seamUse b d → (u.seam b).due = (s.seam b).due ++ [(d.val, n.val)] ∧
        u.rd (seamState b) = if s.seamFeature 1 ∧ ∃ m ∈ ({ y with bad := y.bad ++ [n.val] } : SeamDir).usable, m ∉ s.seamUse b d then 1
          else if s.rd (seamRole b) = 1 ∧ s.rd (seamStandby b) ≠ 0x7F then 3 else 2)) ∧
  (∀ (b : BundleId) (d : Fin 2) (n : Fin 68) (s : State),
    ∃ u, exec (.seamLaneWindowExpiry b d n) s = .next u ∧ lookMap 0 ((u.seam b).dir d).cnt n = 0 ∧
      (∀ m, m ≠ n.val → lookMap 0 ((u.seam b).dir d).cnt m = lookMap 0 ((s.seam b).dir d).cnt m) ∧
      ((u.seam b).dir d).bad = ((s.seam b).dir d).bad ∧ u = { s with seams := u.seams }) ∧
  (∀ (b : BundleId) (d : Fin 2) (x m : Nat) (s : State), s.rd (seamState b) = 1 → s.takesOver b = false → (s.seam b).due = [(d.val, x)] → x < 68 →
    m ∈ ((s.seam b).dir d).usable → m ∉ s.seamUse b d → (∀ k ∈ ((s.seam b).dir d).usable, k ∉ s.seamUse b d → m ≤ k) →
    ∃ u f, exec (.seamLaneRepairComplete b) s = .next u ∧ u.rd (seamState b) = 0 ∧ (u.seam b).due = [] ∧
      (∀ k, k ∈ u.seamUse b d ↔ k = m ∨ (k ∈ s.seamUse b d ∧ k ≠ x)) ∧ u.seamUse b (1 - d.val) = s.seamUse b (1 - d.val) ∧
      u.gathered = s.gathered ++ [f] ∧ f.code = 0x0500 ∧ f.kind = 7 ∧ f.index = (b : Nat)) ∧
  (∀ (b : BundleId) (s : State) (old w : Nat), s.rd (seamState b) = 2 → s.takesOver b = false →
    old = s.rd (seamWidth b) →
    w = min old ((s.seam b).allowed (s.seamFeature 0)) →
    ∃ u, exec (.seamRetrainComplete b) s = .next u ∧ u.rd (seamWidth b) = w ∧ u.rd (seamState b) = (if w = 0 then 4 else 0) ∧
      (u.seam b).due = [] ∧ u.seamUse b 0 = (s.seam b).ab.usable.take (widthLanes w) ∧
      u.seamUse b 1 = (s.seam b).ba.usable.take (widthLanes w) ∧ 7 ∈ u.aplic ∧ SameMemory s u ∧
      (∃ f ∈ u.gathered, f.code = (if w = 0 then 0x0502 else 0x0501) ∧ f.kind = 7 ∧ f.index = (b : Nat)) ∧
      (w = 0 → u.rd (seamRole b) = 3 ∧ u.offline 7 b) ∧
      (s.rd (seamRole b) = 1 → s.rd (seamStandby b) = 0x7F → w = 0 → ∃ f ∈ u.gathered, f.code = 0x0505 ∧ f.index = (b : Nat)) ∧
      (s.rd (seamRole b) = 1 → s.rd (seamStandby b) = 0x7F → 0 < w → w < old → ∃ f ∈ u.gathered, f.code = 0x0504 ∧ f.index = (b : Nat))) ∧
  ∀ (b : BundleId) (s : State) (y : Nat), s.rd (seamState b) = 3 → y = s.rd (seamStandby b) → y ≠ b.val →
    s.syncHeld = [] →
    (s.rd (seamState y) ≠ 4 → ∃ u f, exec (.seamControlTakeover b) s = .next u ∧ u.rd (seamRole y) = 1 ∧ u.rd (seamStandby y) = 0x7F ∧
      u.rd (seamRole b) = 0 ∧ u.rd (seamStandby b) = 0x7F ∧ u.rd (seamState b) = 2 ∧
      u.rd (seamTakeovers b) = min (s.rd (seamTakeovers b) + 1) 255 ∧ u.gathered = s.gathered ++ [f] ∧ f.code = 0x0503 ∧
      OnlyRegs [seamB b 0, seamB y 0, seamB b 0x2C] { s with gathered := u.gathered } u) ∧
    (s.rd (seamState y) = 4 → ∃ u, exec (.seamControlTakeover b) s = .next u ∧ u.rd (seamStandby b) = 0x7F ∧ u.rd (seamState b) = 2 ∧
      u.rd (seamRole b) = s.rd (seamRole b) ∧ OnlyRegs [seamB b 0] s u)

/-- With its PHY on and reference clock present a port that finds a partner leaves Detect; its stages settle the version (or stay
incompatible), the lanes and width (or fail to Detect with 0x0600), and the partner's place, up to Up, which counts at its level
and takes the credits that the partner gives. A stage timeout fails it. A retrain by CTL or by the partner returns it to Detect
with nothing trained and the same fence. A lane in use that loses lock, exceeds the error limit, or is named by a fourth codeword
makes the port narrow; a window's end clears the lane's count. Narrowing settles on the widest of 4, 2 and 1 good lanes, never
wider than before, with 0x0601, or takes the port down with 0x0602 and its packets dropped. Good flits add to FEC_CORR, LEVEL_RX
and the spare drops and free the acknowledged packets, and give credits back; bad ones add their replays. (R346, R349, R350, R351,
R352, R353, R354, R355, R356, R357, R384) -/
def Obligations.FabricPortsTrainNarrowAndFail : Prop :=
  (∀ (p : PortId) (found : Bool) (s : State), (s.rd (fabState p) = 0 ∨ s.rd (fabState p) = 7) → s.phyOk p →
    ∃ u, exec (.fabricDetectPoll p found) s = .next u ∧ u.rd (fabState p) = (if found then 1 else 0) ∧ u.fabTx = s.fabTx ∧ SameMemory s u) ∧
  (∀ (p : PortId) (e : TrainEnv) (s : State) (st : Nat) (good : List Nat), s.phyOk p → st = s.rd (fabState p) →
    good = (List.range 4).filter (fun i => e.good.getLsbD i && !(decide (i ∈ (s.fport p).lanesOut))) →
    ∃ u, exec (.fabricTrainStageComplete p e) s = .next u ∧ SameMemory s u ∧
      (st = 1 → (min e.major (s.rd (fabMaxver p)) < 2 ∨ min e.major (s.rd (fabMaxver p)) < e.lowest) → u.rd (fabState p) = 8) ∧
      (st = 1 → ¬(min e.major (s.rd (fabMaxver p)) < 2 ∨ min e.major (s.rd (fabMaxver p)) < e.lowest) →
        u.rd (fabState p) = 2 ∧ u.rd (fabVer p) = min e.major (s.rd (fabMaxver p))) ∧
      (st = 2 → u.rd (fabState p) = 3) ∧
      (st = 3 → good ≠ [] → u.rd (fabState p) = 4 ∧ u.rd (fabWidth p) = if 4 ≤ good.length then 3 else if 2 ≤ good.length then 2 else 1) ∧
      (st = 3 → good = [] → u.rd (fabState p) = 0 ∧ (∃ f ∈ u.gathered, f.code = 0x0600 ∧ f.kind = 8 ∧ f.index = (p : Nat)) ∧
        u.rd (fabTrainFails p) = min (s.rd (fabTrainFails p) + 1) 255) ∧
      (st = 4 → u.rd (fabState p) = 5) ∧
      (st = 5 → u.rd (fabState p) = 6 ∧ (u.fport p).grant = e.credits ∧ u.reg (fabPartner p).a = e.place ∧ (s.rd (fabLevel p) ≤ 4 →
        u.rd (levelPortsUp (s.rd (fabLevel p))) = (s.rd (levelPortsUp (s.rd (fabLevel p))) + 1) % 32) ∧
        (u.on (fabFenceDiff p) ↔ s.rd (fabVer p) = 3 ∧ (e.mode ≠ s.rd (fenceMode p) ∨ e.job ≠ s.rd (fenceJob p))))) ∧
  (∀ (p : PortId) (s : State), 1 ≤ s.rd (fabState p) → s.rd (fabState p) ≤ 5 →
    ∃ u, exec (.fabricTrainStageTimeout p) s = .next u ∧ u.rd (fabState p) = 0 ∧ u.rd (fabWidth p) = 0 ∧
      u.rd (fabTrainFails p) = min (s.rd (fabTrainFails p) + 1) 255 ∧ ∃ f ∈ u.gathered, f.code = 0x0600 ∧ f.kind = 8 ∧ f.index = (p : Nat)) ∧
  (∀ (p : PortId) (c : Instr) (s : State), ((∃ src, c = .fabricRetrain src p ∧ s.mayWrite src (0x290000 + 0x400 * p) ∧ s.domOn (23 + p / 8)) ∨
      (c = .fabricPartnerRetrain p ∧ s.portUp p)) →
    ∃ u, exec c s = .next u ∧ u.rd (fabState p) = 0 ∧ u.rd (fabWidth p) = 0 ∧ u.rd (fabVer p) = 0 ∧ u.rd (fabLanes p) = 0 ∧
      (u.fport p).bad = [] ∧ (u.fport p).narrowing = false ∧ u.reg (fenceMode p).a = s.reg (fenceMode p).a ∧ u.fabTx = s.fabTx ∧ SameMemory s u) ∧
  (∀ (p : PortId) (lane : Fin 4) (errors n : Nat) (c : Instr) (s : State), s.portUp p → bitAt (s.rd (fabLanes p)) lane →
    (c = .fabricLaneLossOfLock p lane ∨ (c = .fabricBerWindow p lane errors ∧ 24 * 2 ^ 30 < errors * 100000) ∨
      (c = .fabricFlitReceive p (.bad true [lane] n) ∧ lookMap 0 (s.fport p).cw lane = 3)) →
    ∃ u, exec c s = .next u ∧ lane.val ∈ (u.fport p).bad ∧ (u.fport p).narrowing ∧ u.rd (fabState p) = 6 ∧ u.fabTx = s.fabTx ∧ SameMemory s u) ∧
  (∀ (p : PortId) (lane : Fin 4) (errors : Nat) (s : State), errors * 100000 ≤ 24 * 2 ^ 30 →
    exec (.fabricBerWindow p lane errors) s = .next s) ∧
  (∀ (p : PortId) (lane : Fin 4) (s : State), ∃ u, exec (.fabricCodewordWindowExpiry p lane) s = .next u ∧ lookMap 0 (u.fport p).cw lane = 0 ∧
    (∀ i, i ≠ lane.val → lookMap 0 (u.fport p).cw i = lookMap 0 (s.fport p).cw i) ∧ u = { s with fports := u.fports }) ∧
  (∀ (p : PortId) (unc : Bool) (lane : Fin 4) (later : Nat) (s : State), s.portUp p → lookMap 0 (s.fport p).cw lane < 3 →
    ∃ u, exec (.fabricFlitReceive p (.bad unc [lane] later)) s = .next u ∧
      u.rd (fabReplays p) = min (s.rd (fabReplays p) + (later + 1)) (2 ^ 32 - 1) ∧
      u.rd (fabFecUncorr p) = (if unc then min (s.rd (fabFecUncorr p) + 1) (2 ^ 32 - 1) else s.rd (fabFecUncorr p)) ∧
      lookMap 0 (u.fport p).cw lane = lookMap 0 (s.fport p).cw lane + 1 ∧ (u.fport p).bad = (s.fport p).bad ∧
      OnlyRegs [0x29001C + 0x400 * p, 0x290028 + 0x400 * p] { s with fports := u.fports } u) ∧
  (∀ (p : PortId) (corrected bytes freed spare : Nat) (credits : List (Nat × Nat)) (s : State), s.portUp p → s.fabWait = [] →
    ∃ u, exec (.fabricFlitReceive p (.good corrected bytes freed spare credits)) s = .next u ∧
      u.reg64 (fabFecCorr p) = (s.reg64 (fabFecCorr p) + corrected) % 2 ^ 64 ∧
      (s.rd (fabLevel p) ≤ 4 → u.reg64 (levelRx (s.rd (fabLevel p))) = (s.reg64 (levelRx (s.rd (fabLevel p))) + bytes) % 2 ^ 64) ∧
      u.rd fabSpareDrops = min (s.rd fabSpareDrops + spare) (2 ^ 32 - 1) ∧ u.fabTx = freePackets p freed s.fabTx ∧
      (∀ key n, credits = [(key, n)] → lookMap 0 (u.fport p).used key = lookMap 0 (s.fport p).used key - n) ∧
      (credits = [] → u.fports = s.fports) ∧ (u.fport p).grant = (s.fport p).grant ∧
      u = { s with regs := u.regs, fabTx := u.fabTx, fports := u.fports }) ∧
  ∀ (p : PortId) (s : State) (good : List Nat) (old m : Nat), s.portUp p → (s.fport p).narrowing → old = s.rd (fabWidth p) →
    good = (List.range 4).filter (fun i => !(decide (i ∈ (s.fport p).bad))) →
    m = min (if old = 3 then 4 else old) (if 4 ≤ good.length then 4 else if 2 ≤ good.length then 2 else good.length) →
    ∃ u, exec (.fabricNarrowComplete p) s = .next u ∧ (u.fport p).narrowing = false ∧ 7 ∈ u.aplic ∧ SameMemory s u ∧
      (0 < m → u.rd (fabState p) = 6 ∧ u.rd (fabWidth p) = (if m = 4 then 3 else m) ∧ u.fabTx = s.fabTx ∧
        (∀ i < 4, bitAt (u.rd (fabLanes p)) i ↔ i ∈ good.take m) ∧
        ∃ f ∈ u.gathered, f.code = 0x0601 ∧ f.kind = 8 ∧ f.index = (p : Nat)) ∧
      (m = 0 → u.rd (fabState p) = 7 ∧ u.rd (fabWidth p) = 0 ∧ u.fabTx = s.fabTx.filter (fun k => decide (k.1 ≠ p.val)) ∧
        ∃ f ∈ u.gathered, f.code = 0x0602 ∧ f.kind = 8 ∧ f.index = (p : Nat))

/-- For each of the twelve packet commands on a port that is Up: a packet of VC 7 is only counted; one whose header does not check or
whose channel is not that of its type is only counted in BAD_HDR and raises 0x0603; one that the fence does not pass is only
counted in FENCE_DROPS. A packet for another device goes on through the one port of its route, unchanged but for HOPS and the half
of the ring's credits that it keeps to, where it may leave (its credits and, of a request, those for its response are there; a
Sync packet perhaps ahead of others), and else waits; a response first gives back what its request took. After 32 hops it is
counted and, a request, answered with status 8. One for a unit that does not take its type does nothing but, a request, answer
status 8. (R357, R358, R360, R361, R363, R364, R367, R370, R371, R374) -/
def Obligations.PacketsAreScreenedAndForwarded : Prop :=
  ∀ q ∈ packetRows, ∀ (p : PortId) (k : Packet) (s : State), k.type = q.1 → s.portUp p →
    (k.vc = 7 → ∃ u, exec (q.2 p k) s = .next u ∧ u.rd fabSpareDrops = min (s.rd fabSpareDrops + 1) (2 ^ 32 - 1) ∧
      OnlyRegs [0x280020] s u) ∧
    (k.vc ≠ 7 → (k.hdrOk = false ∨ vcOfType k.type ≠ some k.vc) → ∃ u f, exec (q.2 p k) s = .next u ∧
      u.rd fabBadHdr = min (s.rd fabBadHdr + 1) (2 ^ 32 - 1) ∧ u.gathered = s.gathered ++ [f] ∧ f.code = 0x0603 ∧ f.cls = 0 ∧ f.kind = 8 ∧
      f.index = (p : Nat) ∧ OnlyRegs [0x280010] { s with gathered := u.gathered } u) ∧
    (k.hdrOk → vcOfType k.type = some k.vc → s.fencePasses p k.vc k.job = false → ∃ u, exec (q.2 p k) s = .next u ∧
      u.rd (fenceDrops p) = min (s.rd (fenceDrops p) + 1) (2 ^ 32 - 1) ∧ OnlyRegs [0x290018 + 0x400 * p] s u) ∧
    (k.hdrOk → vcOfType k.type = some k.vc → s.fencePasses p k.vc k.job → devPlace k.dest ≠ s.place → k.hops < 32 →
      ∀ o k' r, s.routePorts k.dest = [o] → s.fencePasses o k.vc k.job → s.fabWait = [] →
        k' = { k with hops := k.hops + 1, upper := decide (s.rd (fabLevel p) = 0) && decide (s.rd (fabLevel o) = 0) && (k.upper || s.on (fabDateline p)) } →
        r = (if k.isAnswer then s.releaseFor k else s) →
        (r.mayLeave ⟨o, some p, k'⟩ → ∃ u, exec (q.2 p k) s = .next u ∧ (o, k') ∈ u.fabTx ∧ u.fabWait = [] ∧
          (k.vc ≠ 0 → u.fabTx = s.fabTx ++ [(o, k')]) ∧ u = { s with
            regs := u.regs, fabTx := u.fabTx, fports := u.fports, fabRsv := u.fabRsv, freeCtr := u.freeCtr }) ∧
        (r.mayLeave ⟨o, some p, k'⟩ = false → ∃ u, exec (q.2 p k) s = .next u ∧ u = { r with fabWait := [⟨o, some p, k'⟩] })) ∧
    (k.hdrOk → vcOfType k.type = some k.vc → s.fencePasses p k.vc k.job → devPlace k.dest ≠ s.place → 32 ≤ k.hops →
      ∃ u, exec (q.2 p k) s = .next u ∧ u.rd fabHopLimit = min (s.rd fabHopLimit + 1) (2 ^ 32 - 1) ∧ SameMemory s u ∧
        (k.type ∉ [1, 2, 3, 24] → u.fabTx = s.fabTx) ∧
        (k.type ∈ [1, 2, 3, 24] → ∀ o, OneRoute s k.src o 3 → ∃ r, u.fabTx = s.fabTx ++ [(o, r)] ∧ r.status = 8 ∧ r.tag = k.tag)) ∧
    (k.hdrOk → vcOfType k.type = some k.vc → s.fencePasses p k.vc k.job → devPlace k.dest = s.place →
      unitAccepts (k.dest % 4096) k.type = false → ∃ u, exec (q.2 p k) s = .next u ∧ SameMemory s u ∧
        (k.type ∉ [1, 2, 3, 24] → u = s) ∧
        (k.type ∈ [1, 2, 3, 24] → ∀ o, OneRoute s k.src o 3 → ∃ r, u.fabTx = s.fabTx ++ [(o, r)] ∧ r.status = 8 ∧ r.tag = k.tag))

/-- A read, write or operation write for unit 0 whose entry is not valid, of another job, without the permission, or out of bounds is
answered with status 1 to 4, counted twice, and touches no memory. An admitted read of a plain cellar line answers its bytes with
status 0. An admitted write whose CRC-32C agrees leaves its bytes to be read there, one with ARR increments its tally, and is
acknowledged with status 0; an operation write does to the cellar what the operation command of its OPC does. A write whose
payload fails its CRC-32C is answered status 6. (R321, R322, 11_translation_and_hatches.md Table 11.6) -/
def Obligations.HatchRequestsAreJudgedAndServed : Prop :=
  (∀ q ∈ ([(1, .rdReq), (2, .wr), (3, .opwr)] : List (Nat × (PortId → Packet → Instr))), ∀ (p : PortId) (k : Packet) (s : State),
    Arrives s p k → k.type = q.1 → k.hatch < 256 → rejection s k ≠ 0 → ∃ u, exec (q.2 p k) s = .next u ∧ SameMemory s u ∧
      u.rd (inRejects k.hatch) = min (s.rd (inRejects k.hatch) + 1) (2 ^ 32 - 1) ∧
      u.rd (hatchRej (rejection s k)) = min (s.rd (hatchRej (rejection s k)) + 1) (2 ^ 32 - 1) ∧
      ∀ o, OneRoute s k.src o 3 → ∃ r, u.fabTx = s.fabTx ++ [(o, r)] ∧ r.status = rejection s k ∧ r.tag = k.tag ∧ r.dest = k.src ∧
        r.type = if k.type = 1 then 8 else 9) ∧
  ∀ (p : PortId) (k : Packet) (s : State) (a o : Nat) (l : Loc), Arrives s p k → k.hatch < 256 → rejection s k = 0 →
    OneRoute s k.src o 3 → a = s.inBase k.hatch + k.off → a < cellarSize → 0 < k.len → a % 128 + k.len ≤ 128 → PlainLine s l a →
    (s.hamper l.home).length < 256 →
    (k.type = 1 → ∃ u r, exec (.rdReq p k) s = .next u ∧ u.fabTx = s.fabTx ++ [(o, r)] ∧ r.type = 8 ∧ r.status = 0 ∧ r.tag = k.tag ∧
      r.payload = readBytes s.cellar a k.len ∧ r.crc = crc32c r.payload ∧ SameMemory s u) ∧
    (k.type = 2 → k.crcOk → ∃ u v r, exec (.wr p k) s = .next u ∧ u.fabTx = s.fabTx ++ [(o, r)] ∧ r.type = 9 ∧ r.status = 0 ∧ r.tag = k.tag ∧
      u.incs = s.incs ++ (if k.arr then [⟨k.tally, none, 1, 0, k.src, l.stack / 5⟩] else []) ∧
      exec (.cellarRead a k.len 0) u = .next v ∧ v.answer = ⟨0, k.payload⟩ ∧ u.shelf = s.shelf) ∧
    (k.type = 2 → k.crcOk = false → ∃ u r, exec (.wr p k) s = .next u ∧ u.fabTx = s.fabTx ++ [(o, r)] ∧ r.status = 6 ∧ u.incs = s.incs ∧
      SameMemory s u) ∧
    (k.type = 3 → k.crcOk → ∀ q ∈ opRows, q.1 = k.opc → ∃ u v r, exec (.opwr p k) s = .next u ∧ exec (q.2 a k.payload) s = .next v ∧
      u.cellar = v.cellar ∧ u.hampers = v.hampers ∧ u.fabTx = s.fabTx ++ [(o, r)] ∧ r.type = 9 ∧ r.status = 0 ∧ r.tag = k.tag)

/-- A response whose tag a request holds frees it and its window's count, and ends the wait of its chunk: with the data of a read
whose CRC agrees, as accepted for an acknowledgement, or with the status of Table 13.7. A response to no request is only counted.
A request that times out ends with DEVICE_ABSENT, is counted, and raises 0x0604 for the port by which it left. SYNC_INC adds its
signed amount to the package tally it names while no control bundle on its way holds it, and any other address is dropped. A CTRL
message joins a driver queue with room and signals source 3. A MGMT register read for unit 0 is answered with the words of the
register map; a frame that does not check is only counted. (R319, R359, R365, R366, R367, R368, R233) -/
def Obligations.ResponsesMessagesAndManagementPackets : Prop :=
  (∀ (p : PortId) (k : Packet) (s : State) (q : FabReq) (r : Run) (c : Chunk) (st : Nat) (i : Instr), Arrives s p k → s.fabReqs = [q] →
    q.tag = k.tag → ChunkWaits s q.tile k.tag r c → ((i = .rdResp p k ∧ k.type = 8 ∧ q.read ∧ c.win = none) ∨ (i = .wrAck p k ∧ k.type = 9 ∧ q.read = false)) →
    st = (if k.status = 0 then (if q.read ∧ k.crcOk = false then stCRC else 0) else if k.status ≤ 4 then stPERMISSION
      else if k.status = 6 then stCRC else if k.status = 7 then stENGINE else stABSENT) →
    ∃ u, exec i s = .next u ∧ u.fabReqs = [] ∧ (c.unsent = false → u.rd (outInflight q.w) = s.rd (outInflight q.w) - 1) ∧ SameMemory s u ∧
      ((u.tile q.tile).eng2).run = some { r with flight := [if st ≠ 0 then { c with waitTag := none, fail := some st, unsent := false }
        else if q.read then { c with waitTag := none, data := k.payload, crc := crc32c k.payload } else { c with waitTag := none }] }) ∧
  (∀ (p : PortId) (k : Packet) (s : State) (i : Instr), Arrives s p k → (∀ q ∈ s.fabReqs, q.tag ≠ k.tag) →
    ((i = .rdResp p k ∧ k.type = 8) ∨ (i = .wrAck p k ∧ k.type = 9)) →
    ∃ u, exec i s = .next u ∧ u.rd fabLateResp = min (s.rd fabLateResp + 1) (2 ^ 32 - 1) ∧ OnlyRegs [0x28001C] s u) ∧
  (∀ (s : State) (q : FabReq) (r : Run) (c : Chunk), s.fabReqs = [q] → ChunkWaits s q.tile q.tag r c →
    ∃ u f, exec (.fabricResponseTimeout q.tag) s = .next u ∧ u.fabReqs = [] ∧ u.rd fabRespTimeouts = min (s.rd fabRespTimeouts + 1) (2 ^ 32 - 1) ∧
      u.gathered = s.gathered ++ [f] ∧ f.code = 0x0604 ∧ f.kind = 8 ∧ f.index = q.port ∧ SameMemory s u ∧
      ((u.tile q.tile).eng2).run = some { r with flight := [{ c with waitTag := none, fail := some stABSENT, unsent := false }] }) ∧
  (∀ (p : PortId) (k : Packet) (s : State) (n : Nat), Arrives s p k → k.type = 16 →
    (n < 1024 → k.tally = 0xC000 + n → s.domPowered 22 → s.legHeld (5 + p.val / 8) = false → ∃ u, exec (.syncInc p k) s = .next u ∧
      u.rd (TallyLoc.pkg n).value = clamp16 ((s.rd (TallyLoc.pkg n).value : Int) + signed16 k.tag) ∧
      OnlyRegs [0x430000 + 16 * n, 0x430004 + 16 * n] { s with gathered := u.gathered } u) ∧
    (k.tally < 0xC000 → ∃ u f, exec (.syncInc p k) s = .next u ∧ u.rd tlyDropped = min (s.rd tlyDropped + 1) (2 ^ 32 - 1) ∧
      u.gathered = s.gathered ++ [f] ∧ f.code = 0x0301 ∧ OnlyRegs [0x439000] { s with gathered := u.gathered } u)) ∧
  (∀ (p : PortId) (k : Packet) (s : State), Arrives s p k → k.type = 20 →
    (k.crcOk → s.drvMsgs.length < 64 → ∃ u, exec (.ctrl p k) s = .next u ∧ u.drvMsgs = s.drvMsgs ++ [⟨none, k.payload⟩] ∧ 3 ∈ u.aplic ∧
      u.rd drvQueued = s.drvMsgs.length + 1 ∧ OnlyRegs [0x49400] { s with drvMsgs := u.drvMsgs, aplic := u.aplic } u) ∧
    ((k.crcOk = false ∨ 64 ≤ s.drvMsgs.length) → exec (.ctrl p k) s = .next s)) ∧
  ∀ (p : PortId) (k : Packet) (s : State) (f : List Byte), Arrives s p k → k.type = 31 → f = k.payload →
    (k.crcOk → frameCrcOk f → k.len = 20 → mgOp f = 1 → mgLen f ≤ 480 → mgLen f % 4 = 0 → mgPlace f = s.place → k.dest % 4096 = 0 →
      s.regPowered (mgAddr f) → ∀ o, s.routePorts k.src = [o] → PortClear s o → ∃ u r, exec (.mgmt p k) s = .next u ∧ u.fabTx = s.fabTx ++ [(o, r)] ∧
        r.type = 31 ∧ r.vc = 6 ∧ frameCrcOk r.payload ∧ mgOp r.payload = 4 ∧ mgTag r.payload = mgTag f ∧
        (r.payload.drop 16).take (mgLen f) = s.mapRead (mgAddr f) (mgLen f) ∧ u = { s with regs := u.regs, fabTx := u.fabTx, fports := u.fports }) ∧
    ((k.crcOk = false ∨ frameCrcOk f = false ∨ mgPlace f ≠ s.place) → ∃ u, exec (.mgmt p k) s = .next u ∧
      u.rd fabBadHdr = min (s.rd fabBadHdr + 1) (2 ^ 32 - 1) ∧ OnlyRegs [0x280010] s u)

/-- A permitted aligned write of FAB.ROUTE takes effect if every mask names only ports of its level, else it only sets ROUTE_REFUSED.
A ring port that has left Up is taken out of every FAB.ROUTE[0] entry and out of no other. A fence write that the job state allows
sets JOB_ID alone at once where MODE stays, or sets both, retrains the port, and discards and counts the packets it holds on VCs 0
to 5; one that is not allowed changes nothing. (R372, R373, R376, R377, R551) -/
def Obligations.RoutesFencesAndRingLoss : Prop :=
  (∀ (src : Src) (l : Fin 5) (i : Fin 16) (wide : Bool) (v : BitVec 64) (s : State) (a : Nat), a = 0x2A0000 + 0x40 * l + 4 * i →
    s.mayWrite src a → s.domOn 22 → aligned a wide → 2 * i.val < (if l.val = 0 ∨ l.val = 4 then 8 else if l.val = 1 then 16 else 32) →
    ((∀ j < (if wide then 4 else 2), ∀ q < 16, bitAt v.toNat (16 * j + q) → s.rd (fabLevel q) = l.val) →
      ∃ u, exec (.routeWrite src l i wide v) s = .next u ∧ u.reg a = writtenWord a (s.reg a) (v.setWidth 32) ∧
        (wide → u.reg (a + 4) = writtenWord (a + 4) (s.reg (a + 4)) ((v >>> 32).setWidth 32)) ∧
        OnlyRegs (if wide then [a, a + 4] else [a]) s u) ∧
    ((∃ j < (if wide then 4 else 2), ∃ q < 16, bitAt v.toNat (16 * j + q) ∧ s.rd (fabLevel q) ≠ l.val) →
      ∃ u, exec (.routeWrite src l i wide v) s = .next u ∧ u.on fabRouteRefused ∧ OnlyRegs [0x280000] s u)) ∧
  (∀ (p : PortId) (s : State), s.rd (fabLevel p) = 0 → (s.fport p).downAt ≠ none → s.portUp p = false →
    ∃ u, exec (.ringRouteUpdate p) s = .next u ∧ OnlyRegs [0x2A0000, 0x2A0004, 0x2A0008, 0x2A000C] s u ∧
      ∀ v < 8, ∀ q < 16, bitAt (u.rd (fabRoute 0 v)) q = if q = p.val then false else bitAt (s.rd (fabRoute 0 v)) q) ∧
  ∀ (src : Src) (p : PortId) (w : BitVec 32) (s : State) (m j : Nat) (ok : Bool), s.mayWrite src (0x290010 + 0x400 * p) → s.domOn (23 + p / 8) →
    m = w.toNat % 4 → j = w.toNat / 256 →
    (ok ↔ if s.rd jobState = 2 then m = 2 ∨ (m = 1 ∧ j = s.rd jobId ∧ devPlace (s.rd (fabPartner p)) ∈ s.job.places) else m = 0) →
    (ok → s.rd (fenceMode p) = m → ∃ u, exec (.fenceWrite src p w) s = .next u ∧ u.rd (fenceJob p) = j ∧ u.rd (fenceMode p) = m ∧
      OnlyRegs [0x290010 + 0x400 * p] s u) ∧
    (ok → s.rd (fenceMode p) ≠ m → ∃ u, exec (.fenceWrite src p w) s = .next u ∧ u.rd (fenceJob p) = j ∧ u.rd (fenceMode p) = m ∧
      u.rd (fabState p) = 0 ∧ u.rd (fabWidth p) = 0 ∧ SameMemory s u ∧
      u.fabTx = s.fabTx.filter (fun k => !(decide (k.1 = p.val) && decide (k.2.vc ≤ 5))) ∧
      u.fabWait = s.fabWait.filter (fun q => !(decide (q.port = p.val) && decide (q.pkt.vc ≤ 5))) ∧
      u.rd (fenceDrops p) = min (s.rd (fenceDrops p) + ((s.fabTx.filter fun k => decide (k.1 = p.val) && decide (k.2.vc ≤ 5)).length +
        (s.fabWait.filter fun q => decide (q.port = p.val) && decide (q.pkt.vc ≤ 5)).length)) (2 ^ 32 - 1)) ∧
    (ok = false → exec (.fenceWrite src p w) s = .next s)

/-- A tail write that fits in eight slots hands them over, idle. An illegal first slot is retired ILLEGAL; a legal one sends
COLL_READY to its previous member. READY from the next member starts the first step: segment RANK (all-gather: RANK + 1) of one
line is read and sent with its step and OPC. Data of the segment to receive is combined or written and acknowledged; a CRC failure
ends the descriptor with 8. An ACK counts, or ends it with its status; an abort ends it with 6 and goes on the way it travelled; a
timeout ends it with 5. A completed last step ends it DONE and increments DONE_TALLY; an earlier one sends the next segment. Every
ending but DONE and 6 sends COLL_ABORT both ways and increments no tally. (R378, R379, R380, R381, R382, 13_grenlink_fabric.md
Table 13.16) -/
def Obligations.CollectivesRunTheRing : Prop :=
  (∀ (src : Src) (e : CollId) (w : BitVec 32) (s : State) (old n : Nat), s.mayWrite src (collBase e) → s.collOn e → old = s.rd (collTail e) →
    n = (w.toNat % 16 + 16 - old) % 16 →
    (n ≤ 8 - (old + 16 - s.rd (collHead e)) % 16 → ∃ u, exec (.collTailWrite src e w) s = .next u ∧ u.rd (collTail e) = w.toNat % 16 ∧
      u.rd (collHead e) = s.rd (collHead e) ∧ u = { s with regs := u.regs } ∧
      ∀ i < n, u.rd (collState e (old + i)) = 0 ∧ u.reg64 (collBytes e (old + i)) = 0) ∧
    (8 - (old + 16 - s.rd (collHead e)) % 16 < n → exec (.collTailWrite src e w) s = .next s)) ∧
  (∀ (e : CollId) (s : State) (p : Nat) (d : BitVec 512), s.collOn e → s.colls = [] → p = s.rd (collHead e) → s.rd (collTail e) ≠ p →
    s.rd (collState e p) = 0 → d = s.collDesc e p →
    (CollFields d → CollPorts s d → (e.val, cId d) ∉ s.collEarly → ∃ u k, exec (.collStart e) s = .next u ∧ u.rd (collState e p) = 1 ∧
      u.colls = [⟨e, p, d, 0, false, 0, 0, []⟩] ∧ (s.fabTx ++ [(cPrev d, k)]).Perm u.fabTx ∧ k.type = 17 ∧ k.tag = cId d ∧
      u.rd (collId e p) = cId d ∧ u.rd (collHead e) = p ∧ SameMemory s u) ∧
    ((cRsv d ≠ 0 ∨ cNmem d ≤ cRank d ∨ cellarSize < cBase d + cNmem d * cSeg d ∨ s.portUp (cNext d) = false ∨ s.portUp (cPrev d) = false) →
      ∃ u, exec (.collStart e) s = .next u ∧ u.rd (collState e p) = 4 ∧ u.rd (collHead e) ≠ p ∧ u.colls = [] ∧ u.fabTx = s.fabTx ∧
      SameMemory s u)) ∧
  (∀ (p : PortId) (k : Packet) (s : State) (c : Coll) (d : BitVec 512) (i : Instr) (l : Loc) (a g : Nat), d = c.desc → c.e < 2 → c.ptr < 16 →
    s.colls = [c] → CollFields d → CollPorts s d → cSeg d = 128 → s.collOn c.e →
    ((i = .collReady p k ∧ Arrives s p k ∧ k.type = 17 ∧ k.engine = c.e ∧ k.tag = cId d ∧ c.ready = false ∧ g = c.step) ∨
      (∃ e : CollId, e.val = c.e ∧ i = .collStepComplete e c.ptr ∧ c.ready ∧ c.sent = 1 ∧ c.acked = 1 ∧ c.gotIn c.step = 128 ∧ g = c.step + 1)) →
    g < cSteps d → a = cBase d + 128 * (if cGather d g then (cRank d + 1 + cNmem d - cHalf d g) % cNmem d
      else (cRank d + cNmem d - cHalf d g) % cNmem d) → PlainLine s l a →
    ∃ u m, exec i s = .next u ∧ u.colls = [{ c with ready := true, step := g, sent := 1, acked := 0 }] ∧ SameMemory s u ∧
      u.fabTx = s.fabTx ++ [(cNext d, m)] ∧ m.type = 24 ∧ m.tag = cId d ∧ m.step = cHalf d g ∧ m.payload = readBytes s.cellar a 128 ∧
      m.off = a - cBase d ∧ m.opc = (if cGather d g then 0 else cOpc d)) ∧
  (∀ (e : CollId) (s : State) (c : Coll), s.colls = [c] → c.e = e.val → c.ready → c.sent = cPackets c.desc → c.acked = c.sent →
    c.gotIn c.step = cSeg c.desc → c.step + 1 = cSteps c.desc → ∃ u, exec (.collStepComplete e c.ptr) s = .next u ∧ u.colls = [] ∧
      u.rd (collState e c.ptr) = 3 ∧ u.rd (collSteps e c.ptr) = (c.step + 1) % 256 ∧ u.incs = s.incs ++ [⟨cTally c.desc, none, 1, 0, s.place, 5 + e.val⟩] ∧
      u.fabTx = s.fabTx ∧ SameMemory s u) ∧
  (∀ (p : PortId) (k : Packet) (s : State) (c : Coll) (d : BitVec 512) (l : Loc) (a g seg o : Nat), Arrives s p k → d = c.desc → c.e < 2 →
    c.ptr < 16 → s.colls = [c] → s.collOn c.e → k.engine = c.e → k.tag = cId d → k.type = 24 →
    g = (if cOp d = 3 ∧ k.opc = 0 then k.step + (cNmem d - 1) else k.step) → (g = c.step ∨ g = c.step + 1) → g < cSteps d →
    seg = (if cGather d g then (cRank d + cNmem d - cHalf d g) % cNmem d else (cRank d + cNmem d + cNmem d - cHalf d g - 1) % cNmem d) →
    seg * cSeg d ≤ k.off → k.off + k.len ≤ (seg + 1) * cSeg d → a = cBase d + k.off → OneRoute s k.src o 3 →
    (k.crcOk → k.len = 128 → a % 128 = 0 → PlainLine s l a → ∃ u r, exec (.collData p k) s = .next u ∧
      u.fabTx = s.fabTx ++ [(o, r)] ∧ r.type = 10 ∧ r.status = 0 ∧ r.tag = k.tag ∧
      u.colls = [{ c with got := putMap 0 c.got g (c.gotIn g + 128) }] ∧
      (cGather d g → readBytes u.cellar a 128 = k.payload) ∧
      (cGather d g = false → ∀ q ∈ opRows, q.1 = cOpc d → ∃ v, exec (q.2 a k.payload) s = .next v ∧ u.cellar = v.cellar) ∧
      ∀ x, x < a ∨ a + 128 ≤ x → readByte u.cellar x = readByte s.cellar x) ∧
    (k.crcOk = false → ∃ u r, exec (.collData p k) s = .next u ∧ u.colls = [] ∧ u.rd (collState c.e c.ptr) = 8 ∧ SameMemory s u ∧
      (o, r) ∈ u.fabTx ∧ r.type = 10 ∧ r.status = 6 ∧ r.tag = k.tag)) ∧
  (∀ (p : PortId) (k : Packet) (s : State) (c : Coll), Arrives s p k → c.e < 2 → c.ptr < 16 → s.colls = [c] → k.engine = c.e → k.tag = cId c.desc →
    (k.type = 10 → k.status = 0 → k.step = cHalf c.desc c.step → c.acked < c.sent →
      exec (.collAck p k) s = .next { s with colls := [{ c with acked := c.acked + 1 }] }) ∧
    (k.type = 10 → k.status ≠ 0 → ∃ u, exec (.collAck p k) s = .next u ∧
      CollEnded s u c (if k.status = 6 then 8 else if k.status = 7 then 9 else 7)) ∧
    (k.type = 18 → ∃ u, exec (.collAbort p k) s = .next u ∧ u.colls = [] ∧ u.rd (collState c.e c.ptr) = 6 ∧ SameMemory s u ∧ u.incs = s.incs ∧
      (CollPorts s c.desc → ∃ m, m.type = 18 ∧ m.tag = cId c.desc ∧
        (s.fabTx ++ [(if p.val = cPrev c.desc then cNext c.desc else cPrev c.desc, m)]).Perm u.fabTx))) ∧
  ∀ (e : CollId) (s : State) (c : Coll), s.colls = [c] → c.e = e.val → ∃ u, exec (.collPartnerTimeout e c.ptr) s = .next u ∧ CollEnded s u c 5

/-- PERST# or a path loss takes the link and configuration space to reset (PERST# as it then stands), counts and raises 0x0702, puts
every ring of the port in HOST_PATH_LOST, and no chunk to its aperture goes on unfailed; a COPY that touches it ends and its ring
shows it in LOST_FIRST and LOST_COUNT. A port that may train comes up with its speed, width, CXL as offered, and CFG_READY. A
configuration request is answered RRS before CFG_READY; later BAR bases are aligned to their sizes and enables take effect. A CXL
snoop is answered RspIHitI. DOE key messages act in a session only. A held BAR0 access that times out is answered Completer Abort,
counted, and its block is blocked. (R388, R389, R391, R392, R393, R395, R416, R417, R418, R419) -/
def Obligations.HostPortsLinkConfigureAndLosePaths : Prop :=
  (∀ (p : HostPortId) (c : Instr) (s : State), ((c = .perstAssert p ∧ (s.hport p).perst = false) ∨ (c = .hostPathLoss p ∧ s.on (hpLinkUp p))) →
    (∀ x ∈ s.cmds, x.touches p = false) →
    ∃ u f, exec c s = .next u ∧ u.on (hpLinkUp p) = false ∧ u.on (hpCfgReady p) = false ∧
      u.hport p = { HPort.fresh with perst := (s.hport p).perst || decide (c = .perstAssert p) } ∧
      u.rd (hpPathLosses p) = min (s.rd (hpPathLosses p) + 1) (2 ^ 32 - 1) ∧ u.gathered = s.gathered ++ [f] ∧ f.code = 0x0702 ∧ f.kind = 9 ∧
      f.index = (p : Nat) ∧ (∀ r < 16, u.rd (ringState (16 * p + r)) = 5) ∧ SameMemory s u ∧
      (∀ k ∈ u.flights, ∀ x, k.dst = .hostAp p x → k.fail ≠ none) ∧ ∀ x ∈ u.cmds, x.port = p.val → x.noHost) ∧
  (∀ (p : HostPortId) (s : State) (c : Cmd), s.on (hpLinkUp p) → s.cmds = [c] → c.touches p → c.ring < 32 →
    ∃ u, exec (.hostPathLoss p) s = .next u ∧ u.cmds = [] ∧ u.rd (ringLostFirst c.ring) = c.seq ∧ u.rd (ringLostCount c.ring) = 1) ∧
  (∀ (p : HostPortId) (s : State), ∃ u, exec (.perstRelease p) s = .next u ∧ u.hport p = { s.hport p with perst := false } ∧
    u = { s with hports := u.hports }) ∧
  (∀ (p : HostPortId) (speed : Fin 6) (width : Fin 4) (cxl : Bool) (s : State), s.on (hpLinkUp p) = false → (s.hport p).perst = false →
    s.pins.resetReleased → s.domOn 27 → s.portLogic p → s.on (pcieRefOk p) →
    ∃ u, exec (.hostPortLinkUp p speed width cxl) s = .next u ∧ u.on (hpLinkUp p) ∧ u.rd (hpSpeed p) = speed.val ∧
      u.rd (hpWidth p) = width.val ∧ u.on (hpCxl p) = (cxl && s.on (hpCxlOffer p)) ∧ u.on (hpCfgReady p) ∧ OnlyRegs [0x10000 + 0x1000 * p] s u) ∧
  (∀ (p : HostPortId) (q : CfgReq) (s : State), s.on (hpLinkUp p) →
    (s.on (hpCfgReady p) = false → exec (.configurationRequest p q) s = .next { s with answer := ⟨6, []⟩ }) ∧
    (s.on (hpCfgReady p) → ∃ u, exec (.configurationRequest p q) s = .next u ∧ u.answer = ⟨0, []⟩ ∧ SameMemory s u ∧
      (q = .read → u = { s with answer := ⟨0, []⟩ }) ∧
      (∀ b, q = .bar0 b → u.hport p = { s.hport p with bar0 := b / 2 ^ 26 * 2 ^ 26 }) ∧
      (∀ b, q = .bar2 b → (u.hport p).bar2 % 2 ^ (36 + (u.hport p).bar2Size) = 0 ∧ (u.hport p).bar2 ≤ b) ∧
      (∀ z : Fin 5, q = .bar2Size z → u.hport p = { s.hport p with bar2Size := z }) ∧
      (∀ m b, q = .command m b → u.hport p = { s.hport p with mse := m } ∧ u.on (hpBme p) = b) ∧
      (∀ d, q = .power d → u.hport p = { s.hport p with dstate := if d then 3 else 0 }) ∧
      (∀ i b lo hi, q = .ideAssoc i b lo hi → u.hport p = { s.hport p with
        ideAssoc := putMap (1, 0) (s.hport p).ideAssoc (2 * i.val + b.val) (lo, hi) } ∧ u.regs = s.regs) ∧
      ∀ e m, q = .msix e m → (u.hport p).msixEn = e ∧ (u.hport p).msixMask = m)) ∧
  (∀ (p : HostPortId) (line : Nat) (s : State), s.on (hpLinkUp p) → s.on (hpCxl p) →
    exec (.cxlHostSnoop p line) s = .next { s with answer := ⟨7, []⟩ }) ∧
  (∀ (p : HostPortId) (q : DoeReq) (s : State), s.on (hpLinkUp p) → s.on (hpCfgReady p) →
    ∃ u, exec (.doeRequest p q) s = .next u ∧ u.doeCount = s.doeCount + 1 ∧ SameMemory s u ∧
      (∀ m, q = .spdm m → u.answer.status = 0 ∧ u.answer.data.length = 64 ∧ u.regs = s.regs) ∧
      (∀ i b, q = .ideKm i b true → bitAt (u.rd (hpIdeSecure p)) i = b ∧ u.answer = ⟨0, []⟩ ∧
        ∀ j < 4, j ≠ i.val → bitAt (u.rd (hpIdeSecure p)) j = bitAt (s.rd (hpIdeSecure p)) j) ∧
      ∀ i b, q = .ideKm i b false → u = { s with doeCount := u.doeCount, answer := ⟨1, []⟩ }) ∧
  ∀ (p : HostPortId) (s : State) (h : Held) (hs : List Held), s.held = h :: hs → h.port = some p.val →
    ∃ u, exec (.bar0AccessTimeout p) s = .next u ∧ u.answer = ⟨2, []⟩ ∧ h.dom ∈ u.bar0Blocked ∧
      u.rd (hpAborts p) = min (s.rd (hpAborts p) + 1) (2 ^ 32 - 1) ∧ h ∉ u.held ∧
      OnlyRegs [0x10030 + 0x1000 * p] { s with held := u.held, bar0Blocked := u.bar0Blocked, answer := ⟨2, []⟩ } u

/-- A BAR0 read of a unit that answers returns the map's bytes; it changes no register but that it starts a stopped crate's clock and
ungates a tile; one of a unit that is off returns all ones and is counted; one of a failed clock or a crate under a slice waits,
held. A port without memory space answers UR, as does one that requires IDE outside a stream, which is counted. A BAR2 read of a
plain line beyond the driver reserve returns its bytes; it waits while a write of the port is on its way. A BAR2 write within a
line joins the way to its home. Both are counted below the reserve. A register write of a core changes a package tally word as its
access codes say, never when its size or alignment is wrong; it is dropped at a unit that is off, and held as a read is. A port's
write to XLT is only counted. A write of GOV.BOUND that breaks its limits only sets BOUND_REFUSED. (R8, R308, R325, R390, R392,
R394, R395, R396, R420, R453, R470, R590) -/
def Obligations.BarAccessesReachRegistersAndTheCellar : Prop :=
  (∀ (p : HostPortId) (a n : Nat) (s : State), s.on (hpLinkUp p) → BarOpen s p → a + n ≤ 2 ^ 26 →
    (s.devReady → msixRange a = false → s.regBlocked a = false → UnitAnswers s a →
      ∃ u, exec (.bar0Read p a n .clear) s = .next u ∧ u.answer = ⟨0, (s.regArouse a).mapRead a n⟩ ∧
        (a < 0x1000000 → u.answer = ⟨0, s.mapRead a n⟩ ∧ u.regs = s.regs) ∧
        u = ((State.regArouse { s with answer := u.answer, held := s.held.filter fun h => decide (h.unit ≠ portUnit p) } a).regUngate a)) ∧
    (s.devReady → msixRange a = false → s.regBlocked a = false → s.regPowered a = false →
      ∃ u, exec (.bar0Read p a n .clear) s = .next u ∧ u.answer = ⟨0, List.replicate n 0xFF#8⟩ ∧
        u.rd (hpAbsent p) = min (s.rd (hpAbsent p) + 1) (2 ^ 32 - 1) ∧ OnlyRegs [0x10034 + 0x1000 * p] { s with answer := u.answer } u) ∧
    (∀ d, s.devReady → msixRange a = false → s.regBlocked a = false → s.regPowered a → regDomain a = some d → s.mustWait d →
      ∃ u, exec (.bar0Read p a n .clear) s = .next u ∧ ⟨portUnit p, d, some p.val⟩ ∈ u.held ∧ u = { s with held := u.held }) ∧
    (s.devReady = false → servedEarly a = false →
      exec (.bar0Read p a n .clear) s = .next { s with answer := ⟨0, List.replicate n 0xFF#8⟩ }) ∧
    (s.devReady → msixRange a = false → s.regBlocked a → exec (.bar0Read p a n .clear) s = .next { s with answer := ⟨2, []⟩ })) ∧
  (∀ (p : HostPortId) (a n : Nat) (ide : Ide) (s : State), s.on (hpLinkUp p) → s.memSpace p = false →
    exec (.bar0Read p a n ide) s = .next { s with answer := ⟨1, []⟩ }) ∧
  (∀ (p : HostPortId) (a n : Nat) (s : State), s.on (hpLinkUp p) → s.memSpace p → s.on (hpIdeRequired p) → a + n ≤ 2 ^ 26 →
    ∃ u, exec (.bar0Read p a n .clear) s = .next u ∧ u.answer = ⟨1, []⟩ ∧ u.rd (hpNonIde p) = min (s.rd (hpNonIde p) + 1) (2 ^ 32 - 1) ∧
      OnlyRegs [0x1002C + 0x1000 * p] { s with answer := u.answer } u) ∧
  (∀ (p : HostPortId) (off n a : Nat) (l : Loc) (s : State), s.on (hpLinkUp p) → BarOpen s p → off + n ≤ 2 ^ (36 + (s.hport p).bar2Size) →
    s.devReady → a = s.bar2Addr p off →
    (s.portPosted p = false → (∀ h, ∀ e ∈ s.hamper h, p.val ∉ e.ports) → PlainLine s l a → driverReserve ≤ a →
      a + max n 1 ≤ cellarSize → a % 128 + n ≤ 128 → ∃ u, exec (.bar2Read p off n .clear) s = .next u ∧
        u.answer = ⟨0, readBytes s.cellar a n⟩ ∧ SameMemory s u) ∧
    (s.portPosted p → exec (.bar2Read p off n .clear) s = .next s)) ∧
  (∀ (p : HostPortId) (off a : Nat) (bs : List Byte) (s : State), BarOpen s p → off + bs.length ≤ 2 ^ (36 + (s.hport p).bar2Size) →
    s.devReady → a = s.bar2Addr p off → bs ≠ [] →
    (driverReserve ≤ a → a + bs.length ≤ cellarSize → a % 128 + bs.length ≤ 128 →
      exec (.bar2Write p off bs .clear) s = .next { s with homeQ := s.homeQ ++ [⟨a, bs, some p.val⟩] }) ∧
    (a < driverReserve → ∃ u, exec (.bar2Write p off bs .clear) s = .next u ∧ u.rd (hpOor p) = min (s.rd (hpOor p) + 1) (2 ^ 32 - 1) ∧
      OnlyRegs [0x10010 + 0x1000 * p] s u)) ∧
  (∀ (c : CoreId) (a size : Nat) (v : BitVec 64) (ide : Ide) (s : State),
    (UnitAnswers s a → 0x430000 ≤ a → a < 0x434000 → a % 4 = 0 → size = 4 → ∃ u, exec (.registerWrite (.hostCore c) a size v ide) s = .next u ∧
      u.reg a = writtenWord a (s.reg a) (v.setWidth 32) ∧ OnlyRegs [a] { s with held := u.held } u) ∧
    (UnitAnswers s a → ((size ≠ 4 ∧ size ≠ 8) ∨ a % size ≠ 0) → ∃ u, exec (.registerWrite (.hostCore c) a size v ide) s = .next u ∧
      u = ((State.regArouse { s with held := u.held } a).regUngate a)) ∧
    (s.regPowered a = false → exec (.registerWrite (.hostCore c) a size v ide) s = .next s) ∧
    (∀ d, s.regPowered a → regDomain a = some d → s.mustWait d → ∃ u, exec (.registerWrite (.hostCore c) a size v ide) s = .next u ∧
      ⟨10 * 2 ^ 24 + c.val, d, none⟩ ∈ u.held ∧ u = { s with held := u.held })) ∧
  (∀ (p : HostPortId) (a : Nat) (v : BitVec 64) (s : State), BarOpen s p → s.devReady → s.regBlocked a = false → UnitAnswers s a →
    0x200000 ≤ a → a < 0x280000 → a % 4 = 0 → ∃ u, exec (.registerWrite (.hostPort p) a 4 v .clear) s = .next u ∧
      u.rd xltHostwDropped = min (s.rd xltHostwDropped + 1) (2 ^ 32 - 1) ∧ OnlyRegs [0x200058] { s with held := u.held } u) ∧
  ∀ (c : CoreId) (k lo hi : Nat) (v : BitVec 64) (ide : Ide) (s : State), k < 5 → lo = bitsAt v.toNat 0 12 → hi = bitsAt v.toNat 16 12 →
    UnitAnswers s (0x180040 + 8 * k) →
    (((if k = 4 then 2400 else 700) ≤ lo ∧ lo ≤ hi ∧ hi ≤ (if k = 4 then 3600 else 880)) →
      ∃ u, exec (.registerWrite (.hostCore c) (0x180040 + 8 * k) 4 v ide) s = .next u ∧ u.rd (boundMin k) = lo ∧ u.rd (boundMax k) = hi ∧
        OnlyRegs [0x180040 + 8 * k] { s with held := u.held } u) ∧
    (¬((if k = 4 then 2400 else 700) ≤ lo ∧ lo ≤ hi ∧ hi ≤ (if k = 4 then 3600 else 880)) →
      ∃ u, exec (.registerWrite (.hostCore c) (0x180040 + 8 * k) 4 v ide) s = .next u ∧ u.on govBoundRefused ∧
        OnlyRegs [0x180008] { s with held := u.held } u)

/-- An 8-byte doorbell for an enabled ring with its reserved bits 0 and the current epoch moves TAIL as far as free entries allow; one
that asks for more is refused with OVF, one of another epoch is stale, and one for a ring that is not enabled is dropped, each
counted, with TAIL kept. ENABLE on an idle ring whose registers stand right, as this write leaves LOC and LOG2_SIZE, starts it at
0 with the next epoch; otherwise it sets REFUSED. Disabling a ring stops it, IDLE at once where no command of it is live. RETRY on
a stopped ring runs it again. (R397, R398, R401, R404, R405, R594) -/
def Obligations.RingsTakeDoorbellsAndControl : Prop :=
  (∀ (p : HostPortId) (v : BitVec 64) (s : State) (n k t z c : Nat), BarOpen s p → n = v.toNat → k = 16 * p.val + bitsAt n 0 4 →
    bitsAt n 4 4 = 0 → bitsAt n 21 11 = 0 → bitsAt n 48 16 = 0 → s.devReady → z = 2 * s.ringSize k → t = bitsAt n 8 13 % z →
    c = (t + z - s.rd (ringTail k)) % z →
    (s.on (ringEnable k) → bitsAt n 32 16 = s.rd (ringEpoch k) → s.rd (ringLog2 k) ≤ 12 → c ≤ s.ringSize k - s.ringCount k →
      ∃ u, exec (.doorbell p 0 8 v .clear) s = .next u ∧ u.rd (ringTail k) = t ∧ u.rd (ringHead k) = s.rd (ringHead k) ∧
        OnlyRegs [ringReg k 0x18] s u) ∧
    (s.on (ringEnable k) → bitsAt n 32 16 = s.rd (ringEpoch k) → s.ringSize k - s.ringCount k < c →
      ∃ u, exec (.doorbell p 0 8 v .clear) s = .next u ∧ u.on (ringOvf k) ∧ u.rd (hpDbRefused p) = min (s.rd (hpDbRefused p) + 1) (2 ^ 32 - 1) ∧
        OnlyRegs [0x1001C + 0x1000 * p, ringReg k 0] s u) ∧
    (s.on (ringEnable k) → bitsAt n 32 16 ≠ s.rd (ringEpoch k) →
      ∃ u, exec (.doorbell p 0 8 v .clear) s = .next u ∧ u.rd (hpDbStale p) = min (s.rd (hpDbStale p) + 1) (2 ^ 32 - 1) ∧
        OnlyRegs [0x10018 + 0x1000 * p] s u) ∧
    (s.on (ringEnable k) = false →
      ∃ u, exec (.doorbell p 0 8 v .clear) s = .next u ∧ u.rd (hpDbDropped p) = min (s.rd (hpDbDropped p) + 1) (2 ^ 32 - 1) ∧
        OnlyRegs [0x10014 + 0x1000 * p] s u)) ∧
  (∀ (src : Src) (p : HostPortId) (r : RingId) (w : BitVec 32) (s : State) (k lg : Nat) (loc : Bool), k = 16 * p.val + r.val →
    s.mayWrite src (ringReg k 0) → s.portLogic p → w.getLsbD 6 = false → loc = w.getLsbD 1 → lg = bitsAt w.toNat 2 4 →
    s.on (ringEnable k) = false →
    (s.rd (ringState k) = 0 → s.reg64 (ringReg k 8) % 4096 = 0 → 4 ≤ lg → lg ≤ 12 → (loc → s.reg64 (ringReg k 8) + 64 * 2 ^ lg ≤ cellarSize) →
      ∃ u, exec (.ringEnable src p r w) s = .next u ∧ u.on (ringEnable k) ∧ u.rd (ringState k) = 1 ∧ u.rd (ringHead k) = 0 ∧
        u.rd (ringTail k) = 0 ∧ u.rd (ringEpoch k) = (s.rd (ringEpoch k) + 1) % 65536 ∧ u.rd (ringLog2 k) = lg ∧ u.on (ringLoc k) = loc ∧
        u.ring k = ⟨0, 0⟩ ∧ OnlyRegs [ringReg k 0, ringReg k 0x18] { s with rings := u.rings } u) ∧
    ((s.rd (ringState k) ≠ 0 ∨ s.reg64 (ringReg k 8) % 4096 ≠ 0 ∨ lg < 4 ∨ 12 < lg ∨ (loc ∧ cellarSize < s.reg64 (ringReg k 8) + 64 * 2 ^ lg)) →
      ∃ u, exec (.ringEnable src p r w) s = .next u ∧ u.on (ringRefused k) ∧ u.on (ringEnable k) = false ∧
        u.rd (ringState k) = s.rd (ringState k) ∧ OnlyRegs [ringReg k 0] s u)) ∧
  (∀ (src : Src) (p : HostPortId) (r : RingId) (w : BitVec 32) (s : State) (k : Nat), k = 16 * p.val + r.val →
    s.mayWrite src (ringReg k 0) → s.portLogic p → w.getLsbD 6 = false → s.on (ringEnable k) →
    ∃ u, exec (.ringDisable src p r w) s = .next u ∧ u.on (ringEnable k) = false ∧
      u.rd (ringState k) = (if (s.cmds.any fun c => decide (c.ring = k)) then 2 else 0) ∧
      OnlyRegs [ringReg k 0] { s with rings := u.rings } u) ∧
  ∀ (src : Src) (p : HostPortId) (r : RingId) (w : BitVec 32) (s : State) (k : Nat), k = 16 * p.val + r.val →
    s.mayWrite src (ringReg k 0) → s.portLogic p → w.getLsbD 0 → s.on (ringEnable k) → (s.rd (ringState k) = 3 ∨ s.rd (ringState k) = 4) →
    ∃ u, exec (.ringRetry src p r w) s = .next u ∧ u.rd (ringState k) = 1 ∧ (u.ring k).tries = 0 ∧ (u.ring k).n = (s.ring k).n ∧
      u.rd (ringHead k) = s.rd (ringHead k) ∧ u.rd (ringTail k) = s.rd (ringTail k) ∧ OnlyRegs [ringReg k 0] { s with rings := u.rings } u

/-- The first fetch of a cellar ring and each refetch read the entry at HEAD. One with the ring's next SEQ, the right HCRC and the
right OCRC is accepted: HEAD advances, and the command joins the accepted ones with its record ACCEPTED, or ends REFUSED with the
error of the first check that it fails. Otherwise the entry is fetched again up to eight times with HEAD unchanged; after that the
ring is STALE with STALE_SEQ, is counted, and raises 0x0700. (R399, R400, R401, R402, R406, R411, R610) -/
def Obligations.CommandsAreFetchedAndAccepted : Prop :=
  ∀ (p : HostPortId) (r : RingId) (c : Instr) (s : State) (k seq : Nat) (l : Loc) (bs : List Byte), k = 16 * p.val + r.val →
    RingFetches s k l bs → seq = (s.rd (ringSeqBase k) + (s.ring k).n) % 2 ^ 32 →
    ((c = .commandFetch p r [] ∧ (s.ring k).tries = 0) ∨ (c = .commandRefetch p r [] ∧ (s.ring k).tries ≠ 0)) →
    (ofBytes (bs.take 4) = seq → ofBytes ((bs.drop 14).take 2) = (crc16 (bs.take 14)).toNat →
      ofBytes ((bs.drop 8).take 2) = (crc16 (bs.drop 16)).toNat → (∀ x ∈ s.cmds, x.ring = k → x.seq ≠ seq) →
      ∃ u x, exec c s = .next u ∧ x.ring = k ∧ x.entry = bs ∧ x.st = 1 ∧ x.plt = s.plt ∧
        u.rd (ringHead k) = (s.rd (ringHead k) + 1) % (2 * s.ringSize k) % 8192 ∧ u.ring k = ⟨(s.ring k).n + 1, 0⟩ ∧
        (s.acceptError x = 0 → u.cmds = s.cmds ++ [x] ∧ Noted u x 1 0 ∧ (opJobCtl x.opcode → 8 ∈ u.aplic)) ∧
        (s.acceptError x ≠ 0 → u.cmds = s.cmds ∧ Noted u x 5 (s.acceptError x))) ∧
    ((ofBytes (bs.take 4) ≠ seq ∨ ofBytes ((bs.drop 14).take 2) ≠ (crc16 (bs.take 14)).toNat ∨
        ofBytes ((bs.drop 8).take 2) ≠ (crc16 (bs.drop 16)).toNat) →
      ∃ u, exec c s = .next u ∧ u.rd (ringHead k) = s.rd (ringHead k) ∧ u.cmds = s.cmds ∧ (u.ring k).n = (s.ring k).n ∧ SameMemory s u ∧
        ((s.ring k).tries < 8 → (u.ring k).tries = (s.ring k).tries + 1 ∧ u.rd (ringState k) = 1 ∧ u.gathered = s.gathered) ∧
        (8 ≤ (s.ring k).tries → u.rd (ringState k) = 3 ∧ u.rd (ringStaleSeq k) = ofBytes (bs.take 4) ∧
          u.rd (hpStaleCmds p) = min (s.rd (hpStaleCmds p) + 1) (2 ^ 32 - 1) ∧ ∃ f, u.gathered = s.gathered ++ [f] ∧ f.code = 0x0700 ∧
          f.kind = 9 ∧ f.index = (p : Nat)))

/-- NOP ends DONE. COPY is refused while a teardown runs or where its operands break R407, ends DONE when its length is 0, and else
runs with TOTAL set; each chunk from one aperture to the other moves its bytes and counts them, the last ends it DONE, one that
fails its CRC-32C ends it FAILED with 0x0007, and one whose source cannot be reached with 0x0009. Each period writes a running
command's record again. DRIVER_MSG is refused when the queue is full, when its length is wrong, or once the driver is lost; else
it joins the queue and source 3 is signalled; the driver's reply ends it DONE, its timeout takes it off the queue and fails it
with 0x0103. A heartbeat restarts the period; HEARTBEAT_MS without one sets LOST and raises 0x080A, and no shorter time does. A
record is written again no sooner than STATUS_PERIOD. Of two rings with a command to start, the one whose turn comes first starts
its own, and passes the turn on. (R403, R406, R407, R408, R409, R411, R437, R438, R554) -/
def Obligations.CommandsRunAndEnd : Prop :=
  (∀ (s : State) (c : Cmd), OnlyCmd s c 0x00 → ∃ u, exec (.nop 0) s = .next u ∧ u.cmds = [] ∧ Noted u c 3 0) ∧
  (∀ (s : State) (c : Cmd), OnlyCmd s c 0x01 →
    (s.rd jobState = 3 → ∃ u, exec (.copy 0) s = .next u ∧ u.cmds = [] ∧ Noted u c 5 0x0413) ∧
    (s.rd jobState ≠ 3 → c.copyOk = false → ∃ u, exec (.copy 0) s = .next u ∧ u.cmds = [] ∧ Noted u c 5 0x0004) ∧
    (s.rd jobState ≠ 3 → c.copyOk → c.fld 40 8 = 0 → ∃ u, exec (.copy 0) s = .next u ∧ u.cmds = [] ∧ Noted u c 3 0) ∧
    (s.rd jobState ≠ 3 → c.copyOk → c.fld 40 8 ≠ 0 → ∃ u, exec (.copy 0) s = .next u ∧ Noted u c 2 0 ∧
      u.cmds = [{ c with st := 2, gen := c.gen + 1, total := c.fld 40 8 }])) ∧
  (∀ (s : State) (c : Cmd) (x y m : Nat), s.cmds = [c] → c.ring < 32 → c.st = 2 → c.opcode = 0x01 → placeOf (c.fld 24 8 + c.progress) = some (.hostAp 0 x) →
    placeOf (c.fld 32 8 + c.progress) = some (.hostAp 1 y) → m = min 4096 (c.total - c.progress) →
    (s.hostReach 0 (s.hostBus 0 x) m = false → ∃ u, exec (.copyChunkComplete 0 true) s = .next u ∧ u.cmds = [] ∧ Noted u c 4 0x0009 ∧
      (c.noHost → u.hostA = s.hostA ∧ u.hostB = s.hostB)) ∧
    (s.hostReach 0 (s.hostBus 0 x) m → s.hostReach 1 (s.hostBus 1 y) m →
    (c.progress + m < c.total → exec (.copyChunkComplete 0 true) s = .next { s with
      hostB := writeBytes s.hostB (s.hostBus 1 y) (readBytes s.hostA (s.hostBus 0 x) m),
      cmds := [{ c with progress := c.progress + m, valid := c.valid + m }] }) ∧
    (c.progress + m = c.total → ∃ u, exec (.copyChunkComplete 0 true) s = .next u ∧ u.cmds = [] ∧ Noted u c 3 0 ∧
      (c.noHost → u.hostA = s.hostA ∧ u.hostB = writeBytes s.hostB (s.hostBus 1 y) (readBytes s.hostA (s.hostBus 0 x) m))) ∧
    ∃ u, exec (.copyChunkComplete 0 false) s = .next u ∧ u.cmds = [] ∧ Noted u c 4 0x0007)) ∧
  (∀ (s : State) (c : Cmd) (t : Nat), s.cmds = [c] → c.ring < 32 → c.st = 2 → t = c.plt + 25 * s.rd (hpStatusPeriod c.port) →
    (t ≤ s.plt → ∃ u, exec (.statusPeriod 0) s = .next u ∧ u.cmds = [{ c with gen := c.gen + 1, plt := s.plt }] ∧ Noted u c 2 0) ∧
    (s.plt < t → exec (.statusPeriod 0) s = .next s)) ∧
  (∀ (s : State) (c : Cmd), OnlyCmd s c 0x40 →
    (s.on drvLost → ∃ u, exec (.driverMsg 0 none) s = .next u ∧ u.cmds = [] ∧ Noted u c 5 0x0100) ∧
    (s.on drvLost = false → 64 ≤ s.drvMsgs.length → ∃ u, exec (.driverMsg 0 none) s = .next u ∧ u.cmds = [] ∧ Noted u c 5 0x0101) ∧
    (s.on drvLost = false → s.drvMsgs.length < 64 → (c.fld 32 4 = 0 ∨ 4096 < c.fld 32 4) →
      ∃ u, exec (.driverMsg 0 none) s = .next u ∧ u.cmds = [] ∧ Noted u c 5 0x0102) ∧
    (∀ x n, s.on drvLost = false → s.drvMsgs.length < 64 → n = c.fld 32 4 → 1 ≤ n → n ≤ 4096 → copySpace (c.fld 24 8) n = some (1 + c.port) →
      placeOf (c.fld 24 8) = some (.hostAp 0 x) → s.hostReach 0 (s.hostBus 0 x) n → ∃ u, exec (.driverMsg 0 none) s = .next u ∧
        u.drvMsgs = s.drvMsgs ++ [⟨some (c.ring, c.seq), readBytes s.hostA (s.hostBus 0 x) n⟩] ∧ 3 ∈ u.aplic ∧
        u.cmds = [{ c with st := 2, gen := c.gen + 1 }] ∧ Noted u c 2 0)) ∧
  (∀ (s : State) (c : Cmd) (m : DrvMsg) (ms : List DrvMsg) (reply : List Byte), s.on drvLost = false → s.cmds = [c] → c.ring < 32 →
    s.drvMsgs = m :: ms → m.cmd = some (c.ring, c.seq) →
    ∃ u, exec (.driverMsg 0 (some reply)) s = .next u ∧ u.drvMsgs = ms ∧ u.cmds = [] ∧ Noted u c 3 0) ∧
  (∀ (s : State) (c : Cmd), s.cmds = [c] → c.ring < 32 → c.st = 2 → c.opcode = 0x40 →
    ∃ u, exec (.driverMsgTimeout 0) s = .next u ∧ u.cmds = [] ∧ Noted u c 4 0x0103 ∧
      u.drvMsgs = s.drvMsgs.filter fun m => decide (m.cmd ≠ some (c.ring, c.seq))) ∧
  (∀ (src : Src) (w : BitVec 32) (s : State), s.mayWrite src 0x49400 → s.domOn 22 →
    ∃ u, exec (.driverHeartbeat src w) s = .next u ∧ u.heartbeat = some s.plt ∧
      u.rd drvPeriod = (if bitsAt w.toNat 8 8 < 10 then s.rd drvPeriod else bitsAt w.toNat 8 8) ∧
      OnlyRegs [0x49400] { s with heartbeat := some s.plt } u) ∧
  (∀ (s : State) (t : Nat), s.heartbeat = some t → s.on drvLost = false →
    (t + 25000 * s.rd drvPeriod ≤ s.plt → ∃ u f, exec .heartbeatTimeout s = .next u ∧ u.on drvLost ∧
      u.gathered = s.gathered ++ [f] ∧ f.code = 0x080A ∧ f.cls = 2 ∧ OnlyRegs [0x49400] { s with gathered := u.gathered } u) ∧
    (s.plt < t + 25000 * s.rd drvPeriod → exec .heartbeatTimeout s = .next s)) ∧
  ∀ (s : State) (c d : Cmd), s.cmds = [c, d] → c.ring < 32 → d.ring < 32 → c.ring ≠ d.ring → c.st = 1 → d.st = 1 → c.opcode = 0x00 → d.opcode = 0x00 →
    s.turnsTo c.ring < s.turnsTo d.ring → exec (.nop 1) s = .next s ∧
      ∃ u, exec (.nop 0) s = .next u ∧ u.cmds = [d] ∧ Noted u c 3 0 ∧ u.ringTurn = (c.ring + 1) % 32

/-- ADMIT_JOB with a job admitted or admitting is refused 0x0400, in another state but NONE 0x0408, during a flash update 0x0407, with
a bad address 0x0004 or range 0x0401, and with the error of the first manifest check that fails. Otherwise the state becomes
ADMITTING with the manifest's JOB_ID, ADMIT_SEQ and places, every fence is CLOSED at level 7, JOB towards a listed place on a port
that is Up, and BOUNDARY elsewhere, and the command runs. Once no port still retrains, the job is ADMITTED and the command ends
DONE. A key generation takes an identity key and sets AK_NEXT, or raises 0x0905 when none is left. (R546, R547, R548, R549, R550,
20_jobs_and_teardown.md Table 20.3) -/
def Obligations.JobsAreAdmitted : Prop :=
  (∀ (s : State) (c : Cmd) (a len : Nat), OnlyCmd s c 0x10 → s.on drvLost = false → a = c.fld 24 8 → len = c.fld 32 4 →
    ((s.rd jobState = 1 ∨ s.rd jobState = 2) → ∃ u, exec (.admitJob 0) s = .next u ∧ u.cmds = [] ∧ Noted u c 5 0x0400 ∧
      u.rd jobState = s.rd jobState) ∧
    (3 ≤ s.rd jobState → ∃ u, exec (.admitJob 0) s = .next u ∧ u.cmds = [] ∧ Noted u c 5 0x0408 ∧ u.rd jobState = s.rd jobState) ∧
    (s.rd jobState = 0 → s.rd updState = 1 → ∃ u, exec (.admitJob 0) s = .next u ∧ u.cmds = [] ∧ Noted u c 5 0x0407 ∧ u.rd jobState = 0) ∧
    (s.rd jobState = 0 → s.rd updState ≠ 1 → a % 8 ≠ 0 → ∃ u, exec (.admitJob 0) s = .next u ∧ u.cmds = [] ∧ Noted u c 5 0x0004 ∧
      u.rd jobState = 0) ∧
    (s.rd jobState = 0 → s.rd updState ≠ 1 → a % 8 = 0 → (a < driverReserve ∨ cellarSize < a + len) →
      ∃ u, exec (.admitJob 0) s = .next u ∧ u.cmds = [] ∧ Noted u c 5 0x0401 ∧ u.rd jobState = 0) ∧
    ∀ bs, s.rd jobState = 0 → s.rd updState ≠ 1 → a % 8 = 0 → driverReserve ≤ a → a + len ≤ cellarSize → 0 < len →
      (∀ i < len, ∃ l, PlainLine s l (a + i)) → bs = readBytes s.cellar a len →
      (∀ e, s.manifestError bs = some e → ∃ u, exec (.admitJob 0) s = .next u ∧ u.cmds = [] ∧ Noted u c 5 e ∧ u.rd jobState = 0) ∧
      (s.manifestError bs = none → ∃ u, exec (.admitJob 0) s = .next u ∧ u.cmds = [{ c with st := 2, gen := c.gen + 1 }] ∧ Noted u c 2 0 ∧
        u.rd jobState = 1 ∧ u.rd jobId = fldAt bs 8 3 ∧ u.reg64 jobSeqLast = fldAt bs 16 8 ∧ u.job.places = manPlaces bs ∧
        ∀ p < 16, u.rd (fenceMode p) = (if s.rd (fabLevel p) = 7 then 0 else
          if s.portUp p ∧ devPlace (s.rd (fabPartner p)) ∈ manPlaces bs then 1 else 2) ∧
          (u.rd (fenceMode p) = 1 → u.rd (fenceJob p) = fldAt bs 8 3))) ∧
  (∀ (s : State) (c : Cmd), s.rd jobState = 1 → s.admitPorts = [] → s.cmds = [c] → c.ring < 32 → c.st = 2 → c.opcode = 0x10 →
    ∃ u, exec .admitRetrainComplete s = .next u ∧ u.rd jobState = 2 ∧ u.cmds = [] ∧ Noted u c 3 0) ∧
  ∀ (s : State), 2 ^ 20 ≤ s.rd akUsed + 4096 → s.on akNext = false →
    (s.rd ikUsed < 65536 → ∃ u, exec .attestationKeyGenerated s = .next u ∧ u.rd ikUsed = s.rd ikUsed + 1 ∧ u.on akNext ∧
      OnlyRegs [0x440028] { s with freeCtr := u.freeCtr, journal := u.journal } u) ∧
    (65536 ≤ s.rd ikUsed → ∃ u f, exec .attestationKeyGenerated s = .next u ∧ f.code = 0x0905 ∧
      u = { s with gathered := s.gathered ++ [f] })

/-- TEARDOWN from ADMITTED sets the state TEARDOWN and step 1; a wrong state or CERT_ADDR refuses it. Step 1 ends every collective and
COPY of the cellar; step 2 closes every fence once nothing is in flight, or at its timeout; step 3 zeroes every shelf of the
powered quadrants, lines and all, and of no other; step 4 ends when the caches are empty, and a memory-heavy phase hint begins;
step 5 zeroes the cellar beyond the driver reserve and nothing below it, once every cached copy can be cleared, but not in a
thermal stop, whose timeout fails the teardown with 0x0414; step 6 returns the tables to reset once no shootdown is pending; step
7 forms and signs the certificate with the next key index, and the command ends DONE with no job. (R553, R554, R555, R556, R557,
20_jobs_and_teardown.md Table 20.4) -/
def Obligations.TeardownsRunTheirSteps : Prop :=
  (∀ (s : State) (c : Cmd), OnlyCmd s c 0x11 → s.on drvLost = false → s.planRun = none → s.slices = [] →
    (s.rd jobState = 2 → c.fld 24 8 = 0 → ∃ u, exec (.teardown 0) s = .next u ∧ u.rd jobState = 3 ∧ u.rd jobTdStep = 1 ∧
      u.rd jobId = s.rd jobId ∧ u.tear = some ⟨0, s.plt, 0, 0, 0, 0, 0, 0⟩ ∧
      u.cmds = [{ c with st := 2, gen := c.gen + 1, total := 7, progress := 1 }]) ∧
    (3 ≤ s.rd jobState → ∃ u, exec (.teardown 0) s = .next u ∧ u.cmds = [] ∧ Noted u c 5 0x0410 ∧ u.rd jobState = s.rd jobState) ∧
    (s.rd jobState = 2 → c.fld 24 8 % 8 ≠ 0 → ∃ u, exec (.teardown 0) s = .next u ∧ u.cmds = [] ∧ Noted u c 5 0x0004 ∧ u.rd jobState = 2)) ∧
  (∀ (fw : TileFw) (s : State) (x : TearInfo), s.tear = some x →
    (s.rd jobTdStep = 1 → ∃ u, exec (.teardownStepComplete fw) s = .next u ∧ u.rd jobTdStep = 2 ∧ u.colls = [] ∧
      ∀ c ∈ u.cmds, ¬(c.touchesCellar ∧ c.st = 2)) ∧
    (s.rd jobTdStep = 2 → (∀ w < 256, s.rd (outInflight w) = 0) → (∀ n < 256, s.on (inBusy n) = false) →
      ∃ u, exec (.teardownStepComplete fw) s = .next u ∧ u.rd jobTdStep = 3 ∧ (∀ p < 16, u.rd (fenceMode p) = 0) ∧ SameMemory s u) ∧
    (s.rd jobTdStep = 2 → (∃ w < 256, s.rd (outInflight w) ≠ 0) → exec (.teardownStepComplete fw) s = .next s) ∧
    (s.rd jobTdStep = 2 → ∃ u, exec .teardownDrainTimeout s = .next u ∧ u.rd jobTdStep = 3 ∧ (∀ p < 16, u.rd (fenceMode p) = 0) ∧
      SameMemory s u) ∧
    (s.rd jobTdStep = 3 → (∀ d < 16, s.rd (domState d) ≠ 1 ∧ s.rd (domState d) ≠ 4) →
      ∃ u, exec (.teardownStepComplete fw) s = .next u ∧ u.rd jobTdStep = 4 ∧ u.cellar = s.cellar ∧ ∀ t : TileId,
        (s.domPowered (quadOfCrate (t / 64)) → (∀ i < 0x40000, readByte u.shelf (0x40000 * t + i) = 0#8) ∧ (u.tile t).lines = []) ∧
        (s.domPowered (quadOfCrate (t / 64)) = false → ∀ i < 0x40000, readByte u.shelf (0x40000 * t + i) = readByte s.shelf (0x40000 * t + i))) ∧
    (s.rd jobTdStep = 4 → s.l2 = [] → s.evicts = [] → s.dirs = [] → (∀ c ∈ s.cmds, c.ring < 32) →
      ∃ u, exec (.teardownStepComplete fw) s = .next u ∧ u.rd jobTdStep = 5 ∧ u.rd hintClass = 2 ∧ u.on hintColl = false ∧
      u.gov.hintAt = some s.plt ∧ (s.on govHold = false → SameMemory s u)) ∧
    (s.rd jobTdStep = 5 → (∀ st < 20, s.on (celThermalStop st) = false) → s.fillWaits driverReserve → exec (.teardownStepComplete fw) s = .next s) ∧
    (s.rd jobTdStep = 5 → (∀ st < 20, s.on (celThermalStop st) = false) → s.fillWaits driverReserve = false → ∃ u, exec (.teardownStepComplete fw) s = .next u ∧
      u.rd jobTdStep = 6 ∧ (∀ a, driverReserve ≤ a → readByte u.cellar a = 0#8) ∧
      (∀ a, a < driverReserve → readByte u.cellar a = readByte s.cellar a) ∧ u.shelf = s.shelf) ∧
    (∀ st c, s.rd jobTdStep = 5 → st < 20 → s.on (celThermalStop st) → s.cmds = [c] → c.ring < 32 → c.opcode = 0x11 → c.st = 2 →
      exec (.teardownStepComplete fw) s = .next s ∧ ∃ u, exec .teardownThermalTimeout s = .next u ∧ u.rd jobState = 4 ∧
        u.rd jobTdError = 0x0414 ∧ u.tear = none ∧ u.cmds = [] ∧ Noted u c 4 0x0414 ∧ ∀ p < 16, u.rd (fenceMode p) = 0) ∧
    (s.rd jobTdStep = 6 → s.sds ≠ [] → exec (.teardownStepComplete fw) s = .next s) ∧
    (s.rd jobTdStep = 6 → s.sds = [] → (∀ c ∈ s.cmds, c.ring < 32) → ∃ u, exec (.teardownStepComplete fw) s = .next u ∧ u.rd jobTdStep = 7 ∧ u.sds = [] ∧
      (∀ a, 0x200000 ≤ a → a < 0x280000 → u.reg a = resetWord a) ∧ (∀ a, 0x400000 ≤ a → a < 0x440000 → u.reg a = resetWord a) ∧
      u.tear = some { x with end6 := s.plt }) ∧
    (∀ c, s.rd jobTdStep = 7 → s.rd akUsed + 1 < 2 ^ 20 → s.cmds = [c] → c.ring < 32 → c.opcode = 0x11 → c.st = 2 →
      ∃ u, exec (.teardownStepComplete fw) s = .next u ∧ u.rd jobState = 0 ∧ u.rd jobId = 0 ∧ u.tear = none ∧ u.cmds = [] ∧
        Noted u c 3 0 ∧ u.rd akUsed = s.rd akUsed + 1 ∧ u.reg jobCert = 0x45504957#32))

/-- STOCKTAKE is refused for its addresses, its image or its job, and runs on a sound image of the admitted job with what it finds and
COND_GEN as its token. Each further step writes its next slack-table entry, as far as RESULT_LEN holds it; with none left it ends
DONE, with CHANGED where COND_GEN has changed since its start; REASON 0 keeps the plan with its token, any other REASON keeps the
old plan; once the driver is lost it ends REFUSED. RUN_PLAN is refused for its job, a running plan, its IDs, changed conditions,
its ring, or a reservation that does not fit; else it sets the reservations and the ceiling, clears the counts and guarantees the
plan. A period starts at its nominal tick; a TIME step starts once in each period at its offset and sends its increment. STOP_PLAN
stops the plan and its end releases every reservation, floor and ceiling and ends RUN_PLAN DONE. EV_TAIL moves forward only as far
as EV_HEAD. (R486, R487, R500, R502, R503, R504, R505, R507, R508, R509, R510, R518) -/
def Obligations.PlansAreTakenStockOfRunAndStopped : Prop :=
  (∀ (s : State) (c : Cmd) (a len : Nat) (h bs : List Byte), OnlyCmd s c 0x20 → s.on drvLost = false → a = c.fld 24 8 → c.fld 32 8 = 0 →
    (a % 8 ≠ 0 → ∃ u, exec (.stocktake 0) s = .next u ∧ u.cmds = [] ∧ Noted u c 5 0x0004 ∧ u.plan = s.plan) ∧
    (a % 8 = 0 → cellarSize < a + 64 → ∃ u, exec (.stocktake 0) s = .next u ∧ u.cmds = [] ∧ Noted u c 5 0x0200 ∧ u.plan = s.plan) ∧
    (a % 8 = 0 → a + 64 ≤ cellarSize → (∀ i < 64, ∃ l, PlainLine s l (a + i)) → h = readBytes s.cellar a 64 → len = fldAt h 4 4 →
      bs = readBytes s.cellar a len →
      ((fldAt h 0 2 ≠ 1 ∨ len < 128 ∨ 2 ^ 20 < len ∨ len % 8 ≠ 0 ∨ cellarSize < a + len) →
        ∃ u, exec (.stocktake 0) s = .next u ∧ u.cmds = [] ∧ Noted u c 5 0x0201 ∧ u.plan = s.plan) ∧
      (fldAt h 0 2 = 1 → 128 ≤ len → len ≤ 2 ^ 20 → len % 8 = 0 → a + len ≤ cellarSize →
        (∀ i < len, ∃ l, PlainLine s l (a + i)) → imageBad bs = none →
        ((s.rd jobState ≠ 2 ∨ s.rd jobId ≠ (planOf bs).job) →
          ∃ u, exec (.stocktake 0) s = .next u ∧ u.cmds = [] ∧ Noted u c 5 0x0202 ∧ u.plan = s.plan) ∧
        (s.rd jobState = 2 → s.rd jobId = (planOf bs).job → ∃ u k, exec (.stocktake 0) s = .next u ∧
          u.cmds = [{ c with st := 2, gen := c.gen + 1, total := (planOf bs).steps.length, take := some k }] ∧ Noted u c 2 0 ∧ u.plan = s.plan ∧
          k.token = s.rd plnCondGen ∧ k.done = 0 ∧ k.plan.id = (planOf bs).id ∧ k.plan.steps = (planOf bs).steps ∧
          k.plan.items = (planOf bs).items)))) ∧
  (∀ (s : State) (c : Cmd) (k : Take), s.cmds = [c] → c.ring < 32 → c.opcode = 0x20 → c.st = 2 → c.take = some k →
    (s.on drvLost → ∃ u, exec (.stocktake 0) s = .next u ∧ u.cmds = [] ∧ Noted u c 5 0x0100 ∧ u.plan = s.plan) ∧
    (∀ e es, s.on drvLost = false → k.table = e :: es → (c.fld 32 8 = 0 ∨ c.fld 40 4 < 16 * (k.done + 1)) → exec (.stocktake 0) s = .next { s with
      cmds := [{ c with progress := min (k.done + 1) c.total, take := some { k with table := es, done := k.done + 1 } }] }) ∧
    (∀ e es a l, s.on drvLost = false → k.table = e :: es → c.fld 32 8 ≠ 0 → 16 * (k.done + 1) ≤ c.fld 40 4 → c.fld 32 8 % 16 = 0 →
      a = c.fld 32 8 + 16 * k.done → PlainLine s l a → (s.hamper l.home).length < 256 → e.length = 16 →
      ∃ u v, exec (.stocktake 0) s = .next u ∧ exec (.cellarRead a 16 0) u = .next v ∧ v.answer = ⟨0, e⟩ ∧
      u.plan = s.plan ∧
      u.cmds = [{ c with progress := min (k.done + 1) c.total, valid := 16 * (k.done + 1), take := some { k with table := es, done := k.done + 1 } }]) ∧
    (s.on drvLost = false → k.table = [] → ∃ u, exec (.stocktake 0) s = .next u ∧ u.cmds = [] ∧ Noted u c 3 0 ∧
      (u.reg (ringReg c.ring (0x428 + 64 * (c.seq % 16)))).toNat % 65536 =
        (k.reason + (if s.rd plnCondGen = k.token then 0 else 0x8000)) % 65536 ∧
      (k.reason = 0 → u.plan = some k.plan ∧ u.rd plnToken = k.token % 65536) ∧
      (k.reason ≠ 0 → u.plan = s.plan ∧ u.rd plnToken = s.rd plnToken))) ∧
  (∀ (s : State) (c : Cmd) (p : Plan), OnlyCmd s c 0x21 → s.on drvLost = false → s.plan = some p →
    ((s.rd jobState ≠ 2 ∨ s.rd jobId ≠ p.job) → ∃ u, exec (.runPlan 0) s = .next u ∧ u.cmds = [] ∧ Noted u c 5 0x0202 ∧ u.planRun = s.planRun) ∧
    (s.rd jobState = 2 → s.rd jobId = p.job → s.planRun ≠ none →
      ∃ u, exec (.runPlan 0) s = .next u ∧ u.cmds = [] ∧ Noted u c 5 0x0203 ∧ u.planRun = s.planRun) ∧
    (s.rd jobState = 2 → s.rd jobId = p.job → s.planRun = none → (c.fld 24 4 ≠ p.id ∨ c.fld 28 2 ≠ s.rd plnToken) →
      ∃ u, exec (.runPlan 0) s = .next u ∧ u.cmds = [] ∧ Noted u c 5 0x0204 ∧ u.planRun = none) ∧
    (s.rd jobState = 2 → s.rd jobId = p.job → s.planRun = none → c.fld 24 4 = p.id → c.fld 28 2 = s.rd plnToken →
      s.rd plnCondGen ≠ s.rd plnToken → ∃ u, exec (.runPlan 0) s = .next u ∧ u.cmds = [] ∧ Noted u c 5 0x0205 ∧ u.planRun = none) ∧
    (s.rd jobState = 2 → s.rd jobId = p.job → s.planRun = none → c.fld 24 4 = p.id → c.fld 28 2 = s.rd plnToken →
      s.rd plnCondGen = s.rd plnToken → c.fld 40 8 % 32 = 0 → 4 ≤ c.fld 48 1 → c.fld 48 1 ≤ 16 → c.fld 40 8 + 32 * 2 ^ c.fld 48 1 ≤ cellarSize →
      (s.setResvs p = none → ∃ u, exec (.runPlan 0) s = .next u ∧ u.cmds = [] ∧ Noted u c 5 0x0205 ∧ u.on govResvRefused ∧ u.planRun = none) ∧
      (s.setResvs p ≠ none → ∃ u r, exec (.runPlan 0) s = .next u ∧ u.cmds = [{ c with st := 2, gen := c.gen + 1, total := c.fld 32 8 }] ∧
        Noted u c 2 0 ∧ u.planRun = some r ∧ r.plan = p ∧ r.periods = c.fld 32 8 ∧ r.starts = [] ∧ r.insts = [] ∧ u.rd plnState = 1 ∧
        u.on plnGuarantee ∧ u.rd plnPeriods = 0 ∧ u.rd plnEvHead = 0 ∧ u.rd ceilMin = p.minPct % 256 ∧
        ∀ g < 18, u.rd (grpResv g) = p.resv.getD g 0 % 65536))) ∧
  (∀ (s : State) (c : Cmd), OnlyCmd s c 0x22 → s.on drvLost = false →
    (s.planRun = none → ∃ u, exec (.stopPlan 0) s = .next u ∧ u.cmds = [] ∧ Noted u c 5 0x0206) ∧
    ∀ r, s.planRun = some r → ∃ u, exec (.stopPlan 0) s = .next u ∧ u.cmds = [{ c with st := 2, gen := c.gen + 1 }] ∧ Noted u c 2 0 ∧
      u.rd plnState = 2 ∧ u.planRun = some { r with stopAt := some (r.stopAt.getD s.plt) }) ∧
  (∀ (s : State) (r : PRun) (c : Cmd) (t : Nat), s.planRun = some r → s.cmds = [c] → c.ring < 32 → c.opcode = 0x21 → c.st = 2 →
    r.stopAt = some t →
    ((r.insts = [] ∨ t + 2 * (r.plan.period / 40) ≤ s.plt) → ∃ u, exec .planStopComplete s = .next u ∧ u.planRun = none ∧ u.cmds = [] ∧
      Noted u c 3 0 ∧ u.rd plnState = 0 ∧ u.on plnGuarantee = false ∧ u.rd ceilMin = 10 ∧ (∀ g < 18, u.rd (grpResv g) = 0) ∧
      ∀ k < 384, u.rd (issueFloor k) = 1) ∧
    (r.insts ≠ [] → s.plt < t + 2 * (r.plan.period / 40) → exec .planStopComplete s = .next s)) ∧
  (∀ (s : State) (r : PRun) (n : Nat), s.planRun = some r → r.stopAt = none → r.plan.anchor = false → (r.periods = 0 ∨ r.starts.length < r.periods) →
    r.fires.head?.map (· + r.starts.length * (r.plan.period / 40)) = some n →
    (n ≤ s.plt → ∃ u, exec .periodStart s = .next u ∧ u.planRun = some { r with starts := r.starts ++ [n] } ∧
      u.rd plnPeriods = (r.starts.length + 1) % 2 ^ 32 ∧ OnlyRegs [0x4A008] { s with planRun := u.planRun, cmds := u.cmds } u) ∧
    (s.plt < n → exec .periodStart s = .next s)) ∧
  (∀ (s : State) (r : PRun) (j : Fin 256) (p t : Nat), s.planRun = some r → r.stopAt = none → j.val < r.plan.steps.length →
    (r.plan.step j).trig = 0 → p < r.starts.length → 256 * p + j.val ∉ r.timed → (∀ q < p, 256 * q + j.val ∈ r.timed) →
    t = r.starts.getD p 0 + ((r.plan.step j).offset + 39) / 40 →
    (t ≤ s.plt → (r.insts.filter fun i => decide (i.step = j.val)).length < 4 → ∃ u, exec (.timeStepStart j) s = .next u ∧
      u.planRun = some { r with timed := r.timed ++ [256 * p + j.val], insts := r.insts ++
        [⟨j, (r.starts.filter fun x => decide (x ≤ t)).length - 1, t, (r.plan.step j).ends, Nat.lor r.causes r.lost, false⟩] } ∧
      u.incs = s.incs ++ (if (r.plan.step j).tally = 0 then [] else [⟨(r.plan.step j).tally, none, 1, 3, 0, 4⟩])) ∧
    (s.plt < t → exec (.timeStepStart j) s = .next s)) ∧
  ∀ (src : Src) (w : BitVec 32) (s : State) (new old : Nat), s.mayWrite src 0x4A010 → s.domOn 22 → new = w.toNat % 65536 → old = s.rd plnEvTail →
    ((new + 65536 - old) % 65536 ≤ (s.rd plnEvHead + 65536 - old) % 65536 → ∃ u, exec (.evTailWrite src w) s = .next u ∧ u.rd plnEvTail = new ∧
      OnlyRegs [0x4A010] s u) ∧
    ((s.rd plnEvHead + 65536 - old) % 65536 < (new + 65536 - old) % 65536 → exec (.evTailWrite src w) s = .next s)

/-- A cap below 300 W, above the packing list's, or below the base power and the reservations is refused and flagged; else it takes
effect at once, or after the hold. A host core's reservation is stored only where it fits. A hint begins at its write: the written
words are stored as their access codes say, and COLL begins a hold unless the last one began within 10 ms. At its expiry an entry
of the table learns an eighth of the difference, with a duration between the two, or a new one is filled. A hint does not expire
before its DURATION, nor a hold before 2 ms. The end of a hold lets a waiting cap take effect. An interval stores the estimates;
budgets and the ceiling follow an allowed proposal outside the lowest state and outside a hold. The third failed rail reading in a
row marks the regulator lost. Averages and learned values are those of the rules to within one unit, since no rule states a
rounding (log entry 43). (R459, R461, R462, R463, R464, R466, R467, R468, R477, R478) -/
def Obligations.GovernorTakesCapsReservationsHintsAndIntervals : Prop :=
  (∀ (s : State) (c : Cmd) (w : Nat), OnlyCmd s c 0x30 → s.on drvLost = false → w = c.fld 24 2 →
    ((w < 300 ∨ s.rd capPl < w) → ∃ u, exec (.setCap 0) s = .next u ∧ u.cmds = [] ∧ Noted u c 5 0x0301 ∧ u.on govCapRefused ∧
      u.rd capW = s.rd capW) ∧
    (300 ≤ w → w ≤ s.rd capPl → 8 * w < 8 * s.rd capBase + s.resvSum → ∃ u, exec (.setCap 0) s = .next u ∧ u.cmds = [] ∧
      Noted u c 5 0x0302 ∧ u.on govCapRefused ∧ u.rd capW = s.rd capW) ∧
    (300 ≤ w → w ≤ s.rd capPl → 8 * s.rd capBase + s.resvSum ≤ 8 * w → s.on govHold = false → ∃ u, exec (.setCap 0) s = .next u ∧
      u.cmds = [] ∧ Noted u c 3 0 ∧ u.rd capW = w) ∧
    (300 ≤ w → w ≤ s.rd capPl → 8 * s.rd capBase + s.resvSum ≤ 8 * w → s.on govHold → s.gov.capWait = [] →
      ∃ u, exec (.setCap 0) s = .next u ∧ u.cmds = [{ c with st := 2, gen := c.gen + 1 }] ∧ Noted u c 2 0 ∧ u.rd capW = s.rd capW ∧
        u.on govCapWaiting ∧ u.gov = { s.gov with capWait := [⟨w, some (c.ring, c.seq), s.plt⟩] })) ∧
  (∀ (src : Src) (d : BitVec 32) (s : State) (w : Nat), s.mayWrite src 0x180000 → w = d.toNat / 65536 →
    ((w < 300 ∨ s.rd capPl < w ∨ 8 * w < 8 * s.rd capBase + s.resvSum) → ∃ u, exec (.capRequestWrite src d) s = .next u ∧
      u.rd capReq = w ∧ u.on govCapRefused ∧ u.rd capW = s.rd capW ∧ OnlyRegs [0x180000, 0x180008] s u) ∧
    (300 ≤ w → w ≤ s.rd capPl → 8 * s.rd capBase + s.resvSum ≤ 8 * w →
      (s.on govHold = false → ∃ u, exec (.capRequestWrite src d) s = .next u ∧ u.rd capReq = w ∧ u.rd capW = w ∧
        u.rd plnCondGen = (if s.rd capW = w then s.rd plnCondGen else (s.rd plnCondGen + 1) % 65536) ∧
        OnlyRegs [0x180000, 0x4A000] s u) ∧
      (s.on govHold → ∃ u, exec (.capRequestWrite src d) s = .next u ∧ u.rd capReq = w ∧ u.rd capW = s.rd capW ∧ u.on govCapWaiting ∧
        OnlyRegs [0x180000, 0x180008] { s with gov := { s.gov with capWait := s.gov.capWait ++ [⟨w, none, s.plt⟩] } } u))) ∧
  (∀ (src : Src) (g : Fin 19) (d : BitVec 32) (s : State) (v : Nat), v = d.toNat % 65536 →
    (src.isCore → g.val < 18 → 8 * s.rd capBase + (s.resvSum - s.rd (grpResv g)) + v ≤ 8 * s.rd capW →
      ∃ u, exec (.resvWrite src g d) s = .next u ∧ u.rd (grpResv g) = v ∧ OnlyRegs [0x180084 + 8 * g] s u) ∧
    ((src.isCore = false ∨ (g.val < 18 ∧ 8 * s.rd capW < 8 * s.rd capBase + (s.resvSum - s.rd (grpResv g)) + v)) →
      ∃ u, exec (.resvWrite src g d) s = .next u ∧ u.on govResvRefused ∧ OnlyRegs [0x180008] s u) ∧
    (src.isCore → g.val = 18 → exec (.resvWrite src g d) s = .next s)) ∧
  (∀ (s : State) (c : Cmd), OnlyCmd s c 0x31 → s.on drvLost = false → s.gov.hintAt = none → ∃ u, exec (.phaseHint 0) s = .next u ∧
    u.cmds = [] ∧ Noted u c 3 0 ∧ u.gov.hintAt = some s.plt ∧ u.rd hintTag = c.fld 24 2 ∧ u.rd hintClass = c.fld 26 1 % 4 ∧
    u.rd hintColl = c.fld 26 1 / 4 % 2 ∧ u.rd hintPower = c.fld 32 2 ∧ u.rd hintDur = min ((c.fld 28 4 + 15) / 16) 0xFFFF) ∧
  (∀ (src : Src) (hi wide : Bool) (v : BitVec 64) (s : State) (a : Nat), s.mayWrite src 0x180010 → (hi && wide) = false →
    s.gov.hintAt = none → a = (if hi then 0x180014 else 0x180010) → ∃ u, exec (.govHintWrite src hi wide v) s = .next u ∧
      u.gov.hintAt = some s.plt ∧ u.reg a = writtenWord a (s.reg a) (v.setWidth 32) ∧
      (wide → u.reg 0x180014 = writtenWord 0x180014 (s.reg 0x180014) ((v >>> 32).setWidth 32)) ∧
      (u.on hintColl → (∃ t, s.gov.lastHold = some t ∧ s.plt < t + 250000) →
        u.on govHold = s.on govHold ∧ u.rd govHoldDenied = min (s.rd govHoldDenied + 1) (2 ^ 32 - 1)) ∧
      (u.on hintColl → (∀ t, s.gov.lastHold = some t → t + 250000 ≤ s.plt) →
        u.on govHold ∧ u.gov.lastHold = some s.plt ∧ u.rd govHolds = min (s.rd govHolds + 1) (2 ^ 32 - 1)) ∧
      (u.on hintColl = false → u.on govHold = s.on govHold ∧ u.gov.lastHold = s.gov.lastHold)) ∧
  (∀ (s : State) (t dur : Nat) (f : Nat → Nat), s.gov.hintAt = some t → s.rd hintDur ≠ 0 → t + 400 * s.rd hintDur ≤ s.plt → s.gov.capWait = [] → s.gov.hintN ≠ 0 →
    dur = (s.plt - t) / 25 % 2 ^ 32 →
    f = (fun j => if j = 0 then s.gov.hintT else if j = 1 then s.gov.hintH else if j = 2 then s.gov.hintC else s.gov.hintF) →
    (∀ j < 4, f j ≤ 65535 * s.gov.hintN) →
    ∃ (u : State) (m : Nat → Nat), exec .hintExpiry s = .next u ∧ u.gov.hintAt = none ∧ u.on govHold = false ∧
      (∀ j < 4, (f j : Int) - s.gov.hintN < s.gov.hintN * m j ∧ (s.gov.hintN * m j : Int) < f j + s.gov.hintN) ∧
      (∀ i, s.sigFind (s.rd hintClass) (s.rd hintTag) = some i → min (s.rd (sigDur i)) dur ≤ u.rd (sigDur i) ∧
        u.rd (sigDur i) ≤ max (s.rd (sigDur i)) dur ∧
        ∀ j < 4, ((m j : Int) - s.rd (sigNeed i j)) - 8 < 8 * ((u.rd (sigNeed i j) : Int) - s.rd (sigNeed i j)) ∧
          8 * ((u.rd (sigNeed i j) : Int) - s.rd (sigNeed i j)) < ((m j : Int) - s.rd (sigNeed i j)) + 8) ∧
      (∀ i < 64, s.sigFind (s.rd hintClass) (s.rd hintTag) = none → s.on (sigValid i) = false → (∀ k < i, s.on (sigValid k)) →
        u.on (sigValid i) ∧ u.rd (sigTag i) = s.rd hintTag ∧ u.rd (sigClass i) = s.rd hintClass ∧ u.rd (sigDur i) = dur ∧
        ∀ j < 4, u.rd (sigNeed i j) = m j)) ∧
  (∀ (s : State) (t : Nat), s.gov.hintAt = some t → (s.rd hintDur = 0 ∨ s.plt < t + 400 * s.rd hintDur) → exec .hintExpiry s = .next s) ∧
  (∀ (s : State) (t0 : Nat), s.gov.lastHold = some t0 → (s.plt < t0 + 50000 → exec .collHoldEnd s = .next s) ∧
    (t0 + 50000 ≤ s.plt → s.on govHold → s.gov.capWait = [] → ∃ u, exec .collHoldEnd s = .next u ∧ u.on govHold = false ∧ OnlyRegs [0x180008] s u) ∧
    (∀ w t, t0 + 50000 ≤ s.plt → s.on govHold → s.gov.capWait = [⟨w, none, t⟩] → ∃ u, exec .collHoldEnd s = .next u ∧ u.on govHold = false ∧
      u.on govCapWaiting = false ∧ u.rd capW = w % 65536 ∧
      OnlyRegs [0x180000, 0x180008, 0x4A000] { s with gov := { s.gov with capWait := [] } } u) ∧
    (s.on govHold = false → exec .collHoldEnd s = .next s)) ∧
  (∀ (e : GovStep) (s : State), s.pins.devReady → s.domOn 22 → e.est.length = 19 → s.gov.pmFails = [] →
    ∃ u, exec (.governorInterval e) s = .next u ∧ SameMemory s u ∧ (∀ g < 19, u.rd (grpEst g) = min 65535 (e.est.getD g 0)) ∧
      ((s.on govLowest ∨ s.on govHold) → ∀ g < 19, u.rd (grpBudget g) = s.rd (grpBudget g)) ∧
      (s.on govLowest = false → s.on govHold = false → s.proposalOk { e with est := e.est.map (min 65535) } = false →
        (∀ g < 19, u.rd (grpBudget g) = s.rd (grpBudget g)) ∧ u.gov.ceil = s.gov.ceil) ∧
      (s.on govLowest = false → s.on govHold = false → s.proposalOk { e with est := e.est.map (min 65535) } →
        (∀ g < 19, u.rd (grpBudget g) = e.budgets.getD g 0 % 65536) ∧ u.gov.ceil = e.ceil ∧ u.rd ceilPct = e.ceil)) ∧
  ∀ (i : Fin 15) (ok : Bool) (s : State) (n : Nat), s.on (railUp 0) → s.pins.resetReleased →
    n = (if ok then 0 else lookMap 0 s.gov.pmFails i + 1) → ∃ u, exec (.railTelemetryRead i ok) s = .next u ∧
      u.gov = { s.gov with pmFails := putMap 0 s.gov.pmFails i (min n 4) } ∧
      u.on govTelLost = (u.gov.pmFails.any fun q => decide (3 ≤ q.2)) ∧ (n ≠ 3 → u.gathered = s.gathered) ∧
      (n = 3 → ∃ f, u.gathered = s.gathered ++ [f] ∧ f.code = 0x0805 ∧ f.kind = 12 ∧ f.index = (i : Nat)) ∧
      OnlyRegs [0x180008] { s with gov := u.gov, gathered := u.gathered } u

/-- An asserted bit of PWR_ALERT_N shows in ALERT and signals source 6; the first enters the lowest state: crates at 350 MHz with
issue limit 1, cores at 1.2 GHz, the ceiling at 25 %. A release clears the bit; with none left the lowest state ends with record
0x0809, and clocks and ceiling return. A droop holds its crate at an issue limit of at most 4 and freezes its frequency steps
until it has cleared. A crate sensor at the limit starts a thermal hold, three degrees below ends it, and the trip temperature of
any sensor asserts THERM_TRIP_N, raises 0x0807 and stops the fast domains. A lower measured maximum is stored, a tile's as no less
than 700 MHz, and recorded, unless a frozen crate would have to step down for it; below 700 MHz its crate fails, below 2.4 GHz a
core is reported. (R471, R472, R473, R474, R475, R480, R481, R482, R483) -/
def Obligations.AlertsDroopsHeatAndAgeing : Prop :=
  (∀ (i : Fin 4) (s : State), s.on (railUp 1) → bitAt (s.rd govAlert) i = false → ∃ u, exec (.pwrAlertAssert i) s = .next u ∧
    u.rd govAlert = s.rd govAlert + 2 ^ i.val ∧ 6 ∈ u.aplic ∧ u.on govLowest ∧
    (s.on govLowest → OnlyRegs [0x180008] { s with aplic := u.aplic } u) ∧
    (s.on govLowest = false → u.rd govAlerts = min (s.rd govAlerts + 1) (2 ^ 32 - 1) ∧ u.rd ceilPct = 25 ∧ u.gov.enteredAt = s.plt ∧
      (∀ c : CrateId, s.crateOn c → u.rd (crCur c) = 350 ∧ (u.crate c).pendK = some 1 ∧ lookMap 700 u.gov.pllMhz c = s.rd (crCur c)) ∧
      ∀ c : CoreId, s.domOn (20 + c / 48) → u.rd (coreMhz c) = 1200)) ∧
  (∀ (i : Fin 4) (s : State), (bitAt (s.rd govAlert) i → ∃ u, exec (.pwrAlertRelease i) s = .next u ∧
      u.rd govAlert = s.rd govAlert - 2 ^ i.val ∧ 6 ∈ u.aplic ∧ OnlyRegs [0x180008] { s with aplic := u.aplic } u) ∧
    (bitAt (s.rd govAlert) i = false → exec (.pwrAlertRelease i) s = .next s)) ∧
  (∀ s : State, (s.on govLowest → s.rd govAlert = 0 → ∃ u f, exec .lowestStateExit s = .next u ∧ u.on govLowest = false ∧ SameMemory s u ∧
      u.rd govLowTicks = min (s.rd govLowTicks + (s.plt - s.gov.enteredAt)) (2 ^ 32 - 1) ∧ u.rd ceilPct = s.gov.ceil % 256 ∧
      f ∈ u.gathered ∧ f.code = 0x0809 ∧ f.cls = 3 ∧ f.detail = toBytes 8 s.gov.enteredAt ++ toBytes 8 s.plt ∧
      (∀ c : CrateId, s.crateOn c → u.rd (crCur c) = lookMap 700 s.gov.pllMhz c % 1024) ∧
      ∀ c : CoreId, s.domOn (20 + c / 48) → u.rd (coreMhz c) = lookMap 700 s.gov.pllMhz (384 + c) % 4096) ∧
    (s.on govLowest → s.rd govAlert ≠ 0 → exec .lowestStateExit s = .next s)) ∧
  (∀ (c : CrateId) (s : State), s.crateOn c →
    (s.on (crDroopActive c) = false → ∃ u, exec (.droopDetect c) s = .next u ∧ u.on (crDroopActive c) ∧ u.on (issueDroop c) ∧
      (u.crate c).frozen ∧ (u.crate c).droopClear = false ∧ (∃ k, (u.crate c).pendK = some k ∧ k ≤ 4) ∧
      (u.crate c).stepTo = (s.crate c).stepTo ∧ u.rd (crDroops c) = min (s.rd (crDroops c) + 1) (2 ^ 32 - 1) ∧
      u.rd govDroops = min (s.rd govDroops + 1) (2 ^ 32 - 1) ∧ SameMemory s u) ∧
    (s.on (crDroopActive c) → exec (.droopDetect c) s = .next (s.setCrate c { s.crate c with droopClear := false }) ∧
      exec (.droopClear c) s = .next (s.setCrate c { s.crate c with droopClear := true })) ∧
    (s.on (crDroopActive c) → (s.crate c).droopClear → ∃ u, exec (.droopResponseEnd c) s = .next u ∧ u.on (crDroopActive c) = false ∧
      (u.crate c).pendK = some (u.issueTarget c) ∧ (u.crate c).frozen = (s.crate c).frozen ∧ SameMemory s u) ∧
    (s.on (crDroopActive c) → (s.crate c).droopClear = false → exec (.droopResponseEnd c) s = .next s) ∧
    ((s.crate c).frozen → (s.crate c).droopClear → s.on (crDroopActive c) = false → ∃ u, exec (.frozenStepResume c) s = .next u ∧
      (u.crate c).frozen = false ∧ (u.crate c).droopClear = false ∧ (∀ f, (s.crate c).stepTo = some f → (u.crate c).stepTo = some f) ∧
      OnlyRegs [crateReg c 0] { s with crates := u.crates } u)) ∧
  (∀ (c : CrateId) (t : Fin 256) (s : State), s.on (railUp 0) → s.fastStopped = false → s.crateOn c → t.val < s.rd thermTripC →
    ∃ u, exec (.crateTemperatureChange (.crate c) t) s = .next u ∧ u.rd (crTemp c) = (t : Nat) ∧ SameMemory s u ∧
      (s.rd thermLimit ≤ t → u.on (crThrottle c)) ∧ (t + 3 ≤ s.rd thermLimit → u.on (crThrottle c) = false) ∧
      (t < s.rd thermLimit → s.rd thermLimit < t + 3 → u.on (crThrottle c) = s.on (crThrottle c)) ∧
      (u.on (crThrottle c) ≠ s.on (crThrottle c) → (u.crate c).pendK = some (u.issueTarget c) ∧
        ∃ f ∈ u.gathered, f.code = 0x0808 ∧ f.kind = 2 ∧ f.index = (c : Nat))) ∧
  (∀ (n : Fin 12) (t : Fin 256) (s : State), s.on (railUp 0) → s.fastStopped = false → t.val < s.rd thermTripC →
    ∃ u, exec (.crateTemperatureChange (.cluster n) t) s = .next u ∧ SameMemory s u ∧
      (n.val ∈ u.gov.hot ↔ (s.rd thermLimit ≤ t.val ∨ (n.val ∈ s.gov.hot ∧ s.rd thermLimit < t + 3)))) ∧
  (∀ (x : HeatSensor) (t : Fin 256) (s : State), s.on (railUp 0) → s.fastStopped = false → s.pins.thermTrip = false →
    s.rd thermTripC ≤ t → (∀ c, x = .crate c → s.crateOn c) → ∃ u f, exec (.crateTemperatureChange x t) s = .next u ∧ u.pins.thermTrip ∧
      u.fastStopped ∧ u.pins.devReady = false ∧ f ∈ u.gathered ∧ f.code = 0x0807 ∧ f.cls = 2) ∧
  (∀ (t : TileId) (mhz v : Nat) (s : State), v = mhz / 5 * 5 → s.tileOn t →
    (v < s.rd (tFmax t) → (s.crate (t / 64)).frozen → max 700 v < max (s.cratePll (t / 64)) ((s.crate (t / 64)).stepTo.getD 0) →
      exec (.ageingMeasure (.tile t) mhz) s = .next s) ∧
    (v < s.rd (tFmax t) → ((s.crate (t / 64)).frozen → max (s.cratePll (t / 64)) ((s.crate (t / 64)).stepTo.getD 0) ≤ max 700 v) →
      ∃ u, exec (.ageingMeasure (.tile t) mhz) s = .next u ∧ u.rd (tFmax t) = max 700 v ∧
      (0x430000 + 2 * t.val, toBytes 2 v) ∈ u.journal ∧ (v < 700 → u.offline 2 (t / 64)) ∧
      (700 ≤ v → u.rd (crLimit (t / 64)) = u.crateLimit (t / 64) ∧ SameMemory s u)) ∧
    (s.rd (tFmax t) ≤ v → exec (.ageingMeasure (.tile t) mhz) s = .next s)) ∧
  ∀ (c : CoreId) (mhz v : Nat) (s : State), v = mhz / 5 * 5 → s.domOn (20 + c / 48) →
    (v < s.rd (coreFmax c) → ∃ u, exec (.ageingMeasure (.core c) mhz) s = .next u ∧ u.rd (coreFmax c) = v ∧
      u.journal = s.journal ++ [(0x43C000 + 2 * c.val, toBytes 2 v)] ∧
      ((v < 2400 ∧ 2400 ≤ s.rd (coreFmax c)) → ∃ f, u.gathered = s.gathered ++ [f] ∧ f.code = 0x080B ∧ f.kind = 10 ∧ f.index = (c : Nat)) ∧
      (¬(v < 2400 ∧ 2400 ≤ s.rd (coreFmax c)) → u.gathered = s.gathered) ∧
      OnlyRegs [0x49000 + 8 * c] { s with journal := u.journal, gathered := u.gathered } u) ∧
    (s.rd (coreFmax c) ≤ v → exec (.ageingMeasure (.core c) mhz) s = .next s)

/-- A rail that comes up before a lower step's rails raises 0x0800, is noted in SEQ and stops the fast domains; one that falls before
a higher step's raises 0x0801; the last to fall in order leaves the mark; the loss of VDD_AON leaves memory empty and the
strongroom whole; the last rail to come up with everything else there begins stage 2. A domain request that R444 refuses is
flagged and changes nothing; else the domain switches, and a quadrant comes on with empty shelves and may not run above 700 MHz in
its first interval. The loss of PILOT_CLK raises 0x0803 and stops the fast domains. A host port's lost reference clock loses its
path. The hang watch blocks the requester. A unit reset returns its unit to reset and unblocks it, and keeps a crate's shelves. A
core moves 100 MHz at a time. (R75, R441, R442, R443, R444, R445, R448, R449, R453, R454, R457, R484) -/
def Obligations.RailsDomainsClocksAndUnitResets : Prop :=
  (∀ (i : Fin 15) (lvl : Fin 3) (s : State), i.val ≠ 0 → s.on (railUp 0) →
    (s.on (railDown i) → s.on (railUp i) = false → lvl.val ≠ 0 → s.on seqViolated = false → s.fastStopped = false →
      (∃ j : Fin 15, railOrder j < railOrder i ∧ s.on (railUp j) = false) → ∃ u f, exec (.railTransition i lvl) s = .next u ∧
        u.on seqViolated ∧ u.rd seqRail = (i : Nat) ∧ u.rd seqStep = railOrder i ∧ u.fastStopped ∧ u.pins.devReady = false ∧
        f ∈ u.gathered ∧ f.code = 0x0800 ∧ f.cls = 2 ∧ f.kind = 12 ∧ f.index = (i : Nat) ∧ u.on (railUp i) = decide (lvl.val = 2)) ∧
    (s.on (railUp i) → lvl.val ≠ 2 → s.on seqViolated = false → s.pdBroken = false →
      (∃ j : Fin 15, railOrder i < railOrder j ∧ s.on (railDown j) = false) → ∃ u f, exec (.railTransition i lvl) s = .next u ∧ u.pdBroken ∧
        u.gathered = s.gathered ++ [f] ∧ f.code = 0x0801 ∧ f.kind = 12 ∧ f.index = (i : Nat) ∧ u.on (railUp i) = false ∧
        OnlyRegs [0x1C0010 + 4 * i] { s with gathered := u.gathered, pdBroken := true } u) ∧
    (s.on (railUp i) = false → s.on (railDown i) = false → lvl.val = 2 → (∀ j : Fin 15, j ≠ i → s.on (railUp j)) →
      s.pins.resetReleased → s.t0 = none → s.on pilotOk → s.fastStopped = false → s.on seqViolated = false →
      ∃ u, exec (.railTransition i lvl) s = .next u ∧ u.rd pklStage = 2 ∧ u.on (railUp i) ∧
        OnlyRegs [0x1C0010 + 4 * i, 0x4C0000] { s with t0 := some s.plt } u) ∧
    (s.on (railDown i) = false → lvl.val = 0 → 2 ≤ railOrder i → (∀ j : Fin 15, j ≠ i → 2 ≤ railOrder j → s.on (railDown j)) →
      (s.on seqViolated = false → s.pdBroken = false → ∃ u, exec (.railTransition i lvl) s = .next u ∧
        u.journal = s.journal ++ [(0x440010, [1#8])] ∧ u.on (railDown i) ∧ OnlyRegs [0x1C0010 + 4 * i] { s with journal := u.journal } u) ∧
      (s.on seqViolated → ∃ u, exec (.railTransition i lvl) s = .next u ∧ u.on seqViolated = false ∧ u.cellar = s.cellar ∧
        u.strong = s.strong ∧ u.fastStopped = (s.pins.thermTrip || (s.on pwrOnInternal && !s.on pilotOk))))) ∧
  (∀ (lvl : Fin 3) (s : State), s.on (railUp 0) → lvl.val ≠ 2 → ∃ u, exec (.railTransition 0 lvl) s = .next u ∧ u.plt = 0 ∧ u.cellar = [] ∧
    u.shelf = [] ∧ u.strong = s.strong ∧ u.journal = s.journal ∧ u.flash = s.flash ∧ u.cmds = [] ∧ u.pins = State.reset.pins ∧
    u.on (railUp 0) = false) ∧
  (∀ s : State, s.on (railUp 0) = false → (∀ j : Fin 15, 2 ≤ railOrder j → s.on (railDown j)) →
    ∃ u, exec (.railTransition 0 2) s = .next u ∧ u.plt = 0 ∧ u.on (railUp 0) ∧ u.journal = [] ∧
      u.strong = s.journal.foldl (fun m j => writeBytes m j.1 j.2) s.strong ∧
      OnlyRegs [0x1C0010] { s with plt := 0, journal := [], strong := u.strong } u) ∧
  (∀ (src : Src) (d : DomainId) (w : BitVec 32) (s : State), s.mayWrite src (0x1C0100 + 8 * d) → s.fastStopped = false →
    (s.on (domBit d) = false → ((d.val ∈ [22, 25, 26, 27] ∧ s.pins.devReady) ∨
        (d.val < 16 ∧ (s.rd (domState (16 + d / 4)) = 0 ∨ s.rd (domState (16 + d / 4)) = 4 ∨ s.on (domBit (16 + d / 4)) = false)) ∨ (d.val < 16 ∧ w.getLsbD 1)) →
      ∃ u, exec (.domainPowerOn src d w) s = .next u ∧ u.on (domRefused d) ∧ u.on (domBit d) = false ∧
        u.rd (domState d) = s.rd (domState d) ∧ OnlyRegs [0x1C0100 + 8 * d] s u) ∧
    (s.on (domBit d) = false → d.val < 16 → s.rd (domState (16 + d / 4)) = 2 → s.on (domBit (16 + d / 4)) → w.getLsbD 1 = false → s.domQ = [] → s.slices = [] →
      s.rd (domState d) = 0 → (∀ e : DomainId, domRail e = domRail d → s.rd (domState e) ≠ 1) →
      ∃ u, exec (.domainPowerOn src d w) s = .next u ∧ u.on (domBit d) ∧ u.rd (domState d) = 1 ∧ OnlyRegs [0x1C0100 + 8 * d] s u) ∧
    (s.on (domBit d) → 16 ≤ d.val → d.val < 20 → (∃ q : Fin 16, q.val / 4 = d.val - 16 ∧ (s.rd (domState q) ≠ 0 ∨ s.on (domBit q))) →
      ∃ u, exec (.domainPowerOff src d w) s = .next u ∧ u.on (domRefused d) ∧ u.on (domBit d) ∧ u.rd (domState d) = s.rd (domState d) ∧
        OnlyRegs [0x1C0100 + 8 * d] s u) ∧
    (s.on (domBit d) → d.val < 16 → w.getLsbD 1 = false → s.domQ = [] → s.slices = [] → s.rd (domState d) = 2 →
      ∃ u, exec (.domainPowerOff src d w) s = .next u ∧ u.on (domBit d) = false ∧ u.rd (domState d) = 4 ∧
        OnlyRegs [0x1C0100 + 8 * d] s u) ∧
    (w.getLsbD 0 = s.on (domBit d) → (d.val < 16 → w.getLsbD 1 = false) → ∃ u, exec (.domainClockStop src d w) s = .next u ∧
      u.on (domClkStop d) = w.getLsbD 1 ∧ u.on (domBit d) = s.on (domBit d) ∧ OnlyRegs [0x1C0100 + 8 * d] s u ∧
      u.rd (domState d) = (if s.rd (domState d) = 2 ∧ w.getLsbD 1 then 3 else if s.rd (domState d) = 3 ∧ w.getLsbD 1 = false then 2
        else s.rd (domState d))) ∧
    (w.getLsbD 0 = s.on (domBit d) → d.val < 16 → w.getLsbD 1 → ∃ u, exec (.domainClockStop src d w) s = .next u ∧ u.on (domRefused d) ∧
      u.rd (domState d) = s.rd (domState d) ∧ OnlyRegs [0x1C0100 + 8 * d] s u)) ∧
  (∀ (d : DomainId) (s : State), d.val < 16 → s.domQ = [] →
    (s.rd (domState d) = 1 → (∀ t : TileId, quadOfCrate (t / 64) = d.val → ∀ r, (s.tile t).eng2.run = some r → r.flight = []) →
      ∃ u, exec (.domainSwitchComplete d) s = .next u ∧ u.rd (domState d) = (if s.on (domClkStop d) then 3 else 2) ∧
      u.rd (domSwitches d) = min (s.rd (domSwitches d) + 1) (2 ^ 32 - 1) ∧ u.cellar = s.cellar ∧ d.val ∈ u.gov.newOn ∧
      (∀ k : CrateId, quadOfCrate k = d.val → u.crateHi k = 700) ∧
      (∀ k, quadOfCrate (k / 0x40000 / 64) = d.val → readByte u.shelf k = 0#8) ∧
      ∀ k, quadOfCrate (k / 0x40000 / 64) ≠ d.val → readByte u.shelf k = readByte s.shelf k) ∧
    (s.rd (domState d) = 4 → ∃ u, exec (.domainSwitchComplete d) s = .next u ∧ u.rd (domState d) = 0 ∧
      ∀ t : TileId, quadOfCrate (t / 64) = d.val → u.tile t = Tile.fresh) ∧
    (s.rd (domState d) ≠ 1 → s.rd (domState d) ≠ 4 → exec (.domainSwitchComplete d) s = .next s)) ∧
  (∀ s : State, s.on (railUp 0) → (s.on pilotOk → s.fastStopped = false → ∃ u f, exec .pilotLightLoss s = .next u ∧ u.on pilotOk = false ∧
      u.on pwrOnInternal ∧ u.fastStopped ∧ u.pins.devReady = false ∧ f ∈ u.gathered ∧ f.code = 0x0803 ∧ f.cls = 2) ∧
    ((s.t0 ≠ none ∨ s.fastStopped) → ∃ u, exec .pilotLightReturn s = .next u ∧ u.on pilotOk ∧ OnlyRegs [0x1C0200] s u)) ∧
  (∀ (i : Fin 4) (s : State), (s.on (refOk i) → i.val < 2 → s.on (hpLinkUp i) → ∃ u f, exec (.serdesRefclkLoss i) s = .next u ∧
      u.on (refOk i) = false ∧ u.on (hpLinkUp i) = false ∧ (∀ r < 16, u.rd (ringState (16 * i + r)) = 5) ∧ f ∈ u.gathered ∧
      f.code = 0x0702 ∧ f.kind = 9 ∧ f.index = (i : Nat)) ∧
    (s.on (refOk i) → i.val < 2 → s.on (hpLinkUp i) = false → ∃ u, exec (.serdesRefclkLoss i) s = .next u ∧ u.on (refOk i) = false ∧
      OnlyRegs [0x1C0200] s u) ∧
    (s.on (railUp 0) → ∃ u, exec (.serdesRefclkReturn i) s = .next u ∧ u.on (refOk i) ∧ OnlyRegs [0x1C0200] s u)) ∧
  (∀ (x : BitVec 16) (kind : Fin 16) (index t unit : Nat) (s : State), unit = kind.val * 2 ^ 24 + index % 2 ^ 24 →
    (s.clockStopped t = false → exec (.hangWatchFire x kind index t) s = .next s) ∧
    (s.clockStopped t → ∃ u f, exec (.hangWatchFire x kind index t) s = .next u ∧ u.gathered = s.gathered ++ [f] ∧ f.code = 0x0804 ∧
      f.kind = (kind : Nat) ∧ f.index = index % 2 ^ 24 ∧ u.rd hangCount = min (s.rd hangCount + 1) (2 ^ 24 - 1) ∧
      (∀ h ∈ u.held, h ∈ s.held ∧ ¬(h.dom = t ∧ h.unit = unit)) ∧
      (kind.val = 9 → t ∈ u.bar0Blocked ∧ u.blocked = s.blocked) ∧ (kind.val ≠ 9 → unit ∈ u.blocked ∧ u.bar0Blocked = s.bar0Blocked) ∧
      OnlyRegs [0x1C0210, 0x1C0218, 0x1C021C]
        { s with gathered := u.gathered, held := u.held, blocked := u.blocked, bar0Blocked := u.bar0Blocked } u)) ∧
  (∀ (src : Src) (n : BitVec 16) (s : State) (i : Nat), s.mayWrite src 0x1C0220 → s.fastStopped = false → i = n.toNat →
    (i < 384 → s.crateOn i → (∀ j < 64, ∀ r, (s.tile (64 * i + j)).eng2.run = some r → r.flight = []) →
      ∃ u, exec (.urstCrate src n) s = .next u ∧ u.crate i = Crate.fresh ∧ u.shelf = s.shelf ∧ u.cellar = s.cellar ∧
        (∀ j < 64, u.on (tHold (64 * i + j)) ∧ (u.tile (64 * i + j)).cpu = Tile.fresh.cpu ∧
          (∀ e : Fin 3, (u.tile (64 * i + j)).eng e = .idle) ∧ u.reg (hubReg (64 * i + j) 0xC04 16) = s.reg (hubReg (64 * i + j) 0xC04 16) ∧
          u.rd (tFmax (64 * i + j)) = s.rd (tFmax (64 * i + j)) ∧ 2 ^ 24 + 64 * i + j ∉ u.blocked) ∧
        2 * 2 ^ 24 + i ∉ u.blocked ∧ 64 + i ∉ u.bar0Blocked) ∧
    ((384 ≤ i ∨ s.crateOn i = false) → exec (.urstCrate src n) s = .next s) ∧
    (i < 96 → s.domPowered (20 + i / 48) → ∃ u, exec (.urstCore src n) s = .next u ∧
      u.rd (coreState i) = (if s.rd (coreState i) = 2 then 2 else 0) ∧ OnlyRegs [0x49000 + 8 * i] { s with
        hcores := s.hcores.filter fun q => decide (q.1 ≠ i), creqs := s.creqs.filter fun q => !(decide (q.core = i) && decide (q.stage = 3)),
        blocked := s.blocked.filter fun b => !decide (b = 10 * 2 ^ 24 + i) } u) ∧
    ((96 ≤ i ∨ s.domPowered (20 + i / 48) = false) → exec (.urstCore src n) s = .next s) ∧
    (i < 2 → s.domPowered (28 + i) → ∃ u, exec (.urstCollEngine src n) s = .next u ∧
      u.colls = (s.colls.filter fun c => decide (c.e ≠ i)) ∧ SameMemory s u ∧ 14 * 2 ^ 24 + i ∉ u.blocked ∧ 28 + i ∉ u.bar0Blocked ∧
      (∀ a, collBase i ≤ a → a < collBase i + 0x1000 → u.reg a = resetWord a) ∧
      ∀ a, (a < collBase i ∨ collBase i + 0x1000 ≤ a) → u.reg a = s.reg a)) ∧
  ∀ (c : CoreId) (s : State) (goal : Nat), s.on govLowest = false → s.domOn (20 + c / 48) → c.val / 8 ∉ s.gov.hot →
    goal = max 2400 (min (lookMap 2400 s.gov.coreSet c) (s.rd (coreFmax c))) →
    (s.rd (coreMhz c) = goal → exec (.coreFrequencyChange c) s = .next s) ∧
    (s.rd (coreMhz c) ≠ goal → ∃ u, exec (.coreFrequencyChange c) s = .next u ∧ OnlyRegs [0x49000 + 8 * c] s u ∧
      u.rd (coreMhz c) = (if s.rd (coreMhz c) < goal then min (s.rd (coreMhz c) + 100) goal else max (s.rd (coreMhz c) - 100) goal))

/-- Package reset keeps every memory, the counter and the ring epochs, ends every command and powers every switched domain off. Its
release samples the straps and begins stage 2 once rails and PILOT_CLK are there. A stage that ends notes its tick, raises 0x0900
when late, and makes way for the next; with no copy that answers, or no seam or cluster that serves, the start stops with its
reason. Stage 6 leaves the cellar zero, stage 11 asserts DEV_READY. An update is refused 0x20, fails 0x23 on a bad address, or
erases the other copy's area and is BUSY until its end. STRONGROOM_READ copies its units. A slice starts where R576 allows, a
crate's once its held lines have reached their homes, passes on an equal signature, runs again after the first failure, and fails
its unit at the second. (R522, R523, R529, R532, R537, R538, R542, R543, R573, R575, R576, R600) -/
def Obligations.ResetStartUpdatesAndSelfTest : Prop :=
  (∀ s : State, ∃ u, exec .pkgResetAssert s = .next u ∧ SameMemory s u ∧ u.plt = s.plt ∧ u.journal = s.journal ∧ u.flash = s.flash ∧ u.cmds = [] ∧
    u.pins.devReady = false ∧ u.pins.resetReleased = false ∧ (∀ d < 30, u.rd (domState d) = 0) ∧ u.mainCount = 0 ∧ u.fatalCount = 0 ∧
    u.rd ovfUsed = 0 ∧ ∀ k < 32, u.rd (ringEpoch k) = s.rd (ringEpoch k)) ∧
  (∀ (b : BitVec 8) (prog : List (Nat × List Byte)) (chips : Bool × Bool) (s : State),
    (s.pins.resetReleased → exec (.pkgResetRelease b prog chips) s = .next s) ∧
    (s.pins.resetReleased = false → s.t0 = none → (∀ i < 15, s.on (railUp i)) → s.on pilotOk → s.fastStopped = false → s.on seqViolated = false →
      ∃ u, exec (.pkgResetRelease b prog chips) s = .next u ∧ u.rd pklStage = 2 ∧ u.t0 = some s.plt ∧ u.pins.resetReleased ∧
        u.pins.strap = b.toNat ∧ u.pins.tap < 2 ∧ u.chips = chips ∧
        u.flash = prog.foldl (fun m q => writeBytes m q.1 q.2) s.flash ∧
        OnlyRegs [0x4C0000] { s with t0 := u.t0, pins := u.pins, chips := chips, flash := u.flash } u)) ∧
  (∀ (e : StageEnv) (s : State) (t : Nat), s.pins.resetReleased → s.t0 = some t → s.pins.devReady = false → s.on pklStopped = false →
    (s.rd pklStage = 2 → e.badRegions = [] → ∃ u, exec (.startupStageComplete e) s = .next u ∧ u.rd pklStage = 3 ∧ u.on stgReady ∧
      u.domPowered 25 ∧ u.journal = [] ∧ u.strong = s.journal.foldl (fun m j => writeBytes m j.1 j.2) s.strong ∧
      u.rd (pklStageEnd 2) = (s.plt - t) % 2 ^ 32 ∧ (s.plt - t ≤ 125000 → u.gathered = s.gathered) ∧
      (125000 < s.plt - t → ∃ f, u.gathered = s.gathered ++ [f] ∧ f.code = 0x0900)) ∧
    (∀ k, (k = 3 ∨ k = 4) → s.rd pklStage = k → s.chips = (false, false) → ∃ u, exec (.startupStageComplete e) s = .next u ∧
      u.on pklStopped ∧ u.rd pklReason = k ∧ u.on pklDefaults ∧ u.rd (copyReason (2 * k - 6)) = 0x10 ∧ u.rd (copyReason (2 * k - 5)) = 0x10 ∧
      (∀ d < 30, d ∉ [25, 26, 27] → u.rd (domState d) = 0) ∧ u.domPowered 25 ∧ u.domPowered 26 ∧ u.domPowered 27) ∧
    (∀ c d, s.rd pklStage = 3 → s.copyOrder 0 = [c, d] → s.copyAnswers c → s.imageReason false (s.copyBytes c) = 0 →
      ∃ u, exec (.startupStageComplete e) s = .next u ∧ u.rd pklStage = 4 ∧ u.rd pklFwCopy = c % 2 ∧ u.rd (copyState c) = 1 ∧
        u.rd (copyGen c) = imageGen false (s.copyBytes c) ∧ u.rd (copySvn c) = imageSvn false (s.copyBytes c)) ∧
    (∀ c d, s.rd pklStage = 4 → s.copyOrder 2 = [c, d] → s.copyAnswers c → s.imageReason true (s.copyBytes c) = 0 →
      ∃ u, exec (.startupStageComplete e) s = .next u ∧ u.rd pklStage = 5 ∧ u.rd pklListCopy = c % 2 ∧ u.rd (copyState c) = 1 ∧
        u.rd capW = u.rd capPl ∧ u.rd capReq = u.rd capPl ∧ u.domPowered 26 ∧ u.domPowered 27) ∧
    (s.rd pklStage = 5 → ∃ u, exec (.startupStageComplete e) s = .next u ∧
      (u.rd pklStage = 6 ∨ (u.on pklStopped ∧ 5 ≤ u.rd pklReason ∧ u.rd pklReason ≤ 7))) ∧
    (s.rd pklStage = 6 → ∃ u, exec (.startupStageComplete e) s = .next u ∧ u.rd pklStage = 7 ∧ (∀ a, readByte u.cellar a = 0#8) ∧
      ∀ st < 20, u.on (celReady st)) ∧
    (s.rd pklStage = 7 → ∃ u, exec (.startupStageComplete e) s = .next u ∧ u.rd pklStage = 8 ∧ ∀ d < 16, u.domPowered d) ∧
    (s.rd pklStage = 8 → ∃ u, exec (.startupStageComplete e) s = .next u ∧ u.rd pklStage = 9) ∧
    (s.rd pklStage = 9 → (∀ p < 16, s.rd (fabLevel p) = 7 ∨ s.rd (fabState p) = 6) →
      ∃ u, exec (.startupStageComplete e) s = .next u ∧ u.rd pklStage = 10 ∧ SameMemory s u) ∧
    (s.rd pklStage = 10 → ∃ u, exec (.startupStageComplete e) s = .next u ∧ u.rd pklStage = 11 ∧ u.heartbeat = some s.plt ∧ SameMemory s u) ∧
    (s.rd pklStage = 11 → ∃ u, exec (.startupStageComplete e) s = .next u ∧ u.pins.devReady ∧ u.on (hpDevReady 0) ∧ u.on (hpDevReady 1) ∧
      u.on stgMirrorOk ∧ u.rd minList = max (s.rd minList) (s.rd (copySvn (2 + s.rd pklListCopy))) ∧
      u.rd minFw = max (s.rd minFw) (s.rd (copySvn (s.rd pklFwCopy))) % 64)) ∧
  (∀ (src : Src) (w : BitVec 32) (s : State) (list : Bool) (a inUse c : Nat), s.fastStopped = false → list = w.getLsbD 1 →
    a = bitsAt (s.reg64 0x4C0308) 0 48 → inUse = (if list then 2 + s.rd pklListCopy else s.rd pklFwCopy) →
    c = (if inUse % 2 = 0 then inUse + 1 else inUse - 1) →
    (s.mayUpdate src = false → ∃ u, exec (.pklUpdateStart src w) s = .next u ∧ u.rd updResult = 0x20 ∧ u.rd updState = s.rd updState ∧
      OnlyRegs [0x4C0300] s u) ∧
    (s.mayUpdate src → a % 8 ≠ 0 → ∃ u, exec (.pklUpdateStart src w) s = .next u ∧ u.rd updState = 3 ∧ u.rd updResult = 0x23 ∧
      OnlyRegs [0x4C0300] s u) ∧
    (∀ hd bs n, s.mayUpdate src → a % 8 = 0 → hd = readBytes s.cellar a 128 → n = (if list then fldAt hd 8 4 else fldAt hd 4 4) →
      fldAt hd 0 4 = (if list then 0x334C4B50 else 0x3157465A) → n ≤ (if list then 2 ^ 22 else 2 ^ 24) → 128 ≤ n → a + n ≤ cellarSize →
      (∀ i < n, ∃ l, PlainLine s l (a + i)) → bs = readBytes s.cellar a n → s.imageReason list bs = 0 →
      s.rd (copyGen inUse) < imageGen list bs → ∃ u, exec (.pklUpdateStart src w) s = .next u ∧ u.rd updState = 1 ∧ u.rd updProgress = 0 ∧
        u.upd = some (c, bs) ∧ u.flash = zeroRange s.flash (s.copyBase c) (s.copyBase c + copyRoom c) ∧
        OnlyRegs [0x4C0300] { s with upd := u.upd, flash := u.flash } u)) ∧
  (∀ (ok : Bool) (n c : Nat) (bs : List Byte) (s : State), s.upd = some (c, bs) → ∃ u, exec (.pklUpdateComplete ok n) s = .next u ∧
    u.upd = none ∧ u.rd updState = (if ok then 2 else 3) ∧ (ok → u.rd updProgress = 100) ∧ (ok = false → u.rd updResult = 0x22) ∧
    u.flash = ((if ok then updOrder bs else (updOrder bs).take n).foldl (fun m q => writeByte m (s.copyBase c + q.1) q.2) s.flash) ∧
    OnlyRegs [0x4C0300] { s with upd := none, flash := u.flash } u) ∧
  (∀ (s : State) (c : Cmd) (first dst x lo units : Nat), OnlyCmd s c 0x51 → first = c.fld 28 4 → dst = c.fld 40 8 →
    (2 < c.fld 24 1 → ∃ u, exec (.strongroomRead 0) s = .next u ∧ u.cmds = [] ∧ Noted u c 5 0x0500) ∧
    (stgRegion (c.fld 24 1) = some (lo, units) → units < first + c.fld 32 4 →
      ∃ u, exec (.strongroomRead 0) s = .next u ∧ u.cmds = [] ∧ Noted u c 5 0x0500) ∧
    (stgRegion (c.fld 24 1) = some (lo, units) → first < units → c.fld 32 4 = 1 → c.ring < 16 → copySpace dst 64 = some 1 →
      placeOf dst = some (.hostAp 0 x) → s.hostReach 0 (s.hostBus 0 x) 64 → ∃ u, exec (.strongroomRead 0) s = .next u ∧ u.cmds = [] ∧ Noted u c 3 0 ∧
        (c.noHost → u.hostA = writeBytes s.hostA (s.hostBus 0 x) (s.strongRead (lo + 64 * first) 64)))) ∧
  (∀ (s : State) (c : Cmd) (kind i : Nat), OnlyCmd s c 0x50 → s.on drvLost = false → kind = c.fld 24 1 → i = c.fld 26 2 →
    (s.jobAdmitted → ∃ u, exec (.bist 0) s = .next u ∧ u.cmds = [] ∧ Noted u c 5 0x0501) ∧
    (s.jobAdmitted = false → (sliceUnits kind ≤ i ∨ s.offline (sliceUnitKind kind) i) →
      ∃ u, exec (.bist 0) s = .next u ∧ u.cmds = [] ∧ Noted u c 5 0x0502) ∧
    (s.jobAdmitted = false → i < sliceUnits kind → s.offline (sliceUnitKind kind) i = false → kind = 4 → i = s.driverCluster →
      ∃ u, exec (.bist 0) s = .next u ∧ u.cmds = [] ∧ Noted u c 5 0x0503) ∧
    (s.jobAdmitted = false → i < sliceUnits kind → s.offline (sliceUnitKind kind) i = false → (kind ≠ 4 ∨ i ≠ s.driverCluster) →
      s.sliceOn kind i = false → ∃ u, exec (.bist 0) s = .next u ∧ u.cmds = [{ c with st := 2, gen := c.gen + 1 }] ∧ Noted u c 2 0 ∧
        u.slices = s.slices ++ [⟨kind, i, false, false, some (c.ring, c.seq), s.plt⟩] ∧ u.on bistStatBusy)) ∧
  (∀ (kind : Fin 4) (i : Nat) (s : State), ((s.on bistIdleEn = false ∨ s.planRun ≠ none ∨ s.tear ≠ none ∨ s.unitIdle kind i = false) →
      exec (.idleSliceStart kind i) s = .next s) ∧
    (i < sliceUnits kind → s.pins.devReady → s.on bistIdleEn → s.planRun = none → s.tear = none → s.jobAdmitted = false → s.slices = [] →
      s.unitIdle kind i → (kind.val ≠ 0 ∨ i ∈ s.sliceFirst ∨ s.sliceFirst = []) →
      (kind.val = 0 → (s.emptyCaches i).1 → exec (.idleSliceStart kind i) s = .next (s.emptyCaches i).2) ∧
      ((kind.val = 0 → (s.emptyCaches i).1 = false) → ∃ u, exec (.idleSliceStart kind i) s = .next u ∧
        u.slices = [⟨kind, i, true, false, none, s.plt⟩] ∧ u.on bistStatBusy ∧ i ∉ (if kind.val = 0 then u.sliceFirst else [])))) ∧
  (∀ (kind : Fin 5) (i : Nat) (sig expected : BitVec 64) (bad : List (Nat × Nat)) (s : State) (x : Slice), s.slices = [x] →
    x.kind = kind.val → x.index = i → i < sliceUnits kind → x.cmd = none → x.idle → kind.val ≠ 1 →
    (sig = expected → ∃ u, exec (.sliceComplete kind i sig expected bad) s = .next u ∧ u.rd bistRuns = min (s.rd bistRuns + 1) (2 ^ 32 - 1) ∧
      u.rd bistLastOutcome = 0 ∧ u.reg64 0x480018 = sig.toNat ∧
      OnlyRegs [0x480004, 0x480008, 0x480010, 0x480014, 0x480018, 0x48001C, 0x480020, 0x480024] { s with slices := [] } u) ∧
    (sig ≠ expected → x.again = false → ∃ u, exec (.sliceComplete kind i sig expected bad) s = .next u ∧
      u.rd bistRuns = min (s.rd bistRuns + 1) (2 ^ 32 - 1) ∧ OnlyRegs [0x480008, 0x480018, 0x48001C, 0x480020, 0x480024]
        { s with slices := [{ x with again := true, start := s.plt }] } u) ∧
    (x.again = false → ∃ u, exec (.sliceTimeout kind i expected bad) s = .next u ∧ OnlyRegs [0x480018, 0x48001C, 0x480020, 0x480024]
      { s with slices := [{ x with again := true, start := s.plt }], freeCtr := u.freeCtr } u) ∧
    ∀ c, (c = .sliceTimeout kind i expected bad ∨ (c = .sliceComplete kind i sig expected bad ∧ sig ≠ expected)) → x.again →
      ∃ u f, exec c s = .next u ∧ u.slices = [] ∧ u.rd bistLastOutcome = 1 ∧ u.rd bistFails = min (s.rd bistFails + 1) (2 ^ 32 - 1) ∧
        f ∈ u.gathered ∧ f.code = 0x0A00 ∧ f.kind = sliceUnitKind kind ∧ f.index = i ∧ (kind.val = 0 → u.offline 2 i))

/-- A tick with nothing gathered only advances the counter. One non-fatal record that is not merged takes the next SEQ, goes to the
entry at TAIL and signals source 1 when the queue was empty, and the same record again counts in REPEAT; a fatal one goes to the
fatal area and queue. HEAD moves forward as far as TAIL and no further; CLEAR frees the overflow counters. The oldest pending
commit writes its target. The device answers a register or strongroom read that is for it, stores forced marks and answers every
other register write 1; it forwards the rest with POS one lower and drops frames whose CRC fails. Bypass and lock follow their
conditions. The TAP gives its IDCODE, and takes EXTEST and its kin only under package reset. (R565, R566, R567, R568, R569, R571,
R573, R577, R578, R579, R606) -/
def Obligations.FaultTicksQueuesManagementAndTestPort : Prop :=
  (∀ s : State, (s.on (railUp 0) = false → exec .faultTick s = .next s) ∧
    (s.on (railUp 0) → s.gathered = [] → exec .faultTick s = .next { s with plt := (s.plt + 1) % 2 ^ 64 }) ∧
    (∀ r, s.on (railUp 0) → s.gathered = [r] → r.cls = 0 → r.code ≠ 0x0111 → bitAt r.flags 1 = false →
      (s.mergesNewest r = false → s.mainCount < 1024 → ∃ u, exec .faultTick s = .next u ∧ u.gathered = [] ∧ u.seqCtr = s.seqCtr + 1 ∧
        u.rd fltTail = (s.rd fltTail + 1) % 2048 ∧ u.rd fltHead = s.rd fltHead ∧ u.plt = (s.plt + 1) % 2 ^ 64 ∧ SameMemory s u ∧
        u.wordBytes (mainEntry (s.rd fltTail)) 16 = recBytes r (s.seqCtr + 1) 0 0 ∧ (s.mainCount = 0 → 1 ∈ u.aplic)) ∧
      (s.mergesNewest r → ∃ u, exec .faultTick s = .next u ∧ u.gathered = [] ∧ u.seqCtr = s.seqCtr ∧ u.rd fltTail = s.rd fltTail ∧
        (u.reg (mainEntry (s.rd fltTail + 2047) + 16)).toNat = min ((s.reg (mainEntry (s.rd fltTail + 2047) + 16)).toNat + 1) 0xFFFFFFFF)) ∧
    (∀ r, s.on (railUp 0) → s.gathered = [r] → r.cls = 2 → r.code ≠ 0x0111 → r.code ≠ 0x0A03 → s.fatalCount < 31 → s.rd stgFatalUsed < 65536 →
      ∃ u, exec .faultTick s = .next u ∧ u.seqCtr = s.seqCtr + 1 ∧ u.rd fatTail = (s.rd fatTail + 1) % 64 ∧ 2 ∈ u.aplic ∧
        u.journal = s.journal ++ [(0x10000 + 64 * s.rd stgFatalUsed, recBytes r (s.seqCtr + 1) 0 0)] ∧
        u.rd stgFatalUsed = s.rd stgFatalUsed + 1 ∧ u.fastStopped = s.fastStopped ∧
        u.wordBytes (0x102000 + 64 * (s.rd fatTail % 32)) 16 = recBytes r (s.seqCtr + 1) 0 0)) ∧
  (∀ (src : Src) (w : BitVec 32) (s : State) (n : Nat), s.mayWrite src 0x100000 → n = w.toNat % 2048 →
    ((n + 2048 - s.rd fltHead) % 2048 ≤ s.mainCount → ∃ u, exec (.faultHeadWrite src false w) s = .next u ∧ u.rd fltHead = n ∧
      u.rd fltTail = s.rd fltTail ∧ (u.mainCount < 1024 → u.on fltFull = false ∧ u.on fltFolding = false) ∧ OnlyRegs [0x100000] s u) ∧
    (s.mainCount < (n + 2048 - s.rd fltHead) % 2048 → exec (.faultHeadWrite src false w) s = .next s)) ∧
  (∀ (src : Src) (w : BitVec 32) (s : State) (n : Nat), s.mayWrite src 0x100008 → n = w.toNat % 64 →
    ((n + 64 - s.rd fatHead) % 64 ≤ s.fatalCount → ∃ u, exec (.faultHeadWrite src true w) s = .next u ∧ u.rd fatHead = n ∧
      u.rd fatTail = s.rd fatTail ∧ u.on fatHeld = s.on fatHeld ∧ OnlyRegs [0x100008] s u) ∧
    (s.fatalCount < (n + 64 - s.rd fatHead) % 64 → exec (.faultHeadWrite src true w) s = .next s)) ∧
  (∀ (src : Src) (s : State), s.mayWrite src 0x100018 → ∃ u, exec (.ovfClear src) s = .next u ∧ u.rd ovfUsed = 0 ∧ u.rd ovfOther = 0 ∧
    (∀ a, 0x101000 ≤ a → a < 0x102000 → u.reg a = resetWord a) ∧
    ∀ a, (a < 0x101000 ∨ 0x102000 ≤ a) → a ≠ 0x100018 → a ≠ 0x10001C → u.reg a = s.reg a) ∧
  (∀ (s : State) (o : Nat) (bs : List Byte) (l : List (Nat × List Byte)), s.journal = (o, bs) :: l →
    exec .strongroomCommitComplete s = .next { s with strong := writeBytes s.strong o bs, journal := l }) ∧
  (∀ (f : List Byte) (s : State) (a n : Nat), s.onRing → frameCrcOk f → s.takesFrame f → a = mgAddr f → n = mgLen f →
    (mgOp f = 1 → s.regPowered a → exec (.mgmtRegisterRead f) s = .next (s.reply 0 (respFrame f s.place 0 (s.mapRead a n)))) ∧
    (mgOp f = 1 → s.regPowered a = false → exec (.mgmtRegisterRead f) s = .next (s.reply 0 (respFrame f s.place 2 []))) ∧
    (mgOp f = 2 → a < 0x103100 ∨ 0x1031E0 < a + n → exec (.mgmtRegisterWrite f) s = .next (s.reply 0 (respFrame f s.place 1 []))) ∧
    (mgOp f = 2 → a % 4 = 0 → n = 4 → 0x103100 ≤ a → a + 4 ≤ 0x1031E0 → 20 ≤ f.length → ∃ u, exec (.mgmtRegisterWrite f) s = .next u ∧
      u.answer = ⟨0, respFrame f s.place 0 []⟩ ∧ ∃ v, (0x440100 + (a - 0x103100), toBytes 4 v) ∈ u.journal) ∧
    (mgOp f = 3 → a + n ≤ 0x800000 →
      exec (.mgmtStrongroomRead f) s = .next (s.reply 0 (respFrame f s.place 0 (s.strongRead a n)))) ∧
    (mgOp f = 3 → 0x800000 < a + n → exec (.mgmtStrongroomRead f) s = .next (s.reply 0 (respFrame f s.place 1 [])))) ∧
  (∀ (f : List Byte) (s : State), (s.onRing = false → exec (.mgmtFrameForward f) s = .next s) ∧
    (s.onRing → frameCrcOk f = false → exec (.mgmtFrameForward f) s = .next (s.reply 4 [])) ∧
    (s.onRing → frameCrcOk f → s.takesFrame f = false → ∃ g, exec (.mgmtFrameForward f) s = .next (s.reply 0 g) ∧ frameCrcOk g ∧
      g.length = f.length ∧ mgPos g = (mgPos f + 65535) % 65536 ∧ ∀ i < f.length - 4, i ≠ 2 → i ≠ 3 → g[i]? = f[i]?)) ∧
  (∀ (ok : Bool) (s : State), exec (.mgtBypassEngage ok) s = .next { s with pins := { s.pins with
      bypLow := s.on (railUp 0) && s.on (railUp 1) && s.pins.resetReleased && ok } } ∧
    exec (.mgtLinkRelock ok) s = .next { s with pins := { s.pins with mgtLock := ok } }) ∧
  ∀ (s : State) (cells : Nat), s.on (railUp 0) → s.on (railUp 1) →
    exec .jtagIdcode s = .next { s with pins := { s.pins with tap := 0, cells := 0 }, answer := ⟨0, toBytes 4 s.idcode⟩ } ∧
    exec .jtagBypass s = .next { s with pins := { s.pins with tap := 1, cells := 0 } } ∧
    ∀ q ∈ [(2, Instr.jtagExtest cells), (3, .jtagIntest cells), (4, .jtagExtestPulse cells), (5, .jtagExtestTrain cells)],
      exec q.2 s = .next { s with pins := { s.pins with
        tap := if s.pins.resetReleased then 1 else q.1, cells := if s.pins.resetReleased then 0 else cells } }
end

