-- ==== Sys2Proof/Laws/Credits.lean ====
section
/-! SUPPORT. What sending a packet can do: it leaves with its credits taken, or waits. -/
namespace Sys2Proof.Machine

/-- A packet that may leave does. -/
theorem State.fabSend_leaves {s : State} {p : Nat} {k : Packet} (h : s.mayLeave ⟨p, none, k⟩ = true) :
    s.fabSend p k = s.leave ⟨p, none, k⟩ := by
  simp [State.fabSend, State.fabPut, h]

/-- A packet that may not leave waits, and nothing else changes. -/
theorem State.fabSend_waits {s : State} {p : Nat} {k : Packet} (h : s.mayLeave ⟨p, none, k⟩ = false) :
    s.fabSend p k = { s with fabWait := s.fabWait ++ [⟨p, none, k⟩] } := by
  simp [State.fabSend, State.fabPut, h]

/-- A packet that leaves stands last among its port's, unless it is a Sync packet and others have not left yet. -/
theorem State.leave_fabTx {s : State} {q : FabHeld} (h : q.pkt.vc ≠ 0 ∨ syncAhead q.port s.fabTx = 0) :
    (s.leave q).fabTx = s.fabTx ++ [(q.port, q.pkt)] := by
  have : (if q.pkt.vc = 0 then syncAhead q.port s.fabTx else 0) = 0 := by
    split
    · rename_i hv
      rcases h with h | h
      · exact absurd hv h
      · exact h
    · rfl
  show (if (if q.pkt.vc = 0 then syncAhead q.port s.fabTx else 0) = 0 then _ else _) = _
  rw [if_pos this]

/-- Ahead of others or not, a packet that leaves is among its port's. -/
theorem mem_putAhead (p : Nat) (k : Packet) (n : Nat) (xs : List (Nat × Packet)) : (p, k) ∈ putAhead p k n xs := by
  induction xs generalizing n with
  | nil => cases n <;> simp [putAhead]
  | cons x xs ih =>
    cases n with
    | zero => simp [putAhead]
    | succ n => simp [putAhead, ih]

theorem State.mem_leave_fabTx (s : State) (q : FabHeld) : (q.port, q.pkt) ∈ (s.leave q).fabTx := by
  show _ ∈ (if (if q.pkt.vc = 0 then syncAhead q.port s.fabTx else 0) = 0 then _ else _)
  by_cases h : (if q.pkt.vc = 0 then syncAhead q.port s.fabTx else 0) = 0
  · rw [if_pos h]; simp
  · rw [if_neg h]; simp [mem_putAhead]

end Sys2Proof.Machine
end

