-- ==== Sys2Proof/Laws/Map.lean ====
section
/-! SUPPORT. Sparse maps, memories and bytes: reading after writing, and the canonical form that every write keeps. -/
namespace Sys2Proof.Machine

section Maps
variable {α : Type}

/-- Every key of a list lies above a bound. -/
def keysAbove (l : Nat) (m : List (Nat × α)) : Prop := ∀ p ∈ m, l < p.1

theorem lookMap_delMap_same (d : α) (m : List (Nat × α)) (k : Nat) : lookMap d (delMap k m) k = d := by
  induction m with
  | nil => rfl
  | cons p m ih => obtain ⟨k', v⟩ := p; by_cases h : k' = k <;> simp [delMap, lookMap, h, ih]

theorem lookMap_delMap_other (d : α) (m : List (Nat × α)) {k j : Nat} (h : j ≠ k) :
    lookMap d (delMap k m) j = lookMap d m j := by
  induction m with
  | nil => rfl
  | cons p m ih =>
    obtain ⟨k', v⟩ := p
    by_cases hk : k' = k
    · have : k' ≠ j := fun e => h (e.symm.trans hk)
      simp [delMap, lookMap, hk, ih]; intro e; exact absurd e.symm h
    · simp [delMap, lookMap, hk, ih]

theorem lookMap_insMap_same (d : α) (m : List (Nat × α)) (k : Nat) (v : α) (h : ∀ p ∈ m, p.1 ≠ k) :
    lookMap d (insMap k v m) k = v := by
  induction m with
  | nil => simp [insMap, lookMap]
  | cons p m ih =>
    obtain ⟨k', v'⟩ := p
    have hk : k' ≠ k := h (k', v') (by simp)
    have hm : ∀ q ∈ m, q.1 ≠ k := fun q hq => h q (by simp [hq])
    by_cases hlt : k < k'
    · simp [insMap, lookMap, hlt]
    · simp [insMap, lookMap, hlt, hk, ih hm]

theorem lookMap_insMap_other (d : α) (m : List (Nat × α)) {k j : Nat} (v : α) (h : j ≠ k) :
    lookMap d (insMap k v m) j = lookMap d m j := by
  induction m with
  | nil => simp [insMap, lookMap]; intro e; exact absurd e.symm h
  | cons p m ih =>
    obtain ⟨k', v'⟩ := p
    by_cases hlt : k < k'
    · simp [insMap, lookMap, hlt]; intro e; exact absurd e.symm h
    · simp [insMap, lookMap, hlt, ih]

theorem mem_delMap {m : List (Nat × α)} {k : Nat} {p : Nat × α} (h : p ∈ delMap k m) : p ∈ m ∧ p.1 ≠ k := by
  induction m with
  | nil => simp [delMap] at h
  | cons q m ih =>
    obtain ⟨k', v⟩ := q
    by_cases hk : k' = k
    · simp only [delMap, hk, if_true] at h
      exact ⟨List.mem_cons_of_mem _ (ih h).1, (ih h).2⟩
    · simp only [delMap, hk, if_false, List.mem_cons] at h
      rcases h with rfl | h
      · exact ⟨by simp, hk⟩
      · exact ⟨List.mem_cons_of_mem _ (ih h).1, (ih h).2⟩

theorem mem_insMap {m : List (Nat × α)} {k : Nat} {v : α} {p : Nat × α} (h : p ∈ insMap k v m) : p = (k, v) ∨ p ∈ m := by
  induction m with
  | nil => simp [insMap] at h; exact .inl h
  | cons q m ih =>
    obtain ⟨k', v'⟩ := q
    by_cases hlt : k < k'
    · simpa [insMap, hlt] using h
    · simp only [insMap, hlt, if_false, List.mem_cons] at h
      rcases h with rfl | h
      · simp
      · rcases ih h with rfl | h'
        · simp
        · simp [h']

variable [DecidableEq α]

/-- Reading the key that a write set gives the value written. -/
@[simp] theorem lookMap_putMap_same (d : α) (m : List (Nat × α)) (k : Nat) (v : α) : lookMap d (putMap d m k v) k = v := by
  unfold putMap
  split
  · next h => rw [lookMap_delMap_same, h]
  · exact lookMap_insMap_same d _ k v fun p hp => (mem_delMap hp).2

/-- A write leaves every other key as it was. -/
theorem lookMap_putMap_other (d d' : α) (m : List (Nat × α)) {k j : Nat} (v : α) (h : j ≠ k) :
    lookMap d (putMap d' m k v) j = lookMap d m j := by
  unfold putMap
  split
  · exact lookMap_delMap_other d m h
  · rw [lookMap_insMap_other d _ v h, lookMap_delMap_other d m h]

/-- The default at key `k` is all that a write at `k` uses of the defaults. -/
theorem putMap_default (d : Nat → α) (m : List (Nat × α)) (k : Nat) (v : α) :
    putMap (d k) m k v = if v = d k then delMap k m else insMap k v (delMap k m) := rfl

/-- A bound below the first key of a canonical list. -/
theorem wfMapFrom_weaken {d : Nat → α} {m : List (Nat × α)} {l : Nat} (h : wfMapFrom d (some l) m = true) : wfMapFrom d none m = true := by
  cases m with
  | nil => rfl
  | cons p m => obtain ⟨k, v⟩ := p; simp [wfMapFrom] at h ⊢; exact ⟨h.1.2, h.2⟩

theorem wfMapFrom_mono {d : Nat → α} {m : List (Nat × α)} {l l' : Nat} (hl : l' ≤ l) (h : wfMapFrom d (some l) m = true) :
    wfMapFrom d (some l') m = true := by
  cases m with
  | nil => rfl
  | cons p m => obtain ⟨k, v⟩ := p; simp [wfMapFrom] at h ⊢; exact ⟨⟨by omega, h.1.2⟩, h.2⟩

theorem wfMapFrom_delMap {d : Nat → α} (m : List (Nat × α)) (k : Nat) (lo : Option Nat) (h : wfMapFrom d lo m = true) :
    wfMapFrom d lo (delMap k m) = true := by
  induction m generalizing lo with
  | nil => simpa [delMap] using h
  | cons p m ih =>
    obtain ⟨k', v⟩ := p
    by_cases hk : k' = k
    · simp only [delMap, hk, if_true]
      cases lo with
      | none => simp [wfMapFrom] at h; exact ih none (wfMapFrom_weaken h.2)
      | some l =>
        simp [wfMapFrom] at h
        exact ih (some l) (wfMapFrom_mono (Nat.le_of_lt h.1.1) h.2)
    · simp only [delMap, hk, if_false]
      cases lo <;> simp [wfMapFrom] at h ⊢ <;> exact ⟨h.1, ih _ h.2⟩

theorem wfMapFrom_insMap {d : Nat → α} (m : List (Nat × α)) (k : Nat) (v : α) (lo : Option Nat) (hv : v ≠ d k)
    (hne : ∀ p ∈ m, p.1 ≠ k) (hlo : ∀ l, lo = some l → l < k) (h : wfMapFrom d lo m = true) :
    wfMapFrom d lo (insMap k v m) = true := by
  induction m generalizing lo with
  | nil => cases lo <;> simp [insMap, wfMapFrom, hv]; exact hlo _ rfl
  | cons p m ih =>
    obtain ⟨k', v'⟩ := p
    have hk : k' ≠ k := hne (k', v') (by simp)
    by_cases hlt : k < k'
    · simp only [insMap, hlt, if_true]
      cases lo with
      | none => simp [wfMapFrom] at h ⊢; exact ⟨hv, ⟨hlt, h.1⟩, h.2⟩
      | some l => simp [wfMapFrom] at h ⊢; exact ⟨⟨hlo l rfl, hv⟩, ⟨hlt, h.1.2⟩, h.2⟩
    · simp only [insMap, hlt, if_false]
      have hm : ∀ q ∈ m, q.1 ≠ k := fun q hq => hne q (by simp [hq])
      have hkk : ∀ l, some k' = some l → l < k := fun l e => by cases e; omega
      cases lo <;> simp [wfMapFrom] at h ⊢ <;> exact ⟨h.1, ih _ hm hkk h.2⟩

/-- Every write keeps the canonical form. -/
theorem wfMap_putMap {d : Nat → α} {m : List (Nat × α)} (k : Nat) (v : α) (h : wfMap d m = true) : wfMap d (putMap (d k) m k v) = true := by
  unfold putMap wfMap
  split
  · exact wfMapFrom_delMap m k none h
  · next hv => exact wfMapFrom_insMap _ k v none hv (fun p hp => (mem_delMap hp).2) (by simp) (wfMapFrom_delMap m k none h)

/-- Removing entries keeps the canonical form. -/
theorem wfMapFrom_filter {d : Nat → α} (m : List (Nat × α)) (p : Nat × α → Bool) (lo : Option Nat) (h : wfMapFrom d lo m = true) :
    wfMapFrom d lo (m.filter p) = true := by
  induction m generalizing lo with
  | nil => simpa using h
  | cons q m ih =>
    obtain ⟨k, v⟩ := q
    by_cases hp : p (k, v) = true
    · rw [List.filter_cons_of_pos hp]
      cases lo <;> simp [wfMapFrom] at h ⊢ <;> exact ⟨h.1, ih _ h.2⟩
    · rw [List.filter_cons_of_neg hp]
      cases lo with
      | none => simp [wfMapFrom] at h; exact ih none (wfMapFrom_weaken h.2)
      | some l => simp [wfMapFrom] at h; exact ih (some l) (wfMapFrom_mono (Nat.le_of_lt h.1.1) h.2)

theorem wfMap_filter {d : Nat → α} {m : List (Nat × α)} (p : Nat × α → Bool) (h : wfMap d m = true) : wfMap d (m.filter p) = true :=
  wfMapFrom_filter m p none h

end Maps

/-! Memories. -/

@[simp] theorem readByte_writeByte_same (m : List Host.Cell) (a : Nat) (b : Byte) : readByte (writeByte m a b) a = b :=
  lookMap_putMap_same 0#8 m a b

theorem readByte_writeByte_other (m : List Host.Cell) {a x : Nat} (b : Byte) (h : x ≠ a) :
    readByte (writeByte m a b) x = readByte m x := lookMap_putMap_other 0#8 0#8 m b h

/-- Bytes outside a written run keep their values. -/
theorem readByte_writeBytes_other (bs : List Byte) (m : List Host.Cell) (a x : Nat) (h : x < a ∨ a + bs.length ≤ x) :
    readByte (writeBytes m a bs) x = readByte m x := by
  induction bs generalizing m a with
  | nil => rfl
  | cons b bs ih =>
    simp only [writeBytes, List.length_cons] at *
    rw [ih _ _ (by omega), readByte_writeByte_other _ _ (by omega)]

/-- A written run reads as written. -/
theorem readByte_writeBytes_same (bs : List Byte) (m : List Host.Cell) (a i : Nat) (h : i < bs.length) :
    readByte (writeBytes m a bs) (a + i) = bs[i] := by
  induction bs generalizing m a i with
  | nil => simp at h
  | cons b bs ih =>
    simp only [writeBytes]
    cases i with
    | zero => rw [readByte_writeBytes_other _ _ _ _ (.inl (by omega))]; simp
    | succ i =>
      have := ih (writeByte m a b) (a + 1) i (by simpa using h)
      rw [show a + (i + 1) = a + 1 + i by omega, this]; simp

theorem wfMap_writeByte {m : List Host.Cell} (a : Nat) (b : Byte) (h : wfMap (fun _ => 0#8) m = true) :
    wfMap (fun _ => 0#8) (writeByte m a b) = true := wfMap_putMap (d := fun _ => 0#8) a b h

theorem wfMap_writeBytes (bs : List Byte) {m : List Host.Cell} (a : Nat) (h : wfMap (fun _ => 0#8) m = true) :
    wfMap (fun _ => 0#8) (writeBytes m a bs) = true := by
  induction bs generalizing m a with
  | nil => exact h
  | cons b bs ih => exact ih (a + 1) (wfMap_writeByte a b h)

theorem wfMap_writeMasked (bs : List (Byte × Bool)) {m : List Host.Cell} (a : Nat) (h : wfMap (fun _ => 0#8) m = true) :
    wfMap (fun _ => 0#8) (writeMasked m a bs) = true := by
  induction bs generalizing m a with
  | nil => exact h
  | cons p bs ih =>
    obtain ⟨b, k⟩ := p
    cases k
    · exact ih (a + 1) h
    · exact ih (a + 1) (wfMap_writeByte a b h)

theorem wfMap_zeroRange {m : List Host.Cell} (lo hi : Nat) (h : wfMap (fun _ => 0#8) m = true) :
    wfMap (fun _ => 0#8) (zeroRange m lo hi) = true := wfMap_filter _ h

@[simp] theorem length_readBytes (m : List Host.Cell) (a n : Nat) : (readBytes m a n).length = n := by
  induction n generalizing a with
  | zero => rfl
  | succ n ih => simp [readBytes, ih]

/-- Byte `i` of what `readBytes` answers. -/
theorem getElem_readBytes (m : List Host.Cell) (a n i : Nat) (h : i < (readBytes m a n).length) : (readBytes m a n)[i] = readByte m (a + i) := by
  induction n generalizing a i with
  | zero => simp [readBytes] at h
  | succ n ih =>
    cases i with
    | zero => rfl
    | succ i =>
      simp only [readBytes, List.getElem_cons_succ]
      rw [ih]
      congr 1
      omega

/-- Two memories that agree on a range read the same there. -/
theorem readBytes_congr {m m' : List Host.Cell} {a n : Nat} (h : ∀ i < n, readByte m (a + i) = readByte m' (a + i)) :
    readBytes m a n = readBytes m' a n :=
  List.ext_getElem (by simp) fun i h1 h2 => by
    rw [getElem_readBytes, getElem_readBytes]
    exact h i (by simpa using h1)

/-- Bytes that have been written read as written. -/
theorem readBytes_writeBytes_same (m : List Host.Cell) (a : Nat) (bs : List Byte) : readBytes (writeBytes m a bs) a bs.length = bs :=
  List.ext_getElem (by simp) fun i h1 h2 => by rw [getElem_readBytes, readByte_writeBytes_same bs m a i h2]

/-- A range that lies outside the written one reads as before. -/
theorem readBytes_writeBytes_other (m : List Host.Cell) (a x n : Nat) (bs : List Byte) (h : x + n ≤ a ∨ a + bs.length ≤ x) :
    readBytes (writeBytes m a bs) x n = readBytes m x n :=
  readBytes_congr fun i hi => readByte_writeBytes_other bs m a (x + i) (by omega)

/-- The first `k` bytes of a longer read. -/
theorem take_readBytes (m : List Host.Cell) (a : Nat) {n k : Nat} (h : k ≤ n) : (readBytes m a n).take k = readBytes m a k :=
  List.ext_getElem (by simp [h]) fun i h1 h2 => by rw [List.getElem_take, getElem_readBytes, getElem_readBytes]

@[simp] theorem length_toBytes (n v : Nat) : (toBytes n v).length = n := by
  induction n generalizing v with
  | zero => rfl
  | succ n ih => simp [toBytes, ih]

/-- The bytes of a number spell it again, modulo their range. -/
@[simp] theorem ofBytes_toBytes (n v : Nat) : ofBytes (toBytes n v) = v % 256 ^ n := by
  induction n generalizing v with
  | zero => simp [toBytes, ofBytes, Nat.mod_one]
  | succ n ih =>
    have h1 : (BitVec.ofNat 8 v).toNat = v % 256 := BitVec.toNat_ofNat v 8
    have h2 : 256 ^ (n + 1) = 256 * 256 ^ n := by rw [Nat.pow_succ, Nat.mul_comm]
    rw [toBytes, ofBytes, ih, h1, h2, Nat.mod_mul]

/-! Bit fields. -/

theorem bitsAt_lt (n lo w : Nat) : bitsAt n lo w < 2 ^ w := Nat.mod_lt _ (Nat.two_pow_pos w)

end Sys2Proof.Machine
end

