-- ==== Sys2Proof/Laws/Regs.lean ====
section
/-! SUPPORT. Register words and fields: reading after writing. -/
namespace Sys2Proof.Machine

/-- A number as the part above a field, the field and the part below it. -/
theorem split_at (n lo w : Nat) : n = (n / 2 ^ (lo + w)) * 2 ^ (lo + w) + bitsAt n lo w * 2 ^ lo + n % 2 ^ lo := by
  unfold bitsAt
  have h1 := Nat.div_add_mod n (2 ^ lo)
  have h2 := Nat.div_add_mod (n / 2 ^ lo) (2 ^ w)
  have h3 : n / 2 ^ lo / 2 ^ w = n / 2 ^ (lo + w) := by rw [Nat.div_div_eq_div_mul, ← Nat.pow_add]
  rw [h3] at h2
  have h4 : 2 ^ (lo + w) = 2 ^ lo * 2 ^ w := Nat.pow_add 2 lo w
  calc n = 2 ^ lo * (n / 2 ^ lo) + n % 2 ^ lo := h1.symm
    _ = 2 ^ lo * (2 ^ w * (n / 2 ^ (lo + w)) + n / 2 ^ lo % 2 ^ w) + n % 2 ^ lo := by rw [h2]
    _ = _ := by rw [h4]; ring

theorem setBits_eq (n lo w v : Nat) :
    setBits n lo w v = (n / 2 ^ (lo + w)) * 2 ^ (lo + w) + (v % 2 ^ w) * 2 ^ lo + n % 2 ^ lo := by
  have h := split_at n lo w
  unfold setBits
  generalize hx : bitsAt n lo w * 2 ^ lo = x at *
  generalize hy : (n / 2 ^ (lo + w)) * 2 ^ (lo + w) = y at *
  generalize hz : n % 2 ^ lo = z at *
  omega

/-- A field reads what was set. -/
theorem bitsAt_setBits_same (n lo w v : Nat) : bitsAt (setBits n lo w v) lo w = v % 2 ^ w := by
  rw [setBits_eq, bitsAt]
  have hl : n % 2 ^ lo < 2 ^ lo := Nat.mod_lt _ (Nat.two_pow_pos lo)
  have h4 : 2 ^ (lo + w) = 2 ^ w * 2 ^ lo := by rw [Nat.pow_add, Nat.mul_comm]
  have : (n / 2 ^ (lo + w)) * 2 ^ (lo + w) + (v % 2 ^ w) * 2 ^ lo + n % 2 ^ lo
      = n % 2 ^ lo + 2 ^ lo * ((n / 2 ^ (lo + w)) * 2 ^ w + v % 2 ^ w) := by rw [h4]; ring
  rw [this, Nat.add_mul_div_left _ _ (Nat.two_pow_pos lo), Nat.div_eq_of_lt hl, Nat.zero_add,
    Nat.mul_comm (n / 2 ^ (lo + w)), Nat.mul_add_mod, Nat.mod_mod]

/-- A field below the one set keeps its value. -/
theorem bitsAt_setBits_below (n lo w v l' w' : Nat) (h : l' + w' ≤ lo) : bitsAt (setBits n lo w v) l' w' = bitsAt n l' w' := by
  obtain ⟨k, rfl⟩ : ∃ k, lo = l' + w' + k := ⟨lo - (l' + w'), by omega⟩
  have key : ∀ a b : Nat, bitsAt (a * 2 ^ (l' + w' + k) + b % 2 ^ (l' + w' + k)) l' w' = bitsAt b l' w' := by
    intro a b
    unfold bitsAt
    have e : 2 ^ (l' + w' + k) = 2 ^ l' * (2 ^ w' * 2 ^ k) := by rw [Nat.pow_add, Nat.pow_add]; ring
    rw [e, Nat.mod_mul, show a * (2 ^ l' * (2 ^ w' * 2 ^ k)) + (b % 2 ^ l' + 2 ^ l' * (b / 2 ^ l' % (2 ^ w' * 2 ^ k)))
      = b % 2 ^ l' + 2 ^ l' * (a * (2 ^ w' * 2 ^ k) + b / 2 ^ l' % (2 ^ w' * 2 ^ k)) by ring,
      Nat.add_mul_div_left _ _ (Nat.two_pow_pos l'), Nat.div_eq_of_lt (Nat.mod_lt _ (Nat.two_pow_pos l')), Nat.zero_add,
      Nat.mod_mul, show a * (2 ^ w' * 2 ^ k) + (b / 2 ^ l' % 2 ^ w' + 2 ^ w' * (b / 2 ^ l' / 2 ^ w' % 2 ^ k))
      = b / 2 ^ l' % 2 ^ w' + 2 ^ w' * (a * 2 ^ k + b / 2 ^ l' / 2 ^ w' % 2 ^ k) by ring, Nat.add_mul_mod_self_left, Nat.mod_mod]
  have e : setBits n (l' + w' + k) w v
      = ((n / 2 ^ (l' + w' + k + w)) * 2 ^ w + v % 2 ^ w) * 2 ^ (l' + w' + k) + n % 2 ^ (l' + w' + k) := by
    rw [setBits_eq, Nat.pow_add 2 (l' + w' + k) w]; ring
  rw [e, key]

/-- A field above the one set keeps its value. -/
theorem bitsAt_setBits_above (n lo w v l' w' : Nat) (h : lo + w ≤ l') : bitsAt (setBits n lo w v) l' w' = bitsAt n l' w' := by
  obtain ⟨k, rfl⟩ : ∃ k, l' = lo + w + k := ⟨l' - (lo + w), by omega⟩
  have key : ∀ a b : Nat, b < 2 ^ (lo + w) → bitsAt (a * 2 ^ (lo + w) + b) (lo + w + k) w' = bitsAt a k w' := by
    intro a b hb
    unfold bitsAt
    rw [Nat.pow_add 2 (lo + w) k, ← Nat.div_div_eq_div_mul, Nat.add_comm, Nat.add_mul_div_right _ _ (Nat.two_pow_pos _),
      Nat.div_eq_of_lt hb, Nat.zero_add]
  have hlt : ∀ x : Nat, x < 2 ^ w → x * 2 ^ lo + n % 2 ^ lo < 2 ^ (lo + w) := by
    intro x hx
    have hl : n % 2 ^ lo < 2 ^ lo := Nat.mod_lt _ (Nat.two_pow_pos lo)
    have h1 : (x + 1) * 2 ^ lo ≤ 2 ^ w * 2 ^ lo := Nat.mul_le_mul_right _ hx
    have h2 : 2 ^ w * 2 ^ lo = 2 ^ (lo + w) := by rw [Nat.pow_add, Nat.mul_comm]
    rw [Nat.add_mul, Nat.one_mul] at h1
    omega
  have e1 := setBits_eq n lo w v
  have e2 := split_at n lo w
  rw [Nat.add_assoc] at e1 e2
  rw [e1, key _ _ (hlt _ (Nat.mod_lt _ (Nat.two_pow_pos w)))]
  conv_rhs => rw [e2]
  rw [key _ _ (hlt _ (bitsAt_lt n lo w))]

theorem setBits_lt (n lo w v : Nat) (hn : n < 2 ^ 32) (h : lo + w ≤ 32) : setBits n lo w v < 2 ^ 32 := by
  obtain ⟨k, hk⟩ : ∃ k, 32 = lo + w + k := ⟨32 - (lo + w), by omega⟩
  rw [hk] at hn ⊢
  rw [setBits_eq]
  have hl : n % 2 ^ lo < 2 ^ lo := Nat.mod_lt _ (Nat.two_pow_pos lo)
  have hv : v % 2 ^ w < 2 ^ w := Nat.mod_lt _ (Nat.two_pow_pos w)
  have h1 : (v % 2 ^ w + 1) * 2 ^ lo ≤ 2 ^ w * 2 ^ lo := Nat.mul_le_mul_right _ hv
  have h2 : 2 ^ w * 2 ^ lo = 2 ^ (lo + w) := by rw [Nat.pow_add, Nat.mul_comm]
  have hq : n / 2 ^ (lo + w) < 2 ^ k := by
    apply Nat.div_lt_of_lt_mul; rw [← Nat.pow_add]; exact hn
  have h3 : (n / 2 ^ (lo + w) + 1) * 2 ^ (lo + w) ≤ 2 ^ k * 2 ^ (lo + w) := Nat.mul_le_mul_right _ hq
  have h4 : 2 ^ k * 2 ^ (lo + w) = 2 ^ (lo + w + k) := by rw [Nat.pow_add 2 (lo + w) k, Nat.mul_comm]
  rw [Nat.add_mul, Nat.one_mul] at h1 h3
  omega

/-! Words. -/

/-- A register word reads what was set. -/
@[simp] theorem reg_setReg_same (s : State) (a : Nat) (v : Word) : (s.setReg a v).reg a = v := lookMap_putMap_same _ _ _ _

/-- Another word keeps its value. -/
theorem reg_setReg_other (s : State) {a b : Nat} (v : Word) (h : b ≠ a) : (s.setReg a v).reg b = s.reg b :=
  lookMap_putMap_other (resetWord b) (resetWord a) s.regs v h

/-! Fields. -/

/-- A field reads what was written, within its width. -/
theorem rd_wr_same (s : State) (f : Fld) (v : Nat) (h : f.lo + f.w ≤ 32) : (s.wr f v).rd f = v % 2 ^ f.w := by
  unfold State.rd State.wr
  rw [reg_setReg_same, BitVec.toNat_ofNat, Nat.mod_eq_of_lt (setBits_lt _ _ _ _ (s.reg f.a).isLt h), bitsAt_setBits_same]

/-- A field of another word keeps its value. -/
theorem rd_wr_other (s : State) {f g : Fld} (v : Nat) (h : g.a ≠ f.a) : (s.wr f v).rd g = s.rd g := by
  unfold State.rd State.wr
  rw [reg_setReg_other s _ h]

/-- Another field of the same word keeps its value. -/
theorem rd_wr_apart (s : State) {f g : Fld} (v : Nat) (hf : f.lo + f.w ≤ 32) (ha : g.a = f.a)
    (h : g.lo + g.w ≤ f.lo ∨ f.lo + f.w ≤ g.lo) : (s.wr f v).rd g = s.rd g := by
  unfold State.rd State.wr
  rw [ha, reg_setReg_same, BitVec.toNat_ofNat, Nat.mod_eq_of_lt (setBits_lt _ _ _ _ (s.reg f.a).isLt hf)]
  rcases h with h | h
  · exact bitsAt_setBits_below _ _ _ _ _ _ h
  · exact bitsAt_setBits_above _ _ _ _ _ _ h

/-- A word other than a field's keeps its value. -/
theorem reg_wr_other (s : State) {f : Fld} {a : Nat} (v : Nat) (h : a ≠ f.a) : (s.wr f v).reg a = s.reg a := by
  unfold State.wr
  exact reg_setReg_other s _ h

theorem on_wr_same (s : State) (f : Fld) (v : Nat) (h : f.lo + f.w ≤ 32) : (s.wr f v).on f = decide (v % 2 ^ f.w = 1) := by
  unfold State.on
  rw [rd_wr_same s f v h]

theorem on_wr_other (s : State) {f g : Fld} (v : Nat) (h : g.a ≠ f.a) : (s.wr f v).on g = s.on g := by
  unfold State.on
  rw [rd_wr_other s v h]

/-- A counter advances by one until it is full (R7). -/
theorem rd_bump (s : State) (f : Fld) (h : f.lo + f.w ≤ 32) : (s.bump f).rd f = min (s.rd f + 1) (2 ^ f.w - 1) := by
  unfold State.bump State.bumpBy
  rw [rd_wr_same s f _ h]
  have : 0 < 2 ^ f.w := Nat.two_pow_pos _
  exact Nat.mod_eq_of_lt (by omega)

/-! The register map keeps its canonical form. -/

/-- The canonical form of the register map. -/
def regsWf (s : State) : Bool := wfMap resetWord s.regs

theorem regsWf_setReg {s : State} (a : Nat) (v : Word) (h : regsWf s = true) : regsWf (s.setReg a v) = true :=
  wfMap_putMap (d := resetWord) a v h

theorem regsWf_wr {s : State} (f : Fld) (v : Nat) (h : regsWf s = true) : regsWf (s.wr f v) = true := regsWf_setReg _ _ h

theorem regsWf_bump {s : State} (f : Fld) (h : regsWf s = true) : regsWf (s.bump f) = true := regsWf_wr _ _ h

end Sys2Proof.Machine
end

