-- ==== Sys2Proof/Laws/State.lean ====
section
/-! SUPPORT. One lemma per field and update of the state, true by rfl, so that no proof unfolds a record update. -/
namespace Sys2Proof.Machine

/-! `setReg` leaves every field but `regs`. -/
@[simp] theorem State.setReg_pending (s : State) (a : Nat) (v : Word) : (s.setReg a v).pending = s.pending := rfl
@[simp] theorem State.setReg_freeCtr (s : State) (a : Nat) (v : Word) : (s.setReg a v).freeCtr = s.freeCtr := rfl
@[simp] theorem State.setReg_plt (s : State) (a : Nat) (v : Word) : (s.setReg a v).plt = s.plt := rfl
@[simp] theorem State.setReg_cellar (s : State) (a : Nat) (v : Word) : (s.setReg a v).cellar = s.cellar := rfl
@[simp] theorem State.setReg_shelf (s : State) (a : Nat) (v : Word) : (s.setReg a v).shelf = s.shelf := rfl
@[simp] theorem State.setReg_hostA (s : State) (a : Nat) (v : Word) : (s.setReg a v).hostA = s.hostA := rfl
@[simp] theorem State.setReg_hostB (s : State) (a : Nat) (v : Word) : (s.setReg a v).hostB = s.hostB := rfl
@[simp] theorem State.setReg_tiles (s : State) (a : Nat) (v : Word) : (s.setReg a v).tiles = s.tiles := rfl
@[simp] theorem State.setReg_crates (s : State) (a : Nat) (v : Word) : (s.setReg a v).crates = s.crates := rfl
@[simp] theorem State.setReg_incs (s : State) (a : Nat) (v : Word) : (s.setReg a v).incs = s.incs := rfl
@[simp] theorem State.setReg_gathered (s : State) (a : Nat) (v : Word) : (s.setReg a v).gathered = s.gathered := rfl
@[simp] theorem State.setReg_seqCtr (s : State) (a : Nat) (v : Word) : (s.setReg a v).seqCtr = s.seqCtr := rfl
@[simp] theorem State.setReg_strong (s : State) (a : Nat) (v : Word) : (s.setReg a v).strong = s.strong := rfl
@[simp] theorem State.setReg_journal (s : State) (a : Nat) (v : Word) : (s.setReg a v).journal = s.journal := rfl
@[simp] theorem State.setReg_aplic (s : State) (a : Nat) (v : Word) : (s.setReg a v).aplic = s.aplic := rfl
@[simp] theorem State.setReg_hports (s : State) (a : Nat) (v : Word) : (s.setReg a v).hports = s.hports := rfl
@[simp] theorem State.setReg_msixOut (s : State) (a : Nat) (v : Word) : (s.setReg a v).msixOut = s.msixOut := rfl
@[simp] theorem State.setReg_blocked (s : State) (a : Nat) (v : Word) : (s.setReg a v).blocked = s.blocked := rfl
@[simp] theorem State.setReg_bar0Blocked (s : State) (a : Nat) (v : Word) : (s.setReg a v).bar0Blocked = s.bar0Blocked := rfl
@[simp] theorem State.setReg_fastStopped (s : State) (a : Nat) (v : Word) : (s.setReg a v).fastStopped = s.fastStopped := rfl
@[simp] theorem State.setReg_fabTx (s : State) (a : Nat) (v : Word) : (s.setReg a v).fabTx = s.fabTx := rfl
@[simp] theorem State.setReg_fabWait (s : State) (a : Nat) (v : Word) : (s.setReg a v).fabWait = s.fabWait := rfl
@[simp] theorem State.setReg_fabRsv (s : State) (a : Nat) (v : Word) : (s.setReg a v).fabRsv = s.fabRsv := rfl
@[simp] theorem State.setReg_syncHeld (s : State) (a : Nat) (v : Word) : (s.setReg a v).syncHeld = s.syncHeld := rfl
@[simp] theorem State.setReg_fabReqs (s : State) (a : Nat) (v : Word) : (s.setReg a v).fabReqs = s.fabReqs := rfl
@[simp] theorem State.setReg_carryRecs (s : State) (a : Nat) (v : Word) : (s.setReg a v).carryRecs = s.carryRecs := rfl
@[simp] theorem State.setReg_place (s : State) (a : Nat) (v : Word) : (s.setReg a v).place = s.place := rfl
@[simp] theorem State.setReg_answer (s : State) (a : Nat) (v : Word) : (s.setReg a v).answer = s.answer := rfl
@[simp] theorem State.setReg_sds (s : State) (a : Nat) (v : Word) : (s.setReg a v).sds = s.sds := rfl
@[simp] theorem State.setReg_sdNum (s : State) (a : Nat) (v : Word) : (s.setReg a v).sdNum = s.sdNum := rfl
@[simp] theorem State.setReg_sdLast (s : State) (a : Nat) (v : Word) : (s.setReg a v).sdLast = s.sdLast := rfl
@[simp] theorem State.setReg_sdRecent (s : State) (a : Nat) (v : Word) : (s.setReg a v).sdRecent = s.sdRecent := rfl
@[simp] theorem State.setReg_carve (s : State) (a : Nat) (v : Word) : (s.setReg a v).carve = s.carve := rfl
@[simp] theorem State.setReg_hampers (s : State) (a : Nat) (v : Word) : (s.setReg a v).hampers = s.hampers := rfl
@[simp] theorem State.setReg_burstPoison (s : State) (a : Nat) (v : Word) : (s.setReg a v).burstPoison = s.burstPoison := rfl
@[simp] theorem State.setReg_symErr (s : State) (a : Nat) (v : Word) : (s.setReg a v).symErr = s.symErr := rfl
@[simp] theorem State.setReg_rows (s : State) (a : Nat) (v : Word) : (s.setReg a v).rows = s.rows := rfl
@[simp] theorem State.setReg_hardDone (s : State) (a : Nat) (v : Word) : (s.setReg a v).hardDone = s.hardDone := rfl
@[simp] theorem State.setReg_retired (s : State) (a : Nat) (v : Word) : (s.setReg a v).retired = s.retired := rfl
@[simp] theorem State.setReg_bankUsed (s : State) (a : Nat) (v : Word) : (s.setReg a v).bankUsed = s.bankUsed := rfl
@[simp] theorem State.setReg_repairing (s : State) (a : Nat) (v : Word) : (s.setReg a v).repairing = s.repairing := rfl
@[simp] theorem State.setReg_scrubNext (s : State) (a : Nat) (v : Word) : (s.setReg a v).scrubNext = s.scrubNext := rfl
@[simp] theorem State.setReg_tgStop (s : State) (a : Nat) (v : Word) : (s.setReg a v).tgStop = s.tgStop := rfl
@[simp] theorem State.setReg_l2 (s : State) (a : Nat) (v : Word) : (s.setReg a v).l2 = s.l2 := rfl
@[simp] theorem State.setReg_dirs (s : State) (a : Nat) (v : Word) : (s.setReg a v).dirs = s.dirs := rfl
@[simp] theorem State.setReg_creqs (s : State) (a : Nat) (v : Word) : (s.setReg a v).creqs = s.creqs := rfl
@[simp] theorem State.setReg_agedQ (s : State) (a : Nat) (v : Word) : (s.setReg a v).agedQ = s.agedQ := rfl
@[simp] theorem State.setReg_evicts (s : State) (a : Nat) (v : Word) : (s.setReg a v).evicts = s.evicts := rfl
@[simp] theorem State.setReg_txns (s : State) (a : Nat) (v : Word) : (s.setReg a v).txns = s.txns := rfl
@[simp] theorem State.setReg_msgs (s : State) (a : Nat) (v : Word) : (s.setReg a v).msgs = s.msgs := rfl
@[simp] theorem State.setReg_homeQ (s : State) (a : Nat) (v : Word) : (s.setReg a v).homeQ = s.homeQ := rfl
@[simp] theorem State.setReg_tallyQ (s : State) (a : Nat) (v : Word) : (s.setReg a v).tallyQ = s.tallyQ := rfl
@[simp] theorem State.setReg_hcores (s : State) (a : Nat) (v : Word) : (s.setReg a v).hcores = s.hcores := rfl
@[simp] theorem State.setReg_dmActive (s : State) (a : Nat) (v : Word) : (s.setReg a v).dmActive = s.dmActive := rfl
@[simp] theorem State.setReg_seams (s : State) (a : Nat) (v : Word) : (s.setReg a v).seams = s.seams := rfl
@[simp] theorem State.setReg_fports (s : State) (a : Nat) (v : Word) : (s.setReg a v).fports = s.fports := rfl
@[simp] theorem State.setReg_inReqs (s : State) (a : Nat) (v : Word) : (s.setReg a v).inReqs = s.inReqs := rfl
@[simp] theorem State.setReg_colls (s : State) (a : Nat) (v : Word) : (s.setReg a v).colls = s.colls := rfl
@[simp] theorem State.setReg_collEarly (s : State) (a : Nat) (v : Word) : (s.setReg a v).collEarly = s.collEarly := rfl
@[simp] theorem State.setReg_rings (s : State) (a : Nat) (v : Word) : (s.setReg a v).rings = s.rings := rfl
@[simp] theorem State.setReg_cmds (s : State) (a : Nat) (v : Word) : (s.setReg a v).cmds = s.cmds := rfl
@[simp] theorem State.setReg_ringTurn (s : State) (a : Nat) (v : Word) : (s.setReg a v).ringTurn = s.ringTurn := rfl
@[simp] theorem State.setReg_drvMsgs (s : State) (a : Nat) (v : Word) : (s.setReg a v).drvMsgs = s.drvMsgs := rfl
@[simp] theorem State.setReg_heartbeat (s : State) (a : Nat) (v : Word) : (s.setReg a v).heartbeat = s.heartbeat := rfl
@[simp] theorem State.setReg_plan (s : State) (a : Nat) (v : Word) : (s.setReg a v).plan = s.plan := rfl
@[simp] theorem State.setReg_planRun (s : State) (a : Nat) (v : Word) : (s.setReg a v).planRun = s.planRun := rfl
@[simp] theorem State.setReg_gov (s : State) (a : Nat) (v : Word) : (s.setReg a v).gov = s.gov := rfl
@[simp] theorem State.setReg_domQ (s : State) (a : Nat) (v : Word) : (s.setReg a v).domQ = s.domQ := rfl
@[simp] theorem State.setReg_pdBroken (s : State) (a : Nat) (v : Word) : (s.setReg a v).pdBroken = s.pdBroken := rfl
@[simp] theorem State.setReg_t0 (s : State) (a : Nat) (v : Word) : (s.setReg a v).t0 = s.t0 := rfl
@[simp] theorem State.setReg_list (s : State) (a : Nat) (v : Word) : (s.setReg a v).list = s.list := rfl
@[simp] theorem State.setReg_flash (s : State) (a : Nat) (v : Word) : (s.setReg a v).flash = s.flash := rfl
@[simp] theorem State.setReg_chips (s : State) (a : Nat) (v : Word) : (s.setReg a v).chips = s.chips := rfl
@[simp] theorem State.setReg_upd (s : State) (a : Nat) (v : Word) : (s.setReg a v).upd = s.upd := rfl
@[simp] theorem State.setReg_job (s : State) (a : Nat) (v : Word) : (s.setReg a v).job = s.job := rfl
@[simp] theorem State.setReg_admitPorts (s : State) (a : Nat) (v : Word) : (s.setReg a v).admitPorts = s.admitPorts := rfl
@[simp] theorem State.setReg_tear (s : State) (a : Nat) (v : Word) : (s.setReg a v).tear = s.tear := rfl
@[simp] theorem State.setReg_slices (s : State) (a : Nat) (v : Word) : (s.setReg a v).slices = s.slices := rfl
@[simp] theorem State.setReg_residues (s : State) (a : Nat) (v : Word) : (s.setReg a v).residues = s.residues := rfl
@[simp] theorem State.setReg_sliceFirst (s : State) (a : Nat) (v : Word) : (s.setReg a v).sliceFirst = s.sliceFirst := rfl
@[simp] theorem State.setReg_pins (s : State) (a : Nat) (v : Word) : (s.setReg a v).pins = s.pins := rfl
@[simp] theorem State.setReg_held (s : State) (a : Nat) (v : Word) : (s.setReg a v).held = s.held := rfl
@[simp] theorem State.setReg_doeCount (s : State) (a : Nat) (v : Word) : (s.setReg a v).doeCount = s.doeCount := rfl

/-! `wr` leaves every field but `regs`. -/
@[simp] theorem State.wr_pending (s : State) (f : Fld) (v : Nat) : (s.wr f v).pending = s.pending := rfl
@[simp] theorem State.wr_freeCtr (s : State) (f : Fld) (v : Nat) : (s.wr f v).freeCtr = s.freeCtr := rfl
@[simp] theorem State.wr_plt (s : State) (f : Fld) (v : Nat) : (s.wr f v).plt = s.plt := rfl
@[simp] theorem State.wr_cellar (s : State) (f : Fld) (v : Nat) : (s.wr f v).cellar = s.cellar := rfl
@[simp] theorem State.wr_shelf (s : State) (f : Fld) (v : Nat) : (s.wr f v).shelf = s.shelf := rfl
@[simp] theorem State.wr_hostA (s : State) (f : Fld) (v : Nat) : (s.wr f v).hostA = s.hostA := rfl
@[simp] theorem State.wr_hostB (s : State) (f : Fld) (v : Nat) : (s.wr f v).hostB = s.hostB := rfl
@[simp] theorem State.wr_tiles (s : State) (f : Fld) (v : Nat) : (s.wr f v).tiles = s.tiles := rfl
@[simp] theorem State.wr_crates (s : State) (f : Fld) (v : Nat) : (s.wr f v).crates = s.crates := rfl
@[simp] theorem State.wr_incs (s : State) (f : Fld) (v : Nat) : (s.wr f v).incs = s.incs := rfl
@[simp] theorem State.wr_gathered (s : State) (f : Fld) (v : Nat) : (s.wr f v).gathered = s.gathered := rfl
@[simp] theorem State.wr_seqCtr (s : State) (f : Fld) (v : Nat) : (s.wr f v).seqCtr = s.seqCtr := rfl
@[simp] theorem State.wr_strong (s : State) (f : Fld) (v : Nat) : (s.wr f v).strong = s.strong := rfl
@[simp] theorem State.wr_journal (s : State) (f : Fld) (v : Nat) : (s.wr f v).journal = s.journal := rfl
@[simp] theorem State.wr_aplic (s : State) (f : Fld) (v : Nat) : (s.wr f v).aplic = s.aplic := rfl
@[simp] theorem State.wr_hports (s : State) (f : Fld) (v : Nat) : (s.wr f v).hports = s.hports := rfl
@[simp] theorem State.wr_msixOut (s : State) (f : Fld) (v : Nat) : (s.wr f v).msixOut = s.msixOut := rfl
@[simp] theorem State.wr_blocked (s : State) (f : Fld) (v : Nat) : (s.wr f v).blocked = s.blocked := rfl
@[simp] theorem State.wr_bar0Blocked (s : State) (f : Fld) (v : Nat) : (s.wr f v).bar0Blocked = s.bar0Blocked := rfl
@[simp] theorem State.wr_fastStopped (s : State) (f : Fld) (v : Nat) : (s.wr f v).fastStopped = s.fastStopped := rfl
@[simp] theorem State.wr_fabTx (s : State) (f : Fld) (v : Nat) : (s.wr f v).fabTx = s.fabTx := rfl
@[simp] theorem State.wr_fabWait (s : State) (f : Fld) (v : Nat) : (s.wr f v).fabWait = s.fabWait := rfl
@[simp] theorem State.wr_fabRsv (s : State) (f : Fld) (v : Nat) : (s.wr f v).fabRsv = s.fabRsv := rfl
@[simp] theorem State.wr_syncHeld (s : State) (f : Fld) (v : Nat) : (s.wr f v).syncHeld = s.syncHeld := rfl
@[simp] theorem State.wr_fabReqs (s : State) (f : Fld) (v : Nat) : (s.wr f v).fabReqs = s.fabReqs := rfl
@[simp] theorem State.wr_carryRecs (s : State) (f : Fld) (v : Nat) : (s.wr f v).carryRecs = s.carryRecs := rfl
@[simp] theorem State.wr_place (s : State) (f : Fld) (v : Nat) : (s.wr f v).place = s.place := rfl
@[simp] theorem State.wr_answer (s : State) (f : Fld) (v : Nat) : (s.wr f v).answer = s.answer := rfl
@[simp] theorem State.wr_sds (s : State) (f : Fld) (v : Nat) : (s.wr f v).sds = s.sds := rfl
@[simp] theorem State.wr_sdNum (s : State) (f : Fld) (v : Nat) : (s.wr f v).sdNum = s.sdNum := rfl
@[simp] theorem State.wr_sdLast (s : State) (f : Fld) (v : Nat) : (s.wr f v).sdLast = s.sdLast := rfl
@[simp] theorem State.wr_sdRecent (s : State) (f : Fld) (v : Nat) : (s.wr f v).sdRecent = s.sdRecent := rfl
@[simp] theorem State.wr_carve (s : State) (f : Fld) (v : Nat) : (s.wr f v).carve = s.carve := rfl
@[simp] theorem State.wr_hampers (s : State) (f : Fld) (v : Nat) : (s.wr f v).hampers = s.hampers := rfl
@[simp] theorem State.wr_burstPoison (s : State) (f : Fld) (v : Nat) : (s.wr f v).burstPoison = s.burstPoison := rfl
@[simp] theorem State.wr_symErr (s : State) (f : Fld) (v : Nat) : (s.wr f v).symErr = s.symErr := rfl
@[simp] theorem State.wr_rows (s : State) (f : Fld) (v : Nat) : (s.wr f v).rows = s.rows := rfl
@[simp] theorem State.wr_hardDone (s : State) (f : Fld) (v : Nat) : (s.wr f v).hardDone = s.hardDone := rfl
@[simp] theorem State.wr_retired (s : State) (f : Fld) (v : Nat) : (s.wr f v).retired = s.retired := rfl
@[simp] theorem State.wr_bankUsed (s : State) (f : Fld) (v : Nat) : (s.wr f v).bankUsed = s.bankUsed := rfl
@[simp] theorem State.wr_repairing (s : State) (f : Fld) (v : Nat) : (s.wr f v).repairing = s.repairing := rfl
@[simp] theorem State.wr_scrubNext (s : State) (f : Fld) (v : Nat) : (s.wr f v).scrubNext = s.scrubNext := rfl
@[simp] theorem State.wr_tgStop (s : State) (f : Fld) (v : Nat) : (s.wr f v).tgStop = s.tgStop := rfl
@[simp] theorem State.wr_l2 (s : State) (f : Fld) (v : Nat) : (s.wr f v).l2 = s.l2 := rfl
@[simp] theorem State.wr_dirs (s : State) (f : Fld) (v : Nat) : (s.wr f v).dirs = s.dirs := rfl
@[simp] theorem State.wr_creqs (s : State) (f : Fld) (v : Nat) : (s.wr f v).creqs = s.creqs := rfl
@[simp] theorem State.wr_agedQ (s : State) (f : Fld) (v : Nat) : (s.wr f v).agedQ = s.agedQ := rfl
@[simp] theorem State.wr_evicts (s : State) (f : Fld) (v : Nat) : (s.wr f v).evicts = s.evicts := rfl
@[simp] theorem State.wr_txns (s : State) (f : Fld) (v : Nat) : (s.wr f v).txns = s.txns := rfl
@[simp] theorem State.wr_msgs (s : State) (f : Fld) (v : Nat) : (s.wr f v).msgs = s.msgs := rfl
@[simp] theorem State.wr_homeQ (s : State) (f : Fld) (v : Nat) : (s.wr f v).homeQ = s.homeQ := rfl
@[simp] theorem State.wr_tallyQ (s : State) (f : Fld) (v : Nat) : (s.wr f v).tallyQ = s.tallyQ := rfl
@[simp] theorem State.wr_hcores (s : State) (f : Fld) (v : Nat) : (s.wr f v).hcores = s.hcores := rfl
@[simp] theorem State.wr_dmActive (s : State) (f : Fld) (v : Nat) : (s.wr f v).dmActive = s.dmActive := rfl
@[simp] theorem State.wr_seams (s : State) (f : Fld) (v : Nat) : (s.wr f v).seams = s.seams := rfl
@[simp] theorem State.wr_fports (s : State) (f : Fld) (v : Nat) : (s.wr f v).fports = s.fports := rfl
@[simp] theorem State.wr_inReqs (s : State) (f : Fld) (v : Nat) : (s.wr f v).inReqs = s.inReqs := rfl
@[simp] theorem State.wr_colls (s : State) (f : Fld) (v : Nat) : (s.wr f v).colls = s.colls := rfl
@[simp] theorem State.wr_collEarly (s : State) (f : Fld) (v : Nat) : (s.wr f v).collEarly = s.collEarly := rfl
@[simp] theorem State.wr_rings (s : State) (f : Fld) (v : Nat) : (s.wr f v).rings = s.rings := rfl
@[simp] theorem State.wr_cmds (s : State) (f : Fld) (v : Nat) : (s.wr f v).cmds = s.cmds := rfl
@[simp] theorem State.wr_ringTurn (s : State) (f : Fld) (v : Nat) : (s.wr f v).ringTurn = s.ringTurn := rfl
@[simp] theorem State.wr_drvMsgs (s : State) (f : Fld) (v : Nat) : (s.wr f v).drvMsgs = s.drvMsgs := rfl
@[simp] theorem State.wr_heartbeat (s : State) (f : Fld) (v : Nat) : (s.wr f v).heartbeat = s.heartbeat := rfl
@[simp] theorem State.wr_plan (s : State) (f : Fld) (v : Nat) : (s.wr f v).plan = s.plan := rfl
@[simp] theorem State.wr_planRun (s : State) (f : Fld) (v : Nat) : (s.wr f v).planRun = s.planRun := rfl
@[simp] theorem State.wr_gov (s : State) (f : Fld) (v : Nat) : (s.wr f v).gov = s.gov := rfl
@[simp] theorem State.wr_domQ (s : State) (f : Fld) (v : Nat) : (s.wr f v).domQ = s.domQ := rfl
@[simp] theorem State.wr_pdBroken (s : State) (f : Fld) (v : Nat) : (s.wr f v).pdBroken = s.pdBroken := rfl
@[simp] theorem State.wr_t0 (s : State) (f : Fld) (v : Nat) : (s.wr f v).t0 = s.t0 := rfl
@[simp] theorem State.wr_list (s : State) (f : Fld) (v : Nat) : (s.wr f v).list = s.list := rfl
@[simp] theorem State.wr_flash (s : State) (f : Fld) (v : Nat) : (s.wr f v).flash = s.flash := rfl
@[simp] theorem State.wr_chips (s : State) (f : Fld) (v : Nat) : (s.wr f v).chips = s.chips := rfl
@[simp] theorem State.wr_upd (s : State) (f : Fld) (v : Nat) : (s.wr f v).upd = s.upd := rfl
@[simp] theorem State.wr_job (s : State) (f : Fld) (v : Nat) : (s.wr f v).job = s.job := rfl
@[simp] theorem State.wr_admitPorts (s : State) (f : Fld) (v : Nat) : (s.wr f v).admitPorts = s.admitPorts := rfl
@[simp] theorem State.wr_tear (s : State) (f : Fld) (v : Nat) : (s.wr f v).tear = s.tear := rfl
@[simp] theorem State.wr_slices (s : State) (f : Fld) (v : Nat) : (s.wr f v).slices = s.slices := rfl
@[simp] theorem State.wr_residues (s : State) (f : Fld) (v : Nat) : (s.wr f v).residues = s.residues := rfl
@[simp] theorem State.wr_sliceFirst (s : State) (f : Fld) (v : Nat) : (s.wr f v).sliceFirst = s.sliceFirst := rfl
@[simp] theorem State.wr_pins (s : State) (f : Fld) (v : Nat) : (s.wr f v).pins = s.pins := rfl
@[simp] theorem State.wr_held (s : State) (f : Fld) (v : Nat) : (s.wr f v).held = s.held := rfl
@[simp] theorem State.wr_doeCount (s : State) (f : Fld) (v : Nat) : (s.wr f v).doeCount = s.doeCount := rfl

/-! `setTile` leaves every field but `tiles`. -/
@[simp] theorem State.setTile_pending (s : State) (t : Nat) (x : Tile) : (s.setTile t x).pending = s.pending := rfl
@[simp] theorem State.setTile_freeCtr (s : State) (t : Nat) (x : Tile) : (s.setTile t x).freeCtr = s.freeCtr := rfl
@[simp] theorem State.setTile_regs (s : State) (t : Nat) (x : Tile) : (s.setTile t x).regs = s.regs := rfl
@[simp] theorem State.setTile_plt (s : State) (t : Nat) (x : Tile) : (s.setTile t x).plt = s.plt := rfl
@[simp] theorem State.setTile_cellar (s : State) (t : Nat) (x : Tile) : (s.setTile t x).cellar = s.cellar := rfl
@[simp] theorem State.setTile_shelf (s : State) (t : Nat) (x : Tile) : (s.setTile t x).shelf = s.shelf := rfl
@[simp] theorem State.setTile_hostA (s : State) (t : Nat) (x : Tile) : (s.setTile t x).hostA = s.hostA := rfl
@[simp] theorem State.setTile_hostB (s : State) (t : Nat) (x : Tile) : (s.setTile t x).hostB = s.hostB := rfl
@[simp] theorem State.setTile_crates (s : State) (t : Nat) (x : Tile) : (s.setTile t x).crates = s.crates := rfl
@[simp] theorem State.setTile_incs (s : State) (t : Nat) (x : Tile) : (s.setTile t x).incs = s.incs := rfl
@[simp] theorem State.setTile_gathered (s : State) (t : Nat) (x : Tile) : (s.setTile t x).gathered = s.gathered := rfl
@[simp] theorem State.setTile_seqCtr (s : State) (t : Nat) (x : Tile) : (s.setTile t x).seqCtr = s.seqCtr := rfl
@[simp] theorem State.setTile_strong (s : State) (t : Nat) (x : Tile) : (s.setTile t x).strong = s.strong := rfl
@[simp] theorem State.setTile_journal (s : State) (t : Nat) (x : Tile) : (s.setTile t x).journal = s.journal := rfl
@[simp] theorem State.setTile_aplic (s : State) (t : Nat) (x : Tile) : (s.setTile t x).aplic = s.aplic := rfl
@[simp] theorem State.setTile_hports (s : State) (t : Nat) (x : Tile) : (s.setTile t x).hports = s.hports := rfl
@[simp] theorem State.setTile_msixOut (s : State) (t : Nat) (x : Tile) : (s.setTile t x).msixOut = s.msixOut := rfl
@[simp] theorem State.setTile_blocked (s : State) (t : Nat) (x : Tile) : (s.setTile t x).blocked = s.blocked := rfl
@[simp] theorem State.setTile_bar0Blocked (s : State) (t : Nat) (x : Tile) : (s.setTile t x).bar0Blocked = s.bar0Blocked := rfl
@[simp] theorem State.setTile_fastStopped (s : State) (t : Nat) (x : Tile) : (s.setTile t x).fastStopped = s.fastStopped := rfl
@[simp] theorem State.setTile_fabTx (s : State) (t : Nat) (x : Tile) : (s.setTile t x).fabTx = s.fabTx := rfl
@[simp] theorem State.setTile_fabWait (s : State) (t : Nat) (x : Tile) : (s.setTile t x).fabWait = s.fabWait := rfl
@[simp] theorem State.setTile_fabRsv (s : State) (t : Nat) (x : Tile) : (s.setTile t x).fabRsv = s.fabRsv := rfl
@[simp] theorem State.setTile_syncHeld (s : State) (t : Nat) (x : Tile) : (s.setTile t x).syncHeld = s.syncHeld := rfl
@[simp] theorem State.setTile_fabReqs (s : State) (t : Nat) (x : Tile) : (s.setTile t x).fabReqs = s.fabReqs := rfl
@[simp] theorem State.setTile_carryRecs (s : State) (t : Nat) (x : Tile) : (s.setTile t x).carryRecs = s.carryRecs := rfl
@[simp] theorem State.setTile_place (s : State) (t : Nat) (x : Tile) : (s.setTile t x).place = s.place := rfl
@[simp] theorem State.setTile_answer (s : State) (t : Nat) (x : Tile) : (s.setTile t x).answer = s.answer := rfl
@[simp] theorem State.setTile_sds (s : State) (t : Nat) (x : Tile) : (s.setTile t x).sds = s.sds := rfl
@[simp] theorem State.setTile_sdNum (s : State) (t : Nat) (x : Tile) : (s.setTile t x).sdNum = s.sdNum := rfl
@[simp] theorem State.setTile_sdLast (s : State) (t : Nat) (x : Tile) : (s.setTile t x).sdLast = s.sdLast := rfl
@[simp] theorem State.setTile_sdRecent (s : State) (t : Nat) (x : Tile) : (s.setTile t x).sdRecent = s.sdRecent := rfl
@[simp] theorem State.setTile_carve (s : State) (t : Nat) (x : Tile) : (s.setTile t x).carve = s.carve := rfl
@[simp] theorem State.setTile_hampers (s : State) (t : Nat) (x : Tile) : (s.setTile t x).hampers = s.hampers := rfl
@[simp] theorem State.setTile_burstPoison (s : State) (t : Nat) (x : Tile) : (s.setTile t x).burstPoison = s.burstPoison := rfl
@[simp] theorem State.setTile_symErr (s : State) (t : Nat) (x : Tile) : (s.setTile t x).symErr = s.symErr := rfl
@[simp] theorem State.setTile_rows (s : State) (t : Nat) (x : Tile) : (s.setTile t x).rows = s.rows := rfl
@[simp] theorem State.setTile_hardDone (s : State) (t : Nat) (x : Tile) : (s.setTile t x).hardDone = s.hardDone := rfl
@[simp] theorem State.setTile_retired (s : State) (t : Nat) (x : Tile) : (s.setTile t x).retired = s.retired := rfl
@[simp] theorem State.setTile_bankUsed (s : State) (t : Nat) (x : Tile) : (s.setTile t x).bankUsed = s.bankUsed := rfl
@[simp] theorem State.setTile_repairing (s : State) (t : Nat) (x : Tile) : (s.setTile t x).repairing = s.repairing := rfl
@[simp] theorem State.setTile_scrubNext (s : State) (t : Nat) (x : Tile) : (s.setTile t x).scrubNext = s.scrubNext := rfl
@[simp] theorem State.setTile_tgStop (s : State) (t : Nat) (x : Tile) : (s.setTile t x).tgStop = s.tgStop := rfl
@[simp] theorem State.setTile_l2 (s : State) (t : Nat) (x : Tile) : (s.setTile t x).l2 = s.l2 := rfl
@[simp] theorem State.setTile_dirs (s : State) (t : Nat) (x : Tile) : (s.setTile t x).dirs = s.dirs := rfl
@[simp] theorem State.setTile_creqs (s : State) (t : Nat) (x : Tile) : (s.setTile t x).creqs = s.creqs := rfl
@[simp] theorem State.setTile_agedQ (s : State) (t : Nat) (x : Tile) : (s.setTile t x).agedQ = s.agedQ := rfl
@[simp] theorem State.setTile_evicts (s : State) (t : Nat) (x : Tile) : (s.setTile t x).evicts = s.evicts := rfl
@[simp] theorem State.setTile_txns (s : State) (t : Nat) (x : Tile) : (s.setTile t x).txns = s.txns := rfl
@[simp] theorem State.setTile_msgs (s : State) (t : Nat) (x : Tile) : (s.setTile t x).msgs = s.msgs := rfl
@[simp] theorem State.setTile_homeQ (s : State) (t : Nat) (x : Tile) : (s.setTile t x).homeQ = s.homeQ := rfl
@[simp] theorem State.setTile_tallyQ (s : State) (t : Nat) (x : Tile) : (s.setTile t x).tallyQ = s.tallyQ := rfl
@[simp] theorem State.setTile_hcores (s : State) (t : Nat) (x : Tile) : (s.setTile t x).hcores = s.hcores := rfl
@[simp] theorem State.setTile_dmActive (s : State) (t : Nat) (x : Tile) : (s.setTile t x).dmActive = s.dmActive := rfl
@[simp] theorem State.setTile_seams (s : State) (t : Nat) (x : Tile) : (s.setTile t x).seams = s.seams := rfl
@[simp] theorem State.setTile_fports (s : State) (t : Nat) (x : Tile) : (s.setTile t x).fports = s.fports := rfl
@[simp] theorem State.setTile_inReqs (s : State) (t : Nat) (x : Tile) : (s.setTile t x).inReqs = s.inReqs := rfl
@[simp] theorem State.setTile_colls (s : State) (t : Nat) (x : Tile) : (s.setTile t x).colls = s.colls := rfl
@[simp] theorem State.setTile_collEarly (s : State) (t : Nat) (x : Tile) : (s.setTile t x).collEarly = s.collEarly := rfl
@[simp] theorem State.setTile_rings (s : State) (t : Nat) (x : Tile) : (s.setTile t x).rings = s.rings := rfl
@[simp] theorem State.setTile_cmds (s : State) (t : Nat) (x : Tile) : (s.setTile t x).cmds = s.cmds := rfl
@[simp] theorem State.setTile_ringTurn (s : State) (t : Nat) (x : Tile) : (s.setTile t x).ringTurn = s.ringTurn := rfl
@[simp] theorem State.setTile_drvMsgs (s : State) (t : Nat) (x : Tile) : (s.setTile t x).drvMsgs = s.drvMsgs := rfl
@[simp] theorem State.setTile_heartbeat (s : State) (t : Nat) (x : Tile) : (s.setTile t x).heartbeat = s.heartbeat := rfl
@[simp] theorem State.setTile_plan (s : State) (t : Nat) (x : Tile) : (s.setTile t x).plan = s.plan := rfl
@[simp] theorem State.setTile_planRun (s : State) (t : Nat) (x : Tile) : (s.setTile t x).planRun = s.planRun := rfl
@[simp] theorem State.setTile_gov (s : State) (t : Nat) (x : Tile) : (s.setTile t x).gov = s.gov := rfl
@[simp] theorem State.setTile_domQ (s : State) (t : Nat) (x : Tile) : (s.setTile t x).domQ = s.domQ := rfl
@[simp] theorem State.setTile_pdBroken (s : State) (t : Nat) (x : Tile) : (s.setTile t x).pdBroken = s.pdBroken := rfl
@[simp] theorem State.setTile_t0 (s : State) (t : Nat) (x : Tile) : (s.setTile t x).t0 = s.t0 := rfl
@[simp] theorem State.setTile_list (s : State) (t : Nat) (x : Tile) : (s.setTile t x).list = s.list := rfl
@[simp] theorem State.setTile_flash (s : State) (t : Nat) (x : Tile) : (s.setTile t x).flash = s.flash := rfl
@[simp] theorem State.setTile_chips (s : State) (t : Nat) (x : Tile) : (s.setTile t x).chips = s.chips := rfl
@[simp] theorem State.setTile_upd (s : State) (t : Nat) (x : Tile) : (s.setTile t x).upd = s.upd := rfl
@[simp] theorem State.setTile_job (s : State) (t : Nat) (x : Tile) : (s.setTile t x).job = s.job := rfl
@[simp] theorem State.setTile_admitPorts (s : State) (t : Nat) (x : Tile) : (s.setTile t x).admitPorts = s.admitPorts := rfl
@[simp] theorem State.setTile_tear (s : State) (t : Nat) (x : Tile) : (s.setTile t x).tear = s.tear := rfl
@[simp] theorem State.setTile_slices (s : State) (t : Nat) (x : Tile) : (s.setTile t x).slices = s.slices := rfl
@[simp] theorem State.setTile_residues (s : State) (t : Nat) (x : Tile) : (s.setTile t x).residues = s.residues := rfl
@[simp] theorem State.setTile_sliceFirst (s : State) (t : Nat) (x : Tile) : (s.setTile t x).sliceFirst = s.sliceFirst := rfl
@[simp] theorem State.setTile_pins (s : State) (t : Nat) (x : Tile) : (s.setTile t x).pins = s.pins := rfl
@[simp] theorem State.setTile_held (s : State) (t : Nat) (x : Tile) : (s.setTile t x).held = s.held := rfl
@[simp] theorem State.setTile_doeCount (s : State) (t : Nat) (x : Tile) : (s.setTile t x).doeCount = s.doeCount := rfl

/-! `setCrate` leaves every field but `crates`. -/
@[simp] theorem State.setCrate_pending (s : State) (c : Nat) (x : Crate) : (s.setCrate c x).pending = s.pending := rfl
@[simp] theorem State.setCrate_freeCtr (s : State) (c : Nat) (x : Crate) : (s.setCrate c x).freeCtr = s.freeCtr := rfl
@[simp] theorem State.setCrate_regs (s : State) (c : Nat) (x : Crate) : (s.setCrate c x).regs = s.regs := rfl
@[simp] theorem State.setCrate_plt (s : State) (c : Nat) (x : Crate) : (s.setCrate c x).plt = s.plt := rfl
@[simp] theorem State.setCrate_cellar (s : State) (c : Nat) (x : Crate) : (s.setCrate c x).cellar = s.cellar := rfl
@[simp] theorem State.setCrate_shelf (s : State) (c : Nat) (x : Crate) : (s.setCrate c x).shelf = s.shelf := rfl
@[simp] theorem State.setCrate_hostA (s : State) (c : Nat) (x : Crate) : (s.setCrate c x).hostA = s.hostA := rfl
@[simp] theorem State.setCrate_hostB (s : State) (c : Nat) (x : Crate) : (s.setCrate c x).hostB = s.hostB := rfl
@[simp] theorem State.setCrate_tiles (s : State) (c : Nat) (x : Crate) : (s.setCrate c x).tiles = s.tiles := rfl
@[simp] theorem State.setCrate_incs (s : State) (c : Nat) (x : Crate) : (s.setCrate c x).incs = s.incs := rfl
@[simp] theorem State.setCrate_gathered (s : State) (c : Nat) (x : Crate) : (s.setCrate c x).gathered = s.gathered := rfl
@[simp] theorem State.setCrate_seqCtr (s : State) (c : Nat) (x : Crate) : (s.setCrate c x).seqCtr = s.seqCtr := rfl
@[simp] theorem State.setCrate_strong (s : State) (c : Nat) (x : Crate) : (s.setCrate c x).strong = s.strong := rfl
@[simp] theorem State.setCrate_journal (s : State) (c : Nat) (x : Crate) : (s.setCrate c x).journal = s.journal := rfl
@[simp] theorem State.setCrate_aplic (s : State) (c : Nat) (x : Crate) : (s.setCrate c x).aplic = s.aplic := rfl
@[simp] theorem State.setCrate_hports (s : State) (c : Nat) (x : Crate) : (s.setCrate c x).hports = s.hports := rfl
@[simp] theorem State.setCrate_msixOut (s : State) (c : Nat) (x : Crate) : (s.setCrate c x).msixOut = s.msixOut := rfl
@[simp] theorem State.setCrate_blocked (s : State) (c : Nat) (x : Crate) : (s.setCrate c x).blocked = s.blocked := rfl
@[simp] theorem State.setCrate_bar0Blocked (s : State) (c : Nat) (x : Crate) : (s.setCrate c x).bar0Blocked = s.bar0Blocked := rfl
@[simp] theorem State.setCrate_fastStopped (s : State) (c : Nat) (x : Crate) : (s.setCrate c x).fastStopped = s.fastStopped := rfl
@[simp] theorem State.setCrate_fabTx (s : State) (c : Nat) (x : Crate) : (s.setCrate c x).fabTx = s.fabTx := rfl
@[simp] theorem State.setCrate_fabWait (s : State) (c : Nat) (x : Crate) : (s.setCrate c x).fabWait = s.fabWait := rfl
@[simp] theorem State.setCrate_fabRsv (s : State) (c : Nat) (x : Crate) : (s.setCrate c x).fabRsv = s.fabRsv := rfl
@[simp] theorem State.setCrate_syncHeld (s : State) (c : Nat) (x : Crate) : (s.setCrate c x).syncHeld = s.syncHeld := rfl
@[simp] theorem State.setCrate_fabReqs (s : State) (c : Nat) (x : Crate) : (s.setCrate c x).fabReqs = s.fabReqs := rfl
@[simp] theorem State.setCrate_carryRecs (s : State) (c : Nat) (x : Crate) : (s.setCrate c x).carryRecs = s.carryRecs := rfl
@[simp] theorem State.setCrate_place (s : State) (c : Nat) (x : Crate) : (s.setCrate c x).place = s.place := rfl
@[simp] theorem State.setCrate_answer (s : State) (c : Nat) (x : Crate) : (s.setCrate c x).answer = s.answer := rfl
@[simp] theorem State.setCrate_sds (s : State) (c : Nat) (x : Crate) : (s.setCrate c x).sds = s.sds := rfl
@[simp] theorem State.setCrate_sdNum (s : State) (c : Nat) (x : Crate) : (s.setCrate c x).sdNum = s.sdNum := rfl
@[simp] theorem State.setCrate_sdLast (s : State) (c : Nat) (x : Crate) : (s.setCrate c x).sdLast = s.sdLast := rfl
@[simp] theorem State.setCrate_sdRecent (s : State) (c : Nat) (x : Crate) : (s.setCrate c x).sdRecent = s.sdRecent := rfl
@[simp] theorem State.setCrate_carve (s : State) (c : Nat) (x : Crate) : (s.setCrate c x).carve = s.carve := rfl
@[simp] theorem State.setCrate_hampers (s : State) (c : Nat) (x : Crate) : (s.setCrate c x).hampers = s.hampers := rfl
@[simp] theorem State.setCrate_burstPoison (s : State) (c : Nat) (x : Crate) : (s.setCrate c x).burstPoison = s.burstPoison := rfl
@[simp] theorem State.setCrate_symErr (s : State) (c : Nat) (x : Crate) : (s.setCrate c x).symErr = s.symErr := rfl
@[simp] theorem State.setCrate_rows (s : State) (c : Nat) (x : Crate) : (s.setCrate c x).rows = s.rows := rfl
@[simp] theorem State.setCrate_hardDone (s : State) (c : Nat) (x : Crate) : (s.setCrate c x).hardDone = s.hardDone := rfl
@[simp] theorem State.setCrate_retired (s : State) (c : Nat) (x : Crate) : (s.setCrate c x).retired = s.retired := rfl
@[simp] theorem State.setCrate_bankUsed (s : State) (c : Nat) (x : Crate) : (s.setCrate c x).bankUsed = s.bankUsed := rfl
@[simp] theorem State.setCrate_repairing (s : State) (c : Nat) (x : Crate) : (s.setCrate c x).repairing = s.repairing := rfl
@[simp] theorem State.setCrate_scrubNext (s : State) (c : Nat) (x : Crate) : (s.setCrate c x).scrubNext = s.scrubNext := rfl
@[simp] theorem State.setCrate_tgStop (s : State) (c : Nat) (x : Crate) : (s.setCrate c x).tgStop = s.tgStop := rfl
@[simp] theorem State.setCrate_l2 (s : State) (c : Nat) (x : Crate) : (s.setCrate c x).l2 = s.l2 := rfl
@[simp] theorem State.setCrate_dirs (s : State) (c : Nat) (x : Crate) : (s.setCrate c x).dirs = s.dirs := rfl
@[simp] theorem State.setCrate_creqs (s : State) (c : Nat) (x : Crate) : (s.setCrate c x).creqs = s.creqs := rfl
@[simp] theorem State.setCrate_agedQ (s : State) (c : Nat) (x : Crate) : (s.setCrate c x).agedQ = s.agedQ := rfl
@[simp] theorem State.setCrate_evicts (s : State) (c : Nat) (x : Crate) : (s.setCrate c x).evicts = s.evicts := rfl
@[simp] theorem State.setCrate_txns (s : State) (c : Nat) (x : Crate) : (s.setCrate c x).txns = s.txns := rfl
@[simp] theorem State.setCrate_msgs (s : State) (c : Nat) (x : Crate) : (s.setCrate c x).msgs = s.msgs := rfl
@[simp] theorem State.setCrate_homeQ (s : State) (c : Nat) (x : Crate) : (s.setCrate c x).homeQ = s.homeQ := rfl
@[simp] theorem State.setCrate_tallyQ (s : State) (c : Nat) (x : Crate) : (s.setCrate c x).tallyQ = s.tallyQ := rfl
@[simp] theorem State.setCrate_hcores (s : State) (c : Nat) (x : Crate) : (s.setCrate c x).hcores = s.hcores := rfl
@[simp] theorem State.setCrate_dmActive (s : State) (c : Nat) (x : Crate) : (s.setCrate c x).dmActive = s.dmActive := rfl
@[simp] theorem State.setCrate_seams (s : State) (c : Nat) (x : Crate) : (s.setCrate c x).seams = s.seams := rfl
@[simp] theorem State.setCrate_fports (s : State) (c : Nat) (x : Crate) : (s.setCrate c x).fports = s.fports := rfl
@[simp] theorem State.setCrate_inReqs (s : State) (c : Nat) (x : Crate) : (s.setCrate c x).inReqs = s.inReqs := rfl
@[simp] theorem State.setCrate_colls (s : State) (c : Nat) (x : Crate) : (s.setCrate c x).colls = s.colls := rfl
@[simp] theorem State.setCrate_collEarly (s : State) (c : Nat) (x : Crate) : (s.setCrate c x).collEarly = s.collEarly := rfl
@[simp] theorem State.setCrate_rings (s : State) (c : Nat) (x : Crate) : (s.setCrate c x).rings = s.rings := rfl
@[simp] theorem State.setCrate_cmds (s : State) (c : Nat) (x : Crate) : (s.setCrate c x).cmds = s.cmds := rfl
@[simp] theorem State.setCrate_ringTurn (s : State) (c : Nat) (x : Crate) : (s.setCrate c x).ringTurn = s.ringTurn := rfl
@[simp] theorem State.setCrate_drvMsgs (s : State) (c : Nat) (x : Crate) : (s.setCrate c x).drvMsgs = s.drvMsgs := rfl
@[simp] theorem State.setCrate_heartbeat (s : State) (c : Nat) (x : Crate) : (s.setCrate c x).heartbeat = s.heartbeat := rfl
@[simp] theorem State.setCrate_plan (s : State) (c : Nat) (x : Crate) : (s.setCrate c x).plan = s.plan := rfl
@[simp] theorem State.setCrate_planRun (s : State) (c : Nat) (x : Crate) : (s.setCrate c x).planRun = s.planRun := rfl
@[simp] theorem State.setCrate_gov (s : State) (c : Nat) (x : Crate) : (s.setCrate c x).gov = s.gov := rfl
@[simp] theorem State.setCrate_domQ (s : State) (c : Nat) (x : Crate) : (s.setCrate c x).domQ = s.domQ := rfl
@[simp] theorem State.setCrate_pdBroken (s : State) (c : Nat) (x : Crate) : (s.setCrate c x).pdBroken = s.pdBroken := rfl
@[simp] theorem State.setCrate_t0 (s : State) (c : Nat) (x : Crate) : (s.setCrate c x).t0 = s.t0 := rfl
@[simp] theorem State.setCrate_list (s : State) (c : Nat) (x : Crate) : (s.setCrate c x).list = s.list := rfl
@[simp] theorem State.setCrate_flash (s : State) (c : Nat) (x : Crate) : (s.setCrate c x).flash = s.flash := rfl
@[simp] theorem State.setCrate_chips (s : State) (c : Nat) (x : Crate) : (s.setCrate c x).chips = s.chips := rfl
@[simp] theorem State.setCrate_upd (s : State) (c : Nat) (x : Crate) : (s.setCrate c x).upd = s.upd := rfl
@[simp] theorem State.setCrate_job (s : State) (c : Nat) (x : Crate) : (s.setCrate c x).job = s.job := rfl
@[simp] theorem State.setCrate_admitPorts (s : State) (c : Nat) (x : Crate) : (s.setCrate c x).admitPorts = s.admitPorts := rfl
@[simp] theorem State.setCrate_tear (s : State) (c : Nat) (x : Crate) : (s.setCrate c x).tear = s.tear := rfl
@[simp] theorem State.setCrate_slices (s : State) (c : Nat) (x : Crate) : (s.setCrate c x).slices = s.slices := rfl
@[simp] theorem State.setCrate_residues (s : State) (c : Nat) (x : Crate) : (s.setCrate c x).residues = s.residues := rfl
@[simp] theorem State.setCrate_sliceFirst (s : State) (c : Nat) (x : Crate) : (s.setCrate c x).sliceFirst = s.sliceFirst := rfl
@[simp] theorem State.setCrate_pins (s : State) (c : Nat) (x : Crate) : (s.setCrate c x).pins = s.pins := rfl
@[simp] theorem State.setCrate_held (s : State) (c : Nat) (x : Crate) : (s.setCrate c x).held = s.held := rfl
@[simp] theorem State.setCrate_doeCount (s : State) (c : Nat) (x : Crate) : (s.setCrate c x).doeCount = s.doeCount := rfl

/-! `setHport` leaves every field but `hports`. -/
@[simp] theorem State.setHport_pending (s : State) (p : Nat) (h : HPort) : (s.setHport p h).pending = s.pending := rfl
@[simp] theorem State.setHport_freeCtr (s : State) (p : Nat) (h : HPort) : (s.setHport p h).freeCtr = s.freeCtr := rfl
@[simp] theorem State.setHport_regs (s : State) (p : Nat) (h : HPort) : (s.setHport p h).regs = s.regs := rfl
@[simp] theorem State.setHport_plt (s : State) (p : Nat) (h : HPort) : (s.setHport p h).plt = s.plt := rfl
@[simp] theorem State.setHport_cellar (s : State) (p : Nat) (h : HPort) : (s.setHport p h).cellar = s.cellar := rfl
@[simp] theorem State.setHport_shelf (s : State) (p : Nat) (h : HPort) : (s.setHport p h).shelf = s.shelf := rfl
@[simp] theorem State.setHport_hostA (s : State) (p : Nat) (h : HPort) : (s.setHport p h).hostA = s.hostA := rfl
@[simp] theorem State.setHport_hostB (s : State) (p : Nat) (h : HPort) : (s.setHport p h).hostB = s.hostB := rfl
@[simp] theorem State.setHport_tiles (s : State) (p : Nat) (h : HPort) : (s.setHport p h).tiles = s.tiles := rfl
@[simp] theorem State.setHport_crates (s : State) (p : Nat) (h : HPort) : (s.setHport p h).crates = s.crates := rfl
@[simp] theorem State.setHport_incs (s : State) (p : Nat) (h : HPort) : (s.setHport p h).incs = s.incs := rfl
@[simp] theorem State.setHport_gathered (s : State) (p : Nat) (h : HPort) : (s.setHport p h).gathered = s.gathered := rfl
@[simp] theorem State.setHport_seqCtr (s : State) (p : Nat) (h : HPort) : (s.setHport p h).seqCtr = s.seqCtr := rfl
@[simp] theorem State.setHport_strong (s : State) (p : Nat) (h : HPort) : (s.setHport p h).strong = s.strong := rfl
@[simp] theorem State.setHport_journal (s : State) (p : Nat) (h : HPort) : (s.setHport p h).journal = s.journal := rfl
@[simp] theorem State.setHport_aplic (s : State) (p : Nat) (h : HPort) : (s.setHport p h).aplic = s.aplic := rfl
@[simp] theorem State.setHport_msixOut (s : State) (p : Nat) (h : HPort) : (s.setHport p h).msixOut = s.msixOut := rfl
@[simp] theorem State.setHport_blocked (s : State) (p : Nat) (h : HPort) : (s.setHport p h).blocked = s.blocked := rfl
@[simp] theorem State.setHport_bar0Blocked (s : State) (p : Nat) (h : HPort) : (s.setHport p h).bar0Blocked = s.bar0Blocked := rfl
@[simp] theorem State.setHport_fastStopped (s : State) (p : Nat) (h : HPort) : (s.setHport p h).fastStopped = s.fastStopped := rfl
@[simp] theorem State.setHport_fabTx (s : State) (p : Nat) (h : HPort) : (s.setHport p h).fabTx = s.fabTx := rfl
@[simp] theorem State.setHport_fabWait (s : State) (p : Nat) (h : HPort) : (s.setHport p h).fabWait = s.fabWait := rfl
@[simp] theorem State.setHport_fabRsv (s : State) (p : Nat) (h : HPort) : (s.setHport p h).fabRsv = s.fabRsv := rfl
@[simp] theorem State.setHport_syncHeld (s : State) (p : Nat) (h : HPort) : (s.setHport p h).syncHeld = s.syncHeld := rfl
@[simp] theorem State.setHport_fabReqs (s : State) (p : Nat) (h : HPort) : (s.setHport p h).fabReqs = s.fabReqs := rfl
@[simp] theorem State.setHport_carryRecs (s : State) (p : Nat) (h : HPort) : (s.setHport p h).carryRecs = s.carryRecs := rfl
@[simp] theorem State.setHport_place (s : State) (p : Nat) (h : HPort) : (s.setHport p h).place = s.place := rfl
@[simp] theorem State.setHport_answer (s : State) (p : Nat) (h : HPort) : (s.setHport p h).answer = s.answer := rfl
@[simp] theorem State.setHport_sds (s : State) (p : Nat) (h : HPort) : (s.setHport p h).sds = s.sds := rfl
@[simp] theorem State.setHport_sdNum (s : State) (p : Nat) (h : HPort) : (s.setHport p h).sdNum = s.sdNum := rfl
@[simp] theorem State.setHport_sdLast (s : State) (p : Nat) (h : HPort) : (s.setHport p h).sdLast = s.sdLast := rfl
@[simp] theorem State.setHport_sdRecent (s : State) (p : Nat) (h : HPort) : (s.setHport p h).sdRecent = s.sdRecent := rfl
@[simp] theorem State.setHport_carve (s : State) (p : Nat) (h : HPort) : (s.setHport p h).carve = s.carve := rfl
@[simp] theorem State.setHport_hampers (s : State) (p : Nat) (h : HPort) : (s.setHport p h).hampers = s.hampers := rfl
@[simp] theorem State.setHport_burstPoison (s : State) (p : Nat) (h : HPort) : (s.setHport p h).burstPoison = s.burstPoison := rfl
@[simp] theorem State.setHport_symErr (s : State) (p : Nat) (h : HPort) : (s.setHport p h).symErr = s.symErr := rfl
@[simp] theorem State.setHport_rows (s : State) (p : Nat) (h : HPort) : (s.setHport p h).rows = s.rows := rfl
@[simp] theorem State.setHport_hardDone (s : State) (p : Nat) (h : HPort) : (s.setHport p h).hardDone = s.hardDone := rfl
@[simp] theorem State.setHport_retired (s : State) (p : Nat) (h : HPort) : (s.setHport p h).retired = s.retired := rfl
@[simp] theorem State.setHport_bankUsed (s : State) (p : Nat) (h : HPort) : (s.setHport p h).bankUsed = s.bankUsed := rfl
@[simp] theorem State.setHport_repairing (s : State) (p : Nat) (h : HPort) : (s.setHport p h).repairing = s.repairing := rfl
@[simp] theorem State.setHport_scrubNext (s : State) (p : Nat) (h : HPort) : (s.setHport p h).scrubNext = s.scrubNext := rfl
@[simp] theorem State.setHport_tgStop (s : State) (p : Nat) (h : HPort) : (s.setHport p h).tgStop = s.tgStop := rfl
@[simp] theorem State.setHport_l2 (s : State) (p : Nat) (h : HPort) : (s.setHport p h).l2 = s.l2 := rfl
@[simp] theorem State.setHport_dirs (s : State) (p : Nat) (h : HPort) : (s.setHport p h).dirs = s.dirs := rfl
@[simp] theorem State.setHport_creqs (s : State) (p : Nat) (h : HPort) : (s.setHport p h).creqs = s.creqs := rfl
@[simp] theorem State.setHport_agedQ (s : State) (p : Nat) (h : HPort) : (s.setHport p h).agedQ = s.agedQ := rfl
@[simp] theorem State.setHport_evicts (s : State) (p : Nat) (h : HPort) : (s.setHport p h).evicts = s.evicts := rfl
@[simp] theorem State.setHport_txns (s : State) (p : Nat) (h : HPort) : (s.setHport p h).txns = s.txns := rfl
@[simp] theorem State.setHport_msgs (s : State) (p : Nat) (h : HPort) : (s.setHport p h).msgs = s.msgs := rfl
@[simp] theorem State.setHport_homeQ (s : State) (p : Nat) (h : HPort) : (s.setHport p h).homeQ = s.homeQ := rfl
@[simp] theorem State.setHport_tallyQ (s : State) (p : Nat) (h : HPort) : (s.setHport p h).tallyQ = s.tallyQ := rfl
@[simp] theorem State.setHport_hcores (s : State) (p : Nat) (h : HPort) : (s.setHport p h).hcores = s.hcores := rfl
@[simp] theorem State.setHport_dmActive (s : State) (p : Nat) (h : HPort) : (s.setHport p h).dmActive = s.dmActive := rfl
@[simp] theorem State.setHport_seams (s : State) (p : Nat) (h : HPort) : (s.setHport p h).seams = s.seams := rfl
@[simp] theorem State.setHport_fports (s : State) (p : Nat) (h : HPort) : (s.setHport p h).fports = s.fports := rfl
@[simp] theorem State.setHport_inReqs (s : State) (p : Nat) (h : HPort) : (s.setHport p h).inReqs = s.inReqs := rfl
@[simp] theorem State.setHport_colls (s : State) (p : Nat) (h : HPort) : (s.setHport p h).colls = s.colls := rfl
@[simp] theorem State.setHport_collEarly (s : State) (p : Nat) (h : HPort) : (s.setHport p h).collEarly = s.collEarly := rfl
@[simp] theorem State.setHport_rings (s : State) (p : Nat) (h : HPort) : (s.setHport p h).rings = s.rings := rfl
@[simp] theorem State.setHport_cmds (s : State) (p : Nat) (h : HPort) : (s.setHport p h).cmds = s.cmds := rfl
@[simp] theorem State.setHport_ringTurn (s : State) (p : Nat) (h : HPort) : (s.setHport p h).ringTurn = s.ringTurn := rfl
@[simp] theorem State.setHport_drvMsgs (s : State) (p : Nat) (h : HPort) : (s.setHport p h).drvMsgs = s.drvMsgs := rfl
@[simp] theorem State.setHport_heartbeat (s : State) (p : Nat) (h : HPort) : (s.setHport p h).heartbeat = s.heartbeat := rfl
@[simp] theorem State.setHport_plan (s : State) (p : Nat) (h : HPort) : (s.setHport p h).plan = s.plan := rfl
@[simp] theorem State.setHport_planRun (s : State) (p : Nat) (h : HPort) : (s.setHport p h).planRun = s.planRun := rfl
@[simp] theorem State.setHport_gov (s : State) (p : Nat) (h : HPort) : (s.setHport p h).gov = s.gov := rfl
@[simp] theorem State.setHport_domQ (s : State) (p : Nat) (h : HPort) : (s.setHport p h).domQ = s.domQ := rfl
@[simp] theorem State.setHport_pdBroken (s : State) (p : Nat) (h : HPort) : (s.setHport p h).pdBroken = s.pdBroken := rfl
@[simp] theorem State.setHport_t0 (s : State) (p : Nat) (h : HPort) : (s.setHport p h).t0 = s.t0 := rfl
@[simp] theorem State.setHport_list (s : State) (p : Nat) (h : HPort) : (s.setHport p h).list = s.list := rfl
@[simp] theorem State.setHport_flash (s : State) (p : Nat) (h : HPort) : (s.setHport p h).flash = s.flash := rfl
@[simp] theorem State.setHport_chips (s : State) (p : Nat) (h : HPort) : (s.setHport p h).chips = s.chips := rfl
@[simp] theorem State.setHport_upd (s : State) (p : Nat) (h : HPort) : (s.setHport p h).upd = s.upd := rfl
@[simp] theorem State.setHport_job (s : State) (p : Nat) (h : HPort) : (s.setHport p h).job = s.job := rfl
@[simp] theorem State.setHport_admitPorts (s : State) (p : Nat) (h : HPort) : (s.setHport p h).admitPorts = s.admitPorts := rfl
@[simp] theorem State.setHport_tear (s : State) (p : Nat) (h : HPort) : (s.setHport p h).tear = s.tear := rfl
@[simp] theorem State.setHport_slices (s : State) (p : Nat) (h : HPort) : (s.setHport p h).slices = s.slices := rfl
@[simp] theorem State.setHport_residues (s : State) (p : Nat) (h : HPort) : (s.setHport p h).residues = s.residues := rfl
@[simp] theorem State.setHport_sliceFirst (s : State) (p : Nat) (h : HPort) : (s.setHport p h).sliceFirst = s.sliceFirst := rfl
@[simp] theorem State.setHport_pins (s : State) (p : Nat) (h : HPort) : (s.setHport p h).pins = s.pins := rfl
@[simp] theorem State.setHport_held (s : State) (p : Nat) (h : HPort) : (s.setHport p h).held = s.held := rfl
@[simp] theorem State.setHport_doeCount (s : State) (p : Nat) (h : HPort) : (s.setHport p h).doeCount = s.doeCount := rfl

/-! `setHcore` leaves every field but `hcores`. -/
@[simp] theorem State.setHcore_pending (s : State) (c : Nat) (x : HCore) : (s.setHcore c x).pending = s.pending := rfl
@[simp] theorem State.setHcore_freeCtr (s : State) (c : Nat) (x : HCore) : (s.setHcore c x).freeCtr = s.freeCtr := rfl
@[simp] theorem State.setHcore_regs (s : State) (c : Nat) (x : HCore) : (s.setHcore c x).regs = s.regs := rfl
@[simp] theorem State.setHcore_plt (s : State) (c : Nat) (x : HCore) : (s.setHcore c x).plt = s.plt := rfl
@[simp] theorem State.setHcore_cellar (s : State) (c : Nat) (x : HCore) : (s.setHcore c x).cellar = s.cellar := rfl
@[simp] theorem State.setHcore_shelf (s : State) (c : Nat) (x : HCore) : (s.setHcore c x).shelf = s.shelf := rfl
@[simp] theorem State.setHcore_hostA (s : State) (c : Nat) (x : HCore) : (s.setHcore c x).hostA = s.hostA := rfl
@[simp] theorem State.setHcore_hostB (s : State) (c : Nat) (x : HCore) : (s.setHcore c x).hostB = s.hostB := rfl
@[simp] theorem State.setHcore_tiles (s : State) (c : Nat) (x : HCore) : (s.setHcore c x).tiles = s.tiles := rfl
@[simp] theorem State.setHcore_crates (s : State) (c : Nat) (x : HCore) : (s.setHcore c x).crates = s.crates := rfl
@[simp] theorem State.setHcore_incs (s : State) (c : Nat) (x : HCore) : (s.setHcore c x).incs = s.incs := rfl
@[simp] theorem State.setHcore_gathered (s : State) (c : Nat) (x : HCore) : (s.setHcore c x).gathered = s.gathered := rfl
@[simp] theorem State.setHcore_seqCtr (s : State) (c : Nat) (x : HCore) : (s.setHcore c x).seqCtr = s.seqCtr := rfl
@[simp] theorem State.setHcore_strong (s : State) (c : Nat) (x : HCore) : (s.setHcore c x).strong = s.strong := rfl
@[simp] theorem State.setHcore_journal (s : State) (c : Nat) (x : HCore) : (s.setHcore c x).journal = s.journal := rfl
@[simp] theorem State.setHcore_aplic (s : State) (c : Nat) (x : HCore) : (s.setHcore c x).aplic = s.aplic := rfl
@[simp] theorem State.setHcore_hports (s : State) (c : Nat) (x : HCore) : (s.setHcore c x).hports = s.hports := rfl
@[simp] theorem State.setHcore_msixOut (s : State) (c : Nat) (x : HCore) : (s.setHcore c x).msixOut = s.msixOut := rfl
@[simp] theorem State.setHcore_blocked (s : State) (c : Nat) (x : HCore) : (s.setHcore c x).blocked = s.blocked := rfl
@[simp] theorem State.setHcore_bar0Blocked (s : State) (c : Nat) (x : HCore) : (s.setHcore c x).bar0Blocked = s.bar0Blocked := rfl
@[simp] theorem State.setHcore_fastStopped (s : State) (c : Nat) (x : HCore) : (s.setHcore c x).fastStopped = s.fastStopped := rfl
@[simp] theorem State.setHcore_fabTx (s : State) (c : Nat) (x : HCore) : (s.setHcore c x).fabTx = s.fabTx := rfl
@[simp] theorem State.setHcore_fabWait (s : State) (c : Nat) (x : HCore) : (s.setHcore c x).fabWait = s.fabWait := rfl
@[simp] theorem State.setHcore_fabRsv (s : State) (c : Nat) (x : HCore) : (s.setHcore c x).fabRsv = s.fabRsv := rfl
@[simp] theorem State.setHcore_syncHeld (s : State) (c : Nat) (x : HCore) : (s.setHcore c x).syncHeld = s.syncHeld := rfl
@[simp] theorem State.setHcore_fabReqs (s : State) (c : Nat) (x : HCore) : (s.setHcore c x).fabReqs = s.fabReqs := rfl
@[simp] theorem State.setHcore_carryRecs (s : State) (c : Nat) (x : HCore) : (s.setHcore c x).carryRecs = s.carryRecs := rfl
@[simp] theorem State.setHcore_place (s : State) (c : Nat) (x : HCore) : (s.setHcore c x).place = s.place := rfl
@[simp] theorem State.setHcore_answer (s : State) (c : Nat) (x : HCore) : (s.setHcore c x).answer = s.answer := rfl
@[simp] theorem State.setHcore_sds (s : State) (c : Nat) (x : HCore) : (s.setHcore c x).sds = s.sds := rfl
@[simp] theorem State.setHcore_sdNum (s : State) (c : Nat) (x : HCore) : (s.setHcore c x).sdNum = s.sdNum := rfl
@[simp] theorem State.setHcore_sdLast (s : State) (c : Nat) (x : HCore) : (s.setHcore c x).sdLast = s.sdLast := rfl
@[simp] theorem State.setHcore_sdRecent (s : State) (c : Nat) (x : HCore) : (s.setHcore c x).sdRecent = s.sdRecent := rfl
@[simp] theorem State.setHcore_carve (s : State) (c : Nat) (x : HCore) : (s.setHcore c x).carve = s.carve := rfl
@[simp] theorem State.setHcore_hampers (s : State) (c : Nat) (x : HCore) : (s.setHcore c x).hampers = s.hampers := rfl
@[simp] theorem State.setHcore_burstPoison (s : State) (c : Nat) (x : HCore) : (s.setHcore c x).burstPoison = s.burstPoison := rfl
@[simp] theorem State.setHcore_symErr (s : State) (c : Nat) (x : HCore) : (s.setHcore c x).symErr = s.symErr := rfl
@[simp] theorem State.setHcore_rows (s : State) (c : Nat) (x : HCore) : (s.setHcore c x).rows = s.rows := rfl
@[simp] theorem State.setHcore_hardDone (s : State) (c : Nat) (x : HCore) : (s.setHcore c x).hardDone = s.hardDone := rfl
@[simp] theorem State.setHcore_retired (s : State) (c : Nat) (x : HCore) : (s.setHcore c x).retired = s.retired := rfl
@[simp] theorem State.setHcore_bankUsed (s : State) (c : Nat) (x : HCore) : (s.setHcore c x).bankUsed = s.bankUsed := rfl
@[simp] theorem State.setHcore_repairing (s : State) (c : Nat) (x : HCore) : (s.setHcore c x).repairing = s.repairing := rfl
@[simp] theorem State.setHcore_scrubNext (s : State) (c : Nat) (x : HCore) : (s.setHcore c x).scrubNext = s.scrubNext := rfl
@[simp] theorem State.setHcore_tgStop (s : State) (c : Nat) (x : HCore) : (s.setHcore c x).tgStop = s.tgStop := rfl
@[simp] theorem State.setHcore_l2 (s : State) (c : Nat) (x : HCore) : (s.setHcore c x).l2 = s.l2 := rfl
@[simp] theorem State.setHcore_dirs (s : State) (c : Nat) (x : HCore) : (s.setHcore c x).dirs = s.dirs := rfl
@[simp] theorem State.setHcore_creqs (s : State) (c : Nat) (x : HCore) : (s.setHcore c x).creqs = s.creqs := rfl
@[simp] theorem State.setHcore_agedQ (s : State) (c : Nat) (x : HCore) : (s.setHcore c x).agedQ = s.agedQ := rfl
@[simp] theorem State.setHcore_evicts (s : State) (c : Nat) (x : HCore) : (s.setHcore c x).evicts = s.evicts := rfl
@[simp] theorem State.setHcore_txns (s : State) (c : Nat) (x : HCore) : (s.setHcore c x).txns = s.txns := rfl
@[simp] theorem State.setHcore_msgs (s : State) (c : Nat) (x : HCore) : (s.setHcore c x).msgs = s.msgs := rfl
@[simp] theorem State.setHcore_homeQ (s : State) (c : Nat) (x : HCore) : (s.setHcore c x).homeQ = s.homeQ := rfl
@[simp] theorem State.setHcore_tallyQ (s : State) (c : Nat) (x : HCore) : (s.setHcore c x).tallyQ = s.tallyQ := rfl
@[simp] theorem State.setHcore_dmActive (s : State) (c : Nat) (x : HCore) : (s.setHcore c x).dmActive = s.dmActive := rfl
@[simp] theorem State.setHcore_seams (s : State) (c : Nat) (x : HCore) : (s.setHcore c x).seams = s.seams := rfl
@[simp] theorem State.setHcore_fports (s : State) (c : Nat) (x : HCore) : (s.setHcore c x).fports = s.fports := rfl
@[simp] theorem State.setHcore_inReqs (s : State) (c : Nat) (x : HCore) : (s.setHcore c x).inReqs = s.inReqs := rfl
@[simp] theorem State.setHcore_colls (s : State) (c : Nat) (x : HCore) : (s.setHcore c x).colls = s.colls := rfl
@[simp] theorem State.setHcore_collEarly (s : State) (c : Nat) (x : HCore) : (s.setHcore c x).collEarly = s.collEarly := rfl
@[simp] theorem State.setHcore_rings (s : State) (c : Nat) (x : HCore) : (s.setHcore c x).rings = s.rings := rfl
@[simp] theorem State.setHcore_cmds (s : State) (c : Nat) (x : HCore) : (s.setHcore c x).cmds = s.cmds := rfl
@[simp] theorem State.setHcore_ringTurn (s : State) (c : Nat) (x : HCore) : (s.setHcore c x).ringTurn = s.ringTurn := rfl
@[simp] theorem State.setHcore_drvMsgs (s : State) (c : Nat) (x : HCore) : (s.setHcore c x).drvMsgs = s.drvMsgs := rfl
@[simp] theorem State.setHcore_heartbeat (s : State) (c : Nat) (x : HCore) : (s.setHcore c x).heartbeat = s.heartbeat := rfl
@[simp] theorem State.setHcore_plan (s : State) (c : Nat) (x : HCore) : (s.setHcore c x).plan = s.plan := rfl
@[simp] theorem State.setHcore_planRun (s : State) (c : Nat) (x : HCore) : (s.setHcore c x).planRun = s.planRun := rfl
@[simp] theorem State.setHcore_gov (s : State) (c : Nat) (x : HCore) : (s.setHcore c x).gov = s.gov := rfl
@[simp] theorem State.setHcore_domQ (s : State) (c : Nat) (x : HCore) : (s.setHcore c x).domQ = s.domQ := rfl
@[simp] theorem State.setHcore_pdBroken (s : State) (c : Nat) (x : HCore) : (s.setHcore c x).pdBroken = s.pdBroken := rfl
@[simp] theorem State.setHcore_t0 (s : State) (c : Nat) (x : HCore) : (s.setHcore c x).t0 = s.t0 := rfl
@[simp] theorem State.setHcore_list (s : State) (c : Nat) (x : HCore) : (s.setHcore c x).list = s.list := rfl
@[simp] theorem State.setHcore_flash (s : State) (c : Nat) (x : HCore) : (s.setHcore c x).flash = s.flash := rfl
@[simp] theorem State.setHcore_chips (s : State) (c : Nat) (x : HCore) : (s.setHcore c x).chips = s.chips := rfl
@[simp] theorem State.setHcore_upd (s : State) (c : Nat) (x : HCore) : (s.setHcore c x).upd = s.upd := rfl
@[simp] theorem State.setHcore_job (s : State) (c : Nat) (x : HCore) : (s.setHcore c x).job = s.job := rfl
@[simp] theorem State.setHcore_admitPorts (s : State) (c : Nat) (x : HCore) : (s.setHcore c x).admitPorts = s.admitPorts := rfl
@[simp] theorem State.setHcore_tear (s : State) (c : Nat) (x : HCore) : (s.setHcore c x).tear = s.tear := rfl
@[simp] theorem State.setHcore_slices (s : State) (c : Nat) (x : HCore) : (s.setHcore c x).slices = s.slices := rfl
@[simp] theorem State.setHcore_residues (s : State) (c : Nat) (x : HCore) : (s.setHcore c x).residues = s.residues := rfl
@[simp] theorem State.setHcore_sliceFirst (s : State) (c : Nat) (x : HCore) : (s.setHcore c x).sliceFirst = s.sliceFirst := rfl
@[simp] theorem State.setHcore_pins (s : State) (c : Nat) (x : HCore) : (s.setHcore c x).pins = s.pins := rfl
@[simp] theorem State.setHcore_held (s : State) (c : Nat) (x : HCore) : (s.setHcore c x).held = s.held := rfl
@[simp] theorem State.setHcore_doeCount (s : State) (c : Nat) (x : HCore) : (s.setHcore c x).doeCount = s.doeCount := rfl

/-! `setCacheLine` leaves every field but `l2`. -/
@[simp] theorem State.setCacheLine_pending (s : State) (c l : Nat) (x : CLine) : (s.setCacheLine c l x).pending = s.pending := rfl
@[simp] theorem State.setCacheLine_freeCtr (s : State) (c l : Nat) (x : CLine) : (s.setCacheLine c l x).freeCtr = s.freeCtr := rfl
@[simp] theorem State.setCacheLine_regs (s : State) (c l : Nat) (x : CLine) : (s.setCacheLine c l x).regs = s.regs := rfl
@[simp] theorem State.setCacheLine_plt (s : State) (c l : Nat) (x : CLine) : (s.setCacheLine c l x).plt = s.plt := rfl
@[simp] theorem State.setCacheLine_cellar (s : State) (c l : Nat) (x : CLine) : (s.setCacheLine c l x).cellar = s.cellar := rfl
@[simp] theorem State.setCacheLine_shelf (s : State) (c l : Nat) (x : CLine) : (s.setCacheLine c l x).shelf = s.shelf := rfl
@[simp] theorem State.setCacheLine_hostA (s : State) (c l : Nat) (x : CLine) : (s.setCacheLine c l x).hostA = s.hostA := rfl
@[simp] theorem State.setCacheLine_hostB (s : State) (c l : Nat) (x : CLine) : (s.setCacheLine c l x).hostB = s.hostB := rfl
@[simp] theorem State.setCacheLine_tiles (s : State) (c l : Nat) (x : CLine) : (s.setCacheLine c l x).tiles = s.tiles := rfl
@[simp] theorem State.setCacheLine_crates (s : State) (c l : Nat) (x : CLine) : (s.setCacheLine c l x).crates = s.crates := rfl
@[simp] theorem State.setCacheLine_incs (s : State) (c l : Nat) (x : CLine) : (s.setCacheLine c l x).incs = s.incs := rfl
@[simp] theorem State.setCacheLine_gathered (s : State) (c l : Nat) (x : CLine) : (s.setCacheLine c l x).gathered = s.gathered := rfl
@[simp] theorem State.setCacheLine_seqCtr (s : State) (c l : Nat) (x : CLine) : (s.setCacheLine c l x).seqCtr = s.seqCtr := rfl
@[simp] theorem State.setCacheLine_strong (s : State) (c l : Nat) (x : CLine) : (s.setCacheLine c l x).strong = s.strong := rfl
@[simp] theorem State.setCacheLine_journal (s : State) (c l : Nat) (x : CLine) : (s.setCacheLine c l x).journal = s.journal := rfl
@[simp] theorem State.setCacheLine_aplic (s : State) (c l : Nat) (x : CLine) : (s.setCacheLine c l x).aplic = s.aplic := rfl
@[simp] theorem State.setCacheLine_hports (s : State) (c l : Nat) (x : CLine) : (s.setCacheLine c l x).hports = s.hports := rfl
@[simp] theorem State.setCacheLine_msixOut (s : State) (c l : Nat) (x : CLine) : (s.setCacheLine c l x).msixOut = s.msixOut := rfl
@[simp] theorem State.setCacheLine_blocked (s : State) (c l : Nat) (x : CLine) : (s.setCacheLine c l x).blocked = s.blocked := rfl
@[simp] theorem State.setCacheLine_bar0Blocked (s : State) (c l : Nat) (x : CLine) : (s.setCacheLine c l x).bar0Blocked = s.bar0Blocked := rfl
@[simp] theorem State.setCacheLine_fastStopped (s : State) (c l : Nat) (x : CLine) : (s.setCacheLine c l x).fastStopped = s.fastStopped := rfl
@[simp] theorem State.setCacheLine_fabTx (s : State) (c l : Nat) (x : CLine) : (s.setCacheLine c l x).fabTx = s.fabTx := rfl
@[simp] theorem State.setCacheLine_fabWait (s : State) (c l : Nat) (x : CLine) : (s.setCacheLine c l x).fabWait = s.fabWait := rfl
@[simp] theorem State.setCacheLine_fabRsv (s : State) (c l : Nat) (x : CLine) : (s.setCacheLine c l x).fabRsv = s.fabRsv := rfl
@[simp] theorem State.setCacheLine_syncHeld (s : State) (c l : Nat) (x : CLine) : (s.setCacheLine c l x).syncHeld = s.syncHeld := rfl
@[simp] theorem State.setCacheLine_fabReqs (s : State) (c l : Nat) (x : CLine) : (s.setCacheLine c l x).fabReqs = s.fabReqs := rfl
@[simp] theorem State.setCacheLine_carryRecs (s : State) (c l : Nat) (x : CLine) : (s.setCacheLine c l x).carryRecs = s.carryRecs := rfl
@[simp] theorem State.setCacheLine_place (s : State) (c l : Nat) (x : CLine) : (s.setCacheLine c l x).place = s.place := rfl
@[simp] theorem State.setCacheLine_answer (s : State) (c l : Nat) (x : CLine) : (s.setCacheLine c l x).answer = s.answer := rfl
@[simp] theorem State.setCacheLine_sds (s : State) (c l : Nat) (x : CLine) : (s.setCacheLine c l x).sds = s.sds := rfl
@[simp] theorem State.setCacheLine_sdNum (s : State) (c l : Nat) (x : CLine) : (s.setCacheLine c l x).sdNum = s.sdNum := rfl
@[simp] theorem State.setCacheLine_sdLast (s : State) (c l : Nat) (x : CLine) : (s.setCacheLine c l x).sdLast = s.sdLast := rfl
@[simp] theorem State.setCacheLine_sdRecent (s : State) (c l : Nat) (x : CLine) : (s.setCacheLine c l x).sdRecent = s.sdRecent := rfl
@[simp] theorem State.setCacheLine_carve (s : State) (c l : Nat) (x : CLine) : (s.setCacheLine c l x).carve = s.carve := rfl
@[simp] theorem State.setCacheLine_hampers (s : State) (c l : Nat) (x : CLine) : (s.setCacheLine c l x).hampers = s.hampers := rfl
@[simp] theorem State.setCacheLine_burstPoison (s : State) (c l : Nat) (x : CLine) : (s.setCacheLine c l x).burstPoison = s.burstPoison := rfl
@[simp] theorem State.setCacheLine_symErr (s : State) (c l : Nat) (x : CLine) : (s.setCacheLine c l x).symErr = s.symErr := rfl
@[simp] theorem State.setCacheLine_rows (s : State) (c l : Nat) (x : CLine) : (s.setCacheLine c l x).rows = s.rows := rfl
@[simp] theorem State.setCacheLine_hardDone (s : State) (c l : Nat) (x : CLine) : (s.setCacheLine c l x).hardDone = s.hardDone := rfl
@[simp] theorem State.setCacheLine_retired (s : State) (c l : Nat) (x : CLine) : (s.setCacheLine c l x).retired = s.retired := rfl
@[simp] theorem State.setCacheLine_bankUsed (s : State) (c l : Nat) (x : CLine) : (s.setCacheLine c l x).bankUsed = s.bankUsed := rfl
@[simp] theorem State.setCacheLine_repairing (s : State) (c l : Nat) (x : CLine) : (s.setCacheLine c l x).repairing = s.repairing := rfl
@[simp] theorem State.setCacheLine_scrubNext (s : State) (c l : Nat) (x : CLine) : (s.setCacheLine c l x).scrubNext = s.scrubNext := rfl
@[simp] theorem State.setCacheLine_tgStop (s : State) (c l : Nat) (x : CLine) : (s.setCacheLine c l x).tgStop = s.tgStop := rfl
@[simp] theorem State.setCacheLine_dirs (s : State) (c l : Nat) (x : CLine) : (s.setCacheLine c l x).dirs = s.dirs := rfl
@[simp] theorem State.setCacheLine_creqs (s : State) (c l : Nat) (x : CLine) : (s.setCacheLine c l x).creqs = s.creqs := rfl
@[simp] theorem State.setCacheLine_agedQ (s : State) (c l : Nat) (x : CLine) : (s.setCacheLine c l x).agedQ = s.agedQ := rfl
@[simp] theorem State.setCacheLine_evicts (s : State) (c l : Nat) (x : CLine) : (s.setCacheLine c l x).evicts = s.evicts := rfl
@[simp] theorem State.setCacheLine_txns (s : State) (c l : Nat) (x : CLine) : (s.setCacheLine c l x).txns = s.txns := rfl
@[simp] theorem State.setCacheLine_msgs (s : State) (c l : Nat) (x : CLine) : (s.setCacheLine c l x).msgs = s.msgs := rfl
@[simp] theorem State.setCacheLine_homeQ (s : State) (c l : Nat) (x : CLine) : (s.setCacheLine c l x).homeQ = s.homeQ := rfl
@[simp] theorem State.setCacheLine_tallyQ (s : State) (c l : Nat) (x : CLine) : (s.setCacheLine c l x).tallyQ = s.tallyQ := rfl
@[simp] theorem State.setCacheLine_hcores (s : State) (c l : Nat) (x : CLine) : (s.setCacheLine c l x).hcores = s.hcores := rfl
@[simp] theorem State.setCacheLine_dmActive (s : State) (c l : Nat) (x : CLine) : (s.setCacheLine c l x).dmActive = s.dmActive := rfl
@[simp] theorem State.setCacheLine_seams (s : State) (c l : Nat) (x : CLine) : (s.setCacheLine c l x).seams = s.seams := rfl
@[simp] theorem State.setCacheLine_fports (s : State) (c l : Nat) (x : CLine) : (s.setCacheLine c l x).fports = s.fports := rfl
@[simp] theorem State.setCacheLine_inReqs (s : State) (c l : Nat) (x : CLine) : (s.setCacheLine c l x).inReqs = s.inReqs := rfl
@[simp] theorem State.setCacheLine_colls (s : State) (c l : Nat) (x : CLine) : (s.setCacheLine c l x).colls = s.colls := rfl
@[simp] theorem State.setCacheLine_collEarly (s : State) (c l : Nat) (x : CLine) : (s.setCacheLine c l x).collEarly = s.collEarly := rfl
@[simp] theorem State.setCacheLine_rings (s : State) (c l : Nat) (x : CLine) : (s.setCacheLine c l x).rings = s.rings := rfl
@[simp] theorem State.setCacheLine_cmds (s : State) (c l : Nat) (x : CLine) : (s.setCacheLine c l x).cmds = s.cmds := rfl
@[simp] theorem State.setCacheLine_ringTurn (s : State) (c l : Nat) (x : CLine) : (s.setCacheLine c l x).ringTurn = s.ringTurn := rfl
@[simp] theorem State.setCacheLine_drvMsgs (s : State) (c l : Nat) (x : CLine) : (s.setCacheLine c l x).drvMsgs = s.drvMsgs := rfl
@[simp] theorem State.setCacheLine_heartbeat (s : State) (c l : Nat) (x : CLine) : (s.setCacheLine c l x).heartbeat = s.heartbeat := rfl
@[simp] theorem State.setCacheLine_plan (s : State) (c l : Nat) (x : CLine) : (s.setCacheLine c l x).plan = s.plan := rfl
@[simp] theorem State.setCacheLine_planRun (s : State) (c l : Nat) (x : CLine) : (s.setCacheLine c l x).planRun = s.planRun := rfl
@[simp] theorem State.setCacheLine_gov (s : State) (c l : Nat) (x : CLine) : (s.setCacheLine c l x).gov = s.gov := rfl
@[simp] theorem State.setCacheLine_domQ (s : State) (c l : Nat) (x : CLine) : (s.setCacheLine c l x).domQ = s.domQ := rfl
@[simp] theorem State.setCacheLine_pdBroken (s : State) (c l : Nat) (x : CLine) : (s.setCacheLine c l x).pdBroken = s.pdBroken := rfl
@[simp] theorem State.setCacheLine_t0 (s : State) (c l : Nat) (x : CLine) : (s.setCacheLine c l x).t0 = s.t0 := rfl
@[simp] theorem State.setCacheLine_list (s : State) (c l : Nat) (x : CLine) : (s.setCacheLine c l x).list = s.list := rfl
@[simp] theorem State.setCacheLine_flash (s : State) (c l : Nat) (x : CLine) : (s.setCacheLine c l x).flash = s.flash := rfl
@[simp] theorem State.setCacheLine_chips (s : State) (c l : Nat) (x : CLine) : (s.setCacheLine c l x).chips = s.chips := rfl
@[simp] theorem State.setCacheLine_upd (s : State) (c l : Nat) (x : CLine) : (s.setCacheLine c l x).upd = s.upd := rfl
@[simp] theorem State.setCacheLine_job (s : State) (c l : Nat) (x : CLine) : (s.setCacheLine c l x).job = s.job := rfl
@[simp] theorem State.setCacheLine_admitPorts (s : State) (c l : Nat) (x : CLine) : (s.setCacheLine c l x).admitPorts = s.admitPorts := rfl
@[simp] theorem State.setCacheLine_tear (s : State) (c l : Nat) (x : CLine) : (s.setCacheLine c l x).tear = s.tear := rfl
@[simp] theorem State.setCacheLine_slices (s : State) (c l : Nat) (x : CLine) : (s.setCacheLine c l x).slices = s.slices := rfl
@[simp] theorem State.setCacheLine_residues (s : State) (c l : Nat) (x : CLine) : (s.setCacheLine c l x).residues = s.residues := rfl
@[simp] theorem State.setCacheLine_sliceFirst (s : State) (c l : Nat) (x : CLine) : (s.setCacheLine c l x).sliceFirst = s.sliceFirst := rfl
@[simp] theorem State.setCacheLine_pins (s : State) (c l : Nat) (x : CLine) : (s.setCacheLine c l x).pins = s.pins := rfl
@[simp] theorem State.setCacheLine_held (s : State) (c l : Nat) (x : CLine) : (s.setCacheLine c l x).held = s.held := rfl
@[simp] theorem State.setCacheLine_doeCount (s : State) (c l : Nat) (x : CLine) : (s.setCacheLine c l x).doeCount = s.doeCount := rfl

/-! `setSeam` leaves every field but `seams`. -/
@[simp] theorem State.setSeam_pending (s : State) (b : Nat) (x : Seam) : (s.setSeam b x).pending = s.pending := rfl
@[simp] theorem State.setSeam_freeCtr (s : State) (b : Nat) (x : Seam) : (s.setSeam b x).freeCtr = s.freeCtr := rfl
@[simp] theorem State.setSeam_regs (s : State) (b : Nat) (x : Seam) : (s.setSeam b x).regs = s.regs := rfl
@[simp] theorem State.setSeam_plt (s : State) (b : Nat) (x : Seam) : (s.setSeam b x).plt = s.plt := rfl
@[simp] theorem State.setSeam_cellar (s : State) (b : Nat) (x : Seam) : (s.setSeam b x).cellar = s.cellar := rfl
@[simp] theorem State.setSeam_shelf (s : State) (b : Nat) (x : Seam) : (s.setSeam b x).shelf = s.shelf := rfl
@[simp] theorem State.setSeam_hostA (s : State) (b : Nat) (x : Seam) : (s.setSeam b x).hostA = s.hostA := rfl
@[simp] theorem State.setSeam_hostB (s : State) (b : Nat) (x : Seam) : (s.setSeam b x).hostB = s.hostB := rfl
@[simp] theorem State.setSeam_tiles (s : State) (b : Nat) (x : Seam) : (s.setSeam b x).tiles = s.tiles := rfl
@[simp] theorem State.setSeam_crates (s : State) (b : Nat) (x : Seam) : (s.setSeam b x).crates = s.crates := rfl
@[simp] theorem State.setSeam_incs (s : State) (b : Nat) (x : Seam) : (s.setSeam b x).incs = s.incs := rfl
@[simp] theorem State.setSeam_gathered (s : State) (b : Nat) (x : Seam) : (s.setSeam b x).gathered = s.gathered := rfl
@[simp] theorem State.setSeam_seqCtr (s : State) (b : Nat) (x : Seam) : (s.setSeam b x).seqCtr = s.seqCtr := rfl
@[simp] theorem State.setSeam_strong (s : State) (b : Nat) (x : Seam) : (s.setSeam b x).strong = s.strong := rfl
@[simp] theorem State.setSeam_journal (s : State) (b : Nat) (x : Seam) : (s.setSeam b x).journal = s.journal := rfl
@[simp] theorem State.setSeam_aplic (s : State) (b : Nat) (x : Seam) : (s.setSeam b x).aplic = s.aplic := rfl
@[simp] theorem State.setSeam_hports (s : State) (b : Nat) (x : Seam) : (s.setSeam b x).hports = s.hports := rfl
@[simp] theorem State.setSeam_msixOut (s : State) (b : Nat) (x : Seam) : (s.setSeam b x).msixOut = s.msixOut := rfl
@[simp] theorem State.setSeam_blocked (s : State) (b : Nat) (x : Seam) : (s.setSeam b x).blocked = s.blocked := rfl
@[simp] theorem State.setSeam_bar0Blocked (s : State) (b : Nat) (x : Seam) : (s.setSeam b x).bar0Blocked = s.bar0Blocked := rfl
@[simp] theorem State.setSeam_fastStopped (s : State) (b : Nat) (x : Seam) : (s.setSeam b x).fastStopped = s.fastStopped := rfl
@[simp] theorem State.setSeam_fabTx (s : State) (b : Nat) (x : Seam) : (s.setSeam b x).fabTx = s.fabTx := rfl
@[simp] theorem State.setSeam_fabWait (s : State) (b : Nat) (x : Seam) : (s.setSeam b x).fabWait = s.fabWait := rfl
@[simp] theorem State.setSeam_fabRsv (s : State) (b : Nat) (x : Seam) : (s.setSeam b x).fabRsv = s.fabRsv := rfl
@[simp] theorem State.setSeam_syncHeld (s : State) (b : Nat) (x : Seam) : (s.setSeam b x).syncHeld = s.syncHeld := rfl
@[simp] theorem State.setSeam_fabReqs (s : State) (b : Nat) (x : Seam) : (s.setSeam b x).fabReqs = s.fabReqs := rfl
@[simp] theorem State.setSeam_carryRecs (s : State) (b : Nat) (x : Seam) : (s.setSeam b x).carryRecs = s.carryRecs := rfl
@[simp] theorem State.setSeam_place (s : State) (b : Nat) (x : Seam) : (s.setSeam b x).place = s.place := rfl
@[simp] theorem State.setSeam_answer (s : State) (b : Nat) (x : Seam) : (s.setSeam b x).answer = s.answer := rfl
@[simp] theorem State.setSeam_sds (s : State) (b : Nat) (x : Seam) : (s.setSeam b x).sds = s.sds := rfl
@[simp] theorem State.setSeam_sdNum (s : State) (b : Nat) (x : Seam) : (s.setSeam b x).sdNum = s.sdNum := rfl
@[simp] theorem State.setSeam_sdLast (s : State) (b : Nat) (x : Seam) : (s.setSeam b x).sdLast = s.sdLast := rfl
@[simp] theorem State.setSeam_sdRecent (s : State) (b : Nat) (x : Seam) : (s.setSeam b x).sdRecent = s.sdRecent := rfl
@[simp] theorem State.setSeam_carve (s : State) (b : Nat) (x : Seam) : (s.setSeam b x).carve = s.carve := rfl
@[simp] theorem State.setSeam_hampers (s : State) (b : Nat) (x : Seam) : (s.setSeam b x).hampers = s.hampers := rfl
@[simp] theorem State.setSeam_burstPoison (s : State) (b : Nat) (x : Seam) : (s.setSeam b x).burstPoison = s.burstPoison := rfl
@[simp] theorem State.setSeam_symErr (s : State) (b : Nat) (x : Seam) : (s.setSeam b x).symErr = s.symErr := rfl
@[simp] theorem State.setSeam_rows (s : State) (b : Nat) (x : Seam) : (s.setSeam b x).rows = s.rows := rfl
@[simp] theorem State.setSeam_hardDone (s : State) (b : Nat) (x : Seam) : (s.setSeam b x).hardDone = s.hardDone := rfl
@[simp] theorem State.setSeam_retired (s : State) (b : Nat) (x : Seam) : (s.setSeam b x).retired = s.retired := rfl
@[simp] theorem State.setSeam_bankUsed (s : State) (b : Nat) (x : Seam) : (s.setSeam b x).bankUsed = s.bankUsed := rfl
@[simp] theorem State.setSeam_repairing (s : State) (b : Nat) (x : Seam) : (s.setSeam b x).repairing = s.repairing := rfl
@[simp] theorem State.setSeam_scrubNext (s : State) (b : Nat) (x : Seam) : (s.setSeam b x).scrubNext = s.scrubNext := rfl
@[simp] theorem State.setSeam_tgStop (s : State) (b : Nat) (x : Seam) : (s.setSeam b x).tgStop = s.tgStop := rfl
@[simp] theorem State.setSeam_l2 (s : State) (b : Nat) (x : Seam) : (s.setSeam b x).l2 = s.l2 := rfl
@[simp] theorem State.setSeam_dirs (s : State) (b : Nat) (x : Seam) : (s.setSeam b x).dirs = s.dirs := rfl
@[simp] theorem State.setSeam_creqs (s : State) (b : Nat) (x : Seam) : (s.setSeam b x).creqs = s.creqs := rfl
@[simp] theorem State.setSeam_agedQ (s : State) (b : Nat) (x : Seam) : (s.setSeam b x).agedQ = s.agedQ := rfl
@[simp] theorem State.setSeam_evicts (s : State) (b : Nat) (x : Seam) : (s.setSeam b x).evicts = s.evicts := rfl
@[simp] theorem State.setSeam_txns (s : State) (b : Nat) (x : Seam) : (s.setSeam b x).txns = s.txns := rfl
@[simp] theorem State.setSeam_msgs (s : State) (b : Nat) (x : Seam) : (s.setSeam b x).msgs = s.msgs := rfl
@[simp] theorem State.setSeam_homeQ (s : State) (b : Nat) (x : Seam) : (s.setSeam b x).homeQ = s.homeQ := rfl
@[simp] theorem State.setSeam_tallyQ (s : State) (b : Nat) (x : Seam) : (s.setSeam b x).tallyQ = s.tallyQ := rfl
@[simp] theorem State.setSeam_hcores (s : State) (b : Nat) (x : Seam) : (s.setSeam b x).hcores = s.hcores := rfl
@[simp] theorem State.setSeam_dmActive (s : State) (b : Nat) (x : Seam) : (s.setSeam b x).dmActive = s.dmActive := rfl
@[simp] theorem State.setSeam_fports (s : State) (b : Nat) (x : Seam) : (s.setSeam b x).fports = s.fports := rfl
@[simp] theorem State.setSeam_inReqs (s : State) (b : Nat) (x : Seam) : (s.setSeam b x).inReqs = s.inReqs := rfl
@[simp] theorem State.setSeam_colls (s : State) (b : Nat) (x : Seam) : (s.setSeam b x).colls = s.colls := rfl
@[simp] theorem State.setSeam_collEarly (s : State) (b : Nat) (x : Seam) : (s.setSeam b x).collEarly = s.collEarly := rfl
@[simp] theorem State.setSeam_rings (s : State) (b : Nat) (x : Seam) : (s.setSeam b x).rings = s.rings := rfl
@[simp] theorem State.setSeam_cmds (s : State) (b : Nat) (x : Seam) : (s.setSeam b x).cmds = s.cmds := rfl
@[simp] theorem State.setSeam_ringTurn (s : State) (b : Nat) (x : Seam) : (s.setSeam b x).ringTurn = s.ringTurn := rfl
@[simp] theorem State.setSeam_drvMsgs (s : State) (b : Nat) (x : Seam) : (s.setSeam b x).drvMsgs = s.drvMsgs := rfl
@[simp] theorem State.setSeam_heartbeat (s : State) (b : Nat) (x : Seam) : (s.setSeam b x).heartbeat = s.heartbeat := rfl
@[simp] theorem State.setSeam_plan (s : State) (b : Nat) (x : Seam) : (s.setSeam b x).plan = s.plan := rfl
@[simp] theorem State.setSeam_planRun (s : State) (b : Nat) (x : Seam) : (s.setSeam b x).planRun = s.planRun := rfl
@[simp] theorem State.setSeam_gov (s : State) (b : Nat) (x : Seam) : (s.setSeam b x).gov = s.gov := rfl
@[simp] theorem State.setSeam_domQ (s : State) (b : Nat) (x : Seam) : (s.setSeam b x).domQ = s.domQ := rfl
@[simp] theorem State.setSeam_pdBroken (s : State) (b : Nat) (x : Seam) : (s.setSeam b x).pdBroken = s.pdBroken := rfl
@[simp] theorem State.setSeam_t0 (s : State) (b : Nat) (x : Seam) : (s.setSeam b x).t0 = s.t0 := rfl
@[simp] theorem State.setSeam_list (s : State) (b : Nat) (x : Seam) : (s.setSeam b x).list = s.list := rfl
@[simp] theorem State.setSeam_flash (s : State) (b : Nat) (x : Seam) : (s.setSeam b x).flash = s.flash := rfl
@[simp] theorem State.setSeam_chips (s : State) (b : Nat) (x : Seam) : (s.setSeam b x).chips = s.chips := rfl
@[simp] theorem State.setSeam_upd (s : State) (b : Nat) (x : Seam) : (s.setSeam b x).upd = s.upd := rfl
@[simp] theorem State.setSeam_job (s : State) (b : Nat) (x : Seam) : (s.setSeam b x).job = s.job := rfl
@[simp] theorem State.setSeam_admitPorts (s : State) (b : Nat) (x : Seam) : (s.setSeam b x).admitPorts = s.admitPorts := rfl
@[simp] theorem State.setSeam_tear (s : State) (b : Nat) (x : Seam) : (s.setSeam b x).tear = s.tear := rfl
@[simp] theorem State.setSeam_slices (s : State) (b : Nat) (x : Seam) : (s.setSeam b x).slices = s.slices := rfl
@[simp] theorem State.setSeam_residues (s : State) (b : Nat) (x : Seam) : (s.setSeam b x).residues = s.residues := rfl
@[simp] theorem State.setSeam_sliceFirst (s : State) (b : Nat) (x : Seam) : (s.setSeam b x).sliceFirst = s.sliceFirst := rfl
@[simp] theorem State.setSeam_pins (s : State) (b : Nat) (x : Seam) : (s.setSeam b x).pins = s.pins := rfl
@[simp] theorem State.setSeam_held (s : State) (b : Nat) (x : Seam) : (s.setSeam b x).held = s.held := rfl
@[simp] theorem State.setSeam_doeCount (s : State) (b : Nat) (x : Seam) : (s.setSeam b x).doeCount = s.doeCount := rfl

/-! `setFport` leaves every field but `fports`. -/
@[simp] theorem State.setFport_pending (s : State) (p : Nat) (x : FPort) : (s.setFport p x).pending = s.pending := rfl
@[simp] theorem State.setFport_freeCtr (s : State) (p : Nat) (x : FPort) : (s.setFport p x).freeCtr = s.freeCtr := rfl
@[simp] theorem State.setFport_regs (s : State) (p : Nat) (x : FPort) : (s.setFport p x).regs = s.regs := rfl
@[simp] theorem State.setFport_plt (s : State) (p : Nat) (x : FPort) : (s.setFport p x).plt = s.plt := rfl
@[simp] theorem State.setFport_cellar (s : State) (p : Nat) (x : FPort) : (s.setFport p x).cellar = s.cellar := rfl
@[simp] theorem State.setFport_shelf (s : State) (p : Nat) (x : FPort) : (s.setFport p x).shelf = s.shelf := rfl
@[simp] theorem State.setFport_hostA (s : State) (p : Nat) (x : FPort) : (s.setFport p x).hostA = s.hostA := rfl
@[simp] theorem State.setFport_hostB (s : State) (p : Nat) (x : FPort) : (s.setFport p x).hostB = s.hostB := rfl
@[simp] theorem State.setFport_tiles (s : State) (p : Nat) (x : FPort) : (s.setFport p x).tiles = s.tiles := rfl
@[simp] theorem State.setFport_crates (s : State) (p : Nat) (x : FPort) : (s.setFport p x).crates = s.crates := rfl
@[simp] theorem State.setFport_incs (s : State) (p : Nat) (x : FPort) : (s.setFport p x).incs = s.incs := rfl
@[simp] theorem State.setFport_gathered (s : State) (p : Nat) (x : FPort) : (s.setFport p x).gathered = s.gathered := rfl
@[simp] theorem State.setFport_seqCtr (s : State) (p : Nat) (x : FPort) : (s.setFport p x).seqCtr = s.seqCtr := rfl
@[simp] theorem State.setFport_strong (s : State) (p : Nat) (x : FPort) : (s.setFport p x).strong = s.strong := rfl
@[simp] theorem State.setFport_journal (s : State) (p : Nat) (x : FPort) : (s.setFport p x).journal = s.journal := rfl
@[simp] theorem State.setFport_aplic (s : State) (p : Nat) (x : FPort) : (s.setFport p x).aplic = s.aplic := rfl
@[simp] theorem State.setFport_hports (s : State) (p : Nat) (x : FPort) : (s.setFport p x).hports = s.hports := rfl
@[simp] theorem State.setFport_msixOut (s : State) (p : Nat) (x : FPort) : (s.setFport p x).msixOut = s.msixOut := rfl
@[simp] theorem State.setFport_blocked (s : State) (p : Nat) (x : FPort) : (s.setFport p x).blocked = s.blocked := rfl
@[simp] theorem State.setFport_bar0Blocked (s : State) (p : Nat) (x : FPort) : (s.setFport p x).bar0Blocked = s.bar0Blocked := rfl
@[simp] theorem State.setFport_fastStopped (s : State) (p : Nat) (x : FPort) : (s.setFport p x).fastStopped = s.fastStopped := rfl
@[simp] theorem State.setFport_fabTx (s : State) (p : Nat) (x : FPort) : (s.setFport p x).fabTx = s.fabTx := rfl
@[simp] theorem State.setFport_fabWait (s : State) (p : Nat) (x : FPort) : (s.setFport p x).fabWait = s.fabWait := rfl
@[simp] theorem State.setFport_fabRsv (s : State) (p : Nat) (x : FPort) : (s.setFport p x).fabRsv = s.fabRsv := rfl
@[simp] theorem State.setFport_syncHeld (s : State) (p : Nat) (x : FPort) : (s.setFport p x).syncHeld = s.syncHeld := rfl
@[simp] theorem State.setFport_fabReqs (s : State) (p : Nat) (x : FPort) : (s.setFport p x).fabReqs = s.fabReqs := rfl
@[simp] theorem State.setFport_carryRecs (s : State) (p : Nat) (x : FPort) : (s.setFport p x).carryRecs = s.carryRecs := rfl
@[simp] theorem State.setFport_place (s : State) (p : Nat) (x : FPort) : (s.setFport p x).place = s.place := rfl
@[simp] theorem State.setFport_answer (s : State) (p : Nat) (x : FPort) : (s.setFport p x).answer = s.answer := rfl
@[simp] theorem State.setFport_sds (s : State) (p : Nat) (x : FPort) : (s.setFport p x).sds = s.sds := rfl
@[simp] theorem State.setFport_sdNum (s : State) (p : Nat) (x : FPort) : (s.setFport p x).sdNum = s.sdNum := rfl
@[simp] theorem State.setFport_sdLast (s : State) (p : Nat) (x : FPort) : (s.setFport p x).sdLast = s.sdLast := rfl
@[simp] theorem State.setFport_sdRecent (s : State) (p : Nat) (x : FPort) : (s.setFport p x).sdRecent = s.sdRecent := rfl
@[simp] theorem State.setFport_carve (s : State) (p : Nat) (x : FPort) : (s.setFport p x).carve = s.carve := rfl
@[simp] theorem State.setFport_hampers (s : State) (p : Nat) (x : FPort) : (s.setFport p x).hampers = s.hampers := rfl
@[simp] theorem State.setFport_burstPoison (s : State) (p : Nat) (x : FPort) : (s.setFport p x).burstPoison = s.burstPoison := rfl
@[simp] theorem State.setFport_symErr (s : State) (p : Nat) (x : FPort) : (s.setFport p x).symErr = s.symErr := rfl
@[simp] theorem State.setFport_rows (s : State) (p : Nat) (x : FPort) : (s.setFport p x).rows = s.rows := rfl
@[simp] theorem State.setFport_hardDone (s : State) (p : Nat) (x : FPort) : (s.setFport p x).hardDone = s.hardDone := rfl
@[simp] theorem State.setFport_retired (s : State) (p : Nat) (x : FPort) : (s.setFport p x).retired = s.retired := rfl
@[simp] theorem State.setFport_bankUsed (s : State) (p : Nat) (x : FPort) : (s.setFport p x).bankUsed = s.bankUsed := rfl
@[simp] theorem State.setFport_repairing (s : State) (p : Nat) (x : FPort) : (s.setFport p x).repairing = s.repairing := rfl
@[simp] theorem State.setFport_scrubNext (s : State) (p : Nat) (x : FPort) : (s.setFport p x).scrubNext = s.scrubNext := rfl
@[simp] theorem State.setFport_tgStop (s : State) (p : Nat) (x : FPort) : (s.setFport p x).tgStop = s.tgStop := rfl
@[simp] theorem State.setFport_l2 (s : State) (p : Nat) (x : FPort) : (s.setFport p x).l2 = s.l2 := rfl
@[simp] theorem State.setFport_dirs (s : State) (p : Nat) (x : FPort) : (s.setFport p x).dirs = s.dirs := rfl
@[simp] theorem State.setFport_creqs (s : State) (p : Nat) (x : FPort) : (s.setFport p x).creqs = s.creqs := rfl
@[simp] theorem State.setFport_agedQ (s : State) (p : Nat) (x : FPort) : (s.setFport p x).agedQ = s.agedQ := rfl
@[simp] theorem State.setFport_evicts (s : State) (p : Nat) (x : FPort) : (s.setFport p x).evicts = s.evicts := rfl
@[simp] theorem State.setFport_txns (s : State) (p : Nat) (x : FPort) : (s.setFport p x).txns = s.txns := rfl
@[simp] theorem State.setFport_msgs (s : State) (p : Nat) (x : FPort) : (s.setFport p x).msgs = s.msgs := rfl
@[simp] theorem State.setFport_homeQ (s : State) (p : Nat) (x : FPort) : (s.setFport p x).homeQ = s.homeQ := rfl
@[simp] theorem State.setFport_tallyQ (s : State) (p : Nat) (x : FPort) : (s.setFport p x).tallyQ = s.tallyQ := rfl
@[simp] theorem State.setFport_hcores (s : State) (p : Nat) (x : FPort) : (s.setFport p x).hcores = s.hcores := rfl
@[simp] theorem State.setFport_dmActive (s : State) (p : Nat) (x : FPort) : (s.setFport p x).dmActive = s.dmActive := rfl
@[simp] theorem State.setFport_seams (s : State) (p : Nat) (x : FPort) : (s.setFport p x).seams = s.seams := rfl
@[simp] theorem State.setFport_inReqs (s : State) (p : Nat) (x : FPort) : (s.setFport p x).inReqs = s.inReqs := rfl
@[simp] theorem State.setFport_colls (s : State) (p : Nat) (x : FPort) : (s.setFport p x).colls = s.colls := rfl
@[simp] theorem State.setFport_collEarly (s : State) (p : Nat) (x : FPort) : (s.setFport p x).collEarly = s.collEarly := rfl
@[simp] theorem State.setFport_rings (s : State) (p : Nat) (x : FPort) : (s.setFport p x).rings = s.rings := rfl
@[simp] theorem State.setFport_cmds (s : State) (p : Nat) (x : FPort) : (s.setFport p x).cmds = s.cmds := rfl
@[simp] theorem State.setFport_ringTurn (s : State) (p : Nat) (x : FPort) : (s.setFport p x).ringTurn = s.ringTurn := rfl
@[simp] theorem State.setFport_drvMsgs (s : State) (p : Nat) (x : FPort) : (s.setFport p x).drvMsgs = s.drvMsgs := rfl
@[simp] theorem State.setFport_heartbeat (s : State) (p : Nat) (x : FPort) : (s.setFport p x).heartbeat = s.heartbeat := rfl
@[simp] theorem State.setFport_plan (s : State) (p : Nat) (x : FPort) : (s.setFport p x).plan = s.plan := rfl
@[simp] theorem State.setFport_planRun (s : State) (p : Nat) (x : FPort) : (s.setFport p x).planRun = s.planRun := rfl
@[simp] theorem State.setFport_gov (s : State) (p : Nat) (x : FPort) : (s.setFport p x).gov = s.gov := rfl
@[simp] theorem State.setFport_domQ (s : State) (p : Nat) (x : FPort) : (s.setFport p x).domQ = s.domQ := rfl
@[simp] theorem State.setFport_pdBroken (s : State) (p : Nat) (x : FPort) : (s.setFport p x).pdBroken = s.pdBroken := rfl
@[simp] theorem State.setFport_t0 (s : State) (p : Nat) (x : FPort) : (s.setFport p x).t0 = s.t0 := rfl
@[simp] theorem State.setFport_list (s : State) (p : Nat) (x : FPort) : (s.setFport p x).list = s.list := rfl
@[simp] theorem State.setFport_flash (s : State) (p : Nat) (x : FPort) : (s.setFport p x).flash = s.flash := rfl
@[simp] theorem State.setFport_chips (s : State) (p : Nat) (x : FPort) : (s.setFport p x).chips = s.chips := rfl
@[simp] theorem State.setFport_upd (s : State) (p : Nat) (x : FPort) : (s.setFport p x).upd = s.upd := rfl
@[simp] theorem State.setFport_job (s : State) (p : Nat) (x : FPort) : (s.setFport p x).job = s.job := rfl
@[simp] theorem State.setFport_admitPorts (s : State) (p : Nat) (x : FPort) : (s.setFport p x).admitPorts = s.admitPorts := rfl
@[simp] theorem State.setFport_tear (s : State) (p : Nat) (x : FPort) : (s.setFport p x).tear = s.tear := rfl
@[simp] theorem State.setFport_slices (s : State) (p : Nat) (x : FPort) : (s.setFport p x).slices = s.slices := rfl
@[simp] theorem State.setFport_residues (s : State) (p : Nat) (x : FPort) : (s.setFport p x).residues = s.residues := rfl
@[simp] theorem State.setFport_sliceFirst (s : State) (p : Nat) (x : FPort) : (s.setFport p x).sliceFirst = s.sliceFirst := rfl
@[simp] theorem State.setFport_pins (s : State) (p : Nat) (x : FPort) : (s.setFport p x).pins = s.pins := rfl
@[simp] theorem State.setFport_held (s : State) (p : Nat) (x : FPort) : (s.setFport p x).held = s.held := rfl
@[simp] theorem State.setFport_doeCount (s : State) (p : Nat) (x : FPort) : (s.setFport p x).doeCount = s.doeCount := rfl

/-! `reply` leaves every field but `answer`. -/
@[simp] theorem State.reply_pending (s : State) (st : Nat) (d : List Byte) : (s.reply st d).pending = s.pending := rfl
@[simp] theorem State.reply_freeCtr (s : State) (st : Nat) (d : List Byte) : (s.reply st d).freeCtr = s.freeCtr := rfl
@[simp] theorem State.reply_regs (s : State) (st : Nat) (d : List Byte) : (s.reply st d).regs = s.regs := rfl
@[simp] theorem State.reply_plt (s : State) (st : Nat) (d : List Byte) : (s.reply st d).plt = s.plt := rfl
@[simp] theorem State.reply_cellar (s : State) (st : Nat) (d : List Byte) : (s.reply st d).cellar = s.cellar := rfl
@[simp] theorem State.reply_shelf (s : State) (st : Nat) (d : List Byte) : (s.reply st d).shelf = s.shelf := rfl
@[simp] theorem State.reply_hostA (s : State) (st : Nat) (d : List Byte) : (s.reply st d).hostA = s.hostA := rfl
@[simp] theorem State.reply_hostB (s : State) (st : Nat) (d : List Byte) : (s.reply st d).hostB = s.hostB := rfl
@[simp] theorem State.reply_tiles (s : State) (st : Nat) (d : List Byte) : (s.reply st d).tiles = s.tiles := rfl
@[simp] theorem State.reply_crates (s : State) (st : Nat) (d : List Byte) : (s.reply st d).crates = s.crates := rfl
@[simp] theorem State.reply_incs (s : State) (st : Nat) (d : List Byte) : (s.reply st d).incs = s.incs := rfl
@[simp] theorem State.reply_gathered (s : State) (st : Nat) (d : List Byte) : (s.reply st d).gathered = s.gathered := rfl
@[simp] theorem State.reply_seqCtr (s : State) (st : Nat) (d : List Byte) : (s.reply st d).seqCtr = s.seqCtr := rfl
@[simp] theorem State.reply_strong (s : State) (st : Nat) (d : List Byte) : (s.reply st d).strong = s.strong := rfl
@[simp] theorem State.reply_journal (s : State) (st : Nat) (d : List Byte) : (s.reply st d).journal = s.journal := rfl
@[simp] theorem State.reply_aplic (s : State) (st : Nat) (d : List Byte) : (s.reply st d).aplic = s.aplic := rfl
@[simp] theorem State.reply_hports (s : State) (st : Nat) (d : List Byte) : (s.reply st d).hports = s.hports := rfl
@[simp] theorem State.reply_msixOut (s : State) (st : Nat) (d : List Byte) : (s.reply st d).msixOut = s.msixOut := rfl
@[simp] theorem State.reply_blocked (s : State) (st : Nat) (d : List Byte) : (s.reply st d).blocked = s.blocked := rfl
@[simp] theorem State.reply_bar0Blocked (s : State) (st : Nat) (d : List Byte) : (s.reply st d).bar0Blocked = s.bar0Blocked := rfl
@[simp] theorem State.reply_fastStopped (s : State) (st : Nat) (d : List Byte) : (s.reply st d).fastStopped = s.fastStopped := rfl
@[simp] theorem State.reply_fabTx (s : State) (st : Nat) (d : List Byte) : (s.reply st d).fabTx = s.fabTx := rfl
@[simp] theorem State.reply_fabWait (s : State) (st : Nat) (d : List Byte) : (s.reply st d).fabWait = s.fabWait := rfl
@[simp] theorem State.reply_fabRsv (s : State) (st : Nat) (d : List Byte) : (s.reply st d).fabRsv = s.fabRsv := rfl
@[simp] theorem State.reply_syncHeld (s : State) (st : Nat) (d : List Byte) : (s.reply st d).syncHeld = s.syncHeld := rfl
@[simp] theorem State.reply_fabReqs (s : State) (st : Nat) (d : List Byte) : (s.reply st d).fabReqs = s.fabReqs := rfl
@[simp] theorem State.reply_carryRecs (s : State) (st : Nat) (d : List Byte) : (s.reply st d).carryRecs = s.carryRecs := rfl
@[simp] theorem State.reply_place (s : State) (st : Nat) (d : List Byte) : (s.reply st d).place = s.place := rfl
@[simp] theorem State.reply_sds (s : State) (st : Nat) (d : List Byte) : (s.reply st d).sds = s.sds := rfl
@[simp] theorem State.reply_sdNum (s : State) (st : Nat) (d : List Byte) : (s.reply st d).sdNum = s.sdNum := rfl
@[simp] theorem State.reply_sdLast (s : State) (st : Nat) (d : List Byte) : (s.reply st d).sdLast = s.sdLast := rfl
@[simp] theorem State.reply_sdRecent (s : State) (st : Nat) (d : List Byte) : (s.reply st d).sdRecent = s.sdRecent := rfl
@[simp] theorem State.reply_carve (s : State) (st : Nat) (d : List Byte) : (s.reply st d).carve = s.carve := rfl
@[simp] theorem State.reply_hampers (s : State) (st : Nat) (d : List Byte) : (s.reply st d).hampers = s.hampers := rfl
@[simp] theorem State.reply_burstPoison (s : State) (st : Nat) (d : List Byte) : (s.reply st d).burstPoison = s.burstPoison := rfl
@[simp] theorem State.reply_symErr (s : State) (st : Nat) (d : List Byte) : (s.reply st d).symErr = s.symErr := rfl
@[simp] theorem State.reply_rows (s : State) (st : Nat) (d : List Byte) : (s.reply st d).rows = s.rows := rfl
@[simp] theorem State.reply_hardDone (s : State) (st : Nat) (d : List Byte) : (s.reply st d).hardDone = s.hardDone := rfl
@[simp] theorem State.reply_retired (s : State) (st : Nat) (d : List Byte) : (s.reply st d).retired = s.retired := rfl
@[simp] theorem State.reply_bankUsed (s : State) (st : Nat) (d : List Byte) : (s.reply st d).bankUsed = s.bankUsed := rfl
@[simp] theorem State.reply_repairing (s : State) (st : Nat) (d : List Byte) : (s.reply st d).repairing = s.repairing := rfl
@[simp] theorem State.reply_scrubNext (s : State) (st : Nat) (d : List Byte) : (s.reply st d).scrubNext = s.scrubNext := rfl
@[simp] theorem State.reply_tgStop (s : State) (st : Nat) (d : List Byte) : (s.reply st d).tgStop = s.tgStop := rfl
@[simp] theorem State.reply_l2 (s : State) (st : Nat) (d : List Byte) : (s.reply st d).l2 = s.l2 := rfl
@[simp] theorem State.reply_dirs (s : State) (st : Nat) (d : List Byte) : (s.reply st d).dirs = s.dirs := rfl
@[simp] theorem State.reply_creqs (s : State) (st : Nat) (d : List Byte) : (s.reply st d).creqs = s.creqs := rfl
@[simp] theorem State.reply_agedQ (s : State) (st : Nat) (d : List Byte) : (s.reply st d).agedQ = s.agedQ := rfl
@[simp] theorem State.reply_evicts (s : State) (st : Nat) (d : List Byte) : (s.reply st d).evicts = s.evicts := rfl
@[simp] theorem State.reply_txns (s : State) (st : Nat) (d : List Byte) : (s.reply st d).txns = s.txns := rfl
@[simp] theorem State.reply_msgs (s : State) (st : Nat) (d : List Byte) : (s.reply st d).msgs = s.msgs := rfl
@[simp] theorem State.reply_homeQ (s : State) (st : Nat) (d : List Byte) : (s.reply st d).homeQ = s.homeQ := rfl
@[simp] theorem State.reply_tallyQ (s : State) (st : Nat) (d : List Byte) : (s.reply st d).tallyQ = s.tallyQ := rfl
@[simp] theorem State.reply_hcores (s : State) (st : Nat) (d : List Byte) : (s.reply st d).hcores = s.hcores := rfl
@[simp] theorem State.reply_dmActive (s : State) (st : Nat) (d : List Byte) : (s.reply st d).dmActive = s.dmActive := rfl
@[simp] theorem State.reply_seams (s : State) (st : Nat) (d : List Byte) : (s.reply st d).seams = s.seams := rfl
@[simp] theorem State.reply_fports (s : State) (st : Nat) (d : List Byte) : (s.reply st d).fports = s.fports := rfl
@[simp] theorem State.reply_inReqs (s : State) (st : Nat) (d : List Byte) : (s.reply st d).inReqs = s.inReqs := rfl
@[simp] theorem State.reply_colls (s : State) (st : Nat) (d : List Byte) : (s.reply st d).colls = s.colls := rfl
@[simp] theorem State.reply_collEarly (s : State) (st : Nat) (d : List Byte) : (s.reply st d).collEarly = s.collEarly := rfl
@[simp] theorem State.reply_rings (s : State) (st : Nat) (d : List Byte) : (s.reply st d).rings = s.rings := rfl
@[simp] theorem State.reply_cmds (s : State) (st : Nat) (d : List Byte) : (s.reply st d).cmds = s.cmds := rfl
@[simp] theorem State.reply_ringTurn (s : State) (st : Nat) (d : List Byte) : (s.reply st d).ringTurn = s.ringTurn := rfl
@[simp] theorem State.reply_drvMsgs (s : State) (st : Nat) (d : List Byte) : (s.reply st d).drvMsgs = s.drvMsgs := rfl
@[simp] theorem State.reply_heartbeat (s : State) (st : Nat) (d : List Byte) : (s.reply st d).heartbeat = s.heartbeat := rfl
@[simp] theorem State.reply_plan (s : State) (st : Nat) (d : List Byte) : (s.reply st d).plan = s.plan := rfl
@[simp] theorem State.reply_planRun (s : State) (st : Nat) (d : List Byte) : (s.reply st d).planRun = s.planRun := rfl
@[simp] theorem State.reply_gov (s : State) (st : Nat) (d : List Byte) : (s.reply st d).gov = s.gov := rfl
@[simp] theorem State.reply_domQ (s : State) (st : Nat) (d : List Byte) : (s.reply st d).domQ = s.domQ := rfl
@[simp] theorem State.reply_pdBroken (s : State) (st : Nat) (d : List Byte) : (s.reply st d).pdBroken = s.pdBroken := rfl
@[simp] theorem State.reply_t0 (s : State) (st : Nat) (d : List Byte) : (s.reply st d).t0 = s.t0 := rfl
@[simp] theorem State.reply_list (s : State) (st : Nat) (d : List Byte) : (s.reply st d).list = s.list := rfl
@[simp] theorem State.reply_flash (s : State) (st : Nat) (d : List Byte) : (s.reply st d).flash = s.flash := rfl
@[simp] theorem State.reply_chips (s : State) (st : Nat) (d : List Byte) : (s.reply st d).chips = s.chips := rfl
@[simp] theorem State.reply_upd (s : State) (st : Nat) (d : List Byte) : (s.reply st d).upd = s.upd := rfl
@[simp] theorem State.reply_job (s : State) (st : Nat) (d : List Byte) : (s.reply st d).job = s.job := rfl
@[simp] theorem State.reply_admitPorts (s : State) (st : Nat) (d : List Byte) : (s.reply st d).admitPorts = s.admitPorts := rfl
@[simp] theorem State.reply_tear (s : State) (st : Nat) (d : List Byte) : (s.reply st d).tear = s.tear := rfl
@[simp] theorem State.reply_slices (s : State) (st : Nat) (d : List Byte) : (s.reply st d).slices = s.slices := rfl
@[simp] theorem State.reply_residues (s : State) (st : Nat) (d : List Byte) : (s.reply st d).residues = s.residues := rfl
@[simp] theorem State.reply_sliceFirst (s : State) (st : Nat) (d : List Byte) : (s.reply st d).sliceFirst = s.sliceFirst := rfl
@[simp] theorem State.reply_pins (s : State) (st : Nat) (d : List Byte) : (s.reply st d).pins = s.pins := rfl
@[simp] theorem State.reply_held (s : State) (st : Nat) (d : List Byte) : (s.reply st d).held = s.held := rfl
@[simp] theorem State.reply_doeCount (s : State) (st : Nat) (d : List Byte) : (s.reply st d).doeCount = s.doeCount := rfl

/-! `sendInc` leaves every field but `incs`. -/
@[simp] theorem State.sendInc_pending (s : State) (i : Inc) : (s.sendInc i).pending = s.pending := rfl
@[simp] theorem State.sendInc_freeCtr (s : State) (i : Inc) : (s.sendInc i).freeCtr = s.freeCtr := rfl
@[simp] theorem State.sendInc_regs (s : State) (i : Inc) : (s.sendInc i).regs = s.regs := rfl
@[simp] theorem State.sendInc_plt (s : State) (i : Inc) : (s.sendInc i).plt = s.plt := rfl
@[simp] theorem State.sendInc_cellar (s : State) (i : Inc) : (s.sendInc i).cellar = s.cellar := rfl
@[simp] theorem State.sendInc_shelf (s : State) (i : Inc) : (s.sendInc i).shelf = s.shelf := rfl
@[simp] theorem State.sendInc_hostA (s : State) (i : Inc) : (s.sendInc i).hostA = s.hostA := rfl
@[simp] theorem State.sendInc_hostB (s : State) (i : Inc) : (s.sendInc i).hostB = s.hostB := rfl
@[simp] theorem State.sendInc_tiles (s : State) (i : Inc) : (s.sendInc i).tiles = s.tiles := rfl
@[simp] theorem State.sendInc_crates (s : State) (i : Inc) : (s.sendInc i).crates = s.crates := rfl
@[simp] theorem State.sendInc_gathered (s : State) (i : Inc) : (s.sendInc i).gathered = s.gathered := rfl
@[simp] theorem State.sendInc_seqCtr (s : State) (i : Inc) : (s.sendInc i).seqCtr = s.seqCtr := rfl
@[simp] theorem State.sendInc_strong (s : State) (i : Inc) : (s.sendInc i).strong = s.strong := rfl
@[simp] theorem State.sendInc_journal (s : State) (i : Inc) : (s.sendInc i).journal = s.journal := rfl
@[simp] theorem State.sendInc_aplic (s : State) (i : Inc) : (s.sendInc i).aplic = s.aplic := rfl
@[simp] theorem State.sendInc_hports (s : State) (i : Inc) : (s.sendInc i).hports = s.hports := rfl
@[simp] theorem State.sendInc_msixOut (s : State) (i : Inc) : (s.sendInc i).msixOut = s.msixOut := rfl
@[simp] theorem State.sendInc_blocked (s : State) (i : Inc) : (s.sendInc i).blocked = s.blocked := rfl
@[simp] theorem State.sendInc_bar0Blocked (s : State) (i : Inc) : (s.sendInc i).bar0Blocked = s.bar0Blocked := rfl
@[simp] theorem State.sendInc_fastStopped (s : State) (i : Inc) : (s.sendInc i).fastStopped = s.fastStopped := rfl
@[simp] theorem State.sendInc_fabTx (s : State) (i : Inc) : (s.sendInc i).fabTx = s.fabTx := rfl
@[simp] theorem State.sendInc_fabWait (s : State) (i : Inc) : (s.sendInc i).fabWait = s.fabWait := rfl
@[simp] theorem State.sendInc_fabRsv (s : State) (i : Inc) : (s.sendInc i).fabRsv = s.fabRsv := rfl
@[simp] theorem State.sendInc_syncHeld (s : State) (i : Inc) : (s.sendInc i).syncHeld = s.syncHeld := rfl
@[simp] theorem State.sendInc_fabReqs (s : State) (i : Inc) : (s.sendInc i).fabReqs = s.fabReqs := rfl
@[simp] theorem State.sendInc_carryRecs (s : State) (i : Inc) : (s.sendInc i).carryRecs = s.carryRecs := rfl
@[simp] theorem State.sendInc_place (s : State) (i : Inc) : (s.sendInc i).place = s.place := rfl
@[simp] theorem State.sendInc_answer (s : State) (i : Inc) : (s.sendInc i).answer = s.answer := rfl
@[simp] theorem State.sendInc_sds (s : State) (i : Inc) : (s.sendInc i).sds = s.sds := rfl
@[simp] theorem State.sendInc_sdNum (s : State) (i : Inc) : (s.sendInc i).sdNum = s.sdNum := rfl
@[simp] theorem State.sendInc_sdLast (s : State) (i : Inc) : (s.sendInc i).sdLast = s.sdLast := rfl
@[simp] theorem State.sendInc_sdRecent (s : State) (i : Inc) : (s.sendInc i).sdRecent = s.sdRecent := rfl
@[simp] theorem State.sendInc_carve (s : State) (i : Inc) : (s.sendInc i).carve = s.carve := rfl
@[simp] theorem State.sendInc_hampers (s : State) (i : Inc) : (s.sendInc i).hampers = s.hampers := rfl
@[simp] theorem State.sendInc_burstPoison (s : State) (i : Inc) : (s.sendInc i).burstPoison = s.burstPoison := rfl
@[simp] theorem State.sendInc_symErr (s : State) (i : Inc) : (s.sendInc i).symErr = s.symErr := rfl
@[simp] theorem State.sendInc_rows (s : State) (i : Inc) : (s.sendInc i).rows = s.rows := rfl
@[simp] theorem State.sendInc_hardDone (s : State) (i : Inc) : (s.sendInc i).hardDone = s.hardDone := rfl
@[simp] theorem State.sendInc_retired (s : State) (i : Inc) : (s.sendInc i).retired = s.retired := rfl
@[simp] theorem State.sendInc_bankUsed (s : State) (i : Inc) : (s.sendInc i).bankUsed = s.bankUsed := rfl
@[simp] theorem State.sendInc_repairing (s : State) (i : Inc) : (s.sendInc i).repairing = s.repairing := rfl
@[simp] theorem State.sendInc_scrubNext (s : State) (i : Inc) : (s.sendInc i).scrubNext = s.scrubNext := rfl
@[simp] theorem State.sendInc_tgStop (s : State) (i : Inc) : (s.sendInc i).tgStop = s.tgStop := rfl
@[simp] theorem State.sendInc_l2 (s : State) (i : Inc) : (s.sendInc i).l2 = s.l2 := rfl
@[simp] theorem State.sendInc_dirs (s : State) (i : Inc) : (s.sendInc i).dirs = s.dirs := rfl
@[simp] theorem State.sendInc_creqs (s : State) (i : Inc) : (s.sendInc i).creqs = s.creqs := rfl
@[simp] theorem State.sendInc_agedQ (s : State) (i : Inc) : (s.sendInc i).agedQ = s.agedQ := rfl
@[simp] theorem State.sendInc_evicts (s : State) (i : Inc) : (s.sendInc i).evicts = s.evicts := rfl
@[simp] theorem State.sendInc_txns (s : State) (i : Inc) : (s.sendInc i).txns = s.txns := rfl
@[simp] theorem State.sendInc_msgs (s : State) (i : Inc) : (s.sendInc i).msgs = s.msgs := rfl
@[simp] theorem State.sendInc_homeQ (s : State) (i : Inc) : (s.sendInc i).homeQ = s.homeQ := rfl
@[simp] theorem State.sendInc_tallyQ (s : State) (i : Inc) : (s.sendInc i).tallyQ = s.tallyQ := rfl
@[simp] theorem State.sendInc_hcores (s : State) (i : Inc) : (s.sendInc i).hcores = s.hcores := rfl
@[simp] theorem State.sendInc_dmActive (s : State) (i : Inc) : (s.sendInc i).dmActive = s.dmActive := rfl
@[simp] theorem State.sendInc_seams (s : State) (i : Inc) : (s.sendInc i).seams = s.seams := rfl
@[simp] theorem State.sendInc_fports (s : State) (i : Inc) : (s.sendInc i).fports = s.fports := rfl
@[simp] theorem State.sendInc_inReqs (s : State) (i : Inc) : (s.sendInc i).inReqs = s.inReqs := rfl
@[simp] theorem State.sendInc_colls (s : State) (i : Inc) : (s.sendInc i).colls = s.colls := rfl
@[simp] theorem State.sendInc_collEarly (s : State) (i : Inc) : (s.sendInc i).collEarly = s.collEarly := rfl
@[simp] theorem State.sendInc_rings (s : State) (i : Inc) : (s.sendInc i).rings = s.rings := rfl
@[simp] theorem State.sendInc_cmds (s : State) (i : Inc) : (s.sendInc i).cmds = s.cmds := rfl
@[simp] theorem State.sendInc_ringTurn (s : State) (i : Inc) : (s.sendInc i).ringTurn = s.ringTurn := rfl
@[simp] theorem State.sendInc_drvMsgs (s : State) (i : Inc) : (s.sendInc i).drvMsgs = s.drvMsgs := rfl
@[simp] theorem State.sendInc_heartbeat (s : State) (i : Inc) : (s.sendInc i).heartbeat = s.heartbeat := rfl
@[simp] theorem State.sendInc_plan (s : State) (i : Inc) : (s.sendInc i).plan = s.plan := rfl
@[simp] theorem State.sendInc_planRun (s : State) (i : Inc) : (s.sendInc i).planRun = s.planRun := rfl
@[simp] theorem State.sendInc_gov (s : State) (i : Inc) : (s.sendInc i).gov = s.gov := rfl
@[simp] theorem State.sendInc_domQ (s : State) (i : Inc) : (s.sendInc i).domQ = s.domQ := rfl
@[simp] theorem State.sendInc_pdBroken (s : State) (i : Inc) : (s.sendInc i).pdBroken = s.pdBroken := rfl
@[simp] theorem State.sendInc_t0 (s : State) (i : Inc) : (s.sendInc i).t0 = s.t0 := rfl
@[simp] theorem State.sendInc_list (s : State) (i : Inc) : (s.sendInc i).list = s.list := rfl
@[simp] theorem State.sendInc_flash (s : State) (i : Inc) : (s.sendInc i).flash = s.flash := rfl
@[simp] theorem State.sendInc_chips (s : State) (i : Inc) : (s.sendInc i).chips = s.chips := rfl
@[simp] theorem State.sendInc_upd (s : State) (i : Inc) : (s.sendInc i).upd = s.upd := rfl
@[simp] theorem State.sendInc_job (s : State) (i : Inc) : (s.sendInc i).job = s.job := rfl
@[simp] theorem State.sendInc_admitPorts (s : State) (i : Inc) : (s.sendInc i).admitPorts = s.admitPorts := rfl
@[simp] theorem State.sendInc_tear (s : State) (i : Inc) : (s.sendInc i).tear = s.tear := rfl
@[simp] theorem State.sendInc_slices (s : State) (i : Inc) : (s.sendInc i).slices = s.slices := rfl
@[simp] theorem State.sendInc_residues (s : State) (i : Inc) : (s.sendInc i).residues = s.residues := rfl
@[simp] theorem State.sendInc_sliceFirst (s : State) (i : Inc) : (s.sendInc i).sliceFirst = s.sliceFirst := rfl
@[simp] theorem State.sendInc_pins (s : State) (i : Inc) : (s.sendInc i).pins = s.pins := rfl
@[simp] theorem State.sendInc_held (s : State) (i : Inc) : (s.sendInc i).held = s.held := rfl
@[simp] theorem State.sendInc_doeCount (s : State) (i : Inc) : (s.sendInc i).doeCount = s.doeCount := rfl

/-! `sendMsg` leaves every field but `msgs`. -/
@[simp] theorem State.sendMsg_pending (s : State) (m : Msg) : (s.sendMsg m).pending = s.pending := rfl
@[simp] theorem State.sendMsg_freeCtr (s : State) (m : Msg) : (s.sendMsg m).freeCtr = s.freeCtr := rfl
@[simp] theorem State.sendMsg_regs (s : State) (m : Msg) : (s.sendMsg m).regs = s.regs := rfl
@[simp] theorem State.sendMsg_plt (s : State) (m : Msg) : (s.sendMsg m).plt = s.plt := rfl
@[simp] theorem State.sendMsg_cellar (s : State) (m : Msg) : (s.sendMsg m).cellar = s.cellar := rfl
@[simp] theorem State.sendMsg_shelf (s : State) (m : Msg) : (s.sendMsg m).shelf = s.shelf := rfl
@[simp] theorem State.sendMsg_hostA (s : State) (m : Msg) : (s.sendMsg m).hostA = s.hostA := rfl
@[simp] theorem State.sendMsg_hostB (s : State) (m : Msg) : (s.sendMsg m).hostB = s.hostB := rfl
@[simp] theorem State.sendMsg_tiles (s : State) (m : Msg) : (s.sendMsg m).tiles = s.tiles := rfl
@[simp] theorem State.sendMsg_crates (s : State) (m : Msg) : (s.sendMsg m).crates = s.crates := rfl
@[simp] theorem State.sendMsg_incs (s : State) (m : Msg) : (s.sendMsg m).incs = s.incs := rfl
@[simp] theorem State.sendMsg_gathered (s : State) (m : Msg) : (s.sendMsg m).gathered = s.gathered := rfl
@[simp] theorem State.sendMsg_seqCtr (s : State) (m : Msg) : (s.sendMsg m).seqCtr = s.seqCtr := rfl
@[simp] theorem State.sendMsg_strong (s : State) (m : Msg) : (s.sendMsg m).strong = s.strong := rfl
@[simp] theorem State.sendMsg_journal (s : State) (m : Msg) : (s.sendMsg m).journal = s.journal := rfl
@[simp] theorem State.sendMsg_aplic (s : State) (m : Msg) : (s.sendMsg m).aplic = s.aplic := rfl
@[simp] theorem State.sendMsg_hports (s : State) (m : Msg) : (s.sendMsg m).hports = s.hports := rfl
@[simp] theorem State.sendMsg_msixOut (s : State) (m : Msg) : (s.sendMsg m).msixOut = s.msixOut := rfl
@[simp] theorem State.sendMsg_blocked (s : State) (m : Msg) : (s.sendMsg m).blocked = s.blocked := rfl
@[simp] theorem State.sendMsg_bar0Blocked (s : State) (m : Msg) : (s.sendMsg m).bar0Blocked = s.bar0Blocked := rfl
@[simp] theorem State.sendMsg_fastStopped (s : State) (m : Msg) : (s.sendMsg m).fastStopped = s.fastStopped := rfl
@[simp] theorem State.sendMsg_fabTx (s : State) (m : Msg) : (s.sendMsg m).fabTx = s.fabTx := rfl
@[simp] theorem State.sendMsg_fabWait (s : State) (m : Msg) : (s.sendMsg m).fabWait = s.fabWait := rfl
@[simp] theorem State.sendMsg_fabRsv (s : State) (m : Msg) : (s.sendMsg m).fabRsv = s.fabRsv := rfl
@[simp] theorem State.sendMsg_syncHeld (s : State) (m : Msg) : (s.sendMsg m).syncHeld = s.syncHeld := rfl
@[simp] theorem State.sendMsg_fabReqs (s : State) (m : Msg) : (s.sendMsg m).fabReqs = s.fabReqs := rfl
@[simp] theorem State.sendMsg_carryRecs (s : State) (m : Msg) : (s.sendMsg m).carryRecs = s.carryRecs := rfl
@[simp] theorem State.sendMsg_place (s : State) (m : Msg) : (s.sendMsg m).place = s.place := rfl
@[simp] theorem State.sendMsg_answer (s : State) (m : Msg) : (s.sendMsg m).answer = s.answer := rfl
@[simp] theorem State.sendMsg_sds (s : State) (m : Msg) : (s.sendMsg m).sds = s.sds := rfl
@[simp] theorem State.sendMsg_sdNum (s : State) (m : Msg) : (s.sendMsg m).sdNum = s.sdNum := rfl
@[simp] theorem State.sendMsg_sdLast (s : State) (m : Msg) : (s.sendMsg m).sdLast = s.sdLast := rfl
@[simp] theorem State.sendMsg_sdRecent (s : State) (m : Msg) : (s.sendMsg m).sdRecent = s.sdRecent := rfl
@[simp] theorem State.sendMsg_carve (s : State) (m : Msg) : (s.sendMsg m).carve = s.carve := rfl
@[simp] theorem State.sendMsg_hampers (s : State) (m : Msg) : (s.sendMsg m).hampers = s.hampers := rfl
@[simp] theorem State.sendMsg_burstPoison (s : State) (m : Msg) : (s.sendMsg m).burstPoison = s.burstPoison := rfl
@[simp] theorem State.sendMsg_symErr (s : State) (m : Msg) : (s.sendMsg m).symErr = s.symErr := rfl
@[simp] theorem State.sendMsg_rows (s : State) (m : Msg) : (s.sendMsg m).rows = s.rows := rfl
@[simp] theorem State.sendMsg_hardDone (s : State) (m : Msg) : (s.sendMsg m).hardDone = s.hardDone := rfl
@[simp] theorem State.sendMsg_retired (s : State) (m : Msg) : (s.sendMsg m).retired = s.retired := rfl
@[simp] theorem State.sendMsg_bankUsed (s : State) (m : Msg) : (s.sendMsg m).bankUsed = s.bankUsed := rfl
@[simp] theorem State.sendMsg_repairing (s : State) (m : Msg) : (s.sendMsg m).repairing = s.repairing := rfl
@[simp] theorem State.sendMsg_scrubNext (s : State) (m : Msg) : (s.sendMsg m).scrubNext = s.scrubNext := rfl
@[simp] theorem State.sendMsg_tgStop (s : State) (m : Msg) : (s.sendMsg m).tgStop = s.tgStop := rfl
@[simp] theorem State.sendMsg_l2 (s : State) (m : Msg) : (s.sendMsg m).l2 = s.l2 := rfl
@[simp] theorem State.sendMsg_dirs (s : State) (m : Msg) : (s.sendMsg m).dirs = s.dirs := rfl
@[simp] theorem State.sendMsg_creqs (s : State) (m : Msg) : (s.sendMsg m).creqs = s.creqs := rfl
@[simp] theorem State.sendMsg_agedQ (s : State) (m : Msg) : (s.sendMsg m).agedQ = s.agedQ := rfl
@[simp] theorem State.sendMsg_evicts (s : State) (m : Msg) : (s.sendMsg m).evicts = s.evicts := rfl
@[simp] theorem State.sendMsg_txns (s : State) (m : Msg) : (s.sendMsg m).txns = s.txns := rfl
@[simp] theorem State.sendMsg_homeQ (s : State) (m : Msg) : (s.sendMsg m).homeQ = s.homeQ := rfl
@[simp] theorem State.sendMsg_tallyQ (s : State) (m : Msg) : (s.sendMsg m).tallyQ = s.tallyQ := rfl
@[simp] theorem State.sendMsg_hcores (s : State) (m : Msg) : (s.sendMsg m).hcores = s.hcores := rfl
@[simp] theorem State.sendMsg_dmActive (s : State) (m : Msg) : (s.sendMsg m).dmActive = s.dmActive := rfl
@[simp] theorem State.sendMsg_seams (s : State) (m : Msg) : (s.sendMsg m).seams = s.seams := rfl
@[simp] theorem State.sendMsg_fports (s : State) (m : Msg) : (s.sendMsg m).fports = s.fports := rfl
@[simp] theorem State.sendMsg_inReqs (s : State) (m : Msg) : (s.sendMsg m).inReqs = s.inReqs := rfl
@[simp] theorem State.sendMsg_colls (s : State) (m : Msg) : (s.sendMsg m).colls = s.colls := rfl
@[simp] theorem State.sendMsg_collEarly (s : State) (m : Msg) : (s.sendMsg m).collEarly = s.collEarly := rfl
@[simp] theorem State.sendMsg_rings (s : State) (m : Msg) : (s.sendMsg m).rings = s.rings := rfl
@[simp] theorem State.sendMsg_cmds (s : State) (m : Msg) : (s.sendMsg m).cmds = s.cmds := rfl
@[simp] theorem State.sendMsg_ringTurn (s : State) (m : Msg) : (s.sendMsg m).ringTurn = s.ringTurn := rfl
@[simp] theorem State.sendMsg_drvMsgs (s : State) (m : Msg) : (s.sendMsg m).drvMsgs = s.drvMsgs := rfl
@[simp] theorem State.sendMsg_heartbeat (s : State) (m : Msg) : (s.sendMsg m).heartbeat = s.heartbeat := rfl
@[simp] theorem State.sendMsg_plan (s : State) (m : Msg) : (s.sendMsg m).plan = s.plan := rfl
@[simp] theorem State.sendMsg_planRun (s : State) (m : Msg) : (s.sendMsg m).planRun = s.planRun := rfl
@[simp] theorem State.sendMsg_gov (s : State) (m : Msg) : (s.sendMsg m).gov = s.gov := rfl
@[simp] theorem State.sendMsg_domQ (s : State) (m : Msg) : (s.sendMsg m).domQ = s.domQ := rfl
@[simp] theorem State.sendMsg_pdBroken (s : State) (m : Msg) : (s.sendMsg m).pdBroken = s.pdBroken := rfl
@[simp] theorem State.sendMsg_t0 (s : State) (m : Msg) : (s.sendMsg m).t0 = s.t0 := rfl
@[simp] theorem State.sendMsg_list (s : State) (m : Msg) : (s.sendMsg m).list = s.list := rfl
@[simp] theorem State.sendMsg_flash (s : State) (m : Msg) : (s.sendMsg m).flash = s.flash := rfl
@[simp] theorem State.sendMsg_chips (s : State) (m : Msg) : (s.sendMsg m).chips = s.chips := rfl
@[simp] theorem State.sendMsg_upd (s : State) (m : Msg) : (s.sendMsg m).upd = s.upd := rfl
@[simp] theorem State.sendMsg_job (s : State) (m : Msg) : (s.sendMsg m).job = s.job := rfl
@[simp] theorem State.sendMsg_admitPorts (s : State) (m : Msg) : (s.sendMsg m).admitPorts = s.admitPorts := rfl
@[simp] theorem State.sendMsg_tear (s : State) (m : Msg) : (s.sendMsg m).tear = s.tear := rfl
@[simp] theorem State.sendMsg_slices (s : State) (m : Msg) : (s.sendMsg m).slices = s.slices := rfl
@[simp] theorem State.sendMsg_residues (s : State) (m : Msg) : (s.sendMsg m).residues = s.residues := rfl
@[simp] theorem State.sendMsg_sliceFirst (s : State) (m : Msg) : (s.sendMsg m).sliceFirst = s.sliceFirst := rfl
@[simp] theorem State.sendMsg_pins (s : State) (m : Msg) : (s.sendMsg m).pins = s.pins := rfl
@[simp] theorem State.sendMsg_held (s : State) (m : Msg) : (s.sendMsg m).held = s.held := rfl
@[simp] theorem State.sendMsg_doeCount (s : State) (m : Msg) : (s.sendMsg m).doeCount = s.doeCount := rfl

/-! `draw` leaves every field but `freeCtr`. -/
@[simp] theorem State.draw_pending (s : State) : (s.draw.2).pending = s.pending := rfl
@[simp] theorem State.draw_regs (s : State) : (s.draw.2).regs = s.regs := rfl
@[simp] theorem State.draw_plt (s : State) : (s.draw.2).plt = s.plt := rfl
@[simp] theorem State.draw_cellar (s : State) : (s.draw.2).cellar = s.cellar := rfl
@[simp] theorem State.draw_shelf (s : State) : (s.draw.2).shelf = s.shelf := rfl
@[simp] theorem State.draw_hostA (s : State) : (s.draw.2).hostA = s.hostA := rfl
@[simp] theorem State.draw_hostB (s : State) : (s.draw.2).hostB = s.hostB := rfl
@[simp] theorem State.draw_tiles (s : State) : (s.draw.2).tiles = s.tiles := rfl
@[simp] theorem State.draw_crates (s : State) : (s.draw.2).crates = s.crates := rfl
@[simp] theorem State.draw_incs (s : State) : (s.draw.2).incs = s.incs := rfl
@[simp] theorem State.draw_gathered (s : State) : (s.draw.2).gathered = s.gathered := rfl
@[simp] theorem State.draw_seqCtr (s : State) : (s.draw.2).seqCtr = s.seqCtr := rfl
@[simp] theorem State.draw_strong (s : State) : (s.draw.2).strong = s.strong := rfl
@[simp] theorem State.draw_journal (s : State) : (s.draw.2).journal = s.journal := rfl
@[simp] theorem State.draw_aplic (s : State) : (s.draw.2).aplic = s.aplic := rfl
@[simp] theorem State.draw_hports (s : State) : (s.draw.2).hports = s.hports := rfl
@[simp] theorem State.draw_msixOut (s : State) : (s.draw.2).msixOut = s.msixOut := rfl
@[simp] theorem State.draw_blocked (s : State) : (s.draw.2).blocked = s.blocked := rfl
@[simp] theorem State.draw_bar0Blocked (s : State) : (s.draw.2).bar0Blocked = s.bar0Blocked := rfl
@[simp] theorem State.draw_fastStopped (s : State) : (s.draw.2).fastStopped = s.fastStopped := rfl
@[simp] theorem State.draw_fabTx (s : State) : (s.draw.2).fabTx = s.fabTx := rfl
@[simp] theorem State.draw_fabWait (s : State) : (s.draw.2).fabWait = s.fabWait := rfl
@[simp] theorem State.draw_fabRsv (s : State) : (s.draw.2).fabRsv = s.fabRsv := rfl
@[simp] theorem State.draw_syncHeld (s : State) : (s.draw.2).syncHeld = s.syncHeld := rfl
@[simp] theorem State.draw_fabReqs (s : State) : (s.draw.2).fabReqs = s.fabReqs := rfl
@[simp] theorem State.draw_carryRecs (s : State) : (s.draw.2).carryRecs = s.carryRecs := rfl
@[simp] theorem State.draw_place (s : State) : (s.draw.2).place = s.place := rfl
@[simp] theorem State.draw_answer (s : State) : (s.draw.2).answer = s.answer := rfl
@[simp] theorem State.draw_sds (s : State) : (s.draw.2).sds = s.sds := rfl
@[simp] theorem State.draw_sdNum (s : State) : (s.draw.2).sdNum = s.sdNum := rfl
@[simp] theorem State.draw_sdLast (s : State) : (s.draw.2).sdLast = s.sdLast := rfl
@[simp] theorem State.draw_sdRecent (s : State) : (s.draw.2).sdRecent = s.sdRecent := rfl
@[simp] theorem State.draw_carve (s : State) : (s.draw.2).carve = s.carve := rfl
@[simp] theorem State.draw_hampers (s : State) : (s.draw.2).hampers = s.hampers := rfl
@[simp] theorem State.draw_burstPoison (s : State) : (s.draw.2).burstPoison = s.burstPoison := rfl
@[simp] theorem State.draw_symErr (s : State) : (s.draw.2).symErr = s.symErr := rfl
@[simp] theorem State.draw_rows (s : State) : (s.draw.2).rows = s.rows := rfl
@[simp] theorem State.draw_hardDone (s : State) : (s.draw.2).hardDone = s.hardDone := rfl
@[simp] theorem State.draw_retired (s : State) : (s.draw.2).retired = s.retired := rfl
@[simp] theorem State.draw_bankUsed (s : State) : (s.draw.2).bankUsed = s.bankUsed := rfl
@[simp] theorem State.draw_repairing (s : State) : (s.draw.2).repairing = s.repairing := rfl
@[simp] theorem State.draw_scrubNext (s : State) : (s.draw.2).scrubNext = s.scrubNext := rfl
@[simp] theorem State.draw_tgStop (s : State) : (s.draw.2).tgStop = s.tgStop := rfl
@[simp] theorem State.draw_l2 (s : State) : (s.draw.2).l2 = s.l2 := rfl
@[simp] theorem State.draw_dirs (s : State) : (s.draw.2).dirs = s.dirs := rfl
@[simp] theorem State.draw_creqs (s : State) : (s.draw.2).creqs = s.creqs := rfl
@[simp] theorem State.draw_agedQ (s : State) : (s.draw.2).agedQ = s.agedQ := rfl
@[simp] theorem State.draw_evicts (s : State) : (s.draw.2).evicts = s.evicts := rfl
@[simp] theorem State.draw_txns (s : State) : (s.draw.2).txns = s.txns := rfl
@[simp] theorem State.draw_msgs (s : State) : (s.draw.2).msgs = s.msgs := rfl
@[simp] theorem State.draw_homeQ (s : State) : (s.draw.2).homeQ = s.homeQ := rfl
@[simp] theorem State.draw_tallyQ (s : State) : (s.draw.2).tallyQ = s.tallyQ := rfl
@[simp] theorem State.draw_hcores (s : State) : (s.draw.2).hcores = s.hcores := rfl
@[simp] theorem State.draw_dmActive (s : State) : (s.draw.2).dmActive = s.dmActive := rfl
@[simp] theorem State.draw_seams (s : State) : (s.draw.2).seams = s.seams := rfl
@[simp] theorem State.draw_fports (s : State) : (s.draw.2).fports = s.fports := rfl
@[simp] theorem State.draw_inReqs (s : State) : (s.draw.2).inReqs = s.inReqs := rfl
@[simp] theorem State.draw_colls (s : State) : (s.draw.2).colls = s.colls := rfl
@[simp] theorem State.draw_collEarly (s : State) : (s.draw.2).collEarly = s.collEarly := rfl
@[simp] theorem State.draw_rings (s : State) : (s.draw.2).rings = s.rings := rfl
@[simp] theorem State.draw_cmds (s : State) : (s.draw.2).cmds = s.cmds := rfl
@[simp] theorem State.draw_ringTurn (s : State) : (s.draw.2).ringTurn = s.ringTurn := rfl
@[simp] theorem State.draw_drvMsgs (s : State) : (s.draw.2).drvMsgs = s.drvMsgs := rfl
@[simp] theorem State.draw_heartbeat (s : State) : (s.draw.2).heartbeat = s.heartbeat := rfl
@[simp] theorem State.draw_plan (s : State) : (s.draw.2).plan = s.plan := rfl
@[simp] theorem State.draw_planRun (s : State) : (s.draw.2).planRun = s.planRun := rfl
@[simp] theorem State.draw_gov (s : State) : (s.draw.2).gov = s.gov := rfl
@[simp] theorem State.draw_domQ (s : State) : (s.draw.2).domQ = s.domQ := rfl
@[simp] theorem State.draw_pdBroken (s : State) : (s.draw.2).pdBroken = s.pdBroken := rfl
@[simp] theorem State.draw_t0 (s : State) : (s.draw.2).t0 = s.t0 := rfl
@[simp] theorem State.draw_list (s : State) : (s.draw.2).list = s.list := rfl
@[simp] theorem State.draw_flash (s : State) : (s.draw.2).flash = s.flash := rfl
@[simp] theorem State.draw_chips (s : State) : (s.draw.2).chips = s.chips := rfl
@[simp] theorem State.draw_upd (s : State) : (s.draw.2).upd = s.upd := rfl
@[simp] theorem State.draw_job (s : State) : (s.draw.2).job = s.job := rfl
@[simp] theorem State.draw_admitPorts (s : State) : (s.draw.2).admitPorts = s.admitPorts := rfl
@[simp] theorem State.draw_tear (s : State) : (s.draw.2).tear = s.tear := rfl
@[simp] theorem State.draw_slices (s : State) : (s.draw.2).slices = s.slices := rfl
@[simp] theorem State.draw_residues (s : State) : (s.draw.2).residues = s.residues := rfl
@[simp] theorem State.draw_sliceFirst (s : State) : (s.draw.2).sliceFirst = s.sliceFirst := rfl
@[simp] theorem State.draw_pins (s : State) : (s.draw.2).pins = s.pins := rfl
@[simp] theorem State.draw_held (s : State) : (s.draw.2).held = s.held := rfl
@[simp] theorem State.draw_doeCount (s : State) : (s.draw.2).doeCount = s.doeCount := rfl

/-! `raise` leaves every field but `gathered`. -/
@[simp] theorem State.raise_pending (s : State) (c kd ix : Nat) (dt : List Byte) : (s.raise c kd ix dt).pending = s.pending := rfl
@[simp] theorem State.raise_freeCtr (s : State) (c kd ix : Nat) (dt : List Byte) : (s.raise c kd ix dt).freeCtr = s.freeCtr := rfl
@[simp] theorem State.raise_regs (s : State) (c kd ix : Nat) (dt : List Byte) : (s.raise c kd ix dt).regs = s.regs := rfl
@[simp] theorem State.raise_plt (s : State) (c kd ix : Nat) (dt : List Byte) : (s.raise c kd ix dt).plt = s.plt := rfl
@[simp] theorem State.raise_cellar (s : State) (c kd ix : Nat) (dt : List Byte) : (s.raise c kd ix dt).cellar = s.cellar := rfl
@[simp] theorem State.raise_shelf (s : State) (c kd ix : Nat) (dt : List Byte) : (s.raise c kd ix dt).shelf = s.shelf := rfl
@[simp] theorem State.raise_hostA (s : State) (c kd ix : Nat) (dt : List Byte) : (s.raise c kd ix dt).hostA = s.hostA := rfl
@[simp] theorem State.raise_hostB (s : State) (c kd ix : Nat) (dt : List Byte) : (s.raise c kd ix dt).hostB = s.hostB := rfl
@[simp] theorem State.raise_tiles (s : State) (c kd ix : Nat) (dt : List Byte) : (s.raise c kd ix dt).tiles = s.tiles := rfl
@[simp] theorem State.raise_crates (s : State) (c kd ix : Nat) (dt : List Byte) : (s.raise c kd ix dt).crates = s.crates := rfl
@[simp] theorem State.raise_incs (s : State) (c kd ix : Nat) (dt : List Byte) : (s.raise c kd ix dt).incs = s.incs := rfl
@[simp] theorem State.raise_seqCtr (s : State) (c kd ix : Nat) (dt : List Byte) : (s.raise c kd ix dt).seqCtr = s.seqCtr := rfl
@[simp] theorem State.raise_strong (s : State) (c kd ix : Nat) (dt : List Byte) : (s.raise c kd ix dt).strong = s.strong := rfl
@[simp] theorem State.raise_journal (s : State) (c kd ix : Nat) (dt : List Byte) : (s.raise c kd ix dt).journal = s.journal := rfl
@[simp] theorem State.raise_aplic (s : State) (c kd ix : Nat) (dt : List Byte) : (s.raise c kd ix dt).aplic = s.aplic := rfl
@[simp] theorem State.raise_hports (s : State) (c kd ix : Nat) (dt : List Byte) : (s.raise c kd ix dt).hports = s.hports := rfl
@[simp] theorem State.raise_msixOut (s : State) (c kd ix : Nat) (dt : List Byte) : (s.raise c kd ix dt).msixOut = s.msixOut := rfl
@[simp] theorem State.raise_blocked (s : State) (c kd ix : Nat) (dt : List Byte) : (s.raise c kd ix dt).blocked = s.blocked := rfl
@[simp] theorem State.raise_bar0Blocked (s : State) (c kd ix : Nat) (dt : List Byte) : (s.raise c kd ix dt).bar0Blocked = s.bar0Blocked := rfl
@[simp] theorem State.raise_fastStopped (s : State) (c kd ix : Nat) (dt : List Byte) : (s.raise c kd ix dt).fastStopped = s.fastStopped := rfl
@[simp] theorem State.raise_fabTx (s : State) (c kd ix : Nat) (dt : List Byte) : (s.raise c kd ix dt).fabTx = s.fabTx := rfl
@[simp] theorem State.raise_fabWait (s : State) (c kd ix : Nat) (dt : List Byte) : (s.raise c kd ix dt).fabWait = s.fabWait := rfl
@[simp] theorem State.raise_fabRsv (s : State) (c kd ix : Nat) (dt : List Byte) : (s.raise c kd ix dt).fabRsv = s.fabRsv := rfl
@[simp] theorem State.raise_syncHeld (s : State) (c kd ix : Nat) (dt : List Byte) : (s.raise c kd ix dt).syncHeld = s.syncHeld := rfl
@[simp] theorem State.raise_fabReqs (s : State) (c kd ix : Nat) (dt : List Byte) : (s.raise c kd ix dt).fabReqs = s.fabReqs := rfl
@[simp] theorem State.raise_carryRecs (s : State) (c kd ix : Nat) (dt : List Byte) : (s.raise c kd ix dt).carryRecs = s.carryRecs := rfl
@[simp] theorem State.raise_place (s : State) (c kd ix : Nat) (dt : List Byte) : (s.raise c kd ix dt).place = s.place := rfl
@[simp] theorem State.raise_answer (s : State) (c kd ix : Nat) (dt : List Byte) : (s.raise c kd ix dt).answer = s.answer := rfl
@[simp] theorem State.raise_sds (s : State) (c kd ix : Nat) (dt : List Byte) : (s.raise c kd ix dt).sds = s.sds := rfl
@[simp] theorem State.raise_sdNum (s : State) (c kd ix : Nat) (dt : List Byte) : (s.raise c kd ix dt).sdNum = s.sdNum := rfl
@[simp] theorem State.raise_sdLast (s : State) (c kd ix : Nat) (dt : List Byte) : (s.raise c kd ix dt).sdLast = s.sdLast := rfl
@[simp] theorem State.raise_sdRecent (s : State) (c kd ix : Nat) (dt : List Byte) : (s.raise c kd ix dt).sdRecent = s.sdRecent := rfl
@[simp] theorem State.raise_carve (s : State) (c kd ix : Nat) (dt : List Byte) : (s.raise c kd ix dt).carve = s.carve := rfl
@[simp] theorem State.raise_hampers (s : State) (c kd ix : Nat) (dt : List Byte) : (s.raise c kd ix dt).hampers = s.hampers := rfl
@[simp] theorem State.raise_burstPoison (s : State) (c kd ix : Nat) (dt : List Byte) : (s.raise c kd ix dt).burstPoison = s.burstPoison := rfl
@[simp] theorem State.raise_symErr (s : State) (c kd ix : Nat) (dt : List Byte) : (s.raise c kd ix dt).symErr = s.symErr := rfl
@[simp] theorem State.raise_rows (s : State) (c kd ix : Nat) (dt : List Byte) : (s.raise c kd ix dt).rows = s.rows := rfl
@[simp] theorem State.raise_hardDone (s : State) (c kd ix : Nat) (dt : List Byte) : (s.raise c kd ix dt).hardDone = s.hardDone := rfl
@[simp] theorem State.raise_retired (s : State) (c kd ix : Nat) (dt : List Byte) : (s.raise c kd ix dt).retired = s.retired := rfl
@[simp] theorem State.raise_bankUsed (s : State) (c kd ix : Nat) (dt : List Byte) : (s.raise c kd ix dt).bankUsed = s.bankUsed := rfl
@[simp] theorem State.raise_repairing (s : State) (c kd ix : Nat) (dt : List Byte) : (s.raise c kd ix dt).repairing = s.repairing := rfl
@[simp] theorem State.raise_scrubNext (s : State) (c kd ix : Nat) (dt : List Byte) : (s.raise c kd ix dt).scrubNext = s.scrubNext := rfl
@[simp] theorem State.raise_tgStop (s : State) (c kd ix : Nat) (dt : List Byte) : (s.raise c kd ix dt).tgStop = s.tgStop := rfl
@[simp] theorem State.raise_l2 (s : State) (c kd ix : Nat) (dt : List Byte) : (s.raise c kd ix dt).l2 = s.l2 := rfl
@[simp] theorem State.raise_dirs (s : State) (c kd ix : Nat) (dt : List Byte) : (s.raise c kd ix dt).dirs = s.dirs := rfl
@[simp] theorem State.raise_creqs (s : State) (c kd ix : Nat) (dt : List Byte) : (s.raise c kd ix dt).creqs = s.creqs := rfl
@[simp] theorem State.raise_agedQ (s : State) (c kd ix : Nat) (dt : List Byte) : (s.raise c kd ix dt).agedQ = s.agedQ := rfl
@[simp] theorem State.raise_evicts (s : State) (c kd ix : Nat) (dt : List Byte) : (s.raise c kd ix dt).evicts = s.evicts := rfl
@[simp] theorem State.raise_txns (s : State) (c kd ix : Nat) (dt : List Byte) : (s.raise c kd ix dt).txns = s.txns := rfl
@[simp] theorem State.raise_msgs (s : State) (c kd ix : Nat) (dt : List Byte) : (s.raise c kd ix dt).msgs = s.msgs := rfl
@[simp] theorem State.raise_homeQ (s : State) (c kd ix : Nat) (dt : List Byte) : (s.raise c kd ix dt).homeQ = s.homeQ := rfl
@[simp] theorem State.raise_tallyQ (s : State) (c kd ix : Nat) (dt : List Byte) : (s.raise c kd ix dt).tallyQ = s.tallyQ := rfl
@[simp] theorem State.raise_hcores (s : State) (c kd ix : Nat) (dt : List Byte) : (s.raise c kd ix dt).hcores = s.hcores := rfl
@[simp] theorem State.raise_dmActive (s : State) (c kd ix : Nat) (dt : List Byte) : (s.raise c kd ix dt).dmActive = s.dmActive := rfl
@[simp] theorem State.raise_seams (s : State) (c kd ix : Nat) (dt : List Byte) : (s.raise c kd ix dt).seams = s.seams := rfl
@[simp] theorem State.raise_fports (s : State) (c kd ix : Nat) (dt : List Byte) : (s.raise c kd ix dt).fports = s.fports := rfl
@[simp] theorem State.raise_inReqs (s : State) (c kd ix : Nat) (dt : List Byte) : (s.raise c kd ix dt).inReqs = s.inReqs := rfl
@[simp] theorem State.raise_colls (s : State) (c kd ix : Nat) (dt : List Byte) : (s.raise c kd ix dt).colls = s.colls := rfl
@[simp] theorem State.raise_collEarly (s : State) (c kd ix : Nat) (dt : List Byte) : (s.raise c kd ix dt).collEarly = s.collEarly := rfl
@[simp] theorem State.raise_rings (s : State) (c kd ix : Nat) (dt : List Byte) : (s.raise c kd ix dt).rings = s.rings := rfl
@[simp] theorem State.raise_cmds (s : State) (c kd ix : Nat) (dt : List Byte) : (s.raise c kd ix dt).cmds = s.cmds := rfl
@[simp] theorem State.raise_ringTurn (s : State) (c kd ix : Nat) (dt : List Byte) : (s.raise c kd ix dt).ringTurn = s.ringTurn := rfl
@[simp] theorem State.raise_drvMsgs (s : State) (c kd ix : Nat) (dt : List Byte) : (s.raise c kd ix dt).drvMsgs = s.drvMsgs := rfl
@[simp] theorem State.raise_heartbeat (s : State) (c kd ix : Nat) (dt : List Byte) : (s.raise c kd ix dt).heartbeat = s.heartbeat := rfl
@[simp] theorem State.raise_plan (s : State) (c kd ix : Nat) (dt : List Byte) : (s.raise c kd ix dt).plan = s.plan := rfl
@[simp] theorem State.raise_planRun (s : State) (c kd ix : Nat) (dt : List Byte) : (s.raise c kd ix dt).planRun = s.planRun := rfl
@[simp] theorem State.raise_gov (s : State) (c kd ix : Nat) (dt : List Byte) : (s.raise c kd ix dt).gov = s.gov := rfl
@[simp] theorem State.raise_domQ (s : State) (c kd ix : Nat) (dt : List Byte) : (s.raise c kd ix dt).domQ = s.domQ := rfl
@[simp] theorem State.raise_pdBroken (s : State) (c kd ix : Nat) (dt : List Byte) : (s.raise c kd ix dt).pdBroken = s.pdBroken := rfl
@[simp] theorem State.raise_t0 (s : State) (c kd ix : Nat) (dt : List Byte) : (s.raise c kd ix dt).t0 = s.t0 := rfl
@[simp] theorem State.raise_list (s : State) (c kd ix : Nat) (dt : List Byte) : (s.raise c kd ix dt).list = s.list := rfl
@[simp] theorem State.raise_flash (s : State) (c kd ix : Nat) (dt : List Byte) : (s.raise c kd ix dt).flash = s.flash := rfl
@[simp] theorem State.raise_chips (s : State) (c kd ix : Nat) (dt : List Byte) : (s.raise c kd ix dt).chips = s.chips := rfl
@[simp] theorem State.raise_upd (s : State) (c kd ix : Nat) (dt : List Byte) : (s.raise c kd ix dt).upd = s.upd := rfl
@[simp] theorem State.raise_job (s : State) (c kd ix : Nat) (dt : List Byte) : (s.raise c kd ix dt).job = s.job := rfl
@[simp] theorem State.raise_admitPorts (s : State) (c kd ix : Nat) (dt : List Byte) : (s.raise c kd ix dt).admitPorts = s.admitPorts := rfl
@[simp] theorem State.raise_tear (s : State) (c kd ix : Nat) (dt : List Byte) : (s.raise c kd ix dt).tear = s.tear := rfl
@[simp] theorem State.raise_slices (s : State) (c kd ix : Nat) (dt : List Byte) : (s.raise c kd ix dt).slices = s.slices := rfl
@[simp] theorem State.raise_residues (s : State) (c kd ix : Nat) (dt : List Byte) : (s.raise c kd ix dt).residues = s.residues := rfl
@[simp] theorem State.raise_sliceFirst (s : State) (c kd ix : Nat) (dt : List Byte) : (s.raise c kd ix dt).sliceFirst = s.sliceFirst := rfl
@[simp] theorem State.raise_pins (s : State) (c kd ix : Nat) (dt : List Byte) : (s.raise c kd ix dt).pins = s.pins := rfl
@[simp] theorem State.raise_held (s : State) (c kd ix : Nat) (dt : List Byte) : (s.raise c kd ix dt).held = s.held := rfl
@[simp] theorem State.raise_doeCount (s : State) (c kd ix : Nat) (dt : List Byte) : (s.raise c kd ix dt).doeCount = s.doeCount := rfl

/-! `aplicSignal` leaves every field but `aplic`. -/
@[simp] theorem State.aplicSignal_pending (s : State) (n : Nat) : (s.aplicSignal n).pending = s.pending := rfl
@[simp] theorem State.aplicSignal_freeCtr (s : State) (n : Nat) : (s.aplicSignal n).freeCtr = s.freeCtr := rfl
@[simp] theorem State.aplicSignal_regs (s : State) (n : Nat) : (s.aplicSignal n).regs = s.regs := rfl
@[simp] theorem State.aplicSignal_plt (s : State) (n : Nat) : (s.aplicSignal n).plt = s.plt := rfl
@[simp] theorem State.aplicSignal_cellar (s : State) (n : Nat) : (s.aplicSignal n).cellar = s.cellar := rfl
@[simp] theorem State.aplicSignal_shelf (s : State) (n : Nat) : (s.aplicSignal n).shelf = s.shelf := rfl
@[simp] theorem State.aplicSignal_hostA (s : State) (n : Nat) : (s.aplicSignal n).hostA = s.hostA := rfl
@[simp] theorem State.aplicSignal_hostB (s : State) (n : Nat) : (s.aplicSignal n).hostB = s.hostB := rfl
@[simp] theorem State.aplicSignal_tiles (s : State) (n : Nat) : (s.aplicSignal n).tiles = s.tiles := rfl
@[simp] theorem State.aplicSignal_crates (s : State) (n : Nat) : (s.aplicSignal n).crates = s.crates := rfl
@[simp] theorem State.aplicSignal_incs (s : State) (n : Nat) : (s.aplicSignal n).incs = s.incs := rfl
@[simp] theorem State.aplicSignal_gathered (s : State) (n : Nat) : (s.aplicSignal n).gathered = s.gathered := rfl
@[simp] theorem State.aplicSignal_seqCtr (s : State) (n : Nat) : (s.aplicSignal n).seqCtr = s.seqCtr := rfl
@[simp] theorem State.aplicSignal_strong (s : State) (n : Nat) : (s.aplicSignal n).strong = s.strong := rfl
@[simp] theorem State.aplicSignal_journal (s : State) (n : Nat) : (s.aplicSignal n).journal = s.journal := rfl
@[simp] theorem State.aplicSignal_hports (s : State) (n : Nat) : (s.aplicSignal n).hports = s.hports := rfl
@[simp] theorem State.aplicSignal_msixOut (s : State) (n : Nat) : (s.aplicSignal n).msixOut = s.msixOut := rfl
@[simp] theorem State.aplicSignal_blocked (s : State) (n : Nat) : (s.aplicSignal n).blocked = s.blocked := rfl
@[simp] theorem State.aplicSignal_bar0Blocked (s : State) (n : Nat) : (s.aplicSignal n).bar0Blocked = s.bar0Blocked := rfl
@[simp] theorem State.aplicSignal_fastStopped (s : State) (n : Nat) : (s.aplicSignal n).fastStopped = s.fastStopped := rfl
@[simp] theorem State.aplicSignal_fabTx (s : State) (n : Nat) : (s.aplicSignal n).fabTx = s.fabTx := rfl
@[simp] theorem State.aplicSignal_fabWait (s : State) (n : Nat) : (s.aplicSignal n).fabWait = s.fabWait := rfl
@[simp] theorem State.aplicSignal_fabRsv (s : State) (n : Nat) : (s.aplicSignal n).fabRsv = s.fabRsv := rfl
@[simp] theorem State.aplicSignal_syncHeld (s : State) (n : Nat) : (s.aplicSignal n).syncHeld = s.syncHeld := rfl
@[simp] theorem State.aplicSignal_fabReqs (s : State) (n : Nat) : (s.aplicSignal n).fabReqs = s.fabReqs := rfl
@[simp] theorem State.aplicSignal_carryRecs (s : State) (n : Nat) : (s.aplicSignal n).carryRecs = s.carryRecs := rfl
@[simp] theorem State.aplicSignal_place (s : State) (n : Nat) : (s.aplicSignal n).place = s.place := rfl
@[simp] theorem State.aplicSignal_answer (s : State) (n : Nat) : (s.aplicSignal n).answer = s.answer := rfl
@[simp] theorem State.aplicSignal_sds (s : State) (n : Nat) : (s.aplicSignal n).sds = s.sds := rfl
@[simp] theorem State.aplicSignal_sdNum (s : State) (n : Nat) : (s.aplicSignal n).sdNum = s.sdNum := rfl
@[simp] theorem State.aplicSignal_sdLast (s : State) (n : Nat) : (s.aplicSignal n).sdLast = s.sdLast := rfl
@[simp] theorem State.aplicSignal_sdRecent (s : State) (n : Nat) : (s.aplicSignal n).sdRecent = s.sdRecent := rfl
@[simp] theorem State.aplicSignal_carve (s : State) (n : Nat) : (s.aplicSignal n).carve = s.carve := rfl
@[simp] theorem State.aplicSignal_hampers (s : State) (n : Nat) : (s.aplicSignal n).hampers = s.hampers := rfl
@[simp] theorem State.aplicSignal_burstPoison (s : State) (n : Nat) : (s.aplicSignal n).burstPoison = s.burstPoison := rfl
@[simp] theorem State.aplicSignal_symErr (s : State) (n : Nat) : (s.aplicSignal n).symErr = s.symErr := rfl
@[simp] theorem State.aplicSignal_rows (s : State) (n : Nat) : (s.aplicSignal n).rows = s.rows := rfl
@[simp] theorem State.aplicSignal_hardDone (s : State) (n : Nat) : (s.aplicSignal n).hardDone = s.hardDone := rfl
@[simp] theorem State.aplicSignal_retired (s : State) (n : Nat) : (s.aplicSignal n).retired = s.retired := rfl
@[simp] theorem State.aplicSignal_bankUsed (s : State) (n : Nat) : (s.aplicSignal n).bankUsed = s.bankUsed := rfl
@[simp] theorem State.aplicSignal_repairing (s : State) (n : Nat) : (s.aplicSignal n).repairing = s.repairing := rfl
@[simp] theorem State.aplicSignal_scrubNext (s : State) (n : Nat) : (s.aplicSignal n).scrubNext = s.scrubNext := rfl
@[simp] theorem State.aplicSignal_tgStop (s : State) (n : Nat) : (s.aplicSignal n).tgStop = s.tgStop := rfl
@[simp] theorem State.aplicSignal_l2 (s : State) (n : Nat) : (s.aplicSignal n).l2 = s.l2 := rfl
@[simp] theorem State.aplicSignal_dirs (s : State) (n : Nat) : (s.aplicSignal n).dirs = s.dirs := rfl
@[simp] theorem State.aplicSignal_creqs (s : State) (n : Nat) : (s.aplicSignal n).creqs = s.creqs := rfl
@[simp] theorem State.aplicSignal_agedQ (s : State) (n : Nat) : (s.aplicSignal n).agedQ = s.agedQ := rfl
@[simp] theorem State.aplicSignal_evicts (s : State) (n : Nat) : (s.aplicSignal n).evicts = s.evicts := rfl
@[simp] theorem State.aplicSignal_txns (s : State) (n : Nat) : (s.aplicSignal n).txns = s.txns := rfl
@[simp] theorem State.aplicSignal_msgs (s : State) (n : Nat) : (s.aplicSignal n).msgs = s.msgs := rfl
@[simp] theorem State.aplicSignal_homeQ (s : State) (n : Nat) : (s.aplicSignal n).homeQ = s.homeQ := rfl
@[simp] theorem State.aplicSignal_tallyQ (s : State) (n : Nat) : (s.aplicSignal n).tallyQ = s.tallyQ := rfl
@[simp] theorem State.aplicSignal_hcores (s : State) (n : Nat) : (s.aplicSignal n).hcores = s.hcores := rfl
@[simp] theorem State.aplicSignal_dmActive (s : State) (n : Nat) : (s.aplicSignal n).dmActive = s.dmActive := rfl
@[simp] theorem State.aplicSignal_seams (s : State) (n : Nat) : (s.aplicSignal n).seams = s.seams := rfl
@[simp] theorem State.aplicSignal_fports (s : State) (n : Nat) : (s.aplicSignal n).fports = s.fports := rfl
@[simp] theorem State.aplicSignal_inReqs (s : State) (n : Nat) : (s.aplicSignal n).inReqs = s.inReqs := rfl
@[simp] theorem State.aplicSignal_colls (s : State) (n : Nat) : (s.aplicSignal n).colls = s.colls := rfl
@[simp] theorem State.aplicSignal_collEarly (s : State) (n : Nat) : (s.aplicSignal n).collEarly = s.collEarly := rfl
@[simp] theorem State.aplicSignal_rings (s : State) (n : Nat) : (s.aplicSignal n).rings = s.rings := rfl
@[simp] theorem State.aplicSignal_cmds (s : State) (n : Nat) : (s.aplicSignal n).cmds = s.cmds := rfl
@[simp] theorem State.aplicSignal_ringTurn (s : State) (n : Nat) : (s.aplicSignal n).ringTurn = s.ringTurn := rfl
@[simp] theorem State.aplicSignal_drvMsgs (s : State) (n : Nat) : (s.aplicSignal n).drvMsgs = s.drvMsgs := rfl
@[simp] theorem State.aplicSignal_heartbeat (s : State) (n : Nat) : (s.aplicSignal n).heartbeat = s.heartbeat := rfl
@[simp] theorem State.aplicSignal_plan (s : State) (n : Nat) : (s.aplicSignal n).plan = s.plan := rfl
@[simp] theorem State.aplicSignal_planRun (s : State) (n : Nat) : (s.aplicSignal n).planRun = s.planRun := rfl
@[simp] theorem State.aplicSignal_gov (s : State) (n : Nat) : (s.aplicSignal n).gov = s.gov := rfl
@[simp] theorem State.aplicSignal_domQ (s : State) (n : Nat) : (s.aplicSignal n).domQ = s.domQ := rfl
@[simp] theorem State.aplicSignal_pdBroken (s : State) (n : Nat) : (s.aplicSignal n).pdBroken = s.pdBroken := rfl
@[simp] theorem State.aplicSignal_t0 (s : State) (n : Nat) : (s.aplicSignal n).t0 = s.t0 := rfl
@[simp] theorem State.aplicSignal_list (s : State) (n : Nat) : (s.aplicSignal n).list = s.list := rfl
@[simp] theorem State.aplicSignal_flash (s : State) (n : Nat) : (s.aplicSignal n).flash = s.flash := rfl
@[simp] theorem State.aplicSignal_chips (s : State) (n : Nat) : (s.aplicSignal n).chips = s.chips := rfl
@[simp] theorem State.aplicSignal_upd (s : State) (n : Nat) : (s.aplicSignal n).upd = s.upd := rfl
@[simp] theorem State.aplicSignal_job (s : State) (n : Nat) : (s.aplicSignal n).job = s.job := rfl
@[simp] theorem State.aplicSignal_admitPorts (s : State) (n : Nat) : (s.aplicSignal n).admitPorts = s.admitPorts := rfl
@[simp] theorem State.aplicSignal_tear (s : State) (n : Nat) : (s.aplicSignal n).tear = s.tear := rfl
@[simp] theorem State.aplicSignal_slices (s : State) (n : Nat) : (s.aplicSignal n).slices = s.slices := rfl
@[simp] theorem State.aplicSignal_residues (s : State) (n : Nat) : (s.aplicSignal n).residues = s.residues := rfl
@[simp] theorem State.aplicSignal_sliceFirst (s : State) (n : Nat) : (s.aplicSignal n).sliceFirst = s.sliceFirst := rfl
@[simp] theorem State.aplicSignal_pins (s : State) (n : Nat) : (s.aplicSignal n).pins = s.pins := rfl
@[simp] theorem State.aplicSignal_held (s : State) (n : Nat) : (s.aplicSignal n).held = s.held := rfl
@[simp] theorem State.aplicSignal_doeCount (s : State) (n : Nat) : (s.aplicSignal n).doeCount = s.doeCount := rfl

/-! `commit` leaves every field but `journal`. -/
@[simp] theorem State.commit_pending (s : State) (o : Nat) (bs : List Byte) : (s.commit o bs).pending = s.pending := rfl
@[simp] theorem State.commit_freeCtr (s : State) (o : Nat) (bs : List Byte) : (s.commit o bs).freeCtr = s.freeCtr := rfl
@[simp] theorem State.commit_regs (s : State) (o : Nat) (bs : List Byte) : (s.commit o bs).regs = s.regs := rfl
@[simp] theorem State.commit_plt (s : State) (o : Nat) (bs : List Byte) : (s.commit o bs).plt = s.plt := rfl
@[simp] theorem State.commit_cellar (s : State) (o : Nat) (bs : List Byte) : (s.commit o bs).cellar = s.cellar := rfl
@[simp] theorem State.commit_shelf (s : State) (o : Nat) (bs : List Byte) : (s.commit o bs).shelf = s.shelf := rfl
@[simp] theorem State.commit_hostA (s : State) (o : Nat) (bs : List Byte) : (s.commit o bs).hostA = s.hostA := rfl
@[simp] theorem State.commit_hostB (s : State) (o : Nat) (bs : List Byte) : (s.commit o bs).hostB = s.hostB := rfl
@[simp] theorem State.commit_tiles (s : State) (o : Nat) (bs : List Byte) : (s.commit o bs).tiles = s.tiles := rfl
@[simp] theorem State.commit_crates (s : State) (o : Nat) (bs : List Byte) : (s.commit o bs).crates = s.crates := rfl
@[simp] theorem State.commit_incs (s : State) (o : Nat) (bs : List Byte) : (s.commit o bs).incs = s.incs := rfl
@[simp] theorem State.commit_gathered (s : State) (o : Nat) (bs : List Byte) : (s.commit o bs).gathered = s.gathered := rfl
@[simp] theorem State.commit_seqCtr (s : State) (o : Nat) (bs : List Byte) : (s.commit o bs).seqCtr = s.seqCtr := rfl
@[simp] theorem State.commit_strong (s : State) (o : Nat) (bs : List Byte) : (s.commit o bs).strong = s.strong := rfl
@[simp] theorem State.commit_aplic (s : State) (o : Nat) (bs : List Byte) : (s.commit o bs).aplic = s.aplic := rfl
@[simp] theorem State.commit_hports (s : State) (o : Nat) (bs : List Byte) : (s.commit o bs).hports = s.hports := rfl
@[simp] theorem State.commit_msixOut (s : State) (o : Nat) (bs : List Byte) : (s.commit o bs).msixOut = s.msixOut := rfl
@[simp] theorem State.commit_blocked (s : State) (o : Nat) (bs : List Byte) : (s.commit o bs).blocked = s.blocked := rfl
@[simp] theorem State.commit_bar0Blocked (s : State) (o : Nat) (bs : List Byte) : (s.commit o bs).bar0Blocked = s.bar0Blocked := rfl
@[simp] theorem State.commit_fastStopped (s : State) (o : Nat) (bs : List Byte) : (s.commit o bs).fastStopped = s.fastStopped := rfl
@[simp] theorem State.commit_fabTx (s : State) (o : Nat) (bs : List Byte) : (s.commit o bs).fabTx = s.fabTx := rfl
@[simp] theorem State.commit_fabWait (s : State) (o : Nat) (bs : List Byte) : (s.commit o bs).fabWait = s.fabWait := rfl
@[simp] theorem State.commit_fabRsv (s : State) (o : Nat) (bs : List Byte) : (s.commit o bs).fabRsv = s.fabRsv := rfl
@[simp] theorem State.commit_syncHeld (s : State) (o : Nat) (bs : List Byte) : (s.commit o bs).syncHeld = s.syncHeld := rfl
@[simp] theorem State.commit_fabReqs (s : State) (o : Nat) (bs : List Byte) : (s.commit o bs).fabReqs = s.fabReqs := rfl
@[simp] theorem State.commit_carryRecs (s : State) (o : Nat) (bs : List Byte) : (s.commit o bs).carryRecs = s.carryRecs := rfl
@[simp] theorem State.commit_place (s : State) (o : Nat) (bs : List Byte) : (s.commit o bs).place = s.place := rfl
@[simp] theorem State.commit_answer (s : State) (o : Nat) (bs : List Byte) : (s.commit o bs).answer = s.answer := rfl
@[simp] theorem State.commit_sds (s : State) (o : Nat) (bs : List Byte) : (s.commit o bs).sds = s.sds := rfl
@[simp] theorem State.commit_sdNum (s : State) (o : Nat) (bs : List Byte) : (s.commit o bs).sdNum = s.sdNum := rfl
@[simp] theorem State.commit_sdLast (s : State) (o : Nat) (bs : List Byte) : (s.commit o bs).sdLast = s.sdLast := rfl
@[simp] theorem State.commit_sdRecent (s : State) (o : Nat) (bs : List Byte) : (s.commit o bs).sdRecent = s.sdRecent := rfl
@[simp] theorem State.commit_carve (s : State) (o : Nat) (bs : List Byte) : (s.commit o bs).carve = s.carve := rfl
@[simp] theorem State.commit_hampers (s : State) (o : Nat) (bs : List Byte) : (s.commit o bs).hampers = s.hampers := rfl
@[simp] theorem State.commit_burstPoison (s : State) (o : Nat) (bs : List Byte) : (s.commit o bs).burstPoison = s.burstPoison := rfl
@[simp] theorem State.commit_symErr (s : State) (o : Nat) (bs : List Byte) : (s.commit o bs).symErr = s.symErr := rfl
@[simp] theorem State.commit_rows (s : State) (o : Nat) (bs : List Byte) : (s.commit o bs).rows = s.rows := rfl
@[simp] theorem State.commit_hardDone (s : State) (o : Nat) (bs : List Byte) : (s.commit o bs).hardDone = s.hardDone := rfl
@[simp] theorem State.commit_retired (s : State) (o : Nat) (bs : List Byte) : (s.commit o bs).retired = s.retired := rfl
@[simp] theorem State.commit_bankUsed (s : State) (o : Nat) (bs : List Byte) : (s.commit o bs).bankUsed = s.bankUsed := rfl
@[simp] theorem State.commit_repairing (s : State) (o : Nat) (bs : List Byte) : (s.commit o bs).repairing = s.repairing := rfl
@[simp] theorem State.commit_scrubNext (s : State) (o : Nat) (bs : List Byte) : (s.commit o bs).scrubNext = s.scrubNext := rfl
@[simp] theorem State.commit_tgStop (s : State) (o : Nat) (bs : List Byte) : (s.commit o bs).tgStop = s.tgStop := rfl
@[simp] theorem State.commit_l2 (s : State) (o : Nat) (bs : List Byte) : (s.commit o bs).l2 = s.l2 := rfl
@[simp] theorem State.commit_dirs (s : State) (o : Nat) (bs : List Byte) : (s.commit o bs).dirs = s.dirs := rfl
@[simp] theorem State.commit_creqs (s : State) (o : Nat) (bs : List Byte) : (s.commit o bs).creqs = s.creqs := rfl
@[simp] theorem State.commit_agedQ (s : State) (o : Nat) (bs : List Byte) : (s.commit o bs).agedQ = s.agedQ := rfl
@[simp] theorem State.commit_evicts (s : State) (o : Nat) (bs : List Byte) : (s.commit o bs).evicts = s.evicts := rfl
@[simp] theorem State.commit_txns (s : State) (o : Nat) (bs : List Byte) : (s.commit o bs).txns = s.txns := rfl
@[simp] theorem State.commit_msgs (s : State) (o : Nat) (bs : List Byte) : (s.commit o bs).msgs = s.msgs := rfl
@[simp] theorem State.commit_homeQ (s : State) (o : Nat) (bs : List Byte) : (s.commit o bs).homeQ = s.homeQ := rfl
@[simp] theorem State.commit_tallyQ (s : State) (o : Nat) (bs : List Byte) : (s.commit o bs).tallyQ = s.tallyQ := rfl
@[simp] theorem State.commit_hcores (s : State) (o : Nat) (bs : List Byte) : (s.commit o bs).hcores = s.hcores := rfl
@[simp] theorem State.commit_dmActive (s : State) (o : Nat) (bs : List Byte) : (s.commit o bs).dmActive = s.dmActive := rfl
@[simp] theorem State.commit_seams (s : State) (o : Nat) (bs : List Byte) : (s.commit o bs).seams = s.seams := rfl
@[simp] theorem State.commit_fports (s : State) (o : Nat) (bs : List Byte) : (s.commit o bs).fports = s.fports := rfl
@[simp] theorem State.commit_inReqs (s : State) (o : Nat) (bs : List Byte) : (s.commit o bs).inReqs = s.inReqs := rfl
@[simp] theorem State.commit_colls (s : State) (o : Nat) (bs : List Byte) : (s.commit o bs).colls = s.colls := rfl
@[simp] theorem State.commit_collEarly (s : State) (o : Nat) (bs : List Byte) : (s.commit o bs).collEarly = s.collEarly := rfl
@[simp] theorem State.commit_rings (s : State) (o : Nat) (bs : List Byte) : (s.commit o bs).rings = s.rings := rfl
@[simp] theorem State.commit_cmds (s : State) (o : Nat) (bs : List Byte) : (s.commit o bs).cmds = s.cmds := rfl
@[simp] theorem State.commit_ringTurn (s : State) (o : Nat) (bs : List Byte) : (s.commit o bs).ringTurn = s.ringTurn := rfl
@[simp] theorem State.commit_drvMsgs (s : State) (o : Nat) (bs : List Byte) : (s.commit o bs).drvMsgs = s.drvMsgs := rfl
@[simp] theorem State.commit_heartbeat (s : State) (o : Nat) (bs : List Byte) : (s.commit o bs).heartbeat = s.heartbeat := rfl
@[simp] theorem State.commit_plan (s : State) (o : Nat) (bs : List Byte) : (s.commit o bs).plan = s.plan := rfl
@[simp] theorem State.commit_planRun (s : State) (o : Nat) (bs : List Byte) : (s.commit o bs).planRun = s.planRun := rfl
@[simp] theorem State.commit_gov (s : State) (o : Nat) (bs : List Byte) : (s.commit o bs).gov = s.gov := rfl
@[simp] theorem State.commit_domQ (s : State) (o : Nat) (bs : List Byte) : (s.commit o bs).domQ = s.domQ := rfl
@[simp] theorem State.commit_pdBroken (s : State) (o : Nat) (bs : List Byte) : (s.commit o bs).pdBroken = s.pdBroken := rfl
@[simp] theorem State.commit_t0 (s : State) (o : Nat) (bs : List Byte) : (s.commit o bs).t0 = s.t0 := rfl
@[simp] theorem State.commit_list (s : State) (o : Nat) (bs : List Byte) : (s.commit o bs).list = s.list := rfl
@[simp] theorem State.commit_flash (s : State) (o : Nat) (bs : List Byte) : (s.commit o bs).flash = s.flash := rfl
@[simp] theorem State.commit_chips (s : State) (o : Nat) (bs : List Byte) : (s.commit o bs).chips = s.chips := rfl
@[simp] theorem State.commit_upd (s : State) (o : Nat) (bs : List Byte) : (s.commit o bs).upd = s.upd := rfl
@[simp] theorem State.commit_job (s : State) (o : Nat) (bs : List Byte) : (s.commit o bs).job = s.job := rfl
@[simp] theorem State.commit_admitPorts (s : State) (o : Nat) (bs : List Byte) : (s.commit o bs).admitPorts = s.admitPorts := rfl
@[simp] theorem State.commit_tear (s : State) (o : Nat) (bs : List Byte) : (s.commit o bs).tear = s.tear := rfl
@[simp] theorem State.commit_slices (s : State) (o : Nat) (bs : List Byte) : (s.commit o bs).slices = s.slices := rfl
@[simp] theorem State.commit_residues (s : State) (o : Nat) (bs : List Byte) : (s.commit o bs).residues = s.residues := rfl
@[simp] theorem State.commit_sliceFirst (s : State) (o : Nat) (bs : List Byte) : (s.commit o bs).sliceFirst = s.sliceFirst := rfl
@[simp] theorem State.commit_pins (s : State) (o : Nat) (bs : List Byte) : (s.commit o bs).pins = s.pins := rfl
@[simp] theorem State.commit_held (s : State) (o : Nat) (bs : List Byte) : (s.commit o bs).held = s.held := rfl
@[simp] theorem State.commit_doeCount (s : State) (o : Nat) (bs : List Byte) : (s.commit o bs).doeCount = s.doeCount := rfl

/-! Sending a packet leaves every field but the registers, the free values drawn, and what the ports and their credits hold. -/
@[simp] theorem State.fabPut_pending (s : State) (q : FabHeld) : (s.fabPut q).pending = s.pending := by unfold State.fabPut; split <;> rfl
@[simp] theorem State.fabSend_pending (s : State) (p : Nat) (q : Packet) : (s.fabSend p q).pending = s.pending := s.fabPut_pending _
@[simp] theorem State.fabPut_plt (s : State) (q : FabHeld) : (s.fabPut q).plt = s.plt := by unfold State.fabPut; split <;> rfl
@[simp] theorem State.fabSend_plt (s : State) (p : Nat) (q : Packet) : (s.fabSend p q).plt = s.plt := s.fabPut_plt _
@[simp] theorem State.fabPut_cellar (s : State) (q : FabHeld) : (s.fabPut q).cellar = s.cellar := by unfold State.fabPut; split <;> rfl
@[simp] theorem State.fabSend_cellar (s : State) (p : Nat) (q : Packet) : (s.fabSend p q).cellar = s.cellar := s.fabPut_cellar _
@[simp] theorem State.fabPut_shelf (s : State) (q : FabHeld) : (s.fabPut q).shelf = s.shelf := by unfold State.fabPut; split <;> rfl
@[simp] theorem State.fabSend_shelf (s : State) (p : Nat) (q : Packet) : (s.fabSend p q).shelf = s.shelf := s.fabPut_shelf _
@[simp] theorem State.fabPut_hostA (s : State) (q : FabHeld) : (s.fabPut q).hostA = s.hostA := by unfold State.fabPut; split <;> rfl
@[simp] theorem State.fabSend_hostA (s : State) (p : Nat) (q : Packet) : (s.fabSend p q).hostA = s.hostA := s.fabPut_hostA _
@[simp] theorem State.fabPut_hostB (s : State) (q : FabHeld) : (s.fabPut q).hostB = s.hostB := by unfold State.fabPut; split <;> rfl
@[simp] theorem State.fabSend_hostB (s : State) (p : Nat) (q : Packet) : (s.fabSend p q).hostB = s.hostB := s.fabPut_hostB _
@[simp] theorem State.fabPut_tiles (s : State) (q : FabHeld) : (s.fabPut q).tiles = s.tiles := by unfold State.fabPut; split <;> rfl
@[simp] theorem State.fabSend_tiles (s : State) (p : Nat) (q : Packet) : (s.fabSend p q).tiles = s.tiles := s.fabPut_tiles _
@[simp] theorem State.fabPut_crates (s : State) (q : FabHeld) : (s.fabPut q).crates = s.crates := by unfold State.fabPut; split <;> rfl
@[simp] theorem State.fabSend_crates (s : State) (p : Nat) (q : Packet) : (s.fabSend p q).crates = s.crates := s.fabPut_crates _
@[simp] theorem State.fabPut_incs (s : State) (q : FabHeld) : (s.fabPut q).incs = s.incs := by unfold State.fabPut; split <;> rfl
@[simp] theorem State.fabSend_incs (s : State) (p : Nat) (q : Packet) : (s.fabSend p q).incs = s.incs := s.fabPut_incs _
@[simp] theorem State.fabPut_gathered (s : State) (q : FabHeld) : (s.fabPut q).gathered = s.gathered := by unfold State.fabPut; split <;> rfl
@[simp] theorem State.fabSend_gathered (s : State) (p : Nat) (q : Packet) : (s.fabSend p q).gathered = s.gathered := s.fabPut_gathered _
@[simp] theorem State.fabPut_seqCtr (s : State) (q : FabHeld) : (s.fabPut q).seqCtr = s.seqCtr := by unfold State.fabPut; split <;> rfl
@[simp] theorem State.fabSend_seqCtr (s : State) (p : Nat) (q : Packet) : (s.fabSend p q).seqCtr = s.seqCtr := s.fabPut_seqCtr _
@[simp] theorem State.fabPut_strong (s : State) (q : FabHeld) : (s.fabPut q).strong = s.strong := by unfold State.fabPut; split <;> rfl
@[simp] theorem State.fabSend_strong (s : State) (p : Nat) (q : Packet) : (s.fabSend p q).strong = s.strong := s.fabPut_strong _
@[simp] theorem State.fabPut_journal (s : State) (q : FabHeld) : (s.fabPut q).journal = s.journal := by unfold State.fabPut; split <;> rfl
@[simp] theorem State.fabSend_journal (s : State) (p : Nat) (q : Packet) : (s.fabSend p q).journal = s.journal := s.fabPut_journal _
@[simp] theorem State.fabPut_aplic (s : State) (q : FabHeld) : (s.fabPut q).aplic = s.aplic := by unfold State.fabPut; split <;> rfl
@[simp] theorem State.fabSend_aplic (s : State) (p : Nat) (q : Packet) : (s.fabSend p q).aplic = s.aplic := s.fabPut_aplic _
@[simp] theorem State.fabPut_hports (s : State) (q : FabHeld) : (s.fabPut q).hports = s.hports := by unfold State.fabPut; split <;> rfl
@[simp] theorem State.fabSend_hports (s : State) (p : Nat) (q : Packet) : (s.fabSend p q).hports = s.hports := s.fabPut_hports _
@[simp] theorem State.fabPut_msixOut (s : State) (q : FabHeld) : (s.fabPut q).msixOut = s.msixOut := by unfold State.fabPut; split <;> rfl
@[simp] theorem State.fabSend_msixOut (s : State) (p : Nat) (q : Packet) : (s.fabSend p q).msixOut = s.msixOut := s.fabPut_msixOut _
@[simp] theorem State.fabPut_blocked (s : State) (q : FabHeld) : (s.fabPut q).blocked = s.blocked := by unfold State.fabPut; split <;> rfl
@[simp] theorem State.fabSend_blocked (s : State) (p : Nat) (q : Packet) : (s.fabSend p q).blocked = s.blocked := s.fabPut_blocked _
@[simp] theorem State.fabPut_bar0Blocked (s : State) (q : FabHeld) : (s.fabPut q).bar0Blocked = s.bar0Blocked := by unfold State.fabPut; split <;> rfl
@[simp] theorem State.fabSend_bar0Blocked (s : State) (p : Nat) (q : Packet) : (s.fabSend p q).bar0Blocked = s.bar0Blocked := s.fabPut_bar0Blocked _
@[simp] theorem State.fabPut_fastStopped (s : State) (q : FabHeld) : (s.fabPut q).fastStopped = s.fastStopped := by unfold State.fabPut; split <;> rfl
@[simp] theorem State.fabSend_fastStopped (s : State) (p : Nat) (q : Packet) : (s.fabSend p q).fastStopped = s.fastStopped := s.fabPut_fastStopped _
@[simp] theorem State.fabPut_syncHeld (s : State) (q : FabHeld) : (s.fabPut q).syncHeld = s.syncHeld := by unfold State.fabPut; split <;> rfl
@[simp] theorem State.fabSend_syncHeld (s : State) (p : Nat) (q : Packet) : (s.fabSend p q).syncHeld = s.syncHeld := s.fabPut_syncHeld _
@[simp] theorem State.fabPut_fabReqs (s : State) (q : FabHeld) : (s.fabPut q).fabReqs = s.fabReqs := by unfold State.fabPut; split <;> rfl
@[simp] theorem State.fabSend_fabReqs (s : State) (p : Nat) (q : Packet) : (s.fabSend p q).fabReqs = s.fabReqs := s.fabPut_fabReqs _
@[simp] theorem State.fabPut_carryRecs (s : State) (q : FabHeld) : (s.fabPut q).carryRecs = s.carryRecs := by unfold State.fabPut; split <;> rfl
@[simp] theorem State.fabSend_carryRecs (s : State) (p : Nat) (q : Packet) : (s.fabSend p q).carryRecs = s.carryRecs := s.fabPut_carryRecs _
@[simp] theorem State.fabPut_place (s : State) (q : FabHeld) : (s.fabPut q).place = s.place := by unfold State.fabPut; split <;> rfl
@[simp] theorem State.fabSend_place (s : State) (p : Nat) (q : Packet) : (s.fabSend p q).place = s.place := s.fabPut_place _
@[simp] theorem State.fabPut_answer (s : State) (q : FabHeld) : (s.fabPut q).answer = s.answer := by unfold State.fabPut; split <;> rfl
@[simp] theorem State.fabSend_answer (s : State) (p : Nat) (q : Packet) : (s.fabSend p q).answer = s.answer := s.fabPut_answer _
@[simp] theorem State.fabPut_sds (s : State) (q : FabHeld) : (s.fabPut q).sds = s.sds := by unfold State.fabPut; split <;> rfl
@[simp] theorem State.fabSend_sds (s : State) (p : Nat) (q : Packet) : (s.fabSend p q).sds = s.sds := s.fabPut_sds _
@[simp] theorem State.fabPut_sdNum (s : State) (q : FabHeld) : (s.fabPut q).sdNum = s.sdNum := by unfold State.fabPut; split <;> rfl
@[simp] theorem State.fabSend_sdNum (s : State) (p : Nat) (q : Packet) : (s.fabSend p q).sdNum = s.sdNum := s.fabPut_sdNum _
@[simp] theorem State.fabPut_sdLast (s : State) (q : FabHeld) : (s.fabPut q).sdLast = s.sdLast := by unfold State.fabPut; split <;> rfl
@[simp] theorem State.fabSend_sdLast (s : State) (p : Nat) (q : Packet) : (s.fabSend p q).sdLast = s.sdLast := s.fabPut_sdLast _
@[simp] theorem State.fabPut_sdRecent (s : State) (q : FabHeld) : (s.fabPut q).sdRecent = s.sdRecent := by unfold State.fabPut; split <;> rfl
@[simp] theorem State.fabSend_sdRecent (s : State) (p : Nat) (q : Packet) : (s.fabSend p q).sdRecent = s.sdRecent := s.fabPut_sdRecent _
@[simp] theorem State.fabPut_carve (s : State) (q : FabHeld) : (s.fabPut q).carve = s.carve := by unfold State.fabPut; split <;> rfl
@[simp] theorem State.fabSend_carve (s : State) (p : Nat) (q : Packet) : (s.fabSend p q).carve = s.carve := s.fabPut_carve _
@[simp] theorem State.fabPut_hampers (s : State) (q : FabHeld) : (s.fabPut q).hampers = s.hampers := by unfold State.fabPut; split <;> rfl
@[simp] theorem State.fabSend_hampers (s : State) (p : Nat) (q : Packet) : (s.fabSend p q).hampers = s.hampers := s.fabPut_hampers _
@[simp] theorem State.fabPut_burstPoison (s : State) (q : FabHeld) : (s.fabPut q).burstPoison = s.burstPoison := by unfold State.fabPut; split <;> rfl
@[simp] theorem State.fabSend_burstPoison (s : State) (p : Nat) (q : Packet) : (s.fabSend p q).burstPoison = s.burstPoison := s.fabPut_burstPoison _
@[simp] theorem State.fabPut_symErr (s : State) (q : FabHeld) : (s.fabPut q).symErr = s.symErr := by unfold State.fabPut; split <;> rfl
@[simp] theorem State.fabSend_symErr (s : State) (p : Nat) (q : Packet) : (s.fabSend p q).symErr = s.symErr := s.fabPut_symErr _
@[simp] theorem State.fabPut_rows (s : State) (q : FabHeld) : (s.fabPut q).rows = s.rows := by unfold State.fabPut; split <;> rfl
@[simp] theorem State.fabSend_rows (s : State) (p : Nat) (q : Packet) : (s.fabSend p q).rows = s.rows := s.fabPut_rows _
@[simp] theorem State.fabPut_hardDone (s : State) (q : FabHeld) : (s.fabPut q).hardDone = s.hardDone := by unfold State.fabPut; split <;> rfl
@[simp] theorem State.fabSend_hardDone (s : State) (p : Nat) (q : Packet) : (s.fabSend p q).hardDone = s.hardDone := s.fabPut_hardDone _
@[simp] theorem State.fabPut_retired (s : State) (q : FabHeld) : (s.fabPut q).retired = s.retired := by unfold State.fabPut; split <;> rfl
@[simp] theorem State.fabSend_retired (s : State) (p : Nat) (q : Packet) : (s.fabSend p q).retired = s.retired := s.fabPut_retired _
@[simp] theorem State.fabPut_bankUsed (s : State) (q : FabHeld) : (s.fabPut q).bankUsed = s.bankUsed := by unfold State.fabPut; split <;> rfl
@[simp] theorem State.fabSend_bankUsed (s : State) (p : Nat) (q : Packet) : (s.fabSend p q).bankUsed = s.bankUsed := s.fabPut_bankUsed _
@[simp] theorem State.fabPut_repairing (s : State) (q : FabHeld) : (s.fabPut q).repairing = s.repairing := by unfold State.fabPut; split <;> rfl
@[simp] theorem State.fabSend_repairing (s : State) (p : Nat) (q : Packet) : (s.fabSend p q).repairing = s.repairing := s.fabPut_repairing _
@[simp] theorem State.fabPut_scrubNext (s : State) (q : FabHeld) : (s.fabPut q).scrubNext = s.scrubNext := by unfold State.fabPut; split <;> rfl
@[simp] theorem State.fabSend_scrubNext (s : State) (p : Nat) (q : Packet) : (s.fabSend p q).scrubNext = s.scrubNext := s.fabPut_scrubNext _
@[simp] theorem State.fabPut_tgStop (s : State) (q : FabHeld) : (s.fabPut q).tgStop = s.tgStop := by unfold State.fabPut; split <;> rfl
@[simp] theorem State.fabSend_tgStop (s : State) (p : Nat) (q : Packet) : (s.fabSend p q).tgStop = s.tgStop := s.fabPut_tgStop _
@[simp] theorem State.fabPut_l2 (s : State) (q : FabHeld) : (s.fabPut q).l2 = s.l2 := by unfold State.fabPut; split <;> rfl
@[simp] theorem State.fabSend_l2 (s : State) (p : Nat) (q : Packet) : (s.fabSend p q).l2 = s.l2 := s.fabPut_l2 _
@[simp] theorem State.fabPut_dirs (s : State) (q : FabHeld) : (s.fabPut q).dirs = s.dirs := by unfold State.fabPut; split <;> rfl
@[simp] theorem State.fabSend_dirs (s : State) (p : Nat) (q : Packet) : (s.fabSend p q).dirs = s.dirs := s.fabPut_dirs _
@[simp] theorem State.fabPut_creqs (s : State) (q : FabHeld) : (s.fabPut q).creqs = s.creqs := by unfold State.fabPut; split <;> rfl
@[simp] theorem State.fabSend_creqs (s : State) (p : Nat) (q : Packet) : (s.fabSend p q).creqs = s.creqs := s.fabPut_creqs _
@[simp] theorem State.fabPut_agedQ (s : State) (q : FabHeld) : (s.fabPut q).agedQ = s.agedQ := by unfold State.fabPut; split <;> rfl
@[simp] theorem State.fabSend_agedQ (s : State) (p : Nat) (q : Packet) : (s.fabSend p q).agedQ = s.agedQ := s.fabPut_agedQ _
@[simp] theorem State.fabPut_evicts (s : State) (q : FabHeld) : (s.fabPut q).evicts = s.evicts := by unfold State.fabPut; split <;> rfl
@[simp] theorem State.fabSend_evicts (s : State) (p : Nat) (q : Packet) : (s.fabSend p q).evicts = s.evicts := s.fabPut_evicts _
@[simp] theorem State.fabPut_txns (s : State) (q : FabHeld) : (s.fabPut q).txns = s.txns := by unfold State.fabPut; split <;> rfl
@[simp] theorem State.fabSend_txns (s : State) (p : Nat) (q : Packet) : (s.fabSend p q).txns = s.txns := s.fabPut_txns _
@[simp] theorem State.fabPut_msgs (s : State) (q : FabHeld) : (s.fabPut q).msgs = s.msgs := by unfold State.fabPut; split <;> rfl
@[simp] theorem State.fabSend_msgs (s : State) (p : Nat) (q : Packet) : (s.fabSend p q).msgs = s.msgs := s.fabPut_msgs _
@[simp] theorem State.fabPut_homeQ (s : State) (q : FabHeld) : (s.fabPut q).homeQ = s.homeQ := by unfold State.fabPut; split <;> rfl
@[simp] theorem State.fabSend_homeQ (s : State) (p : Nat) (q : Packet) : (s.fabSend p q).homeQ = s.homeQ := s.fabPut_homeQ _
@[simp] theorem State.fabPut_tallyQ (s : State) (q : FabHeld) : (s.fabPut q).tallyQ = s.tallyQ := by unfold State.fabPut; split <;> rfl
@[simp] theorem State.fabSend_tallyQ (s : State) (p : Nat) (q : Packet) : (s.fabSend p q).tallyQ = s.tallyQ := s.fabPut_tallyQ _
@[simp] theorem State.fabPut_hcores (s : State) (q : FabHeld) : (s.fabPut q).hcores = s.hcores := by unfold State.fabPut; split <;> rfl
@[simp] theorem State.fabSend_hcores (s : State) (p : Nat) (q : Packet) : (s.fabSend p q).hcores = s.hcores := s.fabPut_hcores _
@[simp] theorem State.fabPut_dmActive (s : State) (q : FabHeld) : (s.fabPut q).dmActive = s.dmActive := by unfold State.fabPut; split <;> rfl
@[simp] theorem State.fabSend_dmActive (s : State) (p : Nat) (q : Packet) : (s.fabSend p q).dmActive = s.dmActive := s.fabPut_dmActive _
@[simp] theorem State.fabPut_seams (s : State) (q : FabHeld) : (s.fabPut q).seams = s.seams := by unfold State.fabPut; split <;> rfl
@[simp] theorem State.fabSend_seams (s : State) (p : Nat) (q : Packet) : (s.fabSend p q).seams = s.seams := s.fabPut_seams _
@[simp] theorem State.fabPut_inReqs (s : State) (q : FabHeld) : (s.fabPut q).inReqs = s.inReqs := by unfold State.fabPut; split <;> rfl
@[simp] theorem State.fabSend_inReqs (s : State) (p : Nat) (q : Packet) : (s.fabSend p q).inReqs = s.inReqs := s.fabPut_inReqs _
@[simp] theorem State.fabPut_colls (s : State) (q : FabHeld) : (s.fabPut q).colls = s.colls := by unfold State.fabPut; split <;> rfl
@[simp] theorem State.fabSend_colls (s : State) (p : Nat) (q : Packet) : (s.fabSend p q).colls = s.colls := s.fabPut_colls _
@[simp] theorem State.fabPut_collEarly (s : State) (q : FabHeld) : (s.fabPut q).collEarly = s.collEarly := by unfold State.fabPut; split <;> rfl
@[simp] theorem State.fabSend_collEarly (s : State) (p : Nat) (q : Packet) : (s.fabSend p q).collEarly = s.collEarly := s.fabPut_collEarly _
@[simp] theorem State.fabPut_rings (s : State) (q : FabHeld) : (s.fabPut q).rings = s.rings := by unfold State.fabPut; split <;> rfl
@[simp] theorem State.fabSend_rings (s : State) (p : Nat) (q : Packet) : (s.fabSend p q).rings = s.rings := s.fabPut_rings _
@[simp] theorem State.fabPut_cmds (s : State) (q : FabHeld) : (s.fabPut q).cmds = s.cmds := by unfold State.fabPut; split <;> rfl
@[simp] theorem State.fabSend_cmds (s : State) (p : Nat) (q : Packet) : (s.fabSend p q).cmds = s.cmds := s.fabPut_cmds _
@[simp] theorem State.fabPut_ringTurn (s : State) (q : FabHeld) : (s.fabPut q).ringTurn = s.ringTurn := by unfold State.fabPut; split <;> rfl
@[simp] theorem State.fabSend_ringTurn (s : State) (p : Nat) (q : Packet) : (s.fabSend p q).ringTurn = s.ringTurn := s.fabPut_ringTurn _
@[simp] theorem State.fabPut_drvMsgs (s : State) (q : FabHeld) : (s.fabPut q).drvMsgs = s.drvMsgs := by unfold State.fabPut; split <;> rfl
@[simp] theorem State.fabSend_drvMsgs (s : State) (p : Nat) (q : Packet) : (s.fabSend p q).drvMsgs = s.drvMsgs := s.fabPut_drvMsgs _
@[simp] theorem State.fabPut_heartbeat (s : State) (q : FabHeld) : (s.fabPut q).heartbeat = s.heartbeat := by unfold State.fabPut; split <;> rfl
@[simp] theorem State.fabSend_heartbeat (s : State) (p : Nat) (q : Packet) : (s.fabSend p q).heartbeat = s.heartbeat := s.fabPut_heartbeat _
@[simp] theorem State.fabPut_plan (s : State) (q : FabHeld) : (s.fabPut q).plan = s.plan := by unfold State.fabPut; split <;> rfl
@[simp] theorem State.fabSend_plan (s : State) (p : Nat) (q : Packet) : (s.fabSend p q).plan = s.plan := s.fabPut_plan _
@[simp] theorem State.fabPut_planRun (s : State) (q : FabHeld) : (s.fabPut q).planRun = s.planRun := by unfold State.fabPut; split <;> rfl
@[simp] theorem State.fabSend_planRun (s : State) (p : Nat) (q : Packet) : (s.fabSend p q).planRun = s.planRun := s.fabPut_planRun _
@[simp] theorem State.fabPut_gov (s : State) (q : FabHeld) : (s.fabPut q).gov = s.gov := by unfold State.fabPut; split <;> rfl
@[simp] theorem State.fabSend_gov (s : State) (p : Nat) (q : Packet) : (s.fabSend p q).gov = s.gov := s.fabPut_gov _
@[simp] theorem State.fabPut_domQ (s : State) (q : FabHeld) : (s.fabPut q).domQ = s.domQ := by unfold State.fabPut; split <;> rfl
@[simp] theorem State.fabSend_domQ (s : State) (p : Nat) (q : Packet) : (s.fabSend p q).domQ = s.domQ := s.fabPut_domQ _
@[simp] theorem State.fabPut_pdBroken (s : State) (q : FabHeld) : (s.fabPut q).pdBroken = s.pdBroken := by unfold State.fabPut; split <;> rfl
@[simp] theorem State.fabSend_pdBroken (s : State) (p : Nat) (q : Packet) : (s.fabSend p q).pdBroken = s.pdBroken := s.fabPut_pdBroken _
@[simp] theorem State.fabPut_t0 (s : State) (q : FabHeld) : (s.fabPut q).t0 = s.t0 := by unfold State.fabPut; split <;> rfl
@[simp] theorem State.fabSend_t0 (s : State) (p : Nat) (q : Packet) : (s.fabSend p q).t0 = s.t0 := s.fabPut_t0 _
@[simp] theorem State.fabPut_list (s : State) (q : FabHeld) : (s.fabPut q).list = s.list := by unfold State.fabPut; split <;> rfl
@[simp] theorem State.fabSend_list (s : State) (p : Nat) (q : Packet) : (s.fabSend p q).list = s.list := s.fabPut_list _
@[simp] theorem State.fabPut_flash (s : State) (q : FabHeld) : (s.fabPut q).flash = s.flash := by unfold State.fabPut; split <;> rfl
@[simp] theorem State.fabSend_flash (s : State) (p : Nat) (q : Packet) : (s.fabSend p q).flash = s.flash := s.fabPut_flash _
@[simp] theorem State.fabPut_chips (s : State) (q : FabHeld) : (s.fabPut q).chips = s.chips := by unfold State.fabPut; split <;> rfl
@[simp] theorem State.fabSend_chips (s : State) (p : Nat) (q : Packet) : (s.fabSend p q).chips = s.chips := s.fabPut_chips _
@[simp] theorem State.fabPut_upd (s : State) (q : FabHeld) : (s.fabPut q).upd = s.upd := by unfold State.fabPut; split <;> rfl
@[simp] theorem State.fabSend_upd (s : State) (p : Nat) (q : Packet) : (s.fabSend p q).upd = s.upd := s.fabPut_upd _
@[simp] theorem State.fabPut_job (s : State) (q : FabHeld) : (s.fabPut q).job = s.job := by unfold State.fabPut; split <;> rfl
@[simp] theorem State.fabSend_job (s : State) (p : Nat) (q : Packet) : (s.fabSend p q).job = s.job := s.fabPut_job _
@[simp] theorem State.fabPut_admitPorts (s : State) (q : FabHeld) : (s.fabPut q).admitPorts = s.admitPorts := by unfold State.fabPut; split <;> rfl
@[simp] theorem State.fabSend_admitPorts (s : State) (p : Nat) (q : Packet) : (s.fabSend p q).admitPorts = s.admitPorts := s.fabPut_admitPorts _
@[simp] theorem State.fabPut_tear (s : State) (q : FabHeld) : (s.fabPut q).tear = s.tear := by unfold State.fabPut; split <;> rfl
@[simp] theorem State.fabSend_tear (s : State) (p : Nat) (q : Packet) : (s.fabSend p q).tear = s.tear := s.fabPut_tear _
@[simp] theorem State.fabPut_slices (s : State) (q : FabHeld) : (s.fabPut q).slices = s.slices := by unfold State.fabPut; split <;> rfl
@[simp] theorem State.fabSend_slices (s : State) (p : Nat) (q : Packet) : (s.fabSend p q).slices = s.slices := s.fabPut_slices _
@[simp] theorem State.fabPut_residues (s : State) (q : FabHeld) : (s.fabPut q).residues = s.residues := by unfold State.fabPut; split <;> rfl
@[simp] theorem State.fabSend_residues (s : State) (p : Nat) (q : Packet) : (s.fabSend p q).residues = s.residues := s.fabPut_residues _
@[simp] theorem State.fabPut_sliceFirst (s : State) (q : FabHeld) : (s.fabPut q).sliceFirst = s.sliceFirst := by unfold State.fabPut; split <;> rfl
@[simp] theorem State.fabSend_sliceFirst (s : State) (p : Nat) (q : Packet) : (s.fabSend p q).sliceFirst = s.sliceFirst := s.fabPut_sliceFirst _
@[simp] theorem State.fabPut_pins (s : State) (q : FabHeld) : (s.fabPut q).pins = s.pins := by unfold State.fabPut; split <;> rfl
@[simp] theorem State.fabSend_pins (s : State) (p : Nat) (q : Packet) : (s.fabSend p q).pins = s.pins := s.fabPut_pins _
@[simp] theorem State.fabPut_held (s : State) (q : FabHeld) : (s.fabPut q).held = s.held := by unfold State.fabPut; split <;> rfl
@[simp] theorem State.fabSend_held (s : State) (p : Nat) (q : Packet) : (s.fabSend p q).held = s.held := s.fabPut_held _
@[simp] theorem State.fabPut_doeCount (s : State) (q : FabHeld) : (s.fabPut q).doeCount = s.doeCount := by unfold State.fabPut; split <;> rfl
@[simp] theorem State.fabSend_doeCount (s : State) (p : Nat) (q : Packet) : (s.fabSend p q).doeCount = s.doeCount := s.fabPut_doeCount _

/-! Records and registers across an update of another part. -/
@[simp] theorem State.tile_setReg (s : State) (a : Nat) (v : Word) (k : Nat) : (s.setReg a v).tile k = s.tile k := rfl
@[simp] theorem State.crate_setReg (s : State) (a : Nat) (v : Word) (k : Nat) : (s.setReg a v).crate k = s.crate k := rfl
@[simp] theorem State.hport_setReg (s : State) (a : Nat) (v : Word) (k : Nat) : (s.setReg a v).hport k = s.hport k := rfl
@[simp] theorem State.hcore_setReg (s : State) (a : Nat) (v : Word) (k : Nat) : (s.setReg a v).hcore k = s.hcore k := rfl
@[simp] theorem State.cacheLine_setReg (s : State) (a : Nat) (v : Word) (k j : Nat) : (s.setReg a v).cacheLine k j = s.cacheLine k j := rfl
@[simp] theorem State.seam_setReg (s : State) (a : Nat) (v : Word) (k : Nat) : (s.setReg a v).seam k = s.seam k := rfl
@[simp] theorem State.fport_setReg (s : State) (a : Nat) (v : Word) (k : Nat) : (s.setReg a v).fport k = s.fport k := rfl
@[simp] theorem State.tile_wr (s : State) (f : Fld) (v : Nat) (k : Nat) : (s.wr f v).tile k = s.tile k := rfl
@[simp] theorem State.crate_wr (s : State) (f : Fld) (v : Nat) (k : Nat) : (s.wr f v).crate k = s.crate k := rfl
@[simp] theorem State.hport_wr (s : State) (f : Fld) (v : Nat) (k : Nat) : (s.wr f v).hport k = s.hport k := rfl
@[simp] theorem State.hcore_wr (s : State) (f : Fld) (v : Nat) (k : Nat) : (s.wr f v).hcore k = s.hcore k := rfl
@[simp] theorem State.cacheLine_wr (s : State) (f : Fld) (v : Nat) (k j : Nat) : (s.wr f v).cacheLine k j = s.cacheLine k j := rfl
@[simp] theorem State.seam_wr (s : State) (f : Fld) (v : Nat) (k : Nat) : (s.wr f v).seam k = s.seam k := rfl
@[simp] theorem State.fport_wr (s : State) (f : Fld) (v : Nat) (k : Nat) : (s.wr f v).fport k = s.fport k := rfl
@[simp] theorem State.reg_setTile (s : State) (t : Nat) (x : Tile) (k : Nat) : (s.setTile t x).reg k = s.reg k := rfl
@[simp] theorem State.rd_setTile (s : State) (t : Nat) (x : Tile) (g : Fld) : (s.setTile t x).rd g = s.rd g := rfl
@[simp] theorem State.on_setTile (s : State) (t : Nat) (x : Tile) (g : Fld) : (s.setTile t x).on g = s.on g := rfl
@[simp] theorem State.crate_setTile (s : State) (t : Nat) (x : Tile) (k : Nat) : (s.setTile t x).crate k = s.crate k := rfl
@[simp] theorem State.hport_setTile (s : State) (t : Nat) (x : Tile) (k : Nat) : (s.setTile t x).hport k = s.hport k := rfl
@[simp] theorem State.hcore_setTile (s : State) (t : Nat) (x : Tile) (k : Nat) : (s.setTile t x).hcore k = s.hcore k := rfl
@[simp] theorem State.cacheLine_setTile (s : State) (t : Nat) (x : Tile) (k j : Nat) : (s.setTile t x).cacheLine k j = s.cacheLine k j := rfl
@[simp] theorem State.seam_setTile (s : State) (t : Nat) (x : Tile) (k : Nat) : (s.setTile t x).seam k = s.seam k := rfl
@[simp] theorem State.fport_setTile (s : State) (t : Nat) (x : Tile) (k : Nat) : (s.setTile t x).fport k = s.fport k := rfl
@[simp] theorem State.reg_setCrate (s : State) (c : Nat) (x : Crate) (k : Nat) : (s.setCrate c x).reg k = s.reg k := rfl
@[simp] theorem State.rd_setCrate (s : State) (c : Nat) (x : Crate) (g : Fld) : (s.setCrate c x).rd g = s.rd g := rfl
@[simp] theorem State.on_setCrate (s : State) (c : Nat) (x : Crate) (g : Fld) : (s.setCrate c x).on g = s.on g := rfl
@[simp] theorem State.tile_setCrate (s : State) (c : Nat) (x : Crate) (k : Nat) : (s.setCrate c x).tile k = s.tile k := rfl
@[simp] theorem State.hport_setCrate (s : State) (c : Nat) (x : Crate) (k : Nat) : (s.setCrate c x).hport k = s.hport k := rfl
@[simp] theorem State.hcore_setCrate (s : State) (c : Nat) (x : Crate) (k : Nat) : (s.setCrate c x).hcore k = s.hcore k := rfl
@[simp] theorem State.cacheLine_setCrate (s : State) (c : Nat) (x : Crate) (k j : Nat) : (s.setCrate c x).cacheLine k j = s.cacheLine k j := rfl
@[simp] theorem State.seam_setCrate (s : State) (c : Nat) (x : Crate) (k : Nat) : (s.setCrate c x).seam k = s.seam k := rfl
@[simp] theorem State.fport_setCrate (s : State) (c : Nat) (x : Crate) (k : Nat) : (s.setCrate c x).fport k = s.fport k := rfl
@[simp] theorem State.reg_setHport (s : State) (p : Nat) (h : HPort) (k : Nat) : (s.setHport p h).reg k = s.reg k := rfl
@[simp] theorem State.rd_setHport (s : State) (p : Nat) (h : HPort) (g : Fld) : (s.setHport p h).rd g = s.rd g := rfl
@[simp] theorem State.on_setHport (s : State) (p : Nat) (h : HPort) (g : Fld) : (s.setHport p h).on g = s.on g := rfl
@[simp] theorem State.tile_setHport (s : State) (p : Nat) (h : HPort) (k : Nat) : (s.setHport p h).tile k = s.tile k := rfl
@[simp] theorem State.crate_setHport (s : State) (p : Nat) (h : HPort) (k : Nat) : (s.setHport p h).crate k = s.crate k := rfl
@[simp] theorem State.hcore_setHport (s : State) (p : Nat) (h : HPort) (k : Nat) : (s.setHport p h).hcore k = s.hcore k := rfl
@[simp] theorem State.cacheLine_setHport (s : State) (p : Nat) (h : HPort) (k j : Nat) : (s.setHport p h).cacheLine k j = s.cacheLine k j := rfl
@[simp] theorem State.seam_setHport (s : State) (p : Nat) (h : HPort) (k : Nat) : (s.setHport p h).seam k = s.seam k := rfl
@[simp] theorem State.fport_setHport (s : State) (p : Nat) (h : HPort) (k : Nat) : (s.setHport p h).fport k = s.fport k := rfl
@[simp] theorem State.reg_setHcore (s : State) (c : Nat) (x : HCore) (k : Nat) : (s.setHcore c x).reg k = s.reg k := rfl
@[simp] theorem State.rd_setHcore (s : State) (c : Nat) (x : HCore) (g : Fld) : (s.setHcore c x).rd g = s.rd g := rfl
@[simp] theorem State.on_setHcore (s : State) (c : Nat) (x : HCore) (g : Fld) : (s.setHcore c x).on g = s.on g := rfl
@[simp] theorem State.tile_setHcore (s : State) (c : Nat) (x : HCore) (k : Nat) : (s.setHcore c x).tile k = s.tile k := rfl
@[simp] theorem State.crate_setHcore (s : State) (c : Nat) (x : HCore) (k : Nat) : (s.setHcore c x).crate k = s.crate k := rfl
@[simp] theorem State.hport_setHcore (s : State) (c : Nat) (x : HCore) (k : Nat) : (s.setHcore c x).hport k = s.hport k := rfl
@[simp] theorem State.cacheLine_setHcore (s : State) (c : Nat) (x : HCore) (k j : Nat) : (s.setHcore c x).cacheLine k j = s.cacheLine k j := rfl
@[simp] theorem State.seam_setHcore (s : State) (c : Nat) (x : HCore) (k : Nat) : (s.setHcore c x).seam k = s.seam k := rfl
@[simp] theorem State.fport_setHcore (s : State) (c : Nat) (x : HCore) (k : Nat) : (s.setHcore c x).fport k = s.fport k := rfl
@[simp] theorem State.reg_setCacheLine (s : State) (c l : Nat) (x : CLine) (k : Nat) : (s.setCacheLine c l x).reg k = s.reg k := rfl
@[simp] theorem State.rd_setCacheLine (s : State) (c l : Nat) (x : CLine) (g : Fld) : (s.setCacheLine c l x).rd g = s.rd g := rfl
@[simp] theorem State.on_setCacheLine (s : State) (c l : Nat) (x : CLine) (g : Fld) : (s.setCacheLine c l x).on g = s.on g := rfl
@[simp] theorem State.tile_setCacheLine (s : State) (c l : Nat) (x : CLine) (k : Nat) : (s.setCacheLine c l x).tile k = s.tile k := rfl
@[simp] theorem State.crate_setCacheLine (s : State) (c l : Nat) (x : CLine) (k : Nat) : (s.setCacheLine c l x).crate k = s.crate k := rfl
@[simp] theorem State.hport_setCacheLine (s : State) (c l : Nat) (x : CLine) (k : Nat) : (s.setCacheLine c l x).hport k = s.hport k := rfl
@[simp] theorem State.hcore_setCacheLine (s : State) (c l : Nat) (x : CLine) (k : Nat) : (s.setCacheLine c l x).hcore k = s.hcore k := rfl
@[simp] theorem State.seam_setCacheLine (s : State) (c l : Nat) (x : CLine) (k : Nat) : (s.setCacheLine c l x).seam k = s.seam k := rfl
@[simp] theorem State.fport_setCacheLine (s : State) (c l : Nat) (x : CLine) (k : Nat) : (s.setCacheLine c l x).fport k = s.fport k := rfl
@[simp] theorem State.reg_setSeam (s : State) (b : Nat) (x : Seam) (k : Nat) : (s.setSeam b x).reg k = s.reg k := rfl
@[simp] theorem State.rd_setSeam (s : State) (b : Nat) (x : Seam) (g : Fld) : (s.setSeam b x).rd g = s.rd g := rfl
@[simp] theorem State.on_setSeam (s : State) (b : Nat) (x : Seam) (g : Fld) : (s.setSeam b x).on g = s.on g := rfl
@[simp] theorem State.tile_setSeam (s : State) (b : Nat) (x : Seam) (k : Nat) : (s.setSeam b x).tile k = s.tile k := rfl
@[simp] theorem State.crate_setSeam (s : State) (b : Nat) (x : Seam) (k : Nat) : (s.setSeam b x).crate k = s.crate k := rfl
@[simp] theorem State.hport_setSeam (s : State) (b : Nat) (x : Seam) (k : Nat) : (s.setSeam b x).hport k = s.hport k := rfl
@[simp] theorem State.hcore_setSeam (s : State) (b : Nat) (x : Seam) (k : Nat) : (s.setSeam b x).hcore k = s.hcore k := rfl
@[simp] theorem State.cacheLine_setSeam (s : State) (b : Nat) (x : Seam) (k j : Nat) : (s.setSeam b x).cacheLine k j = s.cacheLine k j := rfl
@[simp] theorem State.fport_setSeam (s : State) (b : Nat) (x : Seam) (k : Nat) : (s.setSeam b x).fport k = s.fport k := rfl
@[simp] theorem State.reg_setFport (s : State) (p : Nat) (x : FPort) (k : Nat) : (s.setFport p x).reg k = s.reg k := rfl
@[simp] theorem State.rd_setFport (s : State) (p : Nat) (x : FPort) (g : Fld) : (s.setFport p x).rd g = s.rd g := rfl
@[simp] theorem State.on_setFport (s : State) (p : Nat) (x : FPort) (g : Fld) : (s.setFport p x).on g = s.on g := rfl
@[simp] theorem State.tile_setFport (s : State) (p : Nat) (x : FPort) (k : Nat) : (s.setFport p x).tile k = s.tile k := rfl
@[simp] theorem State.crate_setFport (s : State) (p : Nat) (x : FPort) (k : Nat) : (s.setFport p x).crate k = s.crate k := rfl
@[simp] theorem State.hport_setFport (s : State) (p : Nat) (x : FPort) (k : Nat) : (s.setFport p x).hport k = s.hport k := rfl
@[simp] theorem State.hcore_setFport (s : State) (p : Nat) (x : FPort) (k : Nat) : (s.setFport p x).hcore k = s.hcore k := rfl
@[simp] theorem State.cacheLine_setFport (s : State) (p : Nat) (x : FPort) (k j : Nat) : (s.setFport p x).cacheLine k j = s.cacheLine k j := rfl
@[simp] theorem State.seam_setFport (s : State) (p : Nat) (x : FPort) (k : Nat) : (s.setFport p x).seam k = s.seam k := rfl
@[simp] theorem State.reg_reply (s : State) (st : Nat) (d : List Byte) (k : Nat) : (s.reply st d).reg k = s.reg k := rfl
@[simp] theorem State.rd_reply (s : State) (st : Nat) (d : List Byte) (g : Fld) : (s.reply st d).rd g = s.rd g := rfl
@[simp] theorem State.on_reply (s : State) (st : Nat) (d : List Byte) (g : Fld) : (s.reply st d).on g = s.on g := rfl
@[simp] theorem State.tile_reply (s : State) (st : Nat) (d : List Byte) (k : Nat) : (s.reply st d).tile k = s.tile k := rfl
@[simp] theorem State.crate_reply (s : State) (st : Nat) (d : List Byte) (k : Nat) : (s.reply st d).crate k = s.crate k := rfl
@[simp] theorem State.hport_reply (s : State) (st : Nat) (d : List Byte) (k : Nat) : (s.reply st d).hport k = s.hport k := rfl
@[simp] theorem State.hcore_reply (s : State) (st : Nat) (d : List Byte) (k : Nat) : (s.reply st d).hcore k = s.hcore k := rfl
@[simp] theorem State.cacheLine_reply (s : State) (st : Nat) (d : List Byte) (k j : Nat) : (s.reply st d).cacheLine k j = s.cacheLine k j := rfl
@[simp] theorem State.seam_reply (s : State) (st : Nat) (d : List Byte) (k : Nat) : (s.reply st d).seam k = s.seam k := rfl
@[simp] theorem State.fport_reply (s : State) (st : Nat) (d : List Byte) (k : Nat) : (s.reply st d).fport k = s.fport k := rfl
@[simp] theorem State.reg_sendInc (s : State) (i : Inc) (k : Nat) : (s.sendInc i).reg k = s.reg k := rfl
@[simp] theorem State.rd_sendInc (s : State) (i : Inc) (g : Fld) : (s.sendInc i).rd g = s.rd g := rfl
@[simp] theorem State.on_sendInc (s : State) (i : Inc) (g : Fld) : (s.sendInc i).on g = s.on g := rfl
@[simp] theorem State.tile_sendInc (s : State) (i : Inc) (k : Nat) : (s.sendInc i).tile k = s.tile k := rfl
@[simp] theorem State.crate_sendInc (s : State) (i : Inc) (k : Nat) : (s.sendInc i).crate k = s.crate k := rfl
@[simp] theorem State.hport_sendInc (s : State) (i : Inc) (k : Nat) : (s.sendInc i).hport k = s.hport k := rfl
@[simp] theorem State.hcore_sendInc (s : State) (i : Inc) (k : Nat) : (s.sendInc i).hcore k = s.hcore k := rfl
@[simp] theorem State.cacheLine_sendInc (s : State) (i : Inc) (k j : Nat) : (s.sendInc i).cacheLine k j = s.cacheLine k j := rfl
@[simp] theorem State.seam_sendInc (s : State) (i : Inc) (k : Nat) : (s.sendInc i).seam k = s.seam k := rfl
@[simp] theorem State.fport_sendInc (s : State) (i : Inc) (k : Nat) : (s.sendInc i).fport k = s.fport k := rfl
@[simp] theorem State.reg_sendMsg (s : State) (m : Msg) (k : Nat) : (s.sendMsg m).reg k = s.reg k := rfl
@[simp] theorem State.rd_sendMsg (s : State) (m : Msg) (g : Fld) : (s.sendMsg m).rd g = s.rd g := rfl
@[simp] theorem State.on_sendMsg (s : State) (m : Msg) (g : Fld) : (s.sendMsg m).on g = s.on g := rfl
@[simp] theorem State.tile_sendMsg (s : State) (m : Msg) (k : Nat) : (s.sendMsg m).tile k = s.tile k := rfl
@[simp] theorem State.crate_sendMsg (s : State) (m : Msg) (k : Nat) : (s.sendMsg m).crate k = s.crate k := rfl
@[simp] theorem State.hport_sendMsg (s : State) (m : Msg) (k : Nat) : (s.sendMsg m).hport k = s.hport k := rfl
@[simp] theorem State.hcore_sendMsg (s : State) (m : Msg) (k : Nat) : (s.sendMsg m).hcore k = s.hcore k := rfl
@[simp] theorem State.cacheLine_sendMsg (s : State) (m : Msg) (k j : Nat) : (s.sendMsg m).cacheLine k j = s.cacheLine k j := rfl
@[simp] theorem State.seam_sendMsg (s : State) (m : Msg) (k : Nat) : (s.sendMsg m).seam k = s.seam k := rfl
@[simp] theorem State.fport_sendMsg (s : State) (m : Msg) (k : Nat) : (s.sendMsg m).fport k = s.fport k := rfl
@[simp] theorem State.reg_draw (s : State) (k : Nat) : (s.draw.2).reg k = s.reg k := rfl
@[simp] theorem State.rd_draw (s : State) (g : Fld) : (s.draw.2).rd g = s.rd g := rfl
@[simp] theorem State.on_draw (s : State) (g : Fld) : (s.draw.2).on g = s.on g := rfl
@[simp] theorem State.tile_draw (s : State) (k : Nat) : (s.draw.2).tile k = s.tile k := rfl
@[simp] theorem State.crate_draw (s : State) (k : Nat) : (s.draw.2).crate k = s.crate k := rfl
@[simp] theorem State.hport_draw (s : State) (k : Nat) : (s.draw.2).hport k = s.hport k := rfl
@[simp] theorem State.hcore_draw (s : State) (k : Nat) : (s.draw.2).hcore k = s.hcore k := rfl
@[simp] theorem State.cacheLine_draw (s : State) (k j : Nat) : (s.draw.2).cacheLine k j = s.cacheLine k j := rfl
@[simp] theorem State.seam_draw (s : State) (k : Nat) : (s.draw.2).seam k = s.seam k := rfl
@[simp] theorem State.fport_draw (s : State) (k : Nat) : (s.draw.2).fport k = s.fport k := rfl
@[simp] theorem State.reg_raise (s : State) (c kd ix : Nat) (dt : List Byte) (k : Nat) : (s.raise c kd ix dt).reg k = s.reg k := rfl
@[simp] theorem State.rd_raise (s : State) (c kd ix : Nat) (dt : List Byte) (g : Fld) : (s.raise c kd ix dt).rd g = s.rd g := rfl
@[simp] theorem State.on_raise (s : State) (c kd ix : Nat) (dt : List Byte) (g : Fld) : (s.raise c kd ix dt).on g = s.on g := rfl
@[simp] theorem State.tile_raise (s : State) (c kd ix : Nat) (dt : List Byte) (k : Nat) : (s.raise c kd ix dt).tile k = s.tile k := rfl
@[simp] theorem State.crate_raise (s : State) (c kd ix : Nat) (dt : List Byte) (k : Nat) : (s.raise c kd ix dt).crate k = s.crate k := rfl
@[simp] theorem State.hport_raise (s : State) (c kd ix : Nat) (dt : List Byte) (k : Nat) : (s.raise c kd ix dt).hport k = s.hport k := rfl
@[simp] theorem State.hcore_raise (s : State) (c kd ix : Nat) (dt : List Byte) (k : Nat) : (s.raise c kd ix dt).hcore k = s.hcore k := rfl
@[simp] theorem State.cacheLine_raise (s : State) (c kd ix : Nat) (dt : List Byte) (k j : Nat) : (s.raise c kd ix dt).cacheLine k j = s.cacheLine k j := rfl
@[simp] theorem State.seam_raise (s : State) (c kd ix : Nat) (dt : List Byte) (k : Nat) : (s.raise c kd ix dt).seam k = s.seam k := rfl
@[simp] theorem State.fport_raise (s : State) (c kd ix : Nat) (dt : List Byte) (k : Nat) : (s.raise c kd ix dt).fport k = s.fport k := rfl
@[simp] theorem State.reg_aplicSignal (s : State) (n : Nat) (k : Nat) : (s.aplicSignal n).reg k = s.reg k := rfl
@[simp] theorem State.rd_aplicSignal (s : State) (n : Nat) (g : Fld) : (s.aplicSignal n).rd g = s.rd g := rfl
@[simp] theorem State.on_aplicSignal (s : State) (n : Nat) (g : Fld) : (s.aplicSignal n).on g = s.on g := rfl
@[simp] theorem State.tile_aplicSignal (s : State) (n : Nat) (k : Nat) : (s.aplicSignal n).tile k = s.tile k := rfl
@[simp] theorem State.crate_aplicSignal (s : State) (n : Nat) (k : Nat) : (s.aplicSignal n).crate k = s.crate k := rfl
@[simp] theorem State.hport_aplicSignal (s : State) (n : Nat) (k : Nat) : (s.aplicSignal n).hport k = s.hport k := rfl
@[simp] theorem State.hcore_aplicSignal (s : State) (n : Nat) (k : Nat) : (s.aplicSignal n).hcore k = s.hcore k := rfl
@[simp] theorem State.cacheLine_aplicSignal (s : State) (n : Nat) (k j : Nat) : (s.aplicSignal n).cacheLine k j = s.cacheLine k j := rfl
@[simp] theorem State.seam_aplicSignal (s : State) (n : Nat) (k : Nat) : (s.aplicSignal n).seam k = s.seam k := rfl
@[simp] theorem State.fport_aplicSignal (s : State) (n : Nat) (k : Nat) : (s.aplicSignal n).fport k = s.fport k := rfl
@[simp] theorem State.reg_commit (s : State) (o : Nat) (bs : List Byte) (k : Nat) : (s.commit o bs).reg k = s.reg k := rfl
@[simp] theorem State.rd_commit (s : State) (o : Nat) (bs : List Byte) (g : Fld) : (s.commit o bs).rd g = s.rd g := rfl
@[simp] theorem State.on_commit (s : State) (o : Nat) (bs : List Byte) (g : Fld) : (s.commit o bs).on g = s.on g := rfl
@[simp] theorem State.tile_commit (s : State) (o : Nat) (bs : List Byte) (k : Nat) : (s.commit o bs).tile k = s.tile k := rfl
@[simp] theorem State.crate_commit (s : State) (o : Nat) (bs : List Byte) (k : Nat) : (s.commit o bs).crate k = s.crate k := rfl
@[simp] theorem State.hport_commit (s : State) (o : Nat) (bs : List Byte) (k : Nat) : (s.commit o bs).hport k = s.hport k := rfl
@[simp] theorem State.hcore_commit (s : State) (o : Nat) (bs : List Byte) (k : Nat) : (s.commit o bs).hcore k = s.hcore k := rfl
@[simp] theorem State.cacheLine_commit (s : State) (o : Nat) (bs : List Byte) (k j : Nat) : (s.commit o bs).cacheLine k j = s.cacheLine k j := rfl
@[simp] theorem State.seam_commit (s : State) (o : Nat) (bs : List Byte) (k : Nat) : (s.commit o bs).seam k = s.seam k := rfl
@[simp] theorem State.fport_commit (s : State) (o : Nat) (bs : List Byte) (k : Nat) : (s.commit o bs).fport k = s.fport k := rfl

/-! A record reads as it was set. -/
@[simp] theorem State.tile_setTile_same (s : State) (t : Nat) (x : Tile) : (s.setTile t x).tile t = x := lookMap_putMap_same _ _ _ _
@[simp] theorem State.crate_setCrate_same (s : State) (c : Nat) (x : Crate) : (s.setCrate c x).crate c = x := lookMap_putMap_same _ _ _ _
@[simp] theorem State.hport_setHport_same (s : State) (p : Nat) (h : HPort) : (s.setHport p h).hport p = h := lookMap_putMap_same _ _ _ _
@[simp] theorem State.hcore_setHcore_same (s : State) (c : Nat) (x : HCore) : (s.setHcore c x).hcore c = x := lookMap_putMap_same _ _ _ _
@[simp] theorem State.seam_setSeam_same (s : State) (b : Nat) (x : Seam) : (s.setSeam b x).seam b = x := lookMap_putMap_same _ _ _ _
@[simp] theorem State.fport_setFport_same (s : State) (p : Nat) (x : FPort) : (s.setFport p x).fport p = x := lookMap_putMap_same _ _ _ _

theorem State.tile_setTile_other (s : State) {t u : Nat} (x : Tile) (h : u ≠ t) : (s.setTile t x).tile u = s.tile u :=
  lookMap_putMap_other _ _ _ _ h
theorem State.crate_setCrate_other (s : State) {c d : Nat} (x : Crate) (h : d ≠ c) : (s.setCrate c x).crate d = s.crate d :=
  lookMap_putMap_other _ _ _ _ h
theorem State.hport_setHport_other (s : State) {p q : Nat} (x : HPort) (h : q ≠ p) : (s.setHport p x).hport q = s.hport q :=
  lookMap_putMap_other _ _ _ _ h
theorem State.hcore_setHcore_other (s : State) {c d : Nat} (x : HCore) (h : d ≠ c) : (s.setHcore c x).hcore d = s.hcore d :=
  lookMap_putMap_other _ _ _ _ h

@[simp] theorem State.reply_answer (s : State) (st : Nat) (d : List Byte) : (s.reply st d).answer = ⟨st, d⟩ := rfl
@[simp] theorem State.sendInc_incs (s : State) (i : Inc) : (s.sendInc i).incs = s.incs ++ [i] := rfl
@[simp] theorem State.sendMsg_msgs (s : State) (m : Msg) : (s.sendMsg m).msgs = s.msgs ++ [m] := rfl
@[simp] theorem State.draw_fst (s : State) : s.draw.1 = Config.free s.freeCtr := rfl
@[simp] theorem State.draw_freeCtr (s : State) : s.draw.2.freeCtr = s.freeCtr + 1 := rfl

@[simp] theorem State.commit_journal (s : State) (o : Nat) (bs : List Byte) : (s.commit o bs).journal = s.journal ++ [(o, bs)] := rfl
theorem State.raise_gathered (s : State) (c k i : Nat) (d : List Byte) :
    ∃ f, (s.raise c k i d).gathered = s.gathered ++ [f] ∧ f.code = c ∧ f.cls = clsOf c ∧ f.kind = k ∧ f.index = i ∧ f.plt = s.plt ∧ f.detail = d :=
  ⟨_, rfl, rfl, rfl, rfl, rfl, rfl, rfl⟩

end Sys2Proof.Machine
end

