-- ==== Sys2Proof/Laws/Frame.lean ====
section
/-! SUPPORT. Frames of register updates: which words they change, and that they change nothing else. -/
namespace Sys2Proof.Machine

theorem OnlyRegs.refl (as : List Nat) (s : State) : OnlyRegs as s s := ⟨fun _ _ => rfl, rfl⟩

theorem OnlyRegs.trans {as : List Nat} {s t u : State} (h : OnlyRegs as s t) (k : OnlyRegs as t u) : OnlyRegs as s u := by
  refine ⟨fun a ha => (k.1 a ha).trans (h.1 a ha), ?_⟩
  rw [k.2, h.2]

theorem OnlyRegs.mono {as bs : List Nat} {s t : State} (h : OnlyRegs as s t) (hs : ∀ a ∈ as, a ∈ bs) : OnlyRegs bs s t :=
  ⟨fun a ha => h.1 a (fun hm => ha (hs a hm)), h.2⟩

theorem onlyRegs_setReg (s : State) (a : Nat) (v : Word) : OnlyRegs [a] s (s.setReg a v) :=
  ⟨fun b hb => reg_setReg_other s v (by simpa using hb), rfl⟩

theorem onlyRegs_wr (s : State) (f : Fld) (v : Nat) : OnlyRegs [f.a] s (s.wr f v) := onlyRegs_setReg s f.a _

theorem onlyRegs_bump (s : State) (f : Fld) : OnlyRegs [f.a] s (s.bump f) := onlyRegs_wr s f _

end Sys2Proof.Machine
end

