-- ==== Sys2Proof/Laws/Strong.lean ====
section
/-! SUPPORT. The canonical form as sorted entries, and that splicing the strongroom's and the flash's regions keeps it. -/
namespace Sys2Proof.Machine

/-- Entries after a lower bound: sorted by key, above the bound, none at its default. -/
theorem wfMapFrom_iff {α : Type} [DecidableEq α] (d : Nat → α) (m : List (Nat × α)) (lo : Option Nat) :
    wfMapFrom d lo m = true ↔ m.Pairwise (fun p q => p.1 < q.1) ∧ (∀ p ∈ m, p.2 ≠ d p.1) ∧ ∀ l, lo = some l → ∀ p ∈ m, l < p.1 := by
  induction m generalizing lo with
  | nil => simp [wfMapFrom]
  | cons p m ih =>
    obtain ⟨k, v⟩ := p
    simp only [wfMapFrom, Bool.and_eq_true, decide_eq_true_eq, ih, List.pairwise_cons, List.mem_cons]
    constructor
    · rintro ⟨⟨hl, hv⟩, hp, hd, hk⟩
      refine ⟨⟨fun q hq => hk k rfl q hq, hp⟩, ?_, ?_⟩
      · rintro q (rfl | hq)
        · exact hv
        · exact hd q hq
      · rintro l rfl q (rfl | hq)
        · simpa using hl
        · exact lt_trans (by simpa using hl) (hk k rfl q hq)
    · rintro ⟨⟨hk, hp⟩, hd, hl⟩
      refine ⟨⟨?_, hd _ (Or.inl rfl)⟩, hp, fun q hq => hd q (Or.inr hq), ?_⟩
      · cases lo with
        | none => rfl
        | some l => simpa using hl l rfl _ (Or.inl rfl)
      · rintro l ⟨⟩ q hq
        exact hk q hq

/-- The canonical form of a map: sorted by key, no entry at its default. -/
theorem wfMap_iff {α : Type} [DecidableEq α] (d : Nat → α) (m : List (Nat × α)) :
    wfMap d m = true ↔ m.Pairwise (fun p q => p.1 < q.1) ∧ ∀ p ∈ m, p.2 ≠ d p.1 := by
  simp [wfMap, wfMapFrom_iff]

/-- Splicing canonical cells of [lo, hi) into a canonical memory keeps the form. -/
theorem wf_spliceCells {m cs : List Host.Cell} {lo hi : Nat} (h : Memory.wf m = true) (hc : Memory.wf cs = true)
    (hr : ∀ c ∈ cs, lo ≤ c.1 ∧ c.1 < hi) (hlh : lo ≤ hi) : Memory.wf (spliceCells m lo hi cs) = true := by
  simp only [Memory.wf, wfMap_iff, spliceCells] at *
  refine ⟨?_, ?_⟩
  · simp only [List.pairwise_append, List.mem_append, List.mem_filter, decide_eq_true_eq]
    refine ⟨⟨h.1.filter _, hc.1, ?_⟩, h.1.filter _, ?_⟩
    · intro p hp q hq
      exact lt_of_lt_of_le hp.2 (hr q hq).1
    · rintro p (hp | hp) q hq
      · exact lt_of_lt_of_le hp.2 (le_trans hlh hq.2)
      · exact lt_of_lt_of_le (hr p hp).2 hq.2
  · intro p hp
    simp only [List.mem_append, List.mem_filter] at hp
    rcases hp with (hp | hp) | hp
    · exact h.2 p hp.1
    · exact hc.2 p hp
    · exact h.2 p hp.1

/-- A region's cells moved down from a mirror, or up to it, are canonical and lie in the moved range. -/
theorem wf_movedCells {m : List Host.Cell} {lo hi : Nat} (g : Nat → Nat) (hg : ∀ a b, lo ≤ a → a < b → b < hi → g a < g b)
    (h : Memory.wf m = true) : Memory.wf ((cellsIn m lo hi).map fun c => (g c.1, c.2)) = true := by
  simp only [Memory.wf, wfMap_iff, cellsIn] at *
  refine ⟨?_, ?_⟩
  · rw [List.pairwise_map]
    refine (h.1.filter _).imp_of_mem ?_
    intro p q hp hq hpq
    simp only [List.mem_filter, Bool.and_eq_true, decide_eq_true_eq] at hp hq
    exact hg _ _ hp.2.1 hpq hq.2.2
  · intro p hp
    simp only [List.mem_map, List.mem_filter] at hp
    obtain ⟨c, hc, rfl⟩ := hp
    exact h.2 c hc.1

end Sys2Proof.Machine
end

