-- ==== Sys2Proof/Laws/Tally.lean ====
section
/-! SUPPORT. What a change of a tally and an increment's delivery do, once for every command that uses them. -/
namespace Sys2Proof.Machine

/-- A tally's value takes the clamped sum (R226). -/
theorem rd_setTally (s : State) (l : TallyLoc) (v : Int) (hl : l.range.a ≠ l.value.a) : (s.setTally l v).rd l.value = (if v < 0 then 0 else if 0xFFFF < v then 0xFFFF else v.toNat) := by
  have hw : l.value.lo + l.value.w ≤ 32 := by cases l <;> simp [TallyLoc.value]
  have hn : l.value.w = 16 := by cases l <;> rfl
  have h' : l.value.a ≠ l.range.a := fun h => hl h.symm
  unfold State.setTally
  split
  · simp [State.rd_raise, rd_wr_other _ _ h', rd_wr_same _ _ _ hw]
  · split
    · simp [State.rd_raise, rd_wr_other _ _ h', rd_wr_same _ _ _ hw, hn]
    · rw [rd_wr_same _ _ _ hw, hn]
      omega

/-- Inside the range only the value changes (R226). -/
theorem setTally_inside (s : State) (l : TallyLoc) {v : Int} (h0 : 0 ≤ v) (h1 : v ≤ 0xFFFF) : s.setTally l v = s.wr l.value v.toNat := by
  unfold State.setTally
  rw [if_neg (by omega), if_neg (by omega)]

/-- Outside it the value stops at the nearer bound, RANGE is set and "tally range" is raised (R226). -/
theorem setTally_outside (s : State) (l : TallyLoc) {v : Int} (h : v < 0 ∨ 0xFFFF < v) :
    s.setTally l v = ((s.wr l.value (if v < 0 then 0 else 0xFFFF)).wr l.range 1).raise 0x0300 l.unit.1 l.unit.2 [] := by
  unfold State.setTally
  split
  · rfl
  · rw [if_pos (by omega)]

/-- An increment without a valid address is dropped (R233). -/
theorem deliver_invalid (s : State) (i : Inc) (d : Int) (h : i.loc = none) : s.deliver i d = s.dropInc i := by simp [State.deliver, h]

/-- An increment for a unit that is off is counted and raises a fault (R236). -/
theorem deliver_absent (s : State) (i : Inc) (d : Int) {l : TallyLoc} (h : i.loc = some l) (ho : s.tallyOn l = false) :
    s.deliver i d = (s.bump tlyAbsent).raise 0x0302 l.unit.1 l.unit.2 [] := by simp [State.deliver, h, ho]

/-- Any other is added to its tally (R226, R228) and ungates the tile that holds it (R70). -/
theorem deliver_added (s : State) (i : Inc) (d : Int) {l : TallyLoc} (h : i.loc = some l) (ho : s.tallyOn l = true) :
    s.deliver i d = (s.addTally l d).ungateFor l := by simp [State.deliver, h, ho]

end Sys2Proof.Machine
end

