-- ==== Sys2Proof/Laws/Xlate.lean ====
section
/-! SUPPORT. What putting an entry into a translation cache does. -/

namespace Sys2Proof.Machine

/-- A cache holds the new entry and otherwise only entries that it held. -/
theorem putFree_mem {α : Type} [DecidableEq α] (s : State) (cap ways : Nat) (es : List α) (e x : α)
    (h : x ∈ (s.putFree cap ways es e).1) : x = e ∨ x ∈ es := by
  unfold State.putFree at h
  split at h
  · exact .inr h
  · split at h
    · simpa using h
    · rcases List.mem_cons.1 h with h | h
      · exact .inl h
      · exact .inr (List.mem_of_mem_eraseIdx h)

/-- The new entry is held. -/
theorem putFree_new {α : Type} [DecidableEq α] (s : State) (cap ways : Nat) (es : List α) (e : α) :
    e ∈ (s.putFree cap ways es e).1 := by
  unfold State.putFree
  split
  · assumption
  · split <;> simp

/-- A cache never outgrows its capacity. -/
theorem putFree_length {α : Type} [DecidableEq α] (s : State) (cap ways : Nat) (es : List α) (e : α) (hw : ways ≤ cap) (hc : 0 < cap)
    (h : es.length ≤ cap) : (s.putFree cap ways es e).1.length ≤ cap := by
  unfold State.putFree
  split
  · exact h
  · split
    · simp; omega
    · by_cases hl : es.length < cap
      · have := List.length_eraseIdx_le es (s.draw.1 % (if es.length < cap then es.length + 1 else es.length))
        simp only [List.length_cons]; omega
      · have hlt : s.draw.1 % es.length < es.length := Nat.mod_lt _ (by omega)
        simp only [List.length_cons, if_neg hl, List.length_eraseIdx_of_lt hlt]; omega

/-- Only the counter of free values changes. -/
theorem putFree_state {α : Type} [DecidableEq α] (s : State) (cap ways : Nat) (es : List α) (e : α) :
    ∃ n, (s.putFree cap ways es e).2 = { s with freeCtr := n } := by
  unfold State.putFree
  split
  · exact ⟨s.freeCtr, rfl⟩
  · split
    · exact ⟨s.freeCtr, rfl⟩
    · exact ⟨s.freeCtr + 1, rfl⟩

end Sys2Proof.Machine
end

