-- ==== Sys2Proof/WellFormed.lean ====
section
/-! DEFINITION. Which commands are well formed: operands within the widths that the spec's tables give them. A command whose operands are not
well formed comes from no unit of the package. -/
namespace Sys2Proof
open Sys2Proof.Machine

/-- The fields of a Grenlink packet fit the header of Table 13.5, and its payload the 4,096 bytes of R362. -/
def Machine.Packet.wf (k : Packet) : Bool :=
  decide (k.dest < 2 ^ 32) && decide (k.src < 2 ^ 32) && decide (k.vc < 8) && decide (k.type < 32) && decide (k.job < 2 ^ 24) &&
    decide (k.hatch < 256) && decide (k.off < 2 ^ 40) && decide (k.len ≤ 4096) && decide (k.opc < 16) && decide (k.hops < 64) && decide (k.step < 64) &&
    decide (k.tag < 2 ^ 16) && decide (k.tally < 2 ^ 16) && decide (k.status < 256) && decide (k.payload.length ≤ 4096)

/-- A management frame holds at least its header and its CRC (R577). -/
def frameWf (f : List Byte) : Bool := decide (20 ≤ f.length)

/-- Bytes of an operation write lie within one line (R246). -/
def lineWf (a : Nat) (bs : List Byte) : Bool := decide (0 < bs.length) && decide (a % 128 + bs.length ≤ 128)

/-- A debug request names a system bus access of 1 to 8 bytes (R433). -/
def Machine.DebugReq.wf : DebugReq → Bool
  | .sbRead _ n => decide (n ∈ [1, 2, 4, 8])
  | .sbWrite _ bs => decide (bs.length ∈ [1, 2, 4, 8])
  | .active _ => true
  | .halt _ => true
  | .resume _ => true
  | .readReg _ _ => true
  | .writeReg _ _ _ => true
  | .trigger _ _ _ => true
  | .group _ _ => true

/-- Is a command well formed? -/
def Instr.wf : Instr → Bool
  | .controlCoreLoad _ => true
  | .controlCoreStore _ => true
  | .wfi _ => true
  | .wfiWake _ => true
  | .tileRunRelease _ _ _ => true
  | .tileRunHold _ _ _ => true
  | .tileCodeWrite _ _ _ => true
  | .shelfApertureAccess _ _ write n => (match write with | some bs => decide (0 < bs.length) | none => decide (0 < n))
  | .queueTailWrite _ _ _ _ => true
  | .queueResume _ _ _ _ => true
  | .queueFlush _ _ _ _ => true
  | .descriptorComplete _ _ => true
  | .moverStrided _ => true
  | .moverGather _ => true
  | .moverScatter _ => true
  | .moverChunkIssue _ => true
  | .chunkArrival _ _ => true
  | .shelfZero _ => true
  | .shelfClean _ => true
  | .shelfInvalidate _ => true
  | .shelfCleanInv _ => true
  | .shelfWipe _ => true
  | .matrix _ _ => true
  | .rescueSecondPass _ _ => true
  | .issueFrameBoundary _ _ => true
  | .cvt _ => true
  | .cvtq _ => true
  | .vadd _ => true
  | .vsub _ => true
  | .vmul _ => true
  | .vmax _ => true
  | .vmin _ => true
  | .fma _ => true
  | .axpy _ => true
  | .affine _ => true
  | .vabs _ => true
  | .vneg _ => true
  | .cmpgt _ => true
  | .cmpeq _ => true
  | .cmpgts _ => true
  | .vexp _ => true
  | .vlog _ => true
  | .recip _ => true
  | .rsqrt _ => true
  | .tanh _ => true
  | .rsum _ => true
  | .rsumsq _ => true
  | .rmax _ => true
  | .rmin _ => true
  | .ramax _ => true
  | .scan _ => true
  | .xscan _ => true
  | .scanmax _ => true
  | .topk _ => true
  | .measure _ => true
  | .carryInArrival _ => true
  | .chainTimeout _ => true
  | .carryRecordArrival _ _ => true
  | .scanMaskWrite _ _ _ => true
  | .lfsrWrite _ _ _ => true
  | .shelfLockWrite _ _ _ => true
  | .shelfLockComplete _ => true
  | .shelfFillComplete _ => true
  | .shelfWayDisable _ _ => true
  | .shelfWayDisableComplete _ _ => true
  | .shelfEccWindowExpiry _ _ => true
  | .shelfScrubRead _ _ => true
  | .tilePark _ => true
  | .tileUnpark _ => true
  | .tileClockGate _ => true
  | .crateClockOffRequest _ _ _ => true
  | .crateClockStop _ => true
  | .crateClockWake _ => true
  | .crateClockLost _ => true
  | .frequencyStepComplete _ => true
  | .tallyValueWrite _ l _ => l.exists'
  | .tallyAdd _ l _ => l.exists'
  | .tallyTake _ _ => true
  | .tallySend _ _ => true
  | .tallyIncrementArrival _ => true
  | .tallyFire l => l.exists'
  | .tallyConfigWrite _ f _ => f.owner.exists'
  | .cellarRead _ n e => decide (0 < n) && decide (n ≤ 128) && decide (e ≤ 2)
  | .cellarWrite _ => true
  | .hamperTimeout _ _ => true
  | .hamperFlush _ _ _ => true
  | .hamperFlushComplete _ => true
  | .opIntAdd32 a bs => lineWf a bs
  | .opIntAdd64 a bs => lineWf a bs
  | .opFloatAdd _ a bs => lineWf a bs
  | .opIntMin a bs => lineWf a bs
  | .opIntMax a bs => lineWf a bs
  | .opFloatMin a bs => lineWf a bs
  | .opFloatMax a bs => lineWf a bs
  | .opAnd a bs => lineWf a bs
  | .opOr a bs => lineWf a bs
  | .opXor a bs => lineWf a bs
  | .opAliasReserved a bs => lineWf a bs
  | .swap _ _ _ => true
  | .cas _ _ _ => true
  | .fetchAdd _ _ _ => true
  | .fetchFadd _ _ _ => true
  | .fetchMin _ _ _ => true
  | .fetchMax _ _ _ => true
  | .fetchAnd _ _ _ => true
  | .fetchOr _ _ _ => true
  | .fetchXor _ _ _ => true
  | .cellarScrubRead _ e => decide (e ≤ 2)
  | .rowRepairComplete => true
  | .retireAck _ _ _ _ => true
  | .tgStart _ _ _ => true
  | .tgStop _ _ _ => true
  | .tgRunComplete _ _ _ _ _ _ => true
  | .stackTemperatureChange _ _ => true
  | .rdshared _ => true
  | .rdunique _ => true
  | .upgrade _ => true
  | .writeback _ => true
  | .evictclean _ => true
  | .atomicReq _ => true
  | .uncread _ n => decide (0 < n) && decide (n ≤ 128)
  | .uncwrite _ => true
  | .snpshared _ => true
  | .snpunique _ => true
  | .snponce _ => true
  | .snpinv _ => true
  | .recall _ => true
  | .snpresp _ => true
  | .dataMsg _ => true
  | .comp _ => true
  | .compack _ => true
  | .retry _ => true
  | .retryResend _ => true
  | .wback _ => true
  | .hostCoreLoad _ => true
  | .hostCoreStore _ => true
  | .amo _ => true
  | .lr _ => true
  | .sc _ => true
  | .lrHoldExpiry _ => true
  | .cboZero _ => true
  | .cboClean _ => true
  | .cboFlush _ => true
  | .cboInval _ => true
  | .walkTableReadComplete _ _ => true
  | .xltRootWrite _ _ => true
  | .shootdownSubmit _ _ => true
  | .shootdownCrateApply _ => true
  | .shootdownPost => true
  | .hatchOutWrite _ _ _ _ _ => true
  | .hatchInWrite _ _ _ _ _ => true
  | .hatchInDrain _ => true
  | .hatchLastChunkSend _ => true
  | .seamFlitReceive _ _ _ => true
  | .seamLaneLossOfLock _ _ _ => true
  | .seamLaneWindowExpiry _ _ _ => true
  | .seamLaneRepairComplete _ => true
  | .seamRetrainComplete _ => true
  | .seamControlTakeover _ => true
  | .fabricDetectPoll _ _ => true
  | .fabricTrainStageComplete _ _ => true
  | .fabricTrainStageTimeout _ => true
  | .fabricRetrain _ _ => true
  | .fabricFlitReceive _ _ => true
  | .fabricLaneLossOfLock _ _ => true
  | .fabricBerWindow _ _ _ => true
  | .fabricNarrowComplete _ => true
  | .rdReq _ k => k.wf
  | .wr _ k => k.wf
  | .opwr _ k => k.wf
  | .rdResp _ k => k.wf
  | .wrAck _ k => k.wf
  | .collAck _ k => k.wf
  | .syncInc _ k => k.wf
  | .collReady _ k => k.wf
  | .collAbort _ k => k.wf
  | .ctrl _ k => k.wf
  | .collData _ k => k.wf
  | .mgmt _ k => k.wf
  | .fabricResponseTimeout tag => decide (tag < 65536)
  | .ringRouteUpdate _ => true
  | .routeWrite _ _ _ _ _ => true
  | .fenceWrite _ _ _ => true
  | .collTailWrite _ _ _ => true
  | .collStart _ => true
  | .collStepComplete _ ptr => decide (ptr < 16)
  | .collPartnerTimeout _ ptr => decide (ptr < 16)
  | .perstAssert _ => true
  | .perstRelease _ => true
  | .hostPathLoss _ => true
  | .bar0AccessTimeout _ => true
  | .bar2Read _ _ n _ => decide (0 < n)
  | .bar2Write _ _ bs _ => decide (0 < bs.length)
  | .doorbell _ _ size _ _ => decide (size ∈ [1, 2, 4, 8])
  | .ringEnable _ _ _ _ => true
  | .ringDisable _ _ _ _ => true
  | .ringRetry _ _ _ _ => true
  | .commandFetch _ _ placed => decide (placed.length = 0 ∨ placed.length = 64)
  | .commandRefetch _ _ placed => decide (placed.length = 0 ∨ placed.length = 64)
  | .nop _ => true
  | .copy _ => true
  | .copyChunkComplete _ _ => true
  | .statusPeriod _ => true
  | .admitJob _ => true
  | .admitRetrainComplete => true
  | .teardown _ => true
  | .teardownStepComplete _ => true
  | .teardownDrainTimeout => true
  | .teardownThermalTimeout => true
  | .attestationKeyGenerated => true
  | .stocktake _ => true
  | .runPlan _ => true
  | .stopPlan _ => true
  | .planStopComplete => true
  | .periodStart => true
  | .timeStepStart _ => true
  | .evTailWrite _ _ => true
  | .setCap _ => true
  | .phaseHint _ => true
  | .capRequestWrite _ _ => true
  | .resvWrite _ _ _ => true
  | .govHintWrite _ _ _ _ => true
  | .hintExpiry => true
  | .governorInterval _ => true
  | .railTelemetryRead _ _ => true
  | .pwrAlertAssert _ => true
  | .pwrAlertRelease _ => true
  | .lowestStateExit => true
  | .droopDetect _ => true
  | .droopClear _ => true
  | .droopResponseEnd _ => true
  | .frozenStepResume _ => true
  | .collHoldEnd => true
  | .crateTemperatureChange _ _ => true
  | .ageingMeasure _ mhz => decide (mhz < 4096)
  | .railTransition _ _ => true
  | .domainPowerOn _ _ _ => true
  | .domainPowerOff _ _ _ => true
  | .domainClockStop _ _ _ => true
  | .domainSwitchComplete _ => true
  | .pilotLightLoss => true
  | .serdesRefclkLoss _ => true
  | .hangWatchFire _ _ _ _ => true
  | .urstCrate _ _ => true
  | .urstCore _ _ => true
  | .urstCollEngine _ _ => true
  | .coreFrequencyChange _ => true
  | .driverHeartbeat _ _ => true
  | .heartbeatTimeout => true
  | .driverMsg _ reply => (match reply with | some bs => decide (bs.length ≤ 12) | none => true)
  | .driverMsgTimeout _ => true
  | .debugRequest q => q.wf
  | .doeRequest _ _ => true
  | .pkgResetAssert => true
  | .pkgResetRelease _ _ _ => true
  | .startupStageComplete _ => true
  | .pklUpdateStart _ _ => true
  | .pklUpdateComplete _ _ => true
  | .bist _ => true
  | .strongroomRead _ => true
  | .idleSliceStart _ _ => true
  | .sliceComplete _ _ _ _ _ => true
  | .sliceTimeout _ _ _ _ => true
  | .faultTick => true
  | .faultHeadWrite _ _ _ => true
  | .ovfClear _ => true
  | .mgmtRegisterRead f => frameWf f
  | .mgmtRegisterWrite f => frameWf f
  | .mgmtStrongroomRead f => frameWf f
  | .mgmtFrameForward f => frameWf f
  | .mgtBypassEngage _ => true
  | .jtagIdcode => true
  | .jtagExtest _ => true
  | .jtagIntest _ => true
  | .jtagExtestPulse _ => true
  | .jtagExtestTrain _ => true
  | .jtagBypass => true
  | .registerWrite _ _ size _ _ => decide (size ∈ [1, 2, 4, 8])
  | .controlCoreInstruction _ => true
  | .hostCoreInstruction _ => true
  | .hostCoreInterrupt _ _ => true
  | .hostPortLinkUp _ _ _ _ => true
  | .configurationRequest _ _ => true
  | .bar0Read _ a n _ => decide (0 < n) && decide (a + n ≤ 2 ^ 26)
  | .cxlHostSnoop _ _ => true
  | .pilotLightReturn => true
  | .serdesRefclkReturn _ => true
  | .fabricPartnerRetrain _ => true
  | .fabricCodewordWindowExpiry _ _ => true
  | .cellarRowCeWindowExpiry _ _ _ => true
  | .strongroomCommitComplete => true
  | .mgtLinkRelock _ => true

end Sys2Proof
end

