-- ==== Sys2Proof/Tests/Slice0.lean ====
section
/-! SUPPORT. Witnesses: for every obligation with hypotheses a concrete state and operands that meet them; ill-formed terms that the checks
refuse; and a few small tests of single steps, with values from the spec's own tables. -/
namespace Sys2Proof.Machine

-- One theorem at a time: many at once would each hold a thread while the kernel evaluates.
set_option Elab.async false

/-! Helper states. -/

/-- The state with some register words set, by offset. -/
def State.put (s : State) (l : List (Nat × Nat)) : State := { s with regs := l.map (fun p => (p.1, BitVec.ofNat 32 p.2)) ++ s.regs }

/-- A state that a start has left: every rail up, every domain on, PILOT_CLK there, DEV_READY, one spread region, every stack ready. -/
def live : State :=
  { State.reset with
    pins := ⟨true, true, false, false, 0, true, 0, 0⟩, carve := [⟨true, 0, cellarSize⟩], t0 := some 0
    regs := (List.range 15).map (fun i => (0x1C0010 + 4 * i, 1#32)) ++ (List.range 30).map (fun d => (0x1C0100 + 8 * d, 0x21#32)) ++
      [(0x1C0200, 0x3D#32)] ++ (List.range 20).map (fun st => (0x380000 + 0x4000 * st, 1#32)) }

/-- Core 0 as a source. -/
def c0 : Src := .hostCore 0

/-- A descriptor from its fields (lowest bit, value). -/
def bitsOf (l : List (Nat × Nat)) : BitVec 512 := BitVec.ofNat 512 (l.foldl (fun n p => n + p.2 * 2 ^ p.1) 0)

/-- Tile 0 released with two scratch ways and buffers 0 to 3 of 1 KiB from 0x2000 on. -/
def run0 : State :=
  { live.put [(0x1004004, 0x10), (0x1000C04, 0x30000), (0x100400C, 0x100004)] with
    shelf := (List.range 4).flatMap fun n => [(0xF01 + 16 * n, BitVec.ofNat 8 (0x20 + 4 * n)), (0xF06 + 16 * n, 0x0D#8), (0xF09 + 16 * n, 4#8)] }

/-- Run state `s` with engine `e` of tile 0 as given. -/
def State.withEng (s : State) (e : Nat) (g : Engine) : State := s.setEng 0 e g

/-- A run of a descriptor at its start. -/
def runOf (d : BitVec 512) : Run :=
  { slot := 0, desc := d, loop := 0#512, lbv := [], bufs := [], shoot := 0, pos := 0, done := 0, crc := crc32cInit, flight := [],
    destKind := 0, idx := [], stop := none, recv := none, flush := none, bad := false, flags := 0#8, clamps := 0, flushes := 0, phase := .work,
    post := [], ended := none }

/-! A strict form of CRC-32C, which the kernel evaluates over long lists. -/

/-- One byte into the register, as a number. -/
def crcStep (c : Nat) (b : Byte) : Nat := (crc32cByte (BitVec.ofNat 32 c) b).toNat

/-- The register after some bytes, each step evaluated before the next. -/
def crcFold : Nat → List Byte → Nat
  | c, [] => c
  | c, b :: bs => match crcStep c b with
    | 0 => crcFold 0 bs
    | n + 1 => crcFold (n + 1) bs

theorem crcFold_cons (c : Nat) (b : Byte) (bs : List Byte) : crcFold c (b :: bs) = crcFold (crcStep c b) bs := by
  rw [crcFold]
  split <;> simp [*]

theorem crcFold_eq (c : Word) (bs : List Byte) : crcFold c.toNat bs = (crc32cUpd c bs).toNat := by
  induction bs generalizing c with
  | nil => rfl
  | cons b bs ih =>
    rw [crcFold_cons, crcStep, BitVec.ofNat_toNat, BitVec.setWidth_eq, ih]
    rfl

/-- CRC-32C in that form. -/
def crcFast (bs : List Byte) : Word := crc32cFin (BitVec.ofNat 32 (crcFold 0xFFFFFFFF bs))

theorem crc32c_fast : crc32c = crcFast := by
  funext bs
  have h := crcFold_eq 0xFFFFFFFF#32 bs
  unfold crc32c crcFast crc32cInit
  rw [show crcFold 0xFFFFFFFF bs = _ from h]
  simp

/-! Small tests. -/

theorem test_reset_idle : (match step State.reset with | .next t => decide (t.pending = []) | _ => false) = true := by decide


/-! An ill-formed term for each check of WellFormed. -/

/-- A packet whose fields are all 0. -/
def nullPacket : Packet := ⟨0, 0, 0, 0, 0, 0, 0, 0, 0, 0, 0, 0, 0, false, 0, [], 0#32, true, false⟩

theorem test_wf_packets : nullPacket.wf ∧
    ∀ k ∈ [{ nullPacket with dest := 2 ^ 32 }, { nullPacket with src := 2 ^ 32 }, { nullPacket with vc := 8 }, { nullPacket with type := 32 },
      { nullPacket with job := 2 ^ 24 }, { nullPacket with hatch := 256 }, { nullPacket with off := 2 ^ 40 }, { nullPacket with len := 4097 },
      { nullPacket with opc := 16 }, { nullPacket with hops := 64 }, { nullPacket with step := 64 }, { nullPacket with tag := 65536 },
      { nullPacket with tally := 65536 }, { nullPacket with status := 256 }], k.wf = false ∧ (Instr.rdReq 0 k).wf = false ∧ (Instr.mgmt 0 k).wf = false := by
  decide +kernel

theorem test_wf_payload : ({ nullPacket with payload := List.replicate 4096 0#8 } : Packet).wf ∧
    ({ nullPacket with payload := List.replicate 4097 0#8 } : Packet).wf = false := by decide +kernel

theorem test_wf_refused : ∀ i ∈ [Instr.shelfApertureAccess 0 0 none 0, .shelfApertureAccess 0 0 (some []) 4, .tallyValueWrite c0 (.tile 24576 0) 0,
    .tallyAdd c0 (.crate 0 256) 0, .tallyFire (.die 4 0), .tallyFire (.pkg 1024), .cellarRead 0 0 0, .cellarRead 0 129 0, .cellarRead 0 4 3,
    .opIntAdd32 0 [], .opIntAdd32 125 [0#8, 0#8, 0#8, 0#8], .opAliasReserved 128 [], .cellarScrubRead 0 3, .uncread 0 0, .uncread 0 129,
    .fabricResponseTimeout 65536, .collStepComplete 0 16, .collPartnerTimeout 0 16, .bar2Read 0 0 0 .clear, .bar2Write 0 0 [] .clear,
    .doorbell 0 0 3 0 .clear, .commandFetch 0 0 [0#8], .commandRefetch 0 0 [0#8], .ageingMeasure (.core 0) 4096,
    .driverMsg 0 (some (List.replicate 13 0#8)), .debugRequest (.sbRead 0 3), .debugRequest (.sbWrite 0 []), .mgmtRegisterRead [], .mgmtRegisterWrite [],
    .mgmtStrongroomRead [], .mgmtFrameForward (List.replicate 19 0#8), .registerWrite c0 0 16 0 .clear, .bar0Read 0 0 0 .clear,
    .bar0Read 0 0x3FFFFFF 2 .clear], i.wf = false := by decide +kernel

theorem test_wf_taken : ∀ i ∈ [Instr.shelfApertureAccess 0 0 none 4, .tallyAdd c0 (.tile 24575 63) 0, .cellarRead 0 128 2, .opIntAdd32 124 [0#8, 0#8, 0#8, 0#8],
    .collStepComplete 0 15, .commandFetch 0 0 [], .driverMsg 0 none, .debugRequest (.sbRead 0 8), .mgmtFrameForward (List.replicate 20 0#8),
    .bar0Read 0 0x3FFFFFE 2 .clear], i.wf := by decide +kernel
/-! Witnesses: tiles and engines. -/

theorem witness_TileLeavesResetOnlyWithScratchAndCode :
    (let s := run0.put [(0x1004004, 1)];
      s.mayWrite c0 (tileReg 0 4) ∧ s.tileLive 0 ∧ s.on (tHold 0) ∧ 1 ≤ (s.scratchWays 0).length ∧ s.rd (tBase 0) < s.rd (tLimit 0) ∧
        0x1000 ≤ 1024 * s.rd (tBase 0) ∧ 1024 * s.rd (tLimit 0) ≤ s.scratchEnd 0 ∧ s.offline 2 0 = false) ∧
    (live.mayWrite c0 (tileReg 0 4) ∧ live.tileLive 0 ∧ live.on (tHold 0) ∧ live.scratchWays 0 = []) ∧
    (let s := run0.put [(0x1004004, 1), (0x100400C, 0x40004)];
      s.on (tHold 0) ∧ s.rd (tLimit 0) ≤ s.rd (tBase 0)) ∧
    (let s := run0.put [(0x1004004, 1), (0x100400C, 0x40003)];
      s.on (tHold 0) ∧ 1024 * s.rd (tBase 0) < 0x1000) ∧
    (let s := run0.put [(0x1004004, 1), (0x100400C, 0x210004)];
      s.on (tHold 0) ∧ s.scratchEnd 0 < 1024 * s.rd (tLimit 0)) := by decide +kernel

theorem witness_TileHoldAndCodeWrites :
    (run0.mayWrite c0 (tileReg 0 4) ∧ run0.tileLive 0 ∧ run0.on (tHold 0) = false ∧ (run0.tile 0).eng2.run = none) ∧
    (live.mayWrite c0 (tileReg 0 12) ∧ live.tileLive 0 ∧ live.on (tHold 0)) ∧
    (let s := run0.put [(0x1004004, 0x20), (tileTallyBase + 0x310, 0x80)];
      s.tileLive 0 ∧ s.wakeMet 0 ∧ s.rd (tState 0) = 2) := by decide +kernel

theorem witness_QueueWritesMoveTheirPointers :
    (tileRegWriter c0 0 ∧ run0.tileLive 0 ∧ run0.on (tHold 0) = false ∧ (16 + 32 - run0.rd (qTail 0 2)) % 32 + run0.rd (qCount 0 2) ≤ 16 ∧
      16 < (17 + 32 - run0.rd (qTail 0 2)) % 32 + run0.rd (qCount 0 2)) ∧
    (let s := (run0.withEng 2 ⟨[⟨0, 0#512, false⟩], none⟩).put [(tileReg 0 0x38, 2)];
      s.tileLive 0 ∧ s.on (qHalted 0 2) ∧ ((s.tile 0).eng 2).owned = [⟨0, 0#512, false⟩]) ∧
    (run0.on (qHalted 0 2) = false ∧ ((run0.tile 0).eng 2).run = none) ∧
    (let s := run0.withEng 2 ⟨[⟨0, 0#512, false⟩], some (runOf 0)⟩;
      s.tileLive 0 ∧ s.on (qHalted 0 2) = false ∧ ((s.tile 0).eng 2).run = some (runOf 0)) := by decide +kernel

theorem witness_DescriptorCompletionFollowsItsStatus :
    run0.carryRecs = [] ∧ ∀ code ∈ [stDONE, stBOUND], let r := { runOf 0 with ended := some code };
      (((run0.withEng 2 ⟨[⟨0, 0#512, false⟩], some r⟩).tile 0).eng 2).run = some r ∧ r.flush = none ∧ r.post = [] ∧ r.slot < 32 ∧ code < 256 := by
  decide +kernel

/-- A copy of 64 bytes from buffer 0 to buffer 1, in a mode; the index list of a group is in buffer 2. -/
def copyDesc (mode : Nat) : BitVec 512 :=
  bitsOf [(0, 1), (104, 0), (108, 1), (112, 2), (116, mode), (192, 64), (224, 1), (384, 1)]

/-- May a copy descriptor start, and which check of it fails? -/
def moverVerdict (s : State) (d : BitVec 512) : Bool × Bool × Bool × Option Nat :=
  let r := s.newRun 0 ⟨0, d, false⟩ (s.lateValues 0 d moverLate) (mBufs d) s.sdNum;
  (decide (s.startable 0 2 = some ⟨0, d, false⟩), r.mIllegal, decide (0 < r.mTotal ∧ r.mTotal < 2 ^ 40), s.checkExtents 0 r r.mExtents
    (r.mOverlap && !(decide (mMode r.desc = 0) && decide (r.mCount1 = 1) && decide (r.mCount2 = 1))))

theorem witness_MoverStartsAndEndsItsChecks :
    (∀ mode ∈ [0, 1, 2], let d := copyDesc mode;
      hOp d = 1 ∧ mMode d = mode ∧ mArrEn d = false ∧ moverVerdict (run0.withEng 2 ⟨[⟨0, d, false⟩], none⟩) d = (true, false, true, none)) ∧
    (let d := copyDesc 3;
      hOp d = 1 ∧ moverVerdict (run0.withEng 2 ⟨[⟨0, d, false⟩], none⟩) d = (true, true, true, none)) ∧
    (∀ mode ∈ [0, 1, 2], let d := bitsOf [(0, 1), (104, 0), (108, 1), (112, 2), (116, mode), (192, 1024), (224, 2), (384, 1), (256, 1024), (288, 1024)];
      moverVerdict (run0.withEng 2 ⟨[⟨0, d, false⟩], none⟩) d = (true, false, true, some stBOUND)) ∧
    run0.tile 0 = live.tile 0 ∧ NoArrayErrors run0 0 ∧
    (let d := copyDesc 0;
      ((run0.withEng 2 ⟨[⟨0, d, true⟩], none⟩).startable 0 2 = some ⟨0, d, true⟩) ∧
        ((run0.withEng 2 ⟨[⟨0, d, true⟩], none⟩).startRead 0 ⟨0, d, true⟩ (mBufs d)).1 = true) := by
  refine ⟨by decide +kernel, by decide +kernel, by decide +kernel, by decide +kernel, rfl, by decide +kernel⟩

theorem witness_MoverChunksCarryTheirBytes :
    (let d := copyDesc 0;
      let r := run0.newRun 0 ⟨0, d, false⟩ [] (mBufs d) 0;
      let s := run0.withEng 2 ⟨[⟨0, d, false⟩], some r⟩;
      ((s.tile 0).eng2).run = some r ∧ r.ended = none ∧ r.stop = none ∧ r.flush = none ∧ r.pos < r.mTotal ∧ r.flight = [] ∧ hOp r.desc = 1 ∧ s.tileLive 0 ∧ mMode r.desc = 0 ∧
        bKind (r.buf (mSrcBuf r.desc)) = 1 ∧ bKind (r.buf (mDstBuf r.desc)) = 1 ∧ mArrEn r.desc = false ∧
        (match (s.scratchRead 0 (bBase (r.buf (mSrcBuf r.desc)) + (r.mCut r.idx).1) (r.mCut r.idx).2.2).1 with
          | .ok bs => decide (bs.length = 64)
          | .bad _ => false) = true) ∧
    (let c : Chunk := ⟨0, 2, .shelf 0 0x2400, true, [1#8, 2#8], 0#32, 0, [], 0, none, none, false, none, true⟩;
      let r := { runOf (copyDesc 0) with flight := [c] };
      ((run0.withEng 2 ⟨[⟨0, r.desc, false⟩], some r⟩).tile 0).eng2.run = some r ∧ r.ended = none ∧ r.bad = false ∧ c.fail = none ∧
        run0.throughput = false ∧ (run0.put [(0x500028, 5)]).throughput ∧ c.win = none ∧ c.own ∧ c.data.length = c.len) := by
  decide +kernel

/-- A maintenance descriptor with an ACTION, of 128 bytes of buffer 0 or of ALL. -/
def maintDesc (action : Nat) (all : Bool) : BitVec 512 := bitsOf [(0, 2), (108, action), (111, b2n all), (192, 128)]

theorem witness_ShelfMaintenanceActsOnLinesAndScratch :
    (∀ a ∈ [0, 1, 2, 3], let d := maintDesc a false;
      let s := run0.withEng 2 ⟨[⟨0, d, false⟩], none⟩;
      let r := s.newRun 0 ⟨0, d, false⟩ (s.lateValues 0 d maintLate) [xBuf d] s.sdNum;
      let e : Extent := ⟨xBuf d, r.xOff, (r.xOff + r.xLength : Nat), false, decide (a ≠ 1)⟩;
      s.startable 0 2 = some ⟨0, d, false⟩ ∧ hOp d = 2 ∧ xAction d = a ∧ r.xIllegal = false ∧ xAll d = false ∧ bKind (r.buf (xBuf d)) = 1 ∧
        r.extentIn e ∧ s.extentAllowed 0 r e ∧ bRd (r.buf (xBuf d)) ∧ 0 < r.xLength) ∧
    (∀ a ∈ [1, 2, 3, 4], let d := maintDesc a true;
      let s := run0.withEng 2 ⟨[⟨0, d, false⟩], none⟩;
      let r := s.newRun 0 ⟨0, d, false⟩ (s.lateValues 0 d maintLate) [] s.sdNum;
      s.startable 0 2 = some ⟨0, d, false⟩ ∧ hOp d = 2 ∧ xAction d = a ∧ r.xIllegal = false ∧ xAll d ∧
        nextLine (s.maintWays 0 a) 0 ≠ none ∧
        (let s := run0.withEng 2 ⟨[⟨0, d, false⟩], some r⟩;
          (s.tile 0).eng2.run = some r ∧ r.ended = none ∧ r.flush = none ∧ s.tileLive 0 ∧
            ∃ p ∈ (nextLine (s.maintWays 0 a) r.pos).toList, (a = 1 ∨ a = 3) → (s.actLine 0 (p % 12) (p / 12) a).1 ≠ stWAIT)) ∧
    (let d := maintDesc 0 false;
      let r := run0.newRun 0 ⟨0, d, false⟩ (run0.lateValues 0 d maintLate) [xBuf d] run0.sdNum;
      let s := run0.withEng 2 ⟨[⟨0, d, false⟩], some r⟩;
      (s.tile 0).eng2.run = some r ∧ r.ended = none ∧ r.flush = none ∧ s.tileLive 0 ∧ bKind (r.buf (xBuf r.desc)) = 1 ∧ r.pos < r.xLength) := by
  decide +kernel

/-- A product of 1 × 1 × 1 FP32 elements: A in buffer 0, B in buffer 1, C in buffer 2. -/
def matrixDesc : BitVec 512 :=
  bitsOf [(0, 0x10), (64, 0), (68, 1), (72, 2), (104, 1), (128, 1), (144, 1), (256, 4), (288, 4), (320, 4)]

theorem witness_MatrixDescriptorRunsToDone :
    let d := matrixDesc;
    let s := run0.withEng 0 ⟨[⟨0, d, false⟩], none⟩;
    let r := s.newRun 0 ⟨0, d, false⟩ (s.lateValues 0 d matrixLate) (matrixBufs d) s.sdNum;
    s.startable 0 0 = some ⟨0, d, false⟩ ∧ (r.bufs.all fun b => bValid b.2) ∧ (∀ b ∈ r.bufs, bKind b.2 = 1) ∧ (s.tile 0).eccErr = [] ∧
      xEscEn d = false ∧ xRescue d = false ∧
      (match mxOf r with
        | some x => (match (s.mxRecords 0 r x).1 with
          | .ok q => decide (s.mxCheck 0 r x q = none)
          | .error _ => false)
        | none => false) = true := by decide +kernel

/-- A vector descriptor of an operation over one element: X in buffer 0, Y in buffer 1, Z in buffer 2, records in buffer 3. Y is INT32 and
K is 1 for TOPK; a comparison has INT32 results; CVTQ has INT8 results. -/
def vectorDesc (op : Nat) : BitVec 512 :=
  bitsOf [(0, op), (64, 0), (68, 1), (72, 2), (76, 3), (84, if op = 0x50 then 13 else 0),
    (88, if vIsCmp op then 13 else if op = 0x21 then 6 else 0), (128, 1), (160, 1), (384, if op = 0x50 then 1 else 0)]

theorem witness_VectorDescriptorRunsToDone :
    vectorRows.all (fun p =>
      let d := vectorDesc p.1;
      let s : State := { run0 with shelf := run0.shelf ++ [(0x2C02, 0x80#8), (0x2C03, 0x3F#8)] };
      let s := s.withEng 1 ⟨[⟨0, d, false⟩], none⟩;
      let r0 := s.newRun 0 ⟨0, d, false⟩ (s.lateValues 0 d vectorLate) [] s.sdNum;
      decide (s.startable 0 1 = some ⟨0, d, false⟩) && decide (hOp d = p.1) && decide ((s.vLoop 0 d).1.toOption = some 0#512) &&
        decide (vPolicy d ≠ 2) && decide (vSegMode d = 0) && decide ((s.tile 0).eccErr = []) &&
        match vxOf r0 with
        | none => false
        | some x =>
          let r := { r0 with bufs := (x.bufs d).map fun n => (n, s.bufDesc 0 n) };
          decide (vxOf r = some x) && !s.vCarryBad 0 d x && (r.bufs.all fun b => bValid b.2 && decide (bKind b.2 = 1)) &&
            decide (x.n0 ≠ 0) && decide (x.rows ≠ 0) && decide (x.cin d = 0) && decide (x.cout d = 0) &&
            (s.vOutRec 0 r x).1.isOk && decide (s.vCheck 0 r x = none)) = true := by decide +kernel

/-! Witnesses: the control core. -/

/-- Tile 0 running with an instruction word at its pc 0x1000 and x1 to x3 as given. -/
def core0 (w x1 x2 x3 : Nat) : State :=
  let s : State := { run0 with shelf := run0.shelf ++ ((List.range 4).zip (toBytes 4 w)).map (fun p => (0x1000 + p.1, p.2)) }
  s.setTile 0 { s.tile 0 with cpu := ⟨0x1000#32, [(1, BitVec.ofNat 32 x1), (2, BitVec.ofNat 32 x2), (3, BitVec.ofNat 32 x3)], []⟩ }

/-- A state that cannot be compared at once: what matters of it is that there is one. -/
theorem fetched_ok {s : State} {t : Nat} {f : CtlFetch} (h : (s.ctlFetch t).1 = f) : s.ctlFetch t = (f, (s.ctlFetch t).2) := by
  rw [← h]

theorem witness_CoreExecutesLoadsStoresAndInstructions :
    (∃ s1 s2 bs, let s := core0 0x00012083 0 0x5000 0;
      s.ctlRuns 0 ∧ s.ctlFetch 0 = (.ok (.load 2 true 1 2 0) 4 0x00012083, s1) ∧ s1.ctlLoad 0 0x5000 4 = (.ok bs, s2)) ∧
    (∃ s1 s2 bs, let s := core0 0x00312023 0 0x5000 7;
      s.ctlRuns 0 ∧ s.ctlFetch 0 = (.ok (.store 2 2 3 0) 4 0x00312023, s1) ∧ s1.ctlStore 0 0x5000 [7#8, 0#8, 0#8, 0#8] = (.ok bs, s2)) ∧
    ∀ p ∈ [(0x10500073, Rv.wfi), (0x003100B3, .alu .full .add 1 2 3), (0x00000463, .branch 0 0 0 8), (0x008000EF, .jal 1 8), (0x00000073, .ecall)],
      (core0 p.1 0 0 0).ctlRuns 0 ∧ ((core0 p.1 0 0 0).ctlFetch 0).1 = .ok p.2 4 p.1 := by
  refine ⟨⟨_, _, List.replicate 4 0#8, by decide +kernel, fetched_ok (by decide +kernel), Prod.ext (by decide +kernel) rfl⟩,
    ⟨_, _, [], by decide +kernel, fetched_ok (by decide +kernel), Prod.ext (by decide +kernel) rfl⟩, by decide +kernel⟩

theorem witness_CoreAccessOutsideTheMapTraps :
    ∀ a ∈ [0x8000, 0x2FFFC, 0x30000, 0x3FFFC, 0x41000, 0x7FFFC, 0x80100, 0x80FFC, 0x82000, 0xBFFFC, 0xC8000, 0x7FFFFFFC],
      (∃ s1, (core0 0x00012083 0 a 0).ctlRuns 0 ∧ (core0 0x00012083 0 a 0).ctlFetch 0 = (.ok (.load 2 true 1 2 0) 4 0x00012083, s1) ∧
        ((s1.tile 0).cpu.xr 2).toNat = a ∧ s1.scratchEnd 0 = 0x8000) ∧
      (∃ s1, (core0 0x00312023 0 a 0).ctlRuns 0 ∧ (core0 0x00312023 0 a 0).ctlFetch 0 = (.ok (.store 2 2 3 0) 4 0x00312023, s1) ∧
        ((s1.tile 0).cpu.xr 2).toNat = a ∧ s1.scratchEnd 0 = 0x8000) := by
  have h : ∀ a ∈ [0x8000, 0x2FFFC, 0x30000, 0x3FFFC, 0x41000, 0x7FFFC, 0x80100, 0x80FFC, 0x82000, 0xBFFFC, 0xC8000, 0x7FFFFFFC],
      ((core0 0x00012083 0 a 0).ctlRuns 0 ∧ ((core0 0x00012083 0 a 0).ctlFetch 0).1 = .ok (.load 2 true 1 2 0) 4 0x00012083 ∧
        ((((core0 0x00012083 0 a 0).ctlFetch 0).2.tile 0).cpu.xr 2).toNat = a ∧ ((core0 0x00012083 0 a 0).ctlFetch 0).2.scratchEnd 0 = 0x8000) ∧
      ((core0 0x00312023 0 a 0).ctlRuns 0 ∧ ((core0 0x00312023 0 a 0).ctlFetch 0).1 = .ok (.store 2 2 3 0) 4 0x00312023 ∧
        ((((core0 0x00312023 0 a 0).ctlFetch 0).2.tile 0).cpu.xr 2).toNat = a ∧ ((core0 0x00312023 0 a 0).ctlFetch 0).2.scratchEnd 0 = 0x8000) := by
    decide +kernel
  intro a ha
  exact ⟨⟨_, (h a ha).1.1, fetched_ok (h a ha).1.2.1, (h a ha).1.2.2⟩, ⟨_, (h a ha).2.1, fetched_ok (h a ha).2.2.1, (h a ha).2.2.2⟩⟩

/-! Witnesses: the engines' second halves, carries and the crate's chain. -/

/-- An RSUM of one element with a carry-in from the chain. -/
def chainDesc : BitVec 512 := vectorDesc 0x40 + bitsOf [(117, 1)]

/-- The run of a descriptor with its four buffers read. -/
def runBufs (d : BitVec 512) (p : Phase) : Run := { runOf d with bufs := (List.range 4).map (fun n => (n, run0.bufDesc 0 n)), phase := p }

/-- Tile 0's vector engine waiting for a carry, with the given carries on its link. -/
def waiting (w : CarryWait) (ks : List Carry) : State := (run0.withEng 1 ⟨[⟨0, chainDesc, false⟩], some (runBufs chainDesc (.carry w))⟩).setLink 0 0 ks

theorem witness_RescueAndCarriesEndTheirDescriptors :
    (let r := runBufs matrixDesc (.rescue 0x3F800000 0 0 0 0 0 0 0);
      let s := run0.withEng 0 ⟨[⟨0, matrixDesc, false⟩], some r⟩;
      (s.tile 0).eng0.run = some r ∧ s.tileLive 0 ∧ (mxOf r).isSome ∧ (∀ x ∈ (mxOf r).toList, (rescueScale x.fc 0 0x3F800000).toOption = none) ∧
        bKind (r.buf (xQBuf r.desc)) = 1 ∧ bBase (r.buf (xQBuf r.desc)) + xCQoff r.desc + 32 ≤ s.scratchEnd 0 ∧ r.ended = none) ∧
    (let w : CarryWait := ⟨1, 1, [0x3F800000], 0, [], none, none, stDONE⟩;
      let k : Carry := ⟨0, 0, 0, false, false⟩;
      let r := runBufs chainDesc (.carry w);
      let s := waiting w [k];
      (s.tile 0).eng1.run = some r ∧ s.tileLive 0 ∧ s.link 0 0 = [k] ∧
        (match vxOf r with
          | some x => decide (x.cin r.desc = 1 ∧ x.cout r.desc = 0 ∧ k.kind = carryKind x.acc ∧ k.opc = carryOpc x.op ∧
              bKind (r.buf (vZBuf r.desc)) = 1 ∧ s.extentAllowed 0 r (x.zExt r.desc) ∧ r.extentIn (x.zExt r.desc) ∧ x.n0 ≠ 0 ∧ x.rows ≠ 0 ∧
              w.locals.length ≤ (if x.kind = .reduce then 1 else x.n0 * x.rows))
          | none => false) = true ∧
        (∀ k' ∈ [(⟨0, 1, 0, false, false⟩ : Carry), ⟨0, 0, 1, false, false⟩, ⟨0, 0, 0, true, false⟩, ⟨0, 0, 0, false, true⟩],
          (waiting w [k']).link 0 0 = [k'] ∧ (k'.kind ≠ 0 ∨ k'.opc ≠ 0 ∨ k'.rsv ∨ k'.broken)) ∧
        s.rd (scanTimeout 0) ≠ 0) ∧
    (let s := live.setCrate 0 { live.crate 0 with pendK := some 31 };
      s.crateRuns 0 ∧ (s.crate 0).pendK = some 31) := by decide +kernel

theorem witness_CarryRecordsAndChainRegisters :
    (∃ s1, let k : CarryRec := ⟨0, [⟨.shelf 0 0x2000, none, 0, 2⟩], [1#8, 2#8], crc32c [1#8, 2#8], some 5⟩;
      let s : State := { run0 with carryRecs := [k] };
      s.carryRecs[0]? = some k ∧ k.parts = [⟨.shelf 0 0x2000, none, 0, k.bytes.length⟩] ∧ s.recordHeld k = false ∧
        ({ s with carryRecs := s.carryRecs.eraseIdx 0 } : State).apertureWrite 0 0x2000 k.bytes = (0, s1)) ∧
    (live.mayWrite c0 (crateReg 0 0x20) ∧ live.crateRuns 0 ∧ live.chainBusy 0 = false ∧
      (waiting ⟨1, 1, [0x3F800000], 0, [], none, none, stDONE⟩ []).chainBusy 0) ∧
    live.mayWrite c0 (hubReg 0 0x400 4) ∧ (65535 : Nat) % 65536 ≠ 0 ∧ (65536 : Nat) % 65536 = 0 := by
  refine ⟨⟨_, by decide +kernel, rfl, by decide +kernel, Prod.ext (by decide +kernel) rfl⟩, by decide +kernel⟩

theorem witness_LockWritesAreAcceptedOrRefused :
    live.mayWrite c0 (hubReg 0 0xC00 16) ∧ live.shelfLive 0 ∧ live.rd (shLock 0) = 0 ∧ live.on (tHold 0) ∧ live.on (shBusy 0) = false ∧
      (live.enabledWays 0).length = 12 ∧ run0.on (tHold 0) = false ∧ run0.shelfLive 0 ∧ (live.put [(hubReg 0 0xC00 16, 0x100)]).on (shBusy 0) := by
  decide +kernel

/-- A clean cache line of the page at 0x0 that the given way holds. -/
def lineOf (st : LineSt) (mask : BitVec 128) : Line := ⟨st, 0, 0, mask, false⟩

theorem witness_ShelfChangesEmptyTheirWays :
    (let s := live.setTile 0 { live.tile 0 with lockNew := some 12, lines := [(0, lineOf .dirty 0#128)] };
      (s.tile 0).lockNew = some 12 ∧ s.shelfLive 0 ∧ (∀ w ∈ s.enabledWays 0, s.disabling 0 w = false) ∧ (roleWriteBacks s 0 12).1 ≠ stWAIT) ∧
    (∀ v ∈ [1, 2], let s := live.setTile 0 { live.tile 0 with wayDis := [(11, v)] };
      s.shelfLive 0 ∧ s.isScratchWay 0 11 = false ∧ lookMap 0 (s.tile 0).wayDis 11 = v ∧ ∀ st ∈ List.range 128, (s.line 0 11 st).held = false) ∧
    (let s := live.setTile 0 { live.tile 0 with wayDis := [(0, 3)], lines := [(0, lineOf .dirty 0#128)] };
      s.shelfLive 0 ∧ s.disabling 0 0 ∧ (s.writeBackWay 0 0).1 ≠ stWAIT) ∧
    (let s := live.setTile 0 { live.tile 0 with fill := some (0, 0) };
      let s1 := s.setTile 0 { s.tile 0 with fill := none };
      (s.tile 0).fill = some (0, 0) ∧ s1.lookup 0 0 = none ∧ (s1.fetchLine 0 0 0).1 = .ok (List.replicate 128 0#8) ∧ (s1.allocate 0 (setOf 0)).2.1 ≠ none) ∧
    (let s := live.setTile 0 { live.tile 0 with fill := some (0, 0), lines := [(0, lineOf .part 3#128)] };
      let s1 := s.setTile 0 { s.tile 0 with fill := none };
      s1.lookup 0 0 = some 0 ∧ s1.disabling 0 0 = false ∧ (s1.line 0 0 (setOf 0)).st = .part ∧ (s1.tileHomeRead 0 0 128).1 = .ok (List.replicate 128 0#8)) := by
  decide +kernel

theorem witness_ScrubReadsFindArrayErrors :
    (let s := run0.put [(hubReg 0 0xC00 16, 0x402)];
      s.shelfLive 0 ∧ s.on (shScrub 0) ∧ scrubFrom (s.enabledWays 0) (s.tile 0).scrub = 0 ∧ (s.tile 0).eccErr = [] ∧ s.isScratchWay 0 0) ∧
    (let s := (run0.put [(hubReg 0 0xC00 16, 0x402)]).setTile 0 { run0.tile 0 with scrub := 255 };
      s.shelfLive 0 ∧ s.on (shScrub 0) ∧ scrubFrom (s.enabledWays 0) (s.tile 0).scrub = 255 ∧ (s.tile 0).eccErr = [] ∧ s.isScratchWay 0 1) ∧
    (let s := (run0.put [(hubReg 0 0xC00 16, 0x402)]).setTile 0 { run0.tile 0 with scrub := 1535 };
      s.shelfLive 0 ∧ s.on (shScrub 0) ∧ scrubFrom (s.enabledWays 0) (s.tile 0).scrub = 1535 ∧ (s.tile 0).eccErr = [] ∧
        s.isScratchWay 0 11 = false ∧ (s.line 0 11 127).st = .invalid ∧ (s.tile 0).scrub < 1536) ∧
    (∀ s ∈ [run0, run0.put [(crateReg 0 0, 0x30000000)]], s.tileOn 0 ∧ s.offline 2 0 = false ∧ (s.crate 0).clockLost = false ∧
      s.sliceOn 0 0 = false) ∧
    min 0x30000 (run0.scratchEnd 0) = 0x8000 ∧ run0.on (tHold 0) = false ∧ NoArrayErrors run0 0 ∧
    (let s := run0.put [(0x1004004, 1)];
      s.on (tHold 0) ∧ min 0x30000 (s.scratchEnd 0) = 0x8000) := by
  refine ⟨by decide +kernel, by decide +kernel, by decide +kernel, by decide +kernel, by decide +kernel, by decide +kernel, rfl, by decide +kernel⟩

/-! Witnesses: clocks of the crates, and tallies. -/

theorem witness_ParkingAndCrateClocks :
    (let s := live.put [(0x1004004, 3)];
      s.tileLive 0 ∧ s.on (tPark 0) ∧ s.on (tParked 0) = false ∧ s.tileIdle 0) ∧
    (let s := live.put [(0x1004004, 5)];
      s.tileLive 0 ∧ s.on (tPark 0) = false ∧ s.on (tParked 0) ∧ (s.crate 0).frozen = false ∧ (s.crate 0).stepTo = none ∧
        s.on govLowest = false) ∧
    (let s := live.put [(0x1004004, 0x20)];
      s.tileLive 0 ∧ s.tileIdle 0 ∧ s.rd (tState 0) = 2) ∧
    (live.mayWrite c0 (crateReg 0 0) ∧ live.crateOn 0 ∧ live.crateRuns 0 ∧ (live.crate 0).clockLost = false) ∧
    (let s := live.put [(crateReg 0 0, 0x10000000)];
      s.crateRuns 0 ∧ s.on (crOff 0) ∧ s.crateTraffic 0 = false ∧ ∀ i ∈ List.range 64, s.on (tParked (64 * 0 + i)) ∨ s.tileIdle (64 * 0 + i)) ∧
    (let s := live.put [(crateReg 0 0, 0x4000000)];
      s.crateOn 0 ∧ s.on (crateStopped 0) ∧ (s.crate 0).clockLost = false) ∧
    ∀ x ∈ [0, 1], let s := (live.put [(crateReg 0 0x30, 880 + x * 2 ^ 24)]).setCrate 0 { live.crate 0 with stepTo := some 710 };
      (s.crate 0).stepTo = some 710 ∧ (s.crate 0).frozen = false ∧ s.crateOn 0 ∧ s.on govLowest = false ∧ s.on (crThrottle 0) = decide (x = 1) := by
  decide +kernel

/-- One tally of each level. -/
def someTallies : List TallyLoc := [.tile 0 63, .crate 383 255, .die 3 4095, .pkg 1023]

theorem witness_TallyChangesAreClamped :
    (∀ l ∈ someTallies, l.exists' ∧ live.tallyOn l ∧ live.tallyClocked l) ∧ live.tallyWaits c0 = false ∧
    live.tallyWaits (.tile 0) = false ∧ tallyWriter (.tile 0) (.tile 0 63) ∧
    (∀ l ∈ [TallyLoc.crate 383 255, .die 3 4095, .pkg 1023], tallyWriter c0 l) ∧
    (let s := live.put [(0x430000, 0xFFFE)];
      s.rd (TallyLoc.pkg 0).value = 0xFFFE ∧ (s.rd (TallyLoc.pkg 0).value : Int) + signed16 1 ≤ 0xFFFF ∧ 0xFFFF < (s.rd (TallyLoc.pkg 0).value : Int) + signed16 2) ∧
    (live.rd (TallyLoc.pkg 0).value : Int) + signed16 0xFFFF < 0 ∧
    (let s : State := { live with incs := [⟨5, some 0, 1, 2, 0, 0⟩, ⟨5, some 0, -1, 2, 1, 0⟩] };
      s.tallyOn (.tile 0 5) ∧ s.tallyClocked (.tile 0 5) ∧ ∀ i ∈ s.incs, i.loc = some (.tile 0 5) ∧ s.seamHolds i.die (TallyLoc.tile 0 5).onDie = false) := by decide +kernel

theorem witness_IncrementsAreSentHeldOrDropped :
    (live.tileOn 0 ∧ live.crateRuns (0 / 64) ∧ live.storesOut 0 = false) ∧ (⟨64, some 0, 1, 2, 0, 0⟩ : Inc).loc = none ∧
    (let s := live.put [(0x1C0100, 0)];
      (⟨5, some 0, 1, 2, 0, 0⟩ : Inc).loc = some (.tile 0 5) ∧ s.tallyOn (.tile 0 5) = false ∧ s.seamHolds 0 (TallyLoc.tile 0 5).onDie = false) ∧
    (let s := live.put [(crateReg 0 0, 0x4000000)];
      s.tallyOn (.tile 0 5) ∧ s.tallyClocked (.tile 0 5) = false) ∧
    (let s := live.put [(seamB 16 0, 0xC1)];
      let i : Inc := ⟨0xC000, none, 1, 3, 0x8000, 0⟩;
      i.loc = some (.pkg 0) ∧ 0 ∈ [i.die, (TallyLoc.pkg 0).onDie] ∧ 16 ∈ hubBundles 0 ∧ i.die ≠ (TallyLoc.pkg 0).onDie ∧
        s.rd (seamRole 16) = 1 ∧ s.rd (seamState 16) = 3) ∧
    (let s : State := { live with homeQ := [⟨driverReserve, [1#8], some 1⟩] };
      s.tallyWaits (.hostPort 1) ∧ tallyWriter (.hostPort 1) (.pkg 0)) ∧ live.tallyWaits c0 = false ∧
    ∀ f ∈ [TallyCfg.word (.crate 383 255) 1, .word (.die 3 4095) 0, .word (.pkg 1023) 2, .crateMask 383 7 1, .dieMask 3 7 2],
      (f.addr.bind regRow).isSome ∧ f.owner.exists' ∧ tallyWriter c0 f.owner ∧ live.tallyOn f.owner ∧ live.tallyClocked f.owner := by decide +kernel

theorem witness_TalliesFireIntoTheirFans :
    (let s := live.put [(crateReg 0 0x1000, 3), (crateReg 0 0x1008, 3 + 5 * 2 ^ 16 + 2 ^ 22), (crateReg 0 0x40, 5)];
      (TallyLoc.crate 0 0).exists' ∧ s.canFire (.crate 0 0) ∧ s.planRun = none ∧ s.rd ⟨crateReg 0 0x1008, 22, 1⟩ = 1 ∧ s.members (crateReg 0 0x40) 64 = [0, 2]) ∧
    (let s := live.put [(0x400000, 3), (0x400004, 3 + 5 * 2 ^ 16 + 2 ^ 24), (0x438000, 1)];
      (TallyLoc.die 0 0).exists' ∧ s.canFire (.die 0 0) ∧ s.rd ⟨0x400004, 24, 1⟩ = 1 ∧ s.members 0x438000 96 = [0] ∧ s.crateOn 0) ∧
    let s := live.put [(0x430000, 3), (0x430004, 3), (0x430008, 0x10001), (0x290008, 6), (0x290010, 1)];
    (TallyLoc.pkg 0).exists' ∧ s.canFire (.pkg 0) ∧ bitAt (s.rd ⟨0x430008, 16, 4⟩) 0 ∧ s.domPowered 16 ∧ bitAt (s.rd ⟨0x430008, 0, 16⟩) 0 ∧
      s.rd (fabState 0) = 6 ∧ s.fencePasses 0 0 (s.rd jobId) ∧ s.legHeld 5 = false ∧
      s.mayLeave ⟨0, none, s.syncPacket 0 (s.rd ⟨0x43000C, 0, 10⟩) 1⟩ ∧
      (s.setFport 0 { FPort.fresh with used := [(0, 32)] }).mayLeave ⟨0, none, s.syncPacket 0 (s.rd ⟨0x43000C, 0, 10⟩) 1⟩ = false := by decide +kernel

/-! Witnesses: the cellar. -/

/-- The location of an address of the carving of `live`. -/
def locOf (s : State) (a : Nat) : Loc := (s.locate a).getD ⟨0, 0, 0, 0, 0, 0⟩

theorem serves_of {s : State} {l : Loc} (h : (s.homeStatus l).1 = 0) : s.homeStatus l = (0, s) := by
  unfold State.homeStatus at h ⊢
  split
  · rename_i c; rw [if_pos c] at h; exact absurd h (by simp)
  rename_i c; rw [if_neg c] at h
  split
  · rename_i c; rw [if_pos c] at h; exact absurd h (by simp)
  rename_i c; rw [if_neg c] at h
  split
  · rename_i c; rw [if_pos c] at h; exact absurd h (by simp [stWAIT])
  rename_i c; rw [if_neg c] at h
  split
  · rename_i c; rw [if_pos c] at h; exact absurd h (by simp [stWAIT])
  rfl

/-- A line of a state in which nothing but the stack holds anything. -/
theorem plain_of {s : State} {a : Nat} (h1 : s.locate a = some (locOf s a)) (h2 : (s.homeStatus (locOf s a)).1 = 0) (h3 : s.lineBusy (a / 128) = false)
    (h4 : s.dir (a / 128) = none) (h5 : s.hamper (locOf s a).home = []) (h6 : s.isRetired (locOf s a) = false) (h7 : s.symErr = []) (h8 : s.burstPoison = [])
    (h9 : s.repairing = []) :
    PlainLine s (locOf s a) a :=
  ⟨h1, serves_of h2, h3, by simp [State.lineHeld, State.bankHeld, h9], h4, by simp [h5], h6, fun b _ => by simp [h7, h8, lookMap, State.isPoison]⟩

/-- The first and the last address of the cellar are plain in `live`. -/
theorem plain_live : PlainLine live (locOf live 0) 0 ∧ PlainLine live (locOf live (cellarSize - 1)) (cellarSize - 1) :=
  ⟨plain_of (by decide +kernel) (by decide +kernel) (by decide +kernel) (by decide +kernel) (by decide +kernel) (by decide +kernel) rfl rfl rfl,
    plain_of (by decide +kernel) (by decide +kernel) (by decide +kernel) (by decide +kernel) (by decide +kernel) (by decide +kernel) rfl rfl rfl⟩

/-- `live` with one posted write to line 0. -/
def posted (n : Nat) : State := { live with homeQ := [⟨0, List.replicate n 7#8, some 0⟩] }

theorem plain_posted : ∀ n ∈ [1, 64, 127, 128], PlainLine (posted n) (locOf (posted n) 0) 0 := by
  have h : ∀ n ∈ [1, 64, 127, 128], (posted n).locate 0 = some (locOf (posted n) 0) ∧ ((posted n).homeStatus (locOf (posted n) 0)).1 = 0 ∧
      (posted n).lineBusy (0 / 128) = false ∧ (posted n).dir (0 / 128) = none ∧ (posted n).hamper (locOf (posted n) 0).home = [] ∧
      (posted n).isRetired (locOf (posted n) 0) = false := by decide +kernel
  exact fun n hn => plain_of (h n hn).1 (h n hn).2.1 (h n hn).2.2.1 (h n hn).2.2.2.1 (h n hn).2.2.2.2.1 (h n hn).2.2.2.2.2 rfl rfl rfl

theorem plain_hamper : ∀ n ∈ [1, 64, 127, 128], (posted n).hamper (locOf (posted n) 0).home = [] := by decide +kernel

theorem witness_CellarReadsReturnWhatWasWritten :
    (∀ n ∈ [1, 64, 127, 128], ∃ w, (posted n).takeWrite 0 = some w ∧ w.a = 0 ∧ w.bs.length = n ∧ PlainLine (posted n) (locOf (posted n) 0) w.a ∧
      ((posted n).hamper (locOf (posted n) 0).home).length < 256 ∧ (posted n).tallyQ = []) ∧
    PlainLine live (locOf live 0) 0 ∧ live.mayWrite c0 (cel 19 0x10) ∧ live.celLive 19 ∧
    (let s := live.put [(cel 19 0x10, 8)];
      s.on (hamperBusy 39) ∧ s.on (celThermalStop 19) = false) := by
  refine ⟨fun n hn => ⟨⟨0, List.replicate n 7#8, some 0⟩, rfl, rfl, List.length_replicate, plain_posted n hn, by rw [(plain_hamper n hn)]; decide, rfl⟩, plain_live.1, by decide +kernel, by decide +kernel,
    by decide +kernel⟩

theorem witness_OperationWritesCombineElements :
    PlainLine live (locOf live 0) 0 ∧ (∀ p ∈ opRows, (0 : Nat) % opElem p.1 = 0 ∧ 128 % opElem p.1 = 0 ∧ (opElem p.1 = 1 ∨ 1 % opElem p.1 ≠ 0)) ∧ live.locate 0 = some (locOf live 0) ∧
      live.homeStatus (locOf live 0) = (0, live) ∧ live.writeBusy (locOf live 0) (0 / 128) [0, 1] = false :=
  ⟨plain_live.1, by decide, plain_live.1.place, plain_live.1.serves, by decide +kernel⟩

/-- A fetching record: RET_OFF, RET_TALLY, SIZE, and the last reserved byte. -/
def fetchRec (off tally size rsv : Nat) : BitVec 256 := BitVec.ofNat 256 (off * 2 ^ 128 + tally * 2 ^ 160 + size * 2 ^ 184 + rsv * 2 ^ 248)

theorem witness_FetchingRequestsAnswerTheOldValue :
    PlainLine run0 (locOf run0 0) 0 ∧ run0.tileOn 0 ∧ run0.resultWaits 0 = false ∧
    (∀ z ∈ [0, 1], let r := fetchRec 0x7FF0 0x7FFF z 0;
      bitsAt (frRetTally r) 14 2 < 2 ∧ frRetOff r % 16 = 0 ∧ 0x1000 ≤ frRetOff r ∧ frRetOff r + 16 ≤ min 0x30000 (run0.scratchEnd 0) ∧ frSize r = z ∧ frRsv r = 0) ∧
    1 < frSize (fetchRec 0x1000 0 2 0) ∧ frRsv (fetchRec 0x1000 0 0 1) ≠ 0 ∧ frRetOff (fetchRec 0x1008 0 0 0) % 16 ≠ 0 ∧ frRetOff (fetchRec 0xFF0 0 0 0) < 0x1000 :=
  ⟨plain_of (by decide +kernel) (by decide +kernel) (by decide +kernel) (by decide +kernel) (by decide +kernel) (by decide +kernel) rfl rfl rfl, by decide +kernel, by decide +kernel, by decide +kernel, by decide, by decide,
    by decide, by decide⟩

theorem witness_CellarErrorsAndGenerators :
    (let s := live.put [(0x380038, 0x200)];
      s.on (celScrub (0 / 32)) ∧ s.celLive (0 / 32) ∧ s.on (celReady (0 / 32)) ∧ s.on (celThermalStop (0 / 32)) = false ∧ s.on (celOffline (0 / 32) (0 % 32)) = false ∧
        lookMap 0 s.scrubNext 0 = 0 ∧ s.burstAddr 0 0 0 0 0 = some 0 ∧ s.locate 0 = some (locOf s 0) ∧ s.isRetired (locOf s 0) = false ∧ s.isPoison 0 = false ∧
        s.symErr = []) ∧
    (let s : State := { live with plt := 2 ^ 40 };
      s.ceClosed 0 (lookMap CRow.fresh s.rows 0)) ∧
    (let s : State := { live with repairing := [5, 2 ^ 26] };
      s.repairing = 5 :: [2 ^ 26] ∧ ∀ j ∈ [2 ^ 26], j / 2 ^ 26 ≠ 5 / 2 ^ 26) ∧
    (let s := live.put [(cel 19 (0x800 + 8 * 127), 1)];
      s.mayWrite c0 (cel 19 (0x800 + 8 * 127)) ∧ s.celLive 19 ∧ (4 : BitVec 32).getLsbD 2 ∧ s.on ⟨cel 19 (0x800 + 8 * 127), 0, 1⟩) ∧
    (live.mayWrite c0 (tg 639 0) ∧ live.celLive (639 / 32) ∧ live.on (tgBusy 639) = false ∧ live.jobAdmitted = false) ∧
    (let s := live.put [(0x440000, 2)];
      s.jobAdmitted ∧ s.on bistBusy = false) ∧
    ∀ x ∈ [4, 12], let s := live.put [(tg 0 0, x + 2 ^ 16)];
      s.on (tgBusy 0) ∧ s.rd (tgPasses 0) ≠ 0 ∧ s.on (tgDestr 0) = decide (x = 12) := by decide +kernel

theorem witness_StackTemperatureSetsRefreshAndThrottle :
    live.celLive 19 ∧ live.on (celReady 19) ∧ live.rd (celThrottleC 19) = 95 ∧ live.rd (celReleaseC 19) = 92 ∧ live.on (celThermalStop 19) = false := by
  decide +kernel

/-! Witnesses: the host caches' protocol. -/

/-- A request of core 0 for line 0 of a kind on its way. -/
def reqOf (k : Nat) : CReq := ⟨0, 0, k, 0, 0, [0, 8, 1, 5, 0], none, none⟩

/-- `live` with that request, and with the given directory entries. -/
def asked (k : Nat) (ds : List Dir) : State := { live with creqs := [reqOf k], dirs := ds }

theorem unheld_of {s : State} {l : Loc} (h : s.repairing = []) : s.lineHeld l [0, 1] = false := by simp [State.lineHeld, State.bankHeld, h]

theorem takes_of {s : State} {n : Nat} {c : CReq} {l : Loc} (hr : s.repairing = [])
    (h : s.creqs[n]? = some c ∧ c.stage = 0 ∧ s.pinned c.line = false ∧ s.locate (128 * c.line) = some l ∧ (s.homeStatus l).1 = 0 ∧ c.age < 15 ∧
      s.trackers l.home false < 120) : HomeTakes s n c l :=
  ⟨h.1, h.2.1, h.2.2.1, h.2.2.2.1, serves_of h.2.2.2.2.1, unheld_of hr, h.2.2.2.2.2.1, h.2.2.2.2.2.2⟩

/-- The directories of the witnesses: no entry, an owner, F in the system cache, F in cluster 1, two clusters, one cluster. -/
def someDirs : List (List Dir) := [[], [⟨0, some 9, 0, 15⟩], [⟨0, none, 3, 12⟩], [⟨0, none, 3, 1⟩], [⟨0, none, 3, 15⟩], [⟨0, none, 1, 15⟩]]

theorem takes_asked : ∀ k ∈ [0, 1, 2, 3], ∀ ds ∈ someDirs, HomeTakes (asked k ds) 0 (reqOf k) (locOf live 0) := by
  have h : ∀ k ∈ [0, 1, 2, 3], ∀ ds ∈ someDirs, let s := asked k ds;
      let c := reqOf k;
      let l := locOf live 0;
      s.creqs[0]? = some c ∧ c.stage = 0 ∧ s.pinned c.line = false ∧ s.locate (128 * c.line) = some l ∧ (s.homeStatus l).1 = 0 ∧ c.age < 15 ∧
      s.trackers l.home false < 120 := by decide +kernel
  exact fun k hk ds hd => takes_of rfl (h k hk ds hd)

theorem plain_asked : ∀ k ∈ [0, 1, 2, 3], PlainLine (asked k []) (locOf live 0) 0 := by
  have h : ∀ k ∈ [0, 1, 2, 3], let s := asked k [];
      locOf s 0 = locOf live 0 ∧ s.locate 0 = some (locOf s 0) ∧ (s.homeStatus (locOf s 0)).1 = 0 ∧ s.lineBusy (0 / 128) = false ∧ s.dir (0 / 128) = none ∧
      s.hamper (locOf s 0).home = [] ∧ s.isRetired (locOf s 0) = false := by decide +kernel
  exact fun k hk => (h k hk).1 ▸ plain_of (h k hk).2.1 (h k hk).2.2.1 (h k hk).2.2.2.1 (h k hk).2.2.2.2.1 (h k hk).2.2.2.2.2.1 (h k hk).2.2.2.2.2.2 rfl rfl rfl

theorem three : ∀ k ∈ [0, 1, 2], k ∈ [0, 1, 2, 3] := by decide

theorem witness_HomesServeCachingRequests :
    (∀ k ∈ [0, 1, 2], HomeTakes (asked k []) 0 (reqOf k) (locOf live 0) ∧ PlainLine (asked k []) (locOf live 0) 0 ∧ (reqOf k).kind = k) ∧
    (∀ k ∈ [0, 1, 2], ∀ ds ∈ someDirs, HomeTakes (asked k ds) 0 (reqOf k) (locOf live 0)) ∧
    (∀ ds ∈ someDirs, (asked 0 ds).isRetired (locOf live 0) = false ∧ (asked 0 ds).dir 0 = ds.head? ∧ ((asked 0 ds).dirMates 0).length < 16 ∧ (asked 0 ds).wayFor 0 0) ∧
    (let s : State := { asked 0 [] with txns := List.replicate 120 ⟨1, .caching 5 0, [], false, false, none, .e, false⟩ };
      s.creqs[0]? = some (reqOf 0) ∧ (reqOf 0).stage = 0 ∧ s.pinned 0 = false ∧ s.locate 0 = some (locOf live 0) ∧ s.homeStatus (locOf live 0) = (0, s) ∧
        s.lineHeld (locOf live 0) [0, 1] = false ∧ (reqOf 0).age < 15 ∧ 120 ≤ s.trackers (locOf live 0).home false) :=
  ⟨fun k hk => ⟨takes_asked k (three k hk) [] (by decide), plain_asked k (three k hk), rfl⟩, fun k hk ds hd => takes_asked k (three k hk) ds hd,
    by decide +kernel, rfl, rfl, by decide +kernel, by decide +kernel, serves_of (by decide +kernel), unheld_of rfl, by decide, by decide +kernel⟩

/-- A line of a cache in a state. -/
def held (st : CSt) : CLine := ⟨st, List.replicate 128 9#8, 0⟩

/-- A snoop of a kind for line 0 to an agent that holds it in a state. -/
def snooped (k agent : Nat) (st : CSt) : State := { live with msgs := [.snp k agent 0 8], l2 := [(agent * 2 ^ 36, held st)] }

theorem witness_CachesAnswerSnoops :
    (∀ p ∈ snoopRows, ∀ agent ∈ [95, 96], ∀ st ∈ [CSt.m, .e, .f, .s], let s := snooped p.1 agent st;
      s.msgs[0]? = some (.snp p.1 agent 0 8) ∧ s.holdsSnoop agent 0 = false ∧ s.snoopSeam 0 = false ∧ s.cacheLine agent 0 = held st) ∧
    ((snooped 0 0 .m).cacheLine 1 0).st = .i ∧
    (let s := (snooped 0 95 .m).setHcore 95 { HCore.fresh with hold := true, resv := some 0 };
      (s.cacheLine 95 0).st ≠ .i ∧ s.holdsSnoop 95 0) ∧
    (let s : State := { snooped 3 95 .s with msgs := [.snp 3 (128 + 11) 0 8] };
      s.msgs[0]? = some (.snp 3 (128 + 11) 0 8) ∧ s.snoopSeam 0 = false ∧ (∀ c ∈ coresOf 11, s.holdsSnoop c 0 = false) ∧ ∃ c ∈ coresOf 11, (s.cacheLine c 0).st ≠ .i) ∧
    ((live.setHcore 0 { HCore.fresh with hold := true }).hcore 0).hold := by decide +kernel

/-- `live` with one message, an open transaction on line 0 for a request of core 0, that request, and an owner. -/
def answering (m : Msg) (kind : Nat) (waits : List Nat) (c : CReq) : State :=
  { live with msgs := [m], txns := [⟨0, .caching 0 kind, waits, false, false, none, .e, false⟩], creqs := [c], dirs := [⟨0, some 9, 0, 15⟩] }

theorem witness_ResponsesCompleteRequests :
    (∀ code ∈ [0, 1, 2], let s := answering (.resp 3 9 0 code none) 1 [9, 10] (reqOf 1);
      s.msgs[0]? = some (.resp 3 9 0 code none) ∧ s.txns.find? (fun t => decide (t.line = 0)) = s.txns.head? ∧ s.locate (128 * 0) = some (locOf live 0) ∧
        [9, 10].filter (· ≠ 9) ≠ []) ∧
    (let s := answering (.resp 0 9 0 0 (some (held .m))) 0 [9] (reqOf 0);
      [9].filter (· ≠ 9) = [] ∧ s.dir 0 = some ⟨0, some 9, 0, 15⟩ ∧ (held .m).data.length = 128 ∧ s.isRetired (locOf live 0) = false) ∧
    (let s := answering (.resp 1 9 0 1 none) 1 [9] (reqOf 1);
      s.dir 0 = some ⟨0, some 9, 0, 15⟩) ∧
    (answering (.resp 1 9 0 5 none) 1 [9] (reqOf 1)).evictOf 9 0 = none ∧
    (∀ comp ∈ [none, some CSt.s, some .e], let c := { reqOf 0 with comp := comp };
      let s := answering (.data 0 0 (held .e)) 0 [] c;
      s.msgs[0]? = some (.data 0 0 (held .e)) ∧ s.creqs.find? (fun r => decide (r.core = 0) && decide (r.line = 0)) = some c) ∧
    (∀ data ∈ [none, some (held .e)], let c := { reqOf 0 with data := data };
      let s := answering (.comp 0 0 .e) 0 [] c;
      s.msgs[0]? = some (.comp 0 0 .e) ∧ s.creqs.find? (fun r => decide (r.core = 0) && decide (r.line = 0)) = some c ∧ c.kind ≠ 2) ∧
    (answering (.retry 0 0) 0 [] (reqOf 0)).msgs[0]? = some (.retry 0 0) ∧
    (answering (.retry 0 0) 0 [] { reqOf 0 with stage := 2 }).creqs[0]? = some { reqOf 0 with stage := 2 } ∧
    (answering (.retry 0 0) 0 [] { reqOf 0 with stage := 2 }).evicting 0 0 = false ∧
    (let s := answering (.compAck 0 0) 0 [] (reqOf 0);
      s.msgs[0]? = some (.compAck 0 0) ∧ s.evicts = [] ∧ s.dir 0 = some ⟨0, some 9, 0, 15⟩ ∧ (⟨0, some 9, 0, 15⟩ : Dir).owner.isSome) ∧
    (answering (.wbAck 9 0) 0 [] (reqOf 0)).msgs[0]? = some (.wbAck 9 0) := by decide +kernel

/-- `live` with an eviction of line 0 by its owner, core 9, and SC_ALLOC as given. -/
def evicting (wb : Option CLine) (alloc : Nat) : State :=
  { live.put [(0x48500, alloc)] with evicts := [⟨9, 0, wb, false, false⟩], dirs := [⟨0, some 9, 0, 15⟩] }

/-- `posted` with an owner of line 0. -/
def postedOwned (n : Nat) : State := { posted n with dirs := [⟨0, some 9, 0, 15⟩] }

theorem witness_EvictionsAtomicsAndUncachedAgents :
    (∀ wb ∈ [none, some (held .m)], ∀ alloc ∈ [0, 1], let s := evicting wb alloc;
      s.evicts[0]? = some ⟨9, 0, wb, false, false⟩ ∧ s.locate (128 * 0) = some (locOf live 0) ∧ (s.homeStatus (locOf live 0)).1 = 0 ∧ s.isRetired (locOf live 0) = false ∧
        s.lineHeld (locOf live 0) [0, 1] = false ∧ s.dir 0 = some ⟨0, some 9, 0, 15⟩ ∧ s.pinned 0 = false ∧ s.on cohScAlloc = decide (alloc = 1)) ∧
    ({ evicting none 0 with txns := [⟨0, .caching 0 0, [], false, false, none, .e, false⟩] } : State).pinned 0 ∧
    (HomeTakes (asked 3 []) 0 (reqOf 3) (locOf live 0) ∧ PlainLine (asked 3 []) (locOf live 0) 0 ∧ (reqOf 3).op = [0, 8, 1, 5, 0]) ∧
    PlainLine live (locOf live 0) 0 ∧
    ∀ n ∈ [1, 128], (posted n).locate 0 = some (locOf live 0) ∧ (postedOwned n).homeStatus (locOf live 0) = (0, postedOwned n) ∧ (postedOwned n).pinned 0 = false ∧
      (postedOwned n).lineHeld (locOf live 0) [0, 1] = false ∧ (postedOwned n).tallyQ = [] ∧
      (postedOwned n).uncTrackers (locOf live 0).home < 256 ∧ (postedOwned n).dir 0 = some ⟨0, some 9, 0, 15⟩ ∧
      (postedOwned n).takeWrite 0 = some ⟨0, List.replicate n 7#8, some 0⟩ := by
  refine ⟨by decide +kernel, by decide +kernel, ⟨takes_asked 3 (by decide) [] (by decide), plain_asked 3 (by decide), rfl⟩, plain_live.1, ?_⟩
  have h : ∀ n ∈ [1, 128], (posted n).locate 0 = some (locOf live 0) ∧ ((postedOwned n).homeStatus (locOf live 0)).1 = 0 ∧ (postedOwned n).pinned 0 = false ∧
      (postedOwned n).lineHeld (locOf live 0) [0, 1] = false ∧ (postedOwned n).tallyQ = [] ∧
      (postedOwned n).uncTrackers (locOf live 0).home < 256 ∧ (postedOwned n).dir 0 = some ⟨0, some 9, 0, 15⟩ ∧
      (postedOwned n).takeWrite 0 = some ⟨0, List.replicate n 7#8, some 0⟩ := by decide +kernel
  exact fun n hn => ⟨(h n hn).1, serves_of (h n hn).2.1, (h n hn).2.2⟩

/-! Witnesses: the host cores. -/

/-- Core 0 in machine mode at 0x1000 in the cellar with an instruction word there, its code line in E and line 0 in a state, and x1 to x3. -/
def hart0 (w x2 x3 : Nat) (st : CSt) : State :=
  { live with
    l2 := (if st = .i then [] else [(0, held st)]) ++ [(32, ⟨.e, toBytes 4 w ++ List.replicate 124 0#8, 0⟩)]
    hcores := [(0, { HCore.fresh with pc := 0x1000, x := [(2, x2), (3, x3)], csr := [(0x300, 0x6008), (0x304, 2 ^ 11), (0x305, 0x2000)] })] }

/-- The state after the fetch. -/
def afterFetch (s : State) : State := (s.hartFetch 0).2

theorem hartAt_of {s : State} {i : Rv} {len w : Nat} (h : s.hartRuns 0 ∧ s.dmActive = false ∧ (s.hartFetch 0).1 = .ok i len w ∧ (afterFetch s).dmActive = false) :
    HartAt s (afterFetch s) 0 i len w :=
  ⟨h.1, h.2.1, Prod.ext h.2.2.1 rfl, h.2.2.2⟩

theorem cellarAt_of {s : State} {k a n : Nat} (h : (s.hcore 0).mode = 3 ∧ (s.hcore 0).mst 17 1 ≠ 1 ∧ a % n = 0 ∧ a % 128 + n ≤ 128 ∧ a < cellarSize ∧ (s.hcore 0).pmpOk 3 k a n ∧
    ∀ r ∈ s.creqs, r.core = 0 → r.line = a / 128 → r.stage ≠ 3) : CellarAt s 0 k a n :=
  ⟨h.1, h.2.1, h.2.2.1, h.2.2.2.1, h.2.2.2.2.1, h.2.2.2.2.2.1, h.2.2.2.2.2.2⟩

theorem witness_HostCoresLoadAndStoreThroughTheirCaches :
    (∀ st ∈ [CSt.s, .f, .e, .m, .i], let s := hart0 0x00013083 8 7 st;
      HartAt s (afterFetch s) 0 (.load 3 true 1 2 0) 4 0x00013083 ∧ ((afterFetch s).hcore 0).xr 2 = 8 ∧ CellarAt (afterFetch s) 0 1 8 (2 ^ 3) ∧
        (afterFetch s).mayRequest 0 0 ∧ ((afterFetch s).cacheLine 0 0).st = st ∧ ((afterFetch s).cacheLine 0 0).poison = 0 ∧
        ∀ d ∈ coresOf 0, d ≠ 0 → ((afterFetch s).cacheLine d 0).st = .i) ∧
    (∀ st ∈ [CSt.s, .f, .e, .m, .i], let s := hart0 0x00313023 8 7 st;
      HartAt s (afterFetch s) 0 (.store 3 2 3 0) 4 0x00313023 ∧ CellarAt (afterFetch s) 0 2 8 (2 ^ 3) ∧ ((afterFetch s).cacheLine 0 0).st = st ∧
        (afterFetch s).mayRequest 0 0) ∧
    (∀ st ∈ [CSt.e, .m], let s := hart0 0x100130AF 8 7 st;
      HartAt s (afterFetch s) 0 (.lr 3 1 2) 4 0x100130AF ∧ CellarAt (afterFetch s) 0 1 8 (2 ^ 3) ∧ ((afterFetch s).cacheLine 0 0).st = st) ∧
    (∀ st ∈ [CSt.s, .f, .e, .m, .i], ∀ v ∈ [none, some 0], let s0 := hart0 0x183130AF 8 7 st;
      let s := s0.setHcore 0 { s0.hcore 0 with resv := v };
      HartAt s (afterFetch s) 0 (.sc 3 1 2 3) 4 0x183130AF ∧ CellarAt (afterFetch s) 0 2 8 (2 ^ 3) ∧ ((afterFetch s).hcore 0).resv = v ∧
        ((afterFetch s).cacheLine 0 0).st = st) ∧
    (∀ st ∈ [CSt.e, .m], let s := hart0 0x0041200F 72 7 st;
      HartAt s (afterFetch s) 0 (.cbo 4 2) 4 0x0041200F ∧ CellarAt (afterFetch s) 0 2 64 64 ∧ ((afterFetch s).cacheLine 0 0).st = st) := by
  refine ⟨fun st h => ?_, fun st h => ?_, fun st h => ?_, fun st h v hv => ?_, fun st h => ?_⟩
  · have k : ∀ st ∈ [CSt.s, .f, .e, .m, .i], let s := hart0 0x00013083 8 7 st;
      (s.hartRuns 0 ∧ s.dmActive = false ∧ (s.hartFetch 0).1 = .ok (.load 3 true 1 2 0) 4 0x00013083 ∧ (afterFetch s).dmActive = false) ∧
      ((afterFetch s).hcore 0).xr 2 = 8 ∧ (((afterFetch s).hcore 0).mode = 3 ∧ ((afterFetch s).hcore 0).mst 17 1 ≠ 1 ∧ 8 % (2 ^ 3) = 0 ∧ 8 % 128 + 2 ^ 3 ≤ 128 ∧
        8 < cellarSize ∧ ((afterFetch s).hcore 0).pmpOk 3 1 8 (2 ^ 3) ∧ ∀ r ∈ (afterFetch s).creqs, r.core = 0 → r.line = 8 / 128 → r.stage ≠ 3) ∧
      (afterFetch s).mayRequest 0 0 ∧ ((afterFetch s).cacheLine 0 0).st = st ∧ ((afterFetch s).cacheLine 0 0).poison = 0 ∧
        ∀ d ∈ coresOf 0, d ≠ 0 → ((afterFetch s).cacheLine d 0).st = .i := by decide +kernel
    exact ⟨hartAt_of (k st h).1, (k st h).2.1, cellarAt_of (k st h).2.2.1, (k st h).2.2.2⟩
  · have k : ∀ st ∈ [CSt.s, .f, .e, .m, .i], let s := hart0 0x00313023 8 7 st;
      (s.hartRuns 0 ∧ s.dmActive = false ∧ (s.hartFetch 0).1 = .ok (.store 3 2 3 0) 4 0x00313023 ∧ (afterFetch s).dmActive = false) ∧
      (((afterFetch s).hcore 0).mode = 3 ∧ ((afterFetch s).hcore 0).mst 17 1 ≠ 1 ∧ 8 % (2 ^ 3) = 0 ∧ 8 % 128 + 2 ^ 3 ≤ 128 ∧
        8 < cellarSize ∧ ((afterFetch s).hcore 0).pmpOk 3 2 8 (2 ^ 3) ∧ ∀ r ∈ (afterFetch s).creqs, r.core = 0 → r.line = 8 / 128 → r.stage ≠ 3) ∧
      ((afterFetch s).cacheLine 0 0).st = st ∧ (afterFetch s).mayRequest 0 0 := by decide +kernel
    exact ⟨hartAt_of (k st h).1, cellarAt_of (k st h).2.1, (k st h).2.2⟩
  · have k : ∀ st ∈ [CSt.e, .m], let s := hart0 0x100130AF 8 7 st;
      (s.hartRuns 0 ∧ s.dmActive = false ∧ (s.hartFetch 0).1 = .ok (.lr 3 1 2) 4 0x100130AF ∧ (afterFetch s).dmActive = false) ∧
      (((afterFetch s).hcore 0).mode = 3 ∧ ((afterFetch s).hcore 0).mst 17 1 ≠ 1 ∧ 8 % (2 ^ 3) = 0 ∧ 8 % 128 + 2 ^ 3 ≤ 128 ∧
        8 < cellarSize ∧ ((afterFetch s).hcore 0).pmpOk 3 1 8 (2 ^ 3) ∧ ∀ r ∈ (afterFetch s).creqs, r.core = 0 → r.line = 8 / 128 → r.stage ≠ 3) ∧
      ((afterFetch s).cacheLine 0 0).st = st := by decide +kernel
    exact ⟨hartAt_of (k st h).1, cellarAt_of (k st h).2.1, (k st h).2.2⟩
  · have k : ∀ st ∈ [CSt.s, .f, .e, .m, .i], ∀ v ∈ [none, some 0], let s0 := hart0 0x183130AF 8 7 st;
      let s := s0.setHcore 0 { s0.hcore 0 with resv := v };
      (s.hartRuns 0 ∧ s.dmActive = false ∧ (s.hartFetch 0).1 = .ok (.sc 3 1 2 3) 4 0x183130AF ∧ (afterFetch s).dmActive = false) ∧
      (((afterFetch s).hcore 0).mode = 3 ∧ ((afterFetch s).hcore 0).mst 17 1 ≠ 1 ∧ 8 % (2 ^ 3) = 0 ∧ 8 % 128 + 2 ^ 3 ≤ 128 ∧
        8 < cellarSize ∧ ((afterFetch s).hcore 0).pmpOk 3 2 8 (2 ^ 3) ∧ ∀ r ∈ (afterFetch s).creqs, r.core = 0 → r.line = 8 / 128 → r.stage ≠ 3) ∧
      ((afterFetch s).hcore 0).resv = v ∧ ((afterFetch s).cacheLine 0 0).st = st := by decide +kernel
    exact ⟨hartAt_of (k st h v hv).1, cellarAt_of (k st h v hv).2.1, (k st h v hv).2.2⟩
  · have k : ∀ st ∈ [CSt.e, .m], let s := hart0 0x0041200F 72 7 st;
      (s.hartRuns 0 ∧ s.dmActive = false ∧ (s.hartFetch 0).1 = .ok (.cbo 4 2) 4 0x0041200F ∧ (afterFetch s).dmActive = false) ∧
      (((afterFetch s).hcore 0).mode = 3 ∧ ((afterFetch s).hcore 0).mst 17 1 ≠ 1 ∧ 64 % 64 = 0 ∧ 64 % 128 + 64 ≤ 128 ∧
        64 < cellarSize ∧ ((afterFetch s).hcore 0).pmpOk 3 2 64 64 ∧ ∀ r ∈ (afterFetch s).creqs, r.core = 0 → r.line = 64 / 128 → r.stage ≠ 3) ∧
      ((afterFetch s).cacheLine 0 0).st = st := by decide +kernel
    exact ⟨hartAt_of (k st h).1, cellarAt_of (k st h).2.1, (k st h).2.2⟩

/-- The request that an AMO of core 0 has sent and whose answer has come. -/
def amoReq : CReq := ⟨0, 0, 3, 0, 3, [0, 5], none, none⟩

theorem witness_HostCoreAtomicsAndCacheBlocks :
    (∀ z ∈ [2, 3], ∀ q ∈ [[], [amoReq]], let s : State := { hart0 (0x003100AF + z * 4096) 8 7 .i with creqs := q };
      HartAt s (afterFetch s) 0 (.amo 0 z 1 2 3) 4 (0x003100AF + z * 4096) ∧
        (((afterFetch s).hcore 0).mode = 3 ∧ ((afterFetch s).hcore 0).mst 17 1 ≠ 1 ∧ 8 % 2 ^ z = 0 ∧ ((afterFetch s).hcore 0).pmpOk 3 2 8 (2 ^ z)) ∧ (afterFetch s).creqs = q ∧
        (q = [] → (afterFetch s).mayRequest 0 0)) ∧
    (∀ p ∈ [(0, 0x0001200F), (1, 0x0011200F), (2, 0x0021200F)], ∀ st ∈ [CSt.m, .e, .i], let s := hart0 p.2 8 7 st;
      HartAt s (afterFetch s) 0 (.cbo p.1 2) 4 p.2 ∧ CellarAt (afterFetch s) 0 1 0 64 ∧ ((afterFetch s).cacheLine 0 0).st = st ∧ (afterFetch s).lineBusy 0 = false ∧
        (afterFetch s).dir 0 = none ∧ (afterFetch s).dirtyCopy 0 = none ∧
        (afterFetch s).clearWaits 0 = false ∧ ∀ l, (afterFetch s).locate (128 * 0) = some l → (afterFetch s).lineHeld l [0, 1] = false) := by
  refine ⟨fun z hz q hq => ?_, fun p hp st hs => ?_⟩
  · have k : ∀ z ∈ [2, 3], ∀ q ∈ [[], [amoReq]], let s : State := { hart0 (0x003100AF + z * 4096) 8 7 .i with creqs := q };
      (s.hartRuns 0 ∧ s.dmActive = false ∧ (s.hartFetch 0).1 = .ok (.amo 0 z 1 2 3) 4 (0x003100AF + z * 4096) ∧ (afterFetch s).dmActive = false) ∧
        (((afterFetch s).hcore 0).mode = 3 ∧ ((afterFetch s).hcore 0).mst 17 1 ≠ 1 ∧ 8 % 2 ^ z = 0 ∧ ((afterFetch s).hcore 0).pmpOk 3 2 8 (2 ^ z)) ∧ (afterFetch s).creqs = q ∧
        (q = [] → (afterFetch s).mayRequest 0 0) := by
      decide +kernel
    exact ⟨hartAt_of (k z hz q hq).1, (k z hz q hq).2⟩
  · have k : ∀ p ∈ [(0, 0x0001200F), (1, 0x0011200F), (2, 0x0021200F)], ∀ st ∈ [CSt.m, .e, .i], let s := hart0 p.2 8 7 st;
      (s.hartRuns 0 ∧ s.dmActive = false ∧ (s.hartFetch 0).1 = .ok (.cbo p.1 2) 4 p.2 ∧ (afterFetch s).dmActive = false) ∧
      (((afterFetch s).hcore 0).mode = 3 ∧ ((afterFetch s).hcore 0).mst 17 1 ≠ 1 ∧ 0 % 64 = 0 ∧ 0 % 128 + 64 ≤ 128 ∧
        0 < cellarSize ∧ ((afterFetch s).hcore 0).pmpOk 3 1 0 64 ∧ ∀ r ∈ (afterFetch s).creqs, r.core = 0 → r.line = 0 / 128 → r.stage ≠ 3) ∧
      ((afterFetch s).cacheLine 0 0).st = st ∧ (afterFetch s).lineBusy 0 = false ∧ (afterFetch s).dir 0 = none ∧ (afterFetch s).dirtyCopy 0 = none ∧
      (afterFetch s).clearWaits 0 = false ∧ ((afterFetch s).locate (128 * 0)).all (fun l => !(afterFetch s).lineHeld l [0, 1]) = true := by decide +kernel
    obtain ⟨h, hc, h1, h2, h3, h4, h5, h6⟩ := k p hp st hs
    exact ⟨hartAt_of h, cellarAt_of hc, h1, h2, h3, h4, h5, fun l hl => by rw [hl] at h6; simpa using h6⟩

/-- Debug mode available: the list grants it, the strap is set, and no job is admitted. -/
def debuggable : State :=
  { live with list := { live.list with debug := true }, pins := { live.pins with strap := 4 }, dmActive := true }

theorem witness_HostCoresExecuteTrapAndTakeInterrupts :
    (∀ p ∈ [(0x003100B3, Rv.alu .full .add 1 2 3), (0x008000EF, .jal 1 8), (0x00000463, .branch 0 0 0 8), (0x0FF0000F, .fence), (0x0000100F, .fenceI),
        (0xC01020F3, .csr 2 false 1 0 0xC01), (0x00000073, .ecall), (0x30200073, .mret), (0x10500073, .wfi), (0x023170D3, .fp 0x023170D3)], let s := hart0 p.1 8 7 .i;
      HartAt s (afterFetch s) 0 p.2 4 p.1 ∧ ((afterFetch s).hcore 0).mode = 3 ∧ ((afterFetch s).hcore 0).mst 13 2 ≠ 0 ∧ (afterFetch s).irqWakes ((afterFetch s).hcore 0) = false) ∧
    (match fpExec 0x023170D3 0 0 0 0 0 with
      | some (.toF _ _) => true
      | _ => false) = true ∧
    (let s : State := { hart0 0 0 0 .i with aplic := [4] };
      s.domOn (20 + 0 / 48) ∧ s.rd (coreState 0) ≠ 2 ∧ 4 ∈ s.aplic ∧ ∀ m ∈ [true, false], s.irqWakes ((s.hcore 0).setEi m 0x80 5 1) = false) ∧
    (let s0 := hart0 0 0 0 .i;
      let s := s0.setHcore 0 { s0.hcore 0 with csr := [(0x300, 0x6008), (0x304, 2), (0x305, 0x2000), (0x344, 2)] };
      s.hartRuns 0 ∧ s.creqs = [] ∧ s.irqNow (s.hcore 0) = some 1 ∧ (s.hcore 0).mode = 3) ∧
    live.debugOk = false ∧ debuggable.debugOk ∧ debuggable.domOn (20 + 0 / 48) ∧ (debuggable.hcore 0).group = 0 ∧ debuggable.creqs = [] ∧
    ((debuggable.setHcore 0 { HCore.fresh with halted := true }).hcore 0).halted := by
  refine ⟨fun p hp => ?_, by decide +kernel⟩
  have k : ∀ p ∈ [(0x003100B3, Rv.alu .full .add 1 2 3), (0x008000EF, .jal 1 8), (0x00000463, .branch 0 0 0 8), (0x0FF0000F, .fence), (0x0000100F, .fenceI),
        (0xC01020F3, .csr 2 false 1 0 0xC01), (0x00000073, .ecall), (0x30200073, .mret), (0x10500073, .wfi), (0x023170D3, .fp 0x023170D3)], let s := hart0 p.1 8 7 .i;
      (s.hartRuns 0 ∧ s.dmActive = false ∧ (s.hartFetch 0).1 = .ok p.2 4 p.1 ∧ (afterFetch s).dmActive = false) ∧
      ((afterFetch s).hcore 0).mode = 3 ∧ ((afterFetch s).hcore 0).mst 13 2 ≠ 0 ∧ (afterFetch s).irqWakes ((afterFetch s).hcore 0) = false := by decide +kernel
  exact ⟨hartAt_of (k p hp).1, (k p hp).2⟩

/-! Witnesses: translation and hatches. -/

/-- `live` with a walk of crate 0 at a level, its table at 0x3000, and an entry there for page 0. -/
def walking (level e : Nat) : State :=
  { live.setCrate 0 { Crate.fresh with walks := [⟨0, level, 0x3000, [0, 3], none⟩] } with
    cellar := ((List.range 8).zip (toBytes 8 e)).filterMap fun p => if p.2 = 0#8 then none else some (0x3000 + p.1, p.2) }

theorem walking_plain : ∀ level ∈ [0, 1, 2, 3], ∀ e ∈ [0, 1, 3, 0x4001, 0x8000000000003, 0x200000003, 0x1000000000001], PlainLine (walking level e) (locOf live 0x3000) 0x3000 := by
  have h : ∀ level ∈ [0, 1, 2, 3], ∀ e ∈ [0, 1, 3, 0x4001, 0x8000000000003, 0x200000003, 0x1000000000001], let s := walking level e;
      locOf s 0x3000 = locOf live 0x3000 ∧ s.locate 0x3000 = some (locOf s 0x3000) ∧ (s.homeStatus (locOf s 0x3000)).1 = 0 ∧ s.lineBusy (0x3000 / 128) = false ∧
      s.dir (0x3000 / 128) = none ∧ s.hamper (locOf s 0x3000).home = [] ∧ s.isRetired (locOf s 0x3000) = false := by decide +kernel
  exact fun l hl e he => (h l hl e he).1 ▸ plain_of (h l hl e he).2.1 (h l hl e he).2.2.1 (h l hl e he).2.2.2.1 (h l hl e he).2.2.2.2.1 (h l hl e he).2.2.2.2.2.1
    (h l hl e he).2.2.2.2.2.2 rfl rfl rfl

/-- A shootdown of pages 0 to 15 that some crates have applied. -/
def someSd (applied : List Nat) : Shootdown := ⟨1, 1, 0, 16, applied⟩

theorem witness_WalksRootsAndShootdowns :
    (∀ level ∈ [0, 1, 2, 3], ∀ e ∈ [0, 1, 3, 0x4001, 0x8000000000003, 0x200000003, 0x1000000000001], let s := walking level e;
      let w : Walk := ⟨0, level, 0x3000, [0, 3], none⟩;
      (s.crate 0).walks[0]? = some w ∧ s.crateRuns 0 ∧ w.bad = none ∧ w.level ≤ 3 ∧ w.table % 4096 = 0 ∧
        w.table + 8 * (w.vpage * 4096 / 2 ^ levelShift w.level % 512) = 0x3000 ∧ 0x3000 / 128 * 128 = 0x3000 ∧
        ofBytes (readBytes s.cellar 0x3000 8) = e) ∧
    (bitAt 0 0 = false ∧ bitsAt 0x1000000000001 48 16 ≠ 0 ∧ (bitAt 0x4001 0 ∧ bitAt 0x4001 1 = false ∧ bitsAt 0x4001 48 16 = 0 ∧ bitsAt 0x4001 2 6 = 0 ∧
        bitsAt 0x4001 12 36 * 4096 < cellarSize) ∧
      ∀ level ∈ [1, 2, 3], bitAt 3 0 ∧ bitAt 3 1 ∧ bitsAt 3 48 16 = 0 ∧ bitsAt 3 4 4 = 0 ∧ bitsAt 3 12 36 % 512 ^ (3 - level) = 0) ∧
    (live.mayWrite c0 xltRoot ∧ live.domOn 22 ∧ live.jobAdmitted = false ∧ (live.put [(0x440000, 2)]).jobAdmitted ∧ (live.put [(0x440000, 2)]).mayWrite c0 xltRoot ∧
      bitsAt 0xEFFFFFF001 12 36 * 4096 < cellarSize ∧ ¬bitsAt 0xF000000001 12 36 * 4096 < cellarSize) ∧
    (live.mayWrite c0 0x20001C ∧ live.sdLast = 0 ∧ live.sds = [] ∧ bitAt (live.reg64 xltSdRange) 0 = false ∧ live.rd xltSdPages = 0 ∧
      (live.put [(0x200010, 1)]).mayWrite c0 0x20001C ∧ bitAt ((live.put [(0x200010, 1)]).reg64 xltSdRange) 0 ∧ (live.put [(0x200018, 1)]).rd xltSdPages = 1) ∧
    (let s : State := { live.setCrate 0 { Crate.fresh with tc := [⟨0, 16, 0, true, true⟩], walks := [⟨3, 2, 0x3000, [0], none⟩] } with sds := [someSd []] };
      s.sds = [someSd []] ∧ 0 ∉ (someSd []).applied ∧ s.crateRuns 0 ∧ s.tiles = []) ∧
    (∀ c < 384, c ∈ (someSd (List.range 384)).applied) ∧ ({ live with sds := [someSd (List.range 384)] } : State).flights = [] ∧ live.fabReqs = [] ∧ 5 ∉ (someSd []).applied := by
  refine ⟨by decide +kernel, by decide +kernel, by decide +kernel, by decide +kernel, by decide +kernel, fun c h => by simpa [someSd] using h, by decide +kernel, by decide⟩

theorem portClear_of {s : State} {p : Nat} (h : (s.fport p).grant = tableCredits ∧ (s.fport p).used = [] ∧ s.fabWait = [] ∧ s.fabRsv = []) : PortClear s p :=
  ⟨h.1, h.2.1, by simp [h.2.2.1], by simp [h.2.2.2]⟩

/-- `live` with port 0 Up, fenced to this device's job, and the one route to the place 0x1000. -/
def linked : State := live.put [(0x290000, 0x60), (0x290008, 0xFC6 + 0x30), (0x290010, 1), (0x2A0000, 0x10000)]

/-- An 8-byte read of inbound entry 0 from the place 0x1000. -/
def readPkt : Packet := ⟨0, 0x1000, 2, 1, 0, 0, 0, 8, 0, 0, 0, 77, 0, false, 0, [], 0#32, true, false⟩

/-- `linked` with inbound entry 0 over the first cellar bytes beyond the driver reserve, and that read waiting there. -/
def draining : State :=
  { linked.put [(0x242000, 0x1F), (0x242008, 0x10000000), (0x242010, 0x1000)] with inReqs := [⟨0, 0, 0x10000000, readPkt⟩] }

/-- The last chunk of a transfer to the place 0x1000, held back. -/
def lastChunk : Chunk := ⟨0, 2, .hatch 0 0, false, [1#8, 2#8], 0#32, 0, [], 0, none, some ⟨0, 0x1000, 3, 0, 0⟩, true, none, true⟩

theorem witness_HatchWindowsEntriesAndLastChunks :
    (∀ w ∈ [(0 : Fin 256), 255], ∀ i ∈ [(0 : Fin 8), 4, 6], live.mayWrite c0 (0x240000 + 32 * w + 4 * i) ∧ live.domOn 22 ∧ aligned (0x240000 + 32 * w + 4 * i) true ∧
      let t := live.plainWrites (0x240000 + 32 * w + 4 * i) true 0x18#64;
      t.rd (outPlace w) % 4096 = 0 ∧ (t.outSize w % 4096 = 0 ∨ i = 4) ∧ t.outSize w ≤ 2 ^ 38 ∧ (t.on (outOps w) → 1 ≤ t.rd (outOpc w) ∧ t.rd (outOpc w) ≤ 13)) ∧
    (let t := live.plainWrites 0x240010 true 0x18#64;
      t.outSize 0 % 4096 ≠ 0) ∧
    (∀ w ∈ [(0 : Fin 256), 255], live.mayWrite c0 (0x242000 + 32 * w + 16) ∧ aligned (0x242000 + 32 * w + 16) true ∧
      let t := live.plainWrites (0x242000 + 32 * w + 16) true 0x1000#64;
      t.inSize w ≠ 0 ∧ t.inBase w < driverReserve ∧
      let q := (live.put [(0x242000 + 32 * w + 8, 0x10000000)]).plainWrites (0x242000 + 32 * w + 16) true 0x1000#64;
      driverReserve ≤ q.inBase w ∧ q.inBase w + q.inSize w ≤ cellarSize) ∧
    (draining.inReqs = [⟨0, 0, 0x10000000, readPkt⟩] ∧ readPkt.type = 1 ∧ 0x10000000 + readPkt.off = 0x10000000 ∧ PlainLine draining (locOf draining 0x10000000) 0x10000000 ∧
      OneRoute draining 0x1000 0 3) ∧
    (let s : State := { draining with txns := [⟨0x10000000 / 128, .caching 0 0, [], false, false, none, .e, false⟩] };
      s.locate 0x10000000 = some (locOf s 0x10000000) ∧ s.lineBusy (0x10000000 / 128)) ∧
    (let r := { runOf (copyDesc 0) with flight := [lastChunk] };
      let s := linked.withEng 2 ⟨[⟨0, r.desc, false⟩], some r⟩;
      ((s.tile 0).eng2).run = some r ∧ lastChunk.win = some ⟨0, 0x1000, 3, 0, 0⟩ ∧ lastChunk.unsent ∧ lastChunk.last ∧ lastChunk.waitTag = none ∧
        lastChunk.data.length ≤ 4096 ∧ OneRoute s (devPlace 0x1000) 0 5) ∧
    live.routePorts (devPlace 0x1000) = [] := by
  refine ⟨by decide +kernel, by decide +kernel, by decide +kernel, ⟨rfl, rfl, by decide +kernel,
    plain_of (by decide +kernel) (by decide +kernel) (by decide +kernel) (by decide +kernel) (by decide +kernel) (by decide +kernel) rfl rfl rfl, ⟨by decide +kernel, by decide +kernel, portClear_of (by decide +kernel)⟩⟩,
    by decide +kernel, ⟨by decide +kernel, rfl, rfl, rfl, rfl, by decide, ⟨by decide +kernel, by decide +kernel, portClear_of (by decide +kernel)⟩⟩, by decide +kernel⟩

/-! Witnesses: seams and fabric ports. -/

/-- Bundle 0 in a state with a role, standby and width, the lanes 0 to 63 in use in both directions, and the features. -/
def seamed (st role standby width feat : Nat) : State :=
  live.put [(seamB 0 0, role + 4 * width + 2 ^ 6 * st + 2 ^ 9 * standby), (seamB 0 8, 0xFFFFFFFF), (seamB 0 12, 0xFFFFFFFF), (seamB 0 0x18, 0xFFFFFFFF),
    (seamB 0 0x1C, 0xFFFFFFFF), (seamB 0 4, 200), (0x300000, feat)]

/-- The same with some lanes bad and due. -/
def worn (s : State) (ab ba : List Nat) (due : List (Nat × Nat)) : State := s.setSeam 0 ⟨⟨ab, [], [], 0⟩, ⟨ba, [], [], 0⟩, due⟩

theorem witness_SeamsCountRepairNarrowAndTakeOver :
    (let s := seamed 0 0 0x7F 3 7;
      s.rd (seamState 0) = 0 ∧ ((s.seam 0).dir 0).tries < 8 ∧ lookMap 0 ((s.seam 0).dir 0).cnt 67 + 1 < s.rd (seamThr 0) ∧ 0 ∉ ((s.seam 0).dir 0).bad ∧ 67 ∉ s.seamUse 0 0 ∧
        0 ∈ s.seamUse 0 0 ∧ s.seamFeature 1 ∧ ∃ m ∈ ({ (s.seam 0).dir 0 with bad := [0] } : SeamDir).usable, m ∉ s.seamUse 0 0) ∧
    (let s := (seamed 0 1 5 3 0).setSeam 0 ⟨⟨[], [], [], 8⟩, ⟨[], [], [], 0⟩, []⟩;
      s.rd (seamState 0) = 0 ∧ 8 ≤ ((s.seam 0).dir 0).tries ∧ s.seamFeature 1 = false ∧ s.rd (seamRole 0) = 1 ∧ s.rd (seamStandby 0) = 5) ∧
    (let s := worn (seamed 1 0 0x7F 3 7) [0] [] [(0, 0)];
      s.rd (seamState 0) = 1 ∧ s.takesOver 0 = false ∧ (s.seam 0).due = [(0, 0)] ∧ 64 ∈ ((s.seam 0).dir 0).usable ∧ 64 ∉ s.seamUse 0 0 ∧
        ∀ k ∈ ((s.seam 0).dir 0).usable, k ∉ s.seamUse 0 0 → 64 ≤ k) ∧
    (∀ bad ∈ [List.range 5, List.range 21, List.range 36, List.range 68], let s := worn (seamed 2 1 0x7F 3 7) bad [] [];
      s.rd (seamState 0) = 2 ∧ s.takesOver 0 = false ∧ s.rd (seamWidth 0) = 3 ∧ s.rd (seamRole 0) = 1 ∧ s.rd (seamStandby 0) = 0x7F) ∧
    (∀ st ∈ [0, 4], let s := (seamed 3 1 5 3 7).put [(seamB 5 0, 2 + 2 ^ 6 * st)];
      s.rd (seamState 0) = 3 ∧ s.rd (seamStandby 0) = 5 ∧ s.syncHeld = [] ∧ s.rd (seamState 5) = st) := by decide +kernel

/-- Port 0 in a state, with its PHY on and its reference clock there, at level 0, offering GL3. -/
def ported (st : Nat) : State := linked.put [(0x290000, 0x60), (0x290008, 0xFF0 + st), (0x2B0100, 3)]

theorem witness_FabricPortsTrainNarrowAndFail :
    (∀ st ∈ [0, 1, 2, 3, 4, 5, 7], (ported st).rd (fabState 0) = st ∧ (ported st).phyOk 0 ∧ (ported st).rd (fabMaxver 0) = 3) ∧
    ((ported 6).mayWrite c0 0x290000 ∧ (ported 6).domOn (23 + 0 / 8) ∧ (ported 6).portUp 0 ∧ ∀ lane ∈ [0, 1, 2, 3], bitAt ((ported 6).rd (fabLanes 0)) lane) ∧
    (24 * 2 ^ 30 < 257699 * 100000 ∧ 257698 * 100000 ≤ 24 * 2 ^ 30) ∧
    (let s : State := { ported 6 with fports := [(0, { FPort.fresh with cw := [(0, 3)] })] };
      lookMap 0 (s.fport 0).cw 0 = 3 ∧ lookMap 0 (s.fport 0).cw 1 < 3 ∧ s.portUp 0 ∧ s.fabWait = []) ∧
    (∀ bad ∈ [[3], [1, 2, 3], [0, 1, 2, 3]], let s : State := { ported 6 with fports := [(0, { FPort.fresh with bad := bad, narrowing := true })] };
      s.portUp 0 ∧ (s.fport 0).narrowing ∧ s.rd (fabWidth 0) = 3 ∧ (s.fport 0).bad = bad) := by decide +kernel

/-! Witnesses: packets. -/

/-- A packet of a type for a unit of this device, from the place 0x1000, with bytes. -/
def pkt (type unit : Nat) (bs : List Byte) : Packet :=
  ⟨unit, 0x1000, (vcOfType type).getD 7, type, 0, 0, 0, bs.length, 1, 0, 0, 77, 0xC000, true, 0, bs, crc32c bs, true, false⟩

/-- `linked` with inbound entry 0 over the first 4 KiB beyond the driver reserve. -/
def hatched : State := linked.put [(0x242000, 0x0F), (0x242008, 0x10000000), (0x242010, 0x1000)]

theorem arrives_of {s : State} {p : PortId} {k : Packet} (h : s.portUp p ∧ k.hdrOk ∧ vcOfType k.type = some k.vc ∧ s.fencePasses p k.vc k.job ∧ devPlace k.dest = s.place ∧
    unitAccepts (k.dest % 4096) k.type) : Arrives s p k := ⟨h.1, h.2.1, h.2.2.1, h.2.2.2.1, h.2.2.2.2.1, h.2.2.2.2.2⟩

/-- Is the one route from `linked` to the sender port 0? -/
theorem linked_route : ∀ vc ∈ [3, 4, 6], OneRoute linked 0x1000 0 vc ∧ OneRoute hatched 0x1000 0 vc := by
  have k : ∀ vc ∈ [3, 4, 6], (linked.routePorts 0x1000 = [0] ∧ linked.fencePasses 0 vc (linked.rd jobId)) ∧
      hatched.routePorts 0x1000 = [0] ∧ hatched.fencePasses 0 vc (hatched.rd jobId) := by decide +kernel
  exact fun vc h => ⟨⟨(k vc h).1.1, (k vc h).1.2, portClear_of (by decide +kernel)⟩, (k vc h).2.1, (k vc h).2.2, portClear_of (by decide +kernel)⟩

/-- `linked` with every credit of port 0 towards its partner taken. -/
def spent : State := { linked with fports := [(0, { FPort.fresh with used := (List.range 16).map fun k => (k, 2 ^ 30) })] }

theorem witness_PacketsAreScreenedAndForwarded :
    (∀ q ∈ packetRows, let k := pkt q.1 0 [];
      k.type = q.1 ∧ linked.portUp 0 ∧ k.hdrOk ∧ vcOfType k.type = some k.vc ∧ linked.fencePasses 0 k.vc k.job ∧
        (q.1 ≠ 31 → linked.fencePasses 0 k.vc 5 = false) ∧ devPlace 0x1000 ≠ linked.place ∧ linked.routePorts 0x1000 = [0] ∧
        devPlace 0 = linked.place ∧ unitAccepts (5 % 4096) q.1 = decide (q.1 = 31) ∧ unitAccepts (34 % 4096) q.1 = false) ∧
    OneRoute linked 0x1000 0 3 ∧ (∀ q ∈ packetRows, linked.mayLeave ⟨0, some 0, { pkt q.1 0 [] with hops := 1 }⟩) ∧ linked.fabWait = [] ∧
    spent.mayLeave ⟨0, some 0, { pkt 2 0 [] with hops := 1 }⟩ = false ∧ spent.fabWait = [] ∧ spent.routePorts 0x1000 = [0] :=
  ⟨by decide +kernel, (linked_route 3 (by decide)).1, by decide +kernel, rfl, by decide +kernel, rfl, by decide +kernel⟩

theorem hatched_plain : PlainLine hatched (locOf hatched 0x10000000) 0x10000000 :=
  plain_of (by decide +kernel) (by decide +kernel) (by decide +kernel) (by decide +kernel) (by decide +kernel) (by decide +kernel) rfl rfl rfl

theorem witness_HatchRequestsAreJudgedAndServed :
    (∀ t ∈ [1, 2, 3], ∀ bs ∈ [[1#8], List.replicate 32 1#8], Arrives hatched 0 (pkt t 0 bs) ∧ rejection hatched (pkt t 0 bs) = 0 ∧ (pkt t 0 bs).crcOk ∧
      { pkt t 0 bs with crc := 0#32 }.crcOk = false ∧ (bs.length = 1 ∨ bs.length = 32)) ∧
    (∀ t ∈ [1, 2, 3], rejection linked (pkt t 0 [1#8]) = 1 ∧ rejection (hatched.put [(0x242000, 0x10F)]) (pkt t 0 [1#8]) = 2 ∧
      rejection (hatched.put [(0x242000, 0x01)]) (pkt t 0 [1#8]) = 3 ∧ rejection (hatched.put [(0x242010, 0)]) (pkt t 0 [1#8]) = 4) ∧
    OneRoute hatched 0x1000 0 3 ∧ hatched.inBase 0 + 0 = 0x10000000 ∧ PlainLine hatched (locOf hatched 0x10000000) 0x10000000 ∧
      (hatched.hamper (locOf hatched 0x10000000).home).length < 256 := by
  refine ⟨fun t ht bs hb => ?_, by decide +kernel, (linked_route 3 (by decide)).2, by decide +kernel, hatched_plain, by decide +kernel⟩
  have k : ∀ t ∈ [1, 2, 3], ∀ bs ∈ [[1#8], List.replicate 32 1#8],
      (hatched.portUp 0 ∧ (pkt t 0 bs).hdrOk ∧ vcOfType (pkt t 0 bs).type = some (pkt t 0 bs).vc ∧ hatched.fencePasses 0 (pkt t 0 bs).vc (pkt t 0 bs).job ∧
        devPlace (pkt t 0 bs).dest = hatched.place ∧ unitAccepts ((pkt t 0 bs).dest % 4096) (pkt t 0 bs).type) ∧
      rejection hatched (pkt t 0 bs) = 0 ∧ (pkt t 0 bs).crcOk ∧ { pkt t 0 bs with crc := 0#32 }.crcOk = false ∧ (bs.length = 1 ∨ bs.length = 32) := by decide +kernel
  exact ⟨arrives_of (k t ht bs hb).1, (k t ht bs hb).2⟩

/-- `linked` with a copy of tile 0 whose one chunk waits for tag 77. -/
def awaiting (read : Bool) : State :=
  let c : Chunk := ⟨0, 2, .shelf 0 0x2400, read, [], 0#32, 0, [], 0, some 77, none, false, none, true⟩
  { linked.withEng 2 ⟨[], some { runOf (copyDesc 0) with flight := [c] }⟩ with fabReqs := [⟨77, 0, 0, 0, 0, read, [], 0⟩] }

/-- A management frame for a register read of 4 bytes. -/
def readFrame : List Byte := withCrc ([1#8] ++ List.replicate 11 0#8 ++ [4#8, 0#8] ++ List.replicate 2 0#8)

theorem witness_ResponsesMessagesAndManagementPackets :
    (∀ read ∈ [true, false], Arrives (awaiting read) 0 (pkt (if read then 8 else 9) 0 []) ∧ (awaiting read).fabReqs = [⟨77, 0, 0, 0, 0, read, [], 0⟩] ∧
      ∃ r c, ChunkWaits (awaiting read) 0 77 r c ∧ c.win = none) ∧
    (Arrives linked 0 (pkt 8 0 []) ∧ Arrives linked 0 (pkt 9 0 []) ∧ linked.fabReqs = []) ∧
    (Arrives linked 0 (pkt 16 0 []) ∧ (pkt 16 0 []).tally = 0xC000 + 0 ∧ linked.domPowered 22 ∧ linked.legHeld (5 + (0 : PortId).val / 8) = false) ∧
    (Arrives linked 0 (pkt 20 0 []) ∧ (pkt 20 0 []).crcOk ∧ { pkt 20 0 [] with crc := 1#32 }.crcOk = false ∧ linked.drvMsgs.length < 64 ∧
      64 ≤ ({ linked with drvMsgs := List.replicate 64 ⟨none, []⟩ } : State).drvMsgs.length) ∧
    (let k := pkt 31 0 readFrame;
      Arrives linked 0 k ∧ k.crcOk ∧ frameCrcOk k.payload ∧ k.len = 20 ∧ mgOp k.payload = 1 ∧ mgLen k.payload = 4 ∧ mgPlace k.payload = linked.place ∧
        linked.regPowered (mgAddr k.payload) ∧ linked.routePorts k.src = [0] ∧ PortClear linked 0 ∧ k.dest % 4096 = 0 ∧ frameCrcOk (List.replicate 20 1#8) = false) := by
  refine ⟨fun read hr => ?_, ⟨arrives_of (by decide +kernel), arrives_of (by decide +kernel), rfl⟩, ⟨arrives_of (by decide +kernel), rfl, by decide +kernel⟩,
    ⟨arrives_of (by decide +kernel), by decide +kernel, by decide +kernel, by decide, by decide⟩,
    arrives_of (by decide +kernel), by decide +kernel, by decide +kernel, by decide +kernel, by decide +kernel, by decide +kernel, by decide +kernel,
    by decide +kernel, by decide +kernel, portClear_of (by decide +kernel), by decide +kernel, by decide +kernel⟩
  have k : ∀ read ∈ [true, false], let s := awaiting read;
      let k := pkt (if read then 8 else 9) 0 [];
      (s.portUp 0 ∧ k.hdrOk ∧ vcOfType k.type = some k.vc ∧ s.fencePasses 0 k.vc k.job ∧ devPlace k.dest = s.place ∧ unitAccepts (k.dest % 4096) k.type) := by decide +kernel
  have c : ∀ read ∈ [true, false], let s := awaiting read;
      let c : Chunk := ⟨0, 2, .shelf 0 0x2400, read, [], 0#32, 0, [], 0, some 77, none, false, none, true⟩;
      ((s.tile 0).eng2).run = some { runOf (copyDesc 0) with flight := [c] } := by decide +kernel
  exact ⟨arrives_of (k read hr), rfl, _, _, ⟨c read hr, rfl, rfl⟩, rfl⟩

/-! Witnesses: routes, fences and collectives. -/

theorem witness_RoutesFencesAndRingLoss :
    (linked.mayWrite c0 0x2A0000 ∧ linked.domOn 22 ∧ aligned 0x2A0000 true ∧ aligned 0x2A0000 false ∧ linked.rd (fabLevel 0) = 0 ∧ linked.rd (fabLevel 1) ≠ 0 ∧
      bitAt 0x1000100010001 0 ∧ ∀ j < 4, ∀ q < 16, bitAt 0x1000100010001 (16 * j + q) → q = 0) ∧
    (let s : State := { linked.put [(0x290008, 0)] with fports := [(0, { FPort.fresh with downAt := some 5 })] };
      s.rd (fabLevel 0) = 0 ∧ (s.fport 0).downAt ≠ none ∧ s.portUp 0 = false ∧ bitAt (s.rd (fabRoute 0 1)) 0) ∧
    (linked.mayWrite c0 0x290010 ∧ linked.domOn (23 + 0 / 8) ∧ linked.rd jobState ≠ 2 ∧ linked.rd (fenceMode 0) = 1) ∧
    (let s : State := { linked.put [(0x440000, 2 + 256 * 7), (0x29000C, 0x1000)] with job := ⟨[0x1000], 0, 0xFFFF, 0⟩ };
      s.rd jobState = 2 ∧ s.rd jobId = 7 ∧ devPlace (s.rd (fabPartner 0)) ∈ s.job.places ∧ s.fabWait = []) := by decide +kernel

/-- The descriptor of a ring of two members: an operation, OPC 1 (2 for nothing), one line at 0x10000000 per segment, rank 0, COLL_ID 5. -/
def ringDesc (op : Nat) : BitVec 512 :=
  bitsOf [(0, op), (8, if op = 2 then 0 else 1), (16, 0), (20, 1), (24, 0), (32, 2), (40, 5), (64, 0x10000000), (128, 128), (160, 0xC001)]

/-- `linked` with port 1 Up as well. -/
def ringed : State := linked.put [(0x290400, 0x60), (0x290408, 0xFF6), (0x290410, 1)]

/-- `ringed` with a collective engine's first slot handed over, holding a descriptor. -/
def slotted (d : BitVec 512) : State :=
  ringed.put ((0x2C0000, 1) :: (List.range 16).map fun i => (0x2C0100 + 4 * i, bitsAt d.toNat (32 * i) 32))

/-- `ringed` with that descriptor running. -/
def ringRun (op step : Nat) (ready : Bool) (sent acked : Nat) (got : List (Nat × Nat)) : State :=
  { ringed with colls := [⟨0, 0, ringDesc op, step, ready, sent, acked, got⟩] }

theorem coll_fields : ∀ op ∈ [1, 2, 3], CollFields (ringDesc op) := by
  have h : ∀ op ∈ [1, 2, 3], let d := ringDesc op;
      cOp d ≠ 0 ∧ cRsv d = 0 ∧ cRank d < cNmem d ∧ (2 ≤ cNmem d ∧ cNmem d ≤ 64) ∧ (if cOp d = 2 then cOpc d = 0 else 1 ≤ cOpc d ∧ cOpc d ≤ 10) ∧ cBase d % 128 = 0 ∧
        (0 < cSeg d ∧ cSeg d % 128 = 0) ∧ cBase d + cNmem d * cSeg d ≤ cellarSize := by decide +kernel
  exact fun op ho => ⟨(h op ho).1, (h op ho).2.1, (h op ho).2.2.1, (h op ho).2.2.2.1, (h op ho).2.2.2.2.1, (h op ho).2.2.2.2.2.1, (h op ho).2.2.2.2.2.2.1, (h op ho).2.2.2.2.2.2.2⟩

theorem coll_ports : ∀ op ∈ [1, 2, 3], CollPorts ringed (ringDesc op) := by
  have h : ∀ op ∈ [1, 2, 3], ∀ q ∈ [cNext (ringDesc op), cPrev (ringDesc op)], ringed.portUp q ∧ ringed.rd (fenceMode q) = 1 ∧
      ringed.rd (fenceJob q) = ringed.rd jobId ∧ ringed.rd (fabVer q) = 3 := by decide +kernel
  exact fun op ho q hq => ⟨(h op ho q hq).1, (h op ho q hq).2.1, (h op ho q hq).2.2.1, (h op ho q hq).2.2.2, rfl, rfl, by simp [ringed, linked, State.put, live, State.reset],
    by simp [ringed, linked, State.put, live, State.reset]⟩

/-- A collective packet of a type for engine 0, from the place 0x1000, for COLL_ID 5, with a step, status and one line of data. -/
def collPkt (type step status off : Nat) (bs : List Byte) : Packet :=
  ⟨32, 0x1000, (vcOfType type).getD 7, type, 0, 0, off, bs.length, 1, 0, step, 5, 0, false, status, bs, 0#32, true, false⟩

theorem ring_plain : ∀ a ∈ [0x10000000, 0x10000080], PlainLine ringed (locOf ringed a) a := by
  have h : ∀ a ∈ [0x10000000, 0x10000080], let s := ringed;
      s.locate a = some (locOf s a) ∧ (s.homeStatus (locOf s a)).1 = 0 ∧ s.lineBusy (a / 128) = false ∧ s.dir (a / 128) = none ∧ s.hamper (locOf s a).home = [] ∧
        s.isRetired (locOf s a) = false := by decide +kernel
  exact fun a ha => plain_of (h a ha).1 (h a ha).2.1 (h a ha).2.2.1 (h a ha).2.2.2.1 (h a ha).2.2.2.2.1 (h a ha).2.2.2.2.2 rfl rfl rfl

/-- The packets of a running ring: READY, data, an acknowledgement, a failing one, an abort. -/
def ringArrivals (op : Nat) : List (State × Packet) :=
  [(ringRun op 0 false 0 0 [], collPkt 17 0 0 0 []), (ringRun op 0 true 1 0 [], collPkt 24 0 0 0x80 []), (ringRun op 0 true 1 0 [], collPkt 10 0 0 0 []),
    (ringRun op 0 true 1 0 [], collPkt 10 0 6 0 []), (ringRun op 0 true 1 0 [], collPkt 18 0 0 0 [])]

theorem witness_CollectivesRunTheRing :
    (ringed.mayWrite c0 (collBase 0) ∧ ringed.collOn 0 ∧ ringed.rd (collTail 0) = 0 ∧ ringed.rd (collHead 0) = 0) ∧
    (∀ op ∈ [1, 2, 3], (slotted (ringDesc op)).collOn 0 ∧ (slotted (ringDesc op)).colls = [] ∧ (slotted (ringDesc op)).rd (collTail 0) ≠ (slotted (ringDesc op)).rd (collHead 0) ∧
      (slotted (ringDesc op)).rd (collState 0 0) = 0 ∧ (slotted (ringDesc op)).collDesc 0 0 = ringDesc op ∧ (slotted (ringDesc op)).collEarly = []) ∧
    (∀ op ∈ [1, 2, 3], CollFields (ringDesc op) ∧ CollPorts ringed (ringDesc op) ∧ cSeg (ringDesc op) = 128 ∧ 0 < cSteps (ringDesc op)) ∧
    cRsv (ringDesc 1 + bitsOf [(511, 1)]) ≠ 0 ∧
    (∀ op ∈ [1, 2, 3], ∀ q ∈ ringArrivals op, Arrives q.1 0 q.2) ∧
    (collPkt 17 0 0 0 []).engine = 0 ∧ (∀ a ∈ [0x10000000, 0x10000080], PlainLine ringed (locOf ringed a) a) ∧
    (let s := ringRun 3 0 true 1 1 [(0, 128)];
      let c : Coll := ⟨0, 0, ringDesc 3, 0, true, 1, 1, [(0, 128)]⟩;
      s.colls = [c] ∧ c.gotIn c.step = 128 ∧ 0 + 1 < cSteps c.desc) ∧
    (∀ op ∈ [1, 2, 3], let n := cSteps (ringDesc op) - 1;
      let c : Coll := ⟨0, 0, ringDesc op, n, true, 1, 1, [(n, 128)]⟩;
      c.sent = cPackets c.desc ∧ c.acked = c.sent ∧ c.gotIn c.step = cSeg c.desc ∧ c.step + 1 = cSteps c.desc) ∧
    (∀ op ∈ [1, 2, 3], let d := ringDesc op;
      let seg := if cGather d 0 then (cRank d + cNmem d - cHalf d 0) % cNmem d else (cRank d + cNmem d + cNmem d - cHalf d 0 - 1) % cNmem d;
      let off := if op = 2 then 0 else 0x80;
      seg * cSeg d ≤ off ∧ off + 128 ≤ (seg + 1) * cSeg d) ∧
    ({ collPkt 24 0 0 0 (List.replicate 16 0#8) with crc := crc32c (List.replicate 16 0#8) }.crcOk ∧ (collPkt 24 0 0 0 [1#8]).crcOk = false) := by
  refine ⟨by decide +kernel, by decide +kernel, fun op ho => ⟨coll_fields op ho, coll_ports op ho, ?_⟩, by decide +kernel, fun op ho => ?_, by decide, ring_plain, by decide +kernel,
    by decide +kernel, by decide +kernel, by decide +kernel⟩
  · revert op
    decide +kernel
  · have k : ∀ op ∈ [1, 2, 3], ∀ q ∈ ringArrivals op,
        q.1.portUp 0 ∧ q.2.hdrOk ∧ vcOfType q.2.type = some q.2.vc ∧ q.1.fencePasses 0 q.2.vc q.2.job ∧ devPlace q.2.dest = q.1.place ∧ unitAccepts (q.2.dest % 4096) q.2.type := by
      decide +kernel
    exact fun q hq => arrives_of (k op ho q hq)

/-! Witnesses: host ports and BARs. -/

/-- `live` with host port 0 out of PERST#, its link up and configured, memory space and bus mastering enabled. -/
def hosted : State := { live.put [(0x10000, 0x701)] with hports := [(0, { HPort.fresh with perst := false, mse := true })] }

/-- A command of a ring from its fields (first byte, bytes, value), in a state. -/
def cmdOf (k st : Nat) (l : List (Nat × Nat × Nat)) : Cmd :=
  ⟨k, toBytes 64 (l.foldl (fun n q => n + q.2.2 * 256 ^ q.1) 0), st, 1, 0, 0, 0, [], 0, false, none⟩

/-- A COPY, SEQ 7, from host memory of port 0 to that of port 1 of `n` bytes. -/
def copyCmd (st n : Nat) : Cmd := cmdOf 0 st [(0, 4, 7), (4, 1, 1), (5, 1, 2), (24, 8, 0x200000001000), (32, 8, 0x300000002000), (40, 8, n)]

theorem witness_HostPortsLinkConfigureAndLosePaths :
    (hosted.on (hpLinkUp 0) ∧ (hosted.hport 0).perst = false ∧ hosted.on (hpCfgReady 0)) ∧
    (let s : State := { hosted with cmds := [copyCmd 2 64] };
      s.on (hpLinkUp 0) ∧ (copyCmd 2 64).touches 0 ∧ (copyCmd 2 64).touches 1 ∧ (copyCmd 2 64).ring < 32) ∧
    (let s : State := { live with hports := [(0, { HPort.fresh with perst := false })] };
      s.on (hpLinkUp 0) = false ∧ (s.hport 0).perst = false ∧ s.pins.resetReleased ∧ s.domOn 27 ∧ s.portLogic 0 ∧ s.on (pcieRefOk 0)) ∧
    (let s := live.put [(0x10000, 3)];
      s.on (hpLinkUp 0) ∧ s.on (hpCfgReady 0) = false ∧ s.on (hpCxl 0)) ∧
    (let s : State := { hosted with held := [⟨0, 16, some 0⟩, ⟨5, 16, none⟩] };
      s.held = ⟨0, 16, some 0⟩ :: [⟨5, 16, none⟩]) := by decide +kernel

theorem hosted_plain : PlainLine hosted (locOf hosted 0x10000000) 0x10000000 :=
  plain_of (by decide +kernel) (by decide +kernel) (by decide +kernel) (by decide +kernel) (by decide +kernel) (by decide +kernel) rfl rfl rfl

theorem witness_BarAccessesReachRegistersAndTheCellar :
    (hosted.on (hpLinkUp 0) ∧ BarOpen hosted 0 ∧ hosted.devReady ∧ ∀ a ∈ [0x430000, 0x180040, 0x180060, 0x200000, 0x27FFFC], msixRange a = false ∧ hosted.regBlocked a = false ∧ UnitAnswers hosted a) ∧
    (let s := hosted.put [(0x1C0100 + 8 * 22, 0)];
      BarOpen s 0 ∧ msixRange 0x40000 = false ∧ s.regBlocked 0x40000 = false ∧ s.regPowered 0x40000 = false) ∧
    (let s := hosted.put [(0x1C0100 + 8 * 22, 0x31)];
      BarOpen s 0 ∧ regDomain 0x40000 = some 22 ∧ s.mustWait 22 ∧ s.regPowered 0x40000 ∧ s.regBlocked 0x40000 = false) ∧
    (let s : State := { hosted with pins := { hosted.pins with devReady := false } };
      s.devReady = false ∧ BarOpen s 0 ∧ servedEarly 0x40000 = false) ∧
    (let s : State := { hosted with bar0Blocked := [22] };
      s.regBlocked 0x40000 ∧ BarOpen s 0) ∧
    (live.put [(0x10000, 0x701)]).memSpace 0 = false ∧
    (let s := hosted.put [(0x10004, 4)];
      s.memSpace 0 ∧ s.on (hpIdeRequired 0)) ∧
    (PlainLine hosted (locOf hosted 0x10000000) (hosted.bar2Addr 0 0x10000000) ∧ driverReserve ≤ hosted.bar2Addr 0 0x10000000 ∧ hosted.portPosted 0 = false ∧
      hosted.hampers = [] ∧ hosted.bar2Addr 0 0xFFFFFFF < driverReserve) ∧
    (let s : State := { hosted with homeQ := [⟨0, [1#8], some 0⟩] };
      BarOpen s 0 ∧ s.portPosted 0) ∧
    (∀ k < 5, ∀ q ∈ [(2400, 3600), (700, 880), (699, 880), (2400, 3601), (800, 799)], bitsAt (q.1 + q.2 * 65536) 0 12 = q.1 ∧ bitsAt (q.1 + q.2 * 65536) 16 12 = q.2) := by
  refine ⟨?_, ?_, ?_, ?_, ?_, ?_, ?_, ⟨hosted_plain, ?_⟩, ?_, ?_⟩ <;> (try unfold BarOpen) <;> (try unfold UnitAnswers) <;> decide +kernel
/-! Witnesses: rings. -/

/-- `hosted` with ring 0 of port 0: its CTL, BASE and indices. -/
def ringing (ctl base idx : Nat) : State := hosted.put [(ringReg 0 0, ctl), (ringReg 0 8, base % 2 ^ 32), (ringReg 0 12, base / 2 ^ 32), (ringReg 0 0x18, idx)]

theorem witness_RingsTakeDoorbellsAndControl :
    (∀ log2 ∈ [4, 12], let s := ringing (1 + 2 + 4 * log2 + 2 ^ 12 + 2 ^ 16) 0x10000000 0;
      BarOpen s 0 ∧ s.devReady ∧ s.on (ringEnable 0) ∧ s.rd (ringEpoch 0) = 1 ∧ s.rd (ringLog2 0) = log2 ∧
      let n := 2 ^ log2 * 2 ^ 8 + 2 ^ 32;
      bitsAt n 4 4 = 0 ∧ bitsAt n 21 11 = 0 ∧ bitsAt n 48 16 = 0 ∧ bitsAt n 32 16 = 1 ∧
        (bitsAt n 8 13 % (2 * s.ringSize 0) + 2 * s.ringSize 0 - s.rd (ringTail 0)) % (2 * s.ringSize 0) = s.ringSize 0 - s.ringCount 0) ∧
    (let s := ringing (1 + 2 + 16 + 2 ^ 12 + 2 ^ 16) 0x10000000 0x10000;
      s.ringSize 0 = 16 ∧ s.ringCount 0 = 1 ∧ s.ringSize 0 - s.ringCount 0 < (17 + 2 * s.ringSize 0 - s.rd (ringTail 0)) % (2 * s.ringSize 0) ∧
      s.rd (ringEpoch 0) ≠ 0) ∧
    (∀ q ∈ [(4, 0x10000000, true), (12, cellarSize - 2 ^ 18, true), (12, cellarSize - 2 ^ 17, false), (3, 0x10000000, false), (13, 0x10000000, false), (4, 0x10000800, false)],
      let s := ringing 0 q.2.1 0;
      s.mayWrite c0 (ringReg 0 0) ∧ s.portLogic 0 ∧ s.on (ringEnable 0) = false ∧ s.rd (ringState 0) = 0 ∧ (3 + 4 * BitVec.ofNat 32 q.1).getLsbD 6 = false ∧
      (3 + 4 * BitVec.ofNat 32 q.1).getLsbD 1 ∧ bitsAt (3 + 4 * BitVec.ofNat 32 q.1).toNat 2 4 = q.1 ∧
      (decide (s.reg64 (ringReg 0 8) % 4096 = 0) && decide (4 ≤ q.1) && decide (q.1 ≤ 12) && decide (s.reg64 (ringReg 0 8) + 64 * 2 ^ q.1 ≤ cellarSize)) = q.2.2) ∧
    ∀ st ∈ [3, 4], let s := ringing (1 + 2 ^ 12 * st) 0x10000000 0;
      s.mayWrite c0 (ringReg 0 0) ∧ s.portLogic 0 ∧ s.on (ringEnable 0) ∧ s.rd (ringState 0) = st := by
  refine ⟨?_, ?_, ?_, ?_⟩ <;> (try unfold BarOpen) <;> decide +kernel
/-! Witnesses: commands of the rings. -/

/-- The 64 bytes of a command with SEQ, opcode and operand, its HCRC and OCRC right (Table 14.4). -/
def entryOf (seq op ver : Nat) (operand : List Byte) : List Byte :=
  let o := operand ++ List.replicate (48 - operand.length) 0#8
  let h := toBytes 4 seq ++ [BitVec.ofNat 8 op, BitVec.ofNat 8 ver, 0#8, 0#8] ++ toBytes 2 (crc16 o).toNat ++ toBytes 4 0
  h ++ toBytes 2 (crc16 h).toNat ++ o

/-- `ringing` with an entry in slot 0 of ring 0, in the cellar, and a number of tries. -/
def fetching (e : List Byte) (tries : Nat) : State :=
  { ringing (1 + 2 + 16 + 2 ^ 12 + 2 ^ 16) 0x10000000 0x10000 with
    cellar := ((List.range 64).zip e).filterMap fun p => if p.2 = 0#8 then none else some (0x10000000 + p.1, p.2)
    rings := putMap ⟨0, 0⟩ [] 0 ⟨0, tries⟩ }

theorem fetches_of {s : State} {a : Nat} (h0 : s.reg64 (ringReg 0 8) + 64 * (s.rd (ringHead 0) % s.ringSize 0) = a)
    (h : s.mayFetch 0 ∧ s.on (ringLoc 0) ∧ a % 64 = 0) (h1 : PlainLine s (locOf s a) a) : RingFetches s 0 (locOf s a) (readBytes s.cellar a 64) :=
  ⟨h.1, h.2.1, by rw [h0]; exact h.2.2, by rw [h0]; exact h1, by rw [h0]⟩

/-- A NOP, one of an unknown opcode, and one with a broken OCRC. -/
def entries : List (List Byte) := [entryOf 0 0 2 [], entryOf 0 2 2 [], entryOf 5 0 2 [], entryOf 0 0x22 2 []]

theorem witness_CommandsAreFetchedAndAccepted :
    (∀ e ∈ entries, ∀ tries ∈ [0, 8], let s := fetching e tries;
      RingFetches s 0 (locOf s 0x10000000) (readBytes s.cellar 0x10000000 64) ∧ readBytes s.cellar 0x10000000 64 = e ∧ s.cmds = [] ∧
        (s.rd (ringSeqBase 0) + (s.ring 0).n) % 2 ^ 32 = 0 ∧ (s.ring 0).tries = tries ∧
      ofBytes ((e.drop 14).take 2) = (crc16 (e.take 14)).toNat ∧ ofBytes ((e.drop 8).take 2) = (crc16 (e.drop 16)).toNat) ∧
    (entries.map fun e => ofBytes (e.take 4)) = [0, 0, 5, 0] ∧
    (entries.map fun e => (fetching e 0).acceptError ⟨0, e, 1, 1, 0, 0, 0, [], 0, false, none⟩) = [0, 1, 0, 5] := by
  have k : ∀ e ∈ entries, ∀ tries ∈ [0, 8], let s := fetching e tries;
      (s.reg64 (ringReg 0 8) + 64 * (s.rd (ringHead 0) % s.ringSize 0) = 0x10000000) ∧ (s.mayFetch 0 ∧ s.on (ringLoc 0) ∧ 0x10000000 % 64 = 0) ∧
      (s.locate 0x10000000 = some (locOf s 0x10000000) ∧ (s.homeStatus (locOf s 0x10000000)).1 = 0 ∧ s.lineBusy (0x10000000 / 128) = false ∧
        s.dir (0x10000000 / 128) = none ∧ s.hamper (locOf s 0x10000000).home = [] ∧ s.isRetired (locOf s 0x10000000) = false) := by decide +kernel
  refine ⟨fun e he tries ht => ?_, by decide +kernel, by decide +kernel⟩
  obtain ⟨h0, h1, h2, h3, h4, h5, h6, h7⟩ := k e he tries ht
  refine ⟨fetches_of h0 h1 (plain_of h2 h3 h4 h5 h6 h7 rfl rfl rfl), ?_⟩
  revert e tries
  decide +kernel

/-- `hosted` with both ports linked and the given commands. -/
def commanded (l : List Cmd) : State := { hosted.put [(0x11000, 0x701)] with cmds := l }

/-- A DRIVER_MSG, SEQ 9, of `n` bytes in host memory of port 0. -/
def msgCmd (st n : Nat) : Cmd := cmdOf 0 st [(0, 4, 9), (4, 1, 0x40), (5, 1, 2), (24, 8, 0x200000001000), (32, 4, n)]

theorem onlyCmd_of {s : State} {c : Cmd} {op : Nat} (h : s.cmds = [c] ∧ c.ring < 32 ∧ c.st = 1 ∧ c.opcode = op) : OnlyCmd s c op := ⟨h.1, h.2.1, h.2.2.1, h.2.2.2⟩

theorem witness_CommandsRunAndEnd :
    OnlyCmd (commanded [cmdOf 31 1 [(0, 4, 2 ^ 32 - 1)]]) (cmdOf 31 1 [(0, 4, 2 ^ 32 - 1)]) 0x00 ∧
    (∀ n ∈ [0, 1, 2 ^ 40 - 1, 2 ^ 40], OnlyCmd (commanded [copyCmd 1 n]) (copyCmd 1 n) 0x01 ∧ (copyCmd 1 n).fld 40 8 = n ∧ (copyCmd 1 n).copyOk = decide (n < 2 ^ 40)) ∧
    (commanded []).rd jobState ≠ 3 ∧ ((commanded []).put [(0x440000, 3)]).rd jobState = 3 ∧
    (∀ q ∈ [(0, 0), (4096, 0), (4096, 1)], let c := { copyCmd 2 5000 with total := 5000, progress := q.1, noHost := decide (q.2 = 1) };
      c.ring < 32 ∧ c.st = 2 ∧ c.opcode = 0x01 ∧ placeOf (c.fld 24 8 + c.progress) = some (.hostAp 0 (0x1000 + q.1)) ∧
        placeOf (c.fld 32 8 + c.progress) = some (.hostAp 1 (0x2000 + q.1)) ∧ (commanded [c]).hostReach 0 ((commanded [c]).hostBus 0 (0x1000 + q.1)) (min 4096 (5000 - q.1)) ∧ (commanded [c]).hostReach 1 ((commanded [c]).hostBus 1 (0x2000 + q.1)) (min 4096 (5000 - q.1)) ∧
        (decide (c.progress + min 4096 (c.total - c.progress) = c.total) = decide (q.1 = 4096))) ∧
    (∀ n ∈ [0, 1, 4096, 4097], OnlyCmd (commanded [msgCmd 1 n]) (msgCmd 1 n) 0x40 ∧ (msgCmd 1 n).fld 32 4 = n ∧
      (1 ≤ n → copySpace ((msgCmd 1 n).fld 24 8) n = some (1 + (msgCmd 1 n).port)) ∧ placeOf ((msgCmd 1 n).fld 24 8) = some (.hostAp 0 0x1000)) ∧
    (let s : State := { commanded [msgCmd 2 8] with drvMsgs := [⟨some (0, 9), [1#8]⟩] };
      s.on drvLost = false ∧ s.cmds = [msgCmd 2 8] ∧ s.drvMsgs = ⟨some ((msgCmd 2 8).ring, (msgCmd 2 8).seq), [1#8]⟩ :: [] ∧ (msgCmd 2 8).st = 2 ∧ (msgCmd 2 8).opcode = 0x40 ∧
      64 ≤ ({ s with drvMsgs := List.replicate 64 ⟨none, []⟩ } : State).drvMsgs.length) ∧
    (commanded []).mayWrite c0 0x49400 ∧ (commanded []).domOn 22 ∧ ((commanded []).put [(0x49400, 0x3202)]).on drvLost ∧
    (let s : State := { live with heartbeat := some 0 };
      s.heartbeat = some 0 ∧ s.on drvLost = false ∧ 0 + 25000 * s.rd drvPeriod ≤ 2500000 ∧ 2499999 < 0 + 25000 * s.rd drvPeriod) ∧
    ((copyCmd 2 8).plt + 25 * (commanded [copyCmd 2 8]).rd (hpStatusPeriod (copyCmd 2 8).port) = 250 ∧ (copyCmd 2 8).st = 2) ∧
    (let s := (commanded []).put [(0x10004, 0xA04)]; s.hostReach 0 (s.hostBus 0 0x1000) 4096 = false) ∧
    (let a := cmdOf 0 1 [(0, 4, 1)]; let b := cmdOf 31 1 [(0, 4, 1)]; let s := commanded [a, b];
      a.ring < 32 ∧ b.ring < 32 ∧ a.ring ≠ b.ring ∧ a.st = 1 ∧ b.st = 1 ∧ a.opcode = 0x00 ∧ b.opcode = 0x00 ∧ s.turnsTo a.ring < s.turnsTo b.ring) := by
  refine ⟨onlyCmd_of (by decide +kernel), fun n hn => ?_, by decide +kernel, by decide +kernel, by decide +kernel, fun n hn => ?_, by decide +kernel, by decide +kernel, by decide +kernel,
    by decide +kernel, by decide +kernel, by decide +kernel, by decide +kernel, by decide +kernel⟩
  · refine ⟨onlyCmd_of ?_, ?_⟩ <;> revert n <;> decide +kernel
  · refine ⟨onlyCmd_of ?_, ?_⟩ <;> revert n <;> decide +kernel
/-! Witnesses: jobs. -/

/-- ADMIT_JOB, SEQ 3, of a manifest at an address; TEARDOWN, SEQ 4, with no certificate address. -/
def admitCmd (st a n : Nat) : Cmd := cmdOf 0 st [(0, 4, 3), (4, 1, 0x10), (5, 1, 2), (24, 8, a), (32, 4, n)]
def tearDown (st a : Nat) : Cmd := cmdOf 0 st [(0, 4, 4), (4, 1, 0x11), (5, 1, 2), (24, 8, a)]

/-- A manifest of job 9 for this device alone, ADMIT_SEQ 1, its key and signature bytes 0 (Table 20.2). -/
def manifest : List Byte :=
  toBytes 4 0x4D424F4A ++ [1#8, 0#8, 0#8, 0#8] ++ toBytes 3 9 ++ [0#8] ++ toBytes 4 1 ++ toBytes 8 1 ++ List.replicate 44 0#8 ++
    toBytes 4 0x10 ++ List.replicate 2568 0#8

/-- `commanded` with a job state, the manifest at the start of the usable cellar, and the first owner key slot active with hash 0. -/
def admitting (st : Nat) (l : List Cmd) : State :=
  { (commanded l).put [(0x440000, st), (0x4C0100, 1)] with
    cellar := ((List.range manifest.length).zip manifest).filterMap fun p => if p.2 = 0#8 then none else some (0x10000000 + p.1, p.2) }

/-- The bytes of a burst lie at one location, where the one region spreads over every home. -/
theorem locate_burst (s : State) (b j : Nat) (h : s.carve = [⟨true, 0, cellarSize⟩]) (hj : j < 64) : s.locate (64 * b + j) = s.locate (64 * b) := by
  have e1 : (64 * b + j - 0) / 2048 = (64 * b - 0) / 2048 := by omega
  have e2 : (64 * b + j) / 64 = 64 * b / 64 := by omega
  have e3 : (64 * b + j) / 128 = 64 * b / 128 := by omega
  have e4 : ∀ x, (0 + x * 2048 + (64 * b + j - 0) % 2048) / 2048 = (0 + x * 2048 + (64 * b - 0) % 2048) / 2048 := by omega
  unfold State.locate
  rw [h]
  simp only [homeOffset]
  by_cases c : 64 * b < 0 + cellarSize
  · have c' : 64 * b + j < 0 + cellarSize := by unfold cellarSize at c ⊢; omega
    rw [if_pos c, if_pos c', e1]
    simp only [Option.map_some, e2, e3, e4]
  · have c' : ¬(64 * b + j < 0 + cellarSize) := by omega
    rw [if_neg c, if_neg c']
    rfl

/-- The first 3,072 bytes beyond the driver reserve are plain where nothing holds any line and the bursts' homes serve. -/
theorem plain_range {s : State} (hc : s.carve = [⟨true, 0, cellarSize⟩])
    (h : ∀ b < 48, s.locate (64 * (0x400000 + b)) = some (locOf s (64 * (0x400000 + b))) ∧ (s.homeStatus (locOf s (64 * (0x400000 + b)))).1 = 0 ∧
      s.hamper (locOf s (64 * (0x400000 + b))).home = [] ∧ s.isRetired (locOf s (64 * (0x400000 + b))) = false)
    (hb : ∀ line, s.lineBusy line = false) (hd : s.dirs = []) (hs : s.symErr = []) (hp : s.burstPoison = [])
    (hr : s.repairing = []) (i : Nat) (hi : i < 3072) :
    ∃ l, PlainLine s l (0x10000000 + i) := by
  obtain ⟨h1, h2, h3, h4⟩ := h (i / 64) (by omega)
  have e : 0x10000000 + i = 64 * (0x400000 + i / 64) + i % 64 := by omega
  have p := locate_burst s (0x400000 + i / 64) (i % 64) hc (by omega)
  rw [e]
  exact ⟨_, by rw [p]; exact h1, serves_of h2, hb _, by simp [State.lineHeld, State.bankHeld, hr], by simp [State.dir, hd], by simp [h3], h4, fun b _ => by simp [hs, hp, lookMap, State.isPoison]⟩

theorem admitting_plain : ∀ i < 2640, ∃ l, PlainLine (admitting 0 [admitCmd 1 0x10000000 2640]) l (0x10000000 + i) :=
  fun i hi => plain_range rfl (by decide +kernel) (fun _ => rfl) rfl rfl rfl rfl i (by omega)

/-- With a key whose hash is 0 and whose signature verifies (both left open by the spec, log entry 15) the manifest passes every check. -/
theorem manifest_passes (hk : keyHash (manKey manifest) = 0) (hs : sigOk manifest (manKey manifest) (manKeyAt manifest + 72) 2500 = true) :
    (admitting 0 []).manifestError manifest = none := by
  have k : manifestOk manifest = true ∧ fldAt manifest 8 3 = 9 ∧ (sigLen (fldAt manifest (manKeyAt manifest) 4)).getD 0 = 2500 ∧
      fldAt manifest 24 16 = ofBytes (admitting 0 []).list.inst ∧ ¬ fldAt manifest 16 8 ≤ (admitting 0 []).reg64 jobSeqLast ∧
      ¬ devPlace (admitting 0 []).place ∉ manPlaces manifest := by decide +kernel
  have a : (admitting 0 []).activeSlot (manKey manifest) = some 0 := by
    unfold State.activeSlot
    rw [hk]
    decide +kernel
  obtain ⟨k1, k2, k3, k4, k5, k6⟩ := k
  simp [State.manifestError, k1, k2, k3, k4, k5, k6, a, hs]

theorem witness_JobsAreAdmitted :
    OnlyCmd (admitting 0 [admitCmd 1 0x10000000 2640]) (admitCmd 1 0x10000000 2640) 0x10 ∧
    (∀ st ∈ [0, 1, 2, 3, 4], (admitting st []).rd jobState = st ∧ (admitting st []).on drvLost = false) ∧
    (admitting 0 []).rd updState ≠ 1 ∧ ((admitting 0 []).put [(0x4C0300, 4)]).rd updState = 1 ∧
    (admitCmd 1 0x10000000 2640).fld 24 8 = 0x10000000 ∧ (admitCmd 1 0x10000000 2640).fld 32 4 = 2640 ∧ (admitCmd 1 0xFFFFFF8 2640).fld 24 8 < driverReserve ∧
    (admitCmd 1 0x10000004 2640).fld 24 8 % 8 ≠ 0 ∧ cellarSize < (admitCmd 1 (cellarSize - 8) 2640).fld 24 8 + 2640 ∧
    readBytes (admitting 0 []).cellar 0x10000000 2640 = manifest ∧ (admitting 0 []).manifestError [0#8] = some 0x0402 ∧
    (let s := admitting 1 [admitCmd 2 0x10000000 2640];
      s.rd jobState = 1 ∧ s.admitPorts = [] ∧ s.cmds = [admitCmd 2 0x10000000 2640] ∧ (admitCmd 2 0x10000000 2640).st = 2) ∧
    ∀ ik ∈ [0, 65535, 65536], let s := live.put [(0x440024, 2 ^ 20 - 4096), (0x440028, ik)];
      2 ^ 20 ≤ s.rd akUsed + 4096 ∧ s.on akNext = false ∧ s.rd ikUsed = ik := by
  refine ⟨onlyCmd_of (by decide +kernel), ?_, ?_, ?_, ?_, ?_, ?_, ?_, ?_, ?_, ?_, ?_, ?_⟩ <;> decide +kernel

/-- A teardown in a step, accepted at tick 0, with one ring command. -/
def tearing (k : Nat) : State := { admitting 3 [tearDown 2 0] with tear := some ⟨0, 0, 0, 0, 0, 0, 0, 0⟩, regs := (0x440004, BitVec.ofNat 32 k) :: (admitting 3 []).regs }

theorem witness_TeardownsRunTheirSteps :
    (∀ st ∈ [2, 3, 4], OnlyCmd (admitting st [tearDown 1 0]) (tearDown 1 0) 0x11 ∧ (admitting st []).on drvLost = false ∧ (admitting st []).planRun = none ∧
      (admitting st []).slices = [] ∧ (admitting st []).rd jobState = st) ∧
    (tearDown 1 0).fld 24 8 = 0 ∧ (tearDown 1 4).fld 24 8 % 8 ≠ 0 ∧
    (∀ k ∈ [1, 2, 3, 4, 5, 6, 7], (tearing k).tear = some ⟨0, 0, 0, 0, 0, 0, 0, 0⟩ ∧ (tearing k).rd jobTdStep = k ∧ (tearing k).cmds = [tearDown 2 0]) ∧
    (tearDown 2 0).ring < 32 ∧ (tearDown 2 0).opcode = 0x11 ∧ (tearDown 2 0).st = 2 ∧
    (∀ w < 256, (tearing 2).rd (outInflight w) = 0) ∧ (∀ n < 256, (tearing 2).on (inBusy n) = false) ∧
    ((tearing 2).wr (outInflight 7) 1).rd (outInflight 7) ≠ 0 ∧
    (∀ d < 16, (tearing 3).rd (domState d) ≠ 1 ∧ (tearing 3).rd (domState d) ≠ 4) ∧
    ((tearing 4).l2 = [] ∧ (tearing 4).evicts = [] ∧ (tearing 4).dirs = []) ∧
    (∀ st < 20, (tearing 5).on (celThermalStop st) = false) ∧ ((tearing 5).wr (celThermalStop 3) 1).on (celThermalStop 3) ∧
    (tearing 5).fillWaits driverReserve = false ∧ (tearing 6).sds = [] ∧ (tearing 4).on govHold = false ∧
    (let s : State := { tearing 5 with dirs := [⟨0x400000, some 9, 0, 15⟩], txns := [⟨0x400000, .caching 0 0, [], false, false, none, .e, false⟩] };
      s.fillWaits driverReserve ∧ ∀ st < 20, s.on (celThermalStop st) = false) ∧
    ({ tearing 6 with sds := [someSd []] } : State).sds ≠ [] ∧
    (tearing 7).rd akUsed + 1 < 2 ^ 20 := by
  refine ⟨fun st hs => ⟨onlyCmd_of ?_, ?_⟩, ?_, ?_, ?_, ?_, ?_, ?_, ?_, ?_, ?_, ?_, ⟨rfl, rfl, rfl⟩, ?_, ?_, ?_, ?_, ?_, ?_, ?_, ?_⟩
  · revert st; decide +kernel
  · revert st; decide +kernel
  all_goals decide +kernel
/-! Witnesses: plans. -/

/-- An image of a plan of job 9, without its last four bytes: one TIME step at 400 ns with END tally 1 of the package, and one fixed item without tiles. -/
def imageBody : List Byte :=
  toBytes 4 1 ++ toBytes 4 144 ++ toBytes 4 5 ++ toBytes 4 9 ++ toBytes 4 40000 ++ toBytes 4 0 ++ toBytes 2 1 ++ toBytes 2 1 ++ toBytes 4 96 ++
    List.replicate 10 0#8 ++ [10#8] ++ List.replicate 21 0#8 ++ [0#8, 0#8, 1#8, 0#8, 0#8, 0#8, 0xFF#8, 0xFF#8] ++ toBytes 4 400 ++ toBytes 4 39000 ++
    toBytes 8 0xC001 ++ toBytes 8 0x10000 ++ [4#8] ++ List.replicate 23 0#8 ++ toBytes 8 128 ++ List.replicate 12 0#8

/-- The image with the CRC-32C of its bytes. -/
def image : List Byte := imageBody ++ toBytes 4 0x24931B17

theorem image_sound : imageBad image = none := by
  unfold imageBad
  rw [crc32c_fast]
  decide +kernel

/-- STOCKTAKE, SEQ 5; RUN_PLAN, SEQ 6, of 2 periods with its ring at 0x20000000; STOP_PLAN, SEQ 8. -/
def takeCmd (a : Nat) : Cmd := cmdOf 0 1 [(0, 4, 5), (4, 1, 0x20), (5, 1, 2), (24, 8, a)]
def runPlanCmd (st id token : Nat) : Cmd := cmdOf 0 st [(0, 4, 6), (4, 1, 0x21), (5, 1, 2), (24, 4, id), (28, 2, token), (32, 8, 2), (40, 8, 0x20000000), (48, 1, 4)]
/-- A stocktake under way: `n` slack-table entries left, result at `ra` in 40 bytes. -/
def taken (n : Nat) : Take := ⟨0, 0, List.replicate 8 0#8, planOf image, List.replicate n (List.replicate 16 7#8), 1⟩
def takingCmd (n ra : Nat) : Cmd := { cmdOf 0 2 [(0, 4, 5), (4, 1, 0x20), (5, 1, 2), (32, 8, ra), (40, 4, 40)] with take := some (taken n) }
def stopCmd (st : Nat) : Cmd := cmdOf 0 st [(0, 4, 8), (4, 1, 0x22), (5, 1, 2)]

/-- `admitting` with job state word `st` and bytes from the first address beyond the driver reserve. -/
def planning (st : Nat) (bs : List Byte) (l : List Cmd) : State :=
  { admitting st l with cellar := ((List.range bs.length).zip bs).filterMap fun p => if p.2 = 0#8 then none else some (0x10000000 + p.1, p.2) }

/-- The plan of the image, as priced, and a reservation that does not fit. -/
def thePlan : Plan := { planOf image with lens := [0], resv := List.replicate 18 0 }
def hugePlan : Plan := { thePlan with resv := List.replicate 18 65535 }

/-- A run of it with some period starts and instances. -/
def aRun (starts : List Nat) (insts : List PInst) (stop : Option Nat) : PRun :=
  { plan := thePlan, periods := 2, evBase := 0x20000000, evLog := 4, seq := 0, starts := starts, fires := [0], insts := insts, causes := 0, lost := 0, timed := [],
    nLate := 0, nSusp := 0, lastLate := 0, stopAt := stop }

/-- `planning` at a tick with a plan and a run of it. -/
def running (t : Nat) (p : Plan) (r : Option PRun) (l : List Cmd) : State := { planning 0x902 [] l with plt := t, plan := some p, planRun := r }

theorem witness_PlansAreTakenStockOfRunAndStopped :
    (∀ a ∈ [0x10000000, 0x10000004, cellarSize - 56], OnlyCmd (planning 0x902 image [takeCmd a]) (takeCmd a) 0x20 ∧ (takeCmd a).fld 24 8 = a ∧ (takeCmd a).fld 32 8 = 0) ∧
    (planning 0x902 image []).on drvLost = false ∧ cellarSize < cellarSize - 56 + 64 ∧
    (∀ i < 144, ∃ l, PlainLine (planning 0x902 image [takeCmd 0x10000000]) l (0x10000000 + i)) ∧
    readBytes (planning 0x902 image []).cellar 0x10000000 144 = image ∧ fldAt (image.take 64) 4 4 = 144 ∧ fldAt (image.take 64) 0 2 = 1 ∧ imageBad image = none ∧
    (planOf image).job = 9 ∧ (planning 0x902 image []).rd jobState = 2 ∧ (planning 0x902 image []).rd jobId = 9 ∧ (planning 0x802 image []).rd jobId ≠ 9 ∧
    fldAt ((2#8 :: image.drop 1).take 64) 0 2 ≠ 1 ∧
    (∀ n ∈ [0, 1], ∀ ra ∈ [0, 0x10000400], let c := takingCmd n ra; let s := planning 0x902 image [c];
      s.cmds = [c] ∧ c.ring < 32 ∧ c.opcode = 0x20 ∧ c.st = 2 ∧ c.take = some (taken n) ∧ s.on drvLost = false ∧ s.rd plnCondGen = (taken n).token ∧
        16 * ((taken n).done + 1) ≤ c.fld 40 4 ∧ c.fld 40 4 < 16 * ((taken n).done + 2) ∧ c.fld 32 8 = ra ∧ ra % 16 = 0 ∧
        ((planning 0x902 image []).put [(0x49400, 2)]).on drvLost) ∧
    (∃ l, PlainLine (planning 0x902 image [takingCmd 1 0x10000400]) l (0x10000000 + 0x410)) ∧
    (∀ id ∈ [5, 6], ∀ token ∈ [0, 1], OnlyCmd (running 0 thePlan none [runPlanCmd 1 id token]) (runPlanCmd 1 id token) 0x21 ∧ (runPlanCmd 1 id token).fld 24 4 = id ∧
      (runPlanCmd 1 id token).fld 28 2 = token ∧ (runPlanCmd 1 id token).fld 40 8 % 32 = 0 ∧ (runPlanCmd 1 id token).fld 48 1 = 4) ∧
    (running 0 thePlan none []).rd plnToken = 0 ∧ (running 0 thePlan none []).rd plnCondGen = 0 ∧ ((running 0 thePlan none []).put [(0x4A000, 0x10000)]).rd plnCondGen = 1 ∧
    (running 0 thePlan none []).setResvs hugePlan = none ∧ (running 0 thePlan none []).setResvs thePlan ≠ none ∧
    OnlyCmd (running 0 thePlan none [stopCmd 1]) (stopCmd 1) 0x22 ∧
    (let s := running 100 thePlan (some (aRun [0] [] (some 100))) [runPlanCmd 2 5 0];
      s.cmds = [runPlanCmd 2 5 0] ∧ (runPlanCmd 2 5 0).ring < 32 ∧ (runPlanCmd 2 5 0).opcode = 0x21 ∧ (runPlanCmd 2 5 0).st = 2) ∧
    ((aRun [0] [⟨0, 0, 0, [], 0, false⟩] (some 100)).insts ≠ [] ∧ 2099 < 100 + 2 * ((aRun [0] [] none).plan.period / 40) ∧ 100 + 2 * ((aRun [0] [] none).plan.period / 40) ≤ 2100) ∧
    ((aRun [] [] none).plan.anchor = false ∧ (aRun [0] [] none).fires.head?.map (· + (aRun [0] [] none).starts.length * ((aRun [0] [] none).plan.period / 40)) = some 1000 ∧
      (aRun [0] [] none).starts.length < (aRun [0] [] none).periods) ∧
    (let r := aRun [0] [] none;
      (0 : Fin 256).val < r.plan.steps.length ∧ (r.plan.step 0).trig = 0 ∧ 0 < r.starts.length ∧ 256 * 0 + (0 : Fin 256).val ∉ r.timed ∧
        r.starts.getD 0 0 + ((r.plan.step 0).offset + 39) / 40 = 10 ∧ (r.insts.filter fun i => decide (i.step = 0)).length < 4) ∧
    (let s := live.put [(0x4A00C, 5), (0x4A010, 65530)];
      s.mayWrite c0 0x4A010 ∧ s.domOn 22 ∧ (5 + 65536 - s.rd plnEvTail) % 65536 ≤ (s.rd plnEvHead + 65536 - s.rd plnEvTail) % 65536 ∧
        (s.rd plnEvHead + 65536 - s.rd plnEvTail) % 65536 < (6 + 65536 - s.rd plnEvTail) % 65536) := by
  refine ⟨fun a ha => ⟨onlyCmd_of ?_, ?_⟩, ?_, ?_, ?_, ?_, ?_, ?_, image_sound, ?_, ?_, ?_, ?_, ?_, ?_, ?_, fun id hi token ht => ⟨onlyCmd_of ?_, ?_⟩, ?_, ?_, ?_, ?_, ?_, onlyCmd_of ?_, ?_, ?_, ?_, ?_, ?_⟩
  · revert a; decide +kernel
  · revert a; decide +kernel
  · decide +kernel
  · decide +kernel
  · exact fun i hi => plain_range rfl (by decide +kernel) (fun _ => rfl) rfl rfl rfl rfl i (by omega)
  all_goals first | decide +kernel | exact plain_range rfl (by decide +kernel) (fun _ => rfl) rfl rfl rfl rfl 0x410 (by omega) | (revert id token; decide +kernel)

/-- A stocktake under way writes its entry, then ends DONE and keeps its plan, with CHANGED where COND_GEN has moved (R502, R503). -/
theorem test_stocktake_goes_on :
    (match exec (.stocktake 0) (planning 0x902 image [takingCmd 1 0x10000400]) with
      | .next u => u.cmds.map fun c => (c.valid, c.take.map fun t => (t.done, t.table.length))
      | _ => []) = [(32, some (2, 0))] ∧
    (match exec (.stocktake 0) ((planning 0x902 image [takingCmd 0 0]).put [(0x4A000, 0x10000)]) with
      | .next u => (u.cmds.length, (u.plan.map Plan.id), (u.reg (ringReg 0 (0x428 + 64 * 5))).toNat % 65536)
      | _ => (1, none, 0)) = (0, some 5, 0x8000) := by decide +kernel
/-! Witnesses: the governor. -/

/-- `commanded` with the cap at 400 W, the packing list's cap 600 W, base power 100 W and one reservation of 12.5 W; GOV.STAT as given. -/
def governed (stat : Nat) (l : List Cmd) : State := (commanded l).put [(0x180000, 400), (0x180004, 600 + 2 ^ 16 * 100), (0x180084, 100), (0x180008, stat)]

/-- SET_CAP and PHASE_HINT, SEQ 10. -/
def capCmd (w : Nat) : Cmd := cmdOf 0 1 [(0, 4, 10), (4, 1, 0x30), (5, 1, 2), (24, 2, w)]
def hintCmd : Cmd := cmdOf 0 1 [(0, 4, 10), (4, 1, 0x31), (5, 1, 2), (24, 2, 7), (26, 1, 5), (28, 4, 160), (32, 2, 50)]

/-- The same with a hint of class 1 and tag 7 for 10 units of 16 µs active since tick 0, at its last tick, and a signature table of some entries. -/
def hinted (sig : List (Nat × Nat)) : State :=
  let s := (governed 0 []).put ([(0x180010, 0x10007), (0x180014, 10 * 2 ^ 16 + 50)] ++ sig)
  { s with plt := 4000, gov := { s.gov with hintAt := some 0, hintT := 300, hintH := 30, hintC := 20, hintF := 10, hintN := 2 } }

/-- A proposal: estimates of 1 W for each group, now and for the interval to come, and budgets of 2 W. -/
def aStep (b : Nat) : GovStep := ⟨List.replicate 19 8, 100 :: List.replicate 18 b, [], [], [], [], [], 100, [], List.replicate 19 8⟩

theorem witness_GovernorTakesCapsReservationsHintsAndIntervals :
    (∀ w ∈ [299, 300, 600, 601], OnlyCmd (governed 0 [capCmd w]) (capCmd w) 0x30 ∧ (governed 0 []).on drvLost = false ∧ (capCmd w).fld 24 2 = w) ∧
    ((governed 0 []).rd capPl = 600 ∧ 8 * (governed 0 []).rd capBase + (governed 0 []).resvSum ≤ 8 * 300 ∧ (governed 0 []).on govHold = false ∧
      ((governed 0 []).put [(0x180004, 600 + 2 ^ 16 * 300)]).rd capPl = 600 ∧
      8 * 300 < 8 * ((governed 0 []).put [(0x180004, 600 + 2 ^ 16 * 300)]).rd capBase + ((governed 0 []).put [(0x180004, 600 + 2 ^ 16 * 300)]).resvSum ∧
      (governed 0x20 []).on govHold ∧ (governed 0x20 []).gov.capWait = [] ∧ (governed 0 []).mayWrite c0 0x180000) ∧
    (∀ w ∈ [299, 300, 600, 601], (BitVec.ofNat 32 (65536 * w)).toNat / 65536 = w) ∧
    (let s := governed 0 [];
      c0.isCore ∧ (Src.hostPort 0).isCore = false ∧ 8 * s.rd capBase + (s.resvSum - s.rd (grpResv 0)) + 2400 ≤ 8 * s.rd capW ∧
        8 * s.rd capW < 8 * s.rd capBase + (s.resvSum - s.rd (grpResv 0)) + 2401) ∧
    (OnlyCmd (governed 0 [hintCmd]) hintCmd 0x31 ∧ (governed 0 [hintCmd]).gov.hintAt = none) ∧
    ((governed 0 []).mayWrite c0 0x180010 ∧ (governed 0 []).gov.hintAt = none) ∧
    (∀ sig ∈ [[], [(0x180400, 0x50007)], [(0x180400, 0x50008), (0x180410, 0x50009)]], (hinted sig).gov.hintAt = some 0 ∧ (hinted sig).rd hintDur ≠ 0 ∧ 0 + 400 * (hinted sig).rd hintDur ≤ (hinted sig).plt ∧
      ({ hinted sig with plt := 3999 } : State).plt < 0 + 400 * (hinted sig).rd hintDur ∧
      (hinted sig).gov.capWait = [] ∧ (hinted sig).gov.hintN ≠ 0 ∧
      ∀ f ∈ [(hinted sig).gov.hintT, (hinted sig).gov.hintH, (hinted sig).gov.hintC, (hinted sig).gov.hintF], f ≤ 65535 * (hinted sig).gov.hintN) ∧
    ((hinted [(0x180400, 0x50007)]).sigFind 1 7 = some 0 ∧ (hinted [(0x180400, 0x50008)]).sigFind 1 7 = none ∧
      (hinted [(0x180400, 0x50008)]).on (sigValid 1) = false ∧ ∀ k < 1, (hinted [(0x180400, 0x50008)]).on (sigValid k)) ∧
    (let s : State := { governed 0x60 [] with plt := 50000, gov := { (governed 0x60 []).gov with lastHold := some 0 } };
      let u : State := { s with gov := { s.gov with capWait := [⟨500, none, 0⟩] } };
      s.gov.lastHold = some 0 ∧ 0 + 50000 ≤ s.plt ∧ ({ s with plt := 49999 } : State).plt < 0 + 50000 ∧ s.on govHold ∧ s.gov.capWait = [] ∧ u.gov.capWait = [⟨500, none, 0⟩]) ∧
    (∀ st ∈ [0, 1, 0x20], let s := governed st [];
      s.pins.devReady ∧ s.domOn 22 ∧ (aStep 16).est.length = 19 ∧ s.gov.pmFails = []) ∧
    ((governed 0 []).proposalOk { aStep 16 with est := (aStep 16).est.map (min 65535) } ∧
      (governed 0 []).proposalOk { aStep 7 with est := (aStep 7).est.map (min 65535) } = false) ∧
    (∀ n ∈ [0, 1, 2, 3, 4], let s := (governed 0 []).put [(0x1C0010, 1)];
      let u : State := { s with gov := { s.gov with pmFails := [(4, n)] } };
      u.on (railUp 0) ∧ u.pins.resetReleased ∧ lookMap 0 u.gov.pmFails 4 = n) := by
  refine ⟨fun w hw => ⟨onlyCmd_of ?_, ?_⟩, ?_, ?_, ?_, ⟨onlyCmd_of ?_, ?_⟩, ?_, ?_, ?_, ?_, ?_, ?_, ?_⟩
  · revert w; decide +kernel
  · revert w; decide +kernel
  all_goals decide +kernel
/-! Witnesses: alerts, droops, heat and ageing. -/

/-- Crate 0's droop response in progress, its clear seen or not, a frequency step frozen in the second. -/
def drooping (clear : Bool) : State := (live.wr (crDroopActive 0) 1).setCrate 0 { Crate.fresh with droopClear := clear, frozen := true, stepTo := some 710 }

theorem witness_AlertsDroopsHeatAndAgeing :
    (∀ i < 4, live.on (railUp 1) ∧ bitAt (live.rd govAlert) i = false ∧ bitAt ((live.wr govAlert 15).rd govAlert) i ∧ live.on govLowest = false ∧
      (live.wr govLowest 1).on govLowest) ∧
    (live.wr govLowest 1).rd govAlert = 0 ∧ ((live.wr govLowest 1).wr govAlert 2).rd govAlert ≠ 0 ∧
    (live.crateOn 0 ∧ live.crateOn 383 ∧ live.on (crDroopActive 0) = false) ∧
    (∀ b ∈ [true, false], (drooping b).crateOn 0 ∧ (drooping b).on (crDroopActive 0) ∧ ((drooping b).crate 0).droopClear = b) ∧
    (let s := (drooping true).wr (crDroopActive 0) 0;
      (s.crate 0).frozen ∧ (s.crate 0).droopClear ∧ s.on (crDroopActive 0) = false ∧ (s.crate 0).stepTo = some 710) ∧
    (live.on (railUp 0) ∧ live.fastStopped = false ∧ live.pins.thermTrip = false ∧ live.rd thermLimit = 100 ∧ live.rd thermTripC = 115) ∧
    (live.tileOn 0 ∧ live.rd (tFmax 0) = 700 ∧ live.domOn (20 + 0 / 48) ∧ live.rd (coreFmax 0) = 2400) ∧
    (let s := (drooping true).wr (tFmax 0) 720;
      s.tileOn 0 ∧ s.rd (tFmax 0) = 720 ∧ (s.crate 0).frozen ∧ max 700 705 < max (s.cratePll 0) ((s.crate 0).stepTo.getD 0) ∧
        max (s.cratePll 0) ((s.crate 0).stepTo.getD 0) ≤ max 700 715) := by
  decide +kernel
/-! Witnesses: rails, domains, clocks and unit resets. -/

/-- `live` with rails at a level (bit 0 up, bit 1 down), the rest up. -/
def railed (l : List (Nat × Nat)) : State := live.put (l.map fun q => (0x1C0010 + 4 * q.1, q.2))

/-- `live` with domains in a state (bit 0 ON, bits 6:4 STATE). -/
def domained (l : List (Nat × Nat)) : State := live.put (l.map fun q => (0x1C0100 + 8 * q.1, q.2))

theorem witness_RailsDomainsClocksAndUnitResets :
    (let s := railed [(2, 0), (4, 2)];
      s.on (railUp 0) ∧ s.on (railDown 4) ∧ s.on (railUp 4) = false ∧ s.on seqViolated = false ∧ s.fastStopped = false ∧ railOrder 2 < railOrder 4 ∧ s.on (railUp 2) = false) ∧
    (let s := railed [];
      s.on (railUp 4) ∧ s.pdBroken = false ∧ railOrder 4 < railOrder 14 ∧ s.on (railDown 14) = false) ∧
    (let s : State := { railed [(14, 0)] with t0 := none };
      s.on (railUp 14) = false ∧ s.on (railDown 14) = false ∧ (∀ j : Fin 15, j ≠ 14 → s.on (railUp j)) ∧ s.pins.resetReleased ∧ s.t0 = none ∧ s.on pilotOk) ∧
    (∀ v ∈ [0, 1], let s := (railed ((List.range 15).filterMap fun i => if 2 ≤ railOrder i ∧ i ≠ 2 then some (i, 2) else none)).put [(0x1C0000, v)];
      s.on (railUp 0) ∧ s.on (railDown 2) = false ∧ 2 ≤ railOrder 2 ∧ (∀ j : Fin 15, j ≠ 2 → 2 ≤ railOrder j → s.on (railDown j)) ∧ s.on seqViolated = decide (v = 1) ∧
        s.pdBroken = false) ∧
    (let s := railed ((0, 0) :: (List.range 15).filterMap fun i => if 2 ≤ railOrder i then some (i, 2) else none);
      s.on (railUp 0) = false ∧ ∀ j : Fin 15, 2 ≤ railOrder j → s.on (railDown j)) ∧
    (live.mayWrite c0 (0x1C0100 + 8 * 3) ∧ live.fastStopped = false ∧ live.pins.devReady ∧ (domained [(25, 0)]).on (domBit 25) = false) ∧
    (∀ st ∈ [0, 4], let s := domained [(3, 0), (16, 16 * st)];
      s.on (domBit 3) = false ∧ s.rd (domState (16 + 3 / 4)) = st) ∧
    ((domained [(3, 0), (16, 0x20)]).on (domBit (16 + 3 / 4)) = false ∧ (domained [(0, 1)]).rd (domState 0) = 0 ∧ (domained [(0, 1)]).on (domBit 0)) ∧
    (let s := domained [(3, 0)];
      s.on (domBit 3) = false ∧ s.rd (domState (16 + 3 / 4)) = 2 ∧ s.on (domBit (16 + 3 / 4)) ∧ s.domQ = [] ∧ s.slices = [] ∧ s.rd (domState 3) = 0 ∧
        ∀ e : DomainId, domRail e = domRail 3 → s.rd (domState e) ≠ 1) ∧
    (live.on (domBit 16) ∧ (∃ q : Fin 16, q.val / 4 = 16 - 16 ∧ live.rd (domState q) ≠ 0) ∧ live.on (domBit 3) ∧ live.rd (domState 3) = 2 ∧
      (domained [(22, 0x33)]).rd (domState 22) = 3) ∧
    ((domained [(3, 0x11)]).rd (domState 3) = 1 ∧ (domained [(3, 0x40)]).rd (domState 3) = 4 ∧ (domained [(3, 0x11)]).domQ = [] ∧
      (domained [(3, 0x11)]).tiles = []) ∧
    (live.on (railUp 0) ∧ live.on pilotOk ∧ live.t0 ≠ none) ∧
    (hosted.on (refOk 0) ∧ hosted.on (hpLinkUp 0) ∧ live.on (hpLinkUp 0) = false) ∧
    (let s : State := { domained [(22, 0x33)] with held := [⟨9 * 2 ^ 24, 22, some 0⟩, ⟨10 * 2 ^ 24, 22, none⟩] };
      s.clockStopped 22 ∧ live.clockStopped 22 = false ∧ (live.setCrate 5 { Crate.fresh with clockLost := true }).clockStopped 69) ∧
    (live.mayWrite c0 0x1C0220 ∧ live.crateOn 0 ∧ (∀ j < 64, (live.tile (64 * 0 + j)).eng2.run = none) ∧ (domained [(0, 0)]).crateOn 0 = false ∧
      live.domPowered (20 + 95 / 48) ∧ (domained [(20, 0)]).domPowered (20 + 0 / 48) = false ∧ live.domPowered 29) ∧
    (let s := live.wr (coreFmax 0) 3600;
      live.on govLowest = false ∧ live.domOn (20 + 0 / 48) ∧ 0 / 8 ∉ live.gov.hot ∧ live.rd (coreMhz 0) = max 2400 (min (lookMap 2400 live.gov.coreSet 0) (live.rd (coreFmax 0))) ∧
      ({ s with gov := { s.gov with coreSet := [(0, 3000)] } } : State).rd (coreMhz 0) ≠ 3000) := by
  refine ⟨?_, ?_, ?_, ?_, ?_, ?_, ?_, ?_, ?_, ⟨?_, ⟨0, ?_⟩, ?_⟩, ?_, ?_, ?_, ?_, ?_, ?_⟩ <;> decide +kernel
/-! Witnesses: reset, start, updates and self-test. -/

/-- A firmware image of generation 1 with four empty components; its key has bytes 0 beyond the OID and its signature bytes 0. -/
def firmware : List Byte :=
  toBytes 4 0x3157465A ++ toBytes 4 3020 ++ toBytes 8 1 ++ toBytes 2 4 ++ List.replicate 46 0#8 ++
    (List.range 4).flatMap (fun _ => toBytes 16 128) ++ toBytes 4 0x12 ++ List.replicate 2888 0#8

/-- A section of the packing list with the CRC-32C of its body. -/
def planSect (type crc : Nat) (body : List Byte) : List Byte :=
  toBytes 2 type ++ [1#8, 0#8] ++ toBytes 4 body.length ++ toBytes 4 crc ++ toBytes 4 0 ++ body

/-- The eight sections that a packing list must have (Table 19.8): debug off, each rail at address 0x08 and no limit, one spare bundle in each group that has
one, one spread region, no fabric port in use, place 0, a cap of 600 W, and every slice kind. -/
def listBody : List Byte :=
  planSect 1 0x1547CA9E (List.replicate 56 0#8) ++
  planSect 2 0x71638C1B ((List.range 15).flatMap (fun _ => toBytes 8 8) ++ [100#8, 50#8] ++ List.replicate 6 0#8) ++
  planSect 3 0x1CA8EEA8 (toBytes 8 1 ++ (List.range 68).flatMap fun b =>
    let g := [0, 8, 16, 24, 32, 40, 64, 66];
    if b + 1 ∈ g then [0#8, 1#8, 0x7F#8, 0#8] else if b ∈ g then [1#8, 1#8, BitVec.ofNat 8 (b + 1), 0#8] else [0#8, 1#8, 0x7F#8, 0#8]) ++
  planSect 4 0xEA43CBDD (toBytes 8 1 ++ toBytes 8 (960 * 2 ^ 16)) ++
  planSect 5 0xF7BA9635 ((List.range 16).flatMap (fun _ => [7#8, 0#8, 2#8, 0#8]) ++ List.replicate 8 0#8) ++
  planSect 6 0xCC870C4D (toBytes 4 0 ++ placeText 0 ++ List.replicate 16 0#8) ++
  planSect 7 0x80632D46 (toBytes 8 600) ++ planSect 8 0xB03CBAE0 (toBytes 8 31)

/-- The packing list of generation 1, with a key and a signature as in `firmware`. -/
def packingList : List Byte :=
  toBytes 4 0x334C4B50 ++ toBytes 2 3 ++ toBytes 2 128 ++ toBytes 4 3428 ++ toBytes 4 728 ++ toBytes 4 8 ++ toBytes 4 1 ++ List.replicate 100 0#8 ++
    toBytes 4 0x59319780 ++ listBody ++ toBytes 4 0x10 ++ List.replicate 2568 0#8

/-- A start in a stage, begun at tick 0, at a tick, with both images on the first flash chip and the first owner key slot active with hash 0. -/
def booting (stage t : Nat) (chips : Bool × Bool) : State :=
  { live.put [(0x4C0000, stage), (0x4C0100, 1)] with
    pins := { live.pins with devReady := false }, plt := t, chips := chips, flash := writeBytes (writeBytes [] 0 firmware) 0x2000000 packingList }

theorem firmware_length : firmware.length = 3020 ∧ packingList.length = 3428 := by decide +kernel

/-- What a flash holds of two images and at the places of the other two copies. -/
theorem flash_holds (f p : List Byte) (hf : f.length = 3020) (hp : p.length = 3428) (m : List Host.Cell) (hm : m = writeBytes (writeBytes [] 0 f) 0x2000000 p) :
    readBytes m 0 3020 = f ∧ readBytes m 0x2000000 3428 = p ∧
      ∀ a ∈ [0x1000000, 0x2400000], readBytes m a 128 = List.replicate 128 0#8 := by
  subst hm
  refine ⟨?_, ?_, fun a ha => ?_⟩
  · rw [readBytes_writeBytes_other _ _ _ _ _ (.inl (by omega)), ← hf, readBytes_writeBytes_same]
  · rw [← hp, readBytes_writeBytes_same]
  · simp only [List.mem_cons, List.not_mem_nil, or_false] at ha
    rw [readBytes_writeBytes_other _ _ _ _ _ (by omega), readBytes_writeBytes_other _ _ _ _ _ (by omega)]
    exact List.ext_getElem (by simp) fun i h1 h2 => by rw [getElem_readBytes, List.getElem_replicate]; rfl

/-- The bytes of the four copies. -/
theorem booting_copies (k t : Nat) :
    (booting k t (true, false)).copyBytes 0 = firmware ∧ (booting k t (true, false)).copyBytes 2 = packingList ∧
      ∀ c ∈ [1, 3], (booting k t (true, false)).copyBytes c = List.replicate 128 0#8 := by
  obtain ⟨h1, h2, h3⟩ := flash_holds firmware packingList firmware_length.1 firmware_length.2 (booting k t (true, false)).flash (by simp only [booting])
  have b : ∀ c ∈ [0, 1, 2, 3], (booting k t (true, false)).copyBase c = [0, 0x1000000, 0x2000000, 0x2400000].getD c 0 := by
    intro c hc
    fin_cases hc <;> rfl
  have e1 := take_readBytes (booting k t (true, false)).flash 0 (n := 3020) (k := 128) (by decide)
  have e2 := take_readBytes (booting k t (true, false)).flash 0x2000000 (n := 3428) (k := 128) (by decide)
  rw [h1] at e1
  rw [h2] at e2
  refine ⟨?_, ?_, fun c hc => ?_⟩
  · unfold State.copyBytes
    simp only [b 0 (by decide), List.getD_cons_zero, ← e1]
    exact (if_pos (by decide +kernel)).trans ((congrArg _ (by decide +kernel)).trans h1)
  · unfold State.copyBytes
    simp only [b 2 (by decide), List.getD_cons_zero, List.getD_cons_succ, ← e2]
    exact (if_pos (by decide +kernel)).trans ((congrArg _ (by decide +kernel)).trans h2)
  · fin_cases hc
    · unfold State.copyBytes
      simp only [b 1 (by decide), List.getD_cons_zero, List.getD_cons_succ, h3 0x1000000 (by decide)]
      exact if_neg (by decide +kernel)
    · unfold State.copyBytes
      simp only [b 3 (by decide), List.getD_cons_zero, List.getD_cons_succ, h3 0x2400000 (by decide)]
      exact if_neg (by decide +kernel)

/-- With a key that hashes to one of the fused hashes and whose signature verifies (both left open by the spec, log entry 15) the firmware passes. -/
theorem firmware_passes (hk : keyHash ((firmware.drop 128).take 68) = Config.loholtKey 0)
    (hv : Config.verify (ofBytes ((firmware.drop 128).take 68)) (ofBytes (firmware.take 196)) 0 = true) (n : Nat) (hn : n ≤ 0) : fwReason n firmware = 0 := by
  have e1 : fldAt firmware 4 4 = 3020 := by decide +kernel
  have e2 : fldAt firmware 200 2820 = 0 := by decide +kernel
  have e3 : fldAt firmware 12 1 = 0 := by decide +kernel
  unfold fwReason
  simp only [e1, Nat.reduceSub, Nat.reduceAdd, hk, hv, e2, e3]
  refine Eq.trans (if_neg (by decide +kernel)) (Eq.trans (if_neg (by decide +kernel)) (Eq.trans (if_neg (by decide +kernel)) (Eq.trans (if_neg ?_)
    (Eq.trans (if_neg (by decide)) (Eq.trans (if_neg (by omega)) (if_neg (by decide +kernel)))))))
  have e4 : fldAt firmware 128 4 = 0x12 := by decide +kernel
  simp [e4]

/-- The sections of the list. -/
def theSects : List Sect :=
  [⟨1, 1, 0, 56, 0x1547CA9E, 0, 144⟩, ⟨2, 1, 0, 128, 0x71638C1B, 0, 216⟩, ⟨3, 1, 0, 280, 0x1CA8EEA8, 0, 360⟩, ⟨4, 1, 0, 16, 0xEA43CBDD, 0, 656⟩,
    ⟨5, 1, 0, 72, 0xF7BA9635, 0, 688⟩, ⟨6, 1, 0, 32, 0xCC870C4D, 0, 776⟩, ⟨7, 1, 0, 8, 0x80632D46, 0, 824⟩, ⟨8, 1, 0, 8, 0xB03CBAE0, 0, 848⟩]

theorem list_format : listFormat packingList = (0, theSects) := by
  unfold listFormat
  rw [crc32c_fast]
  decide +kernel

theorem list_values : valueReason packingList theSects = 0 := by
  unfold valueReason
  refine Eq.trans (if_neg (by decide +kernel)) (Eq.trans (if_neg (by decide +kernel)) (Eq.trans (if_neg (by decide +kernel)) (Eq.trans (if_neg ?_)
    (Eq.trans (if_neg (by decide +kernel)) (Eq.trans (if_neg (by decide +kernel)) (Eq.trans (if_neg (by decide +kernel)) (Eq.trans (if_neg (by decide +kernel))
      (if_neg (by decide +kernel)))))))))
  have e : sectFld packingList theSects 4 0 1 = 1 := by decide +kernel
  simp only [e]
  decide +kernel

/-- With a key whose hash is that of the first owner key slot and whose signature verifies the packing list passes. -/
theorem list_passes (hk : keyHash ((packingList.drop 856).take 68) = 0)
    (hs : sigOk packingList ((packingList.drop 856).take 68) 928 2500 = true) : (booting 4 0 (true, false)).listReason packingList = 0 := by
  have e3 : listKeyAt packingList = 856 := by decide +kernel
  have e4 : sigLen (fldAt packingList 856 4) = some 2500 := by decide +kernel
  have e5 : fldAt packingList 48 16 = 0 ∧ fldAt packingList 24 4 = 0 := by decide +kernel
  have e6 : (booting 4 0 (true, false)).activeSlot ((packingList.drop 856).take 68) = some 0 := by
    unfold State.activeSlot
    rw [hk]
    decide +kernel
  unfold State.listReason
  simp [list_format, list_values, e3, e4, e5.1, e5.2, e6, hs]
  decide +kernel

/-- The copies are tried A first. -/
theorem booting_order (k t : Nat) : (booting k t (true, false)).copyOrder 0 = [0, 1] ∧ (booting k t (true, false)).copyOrder 2 = [2, 3] ∧
    (booting k t (true, false)).copyAnswers 0 ∧ (booting k t (true, false)).copyAnswers 2 := by
  obtain ⟨h1, h2, h3⟩ := booting_copies k t
  have a : ∀ c, (booting k t (true, false)).copyAnswers c = true := fun c => rfl
  refine ⟨?_, ?_, a 0, a 2⟩
  · unfold State.copyOrder
    simp only [a, h1, h3 1 (by decide), if_true]
    exact if_neg (by decide +kernel)
  · unfold State.copyOrder
    simp only [a, h2, h3 3 (by decide), if_true]
    exact if_neg (by decide +kernel)

/-- A running device with the firmware image in the cellar from the first address beyond the driver reserve, for an update of the copy in use, of generation 0. -/
def updating : State := { live.put [(0x4C0308, 0x10000000)] with cellar := writeBytes [] 0x10000000 firmware }

theorem updating_image : readBytes updating.cellar 0x10000000 3020 = firmware ∧ ∀ i < 3020, ∃ l, PlainLine updating l (0x10000000 + i) := by
  refine ⟨?_, fun i hi => plain_range rfl (by decide +kernel) (fun _ => rfl) rfl rfl rfl rfl i (by omega)⟩
  have h : updating.cellar = writeBytes [] 0x10000000 firmware := by simp only [updating]
  rw [h, ← firmware_length.1, readBytes_writeBytes_same]

/-- STRONGROOM_READ of one unit, and BIST. -/
def roomCmd (region first n dst : Nat) : Cmd := cmdOf 0 1 [(0, 4, 11), (4, 1, 0x51), (5, 1, 2), (24, 1, region), (28, 4, first), (32, 4, n), (40, 8, dst)]
def bistCmd (kind i : Nat) : Cmd := cmdOf 0 1 [(0, 4, 12), (4, 1, 0x50), (5, 1, 2), (24, 1, kind), (26, 2, i)]

/-- `live` with a parked crate 0 and idle slices enabled; and with one slice that runs. -/
def idling : State := live.put ((0x480000, 0x11F) :: (List.range 64).map fun i => (0x1004004 + 0x100 * i, 0x1))
def slicing (x : Slice) : State := { idling with slices := [x] }

theorem witness_ResetStartUpdatesAndSelfTest :
    (let s : State := { live with t0 := none, pins := { live.pins with resetReleased := false } };
      s.pins.resetReleased = false ∧ s.t0 = none ∧ (∀ i < 15, s.on (railUp i)) ∧ s.on pilotOk ∧ s.fastStopped = false ∧ s.on seqViolated = false) ∧
    (∀ k ∈ [2, 3, 4, 5, 6, 7, 8, 9, 10, 11], let s := booting k 0 (false, false);
      s.pins.resetReleased ∧ s.t0 = some 0 ∧ s.pins.devReady = false ∧ s.on pklStopped = false ∧ s.rd pklStage = k ∧ s.chips = (false, false)) ∧
    (∀ p < 16, (booting 9 0 (false, false)).rd (fabLevel p) = 7 ∨ (booting 9 0 (false, false)).rd (fabState p) = 6) ∧
    (booting 2 125000 (false, false)).plt - 0 ≤ 125000 ∧ 125000 < (booting 2 125001 (false, false)).plt - 0 ∧
    (updating.fastStopped = false ∧ updating.mayUpdate c0 ∧ updating.mayUpdate (.hostPort 0) = false ∧ bitsAt (updating.reg64 0x4C0308) 0 48 % 8 = 0 ∧
      (updating.put [(0x4C0308, 1)]).mayUpdate c0 ∧ bitsAt ((updating.put [(0x4C0308, 1)]).reg64 0x4C0308) 0 48 % 8 ≠ 0 ∧ fldAt firmware 4 4 = 3020 ∧
      fldAt firmware 0 4 = 0x3157465A ∧ updating.rd (copyGen 0) < imageGen false firmware ∧ updating.rd pklFwCopy = 0) ∧
    (let s : State := { live with upd := some (1, [1#8]) };
      s.upd = some (1, [1#8])) ∧
    (∀ q ∈ [(0, 65535, 1), (1, 48128, 1), (2, 16383, 2), (3, 0, 1)], let c := roomCmd q.1 q.2.1 q.2.2 0x200000004000;
      OnlyCmd (commanded [c]) c 0x51 ∧ c.fld 24 1 = q.1 ∧ c.fld 28 4 = q.2.1 ∧ c.fld 32 4 = q.2.2 ∧ c.ring < 16 ∧ copySpace (c.fld 40 8) 64 = some 1 ∧
        placeOf (c.fld 40 8) = some (.hostAp 0 0x4000) ∧ (commanded [c]).hostReach 0 ((commanded [c]).hostBus 0 0x4000) 64) ∧
    (stgRegion 0 = some (0x10000, 65536) ∧ stgRegion 1 = some (0x510000, 48128) ∧ stgRegion 2 = some (0x410000, 16384)) ∧
    (∀ q ∈ [(0, 383), (1, 639), (2, 67), (3, 15), (4, 11), (4, 0), (0, 384)], let c := bistCmd q.1 q.2;
      OnlyCmd (commanded [c]) c 0x50 ∧ c.fld 24 1 = q.1 ∧ c.fld 26 2 = q.2 ∧ (commanded [c]).on drvLost = false ∧ (commanded [c]).jobAdmitted = false ∧
        (q ≠ (0, 384) → q.2 < sliceUnits q.1) ∧ (commanded [c]).driverCluster = 0 ∧ (commanded [c]).sliceOn q.1 q.2 = false ∧
        ((commanded [c]).put [(0x440000, 2)]).jobAdmitted) ∧
    (idling.pins.devReady ∧ idling.on bistIdleEn ∧ idling.planRun = none ∧ idling.tear = none ∧ idling.jobAdmitted = false ∧ idling.slices = [] ∧
      idling.unitIdle 0 0 ∧ idling.unitIdle 1 0 ∧ idling.sliceFirst = [] ∧ (idling.emptyCaches 0).1 = false ∧ live.on bistIdleEn = false) ∧
    (let s : State := { idling.setTile 0 { idling.tile 0 with lines := [(0, lineOf .dirty 0#128)] } with
        txns := [⟨(lineOf .dirty 0#128).pline, .caching 0 0, [], false, false, none, .e, false⟩] };
      s.unitIdle 0 0 ∧ (s.emptyCaches 0).1 ∧ s.pins.devReady ∧ s.on bistIdleEn ∧ s.planRun = none ∧ s.tear = none ∧ s.jobAdmitted = false ∧ s.slices = [] ∧
        s.sliceFirst = []) ∧
    (∀ again ∈ [true, false], ∀ kind ∈ [0, 2, 3, 4], let x : Slice := ⟨kind, 0, true, again, none, 0⟩;
      (slicing x).slices = [x] ∧ 0 < sliceUnits kind ∧ x.cmd = none ∧ x.idle ∧ kind ≠ 1) := by
  refine ⟨by decide +kernel, by decide +kernel, by decide +kernel, by decide +kernel, by decide +kernel, by decide +kernel, rfl, fun q hq => ⟨onlyCmd_of ?_, ?_⟩, by decide +kernel,
    fun q hq => ⟨onlyCmd_of ?_, ?_⟩, by decide +kernel, by decide +kernel, by decide +kernel⟩
  all_goals revert q; decide +kernel

/-! Witnesses: faults, the strongroom, the management ring and the test access port. -/

/-- A record of a code and class. -/
def recOf (code cls : Nat) : FRec := ⟨code, cls, 0, 2, 17, 0x123456789, [1#8, 2#8]⟩

/-- `live` with one gathered record; with one entry of a record in the main queue beside it. -/
def gathering (r : FRec) : State := { live with gathered := [r] }
def repeating (r : FRec) (tail : Nat) : State :=
  (gathering r).put [(0x100000, tail * 65536 + (tail + 2047) % 2048), (mainEntry (tail + 2047), r.code + 2 ^ 16 * r.cls),
    (mainEntry (tail + 2047) + 4, r.kind * 2 ^ 24 + r.index), (mainEntry (tail + 2047) + 16, 0xFFFFFFFE)]

/-- A request frame: operation, mode, position, place, address, length, data. -/
def frame (op mode pos place addr len : Nat) (data : List Byte) : List Byte :=
  withCrc (toBytes 1 op ++ toBytes 1 mode ++ toBytes 2 pos ++ toBytes 4 place ++ toBytes 4 addr ++ toBytes 2 len ++ toBytes 2 0x77 ++ data)

/-- `live` on the management ring. -/
def mgmtRing : State := { live with pins := { live.pins with bypLow := true, mgtLock := true } }

theorem witness_FaultTicksQueuesManagementAndTestPort :
    (live.on (railUp 0) ∧ live.gathered = [] ∧ State.reset.on (railUp 0) = false) ∧
    (let r := recOf 0x0100 0; let s := gathering r;
      s.on (railUp 0) ∧ s.gathered = [r] ∧ r.cls = 0 ∧ r.code ≠ 0x0111 ∧ bitAt r.flags 1 = false ∧ s.mergesNewest r = false ∧ s.mainCount = 0) ∧
    (∀ p ∈ [(1023, 0), (2047, 1024), (511, 1536), (5, 5)], let r := recOf 0x0100 0; let s := (gathering r).put [(0x100000, p.1 * 65536 + p.2)];
      s.on (railUp 0) ∧ s.gathered = [r] ∧ s.mergesNewest r = false ∧ s.mainCount < 1024 ∧ s.rd fltTail = p.1) ∧
    (∀ tail ∈ [0, 1, 2047], let r := recOf 0x0100 0; let s := repeating r tail;
      s.on (railUp 0) ∧ s.gathered = [r] ∧ r.cls = 0 ∧ r.code ≠ 0x0111 ∧ bitAt r.flags 1 = false ∧ s.mergesNewest r) ∧
    (∀ p ∈ [(0, 0, 0), (30, 0, 65535), (63, 33, 7), (5, 40, 1)], let r := recOf 0x0405 2; let s := (gathering r).put [(0x100008, p.1 * 65536 + p.2.1), (0x140004, p.2.2)];
      s.on (railUp 0) ∧ s.gathered = [r] ∧ r.cls = 2 ∧ r.code ≠ 0x0111 ∧ r.code ≠ 0x0A03 ∧ s.fatalCount < 31 ∧ s.rd stgFatalUsed < 65536 ∧ s.rd stgFatalUsed = p.2.2) ∧
    (∀ p ∈ [(0, 0, 0, true), (1024, 0, 1024, true), (3, 2045, 3, true), (3, 2045, 4, false), (3, 2045, 2044, false), (1024, 0, 1025, false)],
      let s := live.put [(0x100000, p.1 * 65536 + p.2.1)];
      s.mayWrite c0 0x100000 ∧ ((p.2.2.1 + 2048 - s.rd fltHead) % 2048 ≤ s.mainCount ↔ p.2.2.2 = true)) ∧
    (∀ p ∈ [(0, 0, 0, true), (32, 0, 32, true), (3, 61, 3, true), (3, 61, 4, false), (3, 61, 60, false), (32, 0, 33, false)],
      let s := live.put [(0x100008, p.1 * 65536 + p.2.1)];
      s.mayWrite c0 0x100008 ∧ ((p.2.2.1 + 64 - s.rd fatHead) % 64 ≤ s.fatalCount ↔ p.2.2.2 = true)) ∧
    live.mayWrite c0 0x100018 ∧
    (let s : State := { live with journal := [(0x440000, [1#8, 2#8]), (0, [3#8])] }; s.journal = (0x440000, [1#8, 2#8]) :: [(0, [3#8])]) ∧
    (mgmtRing.onRing ∧ live.onRing = false) ∧
    (mgmtRing.regPowered 0 ∧ mgmtRing.regPowered 0x1004004 ∧
      ({ mgmtRing with regs := [] } : State).regPowered 0x1004004 = false) := by
  decide +kernel

theorem ring_witnesses :
    (∀ p ∈ [(1, 0, 0, 0x100000, 4, []), (1, 1, 0, 0x100000, 480, []), (2, 0, 0, 0x1030FC, 4, [1#8, 0#8, 0#8, 0#8]), (2, 0, 0, 0x1031E0, 4, [1#8, 0#8, 0#8, 0#8]),
        (2, 0, 0, 0x103100, 4, [1#8, 0#8, 0#8, 0#8]), (2, 0, 0, 0x1031DC, 4, [1#8, 0#8, 0#8, 0#8]), (3, 0, 0, 0x7FFFC0, 64, []), (3, 0, 0, 0x7FFFC4, 64, [])],
      let f := frame p.1 p.2.1 p.2.2.1 0 p.2.2.2.1 p.2.2.2.2.1 p.2.2.2.2.2;
      frameCrcOk f ∧ mgmtRing.takesFrame f ∧ mgOp f = p.1 ∧ mgAddr f = p.2.2.2.1 ∧ mgLen f = p.2.2.2.2.1 ∧ 20 ≤ f.length) ∧
    (∀ p ∈ [(1, 0, 1), (1, 0, 65535), (4, 0, 0), (3, 1, 0)], let f := frame p.1 p.2.1 p.2.2 5 0x100000 4 [];
      frameCrcOk f ∧ mgmtRing.takesFrame f = false) ∧
    (∀ p ∈ [(1, 0, 0), (4, 0, 9)], let f := (frame p.1 p.2.1 p.2.2 5 0x100000 4 []).set 8 1#8; frameCrcOk f = false) := by
  unfold frameCrcOk frame withCrc
  rw [crc32c_fast]
  decide +kernel

/-! Witnesses: the queue, and the canonical form. -/

theorem witness_CommandsLeaveTheQueue : ∃ t, exec .jtagBypass { live with pending := [.faultTick] } = .next t ∧ t.pending = [.faultTick] :=
  ⟨_, rfl, by decide +kernel⟩

theorem witness_EveryStepKeepsCanonicalMemory :
    State.reset.memOk ∧ (let s : State := { live with pending := [.faultTick], cellar := [(3, 1#8), (2 ^ 39 + 5, 0xFF#8)] };
      ({ s with regs := [(0x100000, 1#32), (0x100018, 2#32)] } : State).memOk ∧ ∃ t, step s = .next t ∧ t.plt = 1) :=
  ⟨by decide +kernel, by decide +kernel, _, rfl, by decide +kernel⟩

theorem witness_StepRunsFrontCommand : State.reset.pending = [] := rfl

/-! Values that the spec writes out. -/

/-- R610: the CRC-16 of the nine ASCII bytes "123456789" is 0x29B1. -/
theorem test_crc16_check_value : crc16 [0x31#8, 0x32#8, 0x33#8, 0x34#8, 0x35#8, 0x36#8, 0x37#8, 0x38#8, 0x39#8] = 0x29B1#16 := by decide +kernel

/-- The inputs of Table 3.5: 300, 500, -0.001 as 1.024 × 2⁻¹⁰ in FP32, 10⁶, infinity, NaN. -/
def table35 : List Num :=
  [decodeNum .fp32 0x43960000, decodeNum .fp32 0x43FA0000, decodeNum .fp32 0xBA83126F, decodeNum .fp32 0x49742400,
    decodeNum .fp32 0x7F800000, decodeNum .fp32 0x7FC00000]

/-- The results and the flags of converting `table35` to a format. -/
def conv35 (f : Fmt) (ovf : Bool) : List Nat × Fl :=
  table35.foldl (fun (q : List Nat × Fl) x => let r := convert f ovf none x q.2; (q.1 ++ [r.1], r.2)) ([], Fl.clear)

/-- Table 3.5, E4M3: the six results, CLAMPS = 3, FLUSHES = 1, and ANY_NAN, OVERFLOW, UNDERFLOW and INEXACT set. -/
theorem test_table35_e4m3 : conv35 .e4m3 false = ([0x79, 0x7E, 0x80, 0x7E, 0x7E, 0x7F], ⟨0x5C#8, 3, 1⟩) := by decide +kernel

/-- Table 3.5, E5M2 with OVF_INF = 0 and 1. -/
theorem test_table35_e5m2 : (conv35 .e5m2 false).1 = [0x5D, 0x60, 0x94, 0x7B, 0x7C, 0x7E] ∧
    (conv35 .e5m2 true).1 = [0x5D, 0x60, 0x94, 0x7C, 0x7C, 0x7E] := by decide +kernel

/-- Table 3.5, INT8: the six results, CLAMPS = 4, and INVALID, ANY_NAN and INEXACT set. -/
theorem test_table35_int8 : conv35 .int8 false = ([0x7F, 0x7F, 0x00, 0x7F, 0x7F, 0x00], ⟨0x51#8, 4, 0⟩) := by decide +kernel

/-- The example of R98: 0x3F808000 in FP32 to BF16 under stochastic rounding is 0x3F81 when r is at least 0x8000, else 0x3F80; nearest
even gives 0x3F80. -/
theorem test_stochastic_bf16 :
    (convert .bf16 false (some 0x8000) (decodeNum .fp32 0x3F808000) Fl.clear).1 = 0x3F81 ∧
    (convert .bf16 false (some 0x7FFF) (decodeNum .fp32 0x3F808000) Fl.clear).1 = 0x3F80 ∧
    (convert .bf16 false none (decodeNum .fp32 0x3F808000) Fl.clear).1 = 0x3F80 := by decide +kernel

/-- Chapter 0: the shelf of tile 14,668 (T2/37/12) begins at 0x0100_E530_0000. -/
theorem test_shelf_of_tile : 0x10000000000 + shelfKey 14668 0 0 0 = 0x100E5300000 := by decide +kernel

/-- A two-element row, one of whose Y values is missing, meets the hypotheses of `LaneOperationsActElementByElement` at its first and last element. -/
theorem witness_LaneOperationsActElementByElement : 0 < [Num.ofInt 1, Num.ofInt 2].length ∧ 1 < [Num.ofInt 1, Num.ofInt 2].length ∧
    ((laneRow 0x22 true Num.zero Num.zero [Num.ofInt 1, Num.ofInt 2] [Num.ofInt 3] [] Fl.clear).1.map Num.toInt) = [4, 2] ∧
    ((laneRow 0x2E false (Num.ofInt 1) Num.zero [Num.ofInt 1, Num.nan false] [] [] Fl.clear).1.map Num.toInt) = [0, 0] := by decide +kernel

end Sys2Proof.Machine
end

section
/-! BAR2 reads (R247, R396) and the register word that a flush of the hampers rewrites: a read of a plain line that is answered UR,
because in a carving that R243 never accepts the flush's USED count lands on the offline mark of the line's channel. -/
namespace Sys2Proof.Machine

/-- BAR2_READ runs its own operation. -/
theorem exec_bar2Read (p : HostPortId) (off n : Nat) (ide : Ide) (s : State) :
    exec (.bar2Read p off n ide) s = execBar2Read p off n ide s := rfl

/-- An access outside every IDE stream passes a port that does not require IDE (R420). -/
theorem barGate_clear {s : State} {p : Nat} (h : s.on (hpIdeRequired p) = false) : s.barGate p .clear = (true, s) := by
  simp [State.barGate, h]

/-- A home that is powered, ready and cool, on a channel offline in the management path's view, is absent (R574). -/
theorem homeStatus_offline {s : State} {l : Loc} (hpow : s.domPowered (16 + l.stack / 5) = true) (hready : s.on (celReady l.stack) = true)
    (hcool : s.on (celThermalStop l.stack) = false) (hoff : s.offline 5 (32 * l.stack + l.ch) = true) :
    s.homeStatus l = (6, s.disagree 5 (32 * l.stack + l.ch)) := by
  simp [State.homeStatus, hpow, hready, hcool, hoff]

/-- A read of a line that nothing holds up ends with the status of a home that does not serve. -/
theorem homeRead_unserved {s t : State} {l : Loc} {a n st : Nat} (hplace : s.locate a = some l) (hstatus : s.homeStatus l = (st, t))
    (hst : st ≠ 0) (hfree : t.lineBusy (a / 128) = false) : s.homeRead a n = (.bad st, t) := by
  simp [State.homeRead, hplace, hstatus, hst, hfree]

/-- A read over lines ends with the status of its first part. -/
theorem readLines_bad {f : State → Nat → Nat → Access × State} {fuel a n st : Nat} {s t : State} (hn : n ≠ 0)
    (hf : ∀ m, f s a m = (.bad st, t)) : readLines f (fuel + 1) a n s = (.bad st, t) := by
  simp [readLines, hn, hf]

/-- A BAR2 read answers UR where its home, as the flush of the port's hamper entries leaves it, is offline in the management path's
view (R247, R396, R574). -/
theorem bar2Read_of_offline {s : State} {p : HostPortId} {off n : Nat} {l : Loc} (hlink : s.on (hpLinkUp p) = true) (hopen : BarOpen s p)
    (hrange : off + n ≤ 2 ^ (36 + (s.hport p).bar2Size)) (hready : s.devReady = true) (hposted : s.portPosted p = false)
    (hok : bar2Ok (s.bar2Addr p off) n = true) (hn : n ≠ 0) (hplace : (s.flushPort p).locate (s.bar2Addr p off) = some l)
    (hpow : (s.flushPort p).domPowered (16 + l.stack / 5) = true) (hstack : (s.flushPort p).on (celReady l.stack) = true)
    (hcool : (s.flushPort p).on (celThermalStop l.stack) = false) (hoff : (s.flushPort p).offline 5 (32 * l.stack + l.ch) = true)
    (hfree : (s.flushPort p).lineBusy (s.bar2Addr p off / 128) = false) :
    ∃ u, exec (.bar2Read p off n .clear) s = .next u ∧ u.answer = ⟨1, []⟩ := by
  have hread : ∀ m, (s.flushPort p).homeRead (s.bar2Addr p off) m = (.bad 6, (s.flushPort p).disagree 5 (32 * l.stack + l.ch)) := fun m =>
    homeRead_unserved hplace (homeStatus_offline hpow hstack hcool hoff) (by decide) hfree
  refine ⟨((s.flushPort p).disagree 5 (32 * l.stack + l.ch)).reply 1 [], ?_, rfl⟩
  rw [exec_bar2Read]
  simp [execBar2Read, hlink, hopen.1, barGate_clear hopen.2, Nat.not_lt.2 hrange, hready, hposted, hok, lineFuel, readLines_bad hn hread, stWAIT]

/-- The stack whose word of channel marks in FLT.OFFLINE, by the layout of Table 21.9, is CEL[0].HAMPER_STAT. It lies far beyond the 20
stacks of the package, but a carving whose region names die 130,455 places lines in it (R245), and no hypothesis of the statement asks
for a carving that R243 accepts. -/
def strayStack : Nat := 652277

/-- Channel 0 of the stray stack is marked offline by the lowest bit of hamper 0's USED. -/
theorem offlineFld_strayStack : offlineFld 5 (32 * strayStack) = ⟨(hamperUsed 0).a, (hamperUsed 0).lo, 1⟩ := by decide

/-- The BAR2 offset and cellar address whose line the carving of `strayState` places in channel 0 of the stray stack. -/
def strayAddr : Nat := 131202 * 2048

/-- Where that line lies. -/
def strayLoc : Loc := ⟨strayStack, 2 * strayStack, 0, 0, 820, 0⟩

/-- Port 0 is up with memory space enabled; the stray stack is ready and its domain on. Hamper 0 holds one entry, of line 0, that no
port posted, and its USED still reads 0. -/
def strayState : State :=
  { State.reset with
    pins := { State.reset.pins with devReady := true }
    hports := [(0, { HPort.fresh with perst := false, mse := true })]
    carve := [⟨false, 130455, cellarSize⟩]
    hampers := [(0, [⟨0, List.replicate 128 0#8, 1#128, 0, [], false⟩])]
    regs := [(0x10000, 1#32), (0x1C0100 + 8 * 25, 0x20#32), (0x1C0100 + 8 * (16 + strayStack / 5), 0x20#32), (cel strayStack 0, 1#32)] }

theorem strayState_barOpen : BarOpen strayState 0 := ⟨by decide +kernel, by decide +kernel⟩

theorem strayState_hamper_ports : ∀ h, ∀ e ∈ strayState.hamper h, (0 : HostPortId).val ∉ e.ports := by
  intro h e he
  by_cases h0 : 0 = h <;> simp [State.hamper, strayState, lookMap, h0] at he
  simp [he]

theorem strayState_plainLine : PlainLine strayState strayLoc strayAddr where
  place := by decide +kernel
  serves := by decide +kernel
  free := by decide +kernel
  unrepaired := by decide +kernel
  uncached := by decide +kernel
  unbuffered := by
    have h : strayState.hamper strayLoc.home = [] := by decide +kernel
    simp [h]
  inUse := by decide +kernel
  clean := fun _ _ => ⟨rfl, rfl⟩

/-- The flush before a BAR2 read finds nothing to write, sets USED of hamper 0 to 1, and so marks the channel offline. -/
theorem strayState_flushPort_offline : (strayState.flushPort 0).offline 5 (32 * strayLoc.stack + strayLoc.ch) = true := by decide +kernel

/-- The read of the plain line is answered UR. -/
theorem strayState_bar2Read : ∃ u, exec (.bar2Read 0 strayAddr 1 .clear) strayState = .next u ∧ u.answer = ⟨1, []⟩ :=
  bar2Read_of_offline (l := strayLoc) (by decide +kernel) strayState_barOpen (by decide +kernel) rfl rfl (by decide +kernel) (by decide)
    (by decide +kernel) (by decide +kernel) (by decide +kernel) (by decide +kernel) strayState_flushPort_offline (by decide +kernel)

/-- Refutes O49, by its clause of a BAR2 read of a plain line: the statement speaks of every state, and in `strayState`, whose carving
R243 never accepts, the flush that goes before the read marks the line's channel offline, so the read is answered UR and not with
the line's byte. -/
theorem not_barAccessesReachRegistersAndTheCellar : ¬ Obligations.BarAccessesReachRegistersAndTheCellar := by
  rintro ⟨-, -, -, hread, -⟩
  obtain ⟨u, hu, hdata, -⟩ := (hread 0 strayAddr 1 strayAddr strayLoc strayState (by decide +kernel) strayState_barOpen (by decide +kernel)
    rfl (by decide +kernel)).1 rfl strayState_hamper_ports strayState_plainLine (by decide) (by decide) (by decide)
  obtain ⟨v, hv, hur⟩ := strayState_bar2Read
  have huv : u = v := Host.Outcome.next.inj (hu.symm.trans hv)
  rw [← huv, hdata] at hur
  exact absurd hur (by decide)

end Sys2Proof.Machine
end

section
/-! SUPPORT. Writes of one key twice, fields of one register word, and the words of the crate and tile windows with their access codes
(Tables 2.3, 2.4, 2.12, 2.14, 7.4 to 7.6, 23.3). -/
namespace Sys2Proof.Machine

section Maps
variable {α : Type}

theorem delMap_insMap_same (k : Nat) (v : α) (m : List (Nat × α)) : delMap k (insMap k v m) = delMap k m := by
  induction m with
  | nil => simp [insMap, delMap]
  | cons p m ih =>
    obtain ⟨k', v'⟩ := p
    by_cases h : k < k'
    · simp [insMap, delMap, h]
    · simp [insMap, delMap, h, ih]

theorem delMap_delMap_same (k : Nat) (m : List (Nat × α)) : delMap k (delMap k m) = delMap k m := by
  induction m with
  | nil => rfl
  | cons p m ih => obtain ⟨k', v⟩ := p; by_cases h : k' = k <;> simp [delMap, h, ih]

/-- Of two writes of a key only the second is seen. -/
theorem putMap_putMap_same [DecidableEq α] (d : α) (m : List (Nat × α)) (k : Nat) (v w : α) :
    putMap d (putMap d m k v) k w = putMap d m k w := by
  have h : delMap k (putMap d m k v) = delMap k m := by
    unfold putMap
    split
    · exact delMap_delMap_same k m
    · rw [delMap_insMap_same, delMap_delMap_same]
  simp only [putMap] at h ⊢
  rw [h]

end Maps

@[simp] theorem State.setTile_setTile (s : State) (t : Nat) (x y : Tile) : (s.setTile t x).setTile t y = s.setTile t y := by
  simp [State.setTile, putMap_putMap_same]

/-! Fields. -/

/-- Two fields share no bit: they lie in different words, or apart in one. -/
def Fld.Apart (f g : Fld) : Prop := g.a ≠ f.a ∨ g.lo + g.w ≤ f.lo ∨ f.lo + f.w ≤ g.lo

/-- A field apart from the one written keeps its value. -/
theorem rd_wr_of_apart (s : State) {f g : Fld} (v : Nat) (hf : f.lo + f.w ≤ 32) (h : f.Apart g) : (s.wr f v).rd g = s.rd g := by
  by_cases ha : g.a = f.a
  · exact rd_wr_apart s v hf ha (h.resolve_left (not_not_intro ha))
  · exact rd_wr_other s v ha

theorem on_wr_of_apart (s : State) {f g : Fld} (v : Nat) (hf : f.lo + f.w ≤ 32) (h : f.Apart g) : (s.wr f v).on g = s.on g := by
  unfold State.on
  rw [rd_wr_of_apart s v hf h]

theorem rd_lt (s : State) (f : Fld) : s.rd f < 2 ^ f.w := bitsAt_lt _ _ _

/-- A one-bit field is set where its bit is. -/
theorem on_eq_getLsbD (s : State) (a i : Nat) : s.on ⟨a, i, 1⟩ = (s.reg a).getLsbD i := by
  rw [Bool.eq_iff_iff]
  simp [State.on, State.rd, bitsAt, BitVec.getLsbD, Nat.testBit_eq_decide_div_mod_eq]

/-- A field is its bits of the register word. -/
theorem rd_eq_extract (s : State) (f : Fld) : s.rd f = ((s.reg f.a).extractLsb' f.lo f.w).toNat := by
  simp [State.rd, bitsAt, Nat.shiftRight_eq_div_pow]

/-! Writes under the access codes. -/

theorem getLsbD_ofNat32 (n : Nat) {i : Nat} (hi : i < 32) : (BitVec.ofNat 32 n).getLsbD i = bitAt n i := by
  rw [BitVec.getLsbD_ofNat, Nat.testBit_eq_decide_div_mod_eq]
  simp [hi, bitAt]

/-- A bit after a write under the access codes: the written one where it is RW, cleared where it is W1C and written 1, else as it was
(R7, R8). -/
theorem getLsbD_plainWrite (s : State) {a : Nat} (w : Word) {r : RegRow} (hr : regRow a = some r) {i : Nat} (hi : i < 32) :
    ((s.plainWrite a w).reg a).getLsbD i =
      ((if bitAt r.rw i then w.getLsbD i else (s.reg a).getLsbD i) && !(w.getLsbD i && bitAt r.w1c i)) := by
  simp only [State.plainWrite, hr, reg_setReg_same, BitVec.getLsbD_and, BitVec.getLsbD_or, BitVec.getLsbD_not, getLsbD_ofNat32 _ hi, hi]
  cases bitAt r.rw i <;> simp

/-- Does no bit of a field take a written value or clear? -/
def RegRow.readOnly (r : RegRow) (lo w : Nat) : Bool := (List.range w).all fun i => !bitAt r.rw (lo + i) && !bitAt r.w1c (lo + i)

/-- Does every bit of a field take the written value? -/
def RegRow.writable (r : RegRow) (lo w : Nat) : Bool := (List.range w).all fun i => bitAt r.rw (lo + i) && !bitAt r.w1c (lo + i)

/-- A read-only field keeps its value. -/
theorem rd_plainWrite_readOnly (s : State) {f : Fld} (w : Word) {r : RegRow} (hr : regRow f.a = some r) (hf : f.lo + f.w ≤ 32)
    (h : r.readOnly f.lo f.w = true) : (s.plainWrite f.a w).rd f = s.rd f := by
  simp only [RegRow.readOnly, List.all_eq_true, List.mem_range, Bool.and_eq_true, Bool.not_eq_true'] at h
  rw [rd_eq_extract, rd_eq_extract]
  congr 1
  refine BitVec.eq_of_getLsbD_eq fun i hi => ?_
  simp [hi, getLsbD_plainWrite s w hr (show f.lo + i < 32 by omega), h i hi]

/-- A writable field takes its bits of the written word. -/
theorem rd_plainWrite_writable (s : State) {f : Fld} (w : Word) {r : RegRow} (hr : regRow f.a = some r) (hf : f.lo + f.w ≤ 32)
    (h : r.writable f.lo f.w = true) : (s.plainWrite f.a w).rd f = bitsAt w.toNat f.lo f.w := by
  simp only [RegRow.writable, List.all_eq_true, List.mem_range, Bool.and_eq_true, Bool.not_eq_true'] at h
  have he : bitsAt w.toNat f.lo f.w = (w.extractLsb' f.lo f.w).toNat := by simp [bitsAt, Nat.shiftRight_eq_div_pow]
  rw [rd_eq_extract, he]
  congr 1
  refine BitVec.eq_of_getLsbD_eq fun i hi => ?_
  simp [hi, getLsbD_plainWrite s w hr (show f.lo + i < 32 by omega), h i hi]

theorem onlyRegs_plainWrite (s : State) (a : Nat) (w : Word) : OnlyRegs [a] s (s.plainWrite a w) := by
  unfold State.plainWrite
  split
  · exact OnlyRegs.refl _ _
  · exact onlyRegs_setReg _ _ _

/-! Words of a tile's and a crate's window. -/

/-- The rows of the crate windows. -/
theorem rowsFor_window {a : Nat} (hlo : 0x1000000 ≤ a) (hhi : a < 0x1C00000) :
    rowsFor a = if (a - 0x1000000) % 0x8000 < 0x4000 then (rowsCrate, (a - 0x1000000) % 0x8000)
      else (rowsTile, ((a - 0x1000000) % 0x8000 - 0x4000) % 0x100) := by
  have hno : ∀ b, b ≤ 0x1000000 → ¬ a < b := fun b hb => by omega
  simp [rowsFor, hhi, hno]

/-- A word of a tile's window is listed by the tile rows (Table 2.6). -/
theorem regRow_tileReg (t : TileId) {off : Nat} (h : off < 0x100) : regRow (tileReg t off) = rowsTile.find? fun r => r.has off := by
  have hin : ∀ m, (0x4000 + 0x100 * m + off - 0x4000) % 0x100 = off := fun m => by omega
  have ht := t.isLt
  have hoff : (tileReg t off - 0x1000000) % 0x8000 = 0x4000 + 0x100 * (t % 64) + off := by
    rw [show tileReg t off - 0x1000000 = 0x8000 * (t / 64) + (0x4000 + 0x100 * (t % 64) + off) by simp only [tileReg]; omega]
    omega
  rw [regRow, rowsFor_window (by simp only [tileReg]; omega) (by simp only [tileReg]; omega), hoff, if_neg (by omega), hin]

/-- A word of a crate's window below its tiles' is listed by the crate rows (Table 2.7). -/
theorem regRow_crateReg {c off : Nat} (hc : c < 384) (h : off < 0x4000) : regRow (crateReg c off) = rowsCrate.find? fun r => r.has off := by
  have hoff : (crateReg c off - 0x1000000) % 0x8000 = off := by simp only [crateReg]; omega
  rw [regRow, rowsFor_window (by simp only [crateReg]; omega) (by simp only [crateReg]; omega), hoff, if_pos (by omega)]

/-! Which words are the same. -/

@[simp] theorem tileReg_inj {t a b : Nat} : tileReg t a = tileReg t b ↔ a = b := by simp [tileReg]

@[simp] theorem crateReg_inj {c a b : Nat} : crateReg c a = crateReg c b ↔ a = b := by simp [crateReg]

@[simp] theorem hubReg_inj {t a b st : Nat} : hubReg t a st = hubReg t b st ↔ a = b := by simp [hubReg, crateReg]

theorem crateReg_ne_tileReg {c t a b : Nat} (ha : a < 0x4000) (hb : b < 0x100) : crateReg c a ≠ tileReg t b := by
  simp only [crateReg, tileReg]; omega

theorem tileReg_ne_crateReg {c t a b : Nat} (ha : a < 0x4000) (hb : b < 0x100) : tileReg t b ≠ crateReg c a :=
  (crateReg_ne_tileReg ha hb).symm

theorem hubReg_ne_tileReg {t u a b : Nat} (ha : a < 0x1000) (hb : b < 0x100) : hubReg u a 16 ≠ tileReg t b :=
  crateReg_ne_tileReg (by omega) hb

theorem hubReg_ne_crateReg {t c a b : Nat} (hb : b < a) (ha : a < 0x1000) : hubReg t a 16 ≠ crateReg c b := by
  simp only [hubReg, crateReg]; omega

end Sys2Proof.Machine
end

section
/-! SUPPORT. Frames: what is the same in states that differ in registers, and register traffic to a tile and a crate whose clock runs
(R70, R72 to R74). -/
namespace Sys2Proof.Machine

section Frames
variable {as : List Nat} {s u : State}

theorem OnlyRegs.reg (h : OnlyRegs as s u) {a : Nat} (ha : a ∉ as) : u.reg a = s.reg a := h.1 a ha
theorem OnlyRegs.rd (h : OnlyRegs as s u) {f : Fld} (hf : f.a ∉ as) : u.rd f = s.rd f := by rw [State.rd, h.1 _ hf]; rfl
theorem OnlyRegs.on (h : OnlyRegs as s u) {f : Fld} (hf : f.a ∉ as) : u.on f = s.on f := by rw [State.on, h.rd hf]; rfl
theorem OnlyRegs.shelf (h : OnlyRegs as s u) : u.shelf = s.shelf := by rw [h.2]
theorem OnlyRegs.cellar (h : OnlyRegs as s u) : u.cellar = s.cellar := by rw [h.2]
theorem OnlyRegs.tiles (h : OnlyRegs as s u) : u.tiles = s.tiles := by rw [h.2]
theorem OnlyRegs.incs (h : OnlyRegs as s u) : u.incs = s.incs := by rw [h.2]
theorem OnlyRegs.gathered (h : OnlyRegs as s u) : u.gathered = s.gathered := by rw [h.2]
theorem OnlyRegs.tile (h : OnlyRegs as s u) (t : Nat) : u.tile t = s.tile t := by rw [h.2]; rfl
theorem OnlyRegs.crate (h : OnlyRegs as s u) (c : Nat) : u.crate c = s.crate c := by rw [h.2]; rfl

end Frames

/-! Accesses that wait at no crossing. -/

@[simp] theorem State.unheld_regs (s : State) (n : Nat) : (s.unheld n).regs = s.regs := rfl
@[simp] theorem State.unheld_shelf (s : State) (n : Nat) : (s.unheld n).shelf = s.shelf := rfl
@[simp] theorem State.unheld_cellar (s : State) (n : Nat) : (s.unheld n).cellar = s.cellar := rfl
@[simp] theorem State.unheld_incs (s : State) (n : Nat) : (s.unheld n).incs = s.incs := rfl
@[simp] theorem State.reg_unheld (s : State) (n a : Nat) : (s.unheld n).reg a = s.reg a := rfl
@[simp] theorem State.rd_unheld (s : State) (n : Nat) (f : Fld) : (s.unheld n).rd f = s.rd f := rfl
@[simp] theorem State.on_unheld (s : State) (n : Nat) (f : Fld) : (s.unheld n).on f = s.on f := rfl
@[simp] theorem State.tile_unheld (s : State) (n t : Nat) : (s.unheld n).tile t = s.tile t := rfl
@[simp] theorem State.crate_unheld (s : State) (n c : Nat) : (s.unheld n).crate c = s.crate c := rfl

/-- A crate's clock runs where its quadrant is on, its generator good, no request has stopped it and no slice runs on it. -/
theorem crateRuns_iff (s : State) (c : Nat) : s.crateRuns c = true ↔
    s.crateOn c = true ∧ (s.crate c).clockLost = false ∧ s.on (crateStopped c) = false ∧ s.sliceOn 0 c = false := by
  simp [State.crateRuns, and_assoc]

theorem tileLive_iff (s : State) (t : Nat) : s.tileLive t = true ↔ s.crateRuns (t / 64) = true := by
  simp [State.tileLive, State.tileOn, crateRuns_iff]

theorem domPowered_of_crateOn {s : State} {c : Nat} (h : s.crateOn c = true) : s.domPowered (quadOfCrate c) = true := by
  simp only [State.crateOn, State.domOn] at h
  simp only [State.domPowered, h, Bool.true_or]

/-- A register write of a source reaches a crate whose clock runs at once. -/
theorem atPlace_crate {s : State} {c : Nat} (h : s.crateRuns c = true) (src : Src) (act : State → State) :
    s.atPlace src (64 + c) act = act (s.unheld src.unit) := by
  obtain ⟨hon, hlost, hstop, hslice⟩ := (crateRuns_iff s c).1 h
  have hp : s.domPowered (domOfPlace (64 + c)) = true := by simp [domOfPlace, domPowered_of_crateOn hon]
  have hw : s.mustWait (64 + c) = false := by simp [State.mustWait, State.clockStopped, hlost, hslice]
  have ha : (s.unheld src.unit).arouse (64 + c) = s.unheld src.unit := by simp [State.arouse, hstop]
  rw [State.atPlace, hp, hw, ha]
  rfl

/-- A source that may write a tile's registers runs where the tile does. -/
theorem srcRuns_of_tileRegWriter {s : State} {src : Src} {t : TileId} (hw : tileRegWriter src t = true) (h : s.tileLive t = true) :
    s.srcRuns src = true := by
  rw [tileLive_iff] at h
  cases src with
  | tile u =>
    have hu : u.val = t.val := by simpa [tileRegWriter] using hw
    simpa [State.srcRuns, hu] using h
  | _ => rfl

/-- A write of a register of a tile that answers takes effect, and ungates the tile (R70). -/
theorem tileAccess_live {s : State} {src : Src} {t : TileId} (hw : tileRegWriter src t = true) (h : s.tileLive t = true)
    (act : State → State) : s.tileAccess src t act = (act (s.unheld src.unit)).ungate t := by
  rw [State.tileAccess, srcRuns_of_tileRegWriter hw h, if_pos rfl, atPlace_crate ((tileLive_iff s t).1 h)]

/-- TILE.RUN and TILE.CODE take the writes of hosts only (R64, Table 23.1). -/
theorem tileRegWriter_of_mayWrite {s : State} {src : Src} {t : TileId} {off : Nat} (ho : off < 0x100)
    (h : s.mayWrite src (tileReg t off) = true) : tileRegWriter src t = true := by
  have hlo : ∀ b, b ≤ 0x1000000 → ¬ tileReg t off < b := fun b hb => by simp only [tileReg]; omega
  have hhi : tileReg t off < 0x1C00000 := by have := t.isLt; simp only [tileReg]; omega
  have hoff : 0x4000 ≤ (tileReg t off - 0x1000000) % 0x8000 := by simp only [tileReg]; omega
  cases src with
  | hostCore c => rfl
  | hostPort p => rfl
  | tile u =>
    have hno : tileMayWriteCrate u ((tileReg t off - 0x1000000) % 0x8000) = false := by
      simp only [tileMayWriteCrate, Bool.or_eq_false_iff, decide_eq_false_iff_not]
      omega
    simp [State.mayWrite, hlo, hhi, hno] at h
  | mgmt => simp [State.mayWrite, hlo, hhi] at h

/-! The clock of a tile. -/

theorem onlyRegs_ungate (s : State) (t : Nat) : OnlyRegs [tileReg t 4] s (s.ungate t) := by
  unfold State.ungate
  split
  · exact onlyRegs_wr s (tState t) 2
  · exact OnlyRegs.refl _ _

theorem rd_ungate_of_apart (s : State) (t : Nat) {f : Fld} (h : (tState t).Apart f) : (s.ungate t).rd f = s.rd f := by
  unfold State.ungate
  split
  · exact rd_wr_of_apart s 2 (by simp [tState]) h
  · rfl

theorem on_ungate_of_apart (s : State) (t : Nat) {f : Fld} (h : (tState t).Apart f) : (s.ungate t).on f = s.on f := by
  rw [State.on, rd_ungate_of_apart s t h]; rfl

theorem rd_tState_ungate (s : State) (t : Nat) : (s.ungate t).rd (tState t) = if s.rd (tState t) = 3 then 2 else s.rd (tState t) := by
  unfold State.ungate
  split
  · exact rd_wr_same s (tState t) 2 (by simp [tState])
  · rfl

@[simp] theorem State.ungate_shelf (s : State) (t : Nat) : (s.ungate t).shelf = s.shelf := (onlyRegs_ungate s t).shelf
@[simp] theorem State.ungate_cellar (s : State) (t : Nat) : (s.ungate t).cellar = s.cellar := (onlyRegs_ungate s t).cellar
@[simp] theorem State.ungate_incs (s : State) (t : Nat) : (s.ungate t).incs = s.incs := (onlyRegs_ungate s t).incs
@[simp] theorem State.tile_ungate (s : State) (t k : Nat) : (s.ungate t).tile k = s.tile k := (onlyRegs_ungate s t).tile k

end Sys2Proof.Machine
end

section
/-! SUPPORT. A tile's locked scratch: where an offset lies, and what a write and a read of bytes do (R201, R217, R222). -/
namespace Sys2Proof.Machine

theorem scratchWays_nodup (s : State) (t : Nat) : (s.scratchWays t).Nodup := List.nodup_range.filter _

theorem length_scratchWays_le (s : State) (t : Nat) : (s.scratchWays t).length ≤ 12 := by
  simpa [State.scratchWays] using List.length_filter_le (s.isScratchWay t) (List.range 12)

theorem scratchEnd_le (s : State) (t : Nat) : s.scratchEnd t ≤ 0x30000 := by
  have := length_scratchWays_le s t
  simp only [State.scratchEnd]; omega

/-! The locked ways and all that follows from them are one register field's. -/

section Congr
variable {s u : State} {t : Nat} (h : u.rd (shScratch t) = s.rd (shScratch t))
include h

theorem isScratchWay_congr : u.isScratchWay t = s.isScratchWay t := funext fun w => by rw [State.isScratchWay, h]; rfl
theorem scratchWays_congr : u.scratchWays t = s.scratchWays t := by simp only [State.scratchWays, isScratchWay_congr h]
theorem scratchEnd_congr : u.scratchEnd t = s.scratchEnd t := by simp only [State.scratchEnd, scratchWays_congr h]
theorem scratchKey_congr (o : Nat) : u.scratchKey t o = s.scratchKey t o := by simp only [State.scratchKey, scratchWays_congr h]

end Congr

/-- No byte lies beyond the locked ways. -/
theorem scratchKey_beyond {s : State} {t o : Nat} (h : s.scratchEnd t ≤ o) : s.scratchKey t o = none := by
  have hl : (s.scratchWays t).length ≤ o / 16384 := by simp only [State.scratchEnd] at h; omega
  simp [State.scratchKey, List.getElem?_eq_none hl]

/-- Below their end each byte lies in a way. -/
theorem scratchKey_within {s : State} {t o : Nat} (h : o < s.scratchEnd t) : ∃ k, s.scratchKey t o = some k := by
  have hl : o / 16384 < (s.scratchWays t).length := by simp only [State.scratchEnd] at h; omega
  simp [State.scratchKey, List.getElem?_eq_getElem hl]

/-- Two offsets lie in one byte only if they are the same. -/
theorem scratchKey_inj {s : State} {t o p k : Nat} (ho : s.scratchKey t o = some k) (hp : s.scratchKey t p = some k) : o = p := by
  simp only [State.scratchKey, Option.map_eq_some_iff] at ho hp
  obtain ⟨w, hw, hwk⟩ := ho
  obtain ⟨v, hv, hvk⟩ := hp
  have hwv : w = v := by omega
  subst hwv
  have hlt : o / 16384 < (s.scratchWays t).length := by
    by_contra hge
    rw [List.getElem?_eq_none (by omega)] at hw
    cases hw
  have := (List.getElem?_inj hlt (scratchWays_nodup s t)).1 (hw.trans hv.symm)
  omega

/-- Within a way the bytes of scratch lie one behind another. -/
theorem scratchKey_add {s : State} {t o k : Nat} (h : s.scratchKey t o = some k) {i : Nat} (hi : o % 16384 + i < 16384) :
    s.scratchKey t (o + i) = some (k + i) := by
  simp only [State.scratchKey, Option.map_eq_some_iff] at h ⊢
  obtain ⟨w, hw, rfl⟩ := h
  exact ⟨w, by rw [show (o + i) / 16384 = o / 16384 by omega]; exact hw, by omega⟩

/-! Writes. -/

/-- State `u` is state `s` but for bytes of the shelves and the array errors of tile `t`. -/
structure ArrayOnly (t : Nat) (s u : State) : Prop where
  rest : u = { s with shelf := u.shelf, tiles := u.tiles }
  same : u.tile t = { s.tile t with eccErr := (u.tile t).eccErr }
  others : ∀ v, v ≠ t → u.tile v = s.tile v

theorem ArrayOnly.refl (t : Nat) (s : State) : ArrayOnly t s s := ⟨rfl, rfl, fun _ _ => rfl⟩

theorem ArrayOnly.trans {t : Nat} {s u v : State} (h : ArrayOnly t s u) (k : ArrayOnly t u v) : ArrayOnly t s v where
  rest := by rw [k.rest, h.rest]
  same := by rw [k.same, h.same]
  others w hw := (k.others w hw).trans (h.others w hw)

section ArrayOnly
variable {t : Nat} {s u : State} (h : ArrayOnly t s u)
include h

theorem ArrayOnly.regs : u.regs = s.regs := by rw [h.rest]
theorem ArrayOnly.reg (a : Nat) : u.reg a = s.reg a := by rw [State.reg, h.regs]; rfl
theorem ArrayOnly.rd (f : Fld) : u.rd f = s.rd f := by rw [State.rd, h.reg]; rfl
theorem ArrayOnly.on (f : Fld) : u.on f = s.on f := by rw [State.on, h.rd]; rfl
theorem ArrayOnly.cellar : u.cellar = s.cellar := by rw [h.rest]
theorem ArrayOnly.incs : u.incs = s.incs := by rw [h.rest]
theorem ArrayOnly.gathered : u.gathered = s.gathered := by rw [h.rest]
theorem ArrayOnly.eng (e : Nat) : (u.tile t).eng e = (s.tile t).eng e := by rw [h.same]; rfl

end ArrayOnly

theorem arrayOnly_scratchWriteByte (s : State) (t o : Nat) (b : Byte) : ArrayOnly t s (s.scratchWriteByte t o b) := by
  unfold State.scratchWriteByte
  split
  · exact .refl t s
  · exact ⟨rfl, rfl, fun _ _ => rfl⟩

theorem arrayOnly_scratchWriteRaw (s : State) (t o : Nat) (bs : List Byte) : ArrayOnly t s (s.scratchWriteRaw t o bs) := by
  induction bs generalizing s o with
  | nil => exact .refl t s
  | cons b bs ih => exact (arrayOnly_scratchWriteByte s t o b).trans (ih _ _)

/-- Clearing a word's error. -/
theorem arrayOnly_setEccErr (s : State) (t : Nat) (m : List (Nat × Nat)) : ArrayOnly t s (s.setTile t { s.tile t with eccErr := m }) :=
  ⟨rfl, by simp, fun _ hv => State.tile_setTile_other s _ hv⟩

theorem arrayOnly_clearWords (s : State) (t o n : Nat) : ArrayOnly t s (s.clearWords t o n) := by
  refine List.foldlRecOn (motive := ArrayOnly t s) _ _ (.refl t s) fun u hu i _ => hu.trans ?_
  dsimp only
  split
  · exact .refl t u
  · split
    · exact .refl t u
    · exact arrayOnly_setEccErr u t _

/-- A write of scratch changes bytes and array errors only. -/
theorem arrayOnly_scratchWrite (s : State) (t o : Nat) (bs : List Byte) : ArrayOnly t s (s.scratchWrite t o bs) :=
  (arrayOnly_clearWords s t o _).trans (arrayOnly_scratchWriteRaw _ t o bs)

@[simp] theorem clearWords_shelf (s : State) (t o n : Nat) : (s.clearWords t o n).shelf = s.shelf := by
  refine List.foldlRecOn (motive := fun u : State => u.shelf = s.shelf) _ _ rfl fun u hu i _ => ?_
  dsimp only
  split
  · exact hu
  · split <;> exact hu

/-- Bytes that a write does not name keep their values. -/
theorem readByte_scratchWriteRaw_other (bs : List Byte) (s : State) (t o k : Nat) (h : ∀ i < bs.length, s.scratchKey t (o + i) ≠ some k) :
    readByte (s.scratchWriteRaw t o bs).shelf k = readByte s.shelf k := by
  induction bs generalizing s o with
  | nil => rfl
  | cons b bs ih =>
    have hA := arrayOnly_scratchWriteByte s t o b
    rw [State.scratchWriteRaw, ih]
    · unfold State.scratchWriteByte
      split
      · rfl
      · next k' hk' =>
        refine readByte_writeByte_other _ _ fun e => ?_
        subst e
        exact h 0 (by simp) hk'
    · intro i hi
      rw [scratchKey_congr (hA.rd _), show o + 1 + i = o + (i + 1) by omega]
      exact h (i + 1) (by simpa using hi)

/-- Those that it names read as written. -/
theorem readByte_scratchWriteRaw_same (bs : List Byte) (s : State) (t o k i : Nat) (hi : i < bs.length)
    (hk : s.scratchKey t (o + i) = some k) : readByte (s.scratchWriteRaw t o bs).shelf k = bs[i] := by
  induction bs generalizing s o i with
  | nil => simp at hi
  | cons b bs ih =>
    have hA := arrayOnly_scratchWriteByte s t o b
    rw [State.scratchWriteRaw]
    cases i with
    | zero =>
      rw [readByte_scratchWriteRaw_other]
      · rw [Nat.add_zero] at hk
        simp [State.scratchWriteByte, hk]
      · intro j _ hj
        rw [scratchKey_congr (hA.rd _)] at hj
        have := scratchKey_inj hk hj
        omega
    | succ i =>
      have hi' : i < bs.length := by simpa using hi
      rw [ih _ _ i hi' (by rw [scratchKey_congr (hA.rd _), show o + 1 + i = o + (i + 1) by omega]; exact hk)]
      simp

theorem readByte_scratchWrite_other {s : State} {t o k : Nat} {bs : List Byte} (h : ∀ i < bs.length, s.scratchKey t (o + i) ≠ some k) :
    readByte (s.scratchWrite t o bs).shelf k = readByte s.shelf k := by
  rw [State.scratchWrite, readByte_scratchWriteRaw_other _ _ _ _ _ fun i hi => by
    rw [scratchKey_congr ((arrayOnly_clearWords s t o _).rd _)]; exact h i hi]
  simp

theorem readByte_scratchWrite_same {s : State} {t o k i : Nat} {bs : List Byte} (hi : i < bs.length)
    (hk : s.scratchKey t (o + i) = some k) : readByte (s.scratchWrite t o bs).shelf k = bs[i] :=
  readByte_scratchWriteRaw_same _ _ _ _ _ _ hi (by rw [scratchKey_congr ((arrayOnly_clearWords s t o _).rd _)]; exact hk)

/-! Reads. -/

/-- A read that begins beyond the locked ways fails with PERMISSION, and changes nothing (R55, R299). -/
theorem scratchRead_beyond {s : State} {t o n : Nat} (hn : n ≠ 0) (h : s.scratchEnd t ≤ o) :
    s.scratchRead t o n = (.bad stPERMISSION, s) := by
  simp [State.scratchRead, State.scratchReadN, hn, State.scratchRun, scratchKey_beyond h]

end Sys2Proof.Machine
end

section
/-! SUPPORT. The control core: its registers, its traps and its accesses outside the map; settles O8 and O9 (R32 to R34, R70). -/
namespace Sys2Proof.Machine

/-! The core's registers. -/

@[simp] theorem Cpu.csrOf_setCsr_same (c : Cpu) (n : Nat) (v : Word) : (c.setCsr n v).csrOf n = v := lookMap_putMap_same _ _ _ _
theorem Cpu.csrOf_setCsr_other (c : Cpu) {n m : Nat} (v : Word) (h : m ≠ n) : (c.setCsr n v).csrOf m = c.csrOf m :=
  lookMap_putMap_other _ _ _ _ h
@[simp] theorem Cpu.setCsr_x (c : Cpu) (n : Nat) (v : Word) : (c.setCsr n v).x = c.x := rfl
@[simp] theorem Cpu.setX_zero (c : Cpu) (v : Word) : c.setX 0 v = c := rfl

theorem Cpu.xr_setX_same (c : Cpu) (r : Nat) (v : Word) : (c.setX r v).xr r = if r = 0 then 0#32 else v := by
  by_cases h : r = 0 <;> simp [Cpu.xr, Cpu.setX, h]

/-! Traps (R34). -/

/-- The CSRs that a trap writes: mepc, mcause, mtval and mstatus. -/
def Cpu.trapCsrs (c : Cpu) (cause tval : Nat) : Cpu :=
  (((c.setCsr csrMepc c.pc).setCsr csrMcause (BitVec.ofNat 32 cause)).setCsr csrMtval (BitVec.ofNat 32 tval)).setCsr csrMstatus
    (BitVec.ofNat 32 (128 * bitsAt (c.csrOf csrMstatus).toNat 3 1))

/-- The core after a trap: those CSRs written and the pc at mtvec. -/
def Cpu.trapped (c : Cpu) (cause tval : Nat) : Cpu :=
  { c.trapCsrs cause tval with pc := BitVec.ofNat 32 (((c.trapCsrs cause tval).csrOf csrMtvec).toNat / 4 * 4) }

@[simp] theorem Cpu.trapped_mcause (c : Cpu) (cause tval : Nat) : (c.trapped cause tval).csrOf csrMcause = BitVec.ofNat 32 cause := by
  change (c.trapCsrs cause tval).csrOf csrMcause = _
  rw [trapCsrs, csrOf_setCsr_other _ _ (by decide), csrOf_setCsr_other _ _ (by decide), csrOf_setCsr_same]

@[simp] theorem Cpu.trapped_mepc (c : Cpu) (cause tval : Nat) : (c.trapped cause tval).csrOf csrMepc = c.pc := by
  change (c.trapCsrs cause tval).csrOf csrMepc = _
  rw [trapCsrs, csrOf_setCsr_other _ _ (by decide), csrOf_setCsr_other _ _ (by decide), csrOf_setCsr_other _ _ (by decide),
    csrOf_setCsr_same]

@[simp] theorem Cpu.trapped_mtval (c : Cpu) (cause tval : Nat) : (c.trapped cause tval).csrOf csrMtval = BitVec.ofNat 32 tval := by
  change (c.trapCsrs cause tval).csrOf csrMtval = _
  rw [trapCsrs, csrOf_setCsr_other _ _ (by decide), csrOf_setCsr_same]

@[simp] theorem Cpu.trapped_x (c : Cpu) (cause tval : Nat) : (c.trapped cause tval).x = c.x := rfl

/-- A trap changes the core, and halts it with a fault where mtvec lies outside the code window. -/
theorem ctlTrap_cases (s : State) (t cause tval : Nat) :
    s.ctlTrap t cause tval = s.setCpu t ((s.tile t).cpu.trapped cause tval) ∨
    ∃ bs, s.ctlTrap t cause tval = ((s.setCpu t ((s.tile t).cpu.trapped cause tval)).wr (tState t) 5).raise 0x0110 1 t bs := by
  unfold State.ctlTrap
  extract_lets c st pc c1 base u
  split
  · exact .inl rfl
  · exact .inr ⟨_, rfl⟩

/-- What a trap leaves of a state: the core as the trap leaves it, and every memory and everything under way as it was. -/
structure Trapped (t cause tval : Nat) (s u : State) : Prop where
  cpu : (u.tile t).cpu = (s.tile t).cpu.trapped cause tval
  shelf : u.shelf = s.shelf
  cellar : u.cellar = s.cellar
  hostA : u.hostA = s.hostA
  hostB : u.hostB = s.hostB
  incs : u.incs = s.incs
  fabTx : u.fabTx = s.fabTx

theorem trapped_ctlTrap (s : State) (t cause tval : Nat) : Trapped t cause tval s (s.ctlTrap t cause tval) := by
  obtain h | ⟨bs, h⟩ := ctlTrap_cases s t cause tval
  · rw [h]
    constructor <;> simp [State.setCpu]
  · rw [h]
    constructor <;> simp [State.setCpu]

/-! What each command is. -/

theorem exec_controlCoreLoad (t : TileId) (s : State) : exec (.controlCoreLoad t) s = execControlCoreLoad t s := rfl
theorem exec_controlCoreStore (t : TileId) (s : State) : exec (.controlCoreStore t) s = execControlCoreStore t s := rfl
theorem exec_wfi (t : TileId) (s : State) : exec (.wfi t) s = execWfi t s := rfl
theorem exec_controlCoreInstruction (t : TileId) (s : State) :
    exec (.controlCoreInstruction t) s = execControlCoreInstruction t s := rfl

/-! What the commands do with the instruction that they fetched. -/

section Commands
variable {t : TileId} {s s1 : State} {len w : Nat} (hr : s.ctlRuns t = true)
include hr

theorem exec_load {sz rd rs1 : Nat} {sgn : Bool} {imm : Int} (hf : s.ctlFetch t = (.ok (.load sz sgn rd rs1 imm) len w, s1))
    {a : Nat} (ha : a = ((s1.tile t).cpu.xr rs1 + BitVec.ofInt 32 imm).toNat) (hz : a % 2 ^ sz = 0) :
    exec (.controlCoreLoad t) s = match s1.ctlLoad t a (2 ^ sz) with
      | (.ok bs, s2) => .next (s2.ctlRetire t rd (loadVal 32 sz sgn bs) ((s1.tile t).cpu.pc + BitVec.ofNat 32 len))
      | (.fault, s2) => .next (s2.ctlTrap t 5 a)
      | (.wait, s2) => .next s2 := by
  subst ha
  simp only [exec_controlCoreLoad, execControlCoreLoad, hr, hf, hz]
  rfl

theorem exec_store {sz rs1 rs2 : Nat} {imm : Int} (hf : s.ctlFetch t = (.ok (.store sz rs1 rs2 imm) len w, s1))
    {a : Nat} (ha : a = ((s1.tile t).cpu.xr rs1 + BitVec.ofInt 32 imm).toNat) (hz : a % 2 ^ sz = 0) :
    exec (.controlCoreStore t) s = match s1.ctlStore t a (toBytes (2 ^ sz) ((s1.tile t).cpu.xr rs2).toNat) with
      | (.ok _, s2) => .next (s2.ctlRetire t 0 0#32 ((s1.tile t).cpu.pc + BitVec.ofNat 32 len))
      | (.fault, s2) => .next (s2.ctlTrap t 7 a)
      | (.wait, s2) => .next s2 := by
  subst ha
  simp only [exec_controlCoreStore, execControlCoreStore, hr, hf, hz]
  rfl

theorem exec_wfi_fetched (hf : s.ctlFetch t = (.ok .wfi len w, s1)) :
    exec (.wfi t) s = .next (if s1.wakeMet t then s1.ctlRetire t 0 0#32 ((s1.tile t).cpu.pc + BitVec.ofNat 32 len)
      else (s1.ctlRetire t 0 0#32 ((s1.tile t).cpu.pc + BitVec.ofNat 32 len)).wr (tState t) 2) := by
  simp only [exec_wfi, execWfi, hr, hf]
  rfl

theorem exec_alu {x : AluW} {op : AluOp} {rd rs1 rs2 : Nat} (hf : s.ctlFetch t = (.ok (.alu x op rd rs1 rs2) len w, s1)) :
    exec (.controlCoreInstruction t) s = .next (s1.ctlRetire t rd
      (aluFn 32 op ((s1.tile t).cpu.xr rs1) ((s1.tile t).cpu.xr rs2)) ((s1.tile t).cpu.pc + BitVec.ofNat 32 len)) := by
  simp only [exec_controlCoreInstruction, execControlCoreInstruction, hr, hf]
  rfl

theorem exec_branch {f3 rs1 rs2 : Nat} {imm : Int} (hf : s.ctlFetch t = (.ok (.branch f3 rs1 rs2 imm) len w, s1)) :
    exec (.controlCoreInstruction t) s = .next (s1.ctlRetire t 0 0#32
      (if branchTaken f3 ((s1.tile t).cpu.xr rs1) ((s1.tile t).cpu.xr rs2) then (s1.tile t).cpu.pc + BitVec.ofInt 32 imm
        else (s1.tile t).cpu.pc + BitVec.ofNat 32 len)) := by
  simp only [exec_controlCoreInstruction, execControlCoreInstruction, hr, hf]
  rfl

theorem exec_jal {rd : Nat} {imm : Int} (hf : s.ctlFetch t = (.ok (.jal rd imm) len w, s1)) :
    exec (.controlCoreInstruction t) s = .next (s1.ctlRetire t rd ((s1.tile t).cpu.pc + BitVec.ofNat 32 len)
      ((s1.tile t).cpu.pc + BitVec.ofInt 32 imm)) := by
  simp only [exec_controlCoreInstruction, execControlCoreInstruction, hr, hf]
  rfl

theorem exec_ecall (hf : s.ctlFetch t = (.ok .ecall len w, s1)) :
    exec (.controlCoreInstruction t) s = .next (s1.ctlTrap t 11 0) := by
  simp only [exec_controlCoreInstruction, execControlCoreInstruction, hr, hf]
  rfl

end Commands

/-! Accesses outside the map (R34). -/

/-- Does an address lie between the ranges of Table 2.1, or beyond the locked ways of scratch? -/
def State.unmapped (s : State) (t a : Nat) : Prop :=
  (0x30000 ≤ a ∧ a < 0x40000) ∨ (0x41000 ≤ a ∧ a < 0x80000) ∨ (0x80100 ≤ a ∧ a < 0x81000) ∨ (0x82000 ≤ a ∧ a < 0xC0000) ∨
    (0xC8000 ≤ a ∧ a < 0x80000000) ∨ (a < 0x30000 ∧ s.scratchEnd t ≤ a)

/-- Such an address is beyond scratch, or in no range of Table 2.1. -/
theorem State.unmapped.cases {s : State} {t a : Nat} (h : s.unmapped t a) :
    (a < 0x30000 ∧ s.scratchEnd t ≤ a) ∨
    (¬ a < 0x30000 ∧ ¬ (0x40000 ≤ a ∧ a < 0x41000) ∧ ¬ (0x80000 ≤ a ∧ a < 0x80100) ∧ ¬ (0x81000 ≤ a ∧ a < 0x82000) ∧
      ¬ (0xC0000 ≤ a ∧ a < 0xC8000) ∧ ¬ 0x80000000 ≤ a) := by
  unfold State.unmapped at h; omega

theorem ctlLoad_unmapped {s : State} {t a n : Nat} (hn : n ≠ 0) (h : s.unmapped t a) : s.ctlLoad t a n = (.fault, s) := by
  obtain ⟨hs, hb⟩ | ⟨h1, h2, h3, h4, h5, h6⟩ := h.cases
  · rw [State.ctlLoad, if_pos hs, scratchRead_beyond hn hb]
    rfl
  · rw [State.ctlLoad, if_neg h1, if_neg h2, if_neg h3, if_neg h4, if_neg h5, if_neg h6]

theorem ctlStore_unmapped {s : State} {t a : Nat} {bs : List Byte} (hn : bs.length ≠ 0) (h : s.unmapped t a) :
    s.ctlStore t a bs = (.fault, s) := by
  obtain ⟨hs, hb⟩ | ⟨h1, h2, h3, h4, h5, h6⟩ := h.cases
  · rw [State.ctlStore, if_pos hs, State.ctlScratchStore, if_pos (by omega)]
  · rw [State.ctlStore, if_neg h1, if_neg h2, if_neg h3, if_neg h4, if_neg h5, if_neg h6]

/-- Settles O9: such an access is answered with a fault and an unchanged state, and a trap changes the core alone. -/
theorem coreAccessOutsideTheMapTraps : Obligations.CoreAccessOutsideTheMapTraps := by
  intro t s s1 sz rs1 imm len w a hr _ ha hz hout
  have hn : 2 ^ sz ≠ 0 := by positivity
  refine ⟨fun sgn rd hf => ?_, fun rs2 hf => ?_⟩
  · rw [exec_load hr hf ha hz, ctlLoad_unmapped hn hout]
    have h := trapped_ctlTrap s1 t 5 a
    exact ⟨_, rfl, by simp [h.cpu], by simp [h.cpu], by simp [h.cpu], by simp [h.cpu], h.shelf, h.cellar⟩
  · rw [exec_store hr hf ha hz, ctlStore_unmapped (by simp) hout]
    have h := trapped_ctlTrap s1 t 7 a
    exact ⟨_, rfl, by simp [h.cpu], by simp [h.cpu], by simp [h.cpu], by simp [h.cpu], h.shelf, h.cellar, h.hostA, h.hostB, h.incs, h.fabTx⟩

/-! The end of an instruction. -/

@[simp] theorem ctlRetire_cpu (s : State) (t rd : Nat) (v pc : Word) :
    ((s.ctlRetire t rd v pc).tile t).cpu = { (s.tile t).cpu.setX rd v with pc := pc } := by
  simp [State.ctlRetire, State.setCpu]

/-- Settles O8: each command runs the instruction that it fetched. -/
theorem coreExecutesLoadsStoresAndInstructions : Obligations.CoreExecutesLoadsStoresAndInstructions := by
  refine ⟨?load, ?store, ?wfi, ?alu, ?branch, ?jal, ?ecall⟩
  case load =>
    intro t s s1 s2 sz sgn rd rs1 imm len w bs hr hf hz hl
    rw [exec_load hr hf rfl hz, hl]
    rfl
  case store =>
    intro t s s1 s2 sz rs1 rs2 imm len w bs hr hf hz hst
    rw [exec_store hr hf rfl hz, hst]
    rfl
  case wfi =>
    intro t s s1 len w hr hf
    refine ⟨_, exec_wfi_fetched hr hf, ?_⟩
    by_cases hm : s1.wakeMet t
    · simp only [hm, if_true, ctlRetire_cpu, Cpu.setX_zero]
      exact ⟨trivial, fun _ => rfl, nofun, fun _ _ => rfl⟩
    · simp only [hm]
      refine ⟨?_, nofun, fun _ => rd_wr_same _ (tState t) 2 (by simp [tState]), fun a ha => reg_wr_other _ _ ha⟩
      simp
  case alu =>
    intro t s s1 x op rd rs1 rs2 len w hr hf
    exact exec_alu hr hf
  case branch =>
    intro t s s1 f3 rs1 rs2 imm len w hr hf
    refine ⟨_, exec_branch hr hf, by simp, ?_⟩
    rw [ctlRetire_cpu]
    split <;> rfl
  case jal =>
    intro t s s1 rd imm len w hr hf
    refine ⟨_, exec_jal hr hf, by simp, ?_⟩
    rw [ctlRetire_cpu]
    exact Cpu.xr_setX_same (s1.tile t).cpu rd _
  case ecall =>
    intro t s s1 len w hr hf
    have h := trapped_ctlTrap s1 t 11 0
    exact ⟨_, exec_ecall hr hf, by simp [h.cpu], by simp [h.cpu], h.shelf⟩

end Sys2Proof.Machine
end

section
/-! SUPPORT. TILE.RUN and TILE.CODE: releasing and holding a tile, its code window and the end of WFI; settles O6 and O7 (R35, R46, R70,
Table 2.12). -/
namespace Sys2Proof.Machine

/-! What each command is. -/

theorem exec_tileRunRelease (src : Src) (t : TileId) (w : BitVec 32) (s : State) :
    exec (.tileRunRelease src t w) s = execTileRunRelease src t w s := rfl
theorem exec_tileRunHold (src : Src) (t : TileId) (w : BitVec 32) (s : State) :
    exec (.tileRunHold src t w) s = execTileRunHold src t w s := rfl
theorem exec_tileCodeWrite (src : Src) (t : TileId) (w : BitVec 32) (s : State) :
    exec (.tileCodeWrite src t w) s = execTileCodeWrite src t w s := rfl
theorem exec_wfiWake (t : TileId) (s : State) : exec (.wfiWake t) s = execWfiWake t s := rfl

/-! The words TILE.RUN and TILE.CODE. -/

theorem regRow_tileRun (t : TileId) : regRow (tileReg t 4) = some ⟨4, 1, 0, 1, 0, 3, 8, 0, 1, 0xFF⟩ := by
  rw [regRow_tileReg t (by decide)]; rfl

theorem regRow_tileCode (t : TileId) : regRow (tileReg t 12) = some ⟨0xC, 1, 0, 1, 0, 0xFF00FF, 0, 0, 4, 0xFF00FF⟩ := by
  rw [regRow_tileReg t (by decide)]; rfl

/-- The first part of a write of TILE.RUN: its RW and W1C bits, HOLD as it was. -/
def State.runBits (s : State) (t : Nat) (w : BitVec 32) : State := (s.plainWrite (tileReg t 4) w).wr (tHold t) (b2n (s.on (tHold t)))

theorem onlyRegs_runBits (s : State) (t : Nat) (w : BitVec 32) : OnlyRegs [tileReg t 4] s (s.runBits t w) :=
  (onlyRegs_plainWrite s _ w).trans (onlyRegs_wr _ (tHold t) _)

section RunBits
variable (s : State) (t : TileId) (w : BitVec 32)

/-- STATE and PARKED are the device's: a write leaves them. -/
theorem rd_tState_runBits : (s.runBits t w).rd (tState t) = s.rd (tState t) := by
  rw [State.runBits, rd_wr_of_apart _ _ (by simp [tHold]) (by simp [Fld.Apart, tHold, tState])]
  exact rd_plainWrite_readOnly s (f := tState t) w (regRow_tileRun t) (by simp [tState]) (by simp only [tState]; decide)

theorem on_tParked_runBits : (s.runBits t w).on (tParked t) = s.on (tParked t) := by
  have h : (s.plainWrite (tileReg t 4) w).rd (tParked t) = s.rd (tParked t) :=
    rd_plainWrite_readOnly s (f := tParked t) w (regRow_tileRun t) (by simp [tParked]) (by simp only [tParked]; decide)
  rw [State.runBits, on_wr_of_apart _ _ (by simp [tHold]) (by simp [Fld.Apart, tHold, tParked]), State.on, h]
  rfl

theorem on_tHold_runBits : (s.runBits t w).on (tHold t) = s.on (tHold t) := by
  rw [State.on, State.runBits, rd_wr_same _ _ _ (by simp [tHold])]
  cases s.on (tHold t) <;> rfl

end RunBits

/-! Release (R35). -/

/-- The offline marks of the crates are words of the fault block. -/
theorem offlineFld_crate_ne_tileReg (t : TileId) (b : Nat) : (offlineFld 2 (t / 64)).a ≠ tileReg t b := by
  have := t.isLt
  simp [offlineFld, tileReg]
  omega

theorem mayRelease_congr {s u : State} {t : TileId} (h : OnlyRegs [tileReg t 4] s u) : u.mayRelease t = s.mayRelease t := by
  have hs : u.rd (shScratch t) = s.rd (shScratch t) := h.rd (by simpa [shScratch] using hubReg_ne_tileReg (by decide) (by decide))
  have ho : u.offline 2 (t / 64) = s.offline 2 (t / 64) := h.on (by simpa using offlineFld_crate_ne_tileReg t 4)
  have hb : u.rd (tBase t) = s.rd (tBase t) := h.rd (by simp [tBase])
  have hl : u.rd (tLimit t) = s.rd (tLimit t) := h.rd (by simp [tLimit])
  rw [State.mayRelease, scratchWays_congr hs, scratchEnd_congr hs, ho, hb, hl]
  rfl

/-- R35's conditions. -/
theorem mayRelease_iff (s : State) (t : Nat) : s.mayRelease t = true ↔ 1 ≤ (s.scratchWays t).length ∧ s.rd (tBase t) < s.rd (tLimit t) ∧
    0x1000 ≤ 1024 * s.rd (tBase t) ∧ 1024 * s.rd (tLimit t) ≤ s.scratchEnd t ∧ s.offline 2 (t / 64) = false := by
  have h4 : 4 ≤ s.rd (tBase t) ↔ 0x1000 ≤ 1024 * s.rd (tBase t) := by omega
  simp [State.mayRelease, h4, and_assoc]

/-- The tile of a released core: it starts at the code window's base, and is remembered as woken where it is parked. -/
def State.releasedTile (s : State) (t : Nat) : Tile :=
  { s.tile t with
    cpu := { Tile.fresh.cpu with pc := BitVec.ofNat 32 (1024 * s.rd (tBase t)) }, woken := s.on (tParked t) || (s.tile t).woken }

/-- A tile's HOLD and STATE. -/
def State.setRun01 (s : State) (t hold st : Nat) : State := (s.wr (tHold t) hold).wr (tState t) st

section HoldState
variable (s : State) (t hold st : Nat)

theorem onlyRegs_setRun01 : OnlyRegs [tileReg t 4] s (s.setRun01 t hold st) :=
  (onlyRegs_wr s (tHold t) hold).trans (onlyRegs_wr _ (tState t) st)

theorem on_tHold_setRun01 : (s.setRun01 t hold st).on (tHold t) = decide (hold % 2 = 1) := by
  rw [State.setRun01, on_wr_of_apart _ _ (by simp [tState]) (by simp [Fld.Apart, tHold, tState]), State.on,
    rd_wr_same _ _ _ (by simp [tHold])]
  rfl

theorem rd_tState_setRun01 : (s.setRun01 t hold st).rd (tState t) = st % 16 := rd_wr_same _ (tState t) st (by simp [tState])

end HoldState

/-- Waking the core of a tile whose STATE has just been written: in WFI it runs, parked it is remembered as woken. -/
theorem wakeCore_setRun01_run (s : State) (t hold : Nat) : (s.setRun01 t hold 1).wakeCore t = s.setRun01 t hold 1 := by
  rw [State.wakeCore, rd_tState_setRun01]; rfl

theorem wakeCore_setRun01_parked (s : State) (t hold : Nat) :
    (s.setRun01 t hold 4).wakeCore t = (s.setTile t { s.tile t with woken := true }).setRun01 t hold 4 := by
  rw [State.wakeCore, rd_tState_setRun01]; rfl

/-- What a release does to a tile that may leave reset. -/
def State.release (s : State) (t : Nat) : State :=
  let u := s.setTile t { s.tile t with cpu := { Tile.fresh.cpu with pc := BitVec.ofNat 32 (1024 * s.rd (tBase t)) } }
  (u.setRun01 t 0 (if u.on (tParked t) then 4 else 1)).wakeCore t

theorem runWrite_held {s : State} {t : Nat} (w : BitVec 32) (hh : s.on (tHold t) = true) : s.runWrite t w =
    if w.getLsbD 0 then s.runBits t w
    else if (s.runBits t w).mayRelease t then (s.runBits t w).release t else (s.runBits t w).wr (tRefused t) 1 := by
  simp only [State.runWrite, State.runBits, hh, if_true]
  rfl

theorem runWrite_released {s : State} {t : Nat} (w : BitVec 32) (hh : s.on (tHold t) = false) : s.runWrite t w =
    if w.getLsbD 0 then ((s.runBits t w).wakeCore t).holdTile t else (s.runBits t w).wakeCore t := by
  simp only [State.runWrite, State.runBits, hh, Bool.false_eq_true, if_false]

theorem release_eq (s : State) (t : Nat) :
    s.release t = (s.setTile t (s.releasedTile t)).setRun01 t 0 (if s.on (tParked t) then 4 else 1) := by
  by_cases hp : s.on (tParked t) = true
  · simp only [State.release, State.on_setTile, State.releasedTile, hp, if_true, Bool.true_or]
    rw [wakeCore_setRun01_parked, State.tile_setTile_same, State.setTile_setTile]
  · simp only [State.release, State.on_setTile, State.releasedTile, hp, Bool.false_or]
    exact wakeCore_setRun01_run _ t 0

theorem releasedTile_runBits (s : State) (t : TileId) (w : BitVec 32) : (s.runBits t w).releasedTile t = s.releasedTile t := by
  have hb := onlyRegs_runBits s t w
  rw [State.releasedTile, on_tParked_runBits, hb.tile, hb.rd (f := tBase t) (by simp [tBase])]
  rfl

theorem OnlyRegs.setTile {as : List Nat} {s u : State} (h : OnlyRegs as s u) (t : Nat) (x : Tile) :
    OnlyRegs as (s.setTile t x) (u.setTile t x) :=
  ⟨fun a ha => h.1 a ha, by rw [h.2]; rfl⟩

theorem mask_release_getLsbD (w : BitVec 32) : (w &&& 0xFFFFFFFE#32).getLsbD 0 = false := by simp

theorem mask_hold_getLsbD (w : BitVec 32) : (w ||| 1#32).getLsbD 0 = true := by simp

/-- A gated clock is all that an access changes of a tile that is not gated. -/
theorem ungate_of_state {s : State} {t : Nat} (h : s.rd (tState t) ≠ 3) : s.ungate t = s := if_neg h

/-- Settles O6: the two branches of a release, whose conditions are those of R35. -/
theorem tileLeavesResetOnlyWithScratchAndCode : Obligations.TileLeavesResetOnlyWithScratchAndCode := by
  intro src t w s hw hl hh
  have hacc : exec (.tileRunRelease src t w) s =
      .next (((s.unheld src.unit).runWrite t (w &&& 0xFFFFFFFE#32)).ungate t) := by
    rw [exec_tileRunRelease, execTileRunRelease, if_pos hw, tileAccess_live (tileRegWriter_of_mayWrite (by decide) hw) hl]
  generalize hs0 : s.unheld src.unit = s0 at hacc
  have hh0 : s0.on (tHold t) = true := by rw [← hs0]; exact hh
  rw [runWrite_held _ hh0, mask_release_getLsbD, mayRelease_congr (onlyRegs_runBits s0 t _)] at hacc
  have hm0 : s0.mayRelease t = s.mayRelease t := by rw [← hs0]; rfl
  have hbits := onlyRegs_runBits s0 t (w &&& 0xFFFFFFFE#32)
  refine ⟨fun hok => ?_, fun hbad => ?_⟩
  · have hm : s0.mayRelease t = true := hm0.trans ((mayRelease_iff s t).2 hok)
    simp only [hm, Bool.false_eq_true, if_false, if_true, release_eq, releasedTile_runBits, on_tParked_runBits] at hacc
    have hp0 : s0.on (tParked t) = s.on (tParked t) := by rw [← hs0]; rfl
    have hv : s0.releasedTile t = s.releasedTile t := by rw [← hs0]; rfl
    rw [hp0, hv] at hacc
    have hst : ∀ u : State, (u.setRun01 t 0 (if s.on (tParked t) then 4 else 1)).rd (tState t) = if s.on (tParked t) then 4 else 1 := by
      intro u
      rw [rd_tState_setRun01]
      split <;> rfl
    rw [ungate_of_state (by rw [hst]; split <;> decide)] at hacc
    refine ⟨_, s.releasedTile t, hacc, ?_, hst _, ?_, ?_, rfl⟩
    · rw [on_tHold_setRun01]; rfl
    · rw [(onlyRegs_setRun01 _ _ _ _).tile, State.tile_setTile_same]; rfl
    · exact (hbits.setTile t _).trans (onlyRegs_setRun01 _ _ _ _)
  · have hm : s0.mayRelease t = false := by
      rw [hm0, Bool.eq_false_iff, Ne, mayRelease_iff]
      rintro ⟨h1, h2, h3, h4, -⟩
      rcases hbad with h | h | h | h
      · simp [h] at h1
      all_goals omega
    simp only [hm, Bool.false_eq_true, if_false] at hacc
    refine ⟨_, hacc, ?_, ?_, ?_⟩
    · rw [on_ungate_of_apart _ _ (by simp [Fld.Apart, tState, tHold]),
        on_wr_of_apart _ _ (by simp [tRefused]) (by simp [Fld.Apart, tRefused, tHold]), on_tHold_runBits, hh0]
    · rw [on_ungate_of_apart _ _ (by simp [Fld.Apart, tState, tRefused]), State.on, rd_wr_same _ _ _ (by simp [tRefused])]
      rfl
    · exact (hbits.trans (onlyRegs_wr _ (tRefused t) 1)).trans (onlyRegs_ungate _ t)

/-! Hold (Table 2.12). -/

/-- The tile of a core held in reset. -/
def Tile.heldReset (x : Tile) : Tile :=
  { x with
    cpu := Tile.fresh.cpu, eng0 := .idle, eng1 := .idle, eng2 := .idle, tlb := [], fill := none, fillBad := none, woken := false }

/-- The queue registers of a tile, all 0. -/
def State.clearQueues (s : State) (t : Nat) : State :=
  [0, 1, 2].foldl (fun s e => (s.setReg (tileReg t (0x20 + 4 * e)) 0#32).setReg (tileReg t (0x30 + 4 * e)) 0#32) s

@[simp] theorem State.tile_clearQueues (s : State) (t k : Nat) : (s.clearQueues t).tile k = s.tile k := by simp [State.clearQueues]
@[simp] theorem State.clearQueues_shelf (s : State) (t : Nat) : (s.clearQueues t).shelf = s.shelf := by simp [State.clearQueues]
@[simp] theorem State.clearQueues_cellar (s : State) (t : Nat) : (s.clearQueues t).cellar = s.cellar := by simp [State.clearQueues]
@[simp] theorem State.clearQueues_incs (s : State) (t : Nat) : (s.clearQueues t).incs = s.incs := by simp [State.clearQueues]
@[simp] theorem State.clearQueues_tiles (s : State) (t : Nat) : (s.clearQueues t).tiles = s.tiles := by simp [State.clearQueues]

@[simp] theorem State.tile_leaveWalks (s : State) (t k : Nat) (rqs : List Nat) : (s.leaveWalks t rqs).tile k = s.tile k := rfl
@[simp] theorem State.reg_leaveWalks (s : State) (t a : Nat) (rqs : List Nat) : (s.leaveWalks t rqs).reg a = s.reg a := rfl
@[simp] theorem State.leaveWalks_shelf (s : State) (t : Nat) (rqs : List Nat) : (s.leaveWalks t rqs).shelf = s.shelf := rfl
@[simp] theorem State.leaveWalks_cellar (s : State) (t : Nat) (rqs : List Nat) : (s.leaveWalks t rqs).cellar = s.cellar := rfl
@[simp] theorem State.leaveWalks_incs (s : State) (t : Nat) (rqs : List Nat) : (s.leaveWalks t rqs).incs = s.incs := rfl
@[simp] theorem State.leaveWalks_tiles (s : State) (t : Nat) (rqs : List Nat) : (s.leaveWalks t rqs).tiles = s.tiles := rfl

theorem reg_clearQueues (s : State) (t : Nat) (e : Fin 3) :
    (s.clearQueues t).reg (tileReg t (0x20 + 4 * e)) = 0#32 ∧ (s.clearQueues t).reg (tileReg t (0x30 + 4 * e)) = 0#32 := by
  match e with
  | 0 => constructor <;> simp (disch := simp) [State.clearQueues, reg_setReg_other]
  | 1 => constructor <;> simp (disch := simp) [State.clearQueues, reg_setReg_other]
  | 2 => constructor <;> simp (disch := simp) [State.clearQueues, reg_setReg_other]

/-- The block of a requester ends. -/
def State.unblocked (s : State) (n : Nat) : State := { s with blocked := s.blocked.filter fun b => decide (b ≠ n) }

@[simp] theorem State.tile_unblocked (s : State) (n k : Nat) : (s.unblocked n).tile k = s.tile k := rfl
@[simp] theorem State.reg_unblocked (s : State) (n a : Nat) : (s.unblocked n).reg a = s.reg a := rfl
@[simp] theorem State.rd_unblocked (s : State) (n : Nat) (f : Fld) : (s.unblocked n).rd f = s.rd f := rfl
@[simp] theorem State.on_unblocked (s : State) (n : Nat) (f : Fld) : (s.unblocked n).on f = s.on f := rfl
@[simp] theorem State.unblocked_shelf (s : State) (n : Nat) : (s.unblocked n).shelf = s.shelf := rfl
@[simp] theorem State.unblocked_cellar (s : State) (n : Nat) : (s.unblocked n).cellar = s.cellar := rfl
@[simp] theorem State.unblocked_incs (s : State) (n : Nat) : (s.unblocked n).incs = s.incs := rfl

/-- A hold of a tile whose mover has nothing in flight, up to the end of chunks that others have in flight for it. -/
def State.heldHere (s : State) (t : Nat) : State :=
  (((s.setTile t (s.tile t).heldReset).leaveWalks t [2 * t, 2 * t + 1]).clearQueues t).setRun01 t 1 0

theorem holdTile_noFlight {s : State} {t : Nat} (h : ∀ r, (s.tile t).eng2.run = some r → r.flight = []) :
    s.holdTile t = ((s.heldHere t).sideReset fun u => decide (u = t)).unblocked (2 ^ 24 + t) := by
  unfold State.holdTile
  cases hr : (s.tile t).eng2.run with
  | none => rfl
  | some r => simp only [h r hr, List.foldl_nil]; rfl

/-- State `u` is state `s` but for tiles other than `t`. -/
structure TilesOnly (t : Nat) (s u : State) : Prop where
  tile : u.tile t = s.tile t
  regs : u.regs = s.regs
  shelf : u.shelf = s.shelf
  cellar : u.cellar = s.cellar
  incs : u.incs = s.incs

theorem TilesOnly.refl (t : Nat) (s : State) : TilesOnly t s s := ⟨rfl, rfl, rfl, rfl, rfl⟩

theorem TilesOnly.setTile {t : Nat} {s u : State} (h : TilesOnly t s u) {k : Nat} (x : Tile) (hk : k ≠ t) :
    TilesOnly t s (u.setTile k x) :=
  ⟨(State.tile_setTile_other u x hk.symm).trans h.tile, h.regs, h.shelf, h.cellar, h.incs⟩

theorem TilesOnly.reg {t : Nat} {s u : State} (h : TilesOnly t s u) (a : Nat) : u.reg a = s.reg a := by
  simp only [State.reg, h.regs]

/-- A reset of a crossing's side changes the movers that have chunks in flight only. -/
theorem sideReset_frame {s : State} {t : Nat} (p : Nat → Bool) (h : ∀ q ∈ s.tiles, q.1 = t → q.2.eng2.run = none) :
    TilesOnly t s (s.sideReset p) := by
  refine List.foldlRecOn (motive := TilesOnly t s) _ _ (.refl t s) fun u hu q hq => ?_
  split
  · next r hr =>
    split
    · exact hu
    · have hne : q.1 ≠ t := fun e => by rw [h q hq e] at hr; cases hr
      exact hu.setTile _ hne
  · exact hu

theorem eq_of_mem_putMap {α : Type} [DecidableEq α] {d : α} {m : List (Nat × α)} {k : Nat} {v : α} {q : Nat × α}
    (h : q ∈ putMap d m k v) (hk : q.1 = k) : q.2 = v := by
  unfold putMap at h
  split at h
  · exact absurd hk (mem_delMap h).2
  · rcases mem_insMap h with rfl | h
    · rfl
    · exact absurd hk (mem_delMap h).2

/-- What a hold leaves: the tile at its reset, its queues empty and its registers saying so, and every byte and increment as it was. -/
structure HeldAt (t : TileId) (s u : State) : Prop where
  hold : u.on (tHold t) = true
  state : u.rd (tState t) = 0
  tile : u.tile t = (s.tile t).heldReset
  queues : ∀ e : Fin 3, u.reg (tileReg t (0x20 + 4 * e)) = 0#32 ∧ u.reg (tileReg t (0x30 + 4 * e)) = 0#32
  shelf : u.shelf = s.shelf
  cellar : u.cellar = s.cellar
  incs : u.incs = s.incs

theorem heldAt_heldHere (s : State) (t : TileId) : HeldAt t s (s.heldHere t) where
  hold := by rw [State.heldHere, on_tHold_setRun01]; rfl
  state := by rw [State.heldHere, rd_tState_setRun01]
  tile := by rw [State.heldHere, (onlyRegs_setRun01 _ _ _ _).tile]; simp
  queues e := by
    have h4 : ∀ b, b ≠ 4 → tileReg t b ∉ [tileReg t 4] := fun b hb => by simpa using hb
    rw [State.heldHere, (onlyRegs_setRun01 _ _ _ _).reg (h4 _ (by omega)), (onlyRegs_setRun01 _ _ _ _).reg (h4 _ (by omega))]
    exact reg_clearQueues _ t e
  shelf := by rw [State.heldHere, (onlyRegs_setRun01 _ _ _ _).shelf]; simp
  cellar := by rw [State.heldHere, (onlyRegs_setRun01 _ _ _ _).cellar]; simp
  incs := by rw [State.heldHere, (onlyRegs_setRun01 _ _ _ _).incs]; simp

theorem heldHere_noRun {s : State} {t : Nat} {q : Nat × Tile} (hq : q ∈ (s.heldHere t).tiles) (ht : q.1 = t) : q.2.eng2.run = none := by
  have htiles : (s.heldHere t).tiles = putMap Tile.fresh s.tiles t (s.tile t).heldReset := by
    rw [State.heldHere, (onlyRegs_setRun01 _ _ _ _).tiles]; simp [State.setTile]
  rw [htiles] at hq
  have h : q.2 = (s.tile t).heldReset := eq_of_mem_putMap hq ht
  rw [h]; rfl

theorem heldAt_holdTile {s : State} {t : TileId} (h : ∀ r, (s.tile t).eng2.run = some r → r.flight = []) :
    HeldAt t s (s.holdTile t) := by
  have hk := heldAt_heldHere s t
  have hs := sideReset_frame (s := s.heldHere t) (t := t) (fun u => decide (u = (t : Nat))) fun q => heldHere_noRun
  rw [holdTile_noFlight h]
  constructor
  case hold => rw [State.on_unblocked, State.on, State.rd, hs.reg]; exact hk.hold
  case state => rw [State.rd_unblocked, State.rd, hs.reg]; exact hk.state
  case tile => rw [State.tile_unblocked, hs.tile, hk.tile]
  case queues => intro e; rw [State.reg_unblocked, State.reg_unblocked, hs.reg, hs.reg]; exact hk.queues e
  case shelf => rw [State.unblocked_shelf, hs.shelf, hk.shelf]
  case cellar => rw [State.unblocked_cellar, hs.cellar, hk.cellar]
  case incs => rw [State.unblocked_incs, hs.incs, hk.incs]

/-! Waking a core changes STATE or the note that it was woken. -/

theorem wakeCore_cases (s : State) (t : Nat) : s.wakeCore t = s.wr (tState t) 1 ∨
    s.wakeCore t = s.setTile t { s.tile t with woken := true } ∨ s.wakeCore t = s := by
  unfold State.wakeCore
  split
  · exact .inl rfl
  · split
    · exact .inr (.inl rfl)
    · exact .inr (.inr rfl)

@[simp] theorem State.wakeCore_shelf (s : State) (t : Nat) : (s.wakeCore t).shelf = s.shelf := by
  rcases wakeCore_cases s t with h | h | h <;> rw [h] <;> rfl
@[simp] theorem State.wakeCore_cellar (s : State) (t : Nat) : (s.wakeCore t).cellar = s.cellar := by
  rcases wakeCore_cases s t with h | h | h <;> rw [h] <;> rfl
@[simp] theorem State.wakeCore_incs (s : State) (t : Nat) : (s.wakeCore t).incs = s.incs := by
  rcases wakeCore_cases s t with h | h | h <;> rw [h] <;> rfl

theorem wakeCore_eng2 (s : State) (t : Nat) : ((s.wakeCore t).tile t).eng2 = (s.tile t).eng2 := by
  rcases wakeCore_cases s t with h | h | h <;> rw [h]
  · rfl
  · simp

/-- A field of a word that reads 0 is 0. -/
theorem rd_of_reg_zero {s : State} {f : Fld} (h : s.reg f.a = 0#32) : s.rd f = 0 := by
  simp [State.rd, h, bitsAt]

theorem on_of_reg_zero {s : State} {f : Fld} (h : s.reg f.a = 0#32) : s.on f = false := by
  simp [State.on, rd_of_reg_zero h]

/-- What a held tile's engines and registers read. -/
theorem HeldAt.engine {t : TileId} {s u : State} (h : HeldAt t s u) (e : Fin 3) :
    (u.tile t).eng e = .idle ∧ u.rd (qCount t e) = 0 ∧ u.on (qBusy t e) = false ∧ u.on (qHalted t e) = false := by
  obtain ⟨hp, hs⟩ := h.queues e
  refine ⟨?_, rd_of_reg_zero hp, on_of_reg_zero hs, on_of_reg_zero hs⟩
  rw [h.tile]
  match e with
  | 0 => rfl
  | 1 => rfl
  | 2 => rfl

/-- A write of HOLD = 1 to a released tile (Table 2.12). -/
theorem heldAt_runWrite {s : State} {t : TileId} {w : BitVec 32} (hw : w.getLsbD 0 = true) (hh : s.on (tHold t) = false)
    (hf : ∀ r, (s.tile t).eng2.run = some r → r.flight = []) : ∃ u, HeldAt t u (s.runWrite t w) ∧
      u.shelf = s.shelf ∧ u.cellar = s.cellar ∧ u.incs = s.incs := by
  have hb := onlyRegs_runBits s t w
  rw [runWrite_released w hh, if_pos hw]
  refine ⟨_, heldAt_holdTile fun r hr => ?_, ?_, ?_, ?_⟩
  · rw [wakeCore_eng2, hb.tile] at hr
    exact hf r hr
  · rw [State.wakeCore_shelf, hb.shelf]
  · rw [State.wakeCore_cellar, hb.cellar]
  · rw [State.wakeCore_incs, hb.incs]

/-- An access of a held tile changes nothing more. -/
theorem HeldAt.ungate {t : TileId} {s u : State} (h : HeldAt t s u) : u.ungate t = u := ungate_of_state (by rw [h.state]; decide)

/-! The code window and the end of WFI (R46, R70). -/

theorem rd_codeWrite (s : State) (t : TileId) (w : BitVec 32) : (s.plainWrite (tileReg t 12) w).rd (tBase t) = w.toNat % 256 ∧
    (s.plainWrite (tileReg t 12) w).rd (tLimit t) = w.toNat / 65536 % 256 := by
  have hb := rd_plainWrite_writable s (f := tBase t) w (regRow_tileCode t) (by simp [tBase]) (by simp only [tBase]; decide)
  have hl := rd_plainWrite_writable s (f := tLimit t) w (regRow_tileCode t) (by simp [tLimit]) (by simp only [tLimit]; decide)
  constructor
  · refine hb.trans ?_
    simp [tBase, bitsAt]
  · refine hl.trans ?_
    simp [tLimit, bitsAt]

theorem wakeCore_waiting {s : State} {t : Nat} (h : s.rd (tState t) = 2 ∨ s.rd (tState t) = 3) : s.wakeCore t = s.wr (tState t) 1 :=
  if_pos h

/-- Settles O7: HOLD takes everything of the tile to its reset, and the two other writes are theirs alone. -/
theorem tileHoldAndCodeWrites : Obligations.TileHoldAndCodeWrites := by
  refine ⟨?hold, ?code, ?wake⟩
  case hold =>
    intro src t w s hw hl hh hf
    have hacc : exec (.tileRunHold src t w) s = .next (((s.unheld src.unit).runWrite t (w ||| 1#32)).ungate t) := by
      rw [exec_tileRunHold, execTileRunHold, if_pos hw, tileAccess_live (tileRegWriter_of_mayWrite (by decide) hw) hl]
    obtain ⟨u, hu, hshelf, hcellar, hincs⟩ := heldAt_runWrite (s := s.unheld src.unit) (mask_hold_getLsbD w) hh hf
    rw [hu.ungate] at hacc
    exact ⟨_, hacc, hu.hold, hu.state, by rw [hu.tile]; rfl, hu.engine, hu.shelf.trans hshelf, hu.cellar.trans hcellar, hu.incs.trans hincs⟩
  case code =>
    intro src t w s hw hl
    have hacc : exec (.tileCodeWrite src t w) s =
        .next ((if s.on (tHold t) then (s.unheld src.unit).plainWrite (tileReg t 12) w else s.unheld src.unit).ungate t) := by
      rw [exec_tileCodeWrite, execTileCodeWrite, if_pos hw, tileAccess_live (tileRegWriter_of_mayWrite (by decide) hw) hl]
      rfl
    refine ⟨fun hh => ?_, fun hh => ?_⟩
    · rw [if_pos hh] at hacc
      have hp := onlyRegs_plainWrite (s.unheld src.unit) (tileReg t 12) w
      obtain ⟨hb, hlim⟩ := rd_codeWrite (s.unheld src.unit) t w
      have hst : ((s.unheld src.unit).plainWrite (tileReg t 12) w).rd (tState t) = s.rd (tState t) := hp.rd (by simp [tState])
      have hlow : ((s.unheld src.unit).plainWrite (tileReg t 12) w).rd ⟨tileReg t 4, 0, 4⟩ = s.rd ⟨tileReg t 4, 0, 4⟩ := hp.rd (by simp)
      refine ⟨_, hacc, ?_, ?_, ?_, ?_, ?_⟩
      · rw [rd_ungate_of_apart _ _ (by simp [Fld.Apart, tState, tBase]), hb]
      · rw [rd_ungate_of_apart _ _ (by simp [Fld.Apart, tState, tLimit]), hlim]
      · rw [rd_tState_ungate, hst]
      · rw [rd_ungate_of_apart _ _ (by simp [Fld.Apart, tState]), hlow]
      · exact (hp.mono (by simp)).trans ((onlyRegs_ungate _ t).mono (by simp))
    · rw [if_neg (by simp [hh])] at hacc
      exact hacc
  case wake =>
    intro t s hl hm hst
    rw [exec_wfiWake, execWfiWake, hl, hm]
    exact congrArg Host.Outcome.next (wakeCore_waiting hst)

end Sys2Proof.Machine
end

section
/-! SUPPORT. Tallies: the increments on their way, what arrives, and register traffic to the place of a tally; settles O25 (R72, R230 to
R236, R240). -/
namespace Sys2Proof.Machine

/-! What each command is. -/

theorem exec_tallySend (t : TileId) (w : BitVec 32) (s : State) : exec (.tallySend t w) s = execTallySend t w s := rfl
theorem exec_tallyIncrementArrival (ps : List Nat) (s : State) :
    exec (.tallyIncrementArrival ps) s = execTallyIncrementArrival ps s := rfl
theorem exec_tallyAdd (src : Src) (l : TallyLoc) (w : BitVec 32) (s : State) : exec (.tallyAdd src l w) s = execTallyAdd src l w s := rfl
theorem exec_tallyValueWrite (src : Src) (l : TallyLoc) (w : BitVec 32) (s : State) :
    exec (.tallyValueWrite src l w) s = execTallyValueWrite src l w s := rfl
theorem exec_tallyConfigWrite (src : Src) (f : TallyCfg) (w : BitVec 32) (s : State) :
    exec (.tallyConfigWrite src f w) s = execTallyConfigWrite src f w s := rfl

/-! The access codes of the register map (Table 23.3). -/

/-- Does no bit of a word both take the written value and clear by 1? -/
def RegRow.codesApart (r : RegRow) : Bool := (List.range 32).all fun i => !(bitAt r.rw i && bitAt r.w1c i)

/-- The rows of the tally block (Tables 8.10 to 8.12). -/
theorem rowsFor_tally {a : Nat} (hlo : 0x400000 ≤ a) (hhi : a < 0x440000) : rowsFor a = (rowsTly, a) := by
  have hno : ∀ b, b ≤ 0x400000 → ¬ a < b := fun b hb => by omega
  simp [rowsFor, hhi, hno]

/-- Where a configuration word of a tally lies: in the tally block or in a crate's window. -/
theorem addr_of_cfg {f : TallyCfg} {a : Nat} (ha : f.addr = some a) (he : f.owner.exists' = true) :
    (0x400000 ≤ a ∧ a < 0x440000) ∨ (0x1000000 ≤ a ∧ a < 0x1C00000) := by
  cases f with
  | word l i =>
    cases l with
    | tile t n => simp [TallyCfg.addr] at ha
    | crate c n =>
      simp only [TallyCfg.addr, Option.ite_none_right_eq_some, Option.some.injEq, crateReg] at ha
      simp only [TallyCfg.owner, TallyLoc.exists', Bool.and_eq_true, decide_eq_true_eq] at he
      omega
    | die k n =>
      simp only [TallyCfg.addr, Option.ite_none_right_eq_some, Option.some.injEq] at ha
      simp only [TallyCfg.owner, TallyLoc.exists', Bool.and_eq_true, decide_eq_true_eq] at he
      omega
    | pkg n =>
      simp only [TallyCfg.addr, Option.ite_none_right_eq_some, Option.some.injEq] at ha
      simp only [TallyCfg.owner, TallyLoc.exists', decide_eq_true_eq] at he
      omega
  | crateMask c m i =>
    simp only [TallyCfg.addr, Option.some.injEq, crateReg] at ha
    have := c.isLt
    omega
  | dieMask k m i =>
    simp only [TallyCfg.addr, Option.some.injEq] at ha
    have := k.isLt
    omega

/-- The codes of such a word are apart. -/
theorem regRow_codesApart {f : TallyCfg} {a : Nat} (ha : f.addr = some a) (he : f.owner.exists' = true) {r : RegRow} (h : regRow a = some r)
    {i : Nat} (hi : i < 32) : ¬ (bitAt r.rw i ∧ bitAt r.w1c i) := by
  have hall : (rowsFor a).1.all RegRow.codesApart = true := by
    rcases addr_of_cfg ha he with ⟨hlo, hhi⟩ | ⟨hlo, hhi⟩
    · rw [rowsFor_tally hlo hhi]
      exact (by decide +kernel : rowsTly.all RegRow.codesApart = true)
    · rw [rowsFor_window hlo hhi]
      split
      · exact (by decide +kernel : rowsCrate.all RegRow.codesApart = true)
      · exact (by decide +kernel : rowsTile.all RegRow.codesApart = true)
  have hr : r.codesApart = true := List.all_eq_true.1 hall r (List.mem_of_find?_eq_some h)
  simpa [-not_and, not_and_or] using List.all_eq_true.1 hr i (List.mem_range.2 hi)

/-! Increments taken out of those on their way. -/

/-- Which increments are taken depends on their positions only. -/
theorem takeAt_congr {α : Type} {ps qs : List Nat} {xs : List α} (h : ∀ m < xs.length, m ∈ ps ↔ m ∈ qs) : takeAt ps xs = takeAt qs xs := by
  have hm : ∀ q ∈ (List.range xs.length).zip xs, decide (q.1 ∈ ps) = decide (q.1 ∈ qs) := fun q hq =>
    decide_eq_decide.2 (h _ (List.mem_range.1 (List.of_mem_zip hq).1))
  unfold takeAt
  simp only [List.filter_congr hm, List.filter_congr fun q hq => congrArg not (hm q hq)]

/-- The element at one position, and the others in their order. -/
theorem filter_zip_range' {α : Type} (xs : List α) (k n : Nat) {x : α} (h : xs[n]? = some x) :
    (((List.range' k xs.length).zip xs).filter fun q => decide (q.1 = k + n)).map (·.2) = [x] ∧
      (((List.range' k xs.length).zip xs).filter fun q => !decide (q.1 = k + n)).map (·.2) = xs.eraseIdx n := by
  induction xs generalizing k n with
  | nil => simp at h
  | cons y ys ih =>
    rw [List.length_cons, List.range'_succ, List.zip_cons_cons]
    cases n with
    | zero =>
      have hne : ∀ q ∈ (List.range' (k + 1) ys.length).zip ys, q.1 ≠ k := fun q hq e => by
        have := (List.mem_range'_1.1 (List.of_mem_zip hq).1).1
        omega
      have hxy : y = x := by simpa using h
      refine ⟨?_, ?_⟩
      · rw [List.filter_cons_of_pos (by simp), List.filter_eq_nil_iff.2 fun q hq => by simpa using hne q hq, hxy]
        rfl
      · rw [List.filter_cons_of_neg (by simp), List.filter_eq_self.2 fun q hq => by simpa using hne q hq, List.map_snd_zip (by simp)]
        rfl
    | succ n =>
      obtain ⟨h1, h2⟩ := ih (k + 1) n (by simpa using h)
      rw [show k + 1 + n = k + (n + 1) by omega] at h1 h2
      refine ⟨?_, ?_⟩
      · rw [List.filter_cons_of_neg (by simp), h1]
      · rw [List.filter_cons_of_pos (by simp), List.map_cons, h2]
        rfl

theorem takeAt_singleton {α : Type} {xs : List α} {n : Nat} {x : α} (h : xs[n]? = some x) : takeAt [n] xs = ([x], xs.eraseIdx n) := by
  have hz := filter_zip_range' xs 0 n h
  simp only [Nat.zero_add, ← List.range_eq_range'] at hz
  simp only [takeAt, List.mem_singleton, hz]

/-! The arrival of one increment. -/

section Arrival
variable {s : State} {n : Nat} {i : Inc} (h : s.incs[n]? = some i)
include h

/-- One that is held stays where it is. -/
theorem exec_arrival_held (hh : s.incHeld i = true) : exec (.tallyIncrementArrival [n]) s = .next s := by
  rw [exec_tallyIncrementArrival, execTallyIncrementArrival, takeAt_singleton h]
  simp [hh]

/-- Any other is delivered. -/
theorem exec_arrival_one (hh : s.incHeld i = false) :
    exec (.tallyIncrementArrival [n]) s = .next (({ s with incs := s.incs.eraseIdx n }).deliver i i.amount) := by
  rw [exec_tallyIncrementArrival, execTallyIncrementArrival, takeAt_singleton h]
  have hone : ∀ ps, (∀ m < s.incs.length, m ∈ ps ↔ m ∈ [n]) → takeAt ps s.incs = ([i], s.incs.eraseIdx n) := fun ps hps =>
    (takeAt_congr hps).trans (takeAt_singleton h)
  simp only [hh, Bool.false_eq_true, if_false]
  rw [hone _ fun m hm => ?_]
  · rw [List.map_singleton, List.foldl_cons, List.foldl_nil, zero_add]
  · simp only [List.mem_filter, List.mem_range, Bool.and_eq_true, decide_eq_true_eq, List.mem_singleton]
    constructor
    · exact fun hm => hm.2.1
    · rintro rfl
      refine ⟨hm, rfl, ?_⟩
      rw [h]
      simp [hh]

end Arrival

theorem tallyOn_congr {s u : State} (h : u.regs = s.regs) (l : TallyLoc) : u.tallyOn l = s.tallyOn l := by
  have hr : ∀ f, u.rd f = s.rd f := fun f => by rw [State.rd, State.reg, h]; rfl
  cases l <;> simp [State.tallyOn, State.tileOn, State.crateOn, State.domOn, State.domPowered, hr]

/-- A control bundle of the way that is under repair, retraining or moving holds what crosses (R240, R341). -/
theorem legHeld_of_bundle {s : State} {d b : Nat} (hb : b ∈ hubBundles d) (hr : s.rd (seamRole b) = 1) (h1 : 1 ≤ s.rd (seamState b))
    (h3 : s.rd (seamState b) ≤ 3) : s.legHeld d = true := by
  have hl : s.controlLost (hubBundles d) = false := by
    simp only [State.controlLost, Bool.and_eq_false_iff, Bool.not_eq_false']
    refine .inr (List.any_eq_true.2 ⟨b, hb, ?_⟩)
    simp only [hr, Bool.and_eq_true, decide_eq_true_eq]
    exact ⟨trivial, by omega⟩
  have hc : s.controlHeld (hubBundles d) = true := List.any_eq_true.2 ⟨b, hb, by simp [hr, h1, h3]⟩
  simp [State.legHeld, hl, hc]

/-! Register traffic to the place of a tally. -/

/-- A write to a tally whose unit is on and clocked takes effect at once. -/
theorem atPlace_tally {s : State} {l : TallyLoc} (he : l.exists' = true) (ho : s.tallyOn l = true) (hc : s.tallyClocked l = true) (src : Src)
    (act : State → State) : s.atPlace src l.place act = act (s.unheld src.unit) := by
  have hdom : ∀ d, d < 64 → s.domOn d = true → s.atPlace src d act = act (s.unheld src.unit) := by
    intro d hd hon
    have h2 : s.rd (domState d) = 2 := by simpa [State.domOn] using hon
    have hn : ¬ 64 ≤ d := by omega
    simp [State.atPlace, domOfPlace, State.domPowered, State.mustWait, State.clockStopped, State.arouse, hn, h2]
  cases l with
  | tile t n => exact atPlace_crate hc src act
  | crate c n => exact atPlace_crate hc src act
  | die k n =>
    have hk : k < 4 := by simp only [TallyLoc.exists', Bool.and_eq_true, decide_eq_true_eq] at he; exact he.1
    exact hdom (16 + k) (by omega) hc
  | pkg n => exact hdom 22 (by decide) hc

/-- A source that may write a tally runs where the tally's unit does. -/
theorem srcRuns_of_tallyWriter {s : State} {src : Src} {l : TallyLoc} (hw : tallyWriter src l = true) (hc : s.tallyClocked l = true) :
    s.srcRuns src = true := by
  cases src with
  | tile u =>
    cases l with
    | tile t n =>
      have hu : u.val = t := by simpa [tallyWriter] using hw
      subst hu
      exact hc
    | crate c n =>
      have hu : u.val / 64 = c := by simpa [tallyWriter] using hw
      subst hu
      exact hc
    | die k n => simp [tallyWriter] at hw
    | pkg n => simp [tallyWriter] at hw
  | _ => rfl

theorem tallyAccess_now {s : State} {src : Src} {l : TallyLoc} (he : l.exists' = true) (ho : s.tallyOn l = true)
    (hc : s.tallyClocked l = true) (hq : s.tallyWaits src = false) (a : Nat) (w : Word) (act : State → State) :
    s.tallyAccess src a l.place w act = act (s.unheld src.unit) := by
  unfold State.tallyAccess
  split
  · rw [hq]
    exact atPlace_tally he ho hc src act
  · exact atPlace_tally he ho hc src act

/-- Settles O25: the four clauses, from where an increment lands and what holds it. -/
theorem incrementsAreSentHeldOrDropped : Obligations.IncrementsAreSentHeldOrDropped := by
  refine ⟨?send, ?arrive, ?wait, ?config⟩
  case send =>
    intro t w s ho hr hs
    rw [exec_tallySend, execTallySend, ho, hr, hs]
    rfl
  case arrive =>
    intro n s i hi
    refine ⟨fun hl => ?_, fun l hl ho hs => ?_, fun l hl hheld => exec_arrival_held hi ?_⟩
    · have hn : s.incHeld i = false := by simp [State.incHeld, hl]
      have he := exec_arrival_one hi hn
      rw [deliver_invalid _ _ _ hl] at he
      exact ⟨_, _, he, rfl, rd_bump _ tlyDropped (by simp [tlyDropped]), rfl, rfl, fun a ha => (onlyRegs_bump _ tlyDropped).1 a ha, rfl⟩
    · have hn : s.incHeld i = false := by simp [State.incHeld, hl, ho, hs]
      have he := exec_arrival_one hi hn
      rw [deliver_absent { s with incs := s.incs.eraseIdx n } i _ hl ((tallyOn_congr rfl l).trans ho)] at he
      exact ⟨_, _, he, rfl, rd_bump _ tlyAbsent (by simp [tlyAbsent]), rfl, rfl, fun a ha => (onlyRegs_bump _ tlyAbsent).1 a ha, rfl⟩
    · simp only [State.incHeld, hl, Bool.or_eq_true, Bool.and_eq_true, Bool.not_eq_true']
      refine hheld.imp id ?_
      rintro ⟨d, b, hd, hb, hne, hr, h1, h3⟩
      have hleg := legHeld_of_bundle hb hr h1 h3
      simp only [State.seamHolds, hne, ne_eq, not_false_eq_true, decide_true, Bool.true_and, Bool.or_eq_true]
      simp only [List.mem_cons, List.not_mem_nil, or_false] at hd
      rcases hd with rfl | rfl
      · exact .inl hleg
      · exact .inr hleg
  case wait =>
    intro p l w s he hw hq
    refine ⟨?_, ?_⟩
    · rw [exec_tallyAdd, execTallyAdd, he, hw]
      exact congrArg Host.Outcome.next (if_pos hq)
    · rw [exec_tallyValueWrite, execTallyValueWrite, he, hw]
      exact congrArg Host.Outcome.next (if_pos hq)
  case config =>
    intro src f w s a r ha he hw ho hc hr hq
    refine ⟨(s.unheld src.unit).plainWrite a w, ?_, onlyRegs_plainWrite _ a w, fun i hi => ?_⟩
    · rw [exec_tallyConfigWrite, execTallyConfigWrite, ha, he, hw, srcRuns_of_tallyWriter hw hc]
      exact congrArg Host.Outcome.next (tallyAccess_now he ho hc hq a w _)
    · have hx := regRow_codesApart ha he hr hi
      rw [getLsbD_plainWrite _ w hr hi]
      cases h1 : bitAt r.w1c i
      · simp
      · have h0 : bitAt r.rw i = false := by simpa [h1] using hx
        simp [h0]

end Sys2Proof.Machine
end

section
/-! SUPPORT. Parking and the crate clock: LIMIT_MHZ, frequency steps, and what the clock commands leave unchanged; settles O23 (R65 to
R73, Tables 2.12 and 2.14). -/
namespace Sys2Proof.Machine

/-! What each command is. -/

theorem exec_tilePark (t : TileId) (s : State) : exec (.tilePark t) s = execTilePark t s := rfl
theorem exec_tileUnpark (t : TileId) (s : State) : exec (.tileUnpark t) s = execTileUnpark t s := rfl
theorem exec_tileClockGate (t : TileId) (s : State) : exec (.tileClockGate t) s = execTileClockGate t s := rfl
theorem exec_crateClockOffRequest (src : Src) (c : CrateId) (w : BitVec 32) (s : State) :
    exec (.crateClockOffRequest src c w) s = execCrateClockOffRequest src c w s := rfl
theorem exec_crateClockStop (c : CrateId) (s : State) : exec (.crateClockStop c) s = execCrateClockStop c s := rfl
theorem exec_crateClockWake (c : CrateId) (s : State) : exec (.crateClockWake c) s = execCrateClockWake c s := rfl
theorem exec_crateClockLost (c : CrateId) (s : State) : exec (.crateClockLost c) s = execCrateClockLost c s := rfl
theorem exec_frequencyStepComplete (c : CrateId) (s : State) :
    exec (.frequencyStepComplete c) s = execFrequencyStepComplete c s := rfl

/-! LIMIT_MHZ. -/

theorem foldl_min_le (f : Nat → Nat) (xs : List Nat) (m : Nat) : xs.foldl (fun m i => min m (f i)) m ≤ m := by
  induction xs generalizing m with
  | nil => exact le_refl m
  | cons x xs ih => exact (ih _).trans (Nat.min_le_left _ _)

/-- The limit fits its field. -/
theorem crateLimit_le (s : State) (c : Nat) : s.crateLimit c ≤ 880 := by
  unfold State.crateLimit
  extract_lets is
  split
  · omega
  · exact foldl_min_le _ _ _

/-- The limit is a function of the tiles' words. -/
theorem crateLimit_congr {s u : State} (h : ∀ t b, b < 0x100 → u.reg (tileReg t b) = s.reg (tileReg t b)) (c : Nat) :
    u.crateLimit c = s.crateLimit c := by
  have hp : ∀ t, u.on (tParked t) = s.on (tParked t) := fun t =>
    congrArg (fun w : Word => decide (bitsAt w.toNat 2 1 = 1)) (h t 4 (by decide))
  have hf : ∀ t, u.rd (tFmax t) = s.rd (tFmax t) := fun t => by simp only [State.rd, tFmax, h t 8 (by decide)]
  simp only [State.crateLimit, hp, hf]

/-- Writes of a crate's clock word and of the step counter touch no word of a tile. -/
theorem clkWord_ne_tileReg (c t : Nat) {b : Nat} (hb : b < 0x100) : tileReg t b ≠ crateReg c 0 ∧ tileReg t b ≠ 0x18018C := by
  simp only [tileReg, crateReg]; omega

/-- State `u` is state `s` but for a crate's clock: its word, its generator's frequency, its step and the count of steps. -/
structure ClockOnly (c : Nat) (s u : State) : Prop where
  reg : ∀ a, a ≠ crateReg c 0 → a ≠ 0x18018C → u.reg a = s.reg a
  tiles : u.tiles = s.tiles

namespace ClockOnly
variable {c : Nat} {s u v : State}

theorem refl (c : Nat) (s : State) : ClockOnly c s s := ⟨fun _ _ _ => rfl, rfl⟩

theorem trans (h : ClockOnly c s u) (k : ClockOnly c u v) : ClockOnly c s v :=
  ⟨fun a h1 h2 => (k.reg a h1 h2).trans (h.reg a h1 h2), k.tiles.trans h.tiles⟩

theorem wr (s : State) {f : Fld} (v : Nat) (hf : f.a = crateReg c 0) : ClockOnly c s (s.wr f v) :=
  ⟨fun _ h1 _ => reg_wr_other s v (by rw [hf]; exact h1), rfl⟩

theorem bumpBy (c : Nat) (s : State) (n : Nat) : ClockOnly c s (s.bumpBy govFsteps n) :=
  ⟨fun _ _ h2 => reg_wr_other s _ h2, rfl⟩

theorem setPll (c : Nat) (s : State) (f : Nat) : ClockOnly c s (s.setPll c f) := by
  unfold State.setPll
  split
  · exact ⟨fun _ _ _ => rfl, rfl⟩
  · exact .wr s f rfl

theorem endStep (c : Nat) (s : State) (f : Nat) : ClockOnly c s (s.endStep c f) :=
  (((show ClockOnly c s (s.setCrate c _) from ⟨fun _ _ _ => rfl, rfl⟩).trans (.setPll c _ f)).trans (.wr _ 0 rfl)).trans (.bumpBy c _ 1)

theorem stepDown (c : Nat) (s : State) (l : Nat) : ClockOnly c s (s.stepDown c l) := by
  have hend : ∀ u, ClockOnly c s u → ClockOnly c s (if l < u.cratePll c then
      (u.setPll c l).bumpBy govFsteps ((u.cratePll c - l + 9) / 10) else u) := fun u hu => by
    split
    · exact (hu.trans (.setPll c u l)).trans (.bumpBy c _ _)
    · exact hu
  unfold State.stepDown
  refine hend _ ?_
  split
  · split
    · exact .endStep c s _
    · exact .refl c s
  · exact .refl c s

theorem tileReg (h : ClockOnly c s u) (t : Nat) {b : Nat} (hb : b < 0x100) : u.reg (tileReg t b) = s.reg (Machine.tileReg t b) :=
  h.reg _ (clkWord_ne_tileReg c t hb).1 (clkWord_ne_tileReg c t hb).2

theorem rd_tile (h : ClockOnly c s u) {f : Fld} {t b : Nat} (hb : b < 0x100) (hf : f.a = Machine.tileReg t b) : u.rd f = s.rd f := by
  rw [State.rd, hf, h.tileReg t hb, ← hf]; rfl

theorem tile (h : ClockOnly c s u) (t : Nat) : u.tile t = s.tile t := by rw [State.tile, h.tiles]; rfl

theorem limit (h : ClockOnly c s u) (d : Nat) : u.crateLimit d = s.crateLimit d := crateLimit_congr (fun t _ hb => h.tileReg t hb) d

end ClockOnly

/-! The frequency of a crate. -/

theorem cratePll_wr (s : State) {f : Fld} (v : Nat) {c : Nat} (hw : f.lo + f.w ≤ 32) (hg : f.a ≠ 0x180008) (hf : f.Apart (crCur c)) :
    (s.wr f v).cratePll c = s.cratePll c := by
  have hl : (s.wr f v).on govLowest = s.on govLowest := on_wr_of_apart s v hw (.inl (by simpa [govLowest] using hg.symm))
  rw [State.cratePll, hl, rd_wr_of_apart s v hw hf]
  rfl

/-- A generator set to a frequency runs no faster. -/
theorem cratePll_setPll_le (s : State) (c f : Nat) : (s.setPll c f).cratePll c ≤ f := by
  unfold State.setPll
  split
  · next h =>
    have h' : ∀ g, ({ s with gov := g } : State).on govLowest = true := fun _ => h
    rw [State.cratePll, if_pos (h' _), lookMap_putMap_same]
  · next h =>
    have h' : (s.wr (crCur c) f).on govLowest = s.on govLowest :=
      on_wr_of_apart s f (by simp [crCur]) (.inl (by simp [govLowest, crCur, crateReg]; omega))
    rw [State.cratePll, if_neg (by rw [h']; exact h), rd_wr_same _ _ _ (by simp [crCur])]
    exact Nat.mod_le _ _

theorem apart_govFsteps_crCur (c : Nat) : govFsteps.Apart (crCur c) := .inl (by simp only [govFsteps, crCur, crateReg]; omega)

/-- After a step down the crate is no faster than the limit (R65). -/
theorem cratePll_stepDown_le (s : State) (c l : Nat) : (s.stepDown c l).cratePll c ≤ l := by
  have hend : ∀ u : State, (if l < u.cratePll c then
      (u.setPll c l).bumpBy govFsteps ((u.cratePll c - l + 9) / 10) else u).cratePll c ≤ l := fun u => by
    split
    · rw [State.bumpBy, cratePll_wr _ _ (by decide) (by decide) (apart_govFsteps_crCur c)]
      exact cratePll_setPll_le u c l
    · omega
  unfold State.stepDown
  exact hend _

/-- Where no step is under way and the governor does not hold the lowest state, a step down is one write of the frequency and of the count. -/
theorem stepDown_idle {s : State} {c l : Nat} (hst : (s.crate c).stepTo = none) (hg : s.on govLowest = false) :
    s.stepDown c l = if l < s.rd (crCur c) then (s.wr (crCur c) l).bumpBy govFsteps ((s.rd (crCur c) - l + 9) / 10) else s := by
  simp only [State.stepDown, hst, State.cratePll, State.setPll, hg, Bool.false_eq_true, if_false]

theorem rd_bumpBy (s : State) (f : Fld) (n : Nat) (h : f.lo + f.w ≤ 32) : (s.bumpBy f n).rd f = min (s.rd f + n) (2 ^ f.w - 1) := by
  rw [State.bumpBy, rd_wr_same s f _ h]
  have : 0 < 2 ^ f.w := Nat.two_pow_pos _
  exact Nat.mod_eq_of_lt (by omega)

section StepDownIdle
variable {s : State} {c l : Nat} (hst : (s.crate c).stepTo = none) (hg : s.on govLowest = false) (hl : l < 1024)
include hst hg

theorem rd_crCur_stepDown (hl : l < 1024) : (s.stepDown c l).rd (crCur c) = min (s.rd (crCur c)) l := by
  rw [stepDown_idle hst hg]
  split
  · next h =>
    rw [State.bumpBy, rd_wr_of_apart _ _ (by decide) (apart_govFsteps_crCur c), rd_wr_same _ _ _ (by simp [crCur])]
    change l % 1024 = _
    omega
  · omega

theorem rd_govFsteps_stepDown :
    (s.stepDown c l).rd govFsteps = min (s.rd govFsteps + (s.rd (crCur c) - l + 9) / 10) (2 ^ 32 - 1) := by
  have hlt : s.rd govFsteps < 2 ^ 32 := rd_lt s govFsteps
  rw [stepDown_idle hst hg]
  split
  · rw [rd_bumpBy _ _ _ (by decide), rd_wr_other _ _ (by simp only [govFsteps, crCur, crateReg]; omega)]
    rfl
  · omega

theorem onlyRegs_stepDown : OnlyRegs [crateReg c 0, 0x18018C] s (s.stepDown c l) := by
  rw [stepDown_idle hst hg]
  split
  · exact ((onlyRegs_wr s (crCur c) l).mono (by simp [crCur])).trans ((onlyRegs_wr _ govFsteps _).mono (by simp [govFsteps]))
  · exact .refl _ _

end StepDownIdle

/-! Parking (R66, R67). -/

theorem tState_apart_crLimit (t c : Nat) : (crLimit c).Apart (tState t) := .inl (by simpa [tState, crLimit] using tileReg_ne_crateReg (by decide) (by decide))
theorem tParked_apart_crLimit (t c : Nat) : (crLimit c).Apart (tParked t) := .inl (by simpa [tParked, crLimit] using tileReg_ne_crateReg (by decide) (by decide))

/-- LIMIT_MHZ brought up to date. -/
def State.showLimit (s : State) (c : Nat) : State := s.wr (crLimit c) (s.crateLimit c)

/-- It reads as the limit is, and the limit is as it was. -/
theorem rd_crLimit_showLimit (s : State) (c : Nat) : (s.showLimit c).rd (crLimit c) = s.crateLimit c := by
  have := crateLimit_le s c
  rw [State.showLimit, rd_wr_same _ _ _ (by simp [crLimit])]
  change s.crateLimit c % 1024 = _
  omega

theorem crateLimit_showLimit (s : State) (c : Nat) : (s.showLimit c).crateLimit c = s.crateLimit c :=
  (ClockOnly.wr (c := c) s _ rfl).limit c

theorem onlyRegs_showLimit (s : State) (c : Nat) : OnlyRegs [crateReg c 0] s (s.showLimit c) := onlyRegs_wr s (crLimit c) _

/-- A tile's STATE written unless it is held. -/
def State.setState (s : State) (t st : Nat) : State := if s.on (tHold t) then s else s.wr (tState t) st

theorem onlyRegs_setState (s : State) (t st : Nat) : OnlyRegs [tileReg t 4] s (s.setState t st) := by
  unfold State.setState
  split
  · exact .refl _ _
  · exact onlyRegs_wr s (tState t) st

theorem rd_tState_setState (s : State) (t : Nat) {st : Nat} (h : st < 16) :
    (s.setState t st).rd (tState t) = if s.on (tHold t) then s.rd (tState t) else st := by
  unfold State.setState
  split
  · rfl
  · rw [rd_wr_same _ _ _ (by simp [tState])]
    exact Nat.mod_eq_of_lt h

theorem on_setState_of_apart (s : State) (t st : Nat) {f : Fld} (h : (tState t).Apart f) : (s.setState t st).on f = s.on f := by
  unfold State.setState
  split
  · rfl
  · exact on_wr_of_apart s st (by simp [tState]) h

/-- A tile's words but TILE.RUN, and every FMAX with them, are no part of STATE: the limit does not follow it. -/
theorem crateLimit_setState (s : State) (t st c : Nat) : (s.setState t st).crateLimit c = s.crateLimit c := by
  have hf : ∀ k, (s.setState t st).rd (tFmax k) = s.rd (tFmax k) := fun k =>
    (onlyRegs_setState s t st).rd (by simp [tFmax, tileReg]; omega)
  have hp : ∀ k, (s.setState t st).on (tParked k) = s.on (tParked k) := fun k =>
    on_setState_of_apart s t st (by simp [Fld.Apart, tState, tParked])
  simp only [State.crateLimit, hp, hf]

theorem cratePll_setState (s : State) (t st c : Nat) : (s.setState t st).cratePll c = s.cratePll c := by
  unfold State.setState
  split
  · rfl
  · exact cratePll_wr _ _ (by simp [tState]) (by simp [tState, tileReg]; omega)
      (.inl (by simpa [tState, crCur] using crateReg_ne_tileReg (by decide) (by decide)))

theorem cratePll_showLimit (s : State) (c : Nat) : (s.showLimit c).cratePll c = s.cratePll c :=
  cratePll_wr _ _ (by simp [crLimit]) (by simp [crLimit, crateReg]; omega) (by simp [Fld.Apart, crLimit, crCur])

theorem execTilePark_idle {t : TileId} {s : State} (hl : s.tileLive t = true) (hk : s.on (tPark t) = true) (hp : s.on (tParked t) = false)
    (hi : s.tileIdle t = true) : exec (.tilePark t) s = .next (((s.wr (tParked t) 1).setState t 4).showLimit (t / 64)) := by
  rw [exec_tilePark, execTilePark, hl, hk, hp, hi]
  rfl

theorem execTileUnpark_free {t : TileId} {s : State} (hl : s.tileLive t = true) (hk : s.on (tPark t) = false) (hp : s.on (tParked t) = true)
    (hf : (s.crate (t / 64)).frozen = false) : exec (.tileUnpark t) s =
      .next (((((s.stepDown (t / 64) (s.rd (tFmax t))).wr (tParked t) 0).showLimit (t / 64)).setTile t
        { s.tile t with woken := false }).setState t (if (s.tile t).woken then 1 else 2)) := by
  have ht : (((s.stepDown (t / 64) (s.rd (tFmax t))).wr (tParked t) 0).showLimit (t / 64)).tile t = s.tile t :=
    (ClockOnly.stepDown (t / 64) s _).tile t
  rw [exec_tileUnpark, execTileUnpark, hl, hk, hp, hf, ← ht]
  rfl

theorem tilePark_idle {t : TileId} {s : State} (hl : s.tileLive t = true) (hk : s.on (tPark t) = true) (hp : s.on (tParked t) = false)
    (hi : s.tileIdle t = true) : ∃ u, exec (.tilePark t) s = .next u ∧ u.on (tParked t) ∧
      u.rd (tState t) = (if s.on (tHold t) then s.rd (tState t) else 4) ∧ u.rd (crLimit (t / 64)) = u.crateLimit (t / 64) ∧
      OnlyRegs [tileReg t 4, crateReg (t / 64) 0] s u := by
  have hhold : (s.wr (tParked t) 1).on (tHold t) = s.on (tHold t) :=
    on_wr_of_apart s 1 (by simp [tParked]) (by simp [Fld.Apart, tParked, tHold])
  have hst : (s.wr (tParked t) 1).rd (tState t) = s.rd (tState t) :=
    rd_wr_of_apart s 1 (by simp [tParked]) (by simp [Fld.Apart, tParked, tState])
  refine ⟨_, execTilePark_idle hl hk hp hi, ?_, ?_, ?_, ?_⟩
  · rw [State.showLimit, on_wr_of_apart _ _ (by simp [crLimit]) (tParked_apart_crLimit _ _),
      on_setState_of_apart _ _ _ (by simp [Fld.Apart, tParked, tState]), State.on, rd_wr_same _ _ _ (by simp [tParked])]
    rfl
  · rw [State.showLimit, rd_wr_of_apart _ _ (by simp [crLimit]) (tState_apart_crLimit _ _), rd_tState_setState _ _ (by decide), hhold, hst]
  · rw [rd_crLimit_showLimit, crateLimit_showLimit]
  · exact (((onlyRegs_wr s (tParked t) 1).mono (by simp [tParked])).trans ((onlyRegs_setState _ t 4).mono (by simp))).trans
      ((onlyRegs_showLimit _ _).mono (by simp))

theorem tileUnpark_free {t : TileId} {s : State} (hl : s.tileLive t = true) (hk : s.on (tPark t) = false) (hp : s.on (tParked t) = true)
    (hf : (s.crate (t / 64)).frozen = false) : ∃ u, exec (.tileUnpark t) s = .next u ∧ u.on (tParked t) = false ∧
      u.rd (tState t) = (if s.on (tHold t) then s.rd (tState t) else if (s.tile t).woken then 1 else 2) ∧
      u.rd (crLimit (t / 64)) = u.crateLimit (t / 64) ∧ u.cratePll (t / 64) ≤ s.rd (tFmax t) ∧
      ((s.crate (t / 64)).stepTo = none → s.on govLowest = false →
        u.rd (crCur (t / 64)) = min (s.rd (crCur (t / 64))) (s.rd (tFmax t)) ∧
        u.rd govFsteps = min (s.rd govFsteps + (s.rd (crCur (t / 64)) - s.rd (tFmax t) + 9) / 10) (2 ^ 32 - 1) ∧
        OnlyRegs [tileReg t 4, crateReg (t / 64) 0, 0x18018C] (s.setTile t { s.tile t with woken := false }) u) := by
  have hd := ClockOnly.stepDown (t / 64) s (s.rd (tFmax t))
  have hpll := cratePll_stepDown_le s (t / 64) (s.rd (tFmax t))
  refine ⟨_, execTileUnpark_free hl hk hp hf, ?_⟩
  generalize hD : s.stepDown (t / 64) (s.rd (tFmax t)) = d at hd hpll
  have hp4 : (tParked t).a = tileReg t 4 := rfl
  -- a field of TILE.RUN apart from PARKED is as it was
  have hrun : ∀ f : Fld, f.a = tileReg t 4 → (tParked t).Apart f → ((d.wr (tParked t) 0).showLimit (t / 64)).rd f = s.rd f := by
    intro f hf hap
    have hlim : (crLimit (t / 64)).Apart f := .inl (by rw [hf]; exact tileReg_ne_crateReg (by decide) (by decide))
    rw [State.showLimit, rd_wr_of_apart _ _ (by simp [crLimit]) hlim, rd_wr_of_apart _ _ (by simp [tParked]) hap]
    exact hd.rd_tile (by decide) hf
  have hhold : ((d.wr (tParked t) 0).showLimit (t / 64)).on (tHold t) = s.on (tHold t) := by
    rw [State.on, hrun (tHold t) rfl (by simp [Fld.Apart, tParked, tHold])]; rfl
  refine ⟨?_, ?_, ?_, ?_, fun hst hg => ⟨?_, ?_, ?_⟩⟩
  · rw [on_setState_of_apart _ _ _ (by simp [Fld.Apart, tParked, tState]), State.on_setTile, State.showLimit,
      on_wr_of_apart _ _ (by simp [crLimit]) (tParked_apart_crLimit _ _), State.on, rd_wr_same _ _ _ (by simp [tParked])]
    rfl
  · rw [rd_tState_setState _ _ (by split <;> decide), State.on_setTile, hhold, State.rd_setTile,
      hrun (tState t) rfl (by simp [Fld.Apart, tParked, tState])]
  · rw [(onlyRegs_setState _ _ _).rd (by simpa [crLimit] using crateReg_ne_tileReg (by decide) (by decide)), State.rd_setTile,
      rd_crLimit_showLimit, crateLimit_setState]
    exact (crateLimit_showLimit _ _).symm
  · rw [cratePll_setState]
    change ((d.wr (tParked t) 0).showLimit (t / 64)).cratePll (t / 64) ≤ _
    rw [cratePll_showLimit, cratePll_wr _ _ (by simp [tParked]) (by simp [tParked, tileReg]; omega)
      (.inl (by simpa [tParked, crCur] using crateReg_ne_tileReg (by decide) (by decide)))]
    exact hpll
  · rw [(onlyRegs_setState _ _ _).rd (by simpa [crCur] using crateReg_ne_tileReg (by decide) (by decide)), State.rd_setTile, State.showLimit,
      rd_wr_of_apart _ _ (by simp [crLimit]) (by simp [Fld.Apart, crLimit, crCur]),
      rd_wr_other _ _ (by simpa [tParked, crCur] using crateReg_ne_tileReg (by decide) (by decide)), ← hD]
    exact rd_crCur_stepDown hst hg (rd_lt s (tFmax t))
  · rw [(onlyRegs_setState _ _ _).rd (by simp [govFsteps, tileReg]; omega), State.rd_setTile, State.showLimit,
      rd_wr_other _ _ (by simp [govFsteps, crLimit, crateReg]; omega), rd_wr_other _ _ (by simp [govFsteps, tParked, tileReg]; omega), ← hD]
    exact rd_govFsteps_stepDown hst hg
  · have hdo : OnlyRegs [crateReg (t / 64) 0, 0x18018C] s d := by rw [← hD]; exact onlyRegs_stepDown hst hg
    have hlim := ((hdo.mono (by simp)).trans ((onlyRegs_wr d (tParked t) 0).mono (by simp [tParked]))).trans
      ((onlyRegs_showLimit (d.wr (tParked t) 0) (t / 64)).mono (bs := [tileReg t 4, crateReg (t / 64) 0, 0x18018C]) (by simp))
    exact (hlim.setTile t _).trans ((onlyRegs_setState _ t _).mono (by simp))

/-- A running tile that is idle gates its clock (R70). -/
theorem tileClockGate_idle {t : TileId} {s : State} (hl : s.tileLive t = true) (hi : s.tileIdle t = true) (h2 : s.rd (tState t) = 2) :
    ∃ u, exec (.tileClockGate t) s = .next u ∧ u.rd (tState t) = 3 ∧ OnlyRegs [tileReg t 4] s u := by
  refine ⟨s.wr (tState t) 3, ?_, rd_wr_same _ _ _ (by simp [tState]), onlyRegs_wr s (tState t) 3⟩
  rw [exec_tileClockGate, execTileClockGate, hl, hi, h2]
  rfl

/-! The clock of a crate (R71 to R73). -/

theorem regRow_crateClk (c : CrateId) : regRow (crateReg c 0) = some ⟨0, 1, 0, 1, 0, 0x10000000, 0, 0, 0x2BC02BC, 0x17FF07FF⟩ := by
  rw [regRow_crateReg c.isLt (by decide)]; rfl

theorem crateClockOffRequest_running {src : Src} {c : CrateId} {w : BitVec 32} {s : State} (hw : s.mayWrite src (crateReg c 0) = true)
    (hr : s.crateRuns c = true) : ∃ u, exec (.crateClockOffRequest src c w) s = .next u ∧ u.on (crOff c) ∧ u.on (crateStopped c) = false ∧
      u.rd (crCur c) = s.rd (crCur c) ∧ OnlyRegs [crateReg c 0] (s.unheld src.unit) u := by
  have hbit : (w ||| 0x10000000#32).getLsbD 28 = true := by simp
  have hoff : bitsAt (w ||| 0x10000000#32).toNat 28 1 = 1 := by
    rw [BitVec.getLsbD, Nat.testBit_eq_decide_div_mod_eq] at hbit
    simpa [bitsAt] using hbit
  refine ⟨(s.unheld src.unit).plainWrite (crateReg c 0) (w ||| 0x10000000#32), ?_, ?_, ?_, ?_, onlyRegs_plainWrite _ _ _⟩
  · rw [exec_crateClockOffRequest, execCrateClockOffRequest, if_pos hw, atPlace_crate hr, State.clkWrite, hbit]
    rfl
  · have h := rd_plainWrite_writable (s.unheld src.unit) (f := crOff c) (w ||| 0x10000000#32) (regRow_crateClk c) (by simp [crOff])
      (by simp only [crOff]; decide)
    exact decide_eq_true (h.trans hoff)
  · have h := rd_plainWrite_readOnly (s.unheld src.unit) (f := crateStopped c) (w ||| 0x10000000#32) (regRow_crateClk c)
      (by simp [crateStopped]) (by simp only [crateStopped]; decide)
    rw [← ((crateRuns_iff s c).1 hr).2.2.1]
    exact congrArg (fun n => decide (n = 1)) h
  · exact rd_plainWrite_readOnly (s.unheld src.unit) (f := crCur c) (w ||| 0x10000000#32) (regRow_crateClk c) (by simp [crCur])
      (by simp only [crCur]; decide)

theorem crateClockStop_idle {c : CrateId} {s : State} (hr : s.crateRuns c = true) (ho : s.on (crOff c) = true ∨ (s.crate c).govOff = true)
    (ht : s.crateTraffic c = false) (hi : ∀ i < 64, s.on (tParked (64 * c + i)) = true ∨ s.tileIdle (64 * c + i) = true) :
    ∃ u, exec (.crateClockStop c) s = .next u ∧ u.on (crateStopped c) ∧ OnlyRegs [crateReg c 0] s u := by
  have hall : ((List.range 64).all fun i => s.on (tParked (64 * c + i)) || s.tileIdle (64 * c + i)) = true := by
    simpa [List.all_eq_true] using hi
  have hoff : (s.on (crOff c) || (s.crate c).govOff) = true := by simpa using ho
  refine ⟨s.wr (crateStopped c) 1, ?_, ?_, onlyRegs_wr s (crateStopped c) 1⟩
  · rw [exec_crateClockStop, execCrateClockStop, hr, hoff, ht, hall]
    rfl
  · rw [State.on, rd_wr_same _ _ _ (by simp [crateStopped])]
    rfl

theorem crateClockWake_stopped {c : CrateId} {s : State} (ho : s.crateOn c = true) (hs : s.on (crateStopped c) = true)
    (hl : (s.crate c).clockLost = false) : ∃ u, exec (.crateClockWake c) s = .next u ∧ u.on (crateStopped c) = false ∧
      u.on (crOff c) = s.on (crOff c) ∧ OnlyRegs [crateReg c 0] s u := by
  refine ⟨s.wr (crateStopped c) 0, ?_, ?_, ?_, onlyRegs_wr s (crateStopped c) 0⟩
  · rw [exec_crateClockWake, execCrateClockWake, ho, hs, hl]
    rfl
  · rw [State.on, rd_wr_same _ _ _ (by simp [crateStopped])]
    rfl
  · exact on_wr_of_apart _ _ (by simp [crateStopped]) (by simp [Fld.Apart, crateStopped, crOff])

theorem crateClockLost_on {c : CrateId} {s : State} (ho : s.crateOn c = true) (hl : (s.crate c).clockLost = false) :
    ∃ u f, exec (.crateClockLost c) s = .next u ∧ u.crateRuns c = false ∧ u.gathered = s.gathered ++ [f] ∧ f.code = 0x0205 ∧
      f.cls = 1 ∧ f.kind = 2 ∧ f.index = (c : Nat) ∧
      u = { s.setCrate c { s.crate c with clockLost := true } with gathered := u.gathered } := by
  have he : exec (.crateClockLost c) s = .next ((s.setCrate c { s.crate c with clockLost := true }).raise 0x0205 2 c []) := by
    rw [exec_crateClockLost, execCrateClockLost, ho, hl]
    rfl
  refine ⟨_, _, he, ?_, rfl, rfl, rfl, rfl, rfl, rfl⟩
  rw [Bool.eq_false_iff, Ne, crateRuns_iff]
  rintro ⟨-, hlost, -⟩
  simp at hlost

/-! Frequency steps (R65, R68). -/

/-- The frequency that a crate moves towards fits its field. -/
theorem stepGoal_le (s : State) (c : Nat) : s.stepGoal c ≤ 880 := by
  unfold State.stepGoal
  split
  · decide
  · exact (Nat.min_le_right _ _).trans (crateLimit_le s c)

theorem ClockOnly.stepGoal {c : Nat} {s u : State} (h : ClockOnly c s u) : u.stepGoal c = s.stepGoal c := by
  have hreg : u.reg (crateReg c 0x30) = s.reg (crateReg c 0x30) := h.reg _ (by simp) (by simp only [crateReg]; omega)
  have ht : u.on (crThrottle c) = s.on (crThrottle c) := congrArg (fun w : Word => decide (bitsAt w.toNat 24 1 = 1)) hreg
  have hs : u.rd (crSet c) = s.rd (crSet c) := congrArg (fun w : Word => bitsAt w.toNat 0 10) hreg
  simp only [State.stepGoal, ht, hs, h.limit]

section EndStep
variable {s : State} {c v : Nat} (hg : s.on govLowest = false)
include hg

/-- The end of a step where the governor does not hold the lowest state. -/
theorem endStep_eq : s.endStep c v =
    (((s.setCrate c { s.crate c with stepTo := none }).wr (crCur c) v).wr (crStepping c) 0).bump govFsteps := by
  have h : (s.setCrate c { s.crate c with stepTo := none }).on govLowest = false := hg
  simp only [State.endStep, State.setPll, h, Bool.false_eq_true, if_false]

theorem rd_crCur_endStep (hv : v < 1024) : (s.endStep c v).rd (crCur c) = v := by
  rw [endStep_eq hg, State.bump, State.bumpBy, rd_wr_of_apart _ _ (by decide) (apart_govFsteps_crCur c),
    rd_wr_of_apart _ _ (by simp [crStepping]) (by simp [Fld.Apart, crStepping, crCur]), rd_wr_same _ _ _ (by simp [crCur])]
  exact Nat.mod_eq_of_lt hv

theorem on_crStepping_endStep : (s.endStep c v).on (crStepping c) = false := by
  have ha : govFsteps.Apart (crStepping c) := .inl (by simp only [govFsteps, crStepping, crateReg]; omega)
  rw [endStep_eq hg, State.bump, State.bumpBy, on_wr_of_apart _ _ (by decide) ha, State.on, rd_wr_same _ _ _ (by simp [crStepping])]
  rfl

theorem rd_govFsteps_endStep : (s.endStep c v).rd govFsteps = min (s.rd govFsteps + 1) (2 ^ 32 - 1) := by
  have h : ∀ f : Fld, f.a = crateReg c 0 → govFsteps.a ≠ f.a := fun f hf => by rw [hf]; simp only [govFsteps, crateReg]; omega
  rw [endStep_eq hg, rd_bump _ _ (by decide), rd_wr_other _ _ (h _ rfl), rd_wr_other _ _ (h _ rfl)]
  rfl

theorem cratePll_endStep (hv : v < 1024) : (s.endStep c v).cratePll c = v := by
  have h : (s.endStep c v).on govLowest = false := by
    have hreg := (ClockOnly.endStep c s v).reg 0x180008 (by simp only [crateReg]; omega) (by decide)
    rw [← hg]
    exact congrArg (fun w : Word => decide (bitsAt w.toNat 0 1 = 1)) hreg
  rw [State.cratePll, h]
  exact rd_crCur_endStep hg hv

theorem stepTo_endStep : ((s.endStep c v).crate c).stepTo = none := by
  rw [endStep_eq hg]
  simp [State.bump, State.bumpBy]

end EndStep

/-- The next step of a crate that is not at the frequency it moves towards. -/
theorem stepCrate_eq {s : State} {c : Nat} (h : (s.crate c).stepTo = none) : s.stepCrate c =
    if s.cratePll c = s.stepGoal c then s
    else (s.setCrate c { s.crate c with stepTo := some (if s.cratePll c < s.stepGoal c then min (s.cratePll c + 10) (s.stepGoal c)
      else max (s.cratePll c - 10) (s.stepGoal c)) }).wr (crStepping c) 1 := by
  simp only [State.stepCrate, h, Option.isSome_none, Bool.false_or, decide_eq_true_eq]

theorem frequencyStepComplete_free {c : CrateId} {s : State} {f g v : Nat} (hst : (s.crate c).stepTo = some f)
    (hf : (s.crate c).frozen = false) (ho : s.crateOn c = true) (hg : s.on govLowest = false) (hgoal : g = s.stepGoal c)
    (hv : v = max (s.rd (crCur c) - 10) (min f g)) : ∃ u, exec (.frequencyStepComplete c) s = .next u ∧ u.rd (crCur c) = v ∧
      u.rd govFsteps = min (s.rd govFsteps + 1) (2 ^ 32 - 1) ∧
      (u.crate c).stepTo = (if v = g then none else some (if v < g then min (v + 10) g else max (v - 10) g)) ∧
      u.on (crStepping c) = decide (v ≠ g) ∧ ∀ a, a ≠ crateReg c 0 → a ≠ 0x18018C → u.reg a = s.reg a := by
  have hcur : s.rd (crCur c) < 2 ^ 10 := rd_lt s (crCur c)
  have hv1024 : v < 1024 := by
    have hg880 : g ≤ 880 := hgoal ▸ stepGoal_le s c
    rw [hv]
    generalize s.rd (crCur c) = n at hcur
    omega
  have hpll : s.cratePll c = s.rd (crCur c) := if_neg (by simp [hg])
  have hend := ClockOnly.endStep c s v
  have he : exec (.frequencyStepComplete c) s = .next ((s.endStep c v).stepCrate c) := by
    rw [exec_frequencyStepComplete, execFrequencyStepComplete, hst, hv, hgoal, ← hpll]
    simp [hf, ho]
  rw [stepCrate_eq (stepTo_endStep hg), cratePll_endStep hg hv1024, hend.stepGoal, ← hgoal] at he
  refine ⟨_, he, ?_⟩
  by_cases hvg : v = g
  · rw [if_pos hvg, if_pos hvg]
    exact ⟨rd_crCur_endStep hg hv1024, rd_govFsteps_endStep hg, stepTo_endStep hg, by rw [on_crStepping_endStep hg]; simp [hvg], hend.reg⟩
  · rw [if_neg hvg, if_neg hvg]
    refine ⟨?_, ?_, by simp, ?_, fun a h1 h2 => ?_⟩
    · rw [rd_wr_of_apart _ _ (by simp [crStepping]) (by simp [Fld.Apart, crStepping, crCur]), State.rd_setCrate]
      exact rd_crCur_endStep hg hv1024
    · rw [rd_wr_other _ _ (by simp only [govFsteps, crStepping, crateReg]; omega), State.rd_setCrate]
      exact rd_govFsteps_endStep hg
    · rw [State.on, rd_wr_same _ _ _ (by simp [crStepping])]
      simp [hvg, crStepping]
    · rw [reg_wr_other _ _ h1, State.reg_setCrate]
      exact hend.reg a h1 h2

/-- Settles O23: one lemma per clause. -/
theorem parkingAndCrateClocks : Obligations.ParkingAndCrateClocks :=
  ⟨fun _ _ hl hk hp hi => tilePark_idle hl hk hp hi,
    fun _ _ hl hk hp hf => tileUnpark_free hl hk hp hf,
    fun _ _ hl hi h2 => tileClockGate_idle hl hi h2,
    fun _ _ _ _ hw hr => crateClockOffRequest_running hw hr,
    fun _ _ hr ho ht hi => crateClockStop_idle hr ho ht hi,
    fun _ _ ho hs hl => crateClockWake_stopped ho hs hl,
    fun _ _ ho hl => crateClockLost_on ho hl,
    fun _ _ _ _ _ hst hf ho hg hgoal hv => frequencyStepComplete_free hst hf ho hg hgoal hv⟩

end Sys2Proof.Machine
end

section
/-! SUPPORT. The engine queues: the two words of a queue, its slots, and the completion of a descriptor; settles O11 (R37 to R43, Tables
2.3 and 2.4). -/
namespace Sys2Proof.Machine

/-! The engines of a tile. -/

@[simp] theorem Tile.eng_setEng_same (x : Tile) (e : Nat) (g : Engine) : (x.setEng e g).eng e = g := by
  unfold Tile.eng Tile.setEng
  split
  · rfl
  · split <;> rfl

theorem State.tile_setEng (s : State) (t e : Nat) (g : Engine) : (s.setEng t e g).tile t = (s.tile t).setEng e g := State.tile_setTile_same _ _ _

@[simp] theorem State.eng_setEng_same (s : State) (t e : Nat) (g : Engine) : ((s.setEng t e g).tile t).eng e = g := by
  rw [State.tile_setEng, Tile.eng_setEng_same]

@[simp] theorem State.reg_setEng (s : State) (t e a : Nat) (g : Engine) : (s.setEng t e g).reg a = s.reg a := rfl
@[simp] theorem State.rd_setEng (s : State) (t e : Nat) (g : Engine) (f : Fld) : (s.setEng t e g).rd f = s.rd f := rfl
@[simp] theorem State.on_setEng (s : State) (t e : Nat) (g : Engine) (f : Fld) : (s.setEng t e g).on f = s.on f := rfl
@[simp] theorem State.setEng_shelf (s : State) (t e : Nat) (g : Engine) : (s.setEng t e g).shelf = s.shelf := rfl
@[simp] theorem State.setEng_cellar (s : State) (t e : Nat) (g : Engine) : (s.setEng t e g).cellar = s.cellar := rfl
@[simp] theorem State.setEng_incs (s : State) (t e : Nat) (g : Engine) : (s.setEng t e g).incs = s.incs := rfl
@[simp] theorem State.setEng_gathered (s : State) (t e : Nat) (g : Engine) : (s.setEng t e g).gathered = s.gathered := rfl

/-! Retiring the oldest slot (R40). -/

theorem onlyRegs_popSlot (s : State) (t e : Nat) : OnlyRegs [tileReg t (0x20 + 4 * e)]
    (s.setEng t e { (s.tile t).eng e with owned := ((s.tile t).eng e).owned.tail }) (s.popSlot t e) :=
  (onlyRegs_wr _ (qHead t e) _).trans (onlyRegs_wr _ (qCount t e) _)

section PopSlot
variable (s : State) (t e : Nat)

theorem rd_qHead_popSlot : (s.popSlot t e).rd (qHead t e) = (s.rd (qHead t e) + 1) % 32 := by
  rw [State.popSlot, State.syncCount, rd_wr_of_apart _ _ (by simp [qCount]) (by simp [Fld.Apart, qCount, qHead]), rd_wr_same _ _ _ (by simp [qHead])]
  rfl

theorem rd_qTail_popSlot : (s.popSlot t e).rd (qTail t e) = s.rd (qTail t e) := by
  rw [State.popSlot, State.syncCount, rd_wr_of_apart _ _ (by simp [qCount]) (by simp [Fld.Apart, qCount, qTail]),
    rd_wr_of_apart _ _ (by simp [qHead]) (by simp [Fld.Apart, qHead, qTail])]
  rfl

theorem eng_popSlot : ((s.popSlot t e).tile t).eng e = { (s.tile t).eng e with owned := ((s.tile t).eng e).owned.tail } := by
  rw [(onlyRegs_popSlot s t e).tile, State.eng_setEng_same]

theorem popSlot_shelf : (s.popSlot t e).shelf = s.shelf := (onlyRegs_popSlot s t e).shelf
theorem popSlot_cellar : (s.popSlot t e).cellar = s.cellar := (onlyRegs_popSlot s t e).cellar
theorem popSlot_incs : (s.popSlot t e).incs = s.incs := (onlyRegs_popSlot s t e).incs

theorem rd_popSlot_other {f : Fld} (h : f.a ≠ tileReg t (0x20 + 4 * e)) : (s.popSlot t e).rd f = s.rd f :=
  (onlyRegs_popSlot s t e).rd (by simpa using h)

end PopSlot

/-! A change of a tally and everything else. -/

theorem setTally_tile (s : State) (l : TallyLoc) (v : Int) (t : Nat) : (s.setTally l v).tile t = s.tile t := by
  unfold State.setTally
  split
  · rfl
  · split <;> rfl

theorem rd_setTally_other (s : State) (l : TallyLoc) (v : Int) {f : Fld} (hv : f.a ≠ l.value.a) (hr : f.a ≠ l.range.a) :
    (s.setTally l v).rd f = s.rd f := by
  unfold State.setTally
  split
  · rw [State.rd_raise, rd_wr_other _ _ hr, rd_wr_other _ _ hv]
  · split
    · rw [State.rd_raise, rd_wr_other _ _ hr, rd_wr_other _ _ hv]
    · exact rd_wr_other _ _ hv

/-- One more in a tally, held at its largest value (R226). -/
theorem rd_addTally_one (s : State) (l : TallyLoc) (hl : l.range.a ≠ l.value.a) :
    (s.addTally l 1).rd l.value = min 0xFFFF (s.rd l.value + 1) := by
  rw [State.addTally, rd_setTally _ _ _ hl]
  split
  · omega
  · split <;> omega

/-! The end of a descriptor (R40, R41). -/

theorem onlyRegs_post (post : List (Nat × Word)) (s : State) :
    OnlyRegs (post.map (·.1)) s (post.foldl (fun s p => s.setReg p.1 p.2) s) := by
  induction post generalizing s with
  | nil => exact .refl _ _
  | cons p ps ih =>
    rw [List.foldl_cons]
    exact ((onlyRegs_setReg s p.1 p.2).mono (by simp)).trans ((ih _).mono (by simp; tauto))

/-- The state in which the status word of a finished descriptor has been written and its engine is idle. -/
def State.statusWritten (s : State) (t e code : Nat) (r : Run) : State :=
  let u := (r.post.foldl (fun s p => s.setReg p.1 p.2) s).writeStatus t e r.slot code (hSeq r.desc) (!r.lbv.isEmpty)
    (if e = 2 ∧ hOp r.desc = 1 then (crc32cFin r.crc).toNat else 0) r.done
  (u.setEng t e { (u.tile t).eng e with run := none }).wr (qBusy t e) 0

section StatusWritten
variable (s : State) (t e code : Nat) (r : Run)

theorem eng_statusWritten : ((s.statusWritten t e code r).tile t).eng e = { (s.tile t).eng e with run := none } := by
  have hA := onlyRegs_post r.post s
  rw [State.statusWritten, State.tile_wr, State.eng_setEng_same, State.writeStatus, (arrayOnly_scratchWrite _ _ _ _).eng, hA.tile]

theorem on_qBusy_statusWritten : (s.statusWritten t e code r).on (qBusy t e) = false := by
  rw [State.statusWritten, State.on, rd_wr_same _ _ _ (by simp [qBusy])]
  rfl

/-- A field of no summary word and apart from BUSY is as it was. -/
theorem rd_statusWritten {f : Fld} (hp : ∀ p ∈ r.post, p.1 ≠ f.a) (hb : (qBusy t e).Apart f) :
    (s.statusWritten t e code r).rd f = s.rd f := by
  rw [State.statusWritten, rd_wr_of_apart _ _ (by simp [qBusy]) hb, State.rd_setEng, State.writeStatus, (arrayOnly_scratchWrite _ _ _ _).rd]
  refine (onlyRegs_post r.post s).rd fun hm => ?_
  obtain ⟨p, hpm, hpa⟩ := List.mem_map.1 hm
  exact hp p hpm hpa

theorem statusWritten_incs : (s.statusWritten t e code r).incs = s.incs := by
  rw [State.statusWritten, State.wr_incs, State.setEng_incs, State.writeStatus, (arrayOnly_scratchWrite _ _ _ _).incs]
  exact (onlyRegs_post r.post s).incs

theorem statusWritten_gathered : (s.statusWritten t e code r).gathered = s.gathered := by
  rw [State.statusWritten, State.wr_gathered, State.setEng_gathered, State.writeStatus, (arrayOnly_scratchWrite _ _ _ _).gathered]
  exact (onlyRegs_post r.post s).gathered

end StatusWritten

/-- The state in which a failed descriptor has halted its queue. -/
def State.haltQueue (s : State) (t e code slot : Nat) : State :=
  ((s.wr (qHalted t e) 1).wr (qLastErr t e) code).wr (qErrSlot t e) slot

theorem completeRun_failed {s : State} {t e code : Nat} {r : Run} (hf : r.flush = none) (hc : code ≠ stDONE) : s.completeRun t e code r =
    ((s.statusWritten t e code r).haltQueue t e code r.slot).raise (0x0100 + code) 1 t
      (detailOf [(1, e), (1, r.slot), (1, hSeq r.desc), (1, code)]) := by
  simp only [State.completeRun, hf, if_neg hc]
  rfl

/-! The fields of a halted queue (Table 2.4). -/

section HaltQueue
variable (s : State) (t e code slot : Nat)

theorem onlyRegs_haltQueue : OnlyRegs [tileReg t (0x30 + 4 * e)] s (s.haltQueue t e code slot) :=
  ((onlyRegs_wr s (qHalted t e) 1).trans (onlyRegs_wr _ (qLastErr t e) code)).trans (onlyRegs_wr _ (qErrSlot t e) slot)

theorem on_qHalted_haltQueue : (s.haltQueue t e code slot).on (qHalted t e) = true := by
  rw [State.haltQueue, on_wr_of_apart _ _ (by simp [qErrSlot]) (by simp [Fld.Apart, qErrSlot, qHalted]),
    on_wr_of_apart _ _ (by simp [qLastErr]) (by simp [Fld.Apart, qLastErr, qHalted]), State.on, rd_wr_same _ _ _ (by simp [qHalted])]
  rfl

theorem rd_qLastErr_haltQueue (h : code < 256) : (s.haltQueue t e code slot).rd (qLastErr t e) = code := by
  rw [State.haltQueue, rd_wr_of_apart _ _ (by simp [qErrSlot]) (by simp [Fld.Apart, qErrSlot, qLastErr]), rd_wr_same _ _ _ (by simp [qLastErr])]
  exact Nat.mod_eq_of_lt h

theorem rd_qErrSlot_haltQueue (h : slot < 32) : (s.haltQueue t e code slot).rd (qErrSlot t e) = slot := by
  rw [State.haltQueue, rd_wr_same _ _ _ (by simp [qErrSlot])]
  exact Nat.mod_eq_of_lt h

end HaltQueue

/-! Which words a tile's tallies are. -/

theorem tileTally_inj {t n m : Nat} : (TallyLoc.tile t n).value.a = (TallyLoc.tile t m).value.a ↔ n = m := by simp [TallyLoc.value]

theorem tileTally_ne_range {t n m : Nat} (hn : n < 64) : (TallyLoc.tile t n).value.a ≠ (TallyLoc.tile t m).range.a := by
  simp only [TallyLoc.value, TallyLoc.range]; omega

/-- The tallies of the tiles lie above every word of a tile's window. -/
theorem tileReg_lt_tileTallyBase (t : TileId) {b : Nat} (hb : b < 0x100) : tileReg t b < tileTallyBase := by
  have := t.isLt
  simp only [tileReg, tileTallyBase]; omega

theorem tileReg_ne_tileTally (t : TileId) (n : Nat) {b : Nat} (hb : b < 0x100) :
    tileReg t b ≠ (TallyLoc.tile t n).value.a ∧ tileReg t b ≠ (TallyLoc.tile t n).range.a := by
  have := tileReg_lt_tileTallyBase t hb
  simp only [TallyLoc.value, TallyLoc.range]
  omega

theorem exec_descriptorComplete {t : TileId} {e : EngineId} {s : State} {r : Run} {code : Nat} (hr : ((s.tile t).eng e).run = some r)
    (hc : r.ended = some code) (hk : e.val = 1 → ∀ k ∈ s.carryRecs, k.sender ≠ (t : Nat)) :
    exec (.descriptorComplete t e) s = .next (s.completeRun t e code r) := by
  have hno : (decide (e.val = 1) && s.carryRecs.any fun k => decide (k.sender = t.val)) = false := by
    simpa using hk
  have hexec : exec (.descriptorComplete t e) s = execDescriptorComplete t e s := rfl
  simp only [hexec, execDescriptorComplete, hr, hc, hno]
  rfl

/-- The tally of a descriptor that is done counts it, where it names one (R40). -/
def State.countDone (s : State) (t : Nat) (d : BitVec 512) : State :=
  if hDoneEn d then s.addTally (.tile t (hDoneTally d)) 1 else s

section CountDone
variable (s : State) (t : TileId) (d : BitVec 512)

theorem countDone_tile (k : Nat) : (s.countDone t d).tile k = s.tile k := by
  unfold State.countDone
  split
  · exact setTally_tile _ _ _ _
  · rfl

theorem hDoneTally_lt : hDoneTally d < 64 := bitsAt_lt _ _ _

/-- The tile's own registers stay. -/
theorem rd_countDone_tileReg {f : Fld} {b : Nat} (hb : b < 0x100) (hf : f.a = tileReg t b) : (s.countDone t d).rd f = s.rd f := by
  obtain ⟨hv, hr⟩ := tileReg_ne_tileTally t (hDoneTally d) hb
  unfold State.countDone
  split
  · exact rd_setTally_other _ _ _ (by rw [hf]; exact hv) (by rw [hf]; exact hr)
  · rfl

theorem rd_countDone_tally (h : hDoneEn d = true) : (s.countDone t d).rd (TallyLoc.tile t (hDoneTally d)).value =
    min 0xFFFF (s.rd (TallyLoc.tile t (hDoneTally d)).value + 1) := by
  rw [State.countDone, if_pos h]
  exact rd_addTally_one _ _ (tileTally_ne_range (hDoneTally_lt d)).symm

theorem rd_countDone_other (n : Fin 64) (h : (n : Nat) ≠ hDoneTally d ∨ hDoneEn d = false) :
    (s.countDone t d).rd (TallyLoc.tile t n).value = s.rd (TallyLoc.tile t n).value := by
  unfold State.countDone
  split
  · next hen => exact rd_setTally_other _ _ _ (fun e => (h.resolve_right (by simp [hen])) (tileTally_inj.1 e)) (tileTally_ne_range n.isLt)
  · rfl

end CountDone

/-- DONE advances the queue and adds to the tally. -/
theorem completeRun_done {s : State} {t e : Nat} {r : Run} (hf : r.flush = none) : s.completeRun t e stDONE r =
    ((s.statusWritten t e stDONE r).countDone t r.desc).popSlot t e := by
  simp only [State.completeRun, hf, if_true]
  rfl

/-- Settles O11: the two ends of a descriptor, over the state in which its status word has been written. -/
theorem descriptorCompletionFollowsItsStatus : Obligations.DescriptorCompletionFollowsItsStatus := by
  intro t e s r code hr hc hf hk hpost
  have he : (e : Nat) < 3 := e.isLt
  -- what the status word leaves
  have hW := eng_statusWritten s t e code r
  have hqhead : (s.statusWritten t e code r).rd (qHead t e) = s.rd (qHead t e) :=
    rd_statusWritten s t e code r (fun p hp => (hpost p hp).2.1) (.inl (by simp [qBusy, qHead]))
  have htally : ∀ n, (s.statusWritten t e code r).rd (TallyLoc.tile t n).value = s.rd (TallyLoc.tile t n).value := fun n =>
    rd_statusWritten s t e code r (fun p hp h => by
      have hlt := (hpost p hp).1
      rw [h] at hlt
      simp only [TallyLoc.value] at hlt
      omega) (.inl (tileReg_ne_tileTally t n (by omega)).1.symm)
  refine ⟨?done, ?failed⟩
  case done =>
    rintro rfl
    have hexec := exec_descriptorComplete hr hc hk
    rw [completeRun_done hf] at hexec
    have hstat : ∀ n, (((s.statusWritten t e stDONE r).countDone t r.desc).popSlot t e).rd (TallyLoc.tile t n).value =
        ((s.statusWritten t e stDONE r).countDone t r.desc).rd (TallyLoc.tile t n).value := fun n =>
      rd_popSlot_other _ _ _ (tileReg_ne_tileTally t n (by omega)).1.symm
    refine ⟨_, hexec, ?_, ?_, ?_, ?_, fun hen => ?_, fun n hn => ?_⟩
    · rw [eng_popSlot, countDone_tile, hW]
    · rw [State.on, rd_popSlot_other _ _ _ (by simp [qBusy]), rd_countDone_tileReg _ _ _ (b := 0x30 + 4 * e) (by omega) rfl]
      exact on_qBusy_statusWritten s t e stDONE r
    · rw [rd_qHead_popSlot, rd_countDone_tileReg _ _ _ (b := 0x20 + 4 * e) (by omega) rfl, hqhead]
    · rw [eng_popSlot, countDone_tile, hW]
    · rw [hstat, rd_countDone_tally _ _ _ hen, htally]
    · rw [hstat, rd_countDone_other _ _ _ _ hn, htally]
  case failed =>
    intro hne h256 h32
    have hexec := exec_descriptorComplete hr hc hk
    rw [completeRun_failed hf hne] at hexec
    have hH := onlyRegs_haltQueue (s.statusWritten t e code r) t e code r.slot
    obtain ⟨f, hgath, hcode, -, hkind, hindex, -, -⟩ := State.raise_gathered ((s.statusWritten t e code r).haltQueue t e code r.slot)
      (0x0100 + code) 1 t (detailOf [(1, e), (1, r.slot), (1, hSeq r.desc), (1, code)])
    refine ⟨_, hexec, ?_, ?_, ?_, ?_, ?_, fun n => ?_, ?_, f, ?_, hcode, hkind, hindex⟩
    · rw [State.tile_raise, hH.tile, hW]
    · rw [State.on_raise, on_qHalted_haltQueue]
    · rw [State.rd_raise, rd_qLastErr_haltQueue _ _ _ _ _ h256]
    · rw [State.rd_raise, rd_qErrSlot_haltQueue _ _ _ _ _ h32]
    · rw [State.rd_raise, hH.rd (by simp [qHead]), hqhead]
    · rw [State.rd_raise, hH.rd (by simpa using (tileReg_ne_tileTally t n (by omega)).1.symm), htally]
    · rw [State.raise_incs, hH.incs, statusWritten_incs]
    · rw [hgath, hH.gathered, statusWritten_gathered]

end Sys2Proof.Machine
end

section
/-! SUPPORT. Reads of scratch through the array's protection: what counting, correcting and failing a word change, and a read of an
array without errors (R217, R219, R222). -/
namespace Sys2Proof.Machine

/-- State `u` is state `s` but for what the array's protection of tile `t` counts, corrects and reports; no word gains or loses an
uncorrectable error. -/
structure TouchOnly (t : Nat) (s u : State) : Prop where
  reg : ∀ a, a ≠ hubReg t 0xC08 16 → u.reg a = s.reg a
  rest : u = { s with regs := u.regs, tiles := u.tiles, gathered := u.gathered }
  same : u.tile t = { s.tile t with eccErr := (u.tile t).eccErr, eccWin := (u.tile t).eccWin, wayDis := (u.tile t).wayDis }
  poison : ∀ i, 1 < lookMap 0 (u.tile t).eccErr i ↔ 1 < lookMap 0 (s.tile t).eccErr i

namespace TouchOnly
variable {t : Nat} {s u v : State}

theorem refl (t : Nat) (s : State) : TouchOnly t s s := ⟨fun _ _ => rfl, rfl, rfl, fun _ => Iff.rfl⟩

theorem trans (h : TouchOnly t s u) (k : TouchOnly t u v) : TouchOnly t s v where
  reg a ha := (k.reg a ha).trans (h.reg a ha)
  rest := by rw [k.rest, h.rest]
  same := by rw [k.same, h.same]
  poison i := (k.poison i).trans (h.poison i)

theorem shelf (h : TouchOnly t s u) : u.shelf = s.shelf := by rw [h.rest]
theorem cellar (h : TouchOnly t s u) : u.cellar = s.cellar := by rw [h.rest]
theorem incs (h : TouchOnly t s u) : u.incs = s.incs := by rw [h.rest]
theorem rd (h : TouchOnly t s u) {f : Fld} (hf : f.a ≠ hubReg t 0xC08 16) : u.rd f = s.rd f := by rw [State.rd, h.reg _ hf]; rfl
theorem on (h : TouchOnly t s u) {f : Fld} (hf : f.a ≠ hubReg t 0xC08 16) : u.on f = s.on f := by rw [State.on, h.rd hf]; rfl
theorem eng (h : TouchOnly t s u) (e : Nat) : (u.tile t).eng e = (s.tile t).eng e := by rw [h.same]; rfl
theorem key (h : TouchOnly t s u) (o : Nat) : u.scratchKey t o = s.scratchKey t o := scratchKey_congr (h.rd (by simp [shScratch])) o

/-- A write of the error counts. -/
theorem wr (s : State) {f : Fld} (v : Nat) (hf : f.a = hubReg t 0xC08 16) : TouchOnly t s (s.wr f v) :=
  ⟨fun _ ha => reg_wr_other s v (by rw [hf]; exact ha), rfl, rfl, fun _ => Iff.rfl⟩

theorem raise (s : State) (c k i : Nat) (d : List Byte) : TouchOnly t s (s.raise c k i d) := ⟨fun _ _ => rfl, rfl, rfl, fun _ => Iff.rfl⟩

/-- New records of a tile's array. -/
theorem setTile (s : State) {x : Tile} (hx : x = { s.tile t with eccErr := x.eccErr, eccWin := x.eccWin, wayDis := x.wayDis })
    (hp : ∀ i, 1 < lookMap 0 x.eccErr i ↔ 1 < lookMap 0 (s.tile t).eccErr i) : TouchOnly t s (s.setTile t x) where
  reg _ _ := rfl
  rest := rfl
  same := by rw [State.tile_setTile_same]; exact hx
  poison i := by rw [State.tile_setTile_same]; exact hp i

end TouchOnly

theorem touchOnly_correctedErr (s : State) (t w : Nat) : TouchOnly t s (s.correctedErr t w) := by
  have hb : TouchOnly t s (s.bump (shCorrected t)) := .wr s _ rfl
  have hset : ∀ (u : State) (x : Tile), x = { u.tile t with eccWin := x.eccWin, wayDis := x.wayDis } → TouchOnly t u (u.setTile t x) :=
    fun u x hx => .setTile u (by rw [hx]) fun i => by rw [hx]
  unfold State.correctedErr
  extract_lets a x n b
  split
  · exact hb.trans (hset _ _ rfl)
  · have hw : TouchOnly t s b := hb.trans (hset _ _ rfl)
    split
    · exact hw.trans (.raise _ _ _ _ _)
    · split
      · exact hw.trans (hset _ _ rfl)
      · exact hw

theorem touchOnly_scratchFailed (s : State) (t i : Nat) : TouchOnly t s (s.scratchFailed t i) :=
  ((TouchOnly.wr s _ rfl).trans (.wr _ _ rfl)).trans (.raise _ _ _ _ _)

/-- Correcting a word's single error leaves every uncorrectable one. -/
theorem touchOnly_corrected (s : State) (t i : Nat) (h : lookMap 0 (s.tile t).eccErr i = 1) :
    TouchOnly t s (s.setTile t { s.tile t with eccErr := putMap 0 (s.tile t).eccErr i 0 }) := by
  refine .setTile s rfl fun j => ?_
  by_cases hj : j = i
  · subst hj
    simp [h]
  · rw [lookMap_putMap_other _ _ _ _ hj]

theorem touchOnly_touchScratchWord (s : State) (t i : Nat) : TouchOnly t s (s.touchScratchWord t i).2 := by
  unfold State.touchScratchWord
  extract_lets x e
  split
  · exact .refl t s
  · split
    · next h => exact (touchOnly_corrected s t i h).trans (touchOnly_correctedErr _ t _)
    · exact touchOnly_scratchFailed s t i

theorem touchOnly_touchScratch (s : State) (t i n : Nat) : TouchOnly t s (s.touchScratch t i n).2 := by
  induction n generalizing s i with
  | zero => exact .refl t s
  | succ n ih => exact (touchOnly_touchScratchWord s t i).trans (ih _ _)

theorem touchOnly_scratchRun (s : State) (t o n : Nat) : TouchOnly t s (s.scratchRun t o n).2 := by
  unfold State.scratchRun
  split
  · exact .refl t s
  · extract_lets i r
    split
    · exact touchOnly_touchScratch s t _ _
    · exact touchOnly_touchScratch s t _ _

theorem touchOnly_readHeader (s : State) (t o n : Nat) : TouchOnly t s (s.readHeader t o n) := touchOnly_scratchRun s t o n

theorem touchOnly_scratchReadN (fuel : Nat) (s : State) (t o n : Nat) : TouchOnly t s (s.scratchReadN t fuel o n).2 := by
  induction fuel generalizing s o n with
  | zero => exact .refl t s
  | succ fuel ih =>
    rw [State.scratchReadN]
    split
    · exact .refl t s
    · extract_lets m
      have hrun := touchOnly_scratchRun s t o m
      cases h : s.scratchRun t o m with
      | mk a s1 =>
        rw [h] at hrun
        cases a with
        | bad c => exact hrun
        | ok d =>
          have hrest := hrun.trans (ih s1 (o + m) (n - m))
          cases h2 : s1.scratchReadN t fuel (o + m) (n - m) with
          | mk b s2 =>
            rw [h2] at hrest
            cases b with
            | bad c => simpa [h2] using hrest
            | ok d' => simpa [h2] using hrest

theorem touchOnly_scratchRead (s : State) (t o n : Nat) : TouchOnly t s (s.scratchRead t o n).2 := touchOnly_scratchReadN 14 s t o n

/-! An array without errors. -/

section NoErrors
variable {s : State} {t : TileId} (h : NoArrayErrors s t)
include h

theorem touchScratch_noErrors (i n : Nat) : s.touchScratch t i n = (false, s) := by
  induction n generalizing i with
  | zero => rfl
  | succ n ih =>
    have hw : s.touchScratchWord t i = (false, s) := by
      rw [State.touchScratchWord, h]
      rfl
    rw [State.touchScratch, hw, ih]
    rfl

theorem readHeader_noErrors (o n : Nat) : s.readHeader t o n = s := by
  rw [State.readHeader, State.scratchRun]
  split
  · rfl
  · simp only [touchScratch_noErrors h]
    rfl

theorem scratchPoison_noErrors (o n : Nat) : s.scratchPoison t o n = false := by
  unfold State.scratchPoison
  split
  · rfl
  · rw [h]
    simp [lookMap]

end NoErrors

end Sys2Proof.Machine
end

section
/-! SUPPORT. Handing slots to an engine, and the registers TILE.QPTR and TILE.QSTAT; settles O10 (R37, R38, R43, Tables 2.3 and 2.4). -/
namespace Sys2Proof.Machine

/-! What each command is. -/

theorem exec_queueTailWrite (src : Src) (t : TileId) (e : EngineId) (w : BitVec 32) (s : State) :
    exec (.queueTailWrite src t e w) s = execQueueTailWrite src t e w s := rfl
theorem exec_queueResume (src : Src) (t : TileId) (e : EngineId) (w : BitVec 32) (s : State) :
    exec (.queueResume src t e w) s = execQueueResume src t e w s := rfl
theorem exec_queueFlush (src : Src) (t : TileId) (e : EngineId) (w : BitVec 32) (s : State) :
    exec (.queueFlush src t e w) s = execQueueFlush src t e w s := rfl

/-! Slots (R37, R38, Table 2.2). -/

/-- State `u` differs from state `s` in nothing that the contents of a slot depend on. -/
structure SlotsKept (t : Nat) (s u : State) : Prop where
  reg : ∀ a, a ≠ hubReg t 0xC08 16 → u.reg a = s.reg a
  poison : ∀ i, 1 < lookMap 0 (u.tile t).eccErr i ↔ 1 < lookMap 0 (s.tile t).eccErr i
  bytes : ∀ o k, o < 0xC00 → s.scratchKey t o = some k → readByte u.shelf k = readByte s.shelf k

namespace SlotsKept
variable {t : Nat} {s u v : State}

theorem key (h : SlotsKept t s u) (o : Nat) : u.scratchKey t o = s.scratchKey t o :=
  scratchKey_congr (by rw [State.rd, h.reg _ (by simp [shScratch])]; rfl) o

theorem refl (t : Nat) (s : State) : SlotsKept t s s := ⟨fun _ _ => rfl, fun _ => Iff.rfl, fun _ _ _ _ => rfl⟩

theorem trans (h : SlotsKept t s u) (k : SlotsKept t u v) : SlotsKept t s v where
  reg a ha := (k.reg a ha).trans (h.reg a ha)
  poison i := (k.poison i).trans (h.poison i)
  bytes o x ho hx := (k.bytes o x ho (by rw [h.key]; exact hx)).trans (h.bytes o x ho hx)

theorem ofTouch (h : TouchOnly t s u) : SlotsKept t s u := ⟨h.reg, h.poison, fun _ _ _ _ => by rw [h.shelf]⟩

/-- A slot lies below the status words. -/
theorem slotOff_lt {e : Nat} (he : e < 3) (p : Nat) {i : Nat} (hi : i < 64) : slotOff e p + i < 0xC00 := by
  simp only [slotOff]; omega

theorem slotBits (h : SlotsKept t s u) {e : Nat} (he : e < 3) (p : Nat) : u.slotBits t e p = s.slotBits t e p := by
  unfold State.slotBits
  rw [h.key]
  split
  · rfl
  · next k hk =>
    rw [readBytes_congr fun i hi => h.bytes (slotOff e p + i) (k + i) (slotOff_lt he p hi)
      (scratchKey_add hk (by simp only [slotOff]; omega))]

theorem scratchPoison (h : SlotsKept t s u) (o n : Nat) : u.scratchPoison t o n = s.scratchPoison t o n := by
  unfold State.scratchPoison
  rw [h.key]
  split
  · rfl
  · simp only [h.poison]

end SlotsKept

/-- The slot of pointer `p` as its engine takes it over. -/
def State.slotAt (s : State) (t e p : Nat) : Slot := ⟨p % 32, s.slotBits t e p, s.scratchPoison t (slotOff e p) 64⟩

theorem SlotsKept.slotAt {t : Nat} {s u : State} (h : SlotsKept t s u) {e : Nat} (he : e < 3) (p : Nat) : u.slotAt t e p = s.slotAt t e p := by
  rw [State.slotAt, h.slotBits he, h.scratchPoison]
  rfl

theorem slotsKept_clearValid (s : State) (t e p : Nat) : SlotsKept t s (s.clearValid t e p) := by
  unfold State.clearValid
  split
  · exact .refl t s
  · next k hk =>
    refine ⟨fun _ _ => rfl, fun _ => Iff.rfl, fun o x ho hx => readByte_writeByte_other _ _ fun e' => ?_⟩
    subst e'
    have := scratchKey_inj hx hk
    simp only [statusOff] at this
    omega

theorem clearValid_tile (s : State) (t e p k : Nat) : (s.clearValid t e p).tile k = s.tile k := by
  unfold State.clearValid
  split <;> rfl

theorem readByte_clearValid_other (s : State) (t e p : Nat) {k : Nat} (h : s.scratchKey t (statusOff e p + 2) ≠ some k) :
    readByte (s.clearValid t e p).shelf k = readByte s.shelf k := by
  unfold State.clearValid
  split
  · rfl
  · next x hx => exact readByte_writeByte_other _ _ fun e' => h (by rw [hx, e'])

/-- One slot handed over. -/
def State.handSlot (s : State) (t e p : Nat) : State :=
  let g := (s.tile t).eng e
  ((s.setEng t e { g with owned := g.owned ++ [s.slotAt t e p] }).readHeader t (slotOff e p) 64).clearValid t e p

theorem handSlots_succ (s : State) (t e p n : Nat) : s.handSlots t e p (n + 1) = (s.handSlot t e p).handSlots t e (p + 1) n := rfl

section HandSlot
variable (s : State) (t e p : Nat)

theorem slotsKept_handSlot : SlotsKept t s (s.handSlot t e p) := by
  have hset : SlotsKept t s (s.setEng t e { (s.tile t).eng e with owned := ((s.tile t).eng e).owned ++ [s.slotAt t e p] }) := by
    refine ⟨fun _ _ => rfl, fun i => ?_, fun _ _ _ _ => rfl⟩
    rw [State.tile_setEng]
    unfold Tile.setEng
    split
    · rfl
    · split <;> rfl
  exact (hset.trans (.ofTouch (touchOnly_readHeader _ t _ _))).trans (slotsKept_clearValid _ t e p)

theorem eng_handSlot : ((s.handSlot t e p).tile t).eng e =
    { (s.tile t).eng e with owned := ((s.tile t).eng e).owned ++ [s.slotAt t e p] } := by
  rw [State.handSlot, clearValid_tile, (touchOnly_readHeader _ t _ _).eng, State.eng_setEng_same]

theorem readByte_handSlot_other {k : Nat} (h : s.scratchKey t (statusOff e p + 2) ≠ some k) :
    readByte (s.handSlot t e p).shelf k = readByte s.shelf k := by
  have hr := touchOnly_readHeader (s.setEng t e { (s.tile t).eng e with owned := ((s.tile t).eng e).owned ++ [s.slotAt t e p] }) t (slotOff e p) 64
  rw [State.handSlot, readByte_clearValid_other, hr.shelf]
  · rfl
  · rw [hr.key]
    exact h

end HandSlot

/-- The slots from pointer `p` go to the engine as they stand, and only their status words change. -/
theorem handSlots_spec {t e : Nat} (he : e < 3) (n : Nat) (s : State) (p : Nat) :
    SlotsKept t s (s.handSlots t e p n) ∧
    ((s.handSlots t e p n).tile t).eng e = { (s.tile t).eng e with
      owned := ((s.tile t).eng e).owned ++ (List.range n).map fun i => s.slotAt t e (p + i) } ∧
    ∀ k, (∀ i < n, s.scratchKey t (statusOff e (p + i) + 2) ≠ some k) → readByte (s.handSlots t e p n).shelf k = readByte s.shelf k := by
  induction n generalizing s p with
  | zero => exact ⟨.refl t s, by simp [State.handSlots], fun _ _ => rfl⟩
  | succ n ih =>
    have h1 := slotsKept_handSlot s t e p
    obtain ⟨hk, hown, hb⟩ := ih (s.handSlot t e p) (p + 1)
    rw [handSlots_succ]
    refine ⟨h1.trans hk, ?_, fun k hn => ?_⟩
    · rw [hown, eng_handSlot, List.range_succ_eq_map]
      simp only [List.map_cons, List.map_map, List.append_assoc, List.singleton_append, h1.slotAt he]
      rw [Nat.add_zero]
      refine congrArg (fun l => Engine.mk (((s.tile t).eng e).owned ++ s.slotAt t e p :: l) ((s.tile t).eng e).run) (List.map_congr_left fun i _ => ?_)
      simp only [Function.comp]
      rw [show p + 1 + i = p + i.succ by omega]
    · refine (hb k fun i hi => ?_).trans (readByte_handSlot_other _ _ _ _ (hn 0 (by omega)))
      rw [h1.key, show p + 1 + i = p + (i + 1) by omega]
      exact hn (i + 1) (by omega)

/-! A write of TAIL (R37). -/

/-- The pointers after a write of TAIL. -/
def State.setTail (s : State) (t e tail : Nat) : State := (s.wr (qTail t e) tail).syncCount t e

section SetTail
variable (s : State) (t e tail : Nat)

theorem onlyRegs_setTail : OnlyRegs [tileReg t (0x20 + 4 * e)] s (s.setTail t e tail) :=
  (onlyRegs_wr s (qTail t e) tail).trans (onlyRegs_wr _ (qCount t e) _)

theorem rd_qTail_setTail (h : tail < 32) : (s.setTail t e tail).rd (qTail t e) = tail := by
  rw [State.setTail, State.syncCount, rd_wr_of_apart _ _ (by simp [qCount]) (by simp [Fld.Apart, qCount, qTail]), rd_wr_same _ _ _ (by simp [qTail])]
  exact Nat.mod_eq_of_lt h

theorem rd_qHead_setTail : (s.setTail t e tail).rd (qHead t e) = s.rd (qHead t e) := by
  rw [State.setTail, State.syncCount, rd_wr_of_apart _ _ (by simp [qCount]) (by simp [Fld.Apart, qCount, qHead]),
    rd_wr_of_apart _ _ (by simp [qTail]) (by simp [Fld.Apart, qTail, qHead])]

theorem rd_qCount_setTail (h : tail < 32) : (s.setTail t e tail).rd (qCount t e) = (tail + 32 - s.rd (qHead t e)) % 32 := by
  rw [State.setTail, State.syncCount, rd_wr_same _ _ _ (by simp [qCount]), rd_wr_same _ _ _ (by simp [qTail]),
    rd_wr_of_apart _ _ (by simp [qTail]) (by simp [Fld.Apart, qTail, qHead])]
  change (tail % 32 + 32 - s.rd (qHead t e)) % 32 % 32 = _
  rw [Nat.mod_eq_of_lt h, Nat.mod_mod]

end SetTail

theorem tailWrite_taken {s : State} {t e tail n : Nat} (hh : s.on (tHold t) = false) (hn : n = (tail % 32 + 32 - s.rd (qTail t e)) % 32)
    (hf : n + s.rd (qCount t e) ≤ 16) : s.tailWrite t e tail = (s.handSlots t e (s.rd (qTail t e)) n).setTail t e (tail % 32) := by
  subst hn
  simp only [State.tailWrite, hh, Bool.false_eq_true, if_false, if_pos hf]
  rfl

theorem tailWrite_overflow {s : State} {t e tail n : Nat} (hh : s.on (tHold t) = false) (hn : n = (tail % 32 + 32 - s.rd (qTail t e)) % 32)
    (hf : 16 < n + s.rd (qCount t e)) : s.tailWrite t e tail = s.wr (qOvf t e) 1 := by
  subst hn
  simp only [State.tailWrite, hh, Bool.false_eq_true, if_false, if_neg (Nat.not_le.2 hf)]

/-- A queue register's words are not TILE.RUN: an ungated clock leaves them. -/
theorem tState_apart_of_ne {t b : Nat} {f : Fld} (hf : f.a = tileReg t b) (hb : b ≠ 4) : (tState t).Apart f :=
  .inl (by rw [hf]; simpa [tState] using hb)

section TailWrite
variable {src : Src} {t : TileId} {e : EngineId} {w : BitVec 32} {s : State} {n : Nat} (hw : tileRegWriter src t = true)
  (hl : s.tileLive t = true)
include hw hl

theorem exec_queueTailWrite_live :
    exec (.queueTailWrite src t e w) s = .next (((s.unheld src.unit).tailWrite t e (w.toNat % 32)).ungate t) := by
  rw [exec_queueTailWrite, execQueueTailWrite, if_pos hw, tileAccess_live hw hl]

variable (hh : s.on (tHold t) = false) (hn : n = (w.toNat % 32 + 32 - s.rd (qTail t e)) % 32)
include hh hn

theorem queueTailWrite_taken (hf : n + s.rd (qCount t e) ≤ 16) : ∃ u, exec (.queueTailWrite src t e w) s = .next u ∧
    u.rd (qTail t e) = w.toNat % 32 ∧ u.rd (qHead t e) = s.rd (qHead t e) ∧ u.rd (qCount t e) = (w.toNat % 32 + 32 - s.rd (qHead t e)) % 32 ∧
    ((u.tile t).eng e).run = ((s.tile t).eng e).run ∧
    ((u.tile t).eng e).owned = ((s.tile t).eng e).owned ++ (List.range n).map (fun i => s.slotAt t e (s.rd (qTail t e) + i)) ∧
    ∀ k, (∀ i < n, s.scratchKey t (statusOff e (s.rd (qTail t e) + i) + 2) ≠ some k) → readByte u.shelf k = readByte s.shelf k := by
  have he : (e : Nat) < 3 := e.isLt
  have hexec := exec_queueTailWrite_live (e := e) (w := w) hw hl
  rw [tailWrite_taken (s := s.unheld src.unit) hh (by rw [Nat.mod_mod]; exact hn) hf, Nat.mod_mod, State.rd_unheld] at hexec
  obtain ⟨hkept, hown, hbytes⟩ := handSlots_spec he n (s.unheld src.unit) (s.rd (qTail t e))
  have htail := onlyRegs_setTail ((s.unheld src.unit).handSlots t e (s.rd (qTail t e)) n) t e (w.toNat % 32)
  have hap : ∀ f : Fld, f.a = tileReg t (0x20 + 4 * e) → (tState t).Apart f := fun f hf' => tState_apart_of_ne hf' (by omega)
  have hhead : ((s.unheld src.unit).handSlots t e (s.rd (qTail t e)) n).rd (qHead t e) = s.rd (qHead t e) := by
    rw [State.rd, hkept.reg _ (by simpa [qHead] using (hubReg_ne_tileReg (by decide) (by omega)).symm)]
    rfl
  refine ⟨_, hexec, ?_, ?_, ?_, ?_, ?_, fun k hk => ?_⟩
  · rw [rd_ungate_of_apart _ _ (hap _ rfl), rd_qTail_setTail _ _ _ _ (by omega)]
  · rw [rd_ungate_of_apart _ _ (hap _ rfl), rd_qHead_setTail, hhead]
  · rw [rd_ungate_of_apart _ _ (hap _ rfl), rd_qCount_setTail _ _ _ _ (by omega), hhead]
  · rw [State.tile_ungate, htail.tile, hown]
    rfl
  · rw [State.tile_ungate, htail.tile, hown]
    rfl
  · rw [State.ungate_shelf, htail.shelf, hbytes k hk]
    rfl

theorem queueTailWrite_overflow (hf : 16 < n + s.rd (qCount t e)) : ∃ u, exec (.queueTailWrite src t e w) s = .next u ∧ u.on (qOvf t e) ∧
    u.rd (qTail t e) = s.rd (qTail t e) ∧ OnlyRegs [tileReg t (0x30 + 4 * e), tileReg t 4] (s.unheld src.unit) u := by
  have hexec := exec_queueTailWrite_live (e := e) (w := w) hw hl
  rw [tailWrite_overflow (s := s.unheld src.unit) hh (by rw [Nat.mod_mod]; exact hn) hf] at hexec
  refine ⟨_, hexec, ?_, ?_, ?_⟩
  · rw [on_ungate_of_apart _ _ (tState_apart_of_ne rfl (by omega)), State.on, rd_wr_same _ _ _ (by simp [qOvf])]
    rfl
  · rw [rd_ungate_of_apart _ _ (tState_apart_of_ne rfl (by omega)), rd_wr_other _ _ (by simp [qTail, qOvf])]
    rfl
  · exact ((onlyRegs_wr _ (qOvf t e) 1).mono (by simp [qOvf])).trans ((onlyRegs_ungate _ t).mono (by simp))

end TailWrite

/-! Writes of TILE.QSTAT (R43, Table 2.4). -/

theorem regRow_qstat (t : TileId) (e : EngineId) :
    regRow (tileReg t (0x30 + 4 * e)) = some ⟨0x30, 3, 4, 1, 0, 0, 0xC, 0x3000000, 0, 0x1FFF0F⟩ := by
  have he : (e : Nat) < 3 := e.isLt
  rw [regRow_tileReg t (by omega)]
  match e with
  | 0 => rfl
  | 1 => rfl
  | 2 => rfl

/-- HALTED is the device's: a write leaves it. -/
theorem on_qHalted_plainWrite (s : State) (t : TileId) (e : EngineId) (w : BitVec 32) :
    (s.plainWrite (tileReg t (0x30 + 4 * e)) w).on (qHalted t e) = s.on (qHalted t e) := by
  have h := rd_plainWrite_readOnly s (f := qHalted t e) w (regRow_qstat t e) (by simp [qHalted]) (by simp only [qHalted]; decide)
  exact congrArg (fun n => decide (n = 1)) h

theorem exec_queueResume_live {src : Src} {t : TileId} {e : EngineId} {w : BitVec 32} {s : State} (hw : tileRegWriter src t = true)
    (hl : s.tileLive t = true) : exec (.queueResume src t e w) s =
      .next (((s.unheld src.unit).qstatWrite t e (w ||| 0x1000000#32)).ungate t) := by
  rw [exec_queueResume, execQueueResume, if_pos hw, tileAccess_live hw hl]

theorem exec_queueFlush_live {src : Src} {t : TileId} {e : EngineId} {w : BitVec 32} {s : State} (hw : tileRegWriter src t = true)
    (hl : s.tileLive t = true) : exec (.queueFlush src t e w) s =
      .next (((s.unheld src.unit).qstatWrite t e (w ||| 0x2000000#32)).ungate t) := by
  rw [exec_queueFlush, execQueueFlush, if_pos hw, tileAccess_live hw hl]

/-- RESUME of a halted queue retires the failed slot. -/
theorem resume_halted {s : State} {t e : Nat} (h : s.on (qHalted t e) = true) : s.resume t e = (s.wr (qHalted t e) 0).popSlot t e := if_pos h

theorem qstatWrite_resume {s : State} {t : TileId} {e : EngineId} {w : BitVec 32} (h24 : w.getLsbD 24 = true) (h25 : w.getLsbD 25 = false)
    (hh : s.on (qHalted t e) = true) : s.qstatWrite t e w =
      (((s.plainWrite (tileReg t (0x30 + 4 * e)) w).wr (qHalted t e) 0).popSlot t e) := by
  simp only [State.qstatWrite, h24, h25, if_true, Bool.false_eq_true, if_false]
  exact resume_halted ((on_qHalted_plainWrite s t e w).trans hh)

theorem qstatWrite_flush {s : State} {t : TileId} {e : EngineId} {w : BitVec 32} (h24 : w.getLsbD 24 = false) (h25 : w.getLsbD 25 = true) :
    s.qstatWrite t e w = (s.plainWrite (tileReg t (0x30 + 4 * e)) w).flushQueue t e := by
  simp only [State.qstatWrite, h24, h25, if_true, Bool.false_eq_true, if_false]

theorem queueResume_halted {src : Src} {t : TileId} {e : EngineId} {w : BitVec 32} {s : State} {x : Slot} {rest : List Slot}
    (hw : tileRegWriter src t = true) (hl : s.tileLive t = true) (h25 : w.getLsbD 25 = false) (hh : s.on (qHalted t e) = true)
    (ho : ((s.tile t).eng e).owned = x :: rest) : ∃ u, exec (.queueResume src t e w) s = .next u ∧ u.on (qHalted t e) = false ∧
      ((u.tile t).eng e).owned = rest ∧ u.rd (qHead t e) = (s.rd (qHead t e) + 1) % 32 ∧ u.rd (qTail t e) = s.rd (qTail t e) ∧
      u.shelf = s.shelf := by
  have hexec := exec_queueResume_live (e := e) (w := w) hw hl
  rw [qstatWrite_resume (s := s.unheld src.unit) (by simp) (by simpa using h25) hh] at hexec
  have hp := onlyRegs_plainWrite (s.unheld src.unit) (tileReg t (0x30 + 4 * e)) (w ||| 0x1000000#32)
  generalize hP : (s.unheld src.unit).plainWrite (tileReg t (0x30 + 4 * e)) (w ||| 0x1000000#32) = p at hexec hp
  have hq : ∀ f : Fld, f.a = tileReg t (0x20 + 4 * e) → (p.wr (qHalted t e) 0).rd f = s.rd f := fun f hf => by
    have hne : tileReg t (0x20 + 4 * e) ≠ tileReg t (0x30 + 4 * e) := by simp
    rw [rd_wr_other _ _ (by rw [hf]; exact hne), hp.rd (by rw [hf]; simp)]
    rfl
  refine ⟨_, hexec, ?_, ?_, ?_, ?_, ?_⟩
  · rw [on_ungate_of_apart _ _ (tState_apart_of_ne rfl (by omega)), State.on, rd_popSlot_other _ _ _ (by simp [qHalted]),
      rd_wr_same _ _ _ (by simp [qHalted])]
    rfl
  · rw [State.tile_ungate, eng_popSlot, State.tile_wr, hp.tile, State.tile_unheld, ho]
    rfl
  · rw [rd_ungate_of_apart _ _ (tState_apart_of_ne rfl (by omega)), rd_qHead_popSlot, hq _ rfl]
  · rw [rd_ungate_of_apart _ _ (tState_apart_of_ne rfl (by omega)), rd_qTail_popSlot, hq _ rfl]
  · rw [State.ungate_shelf, popSlot_shelf, State.wr_shelf, hp.shelf]
    rfl

/-! FLUSH of a queue that neither runs nor is halted (R43). -/

theorem flushSlots_cons {s : State} {t e n : Nat} {x : Slot} {xs : List Slot} (hh : s.on (qHalted t e) = false)
    (ho : ((s.tile t).eng e).owned = x :: xs) : s.flushSlots t e (n + 1) =
      ((s.writeStatus t e x.ptr stFLUSHED (hSeq x.desc) false 0 0).popSlot t e).flushSlots t e n := by
  simp only [State.flushSlots, ho, hh, Bool.false_and, Bool.false_eq_true, if_false]

/-- Flushing all owned slots leaves none, and moves HEAD past them. -/
theorem flushSlots_all {t e : Nat} (xs : List Slot) (s : State) (hh : s.on (qHalted t e) = false) (ho : ((s.tile t).eng e).owned = xs) :
    (((s.flushSlots t e xs.length).tile t).eng e).owned = [] ∧
    (s.flushSlots t e xs.length).rd (qHead t e) = (s.rd (qHead t e) + xs.length) % 32 ∧
    (s.flushSlots t e xs.length).rd (qTail t e) = s.rd (qTail t e) ∧ (s.flushSlots t e xs.length).incs = s.incs ∧
    (s.flushSlots t e xs.length).cellar = s.cellar := by
  induction xs generalizing s with
  | nil =>
    have h32 : s.rd (qHead t e) < 32 := rd_lt s (qHead t e)
    exact ⟨ho, by rw [List.length_nil, Nat.add_zero, Nat.mod_eq_of_lt h32]; rfl, rfl, rfl, rfl⟩
  | cons x xs ih =>
    rw [List.length_cons, flushSlots_cons hh ho]
    have hA := arrayOnly_scratchWrite s t (statusOff e x.ptr) (statusWord stFLUSHED (hSeq x.desc) false 0 0)
    change ArrayOnly t s (s.writeStatus t e x.ptr stFLUSHED (hSeq x.desc) false 0 0) at hA
    generalize s.writeStatus t e x.ptr stFLUSHED (hSeq x.desc) false 0 0 = a at hA ⊢
    have hh' : (a.popSlot t e).on (qHalted t e) = false := by
      rw [State.on, rd_popSlot_other _ _ _ (by simp [qHalted]), hA.rd]
      exact hh
    have ho' : (((a.popSlot t e).tile t).eng e).owned = xs := by rw [eng_popSlot, hA.eng, ho]; rfl
    obtain ⟨h1, h2, h3, h4, h5⟩ := ih (a.popSlot t e) hh' ho'
    refine ⟨h1, ?_, ?_, ?_, ?_⟩
    · rw [h2, rd_qHead_popSlot, hA.rd, Nat.mod_add_mod, Nat.add_assoc, Nat.add_comm 1]
    · rw [h3, rd_qTail_popSlot, hA.rd]
    · rw [h4, popSlot_incs, hA.incs]
    · rw [h5, popSlot_cellar, hA.cellar]

theorem flushQueue_idle {s : State} {t e : Nat} (hr : ((s.tile t).eng e).run = none) :
    s.flushQueue t e = s.flushSlots t e ((s.tile t).eng e).owned.length := by
  simp only [State.flushQueue, hr]

/-- A running descriptor keeps running with the flush recorded; its queue is as it was. -/
theorem flushQueue_running {s : State} {t e : Nat} {r : Run} (hr : ((s.tile t).eng e).run = some r) :
    ∃ r', ((s.flushQueue t e).tile t).eng e = { (s.tile t).eng e with run := some r' } ∧
      r'.flush = some (((s.tile t).eng e).owned.length - 1) ∧ r'.desc = r.desc ∧ (s.flushQueue t e).shelf = s.shelf ∧
      (s.flushQueue t e).cellar = s.cellar := by
  simp only [State.flushQueue, hr]
  refine ⟨_, State.eng_setEng_same _ _ _ _, rfl, rfl, ?_, ?_⟩
  · split <;> rfl
  · split <;> rfl

section Flush
variable {src : Src} {t : TileId} {e : EngineId} {w : BitVec 32} {s : State} (hw : tileRegWriter src t = true)
  (hl : s.tileLive t = true) (h24 : w.getLsbD 24 = false)
include hw hl h24

theorem queueFlush_idle (hh : s.on (qHalted t e) = false) (hr : ((s.tile t).eng e).run = none) :
    ∃ u, exec (.queueFlush src t e w) s = .next u ∧ ((u.tile t).eng e).owned = [] ∧
      u.rd (qHead t e) = (s.rd (qHead t e) + ((s.tile t).eng e).owned.length) % 32 ∧ u.rd (qTail t e) = s.rd (qTail t e) ∧
      u.incs = s.incs ∧ u.cellar = s.cellar := by
  have hexec := exec_queueFlush_live (e := e) (w := w) hw hl
  have hp := onlyRegs_plainWrite (s.unheld src.unit) (tileReg t (0x30 + 4 * e)) (w ||| 0x2000000#32)
  have hhp := on_qHalted_plainWrite (s.unheld src.unit) t e (w ||| 0x2000000#32)
  rw [qstatWrite_flush (by simpa using h24) (by simp)] at hexec
  generalize (s.unheld src.unit).plainWrite (tileReg t (0x30 + 4 * e)) (w ||| 0x2000000#32) = p at hexec hp hhp
  have htile : p.tile t = s.tile t := hp.tile t
  rw [flushQueue_idle (by rw [htile]; exact hr)] at hexec
  obtain ⟨h1, h2, h3, h4, h5⟩ := flushSlots_all ((p.tile t).eng e).owned p (hhp.trans hh) rfl
  have hq : ∀ f : Fld, f.a = tileReg t (0x20 + 4 * e) → p.rd f = s.rd f := fun f hf => hp.rd (by rw [hf]; simp)
  refine ⟨_, hexec, ?_, ?_, ?_, ?_, ?_⟩
  · rw [State.tile_ungate, h1]
  · rw [rd_ungate_of_apart _ _ (tState_apart_of_ne rfl (by omega)), h2, hq _ rfl, htile]
  · rw [rd_ungate_of_apart _ _ (tState_apart_of_ne rfl (by omega)), h3, hq _ rfl]
  · rw [State.ungate_incs, h4, hp.incs]
    rfl
  · rw [State.ungate_cellar, h5, hp.cellar]
    rfl

theorem queueFlush_running {r : Run} (hr : ((s.tile t).eng e).run = some r) :
    ∃ u r', exec (.queueFlush src t e w) s = .next u ∧ ((u.tile t).eng e).run = some r' ∧
      r'.flush = some (((s.tile t).eng e).owned.length - 1) ∧ r'.desc = r.desc ∧
      ((u.tile t).eng e).owned = ((s.tile t).eng e).owned ∧ u.shelf = s.shelf ∧ u.cellar = s.cellar := by
  have hexec := exec_queueFlush_live (e := e) (w := w) hw hl
  have hp := onlyRegs_plainWrite (s.unheld src.unit) (tileReg t (0x30 + 4 * e)) (w ||| 0x2000000#32)
  rw [qstatWrite_flush (by simpa using h24) (by simp)] at hexec
  generalize (s.unheld src.unit).plainWrite (tileReg t (0x30 + 4 * e)) (w ||| 0x2000000#32) = p at hexec hp
  have htile : p.tile t = s.tile t := hp.tile t
  obtain ⟨r', he, hf, hd, hs, hc⟩ := flushQueue_running (s := p) (t := t) (e := e) (r := r) (by rw [htile]; exact hr)
  rw [htile] at he hf
  exact ⟨_, r', hexec, by rw [State.tile_ungate, he], hf, hd, by rw [State.tile_ungate, he], by rw [State.ungate_shelf, hs, hp.shelf]; rfl,
    by rw [State.ungate_cellar, hc, hp.cellar]; rfl⟩

end Flush

/-- Settles O10: one lemma per write and queue state. -/
theorem queueWritesMoveTheirPointers : Obligations.QueueWritesMoveTheirPointers :=
  ⟨fun _ _ _ _ _ _ hw hl hh hn => ⟨queueTailWrite_taken hw hl hh hn, queueTailWrite_overflow hw hl hh hn⟩,
    fun _ _ _ _ _ _ _ hw hl h25 hh ho => queueResume_halted hw hl h25 hh ho,
    fun _ _ _ _ _ hw hl h24 hh => ⟨queueFlush_idle hw hl h24 hh, fun _ hr => queueFlush_running hw hl h24 hr⟩⟩

end Sys2Proof.Machine
end

section
/-! SUPPORT. The start of a copy descriptor: what its reads, its checks and its arrival leave; settles O12 (R39, R45, R50 to R57, R222,
R619). -/
namespace Sys2Proof.Machine

/-! What each command is. -/

theorem exec_moverStrided (t : TileId) (s : State) : exec (.moverStrided t) s = execMoverStrided t s := rfl
theorem exec_moverGather (t : TileId) (s : State) : exec (.moverGather t) s = execMoverGather t s := rfl
theorem exec_moverScatter (t : TileId) (s : State) : exec (.moverScatter t) s = execMoverScatter t s := rfl

/-! The run of an engine. -/

@[simp] theorem Tile.setEng_setEng (x : Tile) (e : Nat) (g h : Engine) : (x.setEng e g).setEng e h = x.setEng e h := by
  unfold Tile.setEng
  split
  · rfl
  · split <;> rfl

@[simp] theorem State.setEng_setEng (s : State) (t e : Nat) (g h : Engine) : (s.setEng t e g).setEng t e h = s.setEng t e h := by
  simp [State.setEng]

/-- The engine's run, and BUSY, as a descriptor's start sets them. -/
def State.busyWith (s : State) (t e : Nat) (r : Run) : State := (s.setEng t e { (s.tile t).eng e with run := some r }).wr (qBusy t e) 1

theorem beginRun_eq (s : State) (t e : Nat) (r : Run) : s.beginRun t e r = s.busyWith t e r := rfl

theorem setRun_busyWith (s : State) (t e : Nat) (r r' : Run) : (s.busyWith t e r).setRun t e r' = s.busyWith t e r' := by
  have h : ((s.busyWith t e r).tile t).eng e = { (s.tile t).eng e with run := some r } := by
    rw [State.busyWith, State.tile_wr, State.eng_setEng_same]
  rw [State.setRun, h]
  change ((s.setEng t e _).setEng t e _).wr (qBusy t e) 1 = _
  rw [State.setEng_setEng]
  rfl

theorem endRun_busyWith (s : State) (t e : Nat) (r r' : Run) (st : Nat) :
    (s.busyWith t e r).endRun t e r' st = s.busyWith t e { r' with ended := some st } := setRun_busyWith s t e r _

section BusyWith
variable (s : State) (t e : Nat) (r : Run)

theorem eng_busyWith : ((s.busyWith t e r).tile t).eng e = { (s.tile t).eng e with run := some r } := by
  rw [State.busyWith, State.tile_wr, State.eng_setEng_same]

theorem on_qBusy_busyWith : (s.busyWith t e r).on (qBusy t e) = true := by
  rw [State.busyWith, State.on, rd_wr_same _ _ _ (by simp [qBusy])]
  rfl

theorem onlyRegs_busyWith : OnlyRegs [tileReg t (0x30 + 4 * e)] (s.setEng t e { (s.tile t).eng e with run := some r }) (s.busyWith t e r) :=
  onlyRegs_wr _ (qBusy t e) 1

theorem busyWith_shelf : (s.busyWith t e r).shelf = s.shelf := rfl
theorem busyWith_cellar : (s.busyWith t e r).cellar = s.cellar := rfl
theorem busyWith_incs : (s.busyWith t e r).incs = s.incs := rfl

end BusyWith

/-! The reads of a start (R217, R222). -/

theorem touchOnly_startRead (s : State) (t : Nat) (x : Slot) (ns : List Nat) : TouchOnly t s (s.startRead t x ns).2 :=
  List.foldlRecOn (motive := TouchOnly t s) _ _ (.refl t s) fun u hu _ _ => hu.trans (touchOnly_readHeader u t _ _)

theorem startRead_noErrors {s : State} {t : TileId} (h : NoArrayErrors s t) {x : Slot} (hx : x.bad = false) (ns : List Nat) :
    s.startRead t x ns = (false, s) := by
  have hf : ns.foldl (fun s n => s.readHeader t (0xF00 + 16 * n) 16) s = s :=
    List.foldlRecOn (motive := fun u : State => u = s) _ _ rfl fun u hu n _ => by rw [hu, readHeader_noErrors h]
  simp only [State.startRead, hx, hf, scratchPoison_noErrors h, Bool.false_or]
  simp

/-! The checks (R53, R55, R57, R619). -/

theorem checkExtents_congr {s u : State} {t : Nat} (h : u.rd (shScratch t) = s.rd (shScratch t)) (r : Run) (xs : List Extent) (o : Bool) :
    u.checkExtents t r xs o = s.checkExtents t r xs o := by
  have hx : u.extentAllowed t r = s.extentAllowed t r := funext fun x => by rw [State.extentAllowed, scratchEnd_congr h]; rfl
  rw [State.checkExtents, hx]
  rfl

/-- No check asks to wait. -/
theorem checkExtents_ne_wait {s : State} {t : Nat} {r : Run} {xs : List Extent} {o : Bool} {st : Nat} (h : s.checkExtents t r xs o = some st) :
    st ≠ stWAIT := by
  unfold State.checkExtents at h
  split at h
  · cases h; decide
  · split at h
    · cases h; decide
    · split at h
      · cases h; decide
      · cases h

/-! The start (R50 to R57). -/

/-- The run with which a copy descriptor starts. -/
def State.moverRun (s : State) (t : Nat) (x : Slot) : Run := s.newRun t x (s.lateValues t x.desc moverLate) (mBufs x.desc) s.sdNum

/-- The one transfer whose two sides may overlap in any way: a single row (R57). -/
def Run.mSingle (r : Run) : Bool := decide (mMode r.desc = 0) && decide (r.mCount1 = 1) && decide (r.mCount2 = 1)

/-- A slot or a buffer descriptor with an uncorrectable error ends the descriptor (R222). -/
theorem moverStart_poison {s : State} {t : Nat} {x : Slot} (h : (s.startRead t x (mBufs x.desc)).1 = true) :
    s.moverStart t x = (s.startRead t x (mBufs x.desc)).2.busyWith t 2 { s.moverRun t x with ended := some stENGINE } := by
  simp only [State.moverStart, h, if_true]
  exact endRun_busyWith _ _ _ _ _ _

section Start
variable {s : State} {t : TileId} {x : Slot} (hx : x.bad = false) (h0 : NoArrayErrors s t)
include hx h0

theorem moverStart_illegal (hi : (s.moverRun t x).mIllegal = true) :
    s.moverStart t x = s.busyWith t 2 { s.moverRun t x with ended := some stILLEGAL } := by
  have hi' : (s.newRun t x (s.lateValues t x.desc moverLate) (mBufs x.desc) s.sdNum).mIllegal = true := hi
  simp only [State.moverStart, startRead_noErrors h0 hx, hi', Bool.false_eq_true, if_false, if_true]
  exact endRun_busyWith _ _ _ _ _ _

section Legal
variable (hi : (s.moverRun t x).mIllegal = false) (hpos : 0 < (s.moverRun t x).mTotal) (hlt : (s.moverRun t x).mTotal < 2 ^ 40)
include hi hpos hlt

/-- A well-formed descriptor that moves bytes goes on to its checks. -/
theorem moverStart_checks : s.moverStart t x =
    match s.checkExtents t (s.moverRun t x) (s.moverRun t x).mExtents ((s.moverRun t x).mOverlap && !(s.moverRun t x).mSingle) with
    | some st => (s.busyWith t 2 (s.moverRun t x)).endRun t 2 (s.moverRun t x) st
    | none =>
      if mArrEn x.desc then
        match (s.busyWith t 2 (s.moverRun t x)).arrivalKind t (s.moverRun t x) with
        | (.error st, s1) => s1.endRun t 2 (s.moverRun t x) st
        | (.ok (k, _), s1) => s1.setRun t 2 { s.moverRun t x with destKind := k }
      else s.busyWith t 2 (s.moverRun t x) := by
  have hne : ¬ (s.moverRun t x).mTotal = 0 := by omega
  have hle : ¬ 2 ^ 40 ≤ (s.moverRun t x).mTotal := by omega
  have hc : (s.busyWith t 2 (s.moverRun t x)).rd (shScratch t) = s.rd (shScratch t) :=
    (onlyRegs_busyWith s t 2 _).rd (by simpa [shScratch] using hubReg_ne_tileReg (by decide) (by decide))
  rw [← checkExtents_congr hc]
  unfold State.moverStart
  simp only [startRead_noErrors h0 hx]
  change (if (s.moverRun t x).mIllegal = true then _ else if (s.moverRun t x).mTotal = 0 then _ else if 2 ^ 40 ≤ (s.moverRun t x).mTotal then _ else _) = _
  rw [hi, if_neg (by decide), if_neg hne, if_neg hle]
  rfl

theorem moverStart_refused {st : Nat} (hst : s.checkExtents t (s.moverRun t x) (s.moverRun t x).mExtents
      ((s.moverRun t x).mOverlap && !(s.moverRun t x).mSingle) = some st) :
    s.moverStart t x = s.busyWith t 2 { s.moverRun t x with ended := some st } := by
  rw [moverStart_checks hx h0 hi hpos hlt, hst]
  exact endRun_busyWith _ _ _ _ _ _

theorem moverStart_runs (hok : s.checkExtents t (s.moverRun t x) (s.moverRun t x).mExtents
      ((s.moverRun t x).mOverlap && !(s.moverRun t x).mSingle) = none)
    (harr : mArrEn x.desc = true → bKind ((s.moverRun t x).buf (mDstBuf x.desc)) = 1) :
    s.moverStart t x = s.busyWith t 2 { s.moverRun t x with destKind := if mArrEn x.desc then 1 else 0 } := by
  rw [moverStart_checks hx h0 hi hpos hlt, hok]
  by_cases he : mArrEn x.desc = true
  · have hk : bKind ((s.moverRun t x).buf (mDstBuf (s.moverRun t x).desc)) = 1 := harr he
    simp only [he, if_true, State.arrivalKind, hk]
    exact setRun_busyWith _ _ _ _ _
  · simp only [he]
    rfl

end Legal
end Start

/-- The three commands start the head descriptor of their mode, unless a translation of it must wait. -/
theorem exec_mover {s : State} {t : TileId} {x : Slot} {r : Run} (hs : s.startable t 2 = some x) (hop : hOp x.desc = 1)
    (hr : ((s.moverStart t x).tile t).eng2.run = some r) (hw : r.ended ≠ some stWAIT) :
    (mMode x.desc ≠ 1 ∧ mMode x.desc ≠ 2 → exec (.moverStrided t) s = .next (s.moverStart t x)) ∧
      (mMode x.desc = 1 → exec (.moverGather t) s = .next (s.moverStart t x)) ∧
      (mMode x.desc = 2 → exec (.moverScatter t) s = .next (s.moverStart t x)) := by
  have hcmd : ∀ p : BitVec 512 → Bool, p x.desc = true → s.moverCmd t p (fun s x => s.moverStart t x) = .next (s.moverStart t x) := by
    intro p hp
    simp only [State.moverCmd, hs, hp, if_true, hr, if_neg hw]
  refine ⟨fun h => ?_, fun h => ?_, fun h => ?_⟩
  · rw [exec_moverStrided, execMoverStrided, hcmd _ (by simp [hop, h])]
  · rw [exec_moverGather, execMoverGather, hcmd _ (by simp [hop, h])]
  · rw [exec_moverScatter, execMoverScatter, hcmd _ (by simp [hop, h])]

/-- The mover's run after a start. -/
theorem run_busyWith (s : State) (t : Nat) (r : Run) : ((s.busyWith t 2 r).tile t).eng2.run = some r :=
  congrArg Engine.run (eng_busyWith s t 2 r)

/-- Settles O12: a start leaves the mover busy with its run, ended where a read or a check failed. -/
theorem moverStartsAndEndsItsChecks : Obligations.MoverStartsAndEndsItsChecks := by
  rintro t s x r hs hop rfl
  refine ⟨?runs, ?poison, ?refused⟩
  case runs =>
    intro hx h0 hi hpos hlt hok harr
    have hstart := moverStart_runs hx h0 hi hpos hlt hok harr
    obtain ⟨h0', h1, h2⟩ := exec_mover hs hop (by rw [hstart]; exact run_busyWith _ _ _) (by simp [State.moverRun, State.newRun])
    refine ⟨s.moverStart t x, (s.tile t).setEng 2 { (s.tile t).eng 2 with
      run := some { s.moverRun t x with destKind := if mArrEn x.desc then 1 else 0 } }, fun h => h0' (by omega), h1, h2, ?_⟩
    rw [hstart]
    exact ⟨on_qBusy_busyWith _ _ _ _, run_busyWith _ _ _, onlyRegs_busyWith s t 2 _, rfl, rfl⟩
  case poison =>
    intro hp
    have hstart := moverStart_poison hp
    have ht := touchOnly_startRead s t x (mBufs x.desc)
    obtain ⟨h0', h1, h2⟩ := exec_mover hs hop (by rw [hstart]; exact run_busyWith _ _ _) (by simp [stENGINE, stWAIT])
    refine ⟨s.moverStart t x, h0', h1, h2, ?_⟩
    rw [hstart]
    exact ⟨run_busyWith _ _ _, ht.shelf, ht.cellar, ht.incs⟩
  case refused =>
    intro st hx h0 hst
    have hstart : s.moverStart t x = s.busyWith t 2 { s.moverRun t x with ended := some st } := by
      rcases hst with ⟨hi, rfl⟩ | ⟨hi, hpos, hlt, hc⟩
      · exact moverStart_illegal hx h0 hi
      · exact moverStart_refused hx h0 hi hpos hlt hc
    have hw : st ≠ stWAIT := by
      rcases hst with ⟨-, rfl⟩ | ⟨-, -, -, hc⟩
      · decide
      · exact checkExtents_ne_wait hc
    obtain ⟨h0', h1, h2⟩ := exec_mover hs hop (by rw [hstart]; exact run_busyWith _ _ _) (by simpa using hw)
    refine ⟨s.moverStart t x, h0', h1, h2, ?_⟩
    rw [hstart]
    exact ⟨run_busyWith _ _ _, rfl, rfl, rfl⟩

end Sys2Proof.Machine
end

section
/-! SUPPORT. Chunks of a copy: their issue from scratch, their acceptance and their failure; settles O13 (R58 to R62, R201, R588). -/
namespace Sys2Proof.Machine

/-! What each command is. -/

theorem exec_moverChunkIssue (t : TileId) (s : State) : exec (.moverChunkIssue t) s = execMoverChunkIssue t s := rfl
theorem exec_chunkArrival (t : TileId) (ok : Bool) (s : State) : exec (.chunkArrival t ok) s = execChunkArrival t ok s := rfl

/-- The mover's run as it has been set. -/
theorem run_setRun (s : State) (t : Nat) (r : Run) : ((s.setRun t 2 r).tile t).eng2.run = some r :=
  congrArg Engine.run (State.eng_setEng_same s t 2 _)

theorem run_endRun (s : State) (t : Nat) (r : Run) (st : Nat) : ((s.endRun t 2 r st).tile t).eng2.run = some { r with ended := some st } :=
  run_setRun s t _

@[simp] theorem State.setRun_shelf (s : State) (t e : Nat) (r : Run) : (s.setRun t e r).shelf = s.shelf := rfl
@[simp] theorem State.setRun_cellar (s : State) (t e : Nat) (r : Run) : (s.setRun t e r).cellar = s.cellar := rfl
@[simp] theorem State.setRun_incs (s : State) (t e : Nat) (r : Run) : (s.setRun t e r).incs = s.incs := rfl
@[simp] theorem State.endRun_shelf (s : State) (t e : Nat) (r : Run) (st : Nat) : (s.endRun t e r st).shelf = s.shelf := rfl
@[simp] theorem State.endRun_cellar (s : State) (t e : Nat) (r : Run) (st : Nat) : (s.endRun t e r st).cellar = s.cellar := rfl
@[simp] theorem State.endRun_incs (s : State) (t e : Nat) (r : Run) (st : Nat) : (s.endRun t e r st).incs = s.incs := rfl

/-! The issue of a chunk (R58). -/

/-- A SHELF buffer of a chunk is the tile's own scratch. -/
theorem chunkReach_shelf {s : State} {t : Nat} {r : Run} {b : BitVec 128} (h : bKind b = 1) (off : Nat) (wr : Bool) :
    s.chunkReach t r b off wr = (.ok (.shelf t (bBase b + off), []), s) := if_pos h

/-- The chunk that a transfer between SHELF buffers puts in flight. -/
def State.shelfChunk (s : State) (t : Nat) (r : Run) (doff n : Nat) (bs : List Byte) : Chunk :=
  ⟨r.pos, n, .shelf t (bBase (r.buf (mDstBuf r.desc)) + doff), true, bs, crc32c bs, (bBase (r.buf (mDstBuf r.desc)) + doff) / 4096, [],
    (s.crate (t / 64)).sdDone, none, none, false, none, decide (r.pos + n = r.mTotal)⟩

theorem issueChunk_shelf {s s1 : State} {t : Nat} {r : Run} {so doff n : Nat} {bs : List Byte}
    (hs : bKind (r.buf (mSrcBuf r.desc)) = 1) (hd : bKind (r.buf (mDstBuf r.desc)) = 1)
    (hr : s.scratchRead t (bBase (r.buf (mSrcBuf r.desc)) + so) n = (.ok bs, s1)) :
    s.issueChunk t r (.shelf t (bBase (r.buf (mSrcBuf r.desc)) + so)) (.shelf t (bBase (r.buf (mDstBuf r.desc)) + doff)) [] so doff n =
      .next (s1.setRun t 2 { r with pos := r.pos + n, flight := r.flight ++ [s.shelfChunk t r doff n bs] }) := by
  simp only [State.issueChunk, hs, if_true, hr, State.shelfChunk, hd]
  rfl

/-- May the mover of a tile issue the next chunk of its run (R58, R61)? -/
structure MayIssue (s : State) (t : TileId) (r : Run) : Prop where
  run : (s.tile t).eng2.run = some r
  ended : r.ended = none
  stop : r.stop = none
  flush : r.flush = none
  left : r.pos < r.mTotal
  sound : ∀ c ∈ r.flight, c.fail = none
  copy : hOp r.desc = 1
  live : s.tileLive t = true

theorem exec_moverChunkIssue_shelf {s s1 : State} {t : TileId} {r : Run} {bs : List Byte} (hm : MayIssue s t r) (h0 : mMode r.desc = 0)
    (hs : bKind (r.buf (mSrcBuf r.desc)) = 1) (hd : bKind (r.buf (mDstBuf r.desc)) = 1) (ha : mArrEn r.desc = true → r.destKind = 1)
    (hr : s.scratchRead t (bBase (r.buf (mSrcBuf r.desc)) + (r.mCut r.idx).1) (r.mCut r.idx).2.2 = (.ok bs, s1)) :
    exec (.moverChunkIssue t) s = .next (s1.setRun t 2 { r with
      pos := r.pos + (r.mCut r.idx).2.2, flight := r.flight ++ [s.shelfChunk t r (r.mCut r.idx).2.1 (r.mCut r.idx).2.2 bs] }) := by
  have hfail : (r.flight.any fun c => c.fail.isSome) = false := by
    rw [List.any_eq_false]
    intro c hc
    simp [hm.sound c hc]
  have hgo : (r.ended.isSome || r.stop.isSome || r.flush.isSome || decide (r.mTotal ≤ r.pos) || decide (hOp r.desc ≠ 1)
      || (r.flight.any fun c => c.fail.isSome) || !s.tileLive t) = false := by
    have hleft := hm.left
    simp only [hm.ended, hm.stop, hm.flush, hm.copy, hfail, hm.live]
    simpa using hleft
  have harr : ¬ (mArrEn r.desc = true ∧ (Place.shelf t (bBase (r.buf (mDstBuf r.desc)) + (r.mCut r.idx).2.1)).kind ≠ r.destKind) :=
    fun ⟨h1, h2⟩ => h2 (ha h1).symm
  rw [exec_moverChunkIssue, execMoverChunkIssue, hm.run]
  simp only [hgo, Bool.false_eq_true, if_false, h0, ne_eq, not_true_eq_false, false_and, chunkReach_shelf hs, chunkReach_shelf hd, if_neg harr]
  exact issueChunk_shelf hs hd hr

/-! The acceptance of a chunk (R40, R61, R62, R588). -/

/-- An arrival increment is all that the end of a transfer sends. -/
theorem arrive_memory (s : State) (t : Nat) (r : Run) : (s.arrive t r).shelf = s.shelf ∧ (s.arrive t r).cellar = s.cellar := by
  unfold State.arrive
  split
  · split <;> exact ⟨rfl, rfl⟩
  · exact ⟨rfl, rfl⟩

/-- A transfer all of whose chunks were sound goes on without the accepted chunk, or ends. -/
theorem acceptChunk_sound (s : State) (t : Nat) (r : Run) (c : Chunk) (hb : r.bad = false) :
    ∃ r', ((s.acceptChunk t r c).tile t).eng2.run = some r' ∧ r'.flight = r.flight.drop 1 ∧ r'.done = r.done + c.len ∧
      r'.crc = crc32cUpd r.crc c.data ∧ (c.last = true → r'.ended = some stDONE) ∧ (s.acceptChunk t r c).shelf = s.shelf ∧
      (s.acceptChunk t r c).cellar = s.cellar := by
  unfold State.acceptChunk
  extract_lets rest r1
  have hbad : (c.last && r1.bad) = false := by
    have : r1.bad = false := hb
    rw [this, Bool.and_false]
  rw [hbad, if_neg (by decide)]
  by_cases hl : c.last = true
  · rw [if_pos hl]
    have hm := arrive_memory s t r1
    exact ⟨_, run_endRun _ _ _ _, rfl, rfl, rfl, fun _ => rfl, hm.1, hm.2⟩
  · rw [if_neg hl]
    split
    · split
      · exact ⟨_, run_endRun _ _ _ _, rfl, rfl, rfl, fun h => absurd h hl, rfl, rfl⟩
      · split
        · exact ⟨_, run_endRun _ _ _ _, rfl, rfl, rfl, fun h => absurd h hl, rfl, rfl⟩
        · exact ⟨_, run_setRun _ _ _, rfl, rfl, rfl, fun h => absurd h hl, rfl, rfl⟩
    · exact ⟨_, run_setRun _ _ _, rfl, rfl, rfl, fun h => absurd h hl, rfl, rfl⟩

/-- One with a corrupt chunk goes on too, but its last chunk ends it with CRC and no increment. -/
theorem acceptChunk_corrupt (s : State) (t : Nat) (r : Run) (c : Chunk) (hb : r.bad = true) :
    ∃ r', ((s.acceptChunk t r c).tile t).eng2.run = some r' ∧ r'.bad = true ∧ (s.acceptChunk t r c).incs = s.incs ∧
      (c.last = true → r'.ended = some stCRC ∧ r'.done = 0) ∧
      (c.last = false → r'.flight = r.flight.drop 1 ∧ r'.done = r.done + c.len) := by
  unfold State.acceptChunk
  extract_lets rest r1
  have hb1 : r1.bad = true := hb
  by_cases hl : c.last = true
  · rw [if_pos (by rw [hl, hb1]; rfl)]
    exact ⟨_, run_endRun _ _ _ _, hb1, rfl, fun _ => ⟨rfl, rfl⟩, fun h => absurd hl (by rw [h]; decide)⟩
  · have hl' : c.last = false := by simpa using hl
    rw [if_neg (by rw [hl', Bool.false_and]; decide), if_neg hl]
    split
    · split
      · exact ⟨_, run_endRun _ _ _ _, hb1, rfl, fun h => absurd h hl, fun _ => ⟨rfl, rfl⟩⟩
      · split
        · exact ⟨_, run_endRun _ _ _ _, hb1, rfl, fun h => absurd h hl, fun _ => ⟨rfl, rfl⟩⟩
        · exact ⟨_, run_setRun _ _ _, hb1, rfl, fun h => absurd h hl, fun _ => ⟨rfl, rfl⟩⟩
    · exact ⟨_, run_setRun _ _ _, hb1, rfl, fun h => absurd h hl, fun _ => ⟨rfl, rfl⟩⟩

/-! Chunks for shelves send no increment. -/

theorem incs_shelfStatus (s : State) (u : Nat) : (s.shelfStatus u).2.incs = s.incs := by
  have harouse : ∀ d, (s.arouse d).incs = s.incs := fun d => by
    unfold State.arouse
    split
    · exact State.wr_incs _ _ _
    · rfl
  unfold State.shelfStatus
  split
  · rfl
  · split
    · rfl
    · extract_lets a
      split
      · exact harouse _
      · rw [State.ungate_incs]
        exact harouse _

theorem incs_apertureWrite (s : State) (u off : Nat) (bs : List Byte) : (s.apertureWrite u off bs).2.incs = s.incs := by
  have h := incs_shelfStatus s u
  unfold State.apertureWrite
  extract_lets r s1 b
  split
  · exact h
  · split
    · exact h
    · split
      · rw [(arrayOnly_scratchWrite _ _ _ _).incs]
        exact h
      · rw [(arrayOnly_scratchWrite _ _ _ _).incs]
        exact h

theorem incs_landChunk_shelf (s : State) (t : Nat) {c : Chunk} {v o : Nat} (h : c.dst = .shelf v o) : (s.landChunk t c).2.incs = s.incs := by
  simp only [State.landChunk, h]
  split
  · exact (arrayOnly_scratchWrite _ _ _ _).incs
  · exact incs_apertureWrite _ _ _ _

theorem incs_landFree_shelf (s : State) (t : Nat) {c : Chunk} {v o : Nat} (h : c.dst = .shelf v o) : (s.landFree t c).incs = s.incs := by
  simp only [State.landFree, h]
  refine List.foldlRecOn (motive := fun u : State => u.incs = s.incs) _ _ rfl fun u hu i _ => ?_
  rw [incs_landChunk_shelf u t (v := v) (o := o + i) rfl]
  exact hu

theorem incs_freeWindow (s : State) (c : Chunk) : (s.freeWindow c).incs = s.incs := by
  unfold State.freeWindow
  split
  · split <;> rfl
  · rfl

/-- The failure of a transfer whose chunks all go to shelves. -/
theorem failChunk_shelves (s : State) (t : Nat) (r : Run) (st : Nat) (h : ∀ x ∈ r.flight, ∃ v o, x.dst = .shelf v o) :
    ((s.failChunk t r st true).tile t).eng2.run = some { r with flight := [], ended := some st } ∧ (s.failChunk t r st true).incs = s.incs := by
  refine ⟨run_endRun _ _ _ _, ?_⟩
  have hland : ∀ (xs : List Chunk) (u : State), (∀ x ∈ xs, ∃ v o, x.dst = .shelf v o) → u.incs = s.incs →
      (xs.foldl (fun s c => if c.win.isSome then s else s.landFree t c) u).incs = s.incs := fun xs u hx hu =>
    List.foldlRecOn (motive := fun u : State => u.incs = s.incs) _ _ hu fun u hu x hxm => by
      obtain ⟨v, o, hd⟩ := hx x hxm
      split
      · exact hu
      · rw [incs_landFree_shelf u t hd, hu]
  have hfree : ∀ (xs : List Chunk) (u : State), u.incs = s.incs → (xs.foldl State.freeWindow u).incs = s.incs := fun xs u hu =>
    List.foldlRecOn (motive := fun u : State => u.incs = s.incs) _ _ hu fun u hu x _ => by rw [incs_freeWindow, hu]
  exact hfree _ _ (hland _ _ h rfl)

/-! The arrival of a chunk. -/

/-- The oldest chunk in flight of a running copy has reached the tile's own scratch, unharmed so far. -/
structure Landing (s : State) (t : TileId) (r : Run) (c : Chunk) (rest : List Chunk) (off : Nat) : Prop where
  run : (s.tile t).eng2.run = some r
  ended : r.ended = none
  flight : r.flight = c :: rest
  unsent : c.unsent = false
  waitTag : c.waitTag = none
  fail : c.fail = none
  win : c.win = none
  dst : c.dst = .shelf t off
  own : c.own = true

section Landing
variable {s : State} {t : TileId} {r : Run} {c : Chunk} {rest : List Chunk} {off : Nat} (h : Landing s t r c rest off)
include h

theorem exec_chunkArrival_sound :
    exec (.chunkArrival t true) s = .next ((s.scratchWrite t off c.data).acceptChunk t r c) := by
  have hland : s.landChunk t c = (0, s.scratchWrite t off c.data) := by simp only [State.landChunk, h.dst, h.own, if_true]
  rw [exec_chunkArrival, execChunkArrival, h.run]
  simp [h.ended, h.flight, h.unsent, h.waitTag, h.fail, h.win, hland]

theorem exec_chunkArrival_throughput (ht : s.throughput = true) :
    exec (.chunkArrival t false) s = .next ((s.landFree t c).acceptChunk t { r with bad := true } c) := by
  rw [exec_chunkArrival, execChunkArrival, h.run]
  simp [h.ended, h.flight, h.unsent, h.waitTag, h.fail, h.win, h.dst, ht, Place.inPackage]

theorem exec_chunkArrival_failed (ht : s.throughput = false) :
    exec (.chunkArrival t false) s = .next (s.failChunk t r stCRC true) := by
  rw [exec_chunkArrival, execChunkArrival, h.run]
  simp [h.ended, h.flight, h.unsent, h.waitTag, h.fail, h.win, ht]

end Landing

/-- Settles O13: a chunk's bytes go into flight as they are read, and from there to scratch as they are. -/
theorem moverChunksCarryTheirBytes : Obligations.MoverChunksCarryTheirBytes := by
  refine ⟨?issue, ?arrive⟩
  case issue =>
    intro t s s1 r bs hrun hended hstop hflush hleft hsound hcopy hlive h0 hs hd ha hr
    have ht := touchOnly_scratchRead s t (bBase (r.buf (mSrcBuf r.desc)) + (r.mCut r.idx).1) (r.mCut r.idx).2.2
    rw [hr] at ht
    exact ⟨_, s.shelfChunk t r (r.mCut r.idx).2.1 (r.mCut r.idx).2.2 bs,
      exec_moverChunkIssue_shelf ⟨hrun, hended, hstop, hflush, hleft, hsound, hcopy, hlive⟩ h0 hs hd ha hr, run_setRun _ _ _, rfl, rfl, rfl,
      rfl, rfl, rfl, ht.shelf, ht.cellar⟩
  case arrive =>
    intro t s r c rest off hrun hended hflight hunsent htag hfail hwin hdst hown hlen hbad
    have hland : Landing s t r c rest off := ⟨hrun, hended, hflight, hunsent, htag, hfail, hwin, hdst, hown⟩
    refine ⟨?sound, fun ht => ?_, fun ht hrest => ?_⟩
    case sound =>
      obtain ⟨r', hr', hf, hdone, hcrc, hlast, hshelf, hcellar⟩ := acceptChunk_sound (s.scratchWrite t off c.data) t r c hbad
      refine ⟨_, r', exec_chunkArrival_sound hland, hr', by rw [hf, hflight]; rfl, hdone, hcrc, hlast, fun i k hi hk => ?_, fun k hk => ?_, ?_⟩
      · have hi' : i < c.data.length := by omega
        rw [hshelf, readByte_scratchWrite_same hi' hk, List.getD_eq_getElem _ _ hi']
      · rw [hshelf, readByte_scratchWrite_other fun i hi => hk i (by omega)]
      · rw [hcellar, (arrayOnly_scratchWrite _ _ _ _).cellar]
    · obtain ⟨r', hr', hb, hincs, hlast, hmore⟩ := acceptChunk_corrupt (s.landFree t c) t { r with bad := true } c rfl
      refine ⟨_, r', exec_chunkArrival_throughput hland ht, hr', hb, by rw [hincs, incs_landFree_shelf s t hdst], hlast, fun hl => ?_⟩
      obtain ⟨hf, hdone⟩ := hmore hl
      exact ⟨hf.trans (by rw [hflight]; rfl), hdone⟩
    · have hall : ∀ x ∈ r.flight, ∃ v o, x.dst = .shelf v o := by
        rw [hflight]
        rintro x (_ | ⟨_, hx⟩)
        · exact ⟨_, _, hdst⟩
        · exact hrest x hx
      obtain ⟨hr', hincs⟩ := failChunk_shelves s t r stCRC hall
      exact ⟨_, _, exec_chunkArrival_failed hland ht, hr', rfl, rfl, hincs⟩

end Sys2Proof.Machine
end

section
/-! SUPPORT. The fetching requests of Table 9.2 on a plain line: their record, the line's preparation, the new value, and the result in the
requester's scratch; settles O29 (R72, R256, R257, R613). -/
namespace Sys2Proof.Machine

/-- The nine commands are one request with their FOP values. -/
theorem exec_of_mem_fetchRows {p : Nat × (TileId → Nat → BitVec 256 → Instr)} (hp : p ∈ fetchRows) :
    p.1 ≤ 8 ∧ ∀ t a r s, exec (p.2 t a r) s = s.fetchCmd t a r p.1 := by
  simp only [fetchRows, List.mem_cons, List.not_mem_nil, or_false] at hp
  obtain rfl | rfl | rfl | rfl | rfl | rfl | rfl | rfl | rfl := hp <;> exact ⟨by decide, fun _ _ _ _ => rfl⟩

/-! The record with its FOP set. -/

theorem bitsAt_mod_two_pow (n : Nat) {k lo w : Nat} (h : lo + w ≤ k) : bitsAt (n % 2 ^ k) lo w = bitsAt n lo w := by
  simp only [bitsAt]
  rw [← Nat.mod_mul_right_div_self, ← Nat.mod_mul_right_div_self, ← Nat.pow_add, Nat.mod_mod_of_dvd _ (pow_dvd_pow 2 h)]

section WithFop
variable (r : BitVec 256) (f : Nat)

theorem bitsAt_withFop_apart {lo w : Nat} (h : lo + w ≤ 176 ∨ 184 ≤ lo ∧ lo + w ≤ 256) :
    bitsAt (withFop r f).toNat lo w = bitsAt r.toNat lo w := by
  rw [withFop, BitVec.toNat_ofNat, bitsAt_mod_two_pow _ (by omega)]
  obtain hlo | ⟨hhi, -⟩ := h
  · exact bitsAt_setBits_below _ _ _ _ _ _ hlo
  · exact bitsAt_setBits_above _ _ _ _ _ _ hhi

theorem frFop_withFop : frFop (withFop r f) = f % 2 ^ 8 := by
  rw [frFop, withFop, BitVec.toNat_ofNat, bitsAt_mod_two_pow _ (by decide), bitsAt_setBits_same]

@[simp] theorem frOperand_withFop : frOperand (withFop r f) = frOperand r := bitsAt_withFop_apart r f (by decide)
@[simp] theorem frCompare_withFop : frCompare (withFop r f) = frCompare r := bitsAt_withFop_apart r f (by decide)
@[simp] theorem frRetOff_withFop : frRetOff (withFop r f) = frRetOff r := bitsAt_withFop_apart r f (by decide)
@[simp] theorem frRetTally_withFop : frRetTally (withFop r f) = frRetTally r := bitsAt_withFop_apart r f (by decide)
@[simp] theorem frSize_withFop : frSize (withFop r f) = frSize r := bitsAt_withFop_apart r f (by decide)
@[simp] theorem frRsv_withFop : frRsv (withFop r f) = frRsv r := bitsAt_withFop_apart r f (by decide)

end WithFop

/-! The line at its home. -/

theorem reg_setHamper_other (s : State) (h : Nat) (es : List HEntry) {a : Nat} (ha : a ≠ cel (h / 2) 0x14) :
    (s.setHamper h es).reg a = s.reg a := reg_wr_other (f := hamperUsed h) _ _ ha

theorem rd_setHamper_other (s : State) (h : Nat) (es : List HEntry) {f : Fld} (hf : f.a ≠ cel (h / 2) 0x14) :
    (s.setHamper h es).rd f = s.rd f := by
  rw [State.rd, reg_setHamper_other s h es hf]; rfl

/-- Home `h` writes value `v` to the `n` bytes at `a`; its hamper keeps its entries. -/
def State.putWord (s : State) (h a n v : Nat) : State := { s.setHamper h (s.hamper h) with cellar := writeBytes s.cellar a (toBytes n v) }

@[simp] theorem State.putWord_cellar (s : State) (h a n v : Nat) : (s.putWord h a n v).cellar = writeBytes s.cellar a (toBytes n v) := rfl
@[simp] theorem State.putWord_shelf (s : State) (h a n v : Nat) : (s.putWord h a n v).shelf = s.shelf := rfl
@[simp] theorem State.putWord_incs (s : State) (h a n v : Nat) : (s.putWord h a n v).incs = s.incs := rfl

section Plain
variable {s : State} {l : Loc} {a : Nat} (h : PlainLine s l a)
include h

theorem plainLine_notBusy : s.writeBusy l (a / 128) [0, 1] = false := by
  rw [State.writeBusy, h.free, h.unrepaired, State.clearWaits, h.uncached]; rfl

theorem plainLine_clearCopies (full : Bool) : s.clearCopies l (a / 128) full = s := by rw [State.clearCopies, h.uncached]

/-- No entry leaves the hamper: only its count is written again. -/
theorem plainLine_flushLine : s.flushLine l.home (a / 128) = s.setHamper l.home (s.hamper l.home) := by
  have hnone : (s.hamper l.home).filter (fun e => decide (e.line = a / 128)) = [] :=
    List.filter_eq_nil_iff.2 fun e he => by simpa using h.unbuffered e he
  have hall : (s.hamper l.home).filter (fun e => !decide (e.line = a / 128)) = s.hamper l.home :=
    List.filter_eq_self.2 fun e he => by simpa using h.unbuffered e he
  rw [State.flushLine, State.flushHamper, hnone, hall]; rfl

/-- Both bursts of the line read without error. -/
theorem plainLine_readBurst {b : Nat} (hb : b / 2 = a / 128) (pc : Nat) :
    (s.setHamper l.home (s.hamper l.home)).readBurst { l with pc := pc } b = (false, s.setHamper l.home (s.hamper l.home)) := by
  obtain ⟨herr, hpoison⟩ := h.clean b hb
  have hoff : (celOffline l.stack l.ch).a ≠ cel (l.home / 2) 0x14 := by simp only [celOffline, cel]; omega
  have huse : (s.setHamper l.home (s.hamper l.home)).isRetired { l with pc := pc } = false := by
    rw [State.isRetired, State.on, rd_setHamper_other s _ _ hoff]; exact h.inUse
  have hp : (s.setHamper l.home (s.hamper l.home)).isPoison b = false := hpoison
  have he : lookMap 0 (s.setHamper l.home (s.hamper l.home)).symErr b = 0 := herr
  rw [State.readBurst, huse, hp, he]; rfl

theorem plainLine_prepLine : (s.prepLine l (a / 128)).2 = s.setHamper l.home (s.hamper l.home) ∧
    ∀ pc, (s.prepLine l (a / 128)).1 pc = false := by
  simp only [State.prepLine, plainLine_clearCopies h, plainLine_flushLine h, plainLine_readBurst h (b := 2 * (a / 128)) (by omega),
    plainLine_readBurst h (b := 2 * (a / 128) + 1) (by omega), ite_self, and_self, implies_true]

/-- The target word is read, and the new value written, in the cellar alone. -/
theorem plainLine_fetchWord {n size : Nat} (hn : n = if size = 0 then 4 else 8) (fop v cmp : Nat) :
    s.fetchWord l a fop size v cmp = (0, ofBytes (readBytes s.cellar a n),
      s.putWord l.home a n (fetchValue fop size (ofBytes (readBytes s.cellar a n)) v cmp)) := by
  obtain ⟨hstate, hclean⟩ := plainLine_prepLine h
  have hcell : (s.setHamper l.home (s.hamper l.home)).cellar = s.cellar := rfl
  simp only [State.fetchWord, h.inUse, hclean, hstate, hcell, ← hn, Bool.false_eq_true, if_false, State.putWord]

end Plain

/-! The new value. -/

theorem ofBytes_lt (bs : List Byte) : ofBytes bs < 256 ^ bs.length := by
  induction bs with
  | nil => decide
  | cons b bs ih =>
    have hb := b.isLt
    rw [ofBytes, List.length_cons, Nat.pow_succ]
    omega

theorem ofBytes_readBytes_lt (m : List Host.Cell) (a n : Nat) : ofBytes (readBytes m a n) < 2 ^ (8 * n) := by
  have h := ofBytes_lt (readBytes m a n)
  rwa [length_readBytes, show 256 = 2 ^ 8 by rfl, ← Nat.pow_mul] at h

theorem signedOf_eq_toInt (w n : Nat) : signedOf w n = (BitVec.ofNat w n).toInt := by
  rw [BitVec.toInt_eq_toNat_cond, BitVec.toNat_ofNat]; rfl

theorem signedOf_mod (w n : Nat) : signedOf w (n % 2 ^ w) = signedOf w n := by simp only [signedOf, Nat.mod_mod]

theorem signedOf_lt_iff (w x y : Nat) : signedOf w x < signedOf w y ↔ (BitVec.ofNat w x).slt (BitVec.ofNat w y) = true := by
  rw [signedOf_eq_toInt, signedOf_eq_toInt, BitVec.slt_iff_toInt_lt]

section Value
variable {fop size old n : Nat} (v cmp : Nat) (hn : n = if size = 0 then 4 else 8)
include hn

theorem width_of_size : (if size = 0 then 32 else 64) = 8 * n := by rw [hn]; split <;> rfl

/-- The integer results fit the target word. -/
theorem fetchValue_lt (hf : fop ≠ 3) (hold : old < 2 ^ (8 * n)) : fetchValue fop size old v cmp < 2 ^ (8 * n) := by
  have hv : v % 2 ^ (8 * n) < 2 ^ (8 * n) := Nat.mod_lt _ (Nat.two_pow_pos _)
  unfold fetchValue
  rw [width_of_size hn]
  extract_lets f v'
  split
  · exact hv
  · split <;> assumption
  · exact Nat.mod_lt _ (Nat.two_pow_pos _)
  · exact absurd rfl hf
  · split <;> assumption
  · split <;> assumption
  · exact Nat.and_lt_two_pow _ hv
  · exact Nat.or_lt_two_pow hold hv
  · exact Nat.xor_lt_two_pow hold hv

theorem fetchValue_swap : fetchValue 0 size old v cmp = v % 2 ^ (8 * n) := by simp only [fetchValue, width_of_size hn]
theorem fetchValue_cas : fetchValue 1 size old v cmp = if old = cmp % 2 ^ (8 * n) then v % 2 ^ (8 * n) else old := by
  simp only [fetchValue, width_of_size hn]
theorem fetchValue_add : fetchValue 2 size old v cmp = (old + v) % 2 ^ (8 * n) := by simp only [fetchValue, width_of_size hn, Nat.add_mod_mod]
theorem fetchValue_min : fetchValue 4 size old v cmp =
    if (BitVec.ofNat (8 * n) v).slt (BitVec.ofNat (8 * n) old) then v % 2 ^ (8 * n) else old := by
  simp only [fetchValue, width_of_size hn, signedOf_mod, signedOf_lt_iff]
theorem fetchValue_max : fetchValue 5 size old v cmp =
    if (BitVec.ofNat (8 * n) old).slt (BitVec.ofNat (8 * n) v) then v % 2 ^ (8 * n) else old := by
  simp only [fetchValue, width_of_size hn, signedOf_mod, signedOf_lt_iff]
theorem fetchValue_and : fetchValue 6 size old v cmp = Nat.land old (v % 2 ^ (8 * n)) := by simp only [fetchValue, width_of_size hn]
theorem fetchValue_or : fetchValue 7 size old v cmp = Nat.lor old (v % 2 ^ (8 * n)) := by simp only [fetchValue, width_of_size hn]
theorem fetchValue_xor : fetchValue 8 size old v cmp = Nat.xor old (v % 2 ^ (8 * n)) := by simp only [fetchValue, width_of_size hn]

end Value

/-! The result in the requester's scratch (R70, R72, R613). -/

theorem onlyRegs_arouse (s : State) (d : Nat) : OnlyRegs [crateReg (d - 64) 0] s (s.arouse d) := by
  unfold State.arouse
  split
  · exact onlyRegs_wr s (crateStopped (d - 64)) 0
  · exact OnlyRegs.refl _ _

/-- The requester's scratch takes the result of 16 bytes, and nothing else of it, of the cellar or of the increments changes. -/
theorem fetchResult_within {s : State} {t off old st : Nat} (ht : s.tileOn t = true) (ho : off + 16 ≤ min 0x30000 (s.scratchEnd t)) :
    (s.fetchResult t off old st).cellar = s.cellar ∧ (s.fetchResult t off old st).incs = s.incs ∧
    (∀ i k, i < 16 → s.scratchKey t (off + i) = some k →
      some (readByte (s.fetchResult t off old st).shelf k) = (toBytes 8 old ++ toBytes 8 st)[i]?) ∧
    ∀ k, (∀ i < 16, s.scratchKey t (off + i) ≠ some k) → readByte (s.fetchResult t off old st).shelf k = readByte s.shelf k := by
  have hawake := onlyRegs_arouse s (64 + t / 64)
  have hgate := onlyRegs_ungate (s.arouse (64 + t / 64)) t
  have hscratch : ((s.arouse (64 + t / 64)).ungate t).rd (shScratch t) = s.rd (shScratch t) := by
    rw [hgate.rd (by simpa [shScratch] using hubReg_ne_tileReg (by decide) (by decide)),
      hawake.rd (by simpa [shScratch] using hubReg_ne_crateReg (by decide) (by decide))]
  have hres : s.fetchResult t off old st =
      ((s.arouse (64 + t / 64)).ungate t).scratchWrite t off (toBytes 8 old ++ toBytes 8 st) := by
    simp only [State.fetchResult, ht, Bool.not_true, Bool.false_eq_true, if_false, scratchEnd_congr hscratch, if_pos ho]
  have hlen : (toBytes 8 old ++ toBytes 8 st).length = 16 := rfl
  have hkey := scratchKey_congr (t := t) hscratch
  have hshelf : ((s.arouse (64 + t / 64)).ungate t).shelf = s.shelf := by rw [State.ungate_shelf, hawake.shelf]
  rw [hres]
  refine ⟨?_, ?_, fun i k hi hk => ?_, fun k hk => ?_⟩
  · rw [(arrayOnly_scratchWrite _ _ _ _).cellar, State.ungate_cellar, hawake.cellar]
  · rw [(arrayOnly_scratchWrite _ _ _ _).incs, State.ungate_incs, hawake.incs]
  · have hi' : i < (toBytes 8 old ++ toBytes 8 st).length := hlen ▸ hi
    rw [readByte_scratchWrite_same hi' ((hkey _).trans hk), List.getElem?_eq_getElem hi']
  · rw [readByte_scratchWrite_other fun i hi => by rw [hkey]; exact hk i (hlen ▸ hi), hshelf]

/-- An address of levels 0 and 1 is incremented by one. -/
theorem retTally_sent {tally : Nat} (h : bitsAt tally 14 2 < 2) (s : State) (t : Nat) :
    s.retTally t tally = { s with incs := s.incs ++ [⟨tally, some t, 1, 4, t, t / 6144⟩] } := if_pos h

/-! The request at its home. -/

section Request
variable {s : State} {l : Loc} {a t fop n : Nat} {r : BitVec 256} (h : PlainLine s l a) (hn : n = if frSize r = 0 then 4 else 8)
  (hf : fop ≤ 8) (hw : s.resultWaits t = false)
include h hn hf hw

theorem fetchCmd_plain : s.fetchCmd t a r fop = .next
    (if frRetOff r % 16 ≠ 0 ∨ frRetOff r < 0x1000 then (s.raise 0x0400 6 l.home []).retTally t (frRetTally r)
    else if 1 < frSize r ∨ frRsv r ≠ 0 ∨ a % n ≠ 0 then (s.fetchResult t (frRetOff r) 0 2).retTally t (frRetTally r)
    else ((s.putWord l.home a n (fetchValue fop (frSize r) (ofBytes (readBytes s.cellar a n)) (frOperand r) (frCompare r))).fetchResult t
      (frRetOff r) (ofBytes (readBytes s.cellar a n)) 0).retTally t (frRetTally r)) := by
  have hfop : fop % 2 ^ 8 = fop := Nat.mod_eq_of_lt (by omega)
  have hle : ¬ 8 < fop := by omega
  simp only [State.fetchCmd, State.homeFetch, h.place, h.serves, plainLine_notBusy h, hw, frFop_withFop, frRetOff_withFop, frRetTally_withFop,
    frSize_withFop, frRsv_withFop, frOperand_withFop, frCompare_withFop, hfop, hle, plainLine_clearCopies h, plainLine_fetchWord h hn, ← hn, false_or,
    Bool.false_eq_true, if_false, ne_eq, not_true_eq_false]
  split
  · rfl
  · split <;> rfl

end Request

/-- The home's write leaves the requester's quadrant and its locked ways as they are. -/
theorem requester_putWord (s : State) (t : TileId) (h a n v : Nat) :
    (s.putWord h a n v).tileOn t = s.tileOn t ∧ (s.putWord h a n v).rd (shScratch t) = s.rd (shScratch t) := by
  have ht := t.isLt
  have hdom : (domState (quadOfCrate (t / 64))).a ≠ cel (h / 2) 0x14 := by
    simp only [domState, quadOfCrate, cel]
    split <;> split <;> omega
  have hway : (shScratch t).a ≠ cel (h / 2) 0x14 := by simp only [shScratch, hubReg, crateReg, cel]; omega
  refine ⟨?_, rd_setHamper_other s h _ hway⟩
  have hd : (s.putWord h a n v).rd (domState (quadOfCrate (t / 64))) = s.rd (domState (quadOfCrate (t / 64))) :=
    rd_setHamper_other s h _ hdom
  simp only [State.tileOn, State.crateOn, State.domOn, hd]

/-- Settles O29, by the line's preparation, the value written and the 16 bytes of the result. -/
theorem fetchingRequestsAnswerTheOldValue : Obligations.FetchingRequestsAnswerTheOldValue := by
  unfold Obligations.FetchingRequestsAnswerTheOldValue
  intro p hp t a r s l n h htally hn hw
  obtain ⟨hf, hexec⟩ := exec_of_mem_fetchRows hp
  rw [hexec, fetchCmd_plain h hn hf hw]
  refine ⟨fun ht ho16 holo hoend => ?_, fun hbad => ?_⟩
  · rw [if_neg (by omega : ¬ (frRetOff r % 16 ≠ 0 ∨ frRetOff r < 0x1000))]
    refine ⟨fun hsize hrsv halign => ?_, fun hrec => ?_⟩
    · rw [if_neg (by omega), retTally_sent htally]
      generalize hold : ofBytes (readBytes s.cellar a n) = old
      have holdlt : old < 2 ^ (8 * n) := hold ▸ ofBytes_readBytes_lt _ _ _
      generalize hval : fetchValue p.1 (frSize r) old (frOperand r) (frCompare r) = val
      have hlen : (toBytes n val).length = n := length_toBytes n val
      obtain ⟨hon, hways⟩ := requester_putWord s t l.home a n val
      obtain ⟨hcellar, hincs, hin, hout⟩ := fetchResult_within (old := old) (st := 0) (hon.trans ht)
        (by rw [scratchEnd_congr hways]; exact hoend)
      have hkey := scratchKey_congr (t := t) hways
      have hnew : p.1 ≠ 3 → ofBytes (readBytes (writeBytes s.cellar a (toBytes n val)) a n) = val := fun h3 => by
        have hsame := readBytes_writeBytes_same s.cellar a (toBytes n val)
        have hlt : val < 2 ^ (8 * n) := hval ▸ fetchValue_lt _ _ hn h3 holdlt
        rw [hlen] at hsame
        rw [hsame, ofBytes_toBytes, show 256 = 2 ^ 8 by rfl, ← Nat.pow_mul, Nat.mod_eq_of_lt hlt]
      have hrow : ∀ k ≠ 3, p.1 = k → ofBytes (readBytes (writeBytes s.cellar a (toBytes n val)) a n) =
          fetchValue k (frSize r) old (frOperand r) (frCompare r) := fun k h3 hk => by rw [hnew (hk ▸ h3), ← hval, hk]
      refine ⟨_, old, ofBytes (readBytes (writeBytes s.cellar a (toBytes n val)) a n), rfl, rfl, congrArg (fun m => ofBytes (readBytes m a n)) hcellar.symm, ?_, fun x hx => ?_,
        fun i k hi hk => hin i k hi ((hkey _).trans hk), fun k hk => hout k fun i hi => by rw [hkey]; exact hk i hi,
        fun hk => (hrow 0 (by decide) hk).trans (fetchValue_swap _ _ hn), fun hk => (hrow 1 (by decide) hk).trans (fetchValue_cas _ _ hn),
        fun hk => (hrow 2 (by decide) hk).trans (fetchValue_add _ _ hn), fun hk => (hrow 4 (by decide) hk).trans (fetchValue_min _ _ hn),
        fun hk => (hrow 5 (by decide) hk).trans (fetchValue_max _ _ hn), fun hk => (hrow 6 (by decide) hk).trans (fetchValue_and _ _ hn),
        fun hk => (hrow 7 (by decide) hk).trans (fetchValue_or _ _ hn), fun hk => (hrow 8 (by decide) hk).trans (fetchValue_xor _ _ hn)⟩
      · exact congrArg (· ++ _) hincs
      · refine (congrArg (readByte · x) hcellar).trans (readByte_writeBytes_other _ _ _ _ ?_)
        rw [hlen]; exact hx
    · rw [if_pos hrec, retTally_sent htally]
      obtain ⟨hcellar, hincs, hin, -⟩ := fetchResult_within (old := 0) (st := 2) ht hoend
      exact ⟨_, rfl, hcellar, congrArg (· ++ _) hincs, hin⟩
  · rw [if_pos hbad, retTally_sent htally]
    obtain ⟨f, hg, hcode, -⟩ := State.raise_gathered s 0x0400 6 l.home []
    exact ⟨_, f, rfl, rfl, rfl, hg, hcode⟩

end Sys2Proof.Machine
end

section
/-! SUPPORT. The shelf aperture: the access that starts a clock and ungates a tile, its writes and its reads (R36, R72, R299). -/
namespace Sys2Proof.Machine

theorem exec_shelfApertureAccess (u : TileId) (off : Nat) (write : Option (List Byte)) (n : Nat) (s : State) :
    exec (.shelfApertureAccess u off write n) s = execShelfApertureAccess u off write n s := rfl

/-! Reads of an array without errors. -/

section NoErrors
variable {s : State} {t : TileId} (h : NoArrayErrors s t)
include h

theorem scratchRun_noErrors {o n k : Nat} (hk : s.scratchKey t o = some k) : s.scratchRun t o n = (.ok (readBytes s.shelf k n), s) := by
  simp only [State.scratchRun, hk, touchScratch_noErrors h, Bool.false_eq_true, if_false]

/-- A read crosses ways while it has fuel for them. -/
theorem scratchReadN_noErrors (fuel : Nat) {o n : Nat} (hf : n = 0 ∨ o % 16384 + n ≤ 16384 * fuel) (he : o + n ≤ s.scratchEnd t) :
    ∃ d, s.scratchReadN t fuel o n = (.ok d, s) ∧ d.length = n ∧
      ∀ i k, i < n → s.scratchKey t (o + i) = some k → d[i]? = some (readByte s.shelf k) := by
  induction fuel generalizing o n with
  | zero =>
    obtain rfl : n = 0 := by omega
    exact ⟨[], rfl, rfl, fun i _ hi => absurd hi (Nat.not_lt_zero i)⟩
  | succ fuel ih =>
    by_cases hn : n = 0
    · subst hn
      exact ⟨[], rfl, rfl, fun i _ hi => absurd hi (Nat.not_lt_zero i)⟩
    · generalize hm : min n (16384 - o % 16384) = m
      have hpos : o < s.scratchEnd t := by omega
      obtain ⟨k0, hk0⟩ := scratchKey_within hpos
      obtain ⟨d, hd, hlen, hbytes⟩ := ih (o := o + m) (n := n - m) (by omega) (by omega)
      refine ⟨readBytes s.shelf k0 m ++ d, ?_, ?_, fun i k hi hk => ?_⟩
      · simp only [State.scratchReadN, hn, if_false, hm, scratchRun_noErrors h hk0, hd]
      · rw [List.length_append, length_readBytes, hlen]; omega
      · by_cases him : i < m
        · have hi' : i < (readBytes s.shelf k0 m).length := by rw [length_readBytes]; exact him
          have hkey := scratchKey_add hk0 (i := i) (by omega)
          obtain rfl : k0 + i = k := Option.some.inj (hkey.symm.trans hk)
          rw [List.getElem?_append_left hi', List.getElem?_eq_getElem hi', getElem_readBytes]
        · rw [List.getElem?_append_right (by rw [length_readBytes]; omega), length_readBytes]
          exact hbytes (i - m) k (by omega) (by rw [show o + m + (i - m) = o + i by omega]; exact hk)

theorem scratchRead_noErrors {o n : Nat} (he : o + n ≤ s.scratchEnd t) :
    ∃ d, s.scratchRead t o n = (.ok d, s) ∧ d.length = n ∧
      ∀ i k, i < n → s.scratchKey t (o + i) = some k → d[i]? = some (readByte s.shelf k) :=
  scratchReadN_noErrors h 14 (.inr (by have := scratchEnd_le s t; omega)) he

end NoErrors

/-! The access. -/

/-- A crate on, with a good clock and no slice, runs once it has been aroused. -/
theorem crateRuns_arouse {s : State} {c : Nat} (hc : c < 384) (hon : s.crateOn c = true) (hlost : (s.crate c).clockLost = false)
    (hslice : s.sliceOn 0 c = false) : (s.arouse (64 + c)).crateRuns c = true := by
  have hawake := onlyRegs_arouse s (64 + c)
  rw [show 64 + c - 64 = c by omega] at hawake
  have hdom : (domState (quadOfCrate c)).a ∉ [crateReg c 0] := by
    simp only [domState, quadOfCrate, crateReg, List.mem_singleton]
    split <;> split <;> omega
  refine (crateRuns_iff _ c).2 ⟨?_, ?_, ?_, ?_⟩
  · rw [State.crateOn, State.domOn, hawake.rd hdom]; exact hon
  · rw [hawake.crate]; exact hlost
  · cases hs : s.on (crateStopped c) with
    | false => simp [State.arouse, hs]
    | true =>
      have hw : s.arouse (64 + c) = s.wr (crateStopped c) 0 := by simp [State.arouse, hon, hs, hlost]
      rw [hw, State.on, rd_wr_same s (crateStopped c) 0 (by simp [crateStopped])]
      rfl
  · rw [State.sliceOn, hawake.2]; exact hslice

/-- What is answered is no register's. -/
theorem State.rd_answer (s : State) (x : Answer) (f : Fld) : ({ s with answer := x } : State).rd f = s.rd f := rfl

section Access
variable {s r : State} {u : TileId} (h : ShelfAnswers s u) (hr : r = (s.arouse (64 + u / 64)).ungate u)
include hr

theorem onlyRegs_answers : OnlyRegs [crateReg (u / 64) 0, tileReg u 4] s r := by
  have hawake := onlyRegs_arouse s (64 + u / 64)
  rw [show 64 + (u : Nat) / 64 - 64 = u / 64 by omega] at hawake
  have hgate := onlyRegs_ungate (s.arouse (64 + u / 64)) u
  refine ⟨fun a ha => ?_, ?_⟩
  · rw [hr, hgate.reg fun hm => ha (.tail _ hm), hawake.reg fun hm => ha (List.mem_singleton.1 hm ▸ .head _)]
  · rw [hr, hgate.2, hawake.2]

theorem scratch_answers : r.rd (shScratch u) = s.rd (shScratch u) :=
  (onlyRegs_answers hr).rd (by
    simp only [shScratch, List.mem_cons, List.not_mem_nil, or_false, not_or]
    exact ⟨hubReg_ne_crateReg (by decide) (by decide), hubReg_ne_tileReg (by decide) (by decide)⟩)

theorem drops_answers : r.rd (apertureDrops (u / 64)) = s.rd (apertureDrops (u / 64)) :=
  (onlyRegs_answers hr).rd (by
    simp only [apertureDrops, List.mem_cons, List.not_mem_nil, or_false, not_or]
    exact ⟨by simp, crateReg_ne_tileReg (by decide) (by decide)⟩)

theorem hold_answers : r.on (tHold u) = s.on (tHold u) := by
  rw [hr, on_ungate_of_apart _ _ (.inr (.inl (by simp [tHold, tState])))]
  exact (onlyRegs_arouse s _).on (by simpa [tHold] using tileReg_ne_crateReg (by decide) (by decide))

/-- The count of a dropped access. -/
theorem rd_drops_bump : (r.bump (apertureDrops (u / 64))).rd (apertureDrops (u / 64)) = min (s.rd (apertureDrops (u / 64)) + 1) (2 ^ 32 - 1) := by
  rw [rd_bump _ _ (by simp [apertureDrops]), drops_answers hr]; rfl

include h

theorem shelfStatus_answers : s.shelfStatus u = (0, r) := by
  have hu := u.isLt
  have hruns := crateRuns_arouse (c := u / 64) (by omega) h.on h.clock h.noSlice
  have hon := h.on
  simp only [State.shelfStatus, hon, h.listed, hruns, hr, Bool.not_true, Bool.false_eq_true, if_false]

/-! Writes. -/

theorem exec_aperture_beyond {off n : Nat} {bs : List Byte} (he : min 0x30000 (s.scratchEnd u) < off + bs.length) :
    exec (.shelfApertureAccess u off (some bs) n) s = .next { r.bump (apertureDrops (u / 64)) with answer := ⟨4, []⟩ } := by
  rw [← scratchEnd_congr (scratch_answers hr)] at he
  simp [exec_shelfApertureAccess, execShelfApertureAccess, State.apertureWrite, shelfStatus_answers h hr, he, stPERMISSION, stWAIT]

theorem exec_aperture_write {off n : Nat} {bs : List Byte} (he : off + bs.length ≤ min 0x30000 (s.scratchEnd u))
    (hh : s.on (tHold u) = true ∨ 0x1000 ≤ off) :
    exec (.shelfApertureAccess u off (some bs) n) s = .next { r.scratchWrite u off bs with answer := ⟨0, []⟩ } := by
  have hin : ¬ min 0x30000 (r.scratchEnd u) < off + bs.length := by rw [scratchEnd_congr (scratch_answers hr)]; omega
  have hfree : (!r.on (tHold u) && decide (off < 0x1000)) = false := by
    rw [hold_answers hr, Bool.and_eq_false_iff]
    exact hh.imp (by simp +contextual) fun hlo => decide_eq_false (by omega)
  simp only [exec_shelfApertureAccess, execShelfApertureAccess, State.apertureWrite, shelfStatus_answers h hr, hin, hfree]
  rfl

theorem exec_aperture_header {off n : Nat} {bs : List Byte} (he : off + bs.length ≤ min 0x30000 (s.scratchEnd u))
    (hh : s.on (tHold u) = false) (hlo : off < 0x1000) : exec (.shelfApertureAccess u off (some bs) n) s =
      .next { (r.bump (apertureDrops (u / 64))).scratchWrite u 0x1000 (bs.drop (0x1000 - off)) with answer := ⟨0, []⟩ } := by
  have hin : ¬ min 0x30000 (r.scratchEnd u) < off + bs.length := by rw [scratchEnd_congr (scratch_answers hr)]; omega
  have hno : (!r.on (tHold u) && decide (off < 0x1000)) = true := by rw [hold_answers hr, hh]; simpa using hlo
  simp only [exec_shelfApertureAccess, execShelfApertureAccess, State.apertureWrite, shelfStatus_answers h hr, hin, hno]
  rfl

theorem aperture_write {off n : Nat} {bs : List Byte} (he : off + bs.length ≤ min 0x30000 (s.scratchEnd u))
    (hh : s.on (tHold u) = true ∨ 0x1000 ≤ off) :
    ∃ v, exec (.shelfApertureAccess u off (some bs) n) s = .next v ∧ v.answer = ⟨0, []⟩ ∧ v.regs = r.regs ∧ v.cellar = s.cellar ∧
      (∀ i k, i < bs.length → s.scratchKey u (off + i) = some k → readByte v.shelf k = bs.getD i 0#8) ∧
      ∀ k, (∀ i < bs.length, s.scratchKey u (off + i) ≠ some k) → readByte v.shelf k = readByte s.shelf k := by
  have hkey := scratchKey_congr (scratch_answers hr)
  have hw := arrayOnly_scratchWrite r u off bs
  refine ⟨_, exec_aperture_write h hr he hh, rfl, hw.regs, hw.cellar.trans (onlyRegs_answers hr).cellar, fun i k hi hk => ?_, fun k hk => ?_⟩
  · rw [List.getD_eq_getElem _ _ hi]
    exact readByte_scratchWrite_same hi ((hkey _).trans hk)
  · refine (readByte_scratchWrite_other fun i hi => ?_).trans (by rw [(onlyRegs_answers hr).shelf])
    rw [hkey]; exact hk i hi

theorem aperture_header {off n : Nat} {bs : List Byte} (he : off + bs.length ≤ min 0x30000 (s.scratchEnd u))
    (hh : s.on (tHold u) = false) (hlo : off < 0x1000) :
    ∃ v, exec (.shelfApertureAccess u off (some bs) n) s = .next v ∧ v.answer = ⟨0, []⟩ ∧ v.cellar = s.cellar ∧
      v.rd (apertureDrops (u / 64)) = min (s.rd (apertureDrops (u / 64)) + 1) (2 ^ 32 - 1) ∧
      (∀ i k, i < bs.length → 0x1000 ≤ off + i → s.scratchKey u (off + i) = some k → readByte v.shelf k = bs.getD i 0#8) ∧
      ∀ k, (∀ i < bs.length, 0x1000 ≤ off + i → s.scratchKey u (off + i) ≠ some k) → readByte v.shelf k = readByte s.shelf k := by
  have hbump := onlyRegs_bump r (apertureDrops (u / 64))
  have hways : (r.bump (apertureDrops (u / 64))).rd (shScratch u) = s.rd (shScratch u) := by
    rw [hbump.rd (by simpa [shScratch, apertureDrops] using hubReg_ne_crateReg (by decide) (by decide)), scratch_answers hr]
  have hkey := scratchKey_congr hways
  have hw := arrayOnly_scratchWrite (r.bump (apertureDrops (u / 64))) u 0x1000 (bs.drop (0x1000 - off))
  refine ⟨_, exec_aperture_header h hr he hh hlo, rfl, hw.cellar.trans (hbump.cellar.trans (onlyRegs_answers hr).cellar),
    (State.rd_answer _ _ _).trans ((hw.rd _).trans (rd_drops_bump hr)), fun i k hi hge hk => ?_, fun k hk => ?_⟩
  · have hj : off + i - 0x1000 < (bs.drop (0x1000 - off)).length := by rw [List.length_drop]; omega
    refine (readByte_scratchWrite_same hj ?_).trans ?_
    · rw [hkey, show 0x1000 + (off + i - 0x1000) = off + i by omega]; exact hk
    · have hidx : 0x1000 - off + (off + i - 0x1000) = i := by omega
      simp only [List.getElem_drop, hidx, List.getD_eq_getElem _ _ hi]
  · refine (readByte_scratchWrite_other fun j hj => ?_).trans (by rw [hbump.shelf, (onlyRegs_answers hr).shelf])
    rw [List.length_drop] at hj
    rw [hkey, show 0x1000 + j = off + (0x1000 + j - off) by omega]
    exact hk _ (by omega) (by omega)

theorem aperture_write_beyond {off n : Nat} {bs : List Byte} (he : min 0x30000 (s.scratchEnd u) < off + bs.length) :
    ∃ v, exec (.shelfApertureAccess u off (some bs) n) s = .next v ∧ v.answer = ⟨4, []⟩ ∧ v.shelf = s.shelf ∧ v.cellar = s.cellar ∧
      v.rd (apertureDrops (u / 64)) = min (s.rd (apertureDrops (u / 64)) + 1) (2 ^ 32 - 1) :=
  have hbump := onlyRegs_bump r (apertureDrops (u / 64))
  ⟨_, exec_aperture_beyond h hr he, rfl, hbump.shelf.trans (onlyRegs_answers hr).shelf, hbump.cellar.trans (onlyRegs_answers hr).cellar,
    (State.rd_answer _ _ _).trans (rd_drops_bump hr)⟩

/-! Reads. -/

theorem aperture_read {off n : Nat} (he : off + n ≤ min 0x30000 (s.scratchEnd u)) (hc : NoArrayErrors s u) :
    ∃ v, exec (.shelfApertureAccess u off none n) s = .next v ∧ v = { r with answer := v.answer } ∧ v.answer.status = 0 ∧
      v.answer.data.length = n ∧ ∀ i k, i < n → s.scratchKey u (off + i) = some k → v.answer.data[i]? = some (readByte s.shelf k) := by
  have hend := scratchEnd_congr (scratch_answers hr)
  have hkey := scratchKey_congr (scratch_answers hr)
  have hclean : NoArrayErrors r u := by rw [NoArrayErrors, (onlyRegs_answers hr).tile]; exact hc
  obtain ⟨d, hd, hlen, hbytes⟩ := scratchRead_noErrors hclean (o := off) (n := n) (by omega)
  have hin : ¬ min 0x30000 (r.scratchEnd u) < off + n := by omega
  have hexec : exec (.shelfApertureAccess u off none n) s = .next { r with answer := ⟨0, d⟩ } := by
    simp only [exec_shelfApertureAccess, execShelfApertureAccess, State.apertureRead, shelfStatus_answers h hr, hin, hd]
    rfl
  refine ⟨_, hexec, rfl, rfl, hlen, fun i k hi hk => ?_⟩
  rw [← (onlyRegs_answers hr).shelf]
  exact hbytes i k hi ((hkey _).trans hk)

theorem aperture_read_beyond {off n : Nat} (he : min 0x30000 (s.scratchEnd u) < off + n) :
    ∃ v, exec (.shelfApertureAccess u off none n) s = .next v ∧ v.answer = ⟨4, []⟩ ∧ v.shelf = s.shelf ∧ v.cellar = s.cellar ∧
      v.rd (apertureDrops (u / 64)) = min (s.rd (apertureDrops (u / 64)) + 1) (2 ^ 32 - 1) := by
  have hbump := onlyRegs_bump r (apertureDrops (u / 64))
  have hexec : exec (.shelfApertureAccess u off none n) s = .next { r.bump (apertureDrops (u / 64)) with answer := ⟨4, []⟩ } := by
    rw [← scratchEnd_congr (scratch_answers hr)] at he
    simp only [exec_shelfApertureAccess, execShelfApertureAccess, State.apertureRead, shelfStatus_answers h hr, he]
    rfl
  exact ⟨_, hexec, rfl, hbump.shelf.trans (onlyRegs_answers hr).shelf, hbump.cellar.trans (onlyRegs_answers hr).cellar,
    (State.rd_answer _ _ _).trans (rd_drops_bump hr)⟩

end Access

end Sys2Proof.Machine
end

section
/-! SUPPORT. The shelf scrub: a line of the array whose words are in error or not; with the aperture it settles O22 (R217, R222, R225). -/
namespace Sys2Proof.Machine

theorem exec_shelfScrubRead (t : TileId) (errs : List (Nat × Nat)) (s : State) :
    exec (.shelfScrubRead t errs) s = execShelfScrubRead t errs s := rfl

/-! Words read one after another through the protection. -/

/-- Is word `i` of tile `t`'s array without error? -/
def State.wordClean (s : State) (t i : Nat) : Prop := lookMap 0 (s.tile t).eccErr i = 0

/-- Reads `n` words from `i` on with `f`, which answers whether a word is lost. -/
def State.touchWords (s : State) (f : State → Nat → Bool × State) : Nat → Nat → Bool × State
  | _, 0 => (false, s)
  | i, n + 1 =>
    let r := f s i
    let q := r.2.touchWords f (i + 1) n
    (r.1 || q.1, q.2)

/-- Reads one word of a cache line (R217). -/
def State.touchCacheWord (s : State) (t w i : Nat) : Bool × State :=
  let x := s.tile t
  let e := lookMap 0 x.eccErr i
  let s1 := if e = 0 then s else s.setTile t { x with eccErr := putMap 0 x.eccErr i 0 }
  (decide (e = 2), if e = 1 then s1.correctedErr t w else if e = 2 then s1.cacheUncorr t w else s1)

theorem touchScratch_eq_touchWords (s : State) (t i n : Nat) :
    s.touchScratch t i n = s.touchWords (fun s j => s.touchScratchWord t j) i n := by
  induction n generalizing s i with
  | zero => rfl
  | succ n ih => rw [State.touchScratch, State.touchWords, ih]

theorem touchCache_eq_touchWords (s : State) (t w i n : Nat) :
    s.touchCache t w i n = s.touchWords (fun s j => s.touchCacheWord t w j) i n := by
  induction n generalizing s i with
  | zero => rfl
  | succ n ih => rw [State.touchCache, State.touchWords, ← ih]; rfl

section Words
variable {t : Nat} {f : State → Nat → Bool × State} (hclean : ∀ s j, s.wordClean t j → f s j = (false, s))
include hclean

theorem touchWords_clean {s : State} {i n : Nat} (h : ∀ j, i ≤ j → j < i + n → s.wordClean t j) : s.touchWords f i n = (false, s) := by
  induction n generalizing i with
  | zero => rfl
  | succ n ih =>
    rw [State.touchWords, hclean s i (h i (by omega) (by omega)), ih fun j hj hn => h j (by omega) (by omega)]
    rfl

/-- Of words of which one is in error only that one's reading does anything. -/
theorem touchWords_one (hkeep : ∀ s j k, k ≠ j → s.wordClean t k → (f s j).2.wordClean t k) {s : State} {i k n : Nat} (hk : i ≤ k)
    (hn : k < i + n) (h : ∀ j ≠ k, s.wordClean t j) : s.touchWords f i n = f s k := by
  induction n generalizing i with
  | zero => omega
  | succ n ih =>
    rw [State.touchWords]
    by_cases hi : i = k
    · subst hi
      rw [touchWords_clean hclean fun j hj _ => hkeep s i j (by omega) (h j (by omega))]
      simp
    · rw [hclean s i (h i hi), ih (by omega) (by omega)]
      simp

end Words

/-! What the reading of a word does. -/

@[simp] theorem State.tile_bump (s : State) (f : Fld) (k : Nat) : (s.bump f).tile k = s.tile k := State.tile_wr _ _ _ _

theorem correctedErr_regs (s : State) (t w : Nat) : (s.correctedErr t w).regs = (s.bump (shCorrected t)).regs := by
  unfold State.correctedErr
  extract_lets
  split
  · rfl
  · split
    · rfl
    · split <;> rfl

theorem correctedErr_eccErr (s : State) (t w : Nat) : ((s.correctedErr t w).tile t).eccErr = (s.tile t).eccErr := by
  unfold State.correctedErr
  extract_lets b x n b2 x2
  have hb : (b.tile t).eccErr = (s.tile t).eccErr := rfl
  have hb2 : (b2.tile t).eccErr = (s.tile t).eccErr := by rw [show b2 = b.setTile t _ from rfl, State.tile_setTile_same]; exact hb
  split
  · rw [State.tile_setTile_same]; exact hb
  · split
    · exact hb2
    · split
      · rw [State.tile_setTile_same]; exact hb2
      · exact hb2

theorem cacheUncorr_regs (s : State) (t w : Nat) : (s.cacheUncorr t w).regs = (s.bump (shUncorr t)).regs := by
  unfold State.cacheUncorr
  extract_lets
  split <;> rfl

theorem cacheUncorr_eccErr (s : State) (t w : Nat) : ((s.cacheUncorr t w).tile t).eccErr = (s.tile t).eccErr := by
  unfold State.cacheUncorr
  extract_lets b x
  have hb : b.tile t = s.tile t := State.tile_bump _ _ _
  split
  · rw [State.tile_setTile_same, ← hb]
  · rw [hb]

theorem wayDis_cacheUncorr (s : State) (t w : Nat) : 2 ≤ lookMap 0 ((s.cacheUncorr t w).tile t).wayDis w := by
  unfold State.cacheUncorr
  extract_lets b x
  split
  · rw [State.tile_setTile_same, lookMap_putMap_same]
  · next h => exact Nat.le_of_not_lt h

/-- A word of a cache line in error is cleared; the others stay as they are. -/
theorem touchCacheWord_keeps (s : State) (t w j k : Nat) (hk : k ≠ j) (h : s.wordClean t k) : (s.touchCacheWord t w j).2.wordClean t k := by
  have hset : (s.setTile t { s.tile t with eccErr := putMap 0 (s.tile t).eccErr j 0 }).wordClean t k := by
    rw [State.wordClean, State.tile_setTile_same, lookMap_putMap_other _ _ _ _ hk]; exact h
  unfold State.touchCacheWord
  extract_lets x e s1
  have h1 : s1.wordClean t k := by
    change State.wordClean (if e = 0 then s else _) t k
    split
    · exact h
    · exact hset
  dsimp only
  split
  · rw [State.wordClean, correctedErr_eccErr]; exact h1
  · split
    · rw [State.wordClean, cacheUncorr_eccErr]; exact h1
    · exact h1

theorem scratchFailed_tile (s : State) (t i k : Nat) : (s.scratchFailed t i).tile k = s.tile k := by
  unfold State.scratchFailed
  extract_lets w b u
  rw [State.tile_raise, State.tile_wr, State.tile_bump]

theorem touchScratchWord_keeps (s : State) (t j k : Nat) (hk : k ≠ j) (h : s.wordClean t k) : (s.touchScratchWord t j).2.wordClean t k := by
  unfold State.touchScratchWord
  extract_lets x e
  split
  · exact h
  · split
    · rw [State.wordClean, correctedErr_eccErr, State.tile_setTile_same, lookMap_putMap_other _ _ _ _ hk]; exact h
    · rw [State.wordClean, scratchFailed_tile]; exact h

theorem touchCacheWord_clean (w : Nat) {s : State} {t j : Nat} (h : s.wordClean t j) : s.touchCacheWord t w j = (false, s) := by
  rw [State.wordClean] at h
  simp [State.touchCacheWord, h]

theorem touchScratchWord_clean {s : State} {t j : Nat} (h : s.wordClean t j) : s.touchScratchWord t j = (false, s) := if_pos h

/-! The scrub's line. -/

theorem scrubFrom_lt {ways : List Nat} {p : Nat} (hp : p < 1536) : scrubFrom ways p < 1536 := by
  unfold scrubFrom
  generalize hl : (List.range 13).filterMap _ = xs
  cases xs with
  | nil => exact hp
  | cons x xs =>
    rw [List.headD_cons]
    have hx : x ∈ x :: xs := .head _
    rw [← hl, List.mem_filterMap] at hx
    obtain ⟨i, -, hi⟩ := hx
    dsimp only at hi
    split_ifs at hi <;> simp only [Option.some.injEq] at hi <;> omega

/-- The scrub of tile `t` has come to position `p` of way × 128 + set, with errors `m` in the array. -/
def State.atScrub (s : State) (t p : Nat) (m : List (Nat × Nat)) : State :=
  s.setTile t { s.tile t with eccErr := m, scrub := (p + 1) % 1536 }

section Scrub
variable {s : State} {t : TileId} {p : Nat} (hl : s.shelfLive t = true) (hs : s.on (shScrub t) = true)
  (hp : p = scrubFrom (s.enabledWays t) (s.tile t).scrub) (hc : NoArrayErrors s t)

include hc in
theorem atScrub_nil : s.atScrub t p [] = s.setTile t { s.tile t with scrub := (p + 1) % 1536 } := by
  have hx : ({ s.tile t with eccErr := [], scrub := (p + 1) % 1536 } : Tile) = { s.tile t with scrub := (p + 1) % 1536 } := by
    rw [← show (s.tile t).eccErr = [] from hc]
  rw [State.atScrub, hx]

include hl hs hp hc

theorem exec_scrub_clean : exec (.shelfScrubRead t []) s =
    if ((s.atScrub t p []).scrubLine t (p / 128) (p % 128)).1 = stWAIT then .next s
    else .next ((s.atScrub t p []).scrubLine t (p / 128) (p % 128)).2 := by
  rw [exec_shelfScrubRead, execShelfScrubRead, hl, hs, atScrub_nil hc]
  dsimp only [List.foldl_nil]
  rw [← hp]
  rfl

theorem exec_scrub_word {i e : Nat} (hi : i < 24576) (he : e = 1 ∨ e = 2) : exec (.shelfScrubRead t [(i, e)]) s =
    if ((s.atScrub t p [(i, e)]).scrubLine t (p / 128) (p % 128)).1 = stWAIT then .next s
    else .next ((s.atScrub t p [(i, e)]).scrubLine t (p / 128) (p % 128)).2 := by
  have hm : putMap 0 (s.tile t).eccErr (i % 24576) (min (lookMap 0 (s.tile t).eccErr (i % 24576) + e) 2) = [(i, e)] := by
    rw [show (s.tile t).eccErr = [] from hc, Nat.mod_eq_of_lt hi]
    obtain rfl | rfl := he <;> rfl
  rw [exec_shelfScrubRead, execShelfScrubRead, hl, hs]
  dsimp only [List.foldl_nil, List.foldl_cons]
  rw [hm, ← hp]
  rfl

end Scrub

/-! What the scrub finds in its line. -/

theorem rd_atScrub (s : State) (t p : Nat) (m : List (Nat × Nat)) (f : Fld) : (s.atScrub t p m).rd f = s.rd f := rfl

theorem isScratchWay_atScrub (s : State) (t p : Nat) (m : List (Nat × Nat)) (w : Nat) : (s.atScrub t p m).isScratchWay t w = s.isScratchWay t w := rfl

theorem wordClean_atScrub (s : State) (t p i e : Nat) {j : Nat} (h : j ≠ i) : (s.atScrub t p [(i, e)]).wordClean t j := by
  rw [State.wordClean, State.atScrub, State.tile_setTile_same]
  exact if_neg (Ne.symm h)

theorem word_atScrub (s : State) (t p i e : Nat) : lookMap 0 ((s.atScrub t p [(i, e)]).tile t).eccErr i = e := by
  rw [State.atScrub, State.tile_setTile_same]; exact if_pos rfl

/-- Its error cleared, the array has none. -/
theorem clearWord_atScrub (s : State) (t p i e : Nat) : (s.atScrub t p [(i, e)]).setTile t { (s.atScrub t p [(i, e)]).tile t with
    eccErr := putMap 0 ((s.atScrub t p [(i, e)]).tile t).eccErr i 0 } = s.atScrub t p [] := by
  have hput : putMap 0 [(i, e)] i 0 = ([] : List (Nat × Nat)) := by simp [putMap, delMap]
  simp only [State.atScrub, State.tile_setTile_same, State.setTile_setTile, hput]

theorem line_atScrub (s : State) (t p : Nat) (m : List (Nat × Nat)) (w st : Nat) : (s.atScrub t p m).line t w st = s.line t w st := by
  simp only [State.line, State.atScrub, State.tile_setTile_same]

section Line
variable {s : State} {t p : Nat}

/-- A line without errors. -/
theorem scrubLine_clean : (s.atScrub t p []).scrubLine t (p / 128) (p % 128) = (0, s.atScrub t p []) := by
  have hclean : ∀ j, (s.atScrub t p []).wordClean t j := fun j => by
    rw [State.wordClean, State.atScrub, State.tile_setTile_same]; rfl
  rw [State.scrubLine]
  split
  · rw [touchScratch_eq_touchWords, touchWords_clean (fun _ _ h => touchScratchWord_clean h) fun j _ _ => hclean j]
  · rw [touchCache_eq_touchWords, touchWords_clean (fun _ _ h => touchCacheWord_clean _ h) fun j _ _ => hclean j]
    rfl

variable {i e : Nat} (hlo : 16 * p ≤ i) (hhi : i < 16 * p + 16)
include hlo hhi

theorem touchScratch_atScrub : (s.atScrub t p [(i, e)]).touchScratch t (2048 * (p / 128) + 16 * (p % 128)) 16 =
    (s.atScrub t p [(i, e)]).touchScratchWord t i := by
  rw [touchScratch_eq_touchWords]
  exact touchWords_one (fun _ _ h => touchScratchWord_clean h) (fun s j k hk h => touchScratchWord_keeps s t j k hk h) (by omega) (by omega)
    fun j hj => wordClean_atScrub s t p i e hj

theorem touchCache_atScrub : (s.atScrub t p [(i, e)]).touchCache t (p / 128) (2048 * (p / 128) + 16 * (p % 128)) 16 =
    (s.atScrub t p [(i, e)]).touchCacheWord t (p / 128) i := by
  rw [touchCache_eq_touchWords]
  exact touchWords_one (fun _ _ h => touchCacheWord_clean _ h) (fun s j k hk h => touchCacheWord_keeps s t _ j k hk h) (by omega) (by omega)
    fun j hj => wordClean_atScrub s t p i e hj

/-- One bad bit: the word is corrected, in a scratch way and in a cache way alike. -/
theorem scrubLine_single : (s.atScrub t p [(i, 1)]).scrubLine t (p / 128) (p % 128) = (0, (s.atScrub t p []).correctedErr t (p / 128)) := by
  have hway : i / 2048 = p / 128 := by omega
  rw [State.scrubLine]
  split
  · simp only [touchScratch_atScrub hlo hhi, State.touchScratchWord, word_atScrub, clearWord_atScrub, hway, one_ne_zero, if_false, if_true]
  · simp only [touchCache_atScrub hlo hhi, State.touchCacheWord, word_atScrub, clearWord_atScrub, one_ne_zero, if_false, if_true]
    rfl

/-- Two bad bits in a scratch line. -/
theorem scrubLine_scratch (hw : s.isScratchWay t (p / 128) = true) :
    (s.atScrub t p [(i, 2)]).scrubLine t (p / 128) (p % 128) = (0, (s.atScrub t p [(i, 2)]).scratchFailed t i) := by
  rw [State.scrubLine, isScratchWay_atScrub, if_pos hw, touchScratch_atScrub hlo hhi, State.touchScratchWord, word_atScrub]
  rfl

/-- Two bad bits in an Invalid line of a cache way. -/
theorem scrubLine_invalid (hw : s.isScratchWay t (p / 128) = false) (hst : (s.line t (p / 128) (p % 128)).st = .invalid) :
    (s.atScrub t p [(i, 2)]).scrubLine t (p / 128) (p % 128) = (0, (s.atScrub t p []).cacheUncorr t (p / 128)) := by
  rw [State.scrubLine, isScratchWay_atScrub, if_neg (by simp [hw])]
  simp only [touchCache_atScrub hlo hhi, State.touchCacheWord, word_atScrub, clearWord_atScrub, line_atScrub, hst]
  rfl

end Line

/-! The counts. -/

theorem rd_of_regs {s u : State} (h : u.regs = s.regs) (f : Fld) : u.rd f = s.rd f := by rw [State.rd, State.reg, h]; rfl

theorem rd_shCorrected_correctedErr (s : State) (t w : Nat) :
    (s.correctedErr t w).rd (shCorrected t) = min (s.rd (shCorrected t) + 1) 65535 := by
  rw [rd_of_regs (correctedErr_regs s t w), rd_bump _ _ (by simp [shCorrected])]; rfl

theorem rd_shUncorr_correctedErr (s : State) (t w : Nat) : (s.correctedErr t w).rd (shUncorr t) = s.rd (shUncorr t) := by
  rw [rd_of_regs (correctedErr_regs s t w)]
  exact rd_wr_of_apart s _ (by simp [shCorrected]) (.inr (.inr (by simp [shCorrected, shUncorr])))

theorem rd_shUncorr_cacheUncorr (s : State) (t w : Nat) : (s.cacheUncorr t w).rd (shUncorr t) = min (s.rd (shUncorr t) + 1) 15 := by
  rw [rd_of_regs (cacheUncorr_regs s t w), rd_bump _ _ (by simp [shUncorr])]; rfl

theorem cacheUncorr_shelf (s : State) (t w : Nat) : (s.cacheUncorr t w).shelf = s.shelf := by
  have hb := (onlyRegs_bump s (shUncorr t)).shelf
  unfold State.cacheUncorr
  extract_lets b x
  split
  · rw [State.setTile_shelf, hb]
  · exact hb

theorem disabling_cacheUncorr {s : State} {t w : Nat} (hw : s.isScratchWay t w = false) : (s.cacheUncorr t w).disabling t w = true := by
  have hrd : (s.cacheUncorr t w).rd (shScratch t) = s.rd (shScratch t) := by
    rw [rd_of_regs (cacheUncorr_regs s t w)]
    exact rd_wr_other s _ (by simp [shScratch, shUncorr])
  rw [State.disabling, isScratchWay_congr hrd, hw, decide_eq_true (wayDis_cacheUncorr s t w)]
  rfl

theorem rd_shUncorr_scratchFailed (s : State) (t i : Nat) : (s.scratchFailed t i).rd (shUncorr t) = min (s.rd (shUncorr t) + 1) 15 := by
  unfold State.scratchFailed
  extract_lets w b u
  rw [State.rd_raise, rd_wr_of_apart b _ (by simp [shScrFailed]) (.inr (.inr (by simp [shScrFailed, shUncorr]))),
    rd_bump _ _ (by simp [shUncorr])]
  rfl

theorem rd_shScrFailed_scratchFailed (s : State) (t : Nat) {i : Nat} (h : i < 24576) :
    bitAt ((s.scratchFailed t i).rd (shScrFailed t)) (i / 2048) = true := by
  unfold State.scratchFailed
  extract_lets w b u
  have hw : w < 12 := by simp only [w]; omega
  have hmod : w < (shScrFailed t).w := hw
  rw [State.rd_raise, rd_wr_same b _ _ (by simp [shScrFailed]), bitAt, ← Nat.testBit_eq_decide_div_mod_eq, Nat.testBit_mod_two_pow,
    decide_eq_true hmod, Bool.true_and]
  exact (Nat.testBit_or _ _ _).trans (by rw [show i / 2048 = w from rfl, Nat.testBit_two_pow_self, Bool.or_true])

theorem gathered_scratchFailed (s : State) (t i : Nat) : ∃ f, (s.scratchFailed t i).gathered = s.gathered ++ [f] ∧ f.code = 0x0203 ∧
    f.cls = 1 ∧ f.index = t := by
  unfold State.scratchFailed
  extract_lets w b u
  obtain ⟨f, hg, hcode, hcls, -, hix, -⟩ := State.raise_gathered u 0x0203 1 t (detailOf [(1, w), (1, i % 2048 / 16), (1, i % 16)])
  have hu : u.gathered = s.gathered := (State.wr_gathered _ _ _).trans (onlyRegs_bump s (shUncorr t)).gathered
  exact ⟨f, by rw [hg, hu], hcode, hcls, hix⟩

/-- Settles O22, by the scrub's line word by word and the aperture's accesses. -/
theorem scrubReadsFindArrayErrors : Obligations.ScrubReadsFindArrayErrors := by
  unfold Obligations.ScrubReadsFindArrayErrors
  refine ⟨fun t s p hl hs hp hc hlt => ?_, fun u off n bs s r h hr => ⟨fun he hh => aperture_write h hr he hh,
    fun he hh hlo => aperture_header h hr he hh hlo, fun he => aperture_write_beyond h hr he, fun he hc => aperture_read h hr he hc,
    fun he => aperture_read_beyond h hr he⟩⟩
  have hp' : p < 1536 := hp ▸ scrubFrom_lt hlt
  refine ⟨?_, fun i hlo hhi => ⟨?_, fun hw => ?_, fun hw hst => ?_⟩⟩
  · rw [exec_scrub_clean hl hs hp hc, scrubLine_clean, atScrub_nil hc]
    rfl
  · rw [exec_scrub_word hl hs hp hc (by omega) (.inl rfl), scrubLine_single hlo hhi]
    refine ⟨_, rfl, rd_shCorrected_correctedErr _ _ _, ?_, (touchOnly_correctedErr _ _ _).shelf, rd_shUncorr_correctedErr _ _ _⟩
    rw [NoArrayErrors, correctedErr_eccErr, State.atScrub, State.tile_setTile_same]
  · rw [exec_scrub_word hl hs hp hc (by omega) (.inr rfl), scrubLine_scratch hlo hhi hw]
    obtain ⟨f, hg, hcode, hcls, hix⟩ := gathered_scratchFailed (s.atScrub t p [(i, 2)]) t i
    have hway : i / 2048 = p / 128 := by omega
    exact ⟨_, f, rfl, hway ▸ rd_shScrFailed_scratchFailed _ _ (by omega), rd_shUncorr_scratchFailed _ _ _, hg, hcode, hcls, hix,
      (touchOnly_scratchFailed _ _ _).shelf⟩
  · rw [exec_scrub_word hl hs hp hc (by omega) (.inr rfl), scrubLine_invalid hlo hhi hw hst]
    exact ⟨_, rfl, disabling_cacheUncorr (isScratchWay_atScrub s t p [] _ ▸ hw), rd_shUncorr_cacheUncorr _ _ _, cacheUncorr_shelf _ _ _⟩

end Sys2Proof.Machine
end

section
/-! SUPPORT. The loss of PILOT_CLK and the register word that a directory entry's drop rewrites (R296, R448): where a carving that R243
never accepts puts a line's home, the count of its directory is the word of the clock marks; refutes O58. -/
namespace Sys2Proof.Machine

theorem exec_pilotLightLoss (s : State) : exec .pilotLightLoss s = execPilotLightLoss s := rfl

/-- The home whose directory's USED, by the layout of COH[h], is the word of PILOT_OK and ON_INTERNAL. It lies far beyond the 40 homes of
the package, but a carving whose region names die 4,814 places lines in it (R245), and no hypothesis of the statement asks for a carving
that R243 accepts. -/
def clockHome : Nat := 48144

theorem dirUsed_clockHome : (dirUsed clockHome).a = pilotOk.a := by decide

/-- VDD_AON is up, PILOT_CLK is good, and core half 0 is on; the directory of the clock word's home lists cluster 0 as the one holder
of line 32. -/
def litState : State :=
  { State.reset with
    carve := [⟨false, 4814, cellarSize⟩]
    dirs := [⟨32, none, 1, 15⟩]
    regs := [((railUp 0).a, 1#32), (pilotOk.a, 1#32), ((domState 20).a, 0x20#32)] }

/-- The line's home. -/
theorem litState_home : (litState.locate (128 * 32)).map Loc.home = some clockHome := by decide +kernel

/-- What the loss of PILOT_CLK makes of it: the fault, the marks and the causes, then the stop of the fast domains. -/
def litStateLost : State :=
  (((((litState.raise 0x0803 0 0 []).wr pilotOk 0).wr pwrOnInternal 1).loseGuarantee 6 0 fun _ => true).syncCauses 0).stopFor (some 2)

theorem exec_pilotLightLoss_litState : exec .pilotLightLoss litState = .next litStateLost := by
  have hgo : (!litState.on (railUp 0) || !litState.on pilotOk) = false := by decide +kernel
  rw [exec_pilotLightLoss, execPilotLightLoss, hgo]
  rfl

/-- The half's power-off takes the entry out of the directory, whose count falls from 2 to 1: PILOT_OK reads 1 again. -/
theorem litStateLost_pilotOk : litStateLost.on pilotOk = true := by decide +kernel

/-- Refutes O58, by its clause of the loss of PILOT_CLK: the statement speaks of every state, and in `litState`, whose carving R243 never
accepts, the stop of the fast domains rewrites the word of PILOT_OK as a directory's count, and PILOT_OK reads 1 after the loss. -/
theorem not_railsDomainsClocksAndUnitResets : ¬ Obligations.RailsDomainsClocksAndUnitResets := by
  rintro ⟨-, -, -, -, -, hpilot, -⟩
  obtain ⟨u, -, hu, hdark, -⟩ := (hpilot litState (by decide +kernel)).1 (by decide +kernel) rfl
  have hlost : u = litStateLost := Host.Outcome.next.inj (hu.symm.trans exec_pilotLightLoss_litState)
  rw [hlost, litStateLost_pilotOk] at hdark
  cases hdark

end Sys2Proof.Machine
end

section
/-! SUPPORT. The vector engine's lane operations: the value of an element's result does not depend on the flags gathered before it (R96,
R101); settles O17 (R181, R182, Table 6.3). -/
namespace Sys2Proof.Machine

/-! Values do not depend on the flags raised so far. -/

theorem addNum_value (x y : Num) (fl fl' : Fl) : (addNum x y fl).1 = (addNum x y fl').1 := by
  unfold addNum
  split
  case h_3 => split <;> rfl
  case h_6 => simp only [apply_ite Prod.fst]
  all_goals rfl

theorem mulNum_value (x y : Num) (fl fl' : Fl) : (mulNum x y fl).1 = (mulNum x y fl').1 := by
  unfold mulNum
  split
  case h_4 | h_5 => split <;> rfl
  all_goals rfl

/-- A product added to a value (R182): neither step's value depends on the flags. -/
theorem addNum_mulNum_value (x y z : Num) (fl fl' gl gl' : Fl) :
    (addNum (mulNum x y fl).1 z gl).1 = (addNum (mulNum x y fl').1 z gl').1 := by
  rw [mulNum_value x y fl fl', addNum_value _ z gl gl']

theorem numMax_value (x y : Num) (fl fl' : Fl) : (numMax x y fl).1 = (numMax x y fl').1 := by
  unfold numMax
  split <;> rfl

theorem numMin_value (x y : Num) (fl fl' : Fl) : (numMin x y fl).1 = (numMin x y fl').1 := by
  unfold numMin
  split <;> rfl

theorem numCmp_fst (c : Bool) (x y : Num) (fl : Fl) :
    (numCmp c x y fl).1 = if x.isNan || y.isNan then Num.zero else Num.ofInt (b2n c) := by
  unfold numCmp
  split <;> rfl

theorem numMax_of_not_nan {x y : Num} (hx : x.isNan = false) (hy : y.isNan = false) (fl : Fl) :
    (numMax x y fl).1 = if x.lt y then y else x := by
  simp [numMax, hx, hy]

theorem numMin_of_not_nan {x y : Num} (hx : x.isNan = false) (hy : y.isNan = false) (fl : Fl) :
    (numMin x y fl).1 = if y.lt x then y else x := by
  simp [numMin, hx, hy]

theorem laneOp_value (op : Nat) (x y z a b : Num) (fl fl' : Fl) : (laneOp op x y z a b fl).1 = (laneOp op x y z a b fl').1 := by
  unfold laneOp
  split
  case h_1 | h_2 => exact addNum_value _ _ _ _
  case h_3 => exact mulNum_value _ _ _ _
  case h_4 => exact numMax_value _ _ _ _
  case h_5 => exact numMin_value _ _ _ _
  case h_6 | h_7 | h_8 => exact addNum_mulNum_value _ _ _ _ _ _ _
  case h_9 | h_10 => rfl
  case h_11 | h_12 | h_13 => simp only [numCmp_fst]

/-! The elements of a row. -/

/-- The result of a lane operation on one element: its exact value, saturated to INT32 in the integer classes (R181). -/
def laneElem (int : Bool) (v : Num) : Num := if int then (satInt32 v.toInt Fl.clear).1 else v

/-- The head of a row is its first element's result; the flags it raises do not reach the values of the rest. -/
theorem laneRow_cons (op : Nat) (int : Bool) (a b x : Num) (xs ys zs : List Num) (fl : Fl) :
    ∃ fl', (laneRow op int a b (x :: xs) ys zs fl).1 =
      laneElem int (laneOp op x (ys.headD Num.zero) (zs.headD Num.zero) a b Fl.clear).1 :: (laneRow op int a b xs ys.tail zs.tail fl').1 := by
  refine ⟨_, congrArg (· :: _) ?_⟩
  rw [laneOp_value op x _ _ a b Fl.clear fl, laneElem]
  split <;> rfl

theorem laneRow_length (op : Nat) (int : Bool) (a b : Num) (xs ys zs : List Num) (fl : Fl) :
    (laneRow op int a b xs ys zs fl).1.length = xs.length := by
  induction xs generalizing ys zs fl with
  | nil => rfl
  | cons x xs ih => exact congrArg (· + 1) (ih _ _ _)

/-- Element `i` of the results depends on element `i` of each row alone. -/
theorem laneRow_getElem? (op : Nat) (int : Bool) (a b : Num) (xs ys zs : List Num) (fl : Fl) (i : Nat) :
    (laneRow op int a b xs ys zs fl).1[i]? = xs[i]?.map fun x =>
      laneElem int (laneOp op x ((ys[i]?).getD Num.zero) ((zs[i]?).getD Num.zero) a b Fl.clear).1 := by
  induction xs generalizing ys zs fl i with
  | nil => rfl
  | cons x xs ih =>
    obtain ⟨fl', h⟩ := laneRow_cons op int a b x xs ys zs fl
    rw [h]
    cases i with
    | zero => simp [List.headD_eq_head?_getD, List.head?_eq_getElem?]
    | succ i => simp [ih]

/-- Settles O17: the results of a row are those of its elements, and each operation's value is that of Table 6.3. -/
theorem laneOperationsActElementByElement : Obligations.LaneOperationsActElementByElement := by
  intro op int a b xs ys zs fl
  refine ⟨laneRow_length op int a b xs ys zs fl, fun i hi => ?_⟩
  refine ⟨xs[i], _, _, _, List.getElem?_eq_getElem hi, rfl, rfl,
    by rw [laneRow_getElem?, List.getElem?_eq_getElem hi]; rfl, ?_⟩
  generalize (ys[i]?).getD Num.zero = y
  generalize (zs[i]?).getD Num.zero = z
  refine ⟨?add, ?sub, ?mul, ?max, ?min, ?mulAdd, ?scaleAdd, ?scaleShift, ?abs, ?neg, ?gt, ?eq, ?gtScalar⟩ <;> rintro rfl
  case add | sub | mul | abs | neg => rfl
  case mulAdd | scaleAdd | scaleShift => exact addNum_value _ _ _ _
  case max => exact fun hx hy => numMax_of_not_nan hx hy _
  case min => exact fun hx hy => numMin_of_not_nan hx hy _
  case gt | eq | gtScalar => exact numCmp_fst _ _ _ _

end Sys2Proof.Machine
end

section
/-! SUPPORT. Carry records on their way and the chain registers of a crate: what a write through a shelf's aperture keeps, where a record in
one part lands, and writes of a crate's registers from its hosts and tiles; settles O19 (R28, R64, R100, R192, R195). -/
namespace Sys2Proof.Machine

theorem exec_carryRecordArrival (n : Nat) (ok : Bool) (s : State) : exec (.carryRecordArrival n ok) s = execCarryRecordArrival n ok s := rfl
theorem exec_scanMaskWrite (src : Src) (c : CrateId) (v : BitVec 64) (s : State) :
    exec (.scanMaskWrite src c v) s = execScanMaskWrite src c v s := rfl
theorem exec_lfsrWrite (src : Src) (t : TileId) (w : BitVec 32) (s : State) : exec (.lfsrWrite src t w) s = execLfsrWrite src t w s := rfl

/-! A write to a shelf keeps the engines and the carry records on their way. -/

/-- State `u` has the engines of state `s` and its carry records. -/
structure KeepsCarries (s u : State) : Prop where
  eng : ∀ t e, (u.tile t).eng e = (s.tile t).eng e
  recs : u.carryRecs = s.carryRecs

namespace KeepsCarries
variable {s u v : State}

theorem refl (s : State) : KeepsCarries s s := ⟨fun _ _ => rfl, rfl⟩

theorem trans (h : KeepsCarries s u) (k : KeepsCarries u v) : KeepsCarries s v :=
  ⟨fun t e => (k.eng t e).trans (h.eng t e), k.recs.trans h.recs⟩

theorem of_onlyRegs {as : List Nat} (h : OnlyRegs as s u) : KeepsCarries s u := ⟨fun t _ => by rw [h.tile t], by rw [h.2]⟩

theorem of_arrayOnly {t : Nat} (h : ArrayOnly t s u) : KeepsCarries s u where
  eng w e := by
    by_cases hw : w = t
    · rw [hw, h.eng]
    · rw [h.others w hw]
  recs := by rw [h.rest]

end KeepsCarries

theorem keepsCarries_shelfStatus (s : State) (u : Nat) : KeepsCarries s (s.shelfStatus u).2 := by
  unfold State.shelfStatus
  split
  · exact .refl s
  · split
    · exact ⟨fun _ _ => rfl, rfl⟩
    · have harouse : KeepsCarries s (s.arouse (64 + u / 64)) := .of_onlyRegs (onlyRegs_arouse s _)
      dsimp only
      split
      · exact harouse
      · exact harouse.trans (.of_onlyRegs (onlyRegs_ungate _ u))

theorem keepsCarries_apertureWrite (s : State) (u off : Nat) (bs : List Byte) : KeepsCarries s (s.apertureWrite u off bs).2 := by
  have h := keepsCarries_shelfStatus s u
  have hdrop := fun v : State => KeepsCarries.of_onlyRegs (onlyRegs_bump v (apertureDrops (u / 64)))
  unfold State.apertureWrite
  extract_lets r s1 b
  split
  · exact h
  · split
    · exact h.trans (hdrop _)
    · split
      · exact (h.trans (hdrop _)).trans (.of_arrayOnly (arrayOnly_scratchWrite _ _ _ _))
      · exact h.trans (.of_arrayOnly (arrayOnly_scratchWrite _ _ _ _))

theorem keepsCarries_landChunk_shelf (s : State) (t : Nat) {c : Chunk} {u o : Nat} (h : c.dst = .shelf u o) :
    KeepsCarries s (s.landChunk t c).2 := by
  simp only [State.landChunk, h]
  split
  · exact .of_arrayOnly (arrayOnly_scratchWrite _ _ _ _)
  · exact keepsCarries_apertureWrite _ _ _ _

theorem keepsCarries_landFree_shelf (s : State) (t : Nat) {c : Chunk} {u o : Nat} (h : c.dst = .shelf u o) :
    KeepsCarries s (s.landFree t c) := by
  simp only [State.landFree, h]
  exact List.foldlRecOn (motive := KeepsCarries s) _ _ ⟨fun _ _ => rfl, rfl⟩ fun v hv i _ =>
    hv.trans (keepsCarries_landChunk_shelf v t (u := u) (o := o + i) rfl)

/-! The arrival of a record in one part, for a shelf (R192, log entry 33). -/

/-- The chunk in which a carry record in one part lands. -/
def carryChunk (s : State) (k : CarryRec) (u off vp : Nat) : Chunk :=
  ⟨0, k.bytes.length, .shelf u off, false, k.bytes, k.crc, vp, [], (s.crate (k.sender / 64)).sdDone, none, none, false, none, true⟩

/-- The increment that a record's arrival at a shelf sends. -/
def carryInc (k : CarryRec) (u : Nat) : List Inc :=
  match k.tally with
  | some a => [⟨a, some u, 1, 1, k.sender, u / 6144⟩]
  | none => []

theorem eng_setRun (s : State) (t e : Nat) (r : Run) : ((s.setRun t e r).tile t).eng e = { (s.tile t).eng e with run := some r } :=
  State.eng_setEng_same _ _ _ _

/-- A descriptor that had ended DONE ends with the status of its record (R28). -/
theorem recordFails_of_done {s : State} {t code : Nat} {r : Run} (hr : (s.tile t).eng1.run = some r) (hd : r.ended = some stDONE) :
    ∃ r', ((s.recordFails t code).tile t).eng1.run = some r' ∧ r'.ended = some code := by
  have hr' : ((s.tile t).eng 1).run = some r := hr
  rw [State.recordFails, hr']
  simp only [hd, if_true]
  exact ⟨_, congrArg Engine.run (eng_setRun _ _ 1 _), rfl⟩

theorem recordFails_keeps (s : State) (t code : Nat) :
    (s.recordFails t code).carryRecs = s.carryRecs ∧ (s.recordFails t code).incs = s.incs := by
  unfold State.recordFails
  split
  · split <;> exact ⟨rfl, rfl⟩
  · exact ⟨rfl, rfl⟩

section OnePart
variable {s : State} {k : CarryRec} {u off vp : Nat} (hp : k.parts = [⟨.shelf u off, none, vp, k.bytes.length⟩])
include hp

/-- A sound record that its shelf takes lands as it is, and sends its increment. -/
theorem landRecord_sound {s1 : State} (hw : s.apertureWrite u off k.bytes = (0, s1)) :
    ∃ v, s.landRecord k true = (0, v) ∧ v.carryRecs = s.carryRecs ∧ v.incs = s.incs ++ carryInc k u ∧ v.shelf = s1.shelf := by
  have hkeep := keepsCarries_apertureWrite s u off k.bytes
  have hincs := incs_apertureWrite s u off k.bytes
  rw [hw] at hkeep hincs
  have hland : s.landParts k true k.parts k.bytes = (0, { s1 with incs := s1.incs ++ carryInc k u }) := by
    rw [hp]
    cases ht : k.tally <;> simp [State.landParts, State.landPart, State.landChunk, hw, carryInc, ht, State.sendInc]
  exact ⟨{ s1 with incs := s1.incs ++ carryInc k u }, by simp [State.landRecord, hland, stWAIT], hkeep.recs, congrArg (· ++ _) hincs, rfl⟩

/-- A corrupt one leaves bytes that are not valid, and ends its sender's descriptor with CRC_ERROR where it had ended DONE. -/
theorem landRecord_corrupt :
    ∃ v, s.landRecord k false = (0, v) ∧ v.carryRecs = s.carryRecs ∧ v.incs = s.incs ∧
      ∀ r, (s.tile k.sender).eng1.run = some r → r.ended = some stDONE →
        ∃ r', (v.tile k.sender).eng1.run = some r' ∧ r'.ended = some stCRC := by
  have hdst : (carryChunk s k u off vp).dst = .shelf u off := rfl
  have hkeep := keepsCarries_landFree_shelf s k.sender hdst
  have hincs := incs_landFree_shelf s k.sender hdst
  have hland : s.landParts k false k.parts k.bytes = (0, s.landFree k.sender (carryChunk s k u off vp)) := by
    rw [hp]
    simp [State.landParts, State.landPart, carryChunk]
  have hany : (k.parts.any fun p => p.win.isNone) = true := by rw [hp]; rfl
  obtain ⟨hrecs, hfincs⟩ := recordFails_keeps (s.landFree k.sender (carryChunk s k u off vp)) k.sender stCRC
  exact ⟨_, by simp [State.landRecord, hland, hany, stWAIT], hrecs.trans hkeep.recs, hfincs.trans hincs, fun r hr hd =>
    recordFails_of_done ((congrArg Engine.run (hkeep.eng k.sender 1)).trans hr) hd⟩

end OnePart

/-- A record that no takeover holds leaves the list as it lands. -/
theorem exec_carryRecordArrival_free {s : State} {n : Nat} {k : CarryRec} {ok : Bool} {v : State} (hk : s.carryRecs[n]? = some k)
    (hh : s.recordHeld k = false) (hl : ({ s with carryRecs := s.carryRecs.eraseIdx n } : State).landRecord k ok = (0, v)) :
    exec (.carryRecordArrival n ok) s = .next v := by
  rw [exec_carryRecordArrival, execCarryRecordArrival, hk]
  simp [hh, hl, stWAIT]

/-! Writes of a crate's registers (R64, R72). -/

/-- A source that may write a register of a crate runs where the crate does: a tile writes those of its own crate only (R64). -/
theorem srcRuns_of_mayWrite_crateReg {s : State} {src : Src} {c off : Nat} (hc : c < 384) (ho : off < 0x8000)
    (hw : s.mayWrite src (crateReg c off) = true) (hr : s.crateRuns c = true) : s.srcRuns src = true := by
  cases src with
  | tile u =>
    have hlo : ∀ b, b ≤ 0x1000000 → ¬ crateReg c off < b := fun b hb => by simp only [crateReg]; omega
    have hhi : crateReg c off < 0x1C00000 := by simp only [crateReg]; omega
    have hcrate : (crateReg c off - 0x1000000) / 0x8000 = c := by simp only [crateReg]; omega
    obtain ⟨rfl, -⟩ : c = u.val / 64 ∧ tileMayWriteCrate u ((crateReg c off - 0x1000000) % 0x8000) = true := by
      simpa [State.mayWrite, hlo, hhi, hcrate] using hw
    exact hr
  | _ => rfl

/-- A 64-bit register reads what was set. -/
theorem reg64_setReg64_same (s : State) (a : Nat) {v : Nat} (h : v < 2 ^ 64) : (s.setReg64 a v).reg64 a = v := by
  rw [State.setReg64, State.reg64, reg_setReg_same, reg_setReg_other _ _ (by omega), reg_setReg_same, BitVec.toNat_ofNat, BitVec.toNat_ofNat]
  omega

theorem onlyRegs_setReg64 (s : State) (a v : Nat) : OnlyRegs [a, a + 4] s (s.setReg64 a v) :=
  ((onlyRegs_setReg s a _).mono (by simp)).trans ((onlyRegs_setReg _ (a + 4) _).mono (by simp))

theorem exec_scanMaskWrite_running {src : Src} {c : CrateId} {v : BitVec 64} {s : State} (hw : s.mayWrite src (crateReg c 0x20) = true)
    (hr : s.crateRuns c = true) : exec (.scanMaskWrite src c v) s = .next ((s.unheld src.unit).scanMaskSet c v.toNat) := by
  rw [exec_scanMaskWrite, execScanMaskWrite, hw, srcRuns_of_mayWrite_crateReg c.isLt (by decide) hw hr, atPlace_crate hr]
  rfl

theorem exec_lfsrWrite_running {src : Src} {t : TileId} {w : BitVec 32} {s : State} (hw : s.mayWrite src (hubReg t 0x400 4) = true)
    (hr : s.crateRuns (t / 64) = true) : exec (.lfsrWrite src t w) s = .next ((s.unheld src.unit).lfsrWrite t w) := by
  have hrun : s.srcRuns src = true := srcRuns_of_mayWrite_crateReg (by omega) (by omega) hw hr
  rw [exec_lfsrWrite, execLfsrWrite, hw, hrun, atPlace_crate hr]
  rfl

/-- Settles O19: the arrival of a sound and of a corrupt record, the two answers of SCAN_MASK, and the two of LFSR. -/
theorem carryRecordsAndChainRegisters : Obligations.CarryRecordsAndChainRegisters := by
  refine ⟨fun n s s1 k u off vp hk hp hh => ⟨fun hw => ?sound, ?corrupt⟩, fun src c v s hw hr => ⟨fun hb => ?set, fun hb => ?refused⟩,
    fun src t w s hw hr => ⟨fun h0 => ?draws, fun h0 => ?zero⟩⟩
  case sound =>
    obtain ⟨v, hl, hv⟩ := landRecord_sound hp hw
    exact ⟨v, exec_carryRecordArrival_free hk hh hl, hv⟩
  case corrupt =>
    obtain ⟨v, hl, hv⟩ := landRecord_corrupt (s := { s with carryRecs := s.carryRecs.eraseIdx n }) hp
    exact ⟨v, exec_carryRecordArrival_free hk hh hl, hv⟩
  case set =>
    refine ⟨_, exec_scanMaskWrite_running hw hr, ?_⟩
    have hb' : (s.unheld src.unit).chainBusy c = false := hb
    rw [State.scanMaskSet, hb']
    exact ⟨reg64_setReg64_same _ _ v.isLt, onlyRegs_setReg64 _ _ _⟩
  case refused =>
    have hb' : (s.unheld src.unit).chainBusy c = true := hb
    rw [exec_scanMaskWrite_running hw hr, State.scanMaskSet, hb']
    rfl
  case draws =>
    rw [exec_lfsrWrite_running hw hr, State.lfsrWrite, if_neg h0]
    exact ⟨_, rfl, (rd_wr_same _ (lfsrFld t) _ (by simp [lfsrFld])).trans (Nat.mod_mod _ _), onlyRegs_wr _ (lfsrFld t) _⟩
  case zero => rw [exec_lfsrWrite_running hw hr, State.lfsrWrite, if_pos h0]

end Sys2Proof.Machine
end

section
/-! SUPPORT. Free values: what draws them changes nothing else (R99, R107, log entries 9 and 10). -/
namespace Sys2Proof.Machine

/-- State `u` is state `s` but for the free values drawn. -/
def Drawn (s u : State) : Prop := ∃ n, u = { s with freeCtr := n }

namespace Drawn
variable {s u v : State}

theorem refl (s : State) : Drawn s s := ⟨s.freeCtr, rfl⟩

theorem trans (h : Drawn s u) (k : Drawn u v) : Drawn s v := by
  obtain ⟨n, rfl⟩ := h
  obtain ⟨m, rfl⟩ := k
  exact ⟨m, rfl⟩

end Drawn

theorem drawn_draw (s : State) : Drawn s s.draw.2 := ⟨_, rfl⟩

theorem drawn_pick (s : State) (n : Nat) : Drawn s (s.pick n).2 := by
  unfold State.pick
  split
  · exact .refl s
  · exact drawn_draw s

theorem drawn_shuffleN {α : Type} (s : State) (fuel : Nat) (xs : List α) : Drawn s (s.shuffleN fuel xs).2 := by
  induction fuel generalizing s xs with
  | zero => exact .refl s
  | succ fuel ih =>
    rw [State.shuffleN]
    extract_lets p
    split
    · exact drawn_pick s _
    · exact (drawn_pick s _).trans (ih _ _)

theorem drawn_shuffle {α : Type} (s : State) (xs : List α) : Drawn s (s.shuffle xs).2 := drawn_shuffleN s _ xs

theorem drawn_dealDraws (s : State) (cv : Conv) (n : Nat) : Drawn s (s.dealDraws cv n).2 := by
  unfold State.dealDraws
  split
  · exact drawn_shuffle s _
  · exact .refl s

theorem drawn_accumulate (s : State) (f : Fmt) (a : Option Num) (xs : List Num) (fl : Fl) : Drawn s (s.accumulate f a xs fl).2.2 := by
  unfold State.accumulate
  extract_lets big
  split
  · exact .refl s
  · exact drawn_shuffle s xs

theorem drawn_sumB64 (s : State) (fuel : Nat) (xs : List Num) : Drawn s (s.sumB64 fuel xs).2 := by
  induction fuel generalizing s xs with
  | zero => exact .refl s
  | succ fuel ih =>
    rw [State.sumB64]
    split
    · exact (drawn_shuffle s xs).trans (ih _ _)
    · exact drawn_shuffle s xs

theorem drawn_measureWords (s : State) (int : Bool) (vals : List Num) : Drawn s (s.measureWords int vals).2 := by
  cases int with
  | true => exact .refl s
  | false => exact drawn_sumB64 s _ _

theorem drawn_carryReg (s : State) (int : Bool) (c : Option Carry) : Drawn s (s.carryReg int c).2 := by
  unfold State.carryReg
  split
  · exact .refl s
  · split
    · exact .refl s
    · split
      · exact drawn_draw s
      · exact .refl s

/-! One output of a product (R103 to R105, R121 to R127, R150). -/

theorem drawn_scaledTerms (s : State) (neg int : Bool) (gs : List (List Num)) (sa sb : List Num) (fl : Fl) :
    Drawn s (s.scaledTerms neg int gs sa sb fl).2.2 := by
  induction gs generalizing s sa sb fl with
  | nil => exact .refl s
  | cons g gs ih =>
    cases int with
    | true => exact ih _ _ _ _
    | false => exact (drawn_accumulate s _ _ _ _).trans (ih _ _ _ _)

theorem drawn_block128 (s : State) (ps : List (Num × Int)) (load : Option Num) (fl : Fl) : Drawn s (s.block128 ps load fl).2.2 := by
  unfold State.block128
  extract_lets all special
  split
  · exact drawn_shuffle s _
  · split
    · exact .refl s
    · exact .refl s

theorem drawn_dot128 (s : State) (ps : List (Num × Int)) (c0 : Option Num) (fl : Fl) : Drawn s (s.dot128 ps c0 fl).2.2 := by
  unfold State.dot128
  extract_lets bs r0 rest q
  have hrest : Drawn s rest.2.2 :=
    List.foldlRecOn (motive := fun a : List Num × Fl × State => Drawn s a.2.2) _ _ (drawn_block128 s _ _ _) fun a ha b _ =>
      ha.trans (drawn_block128 a.2.2 _ _ _)
  exact hrest.trans (drawn_accumulate _ _ _ _ _)

theorem drawn_mxSum (s : State) (d : BitVec 512) (x : MX) (a b : MVec) (c0 : Option Num) (fl : Fl) : Drawn s (s.mxSum d x a b c0 fl).2.2 := by
  unfold State.mxSum
  extract_lets fin scaled intPair
  split
  · exact drawn_dot128 s _ _ _
  · exact drawn_dot128 s _ _ _
  · exact drawn_accumulate s _ _ _ _
  · exact drawn_accumulate s _ _ _ _
  · split
    · exact (drawn_scaledTerms s _ _ _ _ _ _).trans (drawn_accumulate _ _ _ _ _)
    · split <;> exact drawn_accumulate s _ _ _ _

/-- The outputs of one row of a block: one for each column. -/
theorem mxDots_spec (d : BitVec 512) (x : MX) (a : MVec) (cs : List (MVec × Option Num)) (s : State) (fl : Fl) :
    Drawn s (s.mxDots d x a cs fl).2.2 ∧ (s.mxDots d x a cs fl).1.length = cs.length := by
  induction cs generalizing s fl with
  | nil => exact ⟨.refl s, rfl⟩
  | cons c cs ih =>
    obtain ⟨hd, hl⟩ := ih (s.mxDot d x a c.1 c.2 fl).2.2 (s.mxDot d x a c.1 c.2 fl).2.1
    exact ⟨(drawn_mxSum s d x a c.1 c.2 fl).trans hd, congrArg Nat.succ hl⟩

end Sys2Proof.Machine
end

section
/-! SUPPORT. What a step of the matrix or vector engine over the tile's own scratch changes: bytes of the offsets that it writes, array errors
that its writes clear, the tile's rounding generator, and free values (R98, R139, R201, R222). -/
namespace Sys2Proof.Machine

/-- State `u` is state `s` but for bytes of tile `t`'s scratch at the offsets `W`, the tile's array errors, its rounding generator and the
free values drawn; an array without errors stays so. -/
structure EngineStep (t : Nat) (W : Nat → Prop) (s u : State) : Prop where
  rest : u = { s with shelf := u.shelf, tiles := u.tiles, regs := u.regs, freeCtr := u.freeCtr }
  reg : ∀ a, a ≠ hubReg t 0x400 4 → u.reg a = s.reg a
  same : u.tile t = { s.tile t with eccErr := (u.tile t).eccErr }
  noErrors : (s.tile t).eccErr = [] → (u.tile t).eccErr = []
  bytes : ∀ k, (∀ o, W o → s.scratchKey t o ≠ some k) → readByte u.shelf k = readByte s.shelf k

theorem lfsrReg_ne_tileReg (t u : Nat) {b : Nat} (hb : b < 0x100) : tileReg u b ≠ hubReg t 0x400 4 :=
  tileReg_ne_crateReg (by omega) hb

theorem shScratchReg_ne_lfsrReg (t : Nat) : (shScratch t).a ≠ hubReg t 0x400 4 := by
  simp only [shScratch, hubReg, crateReg]; omega

namespace EngineStep
variable {t : Nat} {W : Nat → Prop} {s u v : State}

theorem refl (t : Nat) (W : Nat → Prop) (s : State) : EngineStep t W s s := ⟨rfl, fun _ _ => rfl, rfl, id, fun _ _ => rfl⟩

theorem rd (h : EngineStep t W s u) {f : Fld} (hf : f.a ≠ hubReg t 0x400 4) : u.rd f = s.rd f := by rw [State.rd, h.reg _ hf]; rfl
theorem on (h : EngineStep t W s u) {f : Fld} (hf : f.a ≠ hubReg t 0x400 4) : u.on f = s.on f := by rw [State.on, h.rd hf]; rfl
theorem locked (h : EngineStep t W s u) : u.rd (shScratch t) = s.rd (shScratch t) := h.rd (shScratchReg_ne_lfsrReg t)
theorem key (h : EngineStep t W s u) (o : Nat) : u.scratchKey t o = s.scratchKey t o := scratchKey_congr h.locked o
theorem scratchEnd (h : EngineStep t W s u) : u.scratchEnd t = s.scratchEnd t := scratchEnd_congr h.locked
theorem cellar (h : EngineStep t W s u) : u.cellar = s.cellar := by rw [h.rest]
theorem crates (h : EngineStep t W s u) : u.crates = s.crates := by rw [h.rest]
theorem eng (h : EngineStep t W s u) (e : Nat) : (u.tile t).eng e = (s.tile t).eng e := by rw [h.same]; rfl

theorem trans (h : EngineStep t W s u) (k : EngineStep t W u v) : EngineStep t W s v where
  rest := by rw [k.rest, h.rest]
  reg a ha := (k.reg a ha).trans (h.reg a ha)
  same := by rw [k.same, h.same]
  noErrors := k.noErrors ∘ h.noErrors
  bytes b hb := (k.bytes b fun o ho => by rw [h.key]; exact hb o ho).trans (h.bytes b hb)

theorem of_drawn (h : Drawn s u) : EngineStep t W s u := by
  obtain ⟨n, rfl⟩ := h
  exact ⟨rfl, fun _ _ => rfl, rfl, id, fun _ _ => rfl⟩

end EngineStep

theorem engineStep_advanceLfsr (s : State) (t n start : Nat) (W : Nat → Prop) : EngineStep t W s (s.advanceLfsr t n start) :=
  ⟨rfl, fun _ ha => reg_wr_other s _ ha, rfl, id, fun _ _ => rfl⟩

/-- An engine that rounds stochastically leaves its generator advanced. -/
theorem engineStep_advanceIf {t : Nat} {W : Nat → Prop} {s u : State} (h : EngineStep t W s u) (sr : Bool) (n start : Nat) :
    EngineStep t W s (if sr then u.advanceLfsr t n start else u) := by
  split
  · exact h.trans (engineStep_advanceLfsr u t n start W)
  · exact h

/-- A write clears no error of an array without errors. -/
theorem clearWords_noErrors {s : State} {t : Nat} (h : (s.tile t).eccErr = []) (o n : Nat) : s.clearWords t o n = s := by
  refine List.foldlRecOn (motive := fun u : State => u = s) _ _ rfl fun u hu i _ => ?_
  subst hu
  dsimp only
  split
  · rfl
  · rw [h]
    rfl

theorem scratchWriteRaw_tiles (bs : List Byte) (s : State) (t o : Nat) : (s.scratchWriteRaw t o bs).tiles = s.tiles := by
  induction bs generalizing s o with
  | nil => rfl
  | cons b bs ih =>
    rw [State.scratchWriteRaw, ih, State.scratchWriteByte]
    split <;> rfl

theorem engineStep_scratchWrite {t : Nat} {W : Nat → Prop} (s : State) {o : Nat} {bs : List Byte} (hW : ∀ i < bs.length, W (o + i)) :
    EngineStep t W s (s.scratchWrite t o bs) := by
  have hA := arrayOnly_scratchWrite s t o bs
  refine ⟨by rw [hA.rest], fun a _ => hA.reg a, hA.same, fun h => ?_, fun k hk => ?_⟩
  · rw [State.scratchWrite, clearWords_noErrors h, State.tile, scratchWriteRaw_tiles]
    exact h
  · exact readByte_scratchWrite_other fun i hi => hk _ (hW i hi)

/-! Accesses to buffers in scratch. -/

/-- The `n` bytes at offset `off` of a buffer lie in tile `t`'s locked scratch, or there are none. -/
def State.InScratch (s : State) (t : Nat) (b : BitVec 128) (off n : Nat) : Prop :=
  n = 0 ∨ bKind b = 1 ∧ bBase b + off + n ≤ s.scratchEnd t

theorem EngineStep.inScratch {t : Nat} {W : Nat → Prop} {s u : State} (h : EngineStep t W s u) {b : BitVec 128} {off n : Nat}
    (hb : s.InScratch t b off n) : u.InScratch t b off n := by rwa [State.InScratch, h.scratchEnd]

/-- Part of an extent that its SHELF buffer allows lies in locked scratch (R55). -/
theorem inScratch_of_extent {s : State} {t : Nat} {r : Run} {e : Extent} (hal : s.extentAllowed t r e = true)
    (hk : bKind (r.buf e.buf) = 1) {off n : Nat} (hlo : e.lo ≤ off) (hhi : (off : Int) + n ≤ e.hi) : s.InScratch t (r.buf e.buf) off n := by
  by_cases hn : n = 0
  · exact .inl hn
  · have he : e.empty = false := by simp only [Extent.empty, decide_eq_false_iff_not]; omega
    simp only [State.extentAllowed, he, hk, Bool.and_eq_true, Bool.or_eq_true, decide_eq_true_eq] at hal
    obtain ⟨-, hend⟩ := hal
    exact .inr ⟨hk, by simp at hend; omega⟩

/-- Such bytes of an array without errors are read as they are, and the reading changes nothing. -/
theorem evRead_inScratch {s : State} {t : TileId} (h : NoArrayErrors s t) {b : BitVec 128} {off n : Nat} (hb : s.InScratch t b off n)
    (rq shoot : Nat) : ∃ d, s.evRead t rq shoot b off n = (.ok d, s) := by
  by_cases hn : n = 0
  · exact ⟨[], by simp [State.evRead, State.bufRead, hn]⟩
  · obtain ⟨hk, he⟩ := hb.resolve_left hn
    obtain ⟨d, hd, -⟩ := scratchRead_noErrors h (o := bBase b + off) (n := n) he
    have hbuf : s.bufRead t rq shoot b off n = (.ok d, s) := by
      rw [State.bufRead, if_neg hn, if_pos hk, if_neg (by omega), hd]
    exact ⟨d, by rw [State.evRead, hbuf]⟩

/-- Such bytes are written whole. -/
theorem bufWrite_inScratch {s : State} {t : Nat} {b : BitVec 128} {off : Nat} {bs : List Byte} (hb : s.InScratch t b off bs.length)
    {W : Nat → Prop} (hW : ∀ i < bs.length, W (bBase b + off + i)) (rq shoot : Nat) :
    ∃ u, s.bufWrite t rq shoot b off bs = (0, u) ∧ EngineStep t W s u := by
  by_cases hn : bs = []
  · exact ⟨s, by simp [State.bufWrite, hn], .refl t W s⟩
  · obtain ⟨hk, he⟩ := hb.resolve_left (by simpa using hn)
    exact ⟨_, by rw [State.bufWrite, if_neg (by simpa using hn), if_pos hk, if_neg (by omega)], engineStep_scratchWrite s hW⟩

/-- A piece of a write-out lies in scratch, at offsets of `W`. -/
def WUnit.Within (w : WUnit) (s : State) (t : Nat) (W : Nat → Prop) : Prop :=
  s.InScratch t w.buf w.off w.bytes.length ∧ ∀ i < w.bytes.length, W (bBase w.buf + w.off + i)

theorem EngineStep.within {t : Nat} {W : Nat → Prop} {s u : State} (h : EngineStep t W s u) {w : WUnit} (hw : w.Within s t W) :
    w.Within u t W := ⟨h.inScratch hw.1, hw.2⟩

theorem writeUnits_within {t : Nat} {W : Nat → Prop} (us : List WUnit) (s : State) (h : ∀ w ∈ us, w.Within s t W) (rq shoot n : Nat) :
    ∃ m u, s.writeUnits t rq shoot us n = (0, m, u) ∧ EngineStep t W s u := by
  induction us generalizing s n with
  | nil => exact ⟨n, s, rfl, .refl t W s⟩
  | cons w us ih =>
    obtain ⟨hin, hW⟩ := h w (by simp)
    obtain ⟨u, hu, hstep⟩ := bufWrite_inScratch hin hW rq shoot
    obtain ⟨m, v, hv, hrest⟩ := ih u (fun x hx => hstep.within (h x (by simp [hx]))) (n + w.cnt)
    exact ⟨m, v, by rw [State.writeUnits, hu]; exact hv, hstep.trans hrest⟩

theorem writeFields_within {t : Nat} {W : Nat → Prop} (us : List WUnit) (s : State) (hk : ∀ w ∈ us, bKind w.buf = 1)
    (h : ∀ w ∈ us, w.Within s t W) (rq shoot : Nat) : ∃ u, s.writeFields t rq shoot us = (0, u) ∧ EngineStep t W s u := by
  induction us generalizing s with
  | nil => exact ⟨s, rfl, .refl t W s⟩
  | cons w us ih =>
    obtain ⟨hin, hW⟩ := h w (by simp)
    obtain ⟨u, hu, hstep⟩ := bufWrite_inScratch hin hW rq shoot
    obtain ⟨v, hv, hrest⟩ := ih u (fun x hx => hk x (by simp [hx])) (fun x hx => hstep.within (h x (by simp [hx])))
    refine ⟨v, ?_, hstep.trans hrest⟩
    rw [State.writeFields, if_pos (hk w (by simp)), hu]
    exact hv

/-- An output scale record in scratch is written (R158, R621). -/
theorem writeRec_inScratch {s : State} {t : Nat} {b : BitVec 128} {off : Nat} (hk : bKind b = 1)
    (hend : bBase b + off + 32 ≤ s.scratchEnd t) {W : Nat → Prop} (hW : ∀ i < 32, W (bBase b + off + i)) (rq shoot : Nat) (w : OutWr) :
    ∃ u, s.writeRec t rq shoot b off w = (0, u) ∧ EngineStep t W s u := by
  have hfield : ∀ (j n v c : Nat), j + n ≤ 32 → (⟨b, off + j, toBytes n v, c⟩ : WUnit).Within s t W := fun j n v c hj =>
    ⟨.inr ⟨hk, by rw [length_toBytes]; exact (show bBase b + (off + j) + n ≤ _ by omega)⟩, fun i hi => by
      rw [length_toBytes] at hi
      have h := hW (j + i) (by omega)
      rwa [show bBase b + off + (j + i) = bBase b + (off + j) + i by omega] at h⟩
  obtain ⟨u, hu, hstep⟩ := writeFields_within (t := t) (W := W)
    [⟨b, off + 4, toBytes 4 w.used, 0⟩, ⟨b, off + 8, toBytes 4 w.amax, 0⟩, ⟨b, off + 12, toBytes 4 w.qclamps, 0⟩,
     ⟨b, off + 16, toBytes 4 w.qflushes, 0⟩, ⟨b, off + 26, toBytes 1 w.status, 0⟩, ⟨b, off + 27, toBytes 1 w.reason, 0⟩] s
    (by simp [hk]) (by simp [hfield]) rq shoot
  exact ⟨u, by simp only [State.writeRec, hu, if_true], hstep⟩

end Sys2Proof.Machine
end

section
/-! SUPPORT. Pieces of lists and of products: how long they are, and that the blocks of a product cover it (R77, R116, R128). -/
namespace Sys2Proof.Machine

/-! Lists cut into pieces. -/

/-- A piece begins within the list. -/
theorem lt_of_lt_length_chunksN {α : Type} (n fuel : Nat) (xs : List α) {u : Nat} (h : u < (chunksN n fuel xs).length) :
    n * u < xs.length := by
  induction fuel generalizing xs u with
  | zero => simp [chunksN] at h
  | succ fuel ih =>
    cases xs with
    | nil => simp [chunksN] at h
    | cons x xs =>
      cases u with
      | zero => simp
      | succ u =>
        have hu := ih ((x :: xs).drop n) (u := u) (by simpa [chunksN] using h)
        rw [List.length_drop] at hu
        rw [Nat.mul_succ]
        omega

theorem getD_chunksN {α : Type} (n fuel : Nat) (xs : List α) {u : Nat} (h : u < (chunksN n fuel xs).length) :
    (chunksN n fuel xs).getD u [] = (xs.drop (n * u)).take n := by
  induction fuel generalizing xs u with
  | zero => simp [chunksN] at h
  | succ fuel ih =>
    cases xs with
    | nil => simp [chunksN] at h
    | cons x xs =>
      cases u with
      | zero => simp [chunksN]
      | succ u =>
        have hu := ih ((x :: xs).drop n) (u := u) (by simpa [chunksN] using h)
        rw [List.drop_drop, Nat.add_comm, ← Nat.mul_succ] at hu
        simpa [chunksN] using hu

theorem length_chunksN {α : Type} {n : Nat} (hn : 0 < n) (fuel : Nat) (xs : List α) (h : xs.length ≤ fuel) :
    (chunksN n fuel xs).length = (xs.length + n - 1) / n := by
  induction fuel generalizing xs with
  | zero =>
    obtain rfl : xs = [] := List.eq_nil_of_length_eq_zero (by omega)
    simpa [chunksN] using (Nat.div_eq_of_lt (by omega)).symm
  | succ fuel ih =>
    cases xs with
    | nil => simpa [chunksN] using (Nat.div_eq_of_lt (by omega)).symm
    | cons x xs =>
      have hrest := ih ((x :: xs).drop n) (by rw [List.length_drop]; simp only [List.length_cons] at h ⊢; omega)
      have hcut : (chunksN n (fuel + 1) (x :: xs)).length = (chunksN n fuel ((x :: xs).drop n)).length + 1 := by simp [chunksN]
      rw [hcut, hrest, List.length_drop]
      generalize hl : (x :: xs).length = l
      have hpos : 0 < l := by rw [← hl]; simp
      by_cases hle : n ≤ l
      · rw [← Nat.add_div_right _ hn]
        congr 1
        omega
      · rw [Nat.div_eq_of_lt (by omega), show l + n - 1 = l - 1 + n by omega, Nat.add_div_right _ hn, Nat.div_eq_of_lt (by omega)]

/-- Each piece but the last has n elements. -/
theorem length_getD_chunks {α : Type} (n : Nat) (xs : List α) {u : Nat} (h : u < (chunks n xs).length) :
    ((chunks n xs).getD u []).length = min n (xs.length - n * u) := by
  rw [chunks, getD_chunksN n _ xs h, List.length_take, List.length_drop]

/-! Bytes of codes (R77). -/

theorem bits_cases (f : Fmt) : f.bits = 4 ∨ f.bits = 8 ∨ f.bits = 16 ∨ f.bits = 32 ∨ f.bits = 64 := by cases f <;> decide

/-- A format that is not 4 bits wide takes whole bytes. -/
theorem bits_eq_bytes {f : Fmt} (h4 : f.bits ≠ 4) : ∃ k, f.bits = 8 * k := by
  rcases (bits_cases f).resolve_left h4 with h | h | h | h
  exacts [⟨1, h⟩, ⟨2, h⟩, ⟨4, h⟩, ⟨8, h⟩]

theorem length_packCodes (f : Fmt) (cs : List Nat) : (packCodes f cs).length = f.bytes cs.length := by
  unfold packCodes Fmt.bytes Fmt.is4
  by_cases h4 : f.bits = 4
  · simp only [h4, decide_true, if_true, List.length_map, chunks, length_chunksN (n := 2) (by decide) _ cs le_rfl]
    omega
  · have hw : (cs.flatMap fun c => toBytes (f.bits / 8) c).length = cs.length * (f.bits / 8) := by simp [List.length_flatMap]
    simp only [h4, decide_false, Bool.false_eq_true, if_false, hw]
    obtain ⟨k, hk⟩ := bits_eq_bytes h4
    rw [hk, Nat.mul_div_cancel_left k (by decide), Nat.mul_left_comm]
    omega

/-- The bytes of a row's elements j0 to j0 + n − 1 lie within the row. -/
theorem bytes_part_le (f : Fmt) {j0 n m : Nat} (hj : j0 + n ≤ m) : j0 * (f.bits / 8) + f.bytes n ≤ f.bytes m := by
  unfold Fmt.bytes
  rcases bits_cases f with hb | hb | hb | hb | hb <;> simp only [hb] <;> omega

/-- So do those of the u-th piece of them, which is two elements long in a 4-bit format and else one. -/
theorem bytes_piece_le (f : Fmt) {j0 n m u : Nat} (hj : j0 + n ≤ m) (hu : (if f.is4 then 2 else 1) * u < n) :
    (j0 + (if f.is4 then 2 else 1) * u) * f.bits / 8 + f.bytes (min (if f.is4 then 2 else 1) (n - (if f.is4 then 2 else 1) * u)) ≤ f.bytes m := by
  unfold Fmt.is4 Fmt.bytes at *
  by_cases h4 : f.bits = 4
  · simp only [h4, decide_true, if_true] at hu ⊢
    omega
  · obtain ⟨k, hk⟩ := bits_eq_bytes h4
    simp only [h4, decide_false, Bool.false_eq_true, if_false, Nat.one_mul] at hu ⊢
    have hrow : (j0 + u + 1) * k ≤ m * k := Nat.mul_le_mul_right k (by omega)
    rw [Nat.min_eq_left (by omega), hk, Nat.mul_left_comm, Nat.mul_left_comm m, Nat.one_mul]
    rw [Nat.add_mul, Nat.one_mul] at hrow
    omega

theorem length_convAll (cv : Conv) (as : List Num) (fl : Fl) : (convAll cv as fl).1.length = as.length := by
  induction as generalizing cv fl with
  | nil => rfl
  | cons a as ih => exact congrArg Nat.succ (ih _ _)

theorem length_readAll (f : Fmt) (cs : List Nat) (fl : Fl) : (readAll f cs fl).1.length = cs.length := by
  induction cs generalizing fl with
  | nil => rfl
  | cons c cs ih => exact congrArg Nat.succ (ih _)

theorem length_codesOf (f : Fmt) (bs : List Byte) (n : Nat) : (codesOf f bs n).length = n := by simp [codesOf]

/-! The blocks of a product (R116). -/

/-- Pieces of b, the last one cut off at m, are m in all. -/
theorem sum_cuts (b m p : Nat) : ((List.range p).map fun i => min b (m - i * b)).sum = min m (p * b) := by
  induction p with
  | zero => simp
  | succ p ih =>
    rw [List.range_succ, List.map_append, List.sum_append, ih, Nat.succ_mul]
    simp only [List.map_cons, List.map_nil, List.sum_cons, List.sum_nil]
    omega

theorem sum_cuts_all {b : Nat} (hb : 0 < b) (m : Nat) : ((List.range ((m + b - 1) / b)).map fun i => min b (m - i * b)).sum = m := by
  rw [sum_cuts, Nat.min_eq_left]
  have h1 := Nat.div_add_mod (m + b - 1) b
  have h2 := Nat.mod_lt (m + b - 1) hb
  rw [Nat.mul_comm] at h1
  omega

/-- A sum over numbered pairs of rows and columns is the product of the sums. -/
theorem sum_rows_columns (f g : Nat → Nat) (p q : Nat) :
    ((List.range (p * q)).map fun b => f (b / q) * g (b % q)).sum = ((List.range p).map f).sum * ((List.range q).map g).sum := by
  induction p with
  | zero => simp
  | succ p ih =>
    have hrow : ((List.range q).map fun j => f ((p * q + j) / q) * g ((p * q + j) % q)) = (List.range q).map fun j => f p * g j := by
      refine List.map_congr_left fun j hj => ?_
      have hjq : j < q := List.mem_range.1 hj
      rw [Nat.mul_comm p q, Nat.mul_add_div (by omega), Nat.div_eq_of_lt hjq, Nat.mul_add_mod, Nat.mod_eq_of_lt hjq, Nat.add_zero]
    rw [Nat.succ_mul, List.range_add, List.map_append, List.sum_append, ih, List.map_map, List.range_succ, List.map_append,
      List.sum_append, Nat.add_mul]
    simp only [Function.comp_def, hrow, List.sum_map_mul_left, List.map_cons, List.map_nil, List.sum_cons, List.sum_nil, Nat.add_zero]

theorem blockShape_pos (c : MClass) (sh : Nat) : 0 < (blockShape c sh).1 ∧ 0 < (blockShape c sh).2 := by
  unfold blockShape
  split <;> decide

end Sys2Proof.Machine
end

section
/-! SUPPORT. A matrix run over scratch whose checks have passed: its reads succeed and change nothing, and each block computes and writes all
its outputs within the extents that it writes (R115 to R128, R139, R201). -/
namespace Sys2Proof.Machine

/-! Steps over lists that end with a value. -/

/-- An invariant of the number of elements taken holds at the end of a fold that keeps the state. -/
theorem evFold_keeps {α β : Type} {I : Nat → β → Prop} {f : β → α → State → Ev β} {s : State} (xs : List α) (k : Nat) (b : β)
    (h : I k b) (hf : ∀ k b x, x ∈ xs → I k b → ∃ b', f b x s = (.ok b', s) ∧ I (k + 1) b') :
    ∃ b', evFold f b xs s = (.ok b', s) ∧ I (k + xs.length) b' := by
  induction xs generalizing k b with
  | nil => exact ⟨b, rfl, h⟩
  | cons x xs ih =>
    obtain ⟨b1, h1, hI⟩ := hf k b x (by simp) h
    obtain ⟨b2, h2, hI2⟩ := ih (k + 1) b1 hI fun k b y hy => hf k b y (by simp [hy])
    exact ⟨b2, by rw [evFold, h1]; exact h2, by rwa [List.length_cons, Nat.add_comm xs.length 1, ← Nat.add_assoc]⟩

theorem evMap_keeps {α β : Type} {f : α → State → Ev β} {s : State} (xs : List α) (hf : ∀ x ∈ xs, ∃ y, f x s = (.ok y, s)) :
    ∃ ys, evMap f xs s = (.ok ys, s) ∧ ys.length = xs.length := by
  induction xs with
  | nil => exact ⟨[], rfl, rfl⟩
  | cons x xs ih =>
    obtain ⟨y, hy⟩ := hf x (by simp)
    obtain ⟨ys, hys, hl⟩ := ih fun z hz => hf z (by simp [hz])
    exact ⟨y :: ys, by simp only [evMap, hy, Ev.andThen, hys], congrArg Nat.succ hl⟩

/-- The same for a fold without statuses. -/
theorem foldl_count {α β : Type} {I : Nat → β → Prop} {f : β → α → β} (xs : List α) (k : Nat) (b : β) (h : I k b)
    (hf : ∀ k b x, x ∈ xs → I k b → I (k + 1) (f b x)) : I (k + xs.length) (xs.foldl f b) := by
  induction xs generalizing k b with
  | nil => exact h
  | cons x xs ih =>
    have hrest := ih (k + 1) (f b x) (hf k b x (by simp) h) fun k b y hy => hf k b y (by simp [hy])
    rwa [List.length_cons, Nat.add_comm xs.length 1, ← Nat.add_assoc]

/-! The extents of a matrix run. -/

/-- The outputs' extent (R119). -/
def mxOutExtent (r : Run) (x : MX) : Extent := rowsExtent (xCBuf r.desc) x.cOff x.m x.ldc (x.fc.bytes x.n) (xCinit r.desc) true

/-- The scratch offsets that a matrix run may write: those of its outputs and of its output record. -/
def mxWritten (r : Run) (x : MX) (q : MRec) (o : Nat) : Prop :=
  ∃ e : Extent, (e ∈ mxMeta r.desc x q ∨ e = mxOutExtent r x) ∧ e.writes = true ∧
    (bBase (r.buf e.buf) : Int) + e.lo ≤ o ∧ (o : Int) < (bBase (r.buf e.buf) : Int) + e.hi

/-- A matrix run without escapes and RESCUE, over scratch without array errors, whose checks have passed. -/
structure MxReady (s : State) (t : TileId) (r : Run) (x : MX) (q : MRec) : Prop where
  clean : NoArrayErrors s t
  fields : mxOf r = some x
  shelf : ∀ n ∈ matrixBufs r.desc, bKind (r.buf n) = 1
  rowsA : s.extentAllowed t r (rowsExtent (xABuf r.desc) x.aOff x.m x.lda (x.fa.bytes x.k) true false) = true
  rowsB : s.extentAllowed t r (rowsExtent (xBBuf r.desc) x.bOff x.n x.ldb (x.fb.bytes x.k) true false) = true
  rowsC : s.extentAllowed t r (mxOutExtent r x) = true
  metadata : ∀ e ∈ mxMeta r.desc x q, s.extentAllowed t r e = true
  escapes : xEscEn r.desc = false
  rescue : xRescue r.desc = false

theorem extentAllowed_congr {s u : State} {t : Nat} (h : u.scratchEnd t = s.scratchEnd t) (r : Run) (e : Extent) :
    u.extentAllowed t r e = s.extentAllowed t r e := by
  rw [State.extentAllowed, h]
  rfl

/-- A run stays ready over its own steps. -/
theorem MxReady.step {s u : State} {t : TileId} {r : Run} {x : MX} {q : MRec} {W : Nat → Prop} (h : MxReady s t r x q)
    (hs : EngineStep t W s u) : MxReady u t r x q where
  clean := hs.noErrors h.clean
  fields := h.fields
  shelf := h.shelf
  rowsA := (extentAllowed_congr hs.scratchEnd r _).trans h.rowsA
  rowsB := (extentAllowed_congr hs.scratchEnd r _).trans h.rowsB
  rowsC := (extentAllowed_congr hs.scratchEnd r _).trans h.rowsC
  metadata e he := (extentAllowed_congr hs.scratchEnd r e).trans (h.metadata e he)
  escapes := h.escapes
  rescue := h.rescue

/-- The part of row i of a strided operand from byte a on lies in the operand's extent. -/
theorem row_in_rowsExtent (buf off : Nat) {rows ld len i a n : Nat} (rd wr : Bool) (hi : i < rows) (ha : a + n ≤ len) :
    (rowsExtent buf off rows ld len rd wr).lo ≤ ((off + i * ld + a : Nat) : Int) ∧
      ((off + i * ld + a : Nat) : Int) + n ≤ (rowsExtent buf off rows ld len rd wr).hi := by
  have hrow : (i : Int) * ld ≤ ((rows : Int) - 1) * ld := mul_le_mul_of_nonneg_right (by omega) (by omega)
  have hcast : ((off + i * ld + a : Nat) : Int) = (off : Int) + (i : Int) * ld + a := by push_cast; rfl
  have hnn : 0 ≤ (i : Int) * ld := by positivity
  rw [hcast]
  simp only [rowsExtent]
  omega

/-- The group headers of row i lie within those of all rows (R144). -/
theorem group_headers_le {g i m : Nat} (hi : i < m) : 16 + 8 * (i * g) + 8 * g ≤ 16 + 8 * g * m := by
  have h1 : (i + 1) * g ≤ m * g := Nat.mul_le_mul_right g hi
  rw [Nat.mul_assoc, Nat.mul_comm g m]
  rw [Nat.add_mul] at h1
  omega

theorem fmtOfCode_cb4 {n : Nat} (h : fmtOfCode n = some .cb4) : n = 10 := by
  unfold fmtOfCode at h
  split at h <;> cases h
  rfl

/-- The operand formats are those of the descriptor's format codes. -/
theorem fmt_of_mxOf {r : Run} {x : MX} (h : mxOf r = some x) :
    fmtOfCode (dBits r.desc 80 4) = some x.fa ∧ fmtOfCode (dBits r.desc 84 4) = some x.fb := by
  unfold mxOf at h
  extract_lets d at h
  split at h
  · next fa fb fc ha hb hc =>
    extract_lets at h
    split at h
    · cases h
    · extract_lets at h
      split at h
      · cases h
      · cases h
        exact ⟨ha, hb⟩
  · cases h

section Ready
variable {s : State} {t : TileId} {r : Run} {x : MX} {q : MRec} (h : MxReady s t r x q)
include h

/-- Q_BUF is in scratch where the descriptor uses it. -/
theorem MxReady.kindQ (hu : xUsesQ r.desc = true) : bKind (r.buf (xQBuf r.desc)) = 1 := h.shelf _ (by simp [matrixBufs, hu])

theorem MxReady.rowA {i : Nat} (hi : i < x.m) : s.InScratch t (r.buf (xABuf r.desc)) (x.aOff + i * x.lda) (x.fa.bytes x.k) := by
  obtain ⟨hlo, hhi⟩ := row_in_rowsExtent (xABuf r.desc) x.aOff (ld := x.lda) (a := 0) true false hi (Nat.le_of_eq (Nat.zero_add (x.fa.bytes x.k)))
  exact inScratch_of_extent h.rowsA (h.shelf (xABuf r.desc) (by simp [matrixBufs])) hlo hhi

theorem MxReady.rowB {j : Nat} (hj : j < x.n) : s.InScratch t (r.buf (xBBuf r.desc)) (x.bOff + j * x.ldb) (x.fb.bytes x.k) := by
  obtain ⟨hlo, hhi⟩ := row_in_rowsExtent (xBBuf r.desc) x.bOff (ld := x.ldb) (a := 0) true false hj (Nat.le_of_eq (Nat.zero_add (x.fb.bytes x.k)))
  exact inScratch_of_extent h.rowsB (h.shelf (xBBuf r.desc) (by simp [matrixBufs])) hlo hhi

/-- Part of a row of the outputs lies in scratch, at offsets that the run may write. -/
theorem MxReady.rowC {i a n : Nat} (hi : i < x.m) (ha : a + n ≤ x.fc.bytes x.n) :
    s.InScratch t (r.buf (xCBuf r.desc)) (x.cOff + i * x.ldc + a) n ∧
      ∀ b < n, mxWritten r x q (bBase (r.buf (xCBuf r.desc)) + (x.cOff + i * x.ldc + a) + b) := by
  obtain ⟨hlo, hhi⟩ := row_in_rowsExtent (xCBuf r.desc) x.cOff (ld := x.ldc) (xCinit r.desc) true hi ha
  refine ⟨inScratch_of_extent h.rowsC (h.shelf (xCBuf r.desc) (by simp [matrixBufs])) hlo hhi,
    fun b hb => ⟨mxOutExtent r x, .inr rfl, rfl, ?_, ?_⟩⟩
  · change (bBase (r.buf (xCBuf r.desc)) : Int) + (rowsExtent _ _ _ _ _ _ _).lo ≤ _
    omega
  · change _ < (bBase (r.buf (xCBuf r.desc)) : Int) + (rowsExtent _ _ _ _ _ _ _).hi
    omega

/-- Part of a metadata extent lies in scratch. -/
theorem MxReady.inMeta {off len a n : Nat} {wr : Bool} (he : (⟨xQBuf r.desc, off, (off + len : Nat), true, wr⟩ : Extent) ∈ mxMeta r.desc x q)
    (hu : xUsesQ r.desc = true) (ha : a + n ≤ len) : s.InScratch t (r.buf (xQBuf r.desc)) (off + a) n :=
  inScratch_of_extent (h.metadata _ he) (h.kindQ hu) (by simp only; omega) (by simp only; omega)

/-! Operands. -/

theorem MxReady.headers {on : Bool} {qoff i : Nat}
    (hon : on = true → s.InScratch t (r.buf (xQBuf r.desc)) (qoff + 16 + 8 * (i * x.groups)) (8 * x.groups)) :
    ∃ hs, s.mxHeaders t r x on qoff i = (.ok hs, s) := by
  cases on with
  | false => exact ⟨[], rfl⟩
  | true =>
    obtain ⟨bs, hbs⟩ := evRead_inScratch h.clean (hon rfl) 1 r.shoot
    exact ⟨_, by simp only [State.mxHeaders, if_true, hbs, Ev.andThen]; rfl⟩

theorem MxReady.row (cb : List Nat) {i : Nat} (hi : i < x.m) (fl : Fl) : ∃ v, s.mxRow t r x cb i fl = (.ok v, s) := by
  obtain ⟨bs, hbs⟩ := evRead_inScratch h.clean (h.rowA hi) 1 r.shoot
  obtain ⟨hs, hhs⟩ := h.headers (on := xHa r.desc) (qoff := xAQoff r.desc) (i := i) fun hon => by
    rw [Nat.add_assoc]
    exact h.inMeta (len := 16 + 8 * x.groups * x.m) (wr := false) (by simp [mxMeta, hon]) (by simp [xUsesQ, hon]) (group_headers_le hi)
  exact ⟨_, by simp only [State.mxRow, hbs, Ev.andThen, hhs]; rfl⟩

theorem MxReady.colRead {j : Nat} (hj : j < x.n) : ∃ c, s.mxColRead t r x j = (.ok c, s) := by
  obtain ⟨bs, hbs⟩ := evRead_inScratch h.clean (h.rowB hj) 1 r.shoot
  obtain ⟨hs, hhs⟩ := h.headers (on := xHb r.desc) (qoff := xBQoff r.desc) (i := j) fun hon => by
    rw [Nat.add_assoc]
    exact h.inMeta (len := 16 + 8 * x.groups * x.n) (wr := false) (by simp [mxMeta, hon]) (by simp [xUsesQ, hon]) (group_headers_le hj)
  exact ⟨_, by simp only [State.mxColRead, hbs, Ev.andThen, hhs]; rfl⟩

theorem MxReady.load {i j0 n : Nat} (hi : i < x.m) (hj : j0 + n ≤ x.n) (fl : Fl) :
    ∃ c fl', s.mxLoad t r x i j0 n fl = (.ok (c, fl'), s) ∧ c.length = n := by
  unfold State.mxLoad
  split
  · obtain ⟨bs, hbs⟩ := evRead_inScratch h.clean (h.rowC hi (bytes_part_le x.fc hj)).1 1 r.shoot
    rw [hbs]
    exact ⟨_, _, rfl, by simp [length_readAll, length_codesOf]⟩
  · exact ⟨_, _, rfl, List.length_replicate⟩

end Ready

end Sys2Proof.Machine
end

section
/-! SUPPORT. The blocks of a matrix run that is ready: the values of a block, its write-out, and all blocks in order (R116, R128, R139). -/
namespace Sys2Proof.Machine

theorem Ev.andThen_ok {α β : Type} (a : α) (s : State) (f : α → State → Ev β) : Ev.andThen (.ok a, s) f = f a s := rfl

/-! The rows and the columns of a block. -/

/-- The indices of the i-th piece of b among m. -/
def cutAt (b m i : Nat) : List Nat := (List.range (min b (m - i * b))).map (· + i * b)

theorem length_cutAt (b m i : Nat) : (cutAt b m i).length = min b (m - i * b) := by simp [cutAt]

theorem lt_of_mem_cutAt {b m i k : Nat} (h : k ∈ cutAt b m i) : k < m := by
  obtain ⟨j, hj, rfl⟩ := List.mem_map.1 h
  have := List.mem_range.1 hj
  omega

/-- The indices of a piece are consecutive. -/
theorem cutAt_end_le (b m i : Nat) : (cutAt b m i).headD 0 + (cutAt b m i).length ≤ m := by
  rw [length_cutAt]
  cases hn : min b (m - i * b) with
  | zero => simp [cutAt, hn]
  | succ n =>
    have hhead : (cutAt b m i).headD 0 = i * b := by simp [cutAt, hn, List.range_succ_eq_map]
    omega

/-- Rows of A as read, with the initial values of their outputs in a block of L columns. -/
def RowsRead (L k : Nat) (acc : List (MVec × List (Option Num)) × Fl) : Prop := acc.1.length = k ∧ ∀ p ∈ acc.1, p.2.length = L

/-- Rows of outputs computed in a block of L columns, from state `s` on. -/
def RowsDone (s : State) (L k : Nat) (a : List (List Num) × Fl × State) : Prop :=
  Drawn s a.2.2 ∧ a.1.length = k ∧ ∀ v ∈ a.1, v.length = L

section Ready
variable {s : State} {t : TileId} {r : Run} {x : MX} {q : MRec} (h : MxReady s t r x q)
include h

/-- A block of rows `is` and columns `js` has its values, and computing them only draws free values. -/
theorem MxReady.blockVals (cba cbb : List Nat) {is js : List Nat} (hi : ∀ i ∈ is, i < x.m) (hj : ∀ j ∈ js, j < x.n)
    (hjs : js.headD 0 + js.length ≤ x.n) (fl : Fl) :
    ∃ vals st fl' u, s.mxBlockVals t r x q cba cbb is js fl = (.ok (vals, st, fl'), u) ∧ Drawn s u ∧ vals.length = is.length ∧
      ∀ v ∈ vals, v.length = js.length := by
  unfold State.mxBlockVals
  extract_lets rows
  obtain ⟨ra, hra, hrl, hrv⟩ : ∃ ra, rows = (.ok ra, s) ∧ RowsRead js.length (0 + is.length) ra := by
    refine evFold_keeps is 0 ([], fl) ⟨rfl, by simp⟩ fun k acc i hmem ⟨hk, hacc⟩ => ?_
    obtain ⟨c, fl1, hc, hcl⟩ := h.load (hi i hmem) hjs acc.2
    obtain ⟨v, hv⟩ := h.row cba (hi i hmem) fl1
    exact ⟨_, by simp only [hc, hv, Ev.andThen]; rfl, by simp [hk], List.forall_mem_append.2 ⟨hacc, List.forall_mem_singleton.2 hcl⟩⟩
  obtain ⟨cols, hcols, hcl⟩ := evMap_keeps (f := fun j s => s.mxColRead t r x j) js fun j hmem => h.colRead (hj j hmem)
  have hesc : s.mxEscs t r x q cols = (.ok cols, s) := by simp [State.mxEscs, h.escapes]
  rw [hra, Ev.andThen_ok, hcols, Ev.andThen_ok, hesc, Ev.andThen_ok]
  extract_lets ca out
  have hca : ca.1.length = 0 + cols.length :=
    foldl_count (I := fun k (a : List MVec × Fl) => a.1.length = k) cols 0 ([], ra.2) rfl fun k a c _ hk => by simp [hk]
  obtain ⟨hd, hl, hv⟩ : RowsDone s js.length (0 + ra.1.length) out :=
    foldl_count ra.1 0 ([], ca.2, s) ⟨.refl s, rfl, by simp⟩ fun k a rv hmem ⟨hd, hk, ha⟩ => by
      obtain ⟨hd1, hl1⟩ := mxDots_spec r.desc x rv.1 (ca.1.zip rv.2) a.2.2 a.2.1
      refine ⟨hd.trans hd1, by simp [hk], List.forall_mem_append.2 ⟨ha, List.forall_mem_singleton.2 ?_⟩⟩
      rw [hl1, List.length_zip, hrv rv hmem]
      omega
  exact ⟨out.1, _, _, out.2.2, rfl, hd, by omega, hv⟩

/-- The pieces in which row i of a block is written lie within the outputs. -/
theorem MxReady.rowUnits {i j0 : Nat} {codes : List Nat} (hi : i < x.m) (hj : j0 + codes.length ≤ x.n) (vals : List Num) :
    ∃ us, s.mxRowUnits r x q i j0 codes vals = (us, s) ∧ ∀ w ∈ us, w.Within s t (mxWritten r x q) := by
  unfold State.mxRowUnits
  extract_lets d w ps cu
  rw [show xRescue d = false from h.rescue]
  refine ⟨cu, rfl, fun v hv => ?_⟩
  obtain ⟨u, hu, rfl⟩ := List.mem_map.1 hv
  have hu' : u < (chunks w codes).length := List.mem_range.1 hu
  have hlt : w * u < codes.length := lt_of_lt_length_chunksN _ _ _ hu'
  have hfit : (j0 + w * u) * x.fc.bits / 8 + (packCodes x.fc (ps.getD u [])).length ≤ x.fc.bytes x.n := by
    rw [length_packCodes, length_getD_chunks w codes hu']
    exact bytes_piece_le x.fc hj hlt
  exact h.rowC hi hfit

/-- Computing and writing a block: all its outputs, and nothing but them. -/
theorem MxReady.block (cv : Conv) (cba cbb : List Nat) (bmn : Nat × Nat) {a : MAcc} (ha : a.code = none) (b bi bj : Nat) :
    ∃ a' u, s.mxBlock t r x q cv cba cbb none bmn a b bi bj = (a', u) ∧ EngineStep t (mxWritten r x q) s u ∧ a'.code = none ∧
      a'.done = a.done + min bmn.1 (x.m - bi * bmn.1) * min bmn.2 (x.n - bj * bmn.2) := by
  have hend := cutAt_end_le bmn.2 x.n bj
  obtain ⟨vals, st, fl', u, hvals, hd, hvl, hvj⟩ := h.blockVals cba cbb (is := cutAt bmn.1 x.m bi) (fun _ => lt_of_mem_cutAt)
    (fun _ => lt_of_mem_cutAt) hend a.fl
  have hu : EngineStep t (mxWritten r x q) s u := .of_drawn hd
  have hflat : vals.flatten.length = (cutAt bmn.1 x.m bi).length * (cutAt bmn.2 x.n bj).length := by
    rw [List.length_flatten, List.map_congr_left hvj]
    simp [hvl]
  change ∃ a' v, State.mxBlock.go s t r x q cv cba cbb a (cutAt bmn.1 x.m bi) (cutAt bmn.2 x.n bj) = (a', v) ∧ _
  unfold State.mxBlock.go
  split
  · next heq => rw [hvals] at heq; cases heq
  · next heq =>
    rw [hvals] at heq
    cases heq
    extract_lets flat c rows us w a1
    have hc : c.1.length = flat.length := length_convAll _ _ _
    obtain ⟨hus, hin⟩ : us.2 = u ∧ ∀ p ∈ us.1, p.Within u t (mxWritten r x q) := by
      refine List.foldlRecOn (motive := fun us : List WUnit × State => us.2 = u ∧ ∀ p ∈ us.1, p.Within u t (mxWritten r x q)) _ _
        ⟨rfl, by simp⟩ fun us ⟨hus, hin⟩ i hi => ?_
      have hir : i < rows.length := List.mem_range.1 hi
      have hlt := lt_of_lt_length_chunksN _ _ _ hir
      have hrow : i < (cutAt bmn.1 x.m bi).length := by
        rw [hc, hflat, Nat.mul_comm] at hlt
        exact Nat.lt_of_mul_lt_mul_right hlt
      obtain ⟨ps, hps, hpin⟩ := (h.step hu).rowUnits (i := (cutAt bmn.1 x.m bi).getD i 0) (j0 := (cutAt bmn.2 x.n bj).headD 0)
        (codes := (rows.getD i []).map (·.code)) (lt_of_mem_cutAt (by rw [List.getD_eq_getElem _ _ hrow]; exact List.getElem_mem hrow))
        (by rw [List.length_map, length_getD_chunks _ _ hir]; omega) (vals.getD i [])
      rw [hus, hps]
      refine ⟨rfl, fun p hp => ?_⟩
      exact (List.mem_append.1 hp).elim (hin p) (hpin p)
    obtain ⟨n, v, hw, hv⟩ := writeUnits_within us.1 u hin 1 r.shoot 0
    have hw' : w = (0, n, v) := by simp only [w, State.mxWrite, hus, hw, if_true]
    rw [hw']
    refine ⟨_, v, rfl, hu.trans hv, ha, ?_⟩
    change a.done + flat.length = _
    rw [hflat, length_cutAt, length_cutAt]

/-- All blocks in order: every output of theirs, and nothing but them. -/
theorem MxReady.blocks (cv : Conv) (cba cbb : List Nat) (bmn : Nat × Nat) (bs : List (Nat × Nat × Nat)) {a : MAcc} (ha : a.code = none) :
    ∃ a' u, s.mxBlocks t r x q cv cba cbb none bmn bs a = (a', u) ∧ EngineStep t (mxWritten r x q) s u ∧ a'.code = none ∧
      a'.done = a.done + (bs.map fun b => min bmn.1 (x.m - b.2.1 * bmn.1) * min bmn.2 (x.n - b.2.2 * bmn.2)).sum := by
  induction bs generalizing s a with
  | nil => exact ⟨a, s, rfl, .refl _ _ _, ha, rfl⟩
  | cons b bs ih =>
    obtain ⟨a1, u, h1, hu, hc1, hd1⟩ := h.block cv cba cbb bmn ha b.1 b.2.1 b.2.2
    obtain ⟨a2, v, h2, hv, hc2, hd2⟩ := ih (h.step hu) hc1
    refine ⟨a2, v, ?_, hu.trans hv, hc2, by rw [hd2, hd1, List.map_cons, List.sum_cons, Nat.add_assoc]⟩
    simp only [State.mxBlocks, h1, hc1]
    exact h2

end Ready
end Sys2Proof.Machine
end

section
/-! SUPPORT. A matrix descriptor over scratch from its start to its end: its records, its checks, its blocks and its summary; settles O15
(R45, R113, R115, R119, R128, R139, R158, R619). -/
namespace Sys2Proof.Machine

theorem exec_matrix (t : TileId) (m : Option (Nat × Nat × Nat)) (s : State) : exec (.matrix t m) s = execMatrix t m s := rfl

/-- MATRIX where no residue mismatch is met. -/
theorem exec_matrix_sound (t : TileId) (s : State) :
    exec (.matrix t none) s = s.engineCmd t 0 (fun _ => true) fun s x => s.matrixStart t x none := by
  simp only [exec_matrix, execMatrix, ite_self]

/-! The end of a matrix run (R139). -/

/-- An output record in scratch is written, and the run ends with its own status (R166, R621). -/
theorem mxEndRec_inScratch {s : State} {t : Nat} {r : Run} (hk : bKind (r.buf (xQBuf r.desc)) = 1)
    (hend : bBase (r.buf (xQBuf r.desc)) + xCQoff r.desc + 32 ≤ s.scratchEnd t) {W : Nat → Prop}
    (hW : ∀ i < 32, W (bBase (r.buf (xQBuf r.desc)) + xCQoff r.desc + i)) (code done bits esc : Nat) (fl : Fl) (w : OutWr) :
    ∃ u, s.mxEndRec t r code done bits esc fl w = u.mxEnd t r code done bits esc fl ∧ EngineStep t W s u := by
  obtain ⟨u, hu, hstep⟩ := writeRec_inScratch hk hend hW 1 r.shoot w
  exact ⟨u, by simp only [State.mxEndRec, hu, ne_eq, not_true_eq_false, false_and, if_false], hstep⟩

/-- The run as its end leaves it. -/
theorem eng_mxEnd (s : State) (t : Nat) (r : Run) (code done bits esc : Nat) (fl : Fl) :
    ((s.mxEnd t r code done bits esc fl).tile t).eng0 = { (s.tile t).eng0 with run := some { r with
      ended := some code, done := done, flags := fl.flags, clamps := fl.clamps, flushes := fl.flushes, phase := .work
      post := msumWords t r.desc fl bits esc } } := eng_setRun s t 0 _

/-! The run (R113, R128). -/

section Ready
variable {s : State} {t : TileId} {r : Run} {x : MX} {q : MRec} (h : MxReady s t r x q)
include h

/-- The codebooks lie in scratch, where there are any (R113). -/
theorem MxReady.codebook : s.InScratch t (r.buf (xQBuf r.desc)) (xCbOff r.desc)
    (if x.fa = .cb4 then 32 * (if x.cbf = .bf16 then 2 else 1) else if x.fb = .cb4 then 16 * (if x.cbf = .bf16 then 2 else 1) else 0) := by
  obtain ⟨hfa, hfb⟩ := fmt_of_mxOf h.fields
  generalize hw : (if x.cbf = .bf16 then 2 else 1) = w
  split
  · next ha =>
    have hm : (⟨xQBuf r.desc, xCbOff r.desc, (xCbOff r.desc + 32 * w : Nat), true, false⟩ : Extent) ∈ mxMeta r.desc x q := by
      simp [mxMeta, ha, hw]
    rw [ha] at hfa
    exact h.inMeta hm (by simp [xUsesQ, fmtOfCode_cb4 hfa]) (Nat.le_of_eq (Nat.zero_add _))
  · next ha =>
    split
    · next hb =>
      have hm : (⟨xQBuf r.desc, xCbOff r.desc, (xCbOff r.desc + 16 * w : Nat), true, false⟩ : Extent) ∈ mxMeta r.desc x q := by
        simp [mxMeta, ha, hb, hw]
      rw [hb] at hfb
      exact h.inMeta hm (by simp [xUsesQ, fmtOfCode_cb4 hfb]) (Nat.le_of_eq (Nat.zero_add _))
    · exact .inl rfl

/-- The output record lies in scratch, at offsets that the run may write. -/
theorem MxReady.outRecord (hq : xCQuant r.desc = true) : bKind (r.buf (xQBuf r.desc)) = 1 ∧
    bBase (r.buf (xQBuf r.desc)) + xCQoff r.desc + 32 ≤ s.scratchEnd t ∧
    ∀ i < 32, mxWritten r x q (bBase (r.buf (xQBuf r.desc)) + xCQoff r.desc + i) := by
  have hm : (⟨xQBuf r.desc, xCQoff r.desc, (xCQoff r.desc + 32 : Nat), true, true⟩ : Extent) ∈ mxMeta r.desc x q := by simp [mxMeta, hq]
  have hk := h.kindQ (by simp [xUsesQ, hq])
  refine ⟨hk, ?_, fun i hi => ⟨_, .inl hm, rfl, ?_, ?_⟩⟩
  · obtain ⟨-, hend⟩ := (h.inMeta (a := 0) (n := 32) hm (by simp [xUsesQ, hq]) le_rfl).resolve_left (by decide)
    exact hend
  · simp only; omega
  · simp only; omega

/-- A ready run computes all its outputs and ends DONE. -/
theorem MxReady.run_done : ∃ v bits esc fl, s.mxRun t r x q none = v.mxEnd t r stDONE (x.m * x.n) bits esc fl ∧
    EngineStep t (mxWritten r x q) s v := by
  obtain ⟨bs, hbs⟩ := evRead_inScratch h.clean h.codebook 1 r.shoot
  unfold State.mxRun
  extract_lets d w nb bmn nbj blocks
  split
  · next heq => cases hbs.symm.trans heq
  · next heq =>
    cases hbs.symm.trans heq
    extract_lets ent cba cbb dl cv p a s2
    obtain ⟨hb1, hb2⟩ := blockShape_pos x.cls (xShape d)
    have hdl : EngineStep t (mxWritten r x q) s dl.2 := .of_drawn (drawn_dealDraws _ _ _)
    obtain ⟨a', u, hp, hu, hcode, hdone⟩ := (h.step hdl).blocks cv cba cbb bmn blocks
      (a := ⟨Fl.clear, 0, false, 0, 0, 0, 0, Num.zero, none⟩) rfl
    have hall : a'.done = x.m * x.n := by
      rw [hdone, Nat.zero_add]
      simp only [blocks]
      split
      · next hm => simp [hm]
      · rw [List.map_map]
        exact (sum_rows_columns (fun i => min bmn.1 (x.m - i * bmn.1)) (fun j => min bmn.2 (x.n - j * bmn.2)) _ nbj).trans
          (by rw [sum_cuts_all hb1, sum_cuts_all hb2])
    have ha : a = a' := congrArg Prod.fst hp
    have hp2 : p.2 = u := congrArg Prod.snd hp
    have hs2 : EngineStep t (mxWritten r x q) s s2 := engineStep_advanceIf (by rw [hp2]; exact hdl.trans hu) _ _ _
    rw [ha, hcode, hall]
    have hpol : ¬ (xCQuant d = true ∧ xPolicy d = 2) := by
      have := h.rescue
      simpa [xRescue] using this
    dsimp only
    split
    · exact ⟨s2, _, _, _, rfl, hs2⟩
    · next hq =>
      simp only [Bool.or_eq_true, Bool.not_eq_true', not_or, Bool.not_eq_false] at hq
      obtain ⟨⟨hq, -⟩, -⟩ := hq
      rw [if_neg fun hfb => hpol ⟨hq, hfb.2⟩]
      obtain ⟨hk, hend, hW⟩ := (h.step hs2).outRecord hq
      obtain ⟨v, hv, hstep⟩ := mxEndRec_inScratch hk hend hW stDONE _ _ _ _ _
      exact ⟨v, _, _, _, hv, hs2.trans hstep⟩

end Ready

/-! The records of a start (R145, R158). -/

/-- A computation answers the same in two states and changes neither. -/
def ReadsAlike (s u : State) {α : Type} (f : State → Ev α) : Prop := ∃ a, f s = (a, s) ∧ f u = (a, u)

theorem ReadsAlike.pure (s u : State) {α : Type} (a : Except Nat α) : ReadsAlike s u fun v => (a, v) := ⟨a, rfl, rfl⟩

theorem ReadsAlike.andThen {s u : State} {α β : Type} {f : State → Ev α} {g : α → State → Ev β} (hf : ReadsAlike s u f)
    (hg : ∀ a, ReadsAlike s u (g a)) : ReadsAlike s u fun v => Ev.andThen (f v) g := by
  obtain ⟨a, hs, hu⟩ := hf
  cases a with
  | error c => exact ⟨.error c, by simp only [hs, Ev.andThen], by simp only [hu, Ev.andThen]⟩
  | ok a =>
    obtain ⟨b, hbs, hbu⟩ := hg a
    exact ⟨b, by simp only [hs, Ev.andThen, hbs], by simp only [hu, Ev.andThen, hbu]⟩

/-- Two states in which tile `t`'s scratch is the same and without array errors. -/
structure SameScratch (t : TileId) (s u : State) : Prop where
  shelf : u.shelf = s.shelf
  locked : u.rd (shScratch t) = s.rd (shScratch t)
  left : NoArrayErrors s t
  right : NoArrayErrors u t

section Alike
variable {t : TileId} {s u : State} (h : SameScratch t s u)
include h

theorem SameScratch.readN (fuel o n : Nat) : ∃ a, s.scratchReadN t fuel o n = (a, s) ∧ u.scratchReadN t fuel o n = (a, u) := by
  induction fuel generalizing o n with
  | zero => exact ⟨_, rfl, rfl⟩
  | succ fuel ih =>
    by_cases hn : n = 0
    · subst hn
      exact ⟨_, rfl, rfl⟩
    · have hkey := scratchKey_congr h.locked o
      simp only [State.scratchReadN, hn, if_false]
      generalize min n (16384 - o % 16384) = m
      cases hk : s.scratchKey t o with
      | none =>
        rw [hk] at hkey
        simp only [State.scratchRun, hk, hkey]
        exact ⟨_, rfl, rfl⟩
      | some k =>
        rw [hk] at hkey
        obtain ⟨a, hs, hu⟩ := ih (o + m) (n - m)
        rw [scratchRun_noErrors h.left hk, scratchRun_noErrors h.right hkey, h.shelf]
        simp only [hs, hu]
        cases a with
        | ok d => exact ⟨_, rfl, rfl⟩
        | bad c => exact ⟨_, rfl, rfl⟩

theorem SameScratch.evRead {b : BitVec 128} (hb : bKind b = 1) (rq shoot off n : Nat) :
    ReadsAlike s u fun v => v.evRead t rq shoot b off n := by
  obtain ⟨a, hs, hu⟩ : ∃ a, s.bufRead t rq shoot b off n = (a, s) ∧ u.bufRead t rq shoot b off n = (a, u) := by
    by_cases hn : n = 0
    · subst hn
      exact ⟨_, rfl, rfl⟩
    · simp only [State.bufRead, hn, if_false, hb, if_true, scratchEnd_congr h.locked]
      split
      · exact ⟨_, rfl, rfl⟩
      · exact h.readN 14 _ _
  cases a with
  | ok d => exact ⟨.ok d, by simp only [State.evRead, hs], by simp only [State.evRead, hu]⟩
  | bad c => exact ⟨.error c, by simp only [State.evRead, hs], by simp only [State.evRead, hu]⟩

theorem SameScratch.readRecord {r : Run} {buf : Nat} (hb : bKind (r.buf buf) = 1) (rq off n : Nat) :
    ReadsAlike s u fun v => v.readRecord t rq r buf off n := by
  have hal := extentAllowed_congr (scratchEnd_congr h.locked) r ⟨buf, off, (off + n : Nat), true, false⟩
  obtain ⟨a, hs, hu⟩ := (h.evRead hb rq r.shoot off n).andThen (g := fun b v => (.ok (some b), v)) fun b => .pure s u (.ok (some b))
  by_cases hc : (r.extentIn ⟨buf, off, (off + n : Nat), true, false⟩ && s.extentAllowed t r ⟨buf, off, (off + n : Nat), true, false⟩) = true
  · exact ⟨a, by simp only [State.readRecord, hc, if_true, hs], by simp only [State.readRecord, hal, hc, if_true, hu]⟩
  · exact ⟨.ok none, by simp only [State.readRecord, hc]; rfl, by simp only [State.readRecord, hal, hc]; rfl⟩

theorem SameScratch.mxRecords {r : Run} (hq : xUsesQ r.desc = true → bKind (r.buf (xQBuf r.desc)) = 1) (x : MX) :
    ReadsAlike s u fun v => v.mxRecords t r x := by
  unfold State.mxRecords
  extract_lets d op
  have hop : ∀ on off esc, (on = true → xUsesQ r.desc = true) → ReadsAlike s u (op on off esc) := by
    intro on off esc hon
    cases on with
    | false => exact .pure s u _
    | true =>
      refine (h.readRecord (hq (hon rfl)) 1 off 16).andThen fun b => ?_
      cases b with
      | none => exact .pure s u _
      | some bs =>
        dsimp only
        split
        · exact .pure s u _
        · exact .pure s u _
  refine (hop _ _ _ fun hon => by simp [xUsesQ, show xHa r.desc = true from hon]).andThen fun _ => ?_
  refine (hop _ _ _ fun hon => by simp [xUsesQ, show xHb r.desc = true from hon]).andThen fun side => ?_
  split
  · next hc =>
    refine (h.readRecord (hq (by simp [xUsesQ, show xCQuant r.desc = true from hc])) 1 _ 32).andThen fun b => ?_
    cases b with
    | none => exact .pure s u _
    | some bs =>
      dsimp only
      split
      · exact .pure s u _
      · exact .pure s u _
  · exact .pure s u _

end Alike

/-! The start (R45, R115, R619). -/

/-- The run with which a matrix descriptor starts. -/
def State.matrixRun (s : State) (t : Nat) (sl : Slot) : Run :=
  s.newRun t sl (s.lateValues t sl.desc matrixLate) (matrixBufs sl.desc) s.sdNum

/-- Extents that pass their checks are allowed by their buffers (R55, R619). -/
theorem allowed_of_checkExtents {s : State} {t : Nat} {r : Run} {xs : List Extent} {o : Bool} (h : s.checkExtents t r xs o = none)
    {e : Extent} (he : e ∈ xs) : s.extentAllowed t r e = true := by
  unfold State.checkExtents at h
  split at h
  · cases h
  · split at h
    · cases h
    · next hno =>
      simp only [Bool.not_eq_true', Bool.not_eq_false, List.all_eq_true] at hno
      exact hno e he

/-- The checks of a matrix descriptor cover its operands, its outputs and its metadata (R119, R146). -/
theorem extents_of_mxCheck {s : State} {t : Nat} {r : Run} {x : MX} {q : MRec} (h : s.mxCheck t r x q = none) :
    s.extentAllowed t r (rowsExtent (xABuf r.desc) x.aOff x.m x.lda (x.fa.bytes x.k) true false) = true ∧
    s.extentAllowed t r (rowsExtent (xBBuf r.desc) x.bOff x.n x.ldb (x.fb.bytes x.k) true false) = true ∧
    s.extentAllowed t r (mxOutExtent r x) = true ∧ ∀ e ∈ mxMeta r.desc x q, s.extentAllowed t r e = true := by
  unfold State.mxCheck at h
  extract_lets d a b c st md others meets at h
  have hmem := @allowed_of_checkExtents _ _ _ _ _ h
  exact ⟨hmem (e := a) (by simp), hmem (e := b) (by simp), hmem (e := c) (by simp), fun e he =>
    hmem (List.mem_append_left _ (List.mem_append_right _ he))⟩

theorem mxCheck_congr {s u : State} {t : Nat} (h : u.rd (shScratch t) = s.rd (shScratch t)) (r : Run) (x : MX) (q : MRec) :
    u.mxCheck t r x q = s.mxCheck t r x q := checkExtents_congr h r _ _

/-- In a run over scratch every buffer that it names is of kind SHELF. -/
theorem kind_of_allShelf {r : Run} (h : AllShelf r) {n : Nat} (hn : n ∈ r.bufs.map Prod.fst) : bKind (r.buf n) = 1 := by
  unfold Run.buf
  split
  · next p hp => exact h p (List.mem_of_find?_eq_some hp)
  · next hp =>
    obtain ⟨p, hmem, rfl⟩ := List.mem_map.1 hn
    simpa using List.find?_eq_none.1 hp p hmem

theorem bufs_matrixRun (s : State) (t : Nat) (sl : Slot) : (s.matrixRun t sl).bufs.map Prod.fst = matrixBufs sl.desc := by
  simp [State.matrixRun, State.newRun, Function.comp_def]

theorem rd_shScratch_busyWith (s : State) (t e : Nat) (r : Run) (he : e < 3) : (s.busyWith t e r).rd (shScratch t) = s.rd (shScratch t) :=
  (onlyRegs_busyWith s t e r).rd (by simpa [shScratch] using hubReg_ne_tileReg (by decide) (by omega))

theorem noArrayErrors_busyWith {s : State} {t : TileId} (h : NoArrayErrors s t) (r : Run) : NoArrayErrors (s.busyWith t 0 r) t := by
  rw [NoArrayErrors, State.busyWith, State.tile_wr, State.tile_setEng]
  exact h

section Start
variable {s : State} {t : TileId} {sl : Slot} {x : MX} {q : MRec} (h0 : NoArrayErrors s t)
  (hx : mxOf (s.matrixRun t sl) = some x) (hc : s.mxCheck t (s.matrixRun t sl) x q = none)
  (hall : AllShelf (s.matrixRun t sl)) (hres : xRescue sl.desc = false)
include h0 hx hc hall hres

/-- The run is ready where it has begun. -/
theorem mxReady_busyWith (hesc : xEscEn sl.desc = false) : MxReady (s.busyWith t 0 (s.matrixRun t sl)) t (s.matrixRun t sl) x q := by
  obtain ⟨ha, hb, hc, hm⟩ := extents_of_mxCheck ((mxCheck_congr (rd_shScratch_busyWith s t 0 (s.matrixRun t sl) (by decide)) _ x q).trans hc)
  exact ⟨noArrayErrors_busyWith h0 _, hx, fun n hn => kind_of_allShelf hall (by rwa [bufs_matrixRun]),
    ha, hb, hc, hm, hesc, hres⟩

/-- A descriptor that passes its checks runs. -/
theorem matrixStart_runs (hbad : sl.bad = false) (hv : (s.matrixRun t sl).bufs.all (fun b => bValid b.2) = true)
    (hq : (s.mxRecords t (s.matrixRun t sl) x).1 = .ok q) :
    s.matrixStart t sl none = (s.busyWith t 0 (s.matrixRun t sl)).mxRun t (s.matrixRun t sl) x q none := by
  have hlock := rd_shScratch_busyWith s t 0 (s.matrixRun t sl) (by decide)
  have hrec : (s.busyWith t 0 (s.matrixRun t sl)).mxRecords t (s.matrixRun t sl) x = (.ok q, s.busyWith t 0 (s.matrixRun t sl)) := by
    have hkind (hu : xUsesQ sl.desc = true) : bKind ((s.matrixRun t sl).buf (xQBuf sl.desc)) = 1 :=
      kind_of_allShelf hall (by rw [bufs_matrixRun]; simp [matrixBufs, hu])
    have hsame : SameScratch t s (s.busyWith t 0 (s.matrixRun t sl)) := ⟨busyWith_shelf s t 0 _, hlock, h0, noArrayErrors_busyWith h0 _⟩
    obtain ⟨a, hs, hu⟩ := hsame.mxRecords (r := s.matrixRun t sl) hkind x
    dsimp only at hs hu
    rw [hs] at hq
    rw [hu]
    exact congrArg (·, _) hq
  have hcheck := (mxCheck_congr hlock (s.matrixRun t sl) x q).trans hc
  have hrun : s.newRun t sl (s.lateValues t sl.desc matrixLate) (matrixBufs sl.desc) s.sdNum = s.matrixRun t sl := rfl
  have hstage : (s.busyWith t 0 (s.matrixRun t sl)).withStage t (s.matrixRun t sl) q = s.matrixRun t sl := by
    rw [State.withStage, show xRescue (s.matrixRun t sl).desc = false from hres]
    rfl
  simp only [State.matrixStart, startRead_noErrors h0 hbad, hrun, beginRun_eq, hx, hv, hrec, hres, hstage, hcheck, Bool.false_and,
    Bool.not_true, Bool.false_eq_true, if_false]

end Start

/-- A command starts the head descriptor that it picks, unless that must wait. -/
theorem engineCmd_starts {s : State} {t e : Nat} {p : BitVec 512 → Bool} {go : State → Slot → State} {x : Slot} {r : Run}
    (hs : s.startable t e = some x) (hp : p x.desc = true) (hr : (((go s x).tile t).eng e).run = some r) (hw : r.ended ≠ some stWAIT) :
    s.engineCmd t e p go = .next (go s x) := by
  simp only [State.engineCmd, hs, hp, if_true, hr, if_neg hw]

/-- Settles O15: the checked descriptor runs to its end, which records it, and its run has written only its own extents. -/
theorem matrixDescriptorRunsToDone : Obligations.MatrixDescriptorRunsToDone := by
  rintro t s sl r x q hs hbad rfl hx hv hq hc hall h0 hesc hres
  have hready := mxReady_busyWith h0 hx hc hall hres hesc
  have hstart := matrixStart_runs h0 hx hc hall hres hbad hv hq
  obtain ⟨v, bits, esc, fl, hrun, hstep⟩ := hready.run_done
  rw [hrun] at hstart
  have heng := eng_mxEnd v t (s.matrixRun t sl) stDONE (x.m * x.n) bits esc fl
  have howned : (v.tile t).eng0.owned = (s.tile t).eng0.owned := by
    change ((v.tile t).eng 0).owned = _
    rw [hstep.eng, eng_busyWith]
    rfl
  have hexec : exec (.matrix t none) s = .next (v.mxEnd t (s.matrixRun t sl) stDONE (x.m * x.n) bits esc fl) := by
    rw [exec_matrix_sound, ← hstart]
    exact engineCmd_starts hs rfl (by rw [hstart]; exact congrArg Engine.run heng) (by simp [stDONE, stWAIT])
  refine ⟨_, _, hexec, congrArg Engine.run heng, rfl, rfl, rfl, rfl, ?busy, ?owned, ?cellar, fun k hk => ?bytes⟩
  case busy =>
    exact (hstep.on (lfsrReg_ne_tileReg t t (by decide))).trans (on_qBusy_busyWith s t 0 _)
  case owned =>
    rw [heng]
    exact howned
  case cellar => exact hstep.cellar
  case bytes =>
    refine hstep.bytes k fun o ⟨e, he, hw, hlo, hhi⟩ => ?_
    rw [scratchKey_congr (rd_shScratch_busyWith s t 0 _ (by decide))]
    exact hk e he hw o hlo hhi

end Sys2Proof.Machine
end

section
/-! SUPPORT. RESCUE that degrades, carries of the crate chain and the issue limit: what ends a descriptor that waits for its second pass or for
a carry, and where a carry rewrites its results; settles O18 (R135, R136, R164, R170, R175, R190 to R194, Table 5.4). -/
namespace Sys2Proof.Machine

/-! What each command is. -/

theorem exec_rescueSecondPass (t : TileId) (e : Fin 2) (s : State) : exec (.rescueSecondPass t e) s = execRescueSecondPass t e s := rfl
theorem exec_carryInArrival (t : TileId) (s : State) : exec (.carryInArrival t) s = execCarryInArrival t s := rfl
theorem exec_chainTimeout (t : TileId) (s : State) : exec (.chainTimeout t) s = execChainTimeout t s := rfl
theorem exec_issueFrameBoundary (c : CrateId) (held : Nat) (s : State) :
    exec (.issueFrameBoundary c held) s = execIssueFrameBoundary c held s := rfl

/-! A second pass without a scale (R164, R167, Table 5.4). -/

/-- Without a derived scale the first pass's outputs stand, and the run ends DONE with its record. -/
theorem matrixRescue_degrades {r : Run} {x : MX} {o : OutRec} {amax reason : Nat} (hx : mxOf r = some x)
    (hs : rescueScale x.fc amax o.scale = .error reason) (s : State) (t qc qf fb : Nat) :
    ∃ esc fl w, s.matrixRescue t r o amax qc qf fb = s.mxEndRec t r stDONE (x.m * x.n) 5 esc fl w := by
  have hres : ∀ (cv : Conv), cv.f = x.fc → ∀ (e cthr fthr : Nat) (vas : List Nat) (us : List RUnit) (fl : Fl),
      s.rescue t 1 r.shoot cv o.scale amax qc qf fb e cthr fthr vas us fl =
        (⟨stDONE, e, ⟨o.scale, amax, qc, qf, fb + 8, reason⟩, 5, fl⟩, s) := by
    intro cv hcv e cthr fthr vas us fl
    rw [State.rescue, hcv, hs]
    rfl
  simp only [State.matrixRescue, hx]
  rw [hres _ rfl]
  exact ⟨_, _, _, rfl⟩

/-- A second pass that does not have to wait takes effect. -/
theorem exec_rescueSecondPass_matrix {s : State} {t : TileId} {r r1 : Run} {sc zp so sb amax qc qf fb : Nat}
    (hr : (s.tile t).eng0.run = some r) (hp : r.phase = .rescue sc zp so sb amax qc qf fb) (he : r.ended = none) (hl : s.tileLive t = true)
    (h1 : ((s.matrixRescue t r ⟨sc, zp, so, sb⟩ amax qc qf fb).tile t).eng0.run = some r1) (hw : r1.ended ≠ some stWAIT) :
    exec (.rescueSecondPass t 0) s = .next (s.matrixRescue t r ⟨sc, zp, so, sb⟩ amax qc qf fb) := by
  have hr' : ((s.tile t).eng (0 : Fin 2).val).run = some r := hr
  have h1' : ((State.tile (s.matrixRescue t r ⟨sc, zp, so, sb⟩ amax qc qf fb) t).eng (0 : Fin 2).val).run = some r1 := h1
  rw [exec_rescueSecondPass, execRescueSecondPass, hr']
  simp only [hp, he, hl, Option.isSome_none, Bool.not_true, Bool.or_self, Bool.false_eq_true, if_false, Fin.val_zero, if_true] at h1' ⊢
  rw [h1']
  exact if_neg hw

/-! The end of a vector run (R196). -/

/-- State `u` is what is left of state `s` at the end of its vector run with a status and a count: free values have been drawn, and the run is
recorded as ended. -/
def VEnds (t : Nat) (s : State) (code done : Nat) (u : State) : Prop :=
  ∃ v r', u = v.setRun t 1 r' ∧ Drawn s v ∧ r'.ended = some code ∧ r'.done = done

theorem vEnds_vEnd (s : State) (t : Nat) (r : Run) (code done bits : Nat) (int : Bool) (fl : Fl) (meas : List Num) (c : Option Carry) :
    VEnds t s code done (s.vEnd t r code done bits int fl meas c) :=
  ⟨_, _, rfl, (drawn_measureWords s int meas).trans (drawn_carryReg _ int c), rfl, rfl⟩

section VEnds
variable {t code done : Nat} {s u : State} (h : VEnds t s code done u)
include h

theorem VEnds.run : ∃ r', (u.tile t).eng1.run = some r' ∧ r'.ended = some code ∧ r'.done = done := by
  obtain ⟨v, r', rfl, -, he, hd⟩ := h
  exact ⟨r', congrArg Engine.run (eng_setRun v t 1 r'), he, hd⟩

theorem VEnds.crates : u.crates = s.crates := by
  obtain ⟨v, r', rfl, ⟨n, rfl⟩, -⟩ := h
  rfl

theorem VEnds.shelf : u.shelf = s.shelf := by
  obtain ⟨v, r', rfl, ⟨n, rfl⟩, -⟩ := h
  rfl

theorem VEnds.gathered : u.gathered = s.gathered := by
  obtain ⟨v, r', rfl, ⟨n, rfl⟩, -⟩ := h
  rfl

end VEnds

/-- Without a carry-out a descriptor that fails ends with its status (R194). -/
theorem vEnds_carryFail (s : State) (t : Nat) {r : Run} {x : VX} (w : CarryWait) {code : Nat} (hco : x.cout r.desc = 0) (hw : code ≠ stWAIT) :
    VEnds t s code w.n (s.carryFail t r x w code) := by
  have hno : ¬ ((x.cout r.desc = 1 ∧ (s.chainNext t).isSome = true) ∨ x.cout r.desc = 2) := by omega
  simp only [State.carryFail, State.vBroken, if_neg hw, if_neg hno]
  exact vEnds_vEnd s t r code w.n _ _ _ _ _

/-! The rows of a tensor (R170, R175). -/

/-- Between the corners of a nest lie all its offsets. -/
theorem corners_bound {is ns : List Nat} (h : List.Forall₂ (· < ·) is ns) (st : List Int) :
    (((ns.zip st).map fun p => ((p.1 : Int) - 1) * p.2).map (min 0)).sum ≤ ((is.zip st).map fun p => (p.1 : Int) * p.2).sum ∧
      ((is.zip st).map fun p => (p.1 : Int) * p.2).sum ≤ (((ns.zip st).map fun p => ((p.1 : Int) - 1) * p.2).map (max 0)).sum := by
  induction h generalizing st with
  | nil => simp
  | @cons i n is ns hin _ ih =>
    cases st with
    | nil => simp
    | cons d st =>
      obtain ⟨hlo, hhi⟩ := ih st
      have hstep : min 0 (((n : Int) - 1) * d) ≤ (i : Int) * d ∧ (i : Int) * d ≤ max 0 (((n : Int) - 1) * d) := by
        rcases le_total 0 d with hd | hd
        · have h1 : (i : Int) * d ≤ ((n : Int) - 1) * d := mul_le_mul_of_nonneg_right (by omega) hd
          have h2 : 0 ≤ (i : Int) * d := mul_nonneg (by omega) hd
          omega
        · have h1 : ((n : Int) - 1) * d ≤ (i : Int) * d := mul_le_mul_of_nonpos_right (by omega) hd
          have h2 : (i : Int) * d ≤ 0 := mul_nonpos_of_nonneg_of_nonpos (by omega) hd
          omega
      simp only [List.zip_cons_cons, List.map_cons, List.sum_cons]
      omega

/-- The position of a row in its nest. -/
theorem nest_index_lt {x : VX} {i : Nat} (h : i < x.rows) :
    List.Forall₂ (· < ·) [i % x.n1, i / x.n1 % x.n2, i / (x.n1 * x.n2) % x.n3, i / (x.n1 * x.n2 * x.n3)] [x.n1, x.n2, x.n3, x.n4] := by
  have hpos : 0 < x.n1 * x.n2 * x.n3 * x.n4 := Nat.zero_lt_of_lt h
  have h123 := Nat.pos_of_mul_pos_right hpos
  have h12 := Nat.pos_of_mul_pos_right h123
  have h3 := Nat.pos_of_mul_pos_left h123
  refine .cons (Nat.mod_lt _ (Nat.pos_of_mul_pos_right h12)) (.cons (Nat.mod_lt _ (Nat.pos_of_mul_pos_left h12))
    (.cons (Nat.mod_lt _ h3) (.cons (Nat.div_lt_of_lt_mul h) .nil)))

/-- A row lies within its tensor's extent. -/
theorem row_in_extent {x : VX} {buf off row i : Nat} {st : List Int} {rd wr : Bool} (hi : i < x.rows)
    (h0 : 0 ≤ (x.extent buf off st row rd wr).lo) :
    (x.extent buf off st row rd wr).lo ≤ x.rowOff off st i ∧ (x.rowOff off st i : Int) + row ≤ (x.extent buf off st row rd wr).hi := by
  obtain ⟨hlo, hhi⟩ := corners_bound (nest_index_lt hi) st
  simp only [VX.extent] at h0 ⊢
  simp only [VX.rowOff]
  omega

/-- An extent of rows that are not empty begins at or above 0 where it passes its bound check (R53). -/
theorem extent_lo_nonneg {r : Run} {x : VX} {buf off row : Nat} {st : List Int} {rd wr : Bool} (hrows : 0 < x.rows) (hrow : 0 < row)
    (h : r.extentIn (x.extent buf off st row rd wr) = true) : 0 ≤ (x.extent buf off st row rd wr).lo := by
  obtain ⟨hlo, hhi⟩ := corners_bound (nest_index_lt hrows) st
  have hne : (x.extent buf off st row rd wr).empty = false := by
    refine decide_eq_false ?_
    simp only [VX.extent]
    omega
  simp only [Run.extentIn, hne, Bool.false_or, Bool.and_eq_true, decide_eq_true_eq] at h
  exact h.1

/-! Carries that come in (R190 to R193). -/

theorem length_carryAll (op : Nat) (acc : Fmt) (scan : Bool) (c : Num) (vs : List Nat) (fl : Fl) :
    (carryAll op acc scan c vs fl).1.length = vs.length := by
  induction vs generalizing fl with
  | nil => rfl
  | cons v vs ih => exact congrArg Nat.succ (ih _)

/-- Every row of Z lies in scratch. -/
def State.RowsInScratch (s : State) (t : Nat) (r : Run) (x : VX) : Prop :=
  ∀ i < x.rows, ∀ n ≤ x.zRow r.desc, s.InScratch t (r.buf (vZBuf r.desc)) (x.rowOff x.zOff x.sz i) n

/-- That is so where Z is in a SHELF buffer and its extent passes its checks. -/
theorem rowsInScratch_of_checks {s : State} {t : Nat} {r : Run} {x : VX} (hk : bKind (r.buf (vZBuf r.desc)) = 1)
    (hal : s.extentAllowed t r (x.zExt r.desc) = true) (hin : r.extentIn (x.zExt r.desc) = true) (hrows : 0 < x.rows)
    (hrow : 0 < x.zRow r.desc) : s.RowsInScratch t r x := by
  intro i hi n hn
  obtain ⟨hlo, hhi⟩ := row_in_extent hi (extent_lo_nonneg hrows hrow hin)
  exact inScratch_of_extent hal hk hlo (le_trans (by omega) hhi)

/-- The same of another run of the same descriptor and buffers, in a state with the same locked ways. -/
theorem State.RowsInScratch.of_same {s u : State} {t : Nat} {r r' : Run} {x : VX} (h : u.RowsInScratch t r x)
    (he : s.scratchEnd t = u.scratchEnd t) (hd : r'.desc = r.desc) (hb : r'.bufs = r.bufs) : s.RowsInScratch t r' x := by
  intro i hi n hn
  have hbuf : ∀ n, r'.buf n = r.buf n := fun n => by rw [Run.buf, hb]; rfl
  rw [hd] at hn ⊢
  rw [hbuf, State.InScratch, he]
  exact h i hi n hn

/-- The rows of the leading segment are rewritten where they lie in scratch (R191). -/
theorem carryRows_inScratch {t : Nat} {r : Run} {x : VX} (cs : List (List Nat)) {s : State} (h : s.RowsInScratch t r x) {i : Nat}
    (hi : i + cs.length ≤ x.rows) (hc : ∀ c ∈ cs, x.fz.bytes c.length ≤ x.zRow r.desc) :
    ∃ u, s.carryRows t r x i cs = (0, u) ∧ EngineStep t (fun _ => True) s u := by
  induction cs generalizing s i with
  | nil => exact ⟨s, rfl, .refl t _ s⟩
  | cons c cs ih =>
    rw [List.length_cons] at hi
    have hin := h i (by omega) _ (hc c (by simp))
    rw [← length_packCodes] at hin
    obtain ⟨u, hu, hstep⟩ := bufWrite_inScratch hin (W := fun _ => True) (fun _ _ => trivial) 2 r.shoot
    obtain ⟨v, hv, hrest⟩ := ih (h.of_same hstep.scratchEnd rfl rfl) (i := i + 1) (by omega)
      fun c hmem => hc c (by simp [hmem])
    refine ⟨v, ?_, hstep.trans hrest⟩
    rw [State.carryRows, State.vWriteRow, hu]
    exact hv

/-- Pieces of n of at most m × n values are at most m. -/
theorem length_chunks_le {α : Type} {n m : Nat} {xs : List α} (h : xs.length ≤ n * m) : (chunks n xs).length ≤ m := by
  by_contra hlt
  have := lt_of_lt_length_chunksN n _ xs (u := m) (by simpa [chunks] using hlt)
  omega

theorem bytes_mono (f : Fmt) {n m : Nat} (h : n ≤ m) : f.bytes n ≤ f.bytes m := by
  have := Nat.mul_le_mul_right f.bits h
  unfold Fmt.bytes
  omega

theorem bytes_pos (f : Fmt) {n : Nat} (h : 0 < n) : 0 < f.bytes n := by
  have h1 := bytes_mono f (show 1 ≤ n from h)
  have h2 : 0 < f.bytes 1 := by cases f <;> decide
  omega

/-- The engine rewrites what the carry changes, and ends DONE (R191). -/
theorem carryRewrite_ends {s : State} {t : Nat} {r : Run} {x : VX} {w : CarryWait} (h : s.RowsInScratch t r x)
    (hper : x.perRow r.desc = if x.kind = .reduce then 1 else x.n0) (hlen : w.locals.length ≤ x.perRow r.desc * x.rows)
    (c : Num) (out : Option Carry) :
    ∃ v, EngineStep t (fun _ => True) s v ∧ VEnds t v stDONE w.n (s.carryRewrite t r x w c out) := by
  unfold State.carryRewrite
  extract_lets dl cv v k s1 codes q zs
  have hs1 : EngineStep t (fun _ => True) s s1 := engineStep_advanceIf (.of_drawn (drawn_dealDraws _ _ _)) _ _ _
  have hcodes : codes.length = w.locals.length := by
    simp only [codes, k, v, List.length_map, length_convAll, length_carryAll]
  obtain ⟨u, hu, hstep⟩ : ∃ u, q = (0, u) ∧ EngineStep t (fun _ => True) s1 u := by
    refine carryRows_inScratch _ (h.of_same hs1.scratchEnd rfl rfl) ?_ fun c hc => ?_
    · rw [Nat.zero_add, ← hper]
      exact length_chunks_le (by omega)
    · obtain ⟨i, hi, rfl⟩ := List.getElem_of_mem hc
      refine bytes_mono _ ?_
      rw [← List.getD_eq_getElem _ [] hi, length_getD_chunks _ _ hi, ← hper]
      exact Nat.min_le_left _ _
  rw [hu]
  exact ⟨u, hs1.trans hstep, vEnds_vEnd u t r _ _ _ _ _ _ _⟩

/-- A carry of the descriptor's own kind and operation, with no carry-out to send: its results are rewritten. -/
theorem carryTake_own {s : State} {t : Nat} {r : Run} {x : VX} {w : CarryWait} {k : Carry} (hco : x.cout r.desc = 0) (hw : w.code = stDONE)
    (hkind : k.kind = carryKind x.acc) (hopc : k.opc = carryOpc x.op) (hrsv : k.rsv = false) (hb : k.broken = false) :
    ∃ r' c, s.carryTake t r x w k = s.carryRewrite t r' x w c none ∧ r'.desc = r.desc ∧ r'.bufs = r.bufs := by
  have hsend : ∀ (r' : Run) (c out : Carry), r'.desc = r.desc → s.carrySend t r' x w c out =
      s.carryRewrite t r' x w (c.read x.acc Fl.clear).1 none := by
    intro r' c out hd
    simp [State.carrySend, hd, hco, hw]
  by_cases hn : w.n = 0
  · refine ⟨r, (k.read x.acc Fl.clear).1, ?_, rfl, rfl⟩
    simp only [State.carryTake, hkind, hopc, hrsv, hb, hn, ne_eq, not_true_eq_false, Bool.false_eq_true, or_self, if_false, if_true]
    exact hsend r k k rfl
  · simp only [State.carryTake, hkind, hopc, hrsv, hb, hn, ne_eq, not_true_eq_false, Bool.false_eq_true, or_self, if_false]
    exact ⟨_, _, hsend _ _ _ rfl, rfl, rfl⟩

/-- Any other carry ends the descriptor with a fault (R193). -/
theorem carryTake_other {s : State} {t : Nat} {r : Run} {x : VX} {w : CarryWait} {k : Carry}
    (h : k.kind ≠ carryKind x.acc ∨ k.opc ≠ carryOpc x.op ∨ k.rsv = true ∨ k.broken = true) :
    ∃ c, s.carryTake t r x w k = (s.raise c 1 t []).carryFail t r x w stENGINE := by
  unfold State.carryTake
  split
  · exact ⟨_, rfl⟩
  · next hno =>
    have hb : k.broken = true := by tauto
    rw [if_pos hb]
    exact ⟨_, rfl⟩

/-- A vector descriptor that waits for the chain's carry. -/
structure AwaitsCarry (s : State) (t : TileId) (r : Run) (x : VX) (w : CarryWait) : Prop where
  run : (s.tile t).eng1.run = some r
  phase : r.phase = .carry w
  fields : vxOf r = some x
  ended : r.ended = none
  out : w.out = none
  cin : x.cin r.desc = 1

section Awaits
variable {s : State} {t : TileId} {r : Run} {x : VX} {w : CarryWait} (h : AwaitsCarry s t r x w)
include h

/-- It takes the oldest carry of its link, unless that must wait. -/
theorem exec_carryInArrival_chain (hl : s.tileLive t = true) {k : Carry} {ks : List Carry} (hk : s.link (t / 64) (t % 64) = k :: ks) {r1 : Run}
    (h1 : ((((s.setLink (t / 64) (t % 64) ks).carryTake t r x w k).tile t).eng1).run = some r1) (hw : r1.ended ≠ some stWAIT) :
    exec (.carryInArrival t) s = .next ((s.setLink (t / 64) (t % 64) ks).carryTake t r x w k) := by
  have hr : ((s.tile t).eng 1).run = some r := h.run
  have hx : vxAny r = some x := by rw [vxAny, h.fields]; rfl
  have h1' : ((((s.setLink (t / 64) (t % 64) ks).carryTake t r x w k).tile t).eng 1).run = some r1 := h1
  rw [exec_carryInArrival, execCarryInArrival, hr]
  simp only [h.phase, hx, h.ended, hl, h.out, h.cin, hk, Option.isSome_none, Bool.not_true, Bool.or_self, Bool.false_eq_true, if_false, if_true,
    State.carryStep, h1', if_neg hw]

theorem exec_chainTimeout_waiting (h0 : s.rd (scanTimeout (t / 64)) ≠ 0) :
    exec (.chainTimeout t) s = .next (((s.raise 0x0116 1 t []).skipCarry t 1).carryFail t r x w stENGINE) := by
  have hr : ((s.tile t).eng 1).run = some r := h.run
  rw [exec_chainTimeout, execChainTimeout, hr]
  simp [h.phase, h.fields, h.ended, h.out, h.cin, h0]

end Awaits

/-- Passing a turn on changes records of the crate only (R191). -/
theorem skipCarry_crates (s : State) (t cin : Nat) : ∃ cs, s.skipCarry t cin = { s with crates := cs } := by
  unfold State.skipCarry
  extract_lets ms
  split
  · exact ⟨s.crates, rfl⟩
  · split
    · exact ⟨_, rfl⟩
    · exact ⟨_, rfl⟩

theorem link_setLink (s : State) (c i : Nat) (ks : List Carry) : (s.setLink c i ks).link c i = ks := by
  rw [State.link, State.setLink, State.crate_setCrate_same]
  exact lookMap_putMap_same _ _ _ _

theorem link_of_crates {s u : State} (h : u.crates = s.crates) (c i : Nat) : u.link c i = s.link c i := by
  rw [State.link, State.crate, h]
  rfl

/-- The results of a row of an operation that takes carries. -/
theorem perRow_of_cin {x : VX} {d : BitVec 512} (h : x.cin d = 1) : x.perRow d = if x.kind = .reduce then 1 else x.n0 := by
  have hc : x.kind = .scan ∨ x.kind = .reduce := by
    by_contra hno
    simp [VX.cin, VX.carries, hno] at h
  rcases hc with hk | hk <;> simp [VX.perRow, hk]

/-! The issue limit (R135, R136, Table 4.7). -/

/-- A frame boundary's writes of the limit in force and of the bits that say why it is low. -/
def State.limitIssue (s : State) (c k lowest droop : Nat) : State := ((s.wr (issueK c) k).wr (issueLowest c) lowest).wr (issueDroop c) droop

theorem onlyRegs_limitIssue (s : State) (c k lowest droop : Nat) : OnlyRegs [crateReg c 0x10] s (s.limitIssue c k lowest droop) :=
  ((onlyRegs_wr s (issueK c) k).trans (onlyRegs_wr _ (issueLowest c) lowest)).trans (onlyRegs_wr _ (issueDroop c) droop)

theorem rd_issueK_limitIssue (s : State) (c lowest droop : Nat) {k : Nat} (hk : k < 32) : (s.limitIssue c k lowest droop).rd (issueK c) = k := by
  rw [State.limitIssue, rd_wr_of_apart _ _ (by simp [issueDroop]) (.inr (.inl (by simp [issueDroop, issueK]))),
    rd_wr_of_apart _ _ (by simp [issueLowest]) (.inr (.inl (by simp [issueLowest, issueK]))), rd_wr_same _ _ _ (by simp [issueK])]
  exact Nat.mod_eq_of_lt hk

theorem on_issueLowest_limitIssue (s : State) (c k droop : Nat) (b : Bool) : (s.limitIssue c k (b2n b) droop).on (issueLowest c) = b := by
  rw [State.limitIssue, on_wr_of_apart _ _ (by simp [issueDroop]) (.inr (.inl (by simp [issueDroop, issueLowest]))),
    on_wr_same _ _ _ (by simp [issueLowest])]
  cases b <;> rfl

/-- The frame's held cycles are counted, and the governor's limit takes effect. -/
theorem exec_issueFrameBoundary_limit {s : State} {c : CrateId} {k : Nat} (hr : s.crateRuns c = true) (hk : (s.crate c).pendK = some k)
    (held : Nat) : ∃ droop, exec (.issueFrameBoundary c held) s =
      .next ((((s.setCrate c { s.crate c with pendK := none }).wr (issueStall c) (s.rd (issueStall c) + min held (s.heldMost c)))).limitIssue c k
        (b2n (s.on govLowest)) droop) := by
  have hlow : ∀ (u : State) (a b : Nat), ((u.wr (issueStall c) a).wr (issueK c) b).on govLowest = u.on govLowest := fun u a b => by
    rw [on_wr_other _ _ (by simp [govLowest, issueK, crateReg]; omega), on_wr_other _ _ (by simp [govLowest, issueStall, crateReg]; omega)]
  rw [exec_issueFrameBoundary, execIssueFrameBoundary, hr]
  simp only [if_true, State.crate_wr, hk]
  exact ⟨_, congrArg (fun b => Host.Outcome.next (State.limitIssue _ c k (b2n b) _)) (hlow (s.setCrate c { s.crate c with pendK := none }) _ k)⟩

/-- Settles O18: RESCUE degrades to the first pass's results, a carry of the chain is taken or refused, a wait for it ends, and the issue limit
takes effect with its frame counted. -/
theorem rescueAndCarriesEndTheirDescriptors : Obligations.RescueAndCarriesEndTheirDescriptors := by
  refine ⟨?rescue, ?carry, ?timeout, ?limit⟩
  case rescue =>
    intro t s r x sc zp so sb amax qc qf fb reason hr hp he hl hx hs hk hend
    obtain ⟨esc, fl, w, hres⟩ := matrixRescue_degrades (o := ⟨sc, zp, so, sb⟩) hx hs s t qc qf fb
    obtain ⟨u, hu, hstep⟩ := mxEndRec_inScratch (s := s) (t := t) hk hend
      (W := fun o => ∃ i < 32, o = bBase (r.buf (xQBuf r.desc)) + xCQoff r.desc + i) (fun i hi => ⟨i, hi, rfl⟩) stDONE (x.m * x.n) 5 esc fl w
    rw [hu] at hres
    have hrun := congrArg Engine.run (eng_mxEnd u t r stDONE (x.m * x.n) 5 esc fl)
    refine ⟨_, _, exec_rescueSecondPass_matrix hr hp he hl (by rw [hres]; exact hrun) (by simp [stDONE, stWAIT]), by rw [hres]; exact hrun,
      rfl, rfl, ?_, fun k hk => ?_⟩
    · rw [hres]
      exact hstep.cellar
    · rw [hres]
      refine hstep.bytes k ?_
      rintro o ⟨i, hi, rfl⟩
      exact hk i hi
  case carry =>
    intro t s r x w k ks hr hp hx he hl hout hcode hcin hco hlink
    have hwait : AwaitsCarry s t r x w := ⟨hr, hp, hx, he, hout, hcin⟩
    refine ⟨fun hkind hopc hrsv hbroken hz hal hin hn0 hrows hlen => ?own, fun hbad => ?other⟩
    case own =>
      have hper := perRow_of_cin hcin
      have hpos : 0 < x.perRow r.desc := by rw [hper]; split <;> omega
      have hrows' := rowsInScratch_of_checks hz hal hin (Nat.pos_of_ne_zero hrows) (bytes_pos x.fz hpos)
      obtain ⟨r', c, htake, hdesc, hbufs⟩ := carryTake_own (s := s.setLink (t / 64) (t % 64) ks) (t := t) (r := r) (w := w) hco hcode hkind
        hopc hrsv hbroken
      have hlen' : w.locals.length ≤ x.perRow r.desc * x.rows := by
        rw [hper]
        split at hlen
        · next hk => rw [if_pos hk]; omega
        · next hk => rwa [if_neg hk]
      obtain ⟨v, hstep, hend⟩ := carryRewrite_ends (hrows'.of_same (s := s.setLink (t / 64) (t % 64) ks) rfl hdesc hbufs)
        (by rw [hdesc]; exact hper) (by rw [hdesc]; exact hlen') c none
      rw [← htake] at hend
      obtain ⟨r1, hrun, hended, hdone⟩ := hend.run
      refine ⟨_, r1, exec_carryInArrival_chain hwait hl hlink hrun (by simp [hended, stDONE, stWAIT]), hrun, hended, hdone, ?_⟩
      rw [link_of_crates (hend.crates.trans hstep.crates)]
      exact link_setLink s _ _ ks
    case other =>
      obtain ⟨c, htake⟩ := carryTake_other (s := s.setLink (t / 64) (t % 64) ks) (t := t) (r := r) (w := w) hbad
      have hend := vEnds_carryFail ((s.setLink (t / 64) (t % 64) ks).raise c 1 t []) t w hco (code := stENGINE) (by decide)
      rw [← htake] at hend
      obtain ⟨r', hrun, hended, -⟩ := hend.run
      refine ⟨_, r', exec_carryInArrival_chain hwait hl hlink hrun (by simp [hended, stENGINE, stWAIT]), hrun, hended, ?_, hend.shelf⟩
      rw [link_of_crates hend.crates]
      exact link_setLink s _ _ ks
  case timeout =>
    intro t s r x w hr hp hx he hout hcin hco h0
    obtain ⟨f, hf, hcode, -, -, hix, -⟩ := State.raise_gathered s 0x0116 1 t []
    obtain ⟨cs, hskip⟩ := skipCarry_crates (s.raise 0x0116 1 t []) t 1
    have hend := vEnds_carryFail ((s.raise 0x0116 1 t []).skipCarry t 1) t w hco (code := stENGINE) (by decide)
    obtain ⟨r', hrun, hended, -⟩ := hend.run
    refine ⟨_, r', f, exec_chainTimeout_waiting ⟨hr, hp, hx, he, hout, hcin⟩ h0, hrun, hended, ?_, hcode, hix, ?_⟩
    · rw [hend.gathered, hskip]
      exact hf
    · rw [hend.shelf, hskip]
      rfl
  case limit =>
    intro c held k s hr hk hlt
    obtain ⟨droop, hexec⟩ := exec_issueFrameBoundary_limit hr hk held
    have hlim := onlyRegs_limitIssue ((s.setCrate c { s.crate c with pendK := none }).wr (issueStall c)
      (s.rd (issueStall c) + min held (s.heldMost c))) c k (b2n (s.on govLowest)) droop
    refine ⟨_, _, hexec, rd_issueK_limitIssue _ c _ droop hlt, ?_, on_issueLowest_limitIssue _ c k droop _, ?_, rfl⟩
    · rw [hlim.rd (by simp [issueStall]), rd_wr_same _ _ _ (by simp [issueStall])]
      rfl
    · exact ((onlyRegs_wr _ (issueStall c) _).mono (by simp [issueStall])).trans (hlim.mono (by simp))

end Sys2Proof.Machine
end

section
/-! SUPPORT. The values of a vector row: each kind of operation has its number of results, and finding them only draws free values
(R181 to R187, Table 6.3). -/
namespace Sys2Proof.Machine

/-! A reduction's sum and a row's transcendental results (R183, R184). -/

theorem drawn_partials (s : State) (f : Fmt) (ps xs : List Num) (fl : Fl) : Drawn s (s.partials f ps xs fl).2.2 := by
  induction xs generalizing s ps fl with
  | nil => exact .refl s
  | cons x xs ih => exact (drawn_pick s _).trans (ih _ _ _)

theorem drawn_joinAll (s : State) (f : Fmt) (fuel : Nat) (ps : List Num) (fl : Fl) : Drawn s (s.joinAll f fuel ps fl).2.2 := by
  induction fuel generalizing s ps fl with
  | zero => exact .refl s
  | succ fuel ih =>
    rw [State.joinAll]
    split
    · exact (drawn_shuffle s ps).trans (ih _ _ _)
    · exact drawn_shuffle s ps

theorem drawn_sumFree (s : State) (f : Fmt) (xs : List Num) (fl : Fl) : Drawn s (s.sumFree f xs fl).2.2 := by
  unfold State.sumFree
  split
  · exact .refl s
  · exact ((drawn_shuffle s xs).trans (drawn_partials _ f _ _ fl)).trans (drawn_joinAll _ f _ _ _)

theorem drawn_reduceRow (s : State) (op : Nat) (acc : Fmt) (xs : List Num) (fl : Fl) : Drawn s (s.reduceRow op acc xs fl).2.2 := by
  unfold State.reduceRow
  extract_lets fin sum
  split
  · exact drawn_sumFree s acc xs fl
  · split
    · exact drawn_sumFree s acc _ _
    · exact .refl s

theorem transRow_spec (s : State) (op : Nat) (xs : List Num) (fl : Fl) :
    Drawn s (s.transRow op xs fl).2.2 ∧ (s.transRow op xs fl).1.length = xs.length := by
  induction xs generalizing s fl with
  | nil => exact ⟨.refl s, rfl⟩
  | cons x xs ih =>
    obtain ⟨hd, hl⟩ := ih (s.pick (transOf op x fl).count).2 (settle op (transOf op x fl) (s.pick (transOf op x fl).count).1 fl).2
    exact ⟨(drawn_pick s _).trans hd, congrArg Nat.succ hl⟩

/-! Scans without segments (R187). -/

/-- Two records of a nest have the same status and the same count of results. -/
def VAcc.SameEnd (a b : VAcc) : Prop := b.code = a.code ∧ b.nz = a.nz

/-- Without segments nothing stops a scan: every element has its result. -/
theorem vScanRow_unsegmented {r : Run} (hseg : vSegMode r.desc = 0) (s : State) (t : Nat) (x : VX) (vs : List Num) (a : VAcc)
    (out : List Num) :
    ∃ b ys, s.vScanRow t r x vs a out = (b, ys, s) ∧ a.SameEnd b ∧ ys.length = out.length + vs.length := by
  induction vs generalizing a out with
  | nil => exact ⟨a, out, rfl, ⟨rfl, rfl⟩, rfl⟩
  | cons v vs ih =>
    have hstart : s.vSegStart t r x a.f a.lens a.bound = (.ok (vSegRows r.desc && decide (a.f % x.n0 = 0), 0, 0), s) := by
      simp only [State.vSegStart, hseg]
    have hrest : ∀ a1 out1, a.SameEnd a1 → out1.length = out.length + 1 →
        ∃ b ys, s.vScanRow t r x vs a1 out1 = (b, ys, s) ∧ a.SameEnd b ∧ ys.length = out.length + (v :: vs).length := by
      intro a1 out1 ⟨hcode, hnz⟩ hout
      obtain ⟨b, ys, hrow, ⟨hcode', hnz'⟩, hlen⟩ := ih a1 out1
      exact ⟨b, ys, hrow, ⟨hcode'.trans hcode, hnz'.trans hnz⟩, by rw [hlen, hout, List.length_cons]; omega⟩
    rw [State.vScanRow, hstart]
    exact hrest _ _ ⟨rfl, rfl⟩ (List.length_append ..)

/-! The values of a row (Table 6.3). -/

theorem length_toFp32All (ovf : Bool) (xs : List Num) (fl : Fl) :
    (xs.foldl (fun (b : List Num × Fl) v => let y := toFp32 ovf v b.2; (b.1 ++ [y.1], y.2)) ([], fl)).1.length = xs.length := by
  have h := foldl_count (I := fun k (b : List Num × Fl) => b.1.length = k)
    (f := fun b v => let y := toFp32 ovf v b.2; (b.1 ++ [y.1], y.2)) xs 0 ([], fl) rfl fun k b v _ hk => by simp [hk]
  rwa [Nat.zero_add] at h

/-- An operation that writes a row's results one by one has as many values as results. -/
theorem vRowVals_spec {r : Run} {x : VX} (hseg : vSegMode r.desc = 0) (htop : x.kind ≠ .topk) (s : State) (t : Nat) {xs : List Num}
    (hxs : xs.length = x.n0) (ys zs : List Num) (a : VAcc) :
    ∃ b vals u, s.vRowVals t r x xs ys zs a = (b, vals, u) ∧ Drawn s u ∧ a.SameEnd b ∧ vals.length = x.perRow r.desc := by
  unfold State.vRowVals VX.perRow
  cases hk : x.kind with
  | lane => exact ⟨_, _, _, rfl, .refl s, ⟨rfl, rfl⟩, (laneRow_length _ _ _ _ _ _ _ _).trans hxs⟩
  | trans =>
    obtain ⟨hd, hl⟩ := transRow_spec s x.op xs a.fl
    exact ⟨_, _, _, rfl, hd, ⟨rfl, rfl⟩, hl.trans hxs⟩
  | cvt => exact ⟨_, _, _, rfl, .refl s, ⟨rfl, rfl⟩, hxs⟩
  | cvtq => exact ⟨_, _, _, rfl, .refl s, ⟨rfl, rfl⟩, (length_toFp32All _ xs a.fl).trans hxs⟩
  | reduce => exact ⟨_, _, _, rfl, drawn_reduceRow s x.op x.acc xs a.fl, ⟨rfl, rfl⟩, rfl⟩
  | scan =>
    obtain ⟨b, ys, hrow, hend, hlen⟩ := vScanRow_unsegmented hseg s t x xs a []
    exact ⟨b, ys, s, hrow, .refl s, hend, by rw [hlen, List.length_nil, Nat.zero_add, hxs]⟩
  | topk => exact absurd hk htop
  | measure => exact ⟨_, _, _, rfl, .refl s, ⟨rfl, rfl⟩, rfl⟩

theorem length_topkRow (f : Fmt) (k : Nat) (xs : List Num) : (topkRow f k xs).length = k := by
  unfold topkRow
  extract_lets live top
  have h : top.length ≤ k := List.length_take_le _ _
  rw [List.length_append, List.length_replicate]
  omega

end Sys2Proof.Machine
end

section
/-! SUPPORT. A vector run over scratch whose checks have passed: its rows are read, and each row's results are all written, within the
extents that it writes (R170 to R176, R185, R196, R201). -/
namespace Sys2Proof.Machine

/-- What a descriptor that has a meaning asks for: its operation's own kind, and in a TOPK a K that is not 0 (R179, R185). -/
theorem fields_of_vxOf {r : Run} {x : VX} (h : vxOf r = some x) : vKind x.op = some x.kind ∧ (x.kind = .topk → vK r.desc ≠ 0) := by
  unfold vxOf at h
  extract_lets d op at h
  split at h
  · cases h
  · next kind hkind =>
    extract_lets usesY at h
    split at h
    · next fx fy fz _ _ _ =>
      split at h
      · cases h
      · next hbad =>
        extract_lets at h
        split at h
        · cases h
        · split at h
          · cases h
          · split at h
            · cases h
            · rw [← Option.some.inj h]
              exact ⟨hkind, fun (hk : kind = .topk) (hzero : vK d = 0) => hbad (by simp [vFieldsBad, hk, hzero])⟩
    · cases h

/-- An operation that reads Y as an operand is a lane operation. -/
theorem lane_of_vReadsY {op : Nat} (h : vReadsY op = true) : vKind op = some .lane := by
  simp only [vReadsY, Bool.or_eq_true, Bool.and_eq_true, decide_eq_true_eq] at h
  simp only [vKind]
  rw [if_neg (by omega), if_neg (by omega), if_pos (by omega)]

/-- The extents that a run without segments and carries checks (R175). -/
def VX.checked (x : VX) (d : BitVec 512) : List Extent :=
  [x.xExt d] ++ (if x.usesY then [x.yExt d] else []) ++ (if x.kind = .measure then [] else [x.zExt d]) ++ x.qExts d

/-- The scratch offsets that a vector run may write: those of the tensors and the record that it writes. -/
def vxWritten (r : Run) (x : VX) (o : Nat) : Prop :=
  ∃ e ∈ x.zExt r.desc :: x.yExt r.desc :: x.qExts r.desc, e.writes = true ∧
    (bBase (r.buf e.buf) : Int) + e.lo ≤ o ∧ (o : Int) < (bBase (r.buf e.buf) : Int) + e.hi

/-- A vector run with a non-empty nest and without segments, carries and RESCUE, over scratch without array errors, whose checks have
passed. -/
structure VxReady (s : State) (t : TileId) (r : Run) (x : VX) : Prop where
  clean : NoArrayErrors s t
  fields : vxOf r = some x
  shelf : ∀ n ∈ x.bufs r.desc, bKind (r.buf n) = 1
  allowed : ∀ e ∈ x.checked r.desc, s.extentAllowed t r e = true
  bounds : ∀ e ∈ x.checked r.desc, r.extentIn e = true
  elems : 0 < x.n0
  rows : 0 < x.rows
  noCarryIn : x.cin r.desc = 0
  noCarryOut : x.cout r.desc = 0
  unsegmented : vSegMode r.desc = 0
  rescue : vPolicy r.desc ≠ 2

/-- A run stays ready over its own steps. -/
theorem VxReady.step {s u : State} {t : TileId} {r : Run} {x : VX} {W : Nat → Prop} (h : VxReady s t r x) (hs : EngineStep t W s u) :
    VxReady u t r x where
  clean := hs.noErrors h.clean
  fields := h.fields
  shelf := h.shelf
  allowed e he := (extentAllowed_congr hs.scratchEnd r e).trans (h.allowed e he)
  bounds := h.bounds
  elems := h.elems
  rows := h.rows
  noCarryIn := h.noCarryIn
  noCarryOut := h.noCarryOut
  unsegmented := h.unsegmented
  rescue := h.rescue

/-- Pieces that are written whole count all their results. -/
theorem writeUnits_count (us : List WUnit) {s u : State} {t rq shoot n m : Nat} (h : s.writeUnits t rq shoot us n = (0, m, u)) :
    m = n + (us.map WUnit.cnt).sum := by
  induction us generalizing s n with
  | nil => cases h; rfl
  | cons w us ih =>
    rw [State.writeUnits] at h
    split at h
    · rw [ih h, List.map_cons, List.sum_cons, Nat.add_assoc]
    · next hne _ =>
      exact absurd (congrArg Prod.fst h) hne

section Ready
variable {s : State} {t : TileId} {r : Run} {x : VX} (h : VxReady s t r x)
include h

/-! Where the rows lie (R170, R175). -/

/-- Part of a row of a checked tensor lies in scratch and within the tensor's extent. -/
theorem VxReady.row {buf off row : Nat} {st : List Int} {rd wr : Bool} (he : x.extent buf off st row rd wr ∈ x.checked r.desc)
    (hb : buf ∈ x.bufs r.desc) (hrow : 0 < row) {i a n : Nat} (hi : i < x.rows) (ha : a + n ≤ row) :
    s.InScratch t (r.buf buf) (x.rowOff off st i + a) n ∧
      ∀ b < n, (bBase (r.buf buf) : Int) + (x.extent buf off st row rd wr).lo ≤ (bBase (r.buf buf) + (x.rowOff off st i + a) + b : Nat) ∧
        ((bBase (r.buf buf) + (x.rowOff off st i + a) + b : Nat) : Int) < (bBase (r.buf buf) : Int) + (x.extent buf off st row rd wr).hi := by
  obtain ⟨hlo, hhi⟩ := row_in_extent hi (extent_lo_nonneg h.rows hrow (h.bounds _ he))
  refine ⟨inScratch_of_extent (h.allowed _ he) (h.shelf buf hb) ?_ ?_, fun b hb => ⟨?_, ?_⟩⟩
  · push_cast; omega
  · push_cast; omega
  · push_cast; omega
  · push_cast; omega

theorem VxReady.rowX {i : Nat} (hi : i < x.rows) : s.InScratch t (r.buf (vXBuf r.desc)) (x.rowOff x.xOff x.sx i) (x.fx.bytes x.n0) :=
  (h.row (buf := vXBuf r.desc) (off := x.xOff) (st := x.sx) (row := x.xRow) (rd := true) (wr := false) (a := 0) (by simp [VX.checked, VX.xExt])
    (by simp [VX.bufs]) (bytes_pos x.fx h.elems) hi (Nat.le_of_eq (Nat.zero_add _))).1

/-- Part of a row of Y, where Y is used. -/
theorem VxReady.rowY (hy : x.usesY = true) (hrow : 0 < x.yRow r.desc) {i a n : Nat} (hi : i < x.rows) (ha : a + n ≤ x.yRow r.desc) :
    s.InScratch t (r.buf (vYBuf r.desc)) (x.rowOff x.yOff x.sy i + a) n ∧
      (x.kind = .topk → ∀ b < n, vxWritten r x (bBase (r.buf (vYBuf r.desc)) + (x.rowOff x.yOff x.sy i + a) + b)) := by
  obtain ⟨hin, hwithin⟩ := h.row (buf := vYBuf r.desc) (off := x.yOff) (st := x.sy) (rd := vReadsY x.op) (wr := decide (x.kind = .topk))
    (by simp [VX.checked, VX.yExt, hy]) (by simp [VX.bufs, hy]) hrow hi ha
  exact ⟨hin, fun hk b hb => ⟨x.yExt r.desc, by simp, decide_eq_true hk, hwithin b hb⟩⟩

/-- A row of Y that is an operand. -/
theorem VxReady.operandY (hy : vReadsY x.op = true) {i : Nat} (hi : i < x.rows) :
    s.InScratch t (r.buf (vYBuf r.desc)) (x.rowOff x.yOff x.sy i) (x.fy.bytes (if vYBc r.desc then 1 else x.n0)) := by
  have hkind : x.kind = .lane := Option.some.inj ((fields_of_vxOf h.fields).1.symm.trans (lane_of_vReadsY hy))
  have hrow : x.yRow r.desc = x.fy.bytes (if vYBc r.desc then 1 else x.n0) := by simp [VX.yRow, hkind]
  have hpos : 0 < x.yRow r.desc := by
    rw [hrow]
    refine bytes_pos x.fy ?_
    split
    · exact Nat.one_pos
    · exact h.elems
  exact (h.rowY (by simp [VX.usesY, hy]) hpos hi (a := 0) (by rw [hrow, Nat.zero_add])).1

/-- Every row that an operation writes has a result. -/
theorem VxReady.perRow_pos (hk : x.kind ≠ .measure) : 0 < x.perRow r.desc := by
  have htop := (fields_of_vxOf h.fields).2
  unfold VX.perRow
  split
  · exact Nat.one_pos
  · next hkind => exact Nat.pos_of_ne_zero (htop hkind)
  · next hkind => exact absurd hkind hk
  · exact h.elems

/-- Part of a row of Z lies in scratch, at offsets that the run may write. -/
theorem VxReady.rowZ (hk : x.kind ≠ .measure) {i a n : Nat} (hi : i < x.rows) (ha : a + n ≤ x.fz.bytes (x.perRow r.desc)) :
    s.InScratch t (r.buf (vZBuf r.desc)) (x.rowOff x.zOff x.sz i + a) n ∧
      ∀ b < n, vxWritten r x (bBase (r.buf (vZBuf r.desc)) + (x.rowOff x.zOff x.sz i + a) + b) := by
  obtain ⟨hin, hwithin⟩ := h.row (buf := vZBuf r.desc) (off := x.zOff) (st := x.sz) (row := x.zRow r.desc)
    (rd := decide (x.op = 0x27)) (wr := true) (by simp [VX.checked, VX.zExt, hk]) (by simp [VX.bufs, hk]) (bytes_pos x.fz (h.perRow_pos hk)) hi ha
  exact ⟨hin, fun b hb => ⟨x.zExt r.desc, by simp, rfl, hwithin b hb⟩⟩

/-- The output record of a CVTQ lies in scratch, at offsets that the run may write (R186). -/
theorem VxReady.outRecord (hk : x.kind = .cvtq) : bKind (r.buf (vQBuf r.desc)) = 1 ∧
    bBase (r.buf (vQBuf r.desc)) + vQoff r.desc + 32 ≤ s.scratchEnd t ∧
    ∀ i < 32, vxWritten r x (bBase (r.buf (vQBuf r.desc)) + vQoff r.desc + i) := by
  have hm : (⟨vQBuf r.desc, vQoff r.desc, (vQoff r.desc + 32 : Nat), true, true⟩ : Extent) ∈ x.qExts r.desc := by simp [VX.qExts, hk]
  have hkind := h.shelf (vQBuf r.desc) (by simp [VX.bufs, VX.usesQ, hk])
  refine ⟨hkind, ?_, fun i hi => ⟨_, List.mem_cons_of_mem _ (List.mem_cons_of_mem _ hm), rfl, ?_, ?_⟩⟩
  · have hin := inScratch_of_extent (n := 32) (off := vQoff r.desc) (h.allowed _ (List.mem_append_right _ hm)) hkind le_rfl
      (by push_cast; omega)
    exact (hin.resolve_left (by decide)).2
  · simp only; omega
  · simp only; omega

/-! The reads of a row: X, Y where it is an operand, and Z in a fused multiply-add. -/

theorem VxReady.readRow {buf off : Nat} {f : Fmt} {n : Nat} (hin : s.InScratch t (r.buf buf) off (f.bytes n)) :
    ∃ cs, s.vReadRow t r buf off f n = (.ok cs, s) ∧ cs.length = n := by
  obtain ⟨bs, hbs⟩ := evRead_inScratch h.clean hin 2 r.shoot
  exact ⟨codesOf f bs n, by simp only [State.vReadRow, hbs, Ev.andThen], length_codesOf f bs n⟩

theorem VxReady.readX {i : Nat} (hi : i < x.rows) :
    ∃ cs, s.vReadRow t r (vXBuf r.desc) (x.rowOff x.xOff x.sx i) x.fx x.n0 = (.ok cs, s) ∧ cs.length = x.n0 := h.readRow (h.rowX hi)

theorem VxReady.readY {i : Nat} (hi : i < x.rows) :
    ∃ cs, (if vReadsY x.op = true then s.vReadRow t r (vYBuf r.desc) (x.rowOff x.yOff x.sy i) x.fy (if vYBc r.desc then 1 else x.n0)
      else (.ok [], s)) = (.ok cs, s) := by
  split
  · next hy =>
    obtain ⟨cs, hcs, -⟩ := h.readRow (h.operandY hy hi)
    exact ⟨cs, hcs⟩
  · exact ⟨[], rfl⟩

theorem VxReady.readZ {i : Nat} (hi : i < x.rows) :
    ∃ cs, (if x.op = 0x27 then s.vReadRow t r (vZBuf r.desc) (x.rowOff x.zOff x.sz i) x.fz x.n0 else (.ok [], s)) = (.ok cs, s) := by
  split
  · next hop =>
    have hkind : x.kind = .lane := Option.some.inj ((fields_of_vxOf h.fields).1.symm.trans (by rw [hop]; rfl))
    have hper : x.perRow r.desc = x.n0 := by simp [VX.perRow, hkind]
    obtain ⟨cs, hcs, -⟩ := h.readRow (h.rowZ (a := 0) (by simp [hkind]) hi (by rw [hper, Nat.zero_add])).1
    exact ⟨cs, hcs⟩
  · exact ⟨[], rfl⟩

/-! The results of a row. -/

/-- All results of a row are converted, written and counted. -/
theorem VxReady.putRow (hk : x.kind ≠ .measure) (cv : Conv) {i : Nat} (hi : i < x.rows) {vals : List Num}
    (hv : vals.length = x.perRow r.desc) (a : VAcc) :
    ∃ b u, s.vPutRow t r x cv i vals a = (b, u) ∧ EngineStep t (vxWritten r x) s u ∧ b.code = a.code ∧
      b.nz = a.nz + x.perRow r.desc := by
  unfold State.vPutRow
  extract_lets d c codes zo w done zmeas
  have hcodes : codes.length = x.perRow r.desc := by rw [List.length_map, length_convAll, hv]
  obtain ⟨hin, hW⟩ := h.rowZ (a := 0) (n := (packCodes x.fz codes).length) hk hi (by rw [length_packCodes, hcodes, Nat.zero_add])
  obtain ⟨u, hu, hstep⟩ := bufWrite_inScratch hin hW 2 r.shoot
  have hput : s.bufWrite t 2 r.shoot (r.buf (vZBuf d)) zo (packCodes x.fz codes) = (0, u) := hu
  have hw : w = (0, codes.length, u) := by simp only [w, State.vWriteRow, hput]
  rw [hw, hcodes]
  exact ⟨_, u, rfl, hstep, rfl, rfl⟩

/-- The K pairs of a TOPK row are written, and K results counted (R185). -/
theorem VxReady.writeTop (hk : x.kind = .topk) {i : Nat} (hi : i < x.rows) {cs : List Nat} (hcs : cs.length = vK r.desc) (ix : List Nat) :
    ∃ u, s.vWriteTop t r x (x.rowOff x.zOff x.sz i) (x.rowOff x.yOff x.sy i) cs ix = (0, vK r.desc, u) ∧
      EngineStep t (vxWritten r x) s u := by
  have hper : x.perRow r.desc = vK r.desc := by simp [VX.perRow, hk]
  have hyRow : x.yRow r.desc = 4 * vK r.desc := by simp [VX.yRow, hk]
  unfold State.vWriteTop
  extract_lets us
  have hwithin : ∀ w ∈ us, w.Within s t (vxWritten r x) := by
    intro w hw
    obtain ⟨j, hj, hw⟩ := List.mem_flatMap.1 hw
    have hj : j < vK r.desc := hcs ▸ List.mem_range.1 hj
    rcases List.mem_pair.1 hw with rfl | rfl
    · refine h.rowZ (by simp [hk]) hi ?_
      have hcode : x.fz.bits / 8 ≤ x.fz.bytes 1 := by unfold Fmt.bytes; omega
      have hpart := bytes_part_le x.fz (j0 := j) (n := 1) (m := vK r.desc) (by omega)
      rw [length_toBytes, hper]
      omega
    · obtain ⟨hin, hW⟩ := h.rowY (i := i) (a := 4 * j) (n := (toBytes 4 (ix.getD j 0)).length) (by simp [VX.usesY, hk]) (by omega) hi
        (by rw [length_toBytes, hyRow]; omega)
      exact ⟨hin, hW hk⟩
  obtain ⟨m, u, hu, hstep⟩ := writeUnits_within us s hwithin 2 r.shoot 0
  have hcount : m = vK r.desc := by
    rw [writeUnits_count us hu, ← hcs]
    simp [us, List.flatMap_def, List.sum_flatten, Function.comp_def]
  exact ⟨u, by rw [hu, hcount], hstep⟩

/-- A row is read, and all its results are written. -/
theorem VxReady.vRow (cv : Conv) {a : VAcc} (ha : a.code = none) {i : Nat} (hi : i < x.rows) :
    ∃ b u, s.vRow t r x cv a i = (b, u) ∧ EngineStep t (vxWritten r x) s u ∧ b.code = none ∧ b.nz = a.nz + x.perRow r.desc := by
  obtain ⟨xc, hx, hxl⟩ := h.readX hi
  obtain ⟨yc, hy⟩ := h.readY hi
  obtain ⟨zc, hz⟩ := h.readZ hi
  unfold State.vRow
  extract_lets d
  rw [show s.vReadRow t r (vXBuf d) (x.rowOff x.xOff x.sx i) x.fx x.n0 = (.ok xc, s) from hx]
  dsimp -zeta only
  extract_lets yr xs xmeas top
  rw [show yr = (.ok yc, s) from hy]
  dsimp -zeta only
  extract_lets zr ys
  rw [show zr = (.ok zc, s) from hz]
  dsimp -zeta only
  extract_lets zs a1 c codes w live p
  have hxs : xs.1.length = x.n0 := (length_readAll _ _ _).trans hxl
  split
  · next hk => exact ⟨a1, s, rfl, .refl t _ s, ha, by simp [a1, VX.perRow, hk]⟩
  · next hk =>
    have hcodes : codes.length = vK r.desc := by simp only [codes, c, top, d, List.length_map, length_convAll, length_topkRow]
    obtain ⟨u, hu, hstep⟩ := h.writeTop hk hi hcodes (top.map Prod.snd)
    have hw : w = (0, vK r.desc, u) := hu
    rw [hw]
    exact ⟨_, u, rfl, hstep, rfl, by simp [a1, VX.perRow, hk]⟩
  · next hmeas htop =>
    obtain ⟨b, vals, u, hvals, hd, ⟨hcode, hnz⟩, hlen⟩ := vRowVals_spec h.unsegmented htop s t hxs ys.1 zs.1 a1
    obtain ⟨b', v, hput, hstep, hcode', hnz'⟩ := (h.step (.of_drawn hd (W := vxWritten r x))).putRow hmeas cv hi hlen b
    have hp : p = (b, vals, u) := hvals
    rw [hp]
    exact ⟨b', v, hput, (EngineStep.of_drawn hd).trans hstep, hcode'.trans (hcode.trans ha), by rw [hnz', hnz]⟩

/-- So are all rows of the nest, in order. -/
theorem VxReady.vRows (cv : Conv) (is : List Nat) {a : VAcc} (ha : a.code = none) (hi : ∀ i ∈ is, i < x.rows) :
    ∃ b u, s.vRows t r x cv is a = (b, u) ∧ EngineStep t (vxWritten r x) s u ∧ b.code = none ∧
      b.nz = a.nz + is.length * x.perRow r.desc := by
  induction is generalizing s a with
  | nil => exact ⟨a, s, rfl, .refl t _ s, ha, by simp⟩
  | cons i is ih =>
    obtain ⟨b, u, hrow, hstep, hcode, hnz⟩ := h.vRow cv ha (hi i (by simp))
    obtain ⟨b', v, hrest, hstep', hcode', hnz'⟩ := ih (h.step hstep) hcode fun j hj => hi j (by simp [hj])
    refine ⟨b', v, ?_, hstep.trans hstep', hcode', ?_⟩
    · simp only [State.vRows, hrow, hcode]
      exact hrest
    · rw [hnz', hnz, List.length_cons, Nat.succ_mul]
      omega

/-! The end of a run (R186, R196). -/

/-- A ready run writes the results of all its rows and ends DONE. -/
theorem VxReady.run_done (o : OutRec) : ∃ v bits fl meas, s.vRun t r x o =
    v.vEnd t r stDONE (x.rows * x.perRow r.desc) bits x.intStats fl meas none ∧ EngineStep t (vxWritten r x) s v := by
  unfold State.vRun
  extract_lets d dl cv p a s1 fin
  have hdl : EngineStep t (vxWritten r x) s dl.2 := .of_drawn (drawn_dealDraws _ _ _)
  obtain ⟨b, u, hp, hu, hcode, hnz⟩ := (h.step hdl).vRows cv (List.range x.rows) (a := VAcc.init) rfl fun i => List.mem_range.1
  have ha : a = b := congrArg Prod.fst hp
  have hp2 : p.2 = u := congrArg Prod.snd hp
  have hs1 : EngineStep t (vxWritten r x) s s1 := engineStep_advanceIf (by rw [hp2]; exact hdl.trans hu) _ _ _
  have hdone : b.nz = x.rows * x.perRow r.desc := by rw [hnz, List.length_range]; exact Nat.zero_add _
  rw [ha, hcode]
  dsimp only
  split
  · next hk =>
    obtain ⟨hkind, hend, hW⟩ := (h.step hs1).outRecord hk
    have hfin : ∀ bits fl w, ∃ v bits' fl' meas, fin s1 stDONE (x.rows * x.perRow r.desc) bits fl w =
        v.vEnd t r stDONE (x.rows * x.perRow r.desc) bits' x.intStats fl' meas none ∧ EngineStep t (vxWritten r x) s v := by
      intro bits fl w
      obtain ⟨v, hv, hstep⟩ := writeRec_inScratch hkind hend hW 2 r.shoot w
      exact ⟨v, bits, fl, a.meas, by simp [fin, d, hv], hs1.trans hstep⟩
    rw [if_neg fun hpol => h.rescue hpol.2, hdone]
    exact hfin _ _ _
  · rw [if_pos h.noCarryIn, if_pos h.noCarryOut, hdone]
    exact ⟨s1, _, _, _, rfl, hs1⟩

end Ready
end Sys2Proof.Machine
end

section
/-! SUPPORT. A vector descriptor over scratch from its start to its end: its loop record, its output record, its checks, its rows and its
summary; settles O16 (R45, R170, R175, R178, R179, R186, R196, R619). -/
namespace Sys2Proof.Machine

/-! The vector commands (Table 6.3). -/

/-- Each of them starts the head descriptor where it has the command's operation code. -/
theorem exec_vectorRow {p : Nat × (TileId → Instr)} (hp : p ∈ vectorRows) (t : TileId) (s : State) :
    ∃ ok : BitVec 512 → Bool, exec (p.2 t) s = s.engineCmd t 1 ok (fun s x => s.vectorStart t x) ∧ ∀ d, hOp d = p.1 → ok d = true := by
  rcases List.mem_cons.1 hp with rfl | hp
  · exact ⟨fun d => decide (hOp d = 0x20) || (vKind (hOp d)).isNone, rfl, fun d hd => by simp [hd]⟩
  · refine ⟨fun d => decide (hOp d = p.1), ?_, fun d hd => decide_eq_true hd⟩
    fin_cases hp <;> rfl

/-! The checks of a start do not see that the engine is BUSY. -/

theorem eccErr_setEng (x : Tile) (e : Nat) (g : Engine) : (x.setEng e g).eccErr = x.eccErr := by
  unfold Tile.setEng
  split
  · rfl
  · split <;> rfl

/-- A run's start changes nothing of its tile's scratch. -/
theorem sameScratch_busyWith {s : State} {t : TileId} (h : NoArrayErrors s t) {e : Nat} (he : e < 3) (r : Run) :
    SameScratch t s (s.busyWith t e r) where
  shelf := busyWith_shelf s t e r
  locked := rd_shScratch_busyWith s t e r he
  left := h
  right := by
    rw [NoArrayErrors, State.busyWith, State.tile_wr, State.tile_setEng, eccErr_setEng]
    exact h

section Alike
variable {t : TileId} {s u : State} (h : SameScratch t s u)
include h

theorem SameScratch.vLoop (d : BitVec 512) {l : BitVec 512} (hl : (s.vLoop t d).1 = .ok l) : u.vLoop t d = (.ok l, u) := by
  obtain ⟨a, hs, hu⟩ : ∃ a, s.scratchRead t (vLoopOff d) 64 = (a, s) ∧ u.scratchRead t (vLoopOff d) 64 = (a, u) := h.readN 14 _ _
  unfold State.vLoop at hl ⊢
  dsimp only at hl ⊢
  rw [scratchEnd_congr h.locked]
  by_cases h0 : vLoopOff d = 0
  · rw [if_pos h0] at hl ⊢
    rw [← Except.ok.inj hl]
  · rw [if_neg h0] at hl ⊢
    by_cases hout : vLoopOff d < 0x1000 ∨ s.scratchEnd t < vLoopOff d + 64
    · rw [if_pos hout] at hl
      cases hl
    · rw [if_neg hout] at hl ⊢
      rw [hs] at hl
      rw [hu]
      cases a with
      | ok bs => rw [← Except.ok.inj hl]
      | bad c => cases hl

theorem SameScratch.vOutRec {r : Run} {x : VX} (hq : x.kind = .cvtq → bKind (r.buf (vQBuf r.desc)) = 1) :
    ReadsAlike s u fun v => v.vOutRec t r x := by
  unfold State.vOutRec
  split
  · next hk =>
    refine (h.readRecord (hq hk) 2 (vQoff r.desc) 32).andThen fun b => ?_
    cases b with
    | none => exact .pure s u _
    | some bs =>
      dsimp only
      split
      · exact .pure s u _
      · exact .pure s u _
  · exact .pure s u _

end Alike

/-! The checks (R175, R176, R619). -/

/-- Extents that pass their checks lie within their buffers. -/
theorem bounds_of_checkExtents {s : State} {t : Nat} {r : Run} {xs : List Extent} {o : Bool} (h : s.checkExtents t r xs o = none)
    {e : Extent} (he : e ∈ xs) : r.extentIn e = true := by
  unfold State.checkExtents at h
  split at h
  · cases h
  · next hall =>
    simp only [Bool.not_eq_true', Bool.not_eq_false, List.all_eq_true] at hall
    exact hall e he

/-- A non-empty nest without segments and a carry-out record has its tensors and its output record checked. -/
theorem vCheck_eq {r : Run} {x : VX} (hne : x.none = false) (hseg : vSegMode r.desc = 0) (hco : x.cout r.desc = 0) (s : State) (t : Nat) :
    s.vCheck t r x = s.checkExtents t r (x.checked r.desc) (x.overlap r []) := by
  have hlens : s.lensExt t r x = [] := by simp [State.lensExt, hseg]
  simp [State.vCheck, hne, hlens, VX.coExt, hco, VX.checked]

/-! The start (R45, R170, R619). -/

/-- The run with which a vector descriptor starts, its loop record and its buffers read. -/
def State.vectorRun (s : State) (t : Nat) (sl : Slot) (l : BitVec 512) (x : VX) : Run :=
  { s.newRun t sl (s.lateValues t sl.desc vectorLate) [] s.sdNum with
    loop := l, bufs := (x.bufs sl.desc).map fun n => (n, s.bufDesc t n) }

theorem bufs_vectorRun (s : State) (t : Nat) (sl : Slot) (l : BitVec 512) (x : VX) :
    (s.vectorRun t sl l x).bufs.map Prod.fst = x.bufs sl.desc := by simp [State.vectorRun, Function.comp_def]

section Start
variable {s : State} {t : TileId} {sl : Slot} {l : BitVec 512} {x : VX} (h0 : NoArrayErrors s t)
  (hx : vxOf (s.vectorRun t sl l x) = some x) (hn0 : x.n0 ≠ 0) (hrows : x.rows ≠ 0) (hc : s.vCheck t (s.vectorRun t sl l x) x = none)
  (hci : x.cin sl.desc = 0) (hco : x.cout sl.desc = 0) (hseg : vSegMode sl.desc = 0) (hall : AllShelf (s.vectorRun t sl l x))
include h0 hx hn0 hrows hc hci hco hseg hall

/-- The run is ready where it has begun. -/
theorem vxReady_busyWith (hpol : vPolicy sl.desc ≠ 2) (r : Run) : VxReady (s.busyWith t 1 r) t (s.vectorRun t sl l x) x := by
  have hsame := sameScratch_busyWith h0 (e := 1) (by decide) r
  rw [vCheck_eq (r := s.vectorRun t sl l x) (by simp [VX.none, hn0, hrows]) hseg hco, ← checkExtents_congr hsame.locked] at hc
  exact ⟨hsame.right, hx, fun n hn => kind_of_allShelf hall (by rwa [bufs_vectorRun]), fun e => allowed_of_checkExtents hc,
    fun e => bounds_of_checkExtents hc, Nat.pos_of_ne_zero hn0, Nat.pos_of_ne_zero hrows, hci, hco, hseg, hpol⟩

/-- A descriptor that passes its checks runs its rows. -/
theorem vectorStart_runs (hbad : sl.bad = false) (hl : (s.vLoop t sl.desc).1 = .ok l)
    (hv : (s.vectorRun t sl l x).bufs.all (fun b => bValid b.2) = true) {o : OutRec}
    (ho : (s.vOutRec t (s.vectorRun t sl l x) x).1 = .ok o) :
    ∃ r, s.vectorStart t sl = (s.busyWith t 1 r).vRun t (s.vectorRun t sl l x) x o := by
  refine ⟨s.newRun t sl (s.lateValues t sl.desc vectorLate) [] s.sdNum, ?_⟩
  unfold State.vectorStart
  extract_lets d r s0
  have hne : x.none = false := by simp [VX.none, hn0, hrows]
  have hsame : SameScratch t s s0 := sameScratch_busyWith h0 (by decide) r
  have hloop : s0.vLoop t d = (.ok l, s0) := hsame.vLoop d hl
  have hx' : vxOf { r with loop := l } = some x := hx
  have hcarry : s0.vCarryBad t d x = false := by simp [State.vCarryBad, d, hci, hco]
  have hten : s0.vCoTenCheck t (s.vectorRun t sl l x) x = (0, s0) := by
    simp [State.vCoTenCheck, show x.cout (s.vectorRun t sl l x).desc = 0 from hco]
  have hcheck : s0.vCheck t (s.vectorRun t sl l x) x = none := by
    rw [vCheck_eq hne hseg hco] at hc ⊢
    rw [checkExtents_congr hsame.locked, hc]
  have hrec : s0.vOutRec t (s.vectorRun t sl l x) x = (.ok o, s0) := by
    obtain ⟨a, hs, hu⟩ := hsame.vOutRec (r := s.vectorRun t sl l x) (x := x) fun hk =>
      kind_of_allShelf hall (by rw [bufs_vectorRun]; simp [VX.bufs, VX.usesQ, hk, State.vectorRun, State.newRun])
    dsimp only at hs hu
    rw [hs] at ho
    rw [hu]
    exact congrArg (·, s0) ho
  have hrun : { r with loop := l, bufs := (x.bufs d).map fun n => (n, s.bufDesc t n) } = s.vectorRun t sl l x := rfl
  have hvalid : (((x.bufs d).map fun n => (n, s.bufDesc t n)).all fun b => bValid b.2) = true := hv
  change _ = s0.vRun t (s.vectorRun t sl l x) x o
  simp only [hbad, hloop, hx', startRead_noErrors hsame.right hbad, hrun, hcarry, hvalid, hten, hne, hrec, hcheck, Bool.not_true, Bool.or_self,
    Bool.false_eq_true, if_false, ne_eq, not_true_eq_false]

end Start

/-! The end (R196). -/

/-- A vector run ends by recording its status, its count and its summary. -/
theorem vEnd_records (s : State) (t : Nat) (r : Run) (code done bits : Nat) (int : Bool) (fl : Fl) (meas : List Num) (c : Option Carry) :
    ∃ v r', s.vEnd t r code done bits int fl meas c = v.setRun t 1 r' ∧ Drawn s v ∧ r'.ended = some code ∧ r'.done = done ∧
      r'.desc = r.desc :=
  ⟨_, _, rfl, (drawn_measureWords s int meas).trans (drawn_carryReg _ int c), rfl, rfl, rfl⟩

/-- Settles O16: the checked descriptor runs its rows to the end, which records it, and its run has written only its own extents. -/
theorem vectorDescriptorRunsToDone : Obligations.VectorDescriptorRunsToDone := by
  rintro p hp t s sl l r x hs hbad hop hl rfl hx - hv hn0 hrows ⟨o, ho⟩ hc hci hco hpol hseg hall h0
  obtain ⟨r0, hstart⟩ := vectorStart_runs h0 hx hn0 hrows hc hci hco hseg hall hbad hl hv ho
  have hready := vxReady_busyWith h0 hx hn0 hrows hc hci hco hseg hall hpol r0
  obtain ⟨v, bits, fl, meas, hrun, hstep⟩ := hready.run_done o
  obtain ⟨w, r', hend, hdrawn, hended, hdone, hdesc⟩ := vEnd_records v t (s.vectorRun t sl l x) stDONE (x.rows * x.perRow sl.desc) bits
    x.intStats fl meas none
  have hkeep := hstep.trans (.of_drawn hdrawn)
  have hruns := hstart.trans (hrun.trans hend)
  have heng := eng_setRun w t 1 r'
  obtain ⟨ok, hexec, hok⟩ := exec_vectorRow hp t s
  have hnext : exec (p.2 t) s = .next (w.setRun t 1 r') := by
    rw [hexec, ← hruns]
    exact engineCmd_starts hs (hok _ hop) (by rw [hruns, heng]) (by simp [hended, stDONE, stWAIT])
  refine ⟨_, r', hnext, congrArg Engine.run heng, hended, hdesc, hdone, ?busy, ?owned, hkeep.cellar, fun k hk => ?bytes⟩
  case busy => exact (hkeep.on (lfsrReg_ne_tileReg t t (by decide))).trans (on_qBusy_busyWith s t 1 r0)
  case owned =>
    change (((w.setRun t 1 r').tile t).eng 1).owned = ((s.tile t).eng 1).owned
    rw [heng, hkeep.eng, eng_busyWith]
  case bytes =>
    refine hkeep.bytes k fun i ⟨e, he, hw, hlo, hhi⟩ => ?_
    rw [scratchKey_congr (rd_shScratch_busyWith s t 1 r0 (by decide))]
    exact hk e he hw i hlo hhi

end Sys2Proof.Machine
end

section
/-! SUPPORT. Writes of CRATE.SHELF_CFG; settles O20 (R64, R202, Table 7.4). -/
namespace Sys2Proof.Machine

theorem exec_shelfLockWrite (src : Src) (t : TileId) (w : BitVec 32) (s : State) :
    exec (.shelfLockWrite src t w) s = execShelfLockWrite src t w s := rfl

/-- A permitted write of the SHELF_CFG of a shelf that answers takes effect at once. -/
theorem exec_shelfLockWrite_live {src : Src} {t : TileId} {w : BitVec 32} {s : State} (hw : s.mayWrite src (hubReg t 0xC00 16) = true)
    (hl : s.shelfLive t = true) : exec (.shelfLockWrite src t w) s = .next ((s.unheld src.unit).shelfCfgWrite t w) := by
  have hr : s.crateRuns (t / 64) = true := by simp only [State.shelfLive, Bool.and_eq_true] at hl; exact hl.2
  have hrun : s.srcRuns src = true := srcRuns_of_mayWrite_crateReg (by omega) (by omega) hw hr
  rw [exec_shelfLockWrite, execShelfLockWrite, hw, hrun, atPlace_crate hr]
  rfl

theorem regRow_shelfCfg (t : TileId) : regRow (hubReg t 0xC00 16) = some ⟨0xC00, 64, 0x10, 1, 0, 0x40F, 0x200, 0, 0, 0x70F⟩ := by
  have hfind : ∀ i < 64, rowsCrate.find? (fun r => r.has (0xC00 + 16 * i)) = some ⟨0xC00, 64, 0x10, 1, 0, 0x40F, 0x200, 0, 0, 0x70F⟩ := by
    decide +kernel
  rw [hubReg, regRow_crateReg (by omega) (by omega), hfind _ (Nat.mod_lt _ (by decide))]

/-- The first part of a write of SHELF_CFG: its RW and W1C bits, LOCK as it was. -/
def State.cfgBits (s : State) (t : Nat) (w : BitVec 32) : State := (s.plainWrite (hubReg t 0xC00 16) w).wr (shLock t) (s.rd (shLock t))

section CfgBits
variable (s : State) (t : TileId) (w : BitVec 32)

theorem onlyRegs_cfgBits : OnlyRegs [hubReg t 0xC00 16] s (s.cfgBits t w) :=
  (onlyRegs_plainWrite s _ w).trans (onlyRegs_wr _ (shLock t) _)

theorem rd_shLock_cfgBits : (s.cfgBits t w).rd (shLock t) = s.rd (shLock t) :=
  (rd_wr_same _ (shLock t) _ (by simp [shLock])).trans (Nat.mod_eq_of_lt (rd_lt s (shLock t)))

/-- Bit `i` above LOCK of the word, where it is a field of its own, after the first part of a write. -/
theorem on_cfgBits {i : Nat} (hlo : 4 ≤ i) (hi : i < 32) : (s.cfgBits t w).on ⟨hubReg t 0xC00 16, i, 1⟩ =
    ((if bitAt 0x40F i then w.getLsbD i else s.on ⟨hubReg t 0xC00 16, i, 1⟩) && !(w.getLsbD i && bitAt 0x200 i)) := by
  rw [State.cfgBits, on_wr_of_apart _ _ (by simp [shLock]) (.inr (.inr (by simpa [shLock] using hlo))), on_eq_getLsbD, on_eq_getLsbD,
    getLsbD_plainWrite s w (regRow_shelfCfg t) hi]

/-- SCRUB takes the written value (R225). -/
theorem on_shScrub_cfgBits : (s.cfgBits t w).on (shScrub t) = w.getLsbD 10 :=
  (on_cfgBits s t w (by decide) (by decide)).trans (by simp [bitAt])

/-- REFUSED is cleared by a 1. -/
theorem on_shRefused_cfgBits : (s.cfgBits t w).on (shRefused t) = (s.on (shRefused t) && !w.getLsbD 9) :=
  (on_cfgBits s t w (by decide) (by decide)).trans (by simp [bitAt, shRefused])

/-- BUSY is the device's: a write leaves it. -/
theorem on_shBusy_cfgBits : (s.cfgBits t w).on (shBusy t) = s.on (shBusy t) :=
  (on_cfgBits s t w (by decide) (by decide)).trans (by simp [bitAt, shBusy])

theorem on_tHold_cfgBits : (s.cfgBits t w).on (tHold t) = s.on (tHold t) :=
  (onlyRegs_cfgBits s t w).on (by simpa [tHold] using (hubReg_ne_tileReg (by decide) (by decide)).symm)

theorem enabledWays_cfgBits : (s.cfgBits t w).enabledWays t = s.enabledWays t := by
  rw [State.enabledWays, (onlyRegs_cfgBits s t w).rd (f := shDisabled t) (by simp [shDisabled])]
  rfl

end CfgBits

section Lock
variable {s : State} {t : TileId} {w : BitVec 32}

/-- A LOCK equal to the one in force. -/
theorem shelfCfgWrite_same (h : w.toNat % 16 = s.rd (shLock t)) : s.shelfCfgWrite t w = s.cfgBits t w := if_pos h

/-- Another LOCK is accepted where the tile is held, no change is under way and the ways suffice (R202). -/
theorem shelfCfgWrite_accepted (h : w.toNat % 16 ≠ s.rd (shLock t)) (hh : s.on (tHold t) = true) (hb : s.on (shBusy t) = false)
    (hn : w.toNat % 16 ≤ (s.enabledWays t).length) :
    s.shelfCfgWrite t w = ((s.cfgBits t w).setTile t { s.tile t with lockNew := some (w.toNat % 16) }).wr (shBusy t) 1 := by
  have hcond : ((s.cfgBits t w).on (tHold t) && !(s.cfgBits t w).on (shBusy t) &&
      decide (w.toNat % 16 ≤ ((s.cfgBits t w).enabledWays t).length)) = true := by
    simp [on_tHold_cfgBits, on_shBusy_cfgBits, enabledWays_cfgBits, hh, hb, hn]
  rw [← (onlyRegs_cfgBits s t w).tile]
  exact (if_neg h).trans (if_pos hcond)

/-- Else it is refused (R202). -/
theorem shelfCfgWrite_refused (h : w.toNat % 16 ≠ s.rd (shLock t))
    (hr : s.on (tHold t) = false ∨ s.on (shBusy t) = true ∨ (s.enabledWays t).length < w.toNat % 16) :
    s.shelfCfgWrite t w = (s.cfgBits t w).wr (shRefused t) 1 := by
  have hcond : ¬ ((s.cfgBits t w).on (tHold t) && !(s.cfgBits t w).on (shBusy t) &&
      decide (w.toNat % 16 ≤ ((s.cfgBits t w).enabledWays t).length)) = true := by
    rw [on_tHold_cfgBits, on_shBusy_cfgBits, enabledWays_cfgBits]
    rcases hr with hr | hr | hr <;> simp [hr]
  exact (if_neg h).trans (if_neg hcond)

end Lock

/-- Settles O20: the three answers of a write of LOCK, each over the write's other bits. -/
theorem lockWritesAreAcceptedOrRefused : Obligations.LockWritesAreAcceptedOrRefused := by
  intro src t w s hw hl
  rw [exec_shelfLockWrite_live hw hl]
  refine ⟨fun h => ⟨_, rfl, ?same⟩, fun h hh hb hn => ⟨_, rfl, ?accepted⟩, fun h hr => ⟨_, rfl, ?refused⟩⟩
  case same =>
    rw [shelfCfgWrite_same (s := s.unheld src.unit) h]
    exact ⟨rd_shLock_cfgBits _ t w, on_shScrub_cfgBits _ t w, on_shRefused_cfgBits _ t w, on_shBusy_cfgBits _ t w, onlyRegs_cfgBits _ t w⟩
  case accepted =>
    have hbusy : (shBusy t).lo + (shBusy t).w ≤ 32 := by simp [shBusy]
    rw [shelfCfgWrite_accepted (s := s.unheld src.unit) h hh hb hn]
    refine ⟨?_, by rw [on_wr_same _ _ _ hbusy]; rfl, ?_, ?_, ((onlyRegs_cfgBits _ t w).setTile t _).trans (onlyRegs_wr _ (shBusy t) 1)⟩
    · rw [rd_wr_of_apart _ _ hbusy (by simp [Fld.Apart, shBusy, shLock]), State.rd_setTile, rd_shLock_cfgBits]
      rfl
    · rw [on_wr_of_apart _ _ hbusy (by simp [Fld.Apart, shBusy, shScrub]), State.on_setTile, on_shScrub_cfgBits]
    · rw [on_wr_of_apart _ _ hbusy (by simp [Fld.Apart, shBusy, shRefused]), State.on_setTile, on_shRefused_cfgBits]
      rfl
  case refused =>
    have href : (shRefused t).lo + (shRefused t).w ≤ 32 := by simp [shRefused]
    rw [shelfCfgWrite_refused (s := s.unheld src.unit) h hr]
    refine ⟨?_, by rw [on_wr_same _ _ _ href]; rfl, ?_, ?_, (onlyRegs_cfgBits _ t w).trans (onlyRegs_wr _ (shRefused t) 1)⟩
    · rw [rd_wr_of_apart _ _ href (by simp [Fld.Apart, shRefused, shLock]), rd_shLock_cfgBits]
      rfl
    · rw [on_wr_of_apart _ _ href (by simp [Fld.Apart, shRefused, shScrub]), on_shScrub_cfgBits]
    · rw [on_wr_of_apart _ _ href (by simp [Fld.Apart, shRefused, shBusy]), on_shBusy_cfgBits]
      rfl

end Sys2Proof.Machine
end

section
/-! SUPPORT. A fill's victims and the register word that the clearing of a line's copies rewrites (R205, R210, R220, R290): where a carving
that R243 never accepts puts a line's home, the peak count of its transactions is SCRATCH of CRATE.SHELF_WAYS[0]; refutes O21. -/
namespace Sys2Proof.Machine

/-- The home whose PEAK, by the layout of COH[h], is the field SCRATCH of tile 0. It lies far beyond the 40 homes of the package, but a
carving whose region names die 51,516 places lines in it (R245), and no hypothesis of the statement asks for a carving that R243 accepts. -/
def scratchHome : Nat := 515168

theorem cohPeak_scratchHome : (cohPeak scratchHome).a = (shScratch 0).a ∧ (cohPeak scratchHome).lo = (shScratch 0).lo := by decide

/-- Tile 0 has way 0 as its one cache way, way 1 as scratch and every other way disabled. A load waits for line 704; in its set, way 0 holds
line 64, Dirty, with two bad bits, of which the directory lists cluster 0 as a holder. Both lines' home serves. -/
def scratchState : State :=
  { State.reset with
    carve := [⟨false, 51516, cellarSize⟩]
    dirs := [⟨64, none, 1, 15⟩]
    tiles := [(0, { Tile.fresh with
      fill := some (704, 0), lines := [(12 * setOf 704, ⟨.dirty, 64, 0, 0#128, false⟩)], eccErr := [(16 * setOf 704, 2)] })]
    regs := [((domState 0).a, 0x20#32), ((domState 51532).a, 0x20#32), ((shScratch 0).a, 0x20FFC#32), ((celReady 257584).a, 1#32)] }

/-- The fill under way, taken off the tile's record. -/
def scratchFilling : State := scratchState.setTile 0 { scratchState.tile 0 with fill := none }

theorem scratchFilling_home : (scratchFilling.locate (128 * 64)).map Loc.home = some scratchHome := by decide +kernel

/-- Way 0 is the only way that the fill may take. -/
theorem scratchFilling_victims : scratchFilling.victims (0 : TileId) (setOf 704) = [0] := by decide +kernel

/-- The write-back of way 0 finds it lost and rewrites SCRATCH: way 1 is a cache way next, and is taken. -/
theorem scratchFilling_allocate : (scratchFilling.allocate (0 : TileId) (setOf 704)).2.1 = some 1 := by decide +kernel

/-- An access that is answered leaves some state. -/
theorem exists_eq_of_fst_eq_ok {p : Access × State} {bs : List Byte} (h : p.1 = .ok bs) : ∃ u, p = (.ok bs, u) := ⟨p.2, Prod.ext h rfl⟩

theorem scratchFilling_fetchLine : ∃ u, scratchFilling.fetchLine (0 : TileId) 704 0 = (.ok (List.replicate 128 0#8), u) :=
  exists_eq_of_fst_eq_ok (by decide +kernel)

/-- Refutes O21, by its clause of a fill that misses: the statement speaks of every state, and in `scratchState`, whose carving R243 never
accepts, the write-back of the victim rewrites SCRATCH as a count of the line's home, so that the fill takes locked scratch way 1. -/
theorem not_shelfChangesEmptyTheirWays : ¬ Obligations.ShelfChangesEmptyTheirWays := by
  rintro ⟨-, -, -, hfill, -⟩
  obtain ⟨u, hfetch⟩ := scratchFilling_fetchLine
  have hmiss := (hfill 0 scratchState scratchFilling u 704 0 (List.replicate 128 0#8) (by decide +kernel) (by decide +kernel)
    rfl List.length_replicate).1
  obtain ⟨-, hvictim, -⟩ := hmiss 1 (by decide +kernel) hfetch scratchFilling_allocate
  rw [scratchFilling_victims] at hvictim
  exact absurd hvictim (by decide)

end Sys2Proof.Machine
end

section
/-! SUPPORT. Changes of a tally: the clamp with its RANGE bit and fault, and increments that arrive in one cycle; settles O24 (R226 to R228). -/
namespace Sys2Proof.Machine

theorem exec_tallyTake (t : TileId) (n : Fin 64) (s : State) : exec (.tallyTake t n) s = execTallyTake t n s := rfl

/-! The fields of a tally (Tables 8.7 to 8.12). -/

@[simp] theorem TallyLoc.value_w (l : TallyLoc) : l.value.w = 16 := by cases l <;> rfl
@[simp] theorem TallyLoc.value_lo (l : TallyLoc) : l.value.lo = 0 := by cases l <;> rfl
@[simp] theorem TallyLoc.gen_a (l : TallyLoc) : l.gen.a = l.value.a := by cases l <;> rfl
@[simp] theorem TallyLoc.gen_lo (l : TallyLoc) : l.gen.lo = 16 := by cases l <;> rfl
@[simp] theorem TallyLoc.range_w (l : TallyLoc) : l.range.w = 1 := by cases l <;> rfl

theorem TallyLoc.range_lo_lt (l : TallyLoc) : l.range.lo < 32 := by
  cases l <;> simp [TallyLoc.range, Nat.mod_lt]

/-- Of a tile's tallies only numbers 0 to 63 lie below its RANGE words. -/
def TallyLoc.InTile (l : TallyLoc) : Prop := ∀ t n, l = .tile t n → n < 64

theorem TallyLoc.inTile_of_exists {l : TallyLoc} (h : l.exists' = true) : l.InTile := by
  rintro t n rfl
  simpa using (Bool.and_eq_true_iff.1 h).2

theorem TallyLoc.inTile_of_loc {i : Inc} {l : TallyLoc} (h : i.loc = some l) : l.InTile := by
  rintro t n rfl
  have hlt := bitsAt_lt i.addr 0 6
  simp only [Inc.loc, tallyOfAddr] at h
  split_ifs at h <;> simp_all

theorem TallyLoc.range_ne_value {l : TallyLoc} (h : l.InTile) : l.range.a ≠ l.value.a := by
  cases l with
  | tile t n => exact (tileTally_ne_range (h t n rfl)).symm
  | crate c n => simp [TallyLoc.range, TallyLoc.value]
  | die k n => simp only [TallyLoc.range, TallyLoc.value]; omega
  | pkg n => simp only [TallyLoc.range, TallyLoc.value]; omega

/-- A change of VALUE leaves GEN. -/
theorem rd_gen_wr_value (s : State) (l : TallyLoc) (v : Nat) : (s.wr l.value v).rd l.gen = s.rd l.gen :=
  rd_wr_of_apart s v (by simp) (.inr (.inr (by simp)))

theorem rd_gen_setTally (s : State) (l : TallyLoc) (v : Int) (hl : l.range.a ≠ l.value.a) : (s.setTally l v).rd l.gen = s.rd l.gen := by
  have hr : l.gen.a ≠ l.range.a := by simpa using hl.symm
  by_cases h : v < 0 ∨ 0xFFFF < v
  · rw [setTally_outside s l h, State.rd_raise, rd_wr_other _ _ hr, rd_gen_wr_value]
  · rw [setTally_inside s l (by omega) (by omega), rd_gen_wr_value]

theorem setTally_incs (s : State) (l : TallyLoc) (v : Int) : (s.setTally l v).incs = s.incs := by
  by_cases h : v < 0 ∨ 0xFFFF < v
  · rw [setTally_outside s l h]
    rfl
  · rw [setTally_inside s l (by omega) (by omega)]
    rfl

/-! The clamp (R226). -/

/-- State `u` is state `s` after a change of a tally to `v` (R226): within the bounds only the words `ws` and VALUE's may differ, outside
them RANGE is set too and "tally range" is raised. -/
structure Clamped (l : TallyLoc) (v : Int) (ws : List Nat) (s u : State) : Prop where
  value : u.rd l.value = clamp16 v
  inside : 0 ≤ v → v ≤ 0xFFFF → OnlyRegs (l.value.a :: ws) s u
  outside : v < 0 ∨ 0xFFFF < v → u.on l.range = true ∧ ∃ f : FRec, u.gathered = s.gathered ++ [f] ∧ f.code = 0x0300 ∧ f.cls = 0 ∧
    (f.kind, f.index) = l.unit ∧ OnlyRegs (l.value.a :: l.range.a :: ws) { s with gathered := s.gathered ++ [f] } u

theorem onlyRegs_setTally_outside (s : State) (l : TallyLoc) {v : Int} (h : v < 0 ∨ 0xFFFF < v) :
    ∃ f : FRec, (s.setTally l v).gathered = s.gathered ++ [f] ∧ f.code = 0x0300 ∧ f.cls = 0 ∧ (f.kind, f.index) = l.unit ∧
      OnlyRegs [l.value.a, l.range.a] { s with gathered := s.gathered ++ [f] } (s.setTally l v) := by
  rw [setTally_outside s l h]
  have hw := ((onlyRegs_wr s l.value (if v < 0 then 0 else 0xFFFF)).mono (bs := [l.value.a, l.range.a]) (by simp)).trans
    ((onlyRegs_wr _ l.range 1).mono (by simp))
  exact ⟨_, rfl, rfl, rfl, rfl, fun a ha => hw.1 a ha, rfl⟩

theorem clamped_setTally (s : State) {l : TallyLoc} (hl : l.range.a ≠ l.value.a) (v : Int) : Clamped l v [] s (s.setTally l v) where
  value := rd_setTally s l v hl
  inside h0 h1 := by
    rw [setTally_inside s l h0 h1]
    exact onlyRegs_wr s l.value _
  outside h := by
    refine ⟨?_, onlyRegs_setTally_outside s l h⟩
    rw [setTally_outside s l h, State.on_raise, on_wr_same _ _ _ (by have := l.range_lo_lt; simp; omega)]
    simp

/-- TILE.RUN of a tile is no word of a tile's tallies. -/
theorem tState_apart_tile {t n : Nat} {f : Fld} (hf : f = (TallyLoc.tile t n).value ∨ f = (TallyLoc.tile t n).range) : (tState t).Apart f := by
  refine .inl ?_
  rcases hf with rfl | rfl <;> simp only [TallyLoc.value, TallyLoc.range, tState, tileReg, tileTallyBase] <;> omega

theorem onlyRegs_ungateFor (s : State) (l : TallyLoc) : OnlyRegs (wakeRegs l) s (s.ungateFor l) := by
  cases l with
  | tile t n => exact onlyRegs_ungate s t
  | _ => exact .refl _ _

theorem rd_ungateFor (s : State) {l : TallyLoc} {f : Fld} (hf : f = l.value ∨ f = l.range) : (s.ungateFor l).rd f = s.rd f := by
  cases l with
  | tile t n => exact rd_ungate_of_apart s t (tState_apart_tile hf)
  | _ => rfl

/-- What arrives for a tally ungates its tile and changes nothing else (R70). -/
theorem Clamped.ungateFor {l : TallyLoc} {v : Int} {s u : State} (h : Clamped l v [] s u) : Clamped l v (wakeRegs l) s (u.ungateFor l) where
  value := (rd_ungateFor u (.inl rfl)).trans h.value
  inside h0 h1 := ((h.inside h0 h1).mono (by simp)).trans ((onlyRegs_ungateFor u l).mono (by simp +contextual))
  outside hv := by
    obtain ⟨hr, f, hg, hcode, hcls, hunit, hw⟩ := h.outside hv
    refine ⟨?_, f, (onlyRegs_ungateFor u l).gathered.trans hg, hcode, hcls, hunit,
      (hw.mono (by simp)).trans ((onlyRegs_ungateFor u l).mono (by simp +contextual))⟩
    rw [State.on, rd_ungateFor u (.inr rfl)]
    exact hr

theorem int16_eq_signed16 (n : Nat) : int16 n = signed16 (n % 65536) := rfl

/-! Increments that arrive in one cycle (R228). -/

/-- The elements taken are those at the positions. -/
theorem mem_takeAt {α : Type} {ps : List Nat} {xs : List α} {x : α} : x ∈ (takeAt ps xs).1 ↔ ∃ p ∈ ps, xs[p]? = some x := by
  have hz : ∀ p, (p, x) ∈ (List.range xs.length).zip xs ↔ xs[p]? = some x := fun p => by
    rw [List.mem_iff_getElem?]
    constructor
    · rintro ⟨i, hi⟩
      obtain ⟨hpos, hx⟩ := List.getElem?_zip_eq_some.1 hi
      obtain ⟨_, hip⟩ := List.getElem?_eq_some_iff.1 hpos
      have hpi : i = p := by simpa using hip
      exact hpi ▸ hx
    · intro h
      obtain ⟨hp, -⟩ := List.getElem?_eq_some_iff.1 h
      exact ⟨p, List.getElem?_zip_eq_some.2 ⟨by simp [hp], h⟩⟩
  simp only [takeAt, List.mem_map, List.mem_filter, decide_eq_true_eq, Prod.exists, exists_eq_right, hz]
  exact exists_congr fun _ => and_comm

/-- Increments at positions of which each names one tally and is not held arrive together: their sum is delivered once. -/
theorem exec_arrival_together {s : State} {ps : List Nat} {l : TallyLoc} (hp : ∃ p ∈ ps, p < s.incs.length)
    (hall : ∀ p i, p ∈ ps → s.incs[p]? = some i → i.loc = some l ∧ s.incHeld i = false) :
    ∃ i, i.loc = some l ∧ exec (.tallyIncrementArrival ps) s =
      .next (({ s with incs := (takeAt ps s.incs).2 }).deliver i ((takeAt ps s.incs).1.map Inc.amount).sum) := by
  obtain ⟨p, hps, hlt⟩ := hp
  obtain ⟨i, js, hij⟩ := List.exists_cons_of_ne_nil
    (List.ne_nil_of_mem (mem_takeAt.2 ⟨p, hps, List.getElem?_eq_getElem hlt⟩))
  obtain ⟨q, hq, hqi⟩ := mem_takeAt.1 (hij ▸ List.mem_cons_self : i ∈ (takeAt ps s.incs).1)
  obtain ⟨hloc, hheld⟩ := hall q i hq hqi
  refine ⟨i, hloc, ?_⟩
  have hhere : ∀ qs, (∀ m < s.incs.length, m ∈ qs ↔ m ∈ ps) → takeAt qs s.incs = takeAt ps s.incs := fun qs h => takeAt_congr h
  rw [exec_tallyIncrementArrival, execTallyIncrementArrival, hij]
  simp only [hheld, Bool.false_eq_true, if_false]
  rw [hhere _ fun m hm => ?_, hij, List.sum_eq_foldl]
  obtain hget := List.getElem?_eq_getElem hm
  simp only [List.mem_filter, List.mem_range, Bool.and_eq_true, decide_eq_true_eq]
  refine ⟨fun h => h.2.1, fun h => ⟨hm, h, ?_⟩⟩
  obtain ⟨hl, hh⟩ := hall m _ h hget
  rw [hget]
  simp [hl, hloc, hh]

/-- Such an arrival changes the tally by the sum, under the clamp, and ungates its tile (R70, R226, R228). -/
theorem exec_arrival_clamped {s : State} {ps : List Nat} {l : TallyLoc} (hp : ∃ p ∈ ps, p < s.incs.length) (ho : s.tallyOn l = true)
    (hall : ∀ p i, p ∈ ps → s.incs[p]? = some i → i.loc = some l ∧ s.incHeld i = false) :
    ∃ u, exec (.tallyIncrementArrival ps) s = .next u ∧ u.incs = (takeAt ps s.incs).2 ∧
      Clamped l (s.rd l.value + ((takeAt ps s.incs).1.map Inc.amount).sum) (wakeRegs l) { s with incs := (takeAt ps s.incs).2 } u := by
  obtain ⟨i, hloc, hexec⟩ := exec_arrival_together hp hall
  have hon : ({ s with incs := (takeAt ps s.incs).2 } : State).tallyOn l = true := (tallyOn_congr rfl l).trans ho
  rw [deliver_added _ i _ hloc hon] at hexec
  exact ⟨_, hexec, (onlyRegs_ungateFor _ l).incs.trans (setTally_incs _ l _),
    (clamped_setTally _ (TallyLoc.range_ne_value (TallyLoc.inTile_of_loc hloc)) _).ungateFor⟩

/-- Settles O24: writes of VALUE and ADD, TAKE, and increments that arrive in one cycle. -/
theorem tallyChangesAreClamped : Obligations.TallyChangesAreClamped := by
  refine ⟨?write, ?take, ?arrive⟩
  case write =>
    intro src l w s he hw ho hc hq
    have hrun := srcRuns_of_tallyWriter hw hc
    have hl := TallyLoc.range_ne_value (TallyLoc.inTile_of_exists he)
    refine ⟨⟨(s.unheld src.unit).wr l.value (w.toNat % 65536), ?_, ?_, rd_gen_wr_value _ l _, onlyRegs_wr _ l.value _⟩,
      (s.unheld src.unit).addTally l (int16 w.toNat), ?_, ?_⟩
    · rw [exec_tallyValueWrite, execTallyValueWrite, he, hw, hrun]
      exact congrArg Host.Outcome.next (tallyAccess_now he ho hc hq _ w _)
    · rw [rd_wr_same _ _ _ (by simp)]
      simp
    · rw [exec_tallyAdd, execTallyAdd, he, hw, hrun]
      exact congrArg Host.Outcome.next (tallyAccess_now he ho hc hq _ w _)
    · rw [int16_eq_signed16]
      have h := clamped_setTally (s.unheld src.unit) hl ((s.rd l.value : Int) + signed16 (w.toNat % 65536))
      exact ⟨h.value, rd_gen_setTally _ l _ hl, h.inside, h.outside⟩
  case take =>
    intro t n s ho hc
    have hv := rd_lt s (TallyLoc.tile t n).value
    rw [exec_tallyTake, execTallyTake, ho, hc]
    by_cases h0 : s.rd (TallyLoc.tile t n).value = 0
    · refine ⟨{ s with answer := ⟨0, toBytes 4 (s.rd (TallyLoc.tile t n).value)⟩ }, ?_, rfl, ?_, .refl _ _⟩
      · simp [h0]
      · rw [h0]
        exact h0
    · refine ⟨({ s with answer := ⟨0, toBytes 4 (s.rd (TallyLoc.tile t n).value)⟩ } : State).wr (TallyLoc.tile t n).value
        (s.rd (TallyLoc.tile t n).value - 1), ?_, rfl, ?_, onlyRegs_wr _ _ _⟩
      · simp [h0]
      · rw [rd_wr_same _ _ _ (by simp)]
        exact Nat.mod_eq_of_lt (by omega)
  case arrive =>
    intro ps s l hp ho hc hall
    obtain ⟨u, hexec, hincs, h⟩ := exec_arrival_clamped hp ho fun p i hm hi =>
      ⟨(hall p i hm hi).1, by simp [State.incHeld, (hall p i hm hi).1, hc, (hall p i hm hi).2]⟩
    rw [← hincs] at h
    refine ⟨u, hexec, hincs, h.value, h.inside, fun hv => ?_⟩
    obtain ⟨hr, f, hg, hcode, hcls, -, hw⟩ := h.outside hv
    exact ⟨hr, f, hg, hcode, hcls, hw⟩

end Sys2Proof.Machine
end

section
/-! SUPPORT. Firings: what the increments of a firing may change, and that each leaves its tally, crate, die or port among what is on its way;
settles O26 (R234, R236, R237, R240, R357, Table 8.3). -/
namespace Sys2Proof.Machine

theorem exec_tallyFire (l : TallyLoc) (s : State) : exec (.tallyFire l) s = execTallyFire l s := rfl

/-! The words that a firing may change. -/

/-- The counters that the increments of a firing may change: those of the tally unit, FENCE_DROPS of a port and TX_BYTES of a level. -/
def FanWord (a : Nat) : Prop :=
  (0x439000 ≤ a ∧ a ≤ 0x439008) ∨ (∃ p < 16, a = (fenceDrops p).a) ∨ ∃ v < 5, a = levelTx v ∨ a = levelTx v + 4

/-- These and the word of VALUE and GEN. -/
def FiringWord (l : TallyLoc) (a : Nat) : Prop := a = l.value.a ∨ FanWord a

theorem FanWord.bounds {a : Nat} (h : FanWord a) :
    (0x439000 ≤ a ∧ a ≤ 0x439008) ∨ (0x290000 ≤ a ∧ a < 0x294000 ∧ a % 0x400 = 0x18) ∨ (0x2B0000 ≤ a ∧ a < 0x2B0140) := by
  rcases h with h | ⟨p, hp, rfl⟩ | ⟨v, hv, rfl | rfl⟩
  · exact .inl h
  all_goals simp only [fenceDrops, levelTx]; omega

/-- The words of a tally that fires lie in the tally block or in a crate's window. -/
theorem TallyLoc.value_bounds {l : TallyLoc} (he : l.exists' = true) :
    (0x400000 ≤ l.value.a ∧ l.value.a < 0x434000) ∨ 0x1000000 ≤ l.value.a := by
  cases l <;> simp only [TallyLoc.exists', Bool.and_eq_true, decide_eq_true_eq, TallyLoc.value, crateReg, tileTallyBase] at he ⊢ <;> omega

theorem not_fanWord_value {l : TallyLoc} (he : l.exists' = true) : ¬ FanWord l.value.a := fun h => by
  have := h.bounds
  have := TallyLoc.value_bounds he
  omega

/-- A word below the tally block that is no counter of a port. -/
theorem not_firingWord_low {l : TallyLoc} (he : l.exists' = true) {a : Nat} (hp : a < 0x294000 → 0x290000 ≤ a → a % 0x400 ≠ 0x18)
    (hlo : a < 0x2B0000 ∨ 0x2B0140 ≤ a) (hhi : a < 0x400000 ∨ 0x440000 ≤ a ∧ a < 0x1000000) : ¬ FiringWord l a := by
  have hv := TallyLoc.value_bounds he
  rintro (rfl | h)
  · omega
  · have := h.bounds
    omega

/-! What a firing leaves as it was. -/

/-- The packets that wait at a port. -/
def State.waitsAt (s : State) (p : Nat) : List FabHeld := s.fabWait.filter fun x => decide (x.port = p)

/-- State `u` is state `s` after increments of a firing: only the words `W` may differ, what was on its way still is, and the credits and
waiting packets of every port but those of `qs` are the same. -/
structure Fanned (W : Nat → Prop) (qs : List Nat) (s u : State) : Prop where
  reg : ∀ a, ¬ W a → u.reg a = s.reg a
  rest : u = { s with
    regs := u.regs, incs := u.incs, gathered := u.gathered, fabTx := u.fabTx, fabWait := u.fabWait, syncHeld := u.syncHeld
    fports := u.fports, freeCtr := u.freeCtr }
  incs : s.incs ⊆ u.incs
  held : s.syncHeld ⊆ u.syncHeld
  tx : s.fabTx ⊆ u.fabTx
  fport : ∀ p, p ∉ qs → u.fport p = s.fport p
  waits : ∀ p, p ∉ qs → u.waitsAt p = s.waitsAt p

namespace Fanned
variable {W : Nat → Prop} {qs : List Nat} {s t u : State}

theorem refl (W : Nat → Prop) (qs : List Nat) (s : State) : Fanned W qs s s :=
  ⟨fun _ _ => rfl, rfl, List.Subset.refl _, List.Subset.refl _, List.Subset.refl _, fun _ _ => rfl, fun _ _ => rfl⟩

theorem trans (h : Fanned W qs s t) (k : Fanned W qs t u) : Fanned W qs s u where
  reg a ha := (k.reg a ha).trans (h.reg a ha)
  rest := by rw [k.rest, h.rest]
  incs := List.Subset.trans h.incs k.incs
  held := List.Subset.trans h.held k.held
  tx := List.Subset.trans h.tx k.tx
  fport p hp := (k.fport p hp).trans (h.fport p hp)
  waits p hp := (k.waits p hp).trans (h.waits p hp)

theorem mono {W' : Nat → Prop} {qs' : List Nat} (h : Fanned W qs s u) (hW : ∀ a, W a → W' a) (hq : qs ⊆ qs') : Fanned W' qs' s u where
  reg a ha := h.reg a fun hw => ha (hW a hw)
  rest := h.rest
  incs := h.incs
  held := h.held
  tx := h.tx
  fport p hp := h.fport p fun hm => hp (hq hm)
  waits p hp := h.waits p fun hm => hp (hq hm)

/-- What concerns no port concerns none but those of any list. -/
theorem ofNone (h : Fanned W [] s u) : Fanned W qs s u := h.mono (fun _ => id) (List.nil_subset qs)

/-- A firing's change of VALUE and GEN, then increments. -/
theorem append {l : TallyLoc} (h : Fanned (FiringWord l) [] s t) (k : Fanned FanWord qs t u) : Fanned (FiringWord l) qs s u :=
  h.ofNone.trans (k.mono (fun _ => .inr) (List.Subset.refl qs))

theorem rd (h : Fanned W qs s u) {f : Fld} (hf : ¬ W f.a) : u.rd f = s.rd f := by rw [State.rd, h.reg _ hf]; rfl
theorem planRun (h : Fanned W qs s u) : u.planRun = s.planRun := by rw [h.rest]
theorem place (h : Fanned W qs s u) : u.place = s.place := by rw [h.rest]
theorem fabRsv (h : Fanned W qs s u) : u.fabRsv = s.fabRsv := by rw [h.rest]

theorem sameMemory (h : Fanned W qs s u) : SameMemory s u := by
  rw [h.rest]
  exact ⟨rfl, rfl, rfl, rfl, rfl⟩

theorem members (h : Fanned W qs s u) {a n : Nat} (ha : ∀ i < n, ¬ W (a + 4 * (i / 32))) : u.members a n = s.members a n :=
  List.filter_congr fun i hi => by rw [h.reg _ (ha i (List.mem_range.1 hi))]

/-! Steps. -/

theorem wr {f : Fld} (hf : W f.a) (v : Nat) : Fanned W qs s (s.wr f v) :=
  ⟨fun _ ha => reg_wr_other s v fun e => ha (e ▸ hf), rfl, List.Subset.refl _, List.Subset.refl _, List.Subset.refl _,
    fun _ _ => rfl, fun _ _ => rfl⟩

theorem raise (c k i : Nat) (d : List Byte) : Fanned W qs s (s.raise c k i d) :=
  ⟨fun _ _ => rfl, rfl, List.Subset.refl _, List.Subset.refl _, List.Subset.refl _, fun _ _ => rfl, fun _ _ => rfl⟩

theorem sendInc (i : Inc) : Fanned W qs s (s.sendInc i) :=
  ⟨fun _ _ => rfl, rfl, List.subset_append_left _ _, List.Subset.refl _, List.Subset.refl _, fun _ _ => rfl, fun _ _ => rfl⟩

/-- A counter of the tally unit advances and a fault is raised. -/
theorem counted {f : Fld} (hf : W f.a) (c k i : Nat) (d : List Byte) : Fanned W qs s ((s.bump f).raise c k i d) :=
  (wr hf _).trans (raise c k i d)

theorem fanTo (fired m : TallyLoc) (x : Option Nat) : Fanned FanWord qs s (s.fanTo fired m x) := by
  unfold State.fanTo
  split
  · exact sendInc _
  · exact counted (.inl (by simp [tlyAbsent])) ..

theorem dropInc (i : Inc) : Fanned FanWord qs s (s.dropInc i) := by
  unfold State.dropInc
  exact counted (.inl (by simp [tlyDropped])) ..

end Fanned

/-! Packets that leave or wait. -/

theorem mem_putAhead_of_mem (p : Nat) (k : Packet) {x : Nat × Packet} {xs : List (Nat × Packet)} (h : x ∈ xs) (n : Nat) :
    x ∈ putAhead p k n xs := by
  induction xs generalizing n with
  | nil => simp at h
  | cons y ys ih =>
    cases n with
    | zero => exact List.mem_cons_of_mem _ h
    | succ n =>
      rcases List.mem_cons.1 h with rfl | h
      · exact List.mem_cons_self
      · exact List.mem_cons_of_mem _ (ih h _)

/-- What had been handed to the ports still is when a packet leaves. -/
theorem State.leave_fabTx_subset (s : State) (q : FabHeld) : s.fabTx ⊆ (s.leave q).fabTx := by
  intro x hx
  show x ∈ (if (if q.pkt.vc = 0 then syncAhead q.port s.fabTx else 0) = 0 then _ else _)
  by_cases h : (if q.pkt.vc = 0 then syncAhead q.port s.fabTx else 0) = 0
  · rw [if_pos h]
    exact List.mem_append_left _ hx
  · rw [if_neg h]
    exact List.mem_reverse.2 (mem_putAhead_of_mem _ _ (List.mem_reverse.2 hx) _)

theorem State.reg_leave (s : State) (q : FabHeld) {a : Nat} (ha : ¬ FanWord a) : (s.leave q).reg a = s.reg a := by
  show lookMap _ (if s.rd (fabLevel q.port) ≤ 4 then _ else _) a = _
  split
  · next hl =>
    have hne : a ≠ levelTx (s.rd (fabLevel q.port)) ∧ a ≠ levelTx (s.rd (fabLevel q.port)) + 4 :=
      ⟨fun e => ha (.inr (.inr ⟨_, by omega, .inl e⟩)), fun e => ha (.inr (.inr ⟨_, by omega, .inr e⟩))⟩
    exact (reg_setReg_other _ _ hne.2).trans (reg_setReg_other _ _ hne.1)
  · rfl

theorem Fanned.leave {s : State} (p : Nat) (k : Packet) : Fanned FanWord [p] s (s.leave ⟨p, none, k⟩) where
  reg _ ha := s.reg_leave _ ha
  rest := rfl
  incs := List.Subset.refl _
  held := List.Subset.refl _
  tx := s.leave_fabTx_subset _
  fport x hx := lookMap_putMap_other _ _ _ _ (by simpa using hx)
  waits x hx := by
    have hne : ¬ p = x := fun e => hx (by simp [e])
    show List.filter _ (s.fabWait.erase _) = _
    rw [← List.erase_filter, List.erase_of_not_mem (by simp [hne])]
    rfl

theorem Fanned.fabSend {s : State} (p : Nat) (k : Packet) : Fanned FanWord [p] s (s.fabSend p k) := by
  cases h : s.mayLeave ⟨p, none, k⟩
  · rw [State.fabSend_waits h]
    refine ⟨fun _ _ => rfl, rfl, List.Subset.refl _, List.Subset.refl _, List.Subset.refl _, fun _ _ => rfl, fun x hx => ?_⟩
    have hne : ¬ p = x := fun e => hx (by simp [e])
    simp [State.waitsAt, hne]
  · rw [State.fabSend_leaves h]
    exact .leave p k

theorem Fanned.fanPort {s : State} (idx : Nat) {p : Nat} (hp : p < 16) : Fanned FanWord [p] s (s.fanPort idx p) := by
  have hcount : FanWord tlyUndeliverable.a := .inl (by simp [tlyUndeliverable])
  unfold State.fanPort
  split
  · exact .counted hcount ..
  split
  · exact (Fanned.wr hcount _).trans (.counted (.inr (.inl ⟨p, hp, rfl⟩)) ..)
  split
  · exact ⟨fun _ _ => rfl, rfl, List.Subset.refl _, List.subset_append_left _ _, List.Subset.refl _, fun _ _ => rfl, fun _ _ => rfl⟩
  · exact .fabSend p _

/-! Increments of a firing one after another. -/

theorem Fanned.foldl {f : State → Nat → State} {xs qs : List Nat} (hf : ∀ x ∈ xs, ∀ s, Fanned FanWord qs s (f s x)) (s : State) :
    Fanned FanWord qs s (xs.foldl f s) := by
  induction xs generalizing s with
  | nil => exact .refl _ _ s
  | cons x xs ih => exact (hf x List.mem_cons_self s).trans (ih (fun y hy => hf y (List.mem_cons_of_mem _ hy)) (f s x))

theorem lt_of_mem_members {s : State} {a n i : Nat} (h : i ∈ s.members a n) : i < n := List.mem_range.1 (List.mem_of_mem_filter h)

/-! What an increment depends on is the same for every increment of a firing. -/

section Congr
variable {l : TallyLoc} {qs : List Nat} {s u : State} (he : l.exists' = true) (h : Fanned (FiringWord l) qs s u)
include he h

theorem Fanned.rd_domState {d : Nat} (hd : d < 64) : u.rd (domState d) = s.rd (domState d) :=
  h.rd (not_firingWord_low he (by simp only [domState]; omega) (by simp only [domState]; omega) (by simp only [domState]; omega))

theorem Fanned.crateOn {c : Nat} (hc : c < 384) : u.crateOn c = s.crateOn c := by
  have hq : quadOfCrate c < 64 := by simp only [quadOfCrate]; split_ifs <;> omega
  simp only [State.crateOn, State.domOn, h.rd_domState he hq]

theorem Fanned.tallyOn {m : TallyLoc} (hm : m.exists' = true) : u.tallyOn m = s.tallyOn m := by
  cases m with
  | tile t n =>
    simp only [TallyLoc.exists', Bool.and_eq_true, decide_eq_true_eq] at hm
    exact h.crateOn he (by omega)
  | crate c n =>
    simp only [TallyLoc.exists', Bool.and_eq_true, decide_eq_true_eq] at hm
    exact h.crateOn he hm.1
  | die k n =>
    simp only [TallyLoc.exists', Bool.and_eq_true, decide_eq_true_eq] at hm
    simp only [State.tallyOn, State.domPowered, h.rd_domState he (show 16 + k < 64 by omega)]
  | pkg n => simp only [State.tallyOn, State.domPowered, h.rd_domState he (show 22 < 64 by decide)]

/-- The registers of a port below its counters. -/
theorem Fanned.rd_port {p : Nat} (hp : p < 16) {off : Nat} (ho : off < 0x18) (lo w : Nat) :
    u.rd ⟨0x290000 + off + 0x400 * p, lo, w⟩ = s.rd ⟨0x290000 + off + 0x400 * p, lo, w⟩ :=
  h.rd (not_firingWord_low he (by simp only; omega) (by simp only; omega) (by simp only; omega))

theorem Fanned.rd_jobId : u.rd jobId = s.rd jobId :=
  h.rd (not_firingWord_low he (by simp [jobId]) (by simp [jobId]) (by simp [jobId]))

theorem Fanned.fencePasses {p : Nat} (hp : p < 16) (vc job : Nat) : u.fencePasses p vc job = s.fencePasses p vc job := by
  have hm : u.rd (fenceMode p) = s.rd (fenceMode p) := h.rd_port he hp (off := 0x10) (by decide) _ _
  have hj : u.rd (fenceJob p) = s.rd (fenceJob p) := h.rd_port he hp (off := 0x10) (by decide) _ _
  simp only [State.fencePasses, hm, hj]

theorem Fanned.syncPacket {p : Nat} (hp : p < 16) (idx n : Nat) : u.syncPacket p idx n = s.syncPacket p idx n := by
  have hd : u.rd (fabPartner p) = s.rd (fabPartner p) := h.rd_port he hp (off := 0xC) (by decide) _ _
  simp only [State.syncPacket, hd, h.place, h.rd_jobId he]

theorem Fanned.rd_seam {d b : Nat} (hb : b ∈ hubBundles d) : u.rd (seamRole b) = s.rd (seamRole b) ∧ u.rd (seamState b) = s.rd (seamState b) := by
  have hlt : b < 72 := by
    simp only [hubBundles] at hb
    split_ifs at hb <;> simp at hb <;> omega
  have hw : ¬ FiringWord l (seamB b 0) :=
    not_firingWord_low he (by simp only [seamB]; omega) (by simp only [seamB]; omega) (by simp only [seamB]; omega)
  exact ⟨h.rd hw, h.rd hw⟩

theorem Fanned.legHeld (d : Nat) : u.legHeld d = s.legHeld d := by
  have hheld : ∀ k, u.controlHeld (hubBundles k) = s.controlHeld (hubBundles k) := fun k => by
    rw [Bool.eq_iff_iff, State.controlHeld, State.controlHeld, List.any_eq_true, List.any_eq_true]
    refine exists_congr fun b => and_congr_right fun hm => ?_
    rw [(h.rd_seam he hm).1, (h.rd_seam he hm).2]
  have hlost : ∀ k, u.controlLost (hubBundles k) = s.controlLost (hubBundles k) := fun k => by
    rw [State.controlLost, State.controlLost]
    congr 2
    rw [Bool.eq_iff_iff, List.any_eq_true, List.any_eq_true]
    refine exists_congr fun b => and_congr_right fun hm => ?_
    rw [(h.rd_seam he hm).1, (h.rd_seam he hm).2]
  simp only [State.legHeld, hheld, hlost]

/-! Credits of a port. -/

theorem Fanned.poolOf {p : Nat} (hp : p < 16) (k : Packet) : u.poolOf p k = s.poolOf p k := by
  have hl : u.rd (fabLevel p) = s.rd (fabLevel p) := h.rd_port he hp (off := 0) (by decide) _ _
  simp only [State.poolOf, hl]

theorem Fanned.poolFree {p : Nat} (hp : p < 16) (hq : p ∉ qs) (key : Nat) : u.poolFree p key = s.poolFree p key := by
  have hl : u.rd (fabLevel p) = s.rd (fabLevel p) := h.rd_port he hp (off := 0) (by decide) _ _
  simp only [State.poolFree, State.granted, State.reserved, hl, h.fport p hq, h.fabRsv]

end Congr

/-- The packets of a port that stand before one of it, among all that wait or among the port's. -/
theorem any_takeWhile_waiting (q : FabHeld) (g : FabHeld → Bool) (xs : List FabHeld) :
    ((xs.takeWhile fun x => decide (x ≠ q)).any fun x => decide (x.port = q.port) && g x) =
      ((xs.filter fun x => decide (x.port = q.port)).takeWhile fun x => decide (x ≠ q)).any g := by
  induction xs with
  | nil => rfl
  | cons x xs ih =>
    simp only [ne_eq, decide_not] at ih ⊢
    by_cases hp : x.port = q.port
    · rw [List.filter_cons_of_pos (by simp [hp])]
      by_cases hx : x = q
      · simp [hx]
      · simp [hx, hp, ih]
    · have hx : x ≠ q := fun e => hp (e ▸ rfl)
      rw [List.filter_cons_of_neg (by simp [hp])]
      simp [hx, hp, ih]

/-- A packet of this device may leave by a port that is Up, where the port's own earlier packets and credits let it (R353, R357). -/
theorem State.mayLeave_eq (s : State) (p : Nat) (k : Packet) : s.mayLeave ⟨p, none, k⟩ = (s.portUp p &&
    !(((s.waitsAt p).takeWhile fun x => decide (x ≠ ⟨p, none, k⟩)).any fun x => decide (s.poolOf p x.pkt = s.poolOf p k)) &&
      decide (k.cost ≤ s.poolFree p (s.poolOf p k)) && true) := by
  rw [State.waitsAt, ← any_takeWhile_waiting ⟨p, none, k⟩]
  have hp : ∀ x : FabHeld, (decide (x.port = p) && decide (s.poolOf x.port x.pkt = s.poolOf p k)) =
      (decide (x.port = p) && decide (s.poolOf p x.pkt = s.poolOf p k)) := fun x => by
    by_cases hx : x.port = p <;> simp [hx]
  simp only [← hp]
  rfl

/-- Whether it may does not change with what other ports send. -/
theorem Fanned.mayLeave {l : TallyLoc} {qs : List Nat} {s u : State} (he : l.exists' = true) (h : Fanned (FiringWord l) qs s u) {p : Nat}
    (hp : p < 16) (hq : p ∉ qs) (k : Packet) : u.mayLeave ⟨p, none, k⟩ = s.mayLeave ⟨p, none, k⟩ := by
  have hup : u.portUp p = s.portUp p := by
    have hst : u.rd (fabState p) = s.rd (fabState p) := h.rd_port he hp (off := 8) (by decide) _ _
    simp only [State.portUp, hst]
  simp only [State.mayLeave_eq, hup, h.waits p hq, h.poolOf he hp, h.poolFree he hp hq]

/-! A firing's packets. -/

/-- Where a Sync packet for port `p` is in state `u`, by the state `s` of the firing: held for the control bundle, on its way by the port, or
waiting there for its credits (R240, R357). -/
def PortTakes (s u : State) (p : Nat) (k : Packet) : Prop :=
  if s.legHeld (5 + p / 8) then (p, k) ∈ u.syncHeld else if s.mayLeave ⟨p, none, k⟩ then (p, k) ∈ u.fabTx else ⟨p, none, k⟩ ∈ u.fabWait

/-- A packet is still there after increments that concern other ports. -/
theorem PortTakes.mono {s t u : State} {p : Nat} {k : Packet} (h : PortTakes s t p k) {W : Nat → Prop} {qs : List Nat}
    (hu : Fanned W qs t u) (hq : p ∉ qs) : PortTakes s u p k := by
  unfold PortTakes at h ⊢
  split_ifs at h ⊢
  · exact hu.held h
  · exact hu.tx h
  · have hm : (⟨p, none, k⟩ : FabHeld) ∈ u.waitsAt p := by
      rw [hu.waits p hq]
      exact List.mem_filter.2 ⟨h, by simp⟩
    exact List.mem_of_mem_filter hm

/-- A port that is Up and whose fence passes the job takes the packet (R237). -/
theorem State.fanPort_takes {s : State} {p : Nat} (idx : Nat) (hup : s.rd (fabState p) = 6) (hf : s.fencePasses p 0 (s.rd jobId) = true) :
    PortTakes s (s.fanPort idx p) p (s.syncPacket p idx 1) := by
  rw [State.fanPort, if_neg (not_not_intro hup), hf, if_neg (by simp)]
  unfold PortTakes
  split_ifs with hheld hmay
  · simp
  · rw [State.fabSend_leaves hmay]
    exact State.mem_leave_fabTx s ⟨p, none, s.syncPacket p idx 1⟩
  · rw [State.fabSend_waits (by simpa using hmay)]
    simp

/-! The fan-outs of Table 8.3. -/

/-- The downward increments of a crate tally. -/
def State.tileFan (s : State) (c n : Nat) : State :=
  if s.rd ⟨crateReg c (0x1008 + 16 * n), 22, 1⟩ = 1 then
    (s.members (crateReg c (0x40 + 8 * s.rd ⟨crateReg c (0x1008 + 16 * n), 24, 3⟩)) 64).foldl
      (fun s t => s.fanTo (.crate c n) (.tile (64 * c + t) (s.rd ⟨crateReg c (0x1008 + 16 * n), 16, 6⟩)) (some (64 * c + t))) s
  else s

/-- The downward increments of a die tally. -/
def State.crateFan (s : State) (k n : Nat) : State :=
  if s.rd ⟨0x400004 + 0x8000 * k + 8 * n, 24, 1⟩ = 1 then
    (s.members (0x438000 + 0x80 * k + 16 * s.rd ⟨0x400004 + 0x8000 * k + 8 * n, 26, 3⟩) 96).foldl
      (fun s c => s.fanTo (.die k n) (.crate (96 * k + c) (s.rd ⟨0x400004 + 0x8000 * k + 8 * n, 16, 8⟩)) (some (64 * (96 * k + c)))) s
  else s

/-- The downward increments of a package tally. -/
def State.dieFan (s : State) (n : Nat) : State :=
  ((List.range 4).filter fun k => bitAt (s.rd ⟨0x430000 + 16 * n + 8, 16, 4⟩) k).foldl
    (fun s k => s.fanTo (.pkg n) (.die k (s.rd ⟨0x430000 + 16 * n + 4, 16, 12⟩)) none) s

/-- The ports that a package tally fires through. -/
def State.fanPorts (s : State) (n : Nat) : List Nat := (List.range 16).filter fun p => bitAt (s.rd ⟨0x430000 + 16 * n + 8, 0, 16⟩) p

/-- The outward increments of a package tally with number `idx` at the far ends. -/
def State.portFan (s : State) (n idx : Nat) : State := (s.fanPorts n).foldl (fun s p => s.fanPort idx p) s

/-- After its downward increments a crate tally sends its upward one. -/
theorem fanned_fan_crate (s : State) (c n : Nat) : Fanned FanWord [] (s.tileFan c n) (s.fan (.crate c n)) := by
  show Fanned FanWord [] (s.tileFan c n) (if (s.tileFan c n).rd ⟨crateReg c (0x1008 + 16 * n), 23, 1⟩ = 1 then _ else s.tileFan c n)
  split
  · split
    · exact .fanTo ..
    · exact .dropInc _
  · exact .refl ..

theorem fanned_fan_die (s : State) (k n : Nat) : Fanned FanWord [] (s.crateFan k n) (s.fan (.die k n)) := by
  show Fanned FanWord [] (s.crateFan k n) (if (s.crateFan k n).rd ⟨0x400004 + 0x8000 * k + 8 * n, 25, 1⟩ = 1 then _ else s.crateFan k n)
  split
  · exact .fanTo ..
  · exact .refl ..

/-- After its outward increments a package tally sends the one to its own package. -/
theorem fanned_fan_pkg (s : State) (n : Nat) :
    Fanned FanWord [] ((s.dieFan n).portFan n (s.rd ⟨0x430000 + 16 * n + 12, 0, 10⟩)) (s.fan (.pkg n)) := by
  show Fanned FanWord [] ((s.dieFan n).portFan n (s.rd ⟨0x430000 + 16 * n + 12, 0, 10⟩))
    (if ((s.dieFan n).portFan n (s.rd ⟨0x430000 + 16 * n + 12, 0, 10⟩)).rd ⟨0x430000 + 16 * n + 8, 20, 1⟩ = 1 then _ else _)
  split
  · exact .fanTo ..
  · exact .refl ..

theorem fanned_tileFan (s : State) (c n : Nat) : Fanned FanWord [] s (s.tileFan c n) := by
  unfold State.tileFan
  split
  · exact .foldl (fun _ _ _ => .fanTo ..) s
  · exact .refl ..

theorem fanned_crateFan (s : State) (k n : Nat) : Fanned FanWord [] s (s.crateFan k n) := by
  unfold State.crateFan
  split
  · exact .foldl (fun _ _ _ => .fanTo ..) s
  · exact .refl ..

theorem fanned_dieFan (s : State) (n : Nat) : Fanned FanWord [] s (s.dieFan n) := .foldl (fun _ _ _ => .fanTo ..) s

theorem lt_of_mem_fanPorts {s : State} {n p : Nat} (h : p ∈ s.fanPorts n) : p < 16 := List.mem_range.1 (List.mem_of_mem_filter h)

theorem fanned_foldl_fanPort (idx : Nat) {ps : List Nat} (hp : ∀ p ∈ ps, p < 16) (s : State) :
    Fanned FanWord ps s (ps.foldl (fun s p => s.fanPort idx p) s) :=
  .foldl (fun p hm _ => (Fanned.fanPort idx (hp p hm)).mono (fun _ => id) (by simpa using hm)) s

theorem fanned_portFan (s : State) (n idx : Nat) : Fanned FanWord (List.range 16) s (s.portFan n idx) :=
  (fanned_foldl_fanPort idx (fun _ => lt_of_mem_fanPorts) s).mono (fun _ => id) fun _ hp => List.mem_range.2 (lt_of_mem_fanPorts hp)

theorem fanned_fan (s : State) (l : TallyLoc) : Fanned FanWord (List.range 16) s (s.fan l) := by
  cases l with
  | tile t n => exact .refl ..
  | crate c n => exact ((fanned_tileFan s c n).trans (fanned_fan_crate s c n)).ofNone
  | die k n => exact ((fanned_crateFan s k n).trans (fanned_fan_die s k n)).ofNone
  | pkg n => exact ((fanned_dieFan s n).ofNone.trans (fanned_portFan _ n _)).trans (fanned_fan_pkg s n).ofNone

/-! What a firing sends, in terms of the state `s` in which its tally may fire; in `u` VALUE and GEN have changed. -/

/-- A word of the tally block or above it, other than the tally's own and the unit's counters. -/
theorem not_firingWord_cfg {l : TallyLoc} {a : Nat} (hv : a ≠ l.value.a) (ha : 0x2B0140 ≤ a) (hc : a < 0x439000 ∨ 0x439008 < a) :
    ¬ FiringWord l a := by
  rintro (h | h)
  · exact hv h
  · have := h.bounds
    omega

/-- A tally whose unit is on is sent its increment, whatever the others of the fan-out are (R236). -/
theorem mem_incs_foldl_fanTo {l : TallyLoc} {s u : State} (he : l.exists' = true) (h : Fanned (FiringWord l) [] s u) {xs : List Nat} {x : Nat}
    (hx : x ∈ xs) {m : State → Nat → TallyLoc} {r : Nat → Option Nat} (hm : ∀ v, Fanned (FiringWord l) [] s v → m v x = m s x)
    (hex : (m s x).exists' = true) (hon : s.tallyOn (m s x) = true) :
    ⟨(m s x).addr, r x, 1, 3, l.addr, l.onDie⟩ ∈ (xs.foldl (fun v x => v.fanTo l (m v x) (r x)) u).incs := by
  have hstep : ∀ (ys : List Nat) v, Fanned FanWord [] v (ys.foldl (fun v x => v.fanTo l (m v x) (r x)) v) := fun _ v =>
    .foldl (fun _ _ _ => .fanTo ..) v
  obtain ⟨ys, zs, rfl⟩ := List.append_of_mem hx
  have hv := h.append (hstep ys u)
  rw [List.foldl_append, List.foldl_cons, State.fanTo, hm _ hv, if_pos ((hv.tallyOn he hex).trans hon)]
  exact (hstep zs _).incs (by simp)

section Sends
variable {s u : State}

theorem mem_incs_tileFan {c n : Nat} (he : (TallyLoc.crate c n).exists' = true) (h : Fanned (FiringWord (.crate c n)) [] s u)
    (hon : s.crateOn c = true) (hen : s.rd ⟨crateReg c (0x1008 + 16 * n), 22, 1⟩ = 1) {t : Nat}
    (ht : t ∈ s.members (crateReg c (0x40 + 8 * s.rd ⟨crateReg c (0x1008 + 16 * n), 24, 3⟩)) 64) :
    ⟨s.rd ⟨crateReg c (0x1008 + 16 * n), 16, 6⟩, some (64 * c + t), 1, 3, (TallyLoc.crate c n).addr, (TallyLoc.crate c n).onDie⟩ ∈
      (u.tileFan c n).incs := by
  obtain ⟨hc, hn⟩ : c < 384 ∧ n < 256 := by simpa [TallyLoc.exists'] using he
  have hcfg : ∀ {W v}, Fanned (FiringWord (.crate c n)) W s v → ∀ lo w,
      v.rd ⟨crateReg c (0x1008 + 16 * n), lo, w⟩ = s.rd ⟨crateReg c (0x1008 + 16 * n), lo, w⟩ := fun hv lo w =>
    hv.rd (not_firingWord_cfg (by simp [TallyLoc.value]) (by simp only [crateReg]; omega) (by simp only [crateReg]; omega))
  have hsel := rd_lt s ⟨crateReg c (0x1008 + 16 * n), 24, 3⟩
  have htile := lt_of_mem_members ht
  rw [State.tileFan, hcfg h, if_pos hen, hcfg h, h.members fun i hi => not_firingWord_cfg
    (by simp only [TallyLoc.value, crateReg] at hsel ⊢; omega) (by simp only [crateReg]; omega) (by simp only [crateReg]; omega)]
  refine mem_incs_foldl_fanTo he h ht (m := fun v t => .tile (64 * c + t) (v.rd ⟨crateReg c (0x1008 + 16 * n), 16, 6⟩))
    (fun v hv => by rw [hcfg hv]) ?_ ?_
  · have hidx := rd_lt s ⟨crateReg c (0x1008 + 16 * n), 16, 6⟩
    simp only [TallyLoc.exists', Bool.and_eq_true, decide_eq_true_eq] at hidx ⊢
    omega
  · rw [State.tallyOn, State.tileOn, show (64 * c + t) / 64 = c by omega, hon]

theorem mem_incs_crateFan {k n : Nat} (he : (TallyLoc.die k n).exists' = true) (h : Fanned (FiringWord (.die k n)) [] s u)
    (hen : s.rd ⟨0x400004 + 0x8000 * k + 8 * n, 24, 1⟩ = 1) {c : Nat}
    (hc : c ∈ s.members (0x438000 + 0x80 * k + 16 * s.rd ⟨0x400004 + 0x8000 * k + 8 * n, 26, 3⟩) 96) (hon : s.crateOn (96 * k + c) = true) :
    ⟨2 ^ 14 + s.rd ⟨0x400004 + 0x8000 * k + 8 * n, 16, 8⟩, some (64 * (96 * k + c)), 1, 3, (TallyLoc.die k n).addr,
      (TallyLoc.die k n).onDie⟩ ∈ (u.crateFan k n).incs := by
  obtain ⟨hk, hn⟩ : k < 4 ∧ n < 4096 := by simpa [TallyLoc.exists'] using he
  have hcfg : ∀ {W v}, Fanned (FiringWord (.die k n)) W s v → ∀ lo w,
      v.rd ⟨0x400004 + 0x8000 * k + 8 * n, lo, w⟩ = s.rd ⟨0x400004 + 0x8000 * k + 8 * n, lo, w⟩ := fun hv lo w =>
    hv.rd (not_firingWord_cfg (by simp only [TallyLoc.value]; omega) (by simp only; omega) (by simp only; omega))
  have hsel := rd_lt s ⟨0x400004 + 0x8000 * k + 8 * n, 26, 3⟩
  have hcrate := lt_of_mem_members hc
  simp only at hsel
  rw [State.crateFan, hcfg h, if_pos hen, hcfg h, h.members fun i hi => not_firingWord_cfg
    (by simp only [TallyLoc.value]; omega) (by omega) (by omega)]
  refine mem_incs_foldl_fanTo he h hc (m := fun v c => .crate (96 * k + c) (v.rd ⟨0x400004 + 0x8000 * k + 8 * n, 16, 8⟩))
    (fun v hv => by rw [hcfg hv]) ?_ hon
  have hidx := rd_lt s ⟨0x400004 + 0x8000 * k + 8 * n, 16, 8⟩
  simp only [TallyLoc.exists', Bool.and_eq_true, decide_eq_true_eq] at hidx ⊢
  omega

/-- The configuration of a package tally stays while it fires. -/
theorem Fanned.rd_pkgCfg {n : Nat} {qs : List Nat} (he : (TallyLoc.pkg n).exists' = true) (h : Fanned (FiringWord (.pkg n)) qs s u) {off : Nat}
    (h0 : 0 < off) (h1 : off < 16) (lo w : Nat) : u.rd ⟨0x430000 + 16 * n + off, lo, w⟩ = s.rd ⟨0x430000 + 16 * n + off, lo, w⟩ := by
  have hn : n < 1024 := by simpa [TallyLoc.exists'] using he
  exact h.rd (not_firingWord_cfg (by simp only [TallyLoc.value]; omega) (by simp only; omega) (by simp only; omega))

/-- Two ways to write the address of such a word. -/
theorem pkgCfg_addr (n off : Nat) : 0x430000 + off + 16 * n = 0x430000 + 16 * n + off := by omega

theorem mem_incs_dieFan {k n : Nat} (he : (TallyLoc.pkg n).exists' = true) (h : Fanned (FiringWord (.pkg n)) [] s u) (hk : k < 4)
    (hen : bitAt (s.rd ⟨0x430008 + 16 * n, 16, 4⟩) k = true) (hon : s.domPowered (16 + k) = true) :
    ⟨2 ^ 15 + k * 2 ^ 12 + s.rd ⟨0x430004 + 16 * n, 16, 12⟩, none, 1, 3, (TallyLoc.pkg n).addr,
      (TallyLoc.pkg n).onDie⟩ ∈ (u.dieFan n).incs := by
  rw [pkgCfg_addr n 8] at hen
  rw [pkgCfg_addr n 4]
  have hmem : k ∈ (List.range 4).filter fun k => bitAt (u.rd ⟨0x430000 + 16 * n + 8, 16, 4⟩) k := by
    rw [List.mem_filter, h.rd_pkgCfg he (by decide) (by decide)]
    exact ⟨List.mem_range.2 hk, hen⟩
  refine mem_incs_foldl_fanTo he h hmem (m := fun v k => .die k (v.rd ⟨0x430000 + 16 * n + 4, 16, 12⟩)) (r := fun _ => none)
    (fun v hv => by rw [hv.rd_pkgCfg he (by decide) (by decide)]) ?_ hon
  have hidx := rd_lt s ⟨0x430000 + 16 * n + 4, 16, 12⟩
  simp only [TallyLoc.exists', Bool.and_eq_true, decide_eq_true_eq] at hidx ⊢
  omega

end Sends

/-- What a port takes is judged the same before and after increments that concern other ports. -/
theorem PortTakes.congr {l : TallyLoc} {qs : List Nat} {s t u : State} (he : l.exists' = true) (h : Fanned (FiringWord l) qs s t) {p : Nat}
    (hp : p < 16) (hq : p ∉ qs) {k : Packet} (ht : PortTakes t u p k) : PortTakes s u p k := by
  rwa [PortTakes, h.legHeld he, h.mayLeave he hp hq] at ht

/-- Each enabled port that is Up and whose fence passes the job takes a SYNC_INC. -/
theorem portFan_takes {l : TallyLoc} {s u : State} (he : l.exists' = true) (h : Fanned (FiringWord l) [] s u) {n p : Nat} (hp : p ∈ u.fanPorts n)
    (hup : s.rd (fabState p) = 6) (hf : s.fencePasses p 0 (s.rd jobId) = true) (idx : Nat) :
    PortTakes s (u.portFan n idx) p (s.syncPacket p idx 1) := by
  obtain ⟨ys, zs, hsplit⟩ := List.append_of_mem hp
  have hlt : ∀ x ∈ ys ++ p :: zs, x < 16 := fun x hx => lt_of_mem_fanPorts (hsplit ▸ hx)
  have hp16 := lt_of_mem_fanPorts hp
  have hnd : (ys ++ p :: zs).Nodup := hsplit ▸ List.nodup_range.filter _
  have hout := (List.nodup_cons.1 (List.nodup_middle.1 hnd)).1
  rw [List.mem_append, not_or] at hout
  rw [State.portFan, hsplit, List.foldl_append, List.foldl_cons]
  have ht := h.append (fanned_foldl_fanPort idx (ps := ys) (fun x hx => hlt x (by simp [hx])) u)
  rw [← ht.rd_jobId he, ← ht.fencePasses he hp16] at hf
  have htake := State.fanPort_takes idx ((ht.rd_port he hp16 (off := 8) (by decide) _ _).trans hup) hf
  rw [ht.syncPacket he hp16] at htake
  exact (htake.congr he ht hp16 hout.1).mono (fanned_foldl_fanPort idx (fun x hx => hlt x (by simp [hx])) _) hout.2

/-! The firing. -/

/-- VALUE loses TARGET and GEN advances (R234). -/
def State.countFiring (s : State) (l : TallyLoc) : State :=
  let s := s.wr l.value (s.rd l.value - s.rd l.target)
  s.wr l.gen (s.rd l.gen + 1)

theorem fanned_countFiring (s : State) (l : TallyLoc) : Fanned (FiringWord l) [] s (s.countFiring l) :=
  (Fanned.wr (.inl rfl) _).trans (.wr (.inl l.gen_a) _)

/-- A tally that can fire has a GEN. -/
theorem gen_w_of_canFire {s : State} {l : TallyLoc} (h : s.canFire l = true) : l.gen.w = 16 := by
  cases l with
  | tile t n => simp [State.canFire] at h
  | _ => rfl

theorem rd_value_countFiring (s : State) (l : TallyLoc) : (s.countFiring l).rd l.value = s.rd l.value - s.rd l.target := by
  have hgen : l.gen.lo + l.gen.w ≤ 32 := by cases l <;> simp [TallyLoc.gen]
  have hv := rd_lt s l.value
  rw [State.countFiring, rd_wr_of_apart _ _ hgen (.inr (.inl (by simp))), rd_wr_same _ _ _ (by simp)]
  exact Nat.mod_eq_of_lt (by omega)

theorem rd_gen_countFiring {s : State} {l : TallyLoc} (h : s.canFire l = true) : (s.countFiring l).rd l.gen = (s.rd l.gen + 1) % 65536 := by
  rw [State.countFiring, rd_wr_same _ _ _ (by simp [gen_w_of_canFire h]), rd_gen_wr_value, gen_w_of_canFire h]
  rfl

/-- While no plan runs, nothing watches a firing. -/
theorem exec_tallyFire_unplanned {l : TallyLoc} {s : State} (he : l.exists' = true) (hf : s.canFire l = true) (hp : s.planRun = none) :
    exec (.tallyFire l) s = .next ((s.countFiring l).fan l) := by
  have hno : ((s.countFiring l).fan l).planRun = none :=
    ((fanned_fan _ l).planRun.trans (fanned_countFiring s l).planRun).trans hp
  have hend : ((s.countFiring l).fan l).firedEnd l.addr = (s.countFiring l).fan l := by rw [State.firedEnd, hno]
  have hstart : ((s.countFiring l).fan l).firedStart l.addr = (s.countFiring l).fan l := by rw [State.firedStart, hno]
  rw [exec_tallyFire, execTallyFire, hf, he]
  show Host.Outcome.next ((((s.countFiring l).fan l).firedEnd l.addr).firedStart l.addr) = _
  rw [hend, hstart]

/-- Settles O26: the tally's own count, then the increments of its level, each over those sent before and after it. -/
theorem talliesFireIntoTheirFans : Obligations.TalliesFireIntoTheirFans := by
  intro l s he hf hp
  have hcount := fanned_countFiring s l
  have hfan := fanned_fan (s.countFiring l) l
  have hall := hcount.append hfan
  have hval := not_fanWord_value he
  refine ⟨_, exec_tallyFire_unplanned he hf hp, (hfan.rd hval).trans (rd_value_countFiring s l),
    (hfan.rd (by rwa [TallyLoc.gen_a])).trans (rd_gen_countFiring hf), hall.sameMemory, ?regs, ?crate, ?die, ?pkg⟩
  case regs =>
    intro a hv hc hd ht
    refine hall.reg a ?_
    rintro (h | h | ⟨p, hp, h⟩ | ⟨v, hv, h⟩)
    · exact hv h
    · omega
    · exact hd p hp h
    · exact h.elim (ht v hv).1 (ht v hv).2
  case crate =>
    rintro c n rfl hen t ht
    have hon : s.crateOn c = true := by
      simp only [State.canFire, Bool.and_eq_true] at hf
      exact hf.1.1.1.2
    exact (fanned_fan_crate _ c n).incs (mem_incs_tileFan he hcount hon hen ht)
  case die =>
    rintro k n rfl hen c hc hon
    exact (fanned_fan_die _ k n).incs (mem_incs_crateFan he hcount hen hc hon)
  case pkg =>
    rintro n rfl
    have hport := fanned_fan_pkg (s.countFiring (.pkg n)) n
    have hlast := (fanned_portFan ((s.countFiring (.pkg n)).dieFan n) n
      ((s.countFiring (.pkg n)).rd ⟨0x430000 + 16 * n + 12, 0, 10⟩)).trans hport.ofNone
    refine ⟨fun k hk hen hon => hlast.incs (mem_incs_dieFan he hcount hk hen hon), fun p hp hen hup hfence => ?_⟩
    have hdies := hcount.append (fanned_dieFan (s.countFiring (.pkg n)) n)
    have hmem : p ∈ ((s.countFiring (.pkg n)).dieFan n).fanPorts n := by
      rw [pkgCfg_addr n 8] at hen
      rw [State.fanPorts, List.mem_filter, hdies.rd_pkgCfg he (by decide) (by decide)]
      exact ⟨List.mem_range.2 hp, hen⟩
    have htake := (portFan_takes he hdies hmem hup hfence _).mono hport (by simp)
    rw [hcount.rd_pkgCfg he (by decide) (by decide), ← pkgCfg_addr n 12] at htake
    exact htake

end Sys2Proof.Machine
end

section
/-! SUPPORT. A stack whose two throttle thresholds stand in the wrong order (R272, R594); refutes O31. -/
namespace Sys2Proof.Machine

theorem exec_stackTemperatureChange {st : StackId} {t : Fin 256} {s : State} (hlive : s.celLive st = true) (hready : s.on (celReady st) = true) :
    exec (.stackTemperatureChange st t) s = .next ((s.wr (celTemp st) t).stackThermal st) := by
  show execStackTemperatureChange st t s = _
  rw [execStackTemperatureChange, hlive, hready]
  rfl

/-- Stack 0 is trained and throttled, on a die that is on. Its THROTTLE_C is 85 and its RELEASE_C 95: no write of THERM leaves such a pair
(R594), and no hypothesis of the statement asks for RELEASE_C below THROTTLE_C. -/
def crossedState : State := { State.reset with regs := [((domState 16).a, 0x20#32), (cel 0 0, 3#32), (cel 0 8, 0x64005F55#32)] }

theorem crossedState_thresholds : crossedState.rd (celThrottleC 0) = 85 ∧ crossedState.rd (celReleaseC 0) = 95 ∧ crossedState.on (celThrottle 0) = true := by
  decide +kernel

/-- At 90 degrees, above the one threshold and below the other, the throttle is released. -/
theorem crossedState_released : ((crossedState.wr (celTemp 0) 90).stackThermal 0).on (celThrottle 0) = false := by decide +kernel

/-- Refutes O31, by its clause of the throttle: the statement speaks of every state, and in `crossedState` the stack reads a temperature above
THROTTLE_C that is not above RELEASE_C, so the throttle that is in force is released. -/
theorem not_stackTemperatureSetsRefreshAndThrottle : ¬ Obligations.StackTemperatureSetsRefreshAndThrottle := by
  intro h
  have hlive : crossedState.celLive 0 = true := by decide +kernel
  have hready : crossedState.on (celReady 0) = true := by decide +kernel
  obtain ⟨u, hu, -, -, -, -, -, -, -, hthrottled, -⟩ := h 0 90 crossedState hlive hready
  obtain ⟨hcold, -, -⟩ := crossedState_thresholds
  have huv : u = (crossedState.wr (celTemp 0) 90).stackThermal 0 :=
    Host.Outcome.next.inj (hu.symm.trans (exec_stackTemperatureChange hlive hready))
  have hon : u.on (celThrottle 0) = true := (hthrottled (by rw [show celThrottleC (0 : StackId) = celThrottleC 0 from rfl, hcold]; decide)).1
  rw [huv] at hon
  exact Bool.false_ne_true (crossedState_released.symm.trans hon)

end Sys2Proof.Machine
end

section
/-! SUPPORT. The operation writes of Table 9.1 on a plain line: bytes overlaid on a list, the elements of a write one after another, what an
operation makes of an element, and the count of elements written in part; settles O28 (R253, R254, R255). -/
namespace Sys2Proof.Machine

/-- The thirteen commands are one operation write with their opcodes. -/
theorem exec_of_mem_opRows {p : Nat × (Nat → List Byte → Instr)} (hp : p ∈ opRows) :
    p.1 ≤ 13 ∧ ∀ a bs s, exec (p.2 a bs) s = s.opWrite p.1 a bs := by
  simp only [opRows, List.mem_cons, List.not_mem_nil, or_false] at hp
  obtain rfl | rfl | rfl | rfl | rfl | rfl | rfl | rfl | rfl | rfl | rfl | rfl | rfl := hp <;> exact ⟨by decide, fun _ _ _ => rfl⟩

theorem exec_opAliasReserved (a : Nat) (bs : List Byte) (s : State) : exec (.opAliasReserved a bs) s = s.opWrite 14 a bs := rfl

/-! Bytes overlaid on a list. -/

section Overlay
variable {old bs : List Byte} {i : Nat}

theorem length_overlay (h : i + bs.length ≤ old.length) : (overlay old i bs).length = old.length := by
  simp only [overlay, List.length_append, List.length_take, List.length_drop]
  omega

theorem getElem?_overlay_outside (h : i ≤ old.length) {j : Nat} (hj : j < i ∨ i + bs.length ≤ j) : (overlay old i bs)[j]? = old[j]? := by
  have htake : (old.take i).length = i := List.length_take_of_le h
  rw [overlay, List.append_assoc]
  obtain hlo | hhi := hj
  · rw [List.getElem?_append_left (by omega), List.getElem?_take_of_lt hlo]
  · rw [List.getElem?_append_right (by omega), List.getElem?_append_right (by omega), List.getElem?_drop, htake]
    congr 1
    omega

theorem take_drop_overlay (h : i ≤ old.length) : ((overlay old i bs).drop i).take bs.length = bs := by
  rw [overlay, List.append_assoc, List.drop_append_of_le_length (by rw [List.length_take_of_le h]), List.drop_take, Nat.sub_self, List.take_zero,
    List.nil_append, List.take_left]

end Overlay

/-- Lists that agree on `n` places from `i` on have the same segment there. -/
theorem take_drop_congr {xs ys : List Byte} {i n : Nat} (h : ∀ j, i ≤ j → j < i + n → xs[j]? = ys[j]?) : (xs.drop i).take n = (ys.drop i).take n :=
  List.ext_getElem? fun j => by
    simp only [List.getElem?_take, List.getElem?_drop]
    split
    · exact h _ (by omega) (by omega)
    · rfl

/-- A part of a written run reads as that part of what was written. -/
theorem readBytes_writeBytes_within (m : List Host.Cell) {a x n : Nat} {bs : List Byte} (hlo : a ≤ x) (hhi : x + n ≤ a + bs.length) :
    readBytes (writeBytes m a bs) x n = (bs.drop (x - a)).take n := by
  refine List.ext_getElem (by simp; omega) fun i h1 h2 => ?_
  have hi : i < n := by simpa using h1
  rw [getElem_readBytes, List.getElem_take, List.getElem_drop, show x + i = a + (x - a + i) by omega, readByte_writeBytes_same]

theorem take_drop_readBytes (m : List Host.Cell) {a x k n : Nat} (hlo : a ≤ x) (hhi : x + n ≤ a + k) :
    ((readBytes m a k).drop (x - a)).take n = readBytes m x n := by
  refine List.ext_getElem (by simp; omega) fun i h1 h2 => ?_
  rw [List.getElem_take, List.getElem_drop, getElem_readBytes, getElem_readBytes]
  congr 1
  omega

/-! The elements of a write (R254). -/

/-- The address of the `i`th element that a write at `a` touches. -/
def elemAddr (opc a i : Nat) : Nat := opElem opc * (a / opElem opc + i)

/-- Does a write of `n` bytes at `a` cover its `i`th element in part only? -/
def inPart (opc a n i : Nat) : Bool := decide (elemAddr opc a i < a ∨ a + n < elemAddr opc a i + opElem opc)

theorem inPart_iff {opc a n i : Nat} : inPart opc a n i = true ↔ elemAddr opc a i < a ∨ a + n < elemAddr opc a i + opElem opc := decide_eq_true_iff

/-- The `i`th element is combined, or counted when it is written in part. -/
def combineElem (opc a : Nat) (bs : List Byte) (q : List Byte × Nat) (i : Nat) : List Byte × Nat :=
  if inPart opc a bs.length i then (q.1, q.2 + 1)
  else (overlay q.1 (elemAddr opc a i - a) (toBytes (opElem opc) (opElement opc (ofBytes ((q.1.drop (elemAddr opc a i - a)).take (opElem opc)))
    (ofBytes ((bs.drop (elemAddr opc a i - a)).take (opElem opc))))), q.2)

/-- The bytes and the count after the first `k` elements. -/
def combineUpTo (opc a : Nat) (old bs : List Byte) (k : Nat) : List Byte × Nat := (List.range k).foldl (combineElem opc a bs) (old, 0)

/-- How many elements a write of `n` bytes at `a` touches. -/
def elemCount (opc a n : Nat) : Nat := (a + n - 1) / opElem opc + 1 - a / opElem opc

theorem combine_clean (opc a : Nat) (old bs : List Byte) : combine opc a old bs (fun _ => false) = combineUpTo opc a old bs (elemCount opc a bs.length) := by
  have helem : ∀ q i, combineElem opc a bs q i =
      if elemAddr opc a i < a ∨ a + bs.length < elemAddr opc a i + opElem opc then (q.1, q.2 + 1)
      else (overlay q.1 (elemAddr opc a i - a) (toBytes (opElem opc) (opElement opc (ofBytes ((q.1.drop (elemAddr opc a i - a)).take (opElem opc)))
        (ofBytes ((bs.drop (elemAddr opc a i - a)).take (opElem opc))))), q.2) := fun q i => by simp only [combineElem, inPart_iff]
  rw [combineUpTo, funext₂ helem]
  simp only [combine, Bool.false_eq_true, if_false]
  rfl

theorem combineUpTo_succ (opc a : Nat) (old bs : List Byte) (k : Nat) :
    combineUpTo opc a old bs (k + 1) = combineElem opc a bs (combineUpTo opc a old bs k) k := by
  simp only [combineUpTo, List.range_succ, List.foldl_append, List.foldl_cons, List.foldl_nil]

theorem opElem_cases (opc : Nat) : opElem opc = 1 ∨ opElem opc = 2 ∨ opElem opc = 4 ∨ opElem opc = 8 := by
  unfold opElem
  split_ifs <;> decide

theorem opElem_pos (opc : Nat) : 0 < opElem opc := by have := opElem_cases opc; omega

theorem elemAddr_add_le {opc a i k : Nat} (h : i < k) : elemAddr opc a i + opElem opc ≤ elemAddr opc a k := by
  calc opElem opc * (a / opElem opc + i) + opElem opc = opElem opc * (a / opElem opc + i + 1) := rfl
    _ ≤ opElem opc * (a / opElem opc + k) := Nat.mul_le_mul_left _ (by omega)

/-- An aligned element that a write covers whole or in part is one of those it touches. -/
theorem exists_elemAddr {opc a n ea : Nat} (hal : ea % opElem opc = 0) (hlo : a < ea + opElem opc) (hhi : ea < a + n) :
    ∃ i < elemCount opc a n, elemAddr opc a i = ea := by
  have hle : a / opElem opc ≤ ea / opElem opc := by
    have hw := opElem_pos opc
    rw [← Nat.lt_succ_iff, Nat.div_lt_iff_lt_mul hw, Nat.succ_mul, Nat.div_mul_cancel (Nat.dvd_of_mod_eq_zero hal)]
    exact hlo
  have hlast : ea / opElem opc ≤ (a + n - 1) / opElem opc := Nat.div_le_div_right (by omega)
  refine ⟨ea / opElem opc - a / opElem opc, by rw [elemCount]; omega, ?_⟩
  rw [elemAddr, Nat.add_sub_cancel' hle, Nat.mul_div_cancel' (Nat.dvd_of_mod_eq_zero hal)]

section UpTo
variable {opc a : Nat} {old bs : List Byte} (hlen : old.length = bs.length)

theorem snd_combineUpTo (k : Nat) : (combineUpTo opc a old bs k).2 = (List.range k).countP (inPart opc a bs.length) := by
  induction k with
  | zero => rfl
  | succ k ih =>
    rw [combineUpTo_succ, combineElem, List.range_succ, List.countP_append, ← ih, List.countP_singleton]
    split <;> rfl

include hlen

/-- The overlay of a whole element lies within the bytes. -/
theorem whole_within {i : Nat} (h : ¬ inPart opc a bs.length i = true) :
    a ≤ elemAddr opc a i ∧ elemAddr opc a i - a + opElem opc ≤ old.length := by
  rw [inPart_iff] at h
  omega

theorem length_combineUpTo (k : Nat) : (combineUpTo opc a old bs k).1.length = old.length := by
  induction k with
  | zero => rfl
  | succ k ih =>
    rw [combineUpTo_succ, combineElem]
    split
    · exact ih
    · next h => exact (length_overlay (by rw [length_toBytes, ih]; exact (whole_within hlen h).2)).trans ih

/-- A byte outside the first `k` whole elements stays. -/
theorem getElem?_combineUpTo_kept {k j : Nat}
    (h : ∀ i < k, ¬ inPart opc a bs.length i = true → a + j < elemAddr opc a i ∨ elemAddr opc a i + opElem opc ≤ a + j) :
    (combineUpTo opc a old bs k).1[j]? = old[j]? := by
  induction k with
  | zero => rfl
  | succ k ih =>
    have hk := ih fun i hi => h i (by omega)
    rw [combineUpTo_succ, combineElem]
    split
    · exact hk
    · next hw =>
      have hin := whole_within hlen hw
      have hj := h k (by omega) hw
      exact (getElem?_overlay_outside (by rw [length_combineUpTo hlen]; omega) (by rw [length_toBytes]; omega)).trans hk

/-- A whole element among the first `k` is combined with the operand. -/
theorem take_drop_combineUpTo {k i : Nat} (hi : i < k) (hw : ¬ inPart opc a bs.length i = true) :
    ((combineUpTo opc a old bs k).1.drop (elemAddr opc a i - a)).take (opElem opc) =
      toBytes (opElem opc) (opElement opc (ofBytes ((old.drop (elemAddr opc a i - a)).take (opElem opc)))
        (ofBytes ((bs.drop (elemAddr opc a i - a)).take (opElem opc)))) := by
  have hin := whole_within hlen hw
  induction k with
  | zero => omega
  | succ k ih =>
    rw [combineUpTo_succ, combineElem]
    by_cases hik : i = k
    · subst hik
      have hold : ((combineUpTo opc a old bs i).1.drop (elemAddr opc a i - a)).take (opElem opc) =
          (old.drop (elemAddr opc a i - a)).take (opElem opc) := take_drop_congr fun j hlo _ => getElem?_combineUpTo_kept hlen fun i' hi' _ => by
        have := elemAddr_add_le (opc := opc) (a := a) hi'
        omega
      have hset := fun v => take_drop_overlay (old := (combineUpTo opc a old bs i).1) (bs := toBytes (opElem opc) v)
        (i := elemAddr opc a i - a) (by rw [length_combineUpTo hlen]; omega)
      rw [if_neg hw, hold]
      simpa only [length_toBytes] using hset _
    · rw [← ih (by omega)]
      split
      · rfl
      · next hk =>
        have hkin := whole_within hlen hk
        have hlt := elemAddr_add_le (opc := opc) (a := a) (show i < k by omega)
        exact take_drop_congr fun j _ hj => getElem?_overlay_outside (by rw [length_combineUpTo hlen]; omega) (.inl (by omega))

end UpTo

/-- A write of whole elements has none in part. -/
theorem inPart_aligned {opc a n i : Nat} (hpos : 0 < n) (ha : a % opElem opc = 0) (hn : n % opElem opc = 0) (hi : i < elemCount opc a n) :
    inPart opc a n i = false := by
  rw [elemCount] at hi
  rw [Bool.eq_false_iff, ne_eq, inPart_iff, elemAddr]
  obtain h | h | h | h := opElem_cases opc <;> rw [h] at ha hn hi ⊢ <;> omega

/-- A write that is not of whole elements has its first or its last in part. -/
theorem exists_inPart {opc a n : Nat} (hn : 0 < n) (h : a % opElem opc ≠ 0 ∨ n % opElem opc ≠ 0) :
    ∃ i < elemCount opc a n, inPart opc a n i = true := by
  simp only [inPart_iff, elemAddr, elemCount]
  by_cases ha : a % opElem opc = 0
  · refine ⟨(a + n - 1) / opElem opc - a / opElem opc, ?_, .inr ?_⟩ <;>
      obtain hw | hw | hw | hw := opElem_cases opc <;> rw [hw] at ha h ⊢ <;> omega
  · refine ⟨0, ?_, .inl ?_⟩ <;> obtain hw | hw | hw | hw := opElem_cases opc <;> rw [hw] at ha ⊢ <;> omega

/-! What an operation makes of an element (Table 9.1, R255). -/

theorem isNan_addNum {x y : Num} (h : (x.isNan || y.isNan) = true) (fl : Fl) : (addNum x y fl).1 = .nan false := by
  cases x <;> cases y <;> simp [Num.isNan] at h <;> rfl

/-- A float operation that meets a NaN answers the canonical one. -/
theorem opElement_nan {opc old v : Nat} {f : Fmt} (hf : opFmt opc = some f) (h : (isNanEnc f old || isNanEnc f v) = true) :
    opElement opc old v = encNan f := by
  have hadd : floatAdd f old v = encNan f := by rw [floatAdd, isNan_addNum h]; rfl
  have hpick : ∀ m, floatPick f m old v = encNan f := fun m => if_pos h
  unfold opFmt at hf
  split_ifs at hf with h3 h4 h5 h6 <;> cases hf
  · rw [h3]; exact hadd
  · rw [h4]; exact hadd
  · obtain rfl | rfl | rfl := h5
    · exact hadd
    · exact hpick false
    · exact hpick true
  · rw [h6]; exact hadd

theorem encNan_lt {opc : Nat} {f : Fmt} (hf : opFmt opc = some f) : encNan f < 256 ^ opElem opc := by
  unfold opFmt at hf
  split_ifs at hf with h3 h4 h5 h6 <;> cases hf
  · rw [h3]; decide
  · rw [h4]; decide
  · obtain rfl | rfl | rfl := h5 <;> decide
  · rw [h6]; decide

/-- The result of an operation on integers or bits fits its element. -/
theorem opElement_lt {opc old v : Nat} (hopc : opFmt opc = none) (hold : old < 256 ^ opElem opc) (hv : v < 256 ^ opElem opc) :
    opElement opc old v < 256 ^ opElem opc := by
  have hbits : 256 ^ opElem opc = 2 ^ (8 * opElem opc) := by rw [Nat.pow_mul]
  unfold opElement
  split
  · exact Nat.mod_lt _ (by decide)
  · exact Nat.mod_lt _ (by decide)
  · exact absurd hopc (by decide)
  · exact absurd hopc (by decide)
  · exact absurd hopc (by decide)
  · exact absurd hopc (by decide)
  · split <;> assumption
  · split <;> assumption
  · exact absurd hopc (by decide)
  · exact absurd hopc (by decide)
  · rw [hbits] at *; exact Nat.and_lt_two_pow _ hv
  · rw [hbits] at *; exact Nat.or_lt_two_pow hold hv
  · rw [hbits] at *; exact Nat.xor_lt_two_pow hold hv
  · exact hold

/-! The write at its home. -/

/-- OP_MISALIGNED counts `n` elements, each of which raises 0x0401 (R254). -/
def State.countParts (s : State) (l : Loc) (n : Nat) : State :=
  (List.range n).foldl (fun s _ => (s.bump (celMisaligned l.stack)).raise 0x0401 6 l.home []) s

theorem State.countParts_succ (s : State) (l : Loc) (n : Nat) :
    s.countParts l (n + 1) = ((s.countParts l n).bump (celMisaligned l.stack)).raise 0x0401 6 l.home [] := by
  simp only [State.countParts, List.range_succ, List.foldl_append, List.foldl_cons, List.foldl_nil]

@[simp] theorem State.countParts_cellar (s : State) (l : Loc) (n : Nat) : (s.countParts l n).cellar = s.cellar := by
  induction n with
  | zero => rfl
  | succ n ih => rw [State.countParts_succ, State.raise_cellar, (onlyRegs_bump _ _).cellar, ih]

@[simp] theorem State.countParts_shelf (s : State) (l : Loc) (n : Nat) : (s.countParts l n).shelf = s.shelf := by
  induction n with
  | zero => rfl
  | succ n ih => rw [State.countParts_succ, State.raise_shelf, (onlyRegs_bump _ _).shelf, ih]

theorem rd_celMisaligned_countParts (s : State) (l : Loc) (n : Nat) :
    (s.countParts l n).rd (celMisaligned l.stack) = min (s.rd (celMisaligned l.stack) + n) (2 ^ 32 - 1) := by
  induction n with
  | zero =>
    have : s.rd (celMisaligned l.stack) < 2 ^ 32 := rd_lt s _
    show s.rd (celMisaligned l.stack) = _
    omega
  | succ n ih =>
    rw [State.countParts_succ, State.rd_raise, rd_bump _ _ (by simp [celMisaligned]), ih]
    rw [show (celMisaligned l.stack).w = 32 from rfl]
    omega

/-- The state after a clean write: the line's home has written its hamper's count again, and the combined bytes stand in the cellar. -/
def State.opWritten (s : State) (l : Loc) (opc a : Nat) (bs : List Byte) : State :=
  { s.setHamper l.home (s.hamper l.home) with
    cellar := writeBytes s.cellar a (combineUpTo opc a (readBytes s.cellar a bs.length) bs (elemCount opc a bs.length)).1 }

theorem opWrite_plain {s : State} {l : Loc} {opc a : Nat} {bs : List Byte} (h : PlainLine s l a) (hopc : opc ≤ 13) (hin : a % 128 + bs.length ≤ 128) :
    s.opWrite opc a bs = .next ((s.opWritten l opc a bs).countParts l ((List.range (elemCount opc a bs.length)).countP (inPart opc a bs.length))) := by
  obtain ⟨hstate, hclean⟩ := plainLine_prepLine h
  have hbad : (s.prepLine l (a / 128)).1 = fun _ => false := funext hclean
  have hall : bs.take (inLine a bs.length) = bs := List.take_of_length_le (by rw [inLine]; omega)
  have h14 : opc ≠ 14 := by omega
  have hcell : (s.setHamper l.home (s.hamper l.home)).cellar = s.cellar := rfl
  have hskip : ∀ pcs : List Nat, ∀ t : State, pcs.foldl (fun t _ => t) t = t := fun pcs _ => List.foldl_fixed pcs
  simp only [State.opWrite, State.homeOp, hall, h.place, h.serves, plainLine_notBusy h, h.inUse, hbad, hstate, h14, hcell, combine_clean,
    Bool.false_eq_true, if_false, ne_eq, not_true_eq_false, hskip, ← snd_combineUpTo (old := readBytes s.cellar a bs.length)]
  split
  · next h0 => rw [h0]; rfl
  · rfl

section Written
variable (s : State) (l : Loc) {opc a : Nat} {bs : List Byte}

theorem length_opBytes : (combineUpTo opc a (readBytes s.cellar a bs.length) bs (elemCount opc a bs.length)).1.length = bs.length :=
  (length_combineUpTo (length_readBytes _ _ _) _).trans (length_readBytes _ _ _)

theorem readByte_opWritten_outside {x : Nat} (h : x < a ∨ a + bs.length ≤ x) :
    readByte (s.opWritten l opc a bs).cellar x = readByte s.cellar x :=
  readByte_writeBytes_other _ _ _ _ (by rw [length_opBytes]; exact h)

/-- An element that is not written whole keeps its bytes. -/
theorem readByte_opWritten_part {ea i : Nat} (hal : ea % opElem opc = 0) (hpart : ea < a ∨ a + bs.length < ea + opElem opc) (hi : i < opElem opc) :
    readByte (s.opWritten l opc a bs).cellar (ea + i) = readByte s.cellar (ea + i) := by
  by_cases hout : ea + i < a ∨ a + bs.length ≤ ea + i
  · exact readByte_opWritten_outside s l hout
  have hlen : (readBytes s.cellar a bs.length).length = bs.length := length_readBytes _ _ _
  obtain ⟨k, -, hk⟩ := exists_elemAddr (n := bs.length) hal (show a < ea + opElem opc by omega) (by omega)
  have hkept := getElem?_combineUpTo_kept (opc := opc) (a := a) (j := ea + i - a) hlen (k := elemCount opc a bs.length) fun i' _ hw => by
    have hin := whole_within hlen hw
    obtain hlt | rfl | hlt := lt_trichotomy i' k
    · have := elemAddr_add_le (opc := opc) (a := a) hlt
      omega
    · omega
    · have := elemAddr_add_le (opc := opc) (a := a) hlt
      omega
  have hj : ea + i - a < (combineUpTo opc a (readBytes s.cellar a bs.length) bs (elemCount opc a bs.length)).1.length := by
    rw [length_opBytes]; omega
  have hj' : ea + i - a < (readBytes s.cellar a bs.length).length := by omega
  have hwritten := readByte_writeBytes_same _ s.cellar a _ hj
  rw [List.getElem?_eq_getElem hj, List.getElem?_eq_getElem hj', Option.some_inj, getElem_readBytes] at hkept
  rw [show ea + i = a + (ea + i - a) by omega]
  exact hwritten.trans hkept

/-- An element that is written whole takes the operation's result. -/
theorem readBytes_opWritten_whole {ea : Nat} (hal : ea % opElem opc = 0) (hlo : a ≤ ea) (hhi : ea + opElem opc ≤ a + bs.length) :
    readBytes (s.opWritten l opc a bs).cellar ea (opElem opc) = toBytes (opElem opc)
      (opElement opc (ofBytes (readBytes s.cellar ea (opElem opc))) (ofBytes ((bs.drop (ea - a)).take (opElem opc)))) := by
  have hw := opElem_pos opc
  obtain ⟨i, hi, rfl⟩ := exists_elemAddr (n := bs.length) hal (show a < ea + opElem opc by omega) (by omega)
  have hwhole : ¬ inPart opc a bs.length i = true := by
    rw [inPart_iff]
    omega
  calc readBytes (s.opWritten l opc a bs).cellar (elemAddr opc a i) (opElem opc)
      = ((combineUpTo opc a (readBytes s.cellar a bs.length) bs (elemCount opc a bs.length)).1.drop (elemAddr opc a i - a)).take (opElem opc) :=
        readBytes_writeBytes_within _ hlo (by rw [length_opBytes]; exact hhi)
    _ = _ := take_drop_combineUpTo (length_readBytes _ _ _) hi hwhole
    _ = _ := by rw [take_drop_readBytes _ hlo hhi]

end Written

/-- OP_MISALIGNED is not the word that a hamper's count stands in. -/
theorem rd_celMisaligned_opWritten (s : State) (l : Loc) (opc a : Nat) (bs : List Byte) :
    (s.opWritten l opc a bs).rd (celMisaligned l.stack) = s.rd (celMisaligned l.stack) :=
  rd_setHamper_other s l.home _ (by simp only [celMisaligned, cel]; omega)

theorem countP_inPart_aligned {opc a n : Nat} (hpos : 0 < n) (ha : a % opElem opc = 0) (hn : n % opElem opc = 0) :
    (List.range (elemCount opc a n)).countP (inPart opc a n) = 0 :=
  List.countP_eq_zero.2 fun i hi => by simp [inPart_aligned hpos ha hn (List.mem_range.1 hi)]

theorem countP_inPart_pos {opc a n : Nat} (hn : 0 < n) (h : a % opElem opc ≠ 0 ∨ n % opElem opc ≠ 0) :
    0 < (List.range (elemCount opc a n)).countP (inPart opc a n) := by
  obtain ⟨i, hi, hpart⟩ := exists_inPart hn h
  exact List.countP_pos_iff.2 ⟨i, List.mem_range.2 hi, hpart⟩

/-- Settles O28: the elements written whole, the bytes kept, and the elements counted; a write with OPC 0xE is dropped at its home. -/
theorem operationWritesCombineElements : Obligations.OperationWritesCombineElements := by
  unfold Obligations.OperationWritesCombineElements
  refine ⟨fun p hp a bs s l w h hpos hin hw => ?_, fun a bs s l hplace hserves hbusy => ?_⟩
  · subst hw
    obtain ⟨hopc, hexec⟩ := exec_of_mem_opRows hp
    rw [hexec, opWrite_plain h hopc hin]
    generalize hn : (List.range (elemCount p.1 a bs.length)).countP (inPart p.1 a bs.length) = n
    have hcellar := State.countParts_cellar (s.opWritten l p.1 a bs) l n
    refine ⟨_, rfl, State.countParts_shelf _ _ _, fun x hx => ?_, fun ea hal hpart i hi => ?_, fun ha hlen => ?_, fun hpart => ?_,
      fun ea hal hlo hhi old v new hold hv hnew => ?_⟩
    · rw [hcellar, readByte_opWritten_outside s l hx]
    · rw [hcellar, readByte_opWritten_part s l hal hpart hi]
    · rw [← hn, countP_inPart_aligned hpos ha hlen]; rfl
    · obtain ⟨k, rfl⟩ : ∃ k, n = k + 1 := Nat.exists_eq_add_one.2 (hn ▸ countP_inPart_pos hpos hpart)
      refine ⟨?_, ?_⟩
      · rw [rd_celMisaligned_countParts, rd_celMisaligned_opWritten]
        omega
      · rw [State.countParts_succ]
        obtain ⟨f, hg, hcode, -, hkind, hindex, -⟩ := State.raise_gathered
          (((s.opWritten l p.1 a bs).countParts l k).bump (celMisaligned l.stack)) 0x0401 6 l.home []
        exact ⟨f, by simp [hg], hcode, hkind, hindex⟩
    · have hval : new = opElement p.1 old v % 256 ^ opElem p.1 := by
        rw [hnew, hcellar, readBytes_opWritten_whole s l hal hlo hhi, ofBytes_toBytes, hold, hv]
      have holdlt : old < 256 ^ opElem p.1 := by
        have := ofBytes_lt (readBytes s.cellar ea (opElem p.1))
        rwa [length_readBytes, ← hold] at this
      have hvlt : v < 256 ^ opElem p.1 := by
        have := ofBytes_lt ((bs.drop (ea - a)).take (opElem p.1))
        rwa [← hv, List.length_take_of_le (by rw [List.length_drop]; omega)] at this
      have hint : ∀ k, opFmt k = none → p.1 = k → new = opElement k old v := fun k hk hpk => by
        rw [hval, hpk, Nat.mod_eq_of_lt (opElement_lt hk (hpk ▸ holdlt) (hpk ▸ hvlt))]
      refine ⟨hint 1 rfl, hint 2 rfl, fun hk => ?_, fun hk => ?_, hint 11 rfl, hint 12 rfl, hint 13 rfl, fun f hf hnan => ?_⟩
      · simp only [hint 7 rfl hk, opElement, signedOf_lt_iff]
      · simp only [hint 8 rfl hk, opElement, signedOf_lt_iff]
      · rw [hval, opElement_nan hf hnan, Nat.mod_eq_of_lt (encNan_lt hf)]
  · have h14 : s.opWrite 14 a bs = .next (s.raise 0x0400 6 l.home []) := by
      simp only [State.opWrite, State.homeOp, hplace, hserves, hbusy, Bool.false_eq_true, if_false, if_true, ne_eq, not_true_eq_false]
      rfl
    exact ⟨_, _, (exec_opAliasReserved a bs s).trans h14, rfl, rfl, rfl, rfl, rfl⟩

end Sys2Proof.Machine
end

section
/-! SUPPORT. A read-only run of a traffic generator over a line whose hamper entry holds poison (R218, R251, R271); refutes O30. -/
namespace Sys2Proof.Machine

/-- Beyond the crate windows every register resets to 0. -/
theorem resetWord_beyond {a : Nat} (h : 0x1C00000 ≤ a) : resetWord a = 0#32 := by
  have hrst : ∀ r ∈ rowsTileTally, r.rst = 0 := by decide
  have hrows : ∀ r ∈ (rowsFor a).1, r.rst = 0 := by
    have hlow : ∀ k ≤ 0x1C00000, ¬ a < k := fun k hk => by omega
    simp only [rowsFor, hlow, if_false, Nat.reduceLeDiff]
    split
    · simp
    · split
      · exact hrst
      · simp
  unfold resetWord
  split
  · rfl
  · next r hr =>
    rw [if_neg (by omega), hrows r (List.mem_of_find?_eq_some hr)]

/-- A key reads what every entry of it lists, and where there is none the default. -/
theorem lookMap_eq_of {α : Type} {d v : α} {m : List (Nat × α)} {k : Nat} (hval : ∀ p ∈ m, p.1 = k → p.2 = v)
    (hdef : (∀ p ∈ m, p.1 ≠ k) → d = v) : lookMap d m k = v := by
  induction m with
  | nil => exact hdef (by simp)
  | cons p m ih =>
    rw [lookMap]
    split
    · next h => exact hval p List.mem_cons_self h
    · next h => exact ih (fun q hq => hval q (List.mem_cons_of_mem _ hq)) fun hm => hdef (List.forall_mem_cons.2 ⟨h, hm⟩)

/-- Channel 0 runs one read-only pass over its row 0. The hamper of home 0 holds one entry, of line 0, whose first burst is marked poisoned as
a poison write leaves it (R218). No burst of the stacks is in error and no row is retired: of the words in which the layout of CEL_OFFLINE
marks a channel of some stack, however far, those that reset to another value than 0 are 0 as well. -/
def poisonedState : State :=
  { State.reset with
    carve := [⟨true, 0, cellarSize⟩]
    hampers := [(0, [⟨0, List.replicate 128 0#8, 1#128, 1, [], false⟩])]
    regs := [((hamperUsed 0).a, 1#32), (tg 0 0, 0x10004#32), (tg 0 12, 0#32), (cel 96 4, 0#32)] ++
      (List.range 384).map fun c => (tileReg (64 * c) 4, 0#32) }

/-- The words of that layout that reset to another value than 0: VER.1, and TILE.RUN of tile 0 of each crate. -/
theorem resetWord_offline : ∀ st < 1568, st = 96 ∨ (801 ≤ st ∧ st % 2 = 1) ∨ resetWord (cel st 4) = 0#32 := by decide +kernel

theorem poisonedState_regs : poisonedState.regs = [((hamperUsed 0).a, 1#32), (tg 0 0, 0x10004#32), (tg 0 12, 0#32), (cel 96 4, 0#32)] ++
    (List.range 384).map fun c => (tileReg (64 * c) 4, 0#32) := rfl

theorem poisonedState_reg_offline (st : Nat) : poisonedState.reg (cel st 4) = 0#32 := by
  refine lookMap_eq_of (fun p hp hk => ?_) fun hnone => ?_
  · rw [poisonedState_regs] at hp
    simp only [List.cons_append, List.nil_append, List.mem_cons, List.mem_map] at hp
    obtain rfl | rfl | rfl | rfl | ⟨c, -, rfl⟩ := hp
    · simp only [hamperUsed, cel] at hk
      omega
    · simp only [tg, cel] at hk
      omega
    · rfl
    · rfl
    · rfl
  · rw [poisonedState_regs] at hnone
    by_cases hfar : 1568 ≤ st
    · exact resetWord_beyond (by rw [cel]; omega)
    obtain rfl | ⟨hlo, hodd⟩ | hzero := resetWord_offline st (by omega)
    · exact absurd rfl (hnone (cel 96 4, 0#32) (by simp))
    · refine absurd ?_ (hnone (tileReg (64 * ((st - 801) / 2)) 4, 0#32) (List.mem_append_right _ (List.mem_map_of_mem (List.mem_range.2 (by omega)))))
      simp only [tileReg, cel]
      omega
    · exact hzero

theorem poisonedState_unretired (l : Loc) : poisonedState.isRetired l = false := by
  have hoff : poisonedState.on (celOffline l.stack l.ch) = false := by
    rw [State.on, State.rd, show (celOffline l.stack l.ch).a = cel l.stack 4 from rfl, poisonedState_reg_offline]
    simp [bitsAt]
  rw [State.isRetired, hoff]
  rfl

/-- The run makes the 32 accesses of its pass. -/
theorem poisonedState_accesses : poisonedState.tgCount 0 (poisonedState.tgStopAt 0 0 0 0) = 32 := by decide +kernel

/-- The flush that goes before the first read writes the poison to the stack, and the read finds it. -/
theorem poisonedState_mismatch : (poisonedState.tgRun 0 32 (tgErrs [] [])).2.mism = 1 := by decide +kernel

/-- Refutes O30, by its clause of a read-only run where nothing is in error: the clause asks for no error in the stacks and leaves the hampers
open, and in `poisonedState` a hamper entry's poison reaches the stack in the run, which counts it as a mismatch. -/
theorem not_cellarErrorsAndGenerators : ¬ Obligations.CellarErrorsAndGenerators := by
  rintro ⟨-, -, -, -, -, hrun⟩
  have hbusy : poisonedState.on (tgBusy (0 : ChannelId)) = true := by decide +kernel
  have hpasses : poisonedState.rd (tgPasses (0 : ChannelId)) ≠ 0 := by decide +kernel
  have hdestr : poisonedState.on (tgDestr (0 : ChannelId)) = false := by decide +kernel
  obtain ⟨-, -, -, -, -, -, -, -, hclean, -⟩ := hrun 0 0 0 0 32 [] [] (poisonedState.tgRun 0 32 (tgErrs [] [])).2 poisonedState hbusy
    (.inl hpasses) poisonedState_accesses.symm rfl
  have hpoison : ∀ b, poisonedState.isPoison b = false := fun _ => rfl
  have hzero := (hclean hdestr rfl rfl rfl hpoison poisonedState_unretired).1
  exact absurd (poisonedState_mismatch.symm.trans hzero) (by decide)

end Sys2Proof.Machine
end

section
/-! SUPPORT. The directory, the open transactions and the line at its home, as the protocol's steps use them (R285, R286). -/
namespace Sys2Proof.Machine

/-! The directory. -/

/-- The first element that `p` finds is still the first one after every such element has been changed to another such one. -/
theorem find?_map_where {α : Type} {p : α → Bool} {q : α → Prop} [DecidablePred q] (hpq : ∀ x, p x = true ↔ q x) {g : α → α}
    (hg : ∀ x, q x → q (g x)) {xs : List α} {x : α} (hx : xs.find? p = some x) :
    (xs.map fun e => if q e then g e else e).find? p = some (g x) := by
  have hsame : (p ∘ fun e => if q e then g e else e) = p := by
    funext e
    by_cases he : q e
    · simp [he, (hpq e).2 he, (hpq _).2 (hg e he)]
    · simp [he]
  rw [List.find?_map, hsame, hx, Option.map_some, if_pos ((hpq x).1 (List.find?_some hx))]

/-- A line's entry after it has been replaced in its place. -/
theorem find?_dirs_replaced {ds : List Dir} {line : Nat} {d n : Dir} (hd : ds.find? (fun e => decide (e.line = line)) = some d)
    (hn : n.line = line) : (ds.map fun e : Dir => if e.line = line then n else e).find? (fun e => decide (e.line = line)) = some n :=
  find?_map_where (q := fun e : Dir => e.line = line) (g := fun _ => n) (fun _ => decide_eq_true_iff) (fun _ _ => hn) hd

/-! Transactions. -/

theorem pinned_iff {s : State} {line : Nat} : s.pinned line = true ↔ ∃ t ∈ s.txns, t.line = line := by
  simp [State.pinned]

section Ops
variable (s : State) (h core line stage : Nat) (d : Dir) (t : Txn) (req : Nat) (snps : List (Nat × Nat)) (f : Fld) (es : List HEntry)

@[simp] theorem State.bump_dirs : (s.bump f).dirs = s.dirs := rfl
@[simp] theorem State.bump_msgs : (s.bump f).msgs = s.msgs := rfl
@[simp] theorem State.bump_txns : (s.bump f).txns = s.txns := rfl
@[simp] theorem State.bump_cellar : (s.bump f).cellar = s.cellar := rfl
@[simp] theorem State.bump_l2 : (s.bump f).l2 = s.l2 := rfl
@[simp] theorem State.setHamper_dirs : (s.setHamper h es).dirs = s.dirs := rfl
@[simp] theorem State.setHamper_msgs : (s.setHamper h es).msgs = s.msgs := rfl
@[simp] theorem State.setHamper_cellar : (s.setHamper h es).cellar = s.cellar := rfl
@[simp] theorem State.addDir_dirs : (s.addDir h d).dirs = s.dirs ++ [d] := rfl
@[simp] theorem State.addDir_msgs : (s.addDir h d).msgs = s.msgs := rfl
@[simp] theorem State.addDir_cellar : (s.addDir h d).cellar = s.cellar := rfl
@[simp] theorem State.markTaken_dirs : (s.markTaken core line stage).dirs = s.dirs := rfl
@[simp] theorem State.markTaken_msgs : (s.markTaken core line stage).msgs = s.msgs := rfl
@[simp] theorem State.markTaken_txns : (s.markTaken core line stage).txns = s.txns := rfl
@[simp] theorem State.markTaken_cellar : (s.markTaken core line stage).cellar = s.cellar := rfl
@[simp] theorem State.markTaken_l2 : (s.markTaken core line stage).l2 = s.l2 := rfl
@[simp] theorem State.markTaken_rd : (s.markTaken core line stage).rd f = s.rd f := rfl
@[simp] theorem State.countPinned_dirs : (s.countPinned h).dirs = s.dirs := (State.wr_dirs _ _ _).trans (State.wr_dirs _ _ _)
@[simp] theorem State.countPinned_msgs : (s.countPinned h).msgs = s.msgs := (State.wr_msgs _ _ _).trans (State.wr_msgs _ _ _)
@[simp] theorem State.countPinned_txns : (s.countPinned h).txns = s.txns := (State.wr_txns _ _ _).trans (State.wr_txns _ _ _)
@[simp] theorem State.countPinned_evicts : (s.countPinned h).evicts = s.evicts := (State.wr_evicts _ _ _).trans (State.wr_evicts _ _ _)
@[simp] theorem State.countPinned_cellar : (s.countPinned h).cellar = s.cellar := (State.wr_cellar _ _ _).trans (State.wr_cellar _ _ _)
@[simp] theorem State.countPinned_l2 : (s.countPinned h).l2 = s.l2 := (State.wr_l2 _ _ _).trans (State.wr_l2 _ _ _)
@[simp] theorem State.openTxn_dirs : (s.openTxn h t req snps).dirs = s.dirs := State.countPinned_dirs _ h
@[simp] theorem State.openTxn_msgs :
    (s.openTxn h t req snps).msgs = s.msgs ++ snps.map fun p => Msg.snp p.1 p.2 t.line req := State.countPinned_msgs _ h
@[simp] theorem State.openTxn_txns : (s.openTxn h t req snps).txns = s.txns ++ [{ t with waits := snps.map Prod.snd }] :=
  State.countPinned_txns _ h
@[simp] theorem State.openTxn_cellar : (s.openTxn h t req snps).cellar = s.cellar := State.countPinned_cellar _ h
@[simp] theorem State.openTxn_l2 : (s.openTxn h t req snps).l2 = s.l2 := State.countPinned_l2 _ h
@[simp] theorem State.setTxn_dirs : (s.setTxn t).dirs = s.dirs := rfl
@[simp] theorem State.setTxn_msgs : (s.setTxn t).msgs = s.msgs := rfl
theorem State.setTxn_txns : (s.setTxn t).txns = s.txns.map fun u => if u.line = t.line then t else u := rfl

end Ops

theorem openTxn_pinned (s : State) (h : Nat) (t : Txn) (req : Nat) (snps : List (Nat × Nat)) : (s.openTxn h t req snps).pinned t.line = true :=
  pinned_iff.2 ⟨{ t with waits := snps.map Prod.snd }, by simp, rfl⟩

/-- Opening a transaction counts pinned entries, in one word of the home's counters. -/
theorem rd_openTxn (s : State) (h : Nat) (t : Txn) (req : Nat) (snps : List (Nat × Nat)) {f : Fld} (hf : f.a ≠ coh h 4) :
    (s.openTxn h t req snps).rd f = s.rd f :=
  (rd_wr_other (f := cohPeak h) _ _ hf).trans (rd_wr_other (f := cohPinned h) _ _ hf)

/-- A caching request whose data a cache has sent ends with Comp and the entry of Table 10.5; the line stays pinned until CompAck (R282, R286). -/
theorem finishCaching_sent {s : State} {t : Txn} {d : Dir} (hsent : t.sent = true) (hdir : s.dir t.line = some d) (l : Loc) (core kind : Nat)
    (keeps : Option Nat) : (s.finishCaching l t core kind keeps).dir t.line = some (dirAfter t.line core kind (some d) keeps) ∧
      (s.finishCaching l t core kind keeps).msgs = s.msgs ++ [.comp core t.line t.grant] ∧
      (s.finishCaching l t core kind keeps).cellar = s.cellar ∧
      (s.pinned t.line = true → (s.finishCaching l t core kind keeps).pinned t.line = true) := by
  have hline : (dirAfter t.line core kind (some d) keeps).line = t.line := by unfold dirAfter; split <;> rfl
  simp only [State.finishCaching, hsent, if_true, hdir]
  refine ⟨find?_dirs_replaced hdir hline, rfl, rfl, fun hpin => ?_⟩
  obtain ⟨u, hu, hul⟩ := pinned_iff.1 hpin
  refine pinned_iff.2 ⟨_, by rw [State.setTxn_txns]; exact List.mem_map_of_mem hu, ?_⟩
  rw [if_pos hul]

/-! The line at its home. -/

/-- Home `l.home` buffers nothing of a line, and its stack reads the line without error. -/
structure QuietLine (s : State) (l : Loc) (line : Nat) : Prop where
  unbuffered : ∀ e ∈ s.hamper l.home, e.line ≠ line
  inUse : s.isRetired l = false
  clean : ∀ b, b / 2 = line → lookMap 0 s.symErr b = 0 ∧ s.isPoison b = false

theorem plainLine_quiet {s : State} {l : Loc} {a : Nat} (h : PlainLine s l a) : QuietLine s l (a / 128) := ⟨h.unbuffered, h.inUse, h.clean⟩

section Quiet
variable {s : State} {l : Loc} {line : Nat} (h : QuietLine s l line)
include h

theorem QuietLine.flushLine : s.flushLine l.home line = s.setHamper l.home (s.hamper l.home) := by
  have hnone : (s.hamper l.home).filter (fun e => decide (e.line = line)) = [] :=
    List.filter_eq_nil_iff.2 fun e he => by simpa using h.unbuffered e he
  have hall : (s.hamper l.home).filter (fun e => !decide (e.line = line)) = s.hamper l.home :=
    List.filter_eq_self.2 fun e he => by simpa using h.unbuffered e he
  rw [State.flushLine, State.flushHamper, hnone, hall]; rfl

theorem QuietLine.readBurst {b : Nat} (hb : b / 2 = line) (pc : Nat) :
    (s.setHamper l.home (s.hamper l.home)).readBurst { l with pc := pc } b = (false, s.setHamper l.home (s.hamper l.home)) := by
  obtain ⟨herr, hpoison⟩ := h.clean b hb
  have huse : (s.setHamper l.home (s.hamper l.home)).isRetired { l with pc := pc } = false := by
    rw [State.isRetired, State.on, rd_setHamper_other s _ _ (by simp only [celOffline, cel]; omega)]; exact h.inUse
  have hp : (s.setHamper l.home (s.hamper l.home)).isPoison b = false := hpoison
  have he : lookMap 0 (s.setHamper l.home (s.hamper l.home)).symErr b = 0 := herr
  rw [State.readBurst, huse, hp, he]; rfl

/-- The home reads the cellar's bytes, and only writes its hamper's count again. -/
theorem QuietLine.readLine : s.readLine l line =
    (⟨.i, readBytes s.cellar (128 * line) 128, 0⟩, s.setHamper l.home (s.hamper l.home)) := by
  simp only [State.readLine, h.flushLine, h.readBurst (b := 2 * line) (by omega), h.readBurst (b := 2 * line + 1) (by omega)]
  rfl

end Quiet

end Sys2Proof.Machine
end

section
/-! SUPPORT. Caching requests at their home, by the directory's state; settles O32 (R282, R286 to R288, Table 10.5). -/
namespace Sys2Proof.Machine

/-- The three commands are one taking of a request with their kinds. -/
theorem exec_of_mem_requestRows {p : Nat × (Nat → Instr)} (hp : p ∈ requestRows) :
    p.1 ≤ 2 ∧ ∀ n s, exec (p.2 n) s = s.takeReq p.1 n := by
  simp only [requestRows, List.mem_cons, List.not_mem_nil, or_false] at hp
  obtain rfl | rfl | rfl := hp <;> exact ⟨by decide, fun _ _ => rfl⟩

theorem takeReq_serves {s : State} {n : Nat} {c : CReq} {l : Loc} (h : HomeTakes s n c l) :
    s.takeReq c.kind n = .next (s.serve l c.core c.line c.kind c.age) := by
  have hage : c.age ≠ 15 := Nat.ne_of_lt h.young
  have hfree : ¬ 120 ≤ s.trackers l.home false := Nat.not_le.2 h.tracker
  simp [State.takeReq, h.here, h.onWay, h.unpinned, h.place, h.serves, h.unrepaired, hage, hfree]

/-- With every ordinary tracker in use a request below age 15 gets Retry (R287). -/
theorem takeReq_refused {s : State} {n : Nat} {c : CReq} {l : Loc} (hc : s.creqs[n]? = some c) (hstage : c.stage = 0)
    (hpin : s.pinned c.line = false) (hplace : s.locate (128 * c.line) = some l) (hserves : s.homeStatus l = (0, s))
    (hheld : s.lineHeld l [0, 1] = false) (hage : c.age < 15) (hfull : 120 ≤ s.trackers l.home false) :
    s.takeReq c.kind n = .next (s.refuseReq l.home c.core c.line) := by
  have hage : c.age ≠ 15 := Nat.ne_of_lt hage
  simp [State.takeReq, hc, hstage, hpin, hplace, hserves, hheld, hage, hfull]

/-! A request that its home takes off its way. -/

/-- The request leaves the queue of those of age 15, an Upgrade having become an RdUnique where `conv` is set. -/
def State.acceptReq (s : State) (h core line : Nat) (conv : Bool) : State := (s.convertUpg h core line conv).leaveAged core line

section Accept
variable (s : State) (h core line : Nat) (conv : Bool)

/-- It changes the requests, their queue and the home's count of such Upgrades. -/
theorem onlyRegs_acceptReq : OnlyRegs [(cohUpgConv h).a]
    { s with creqs := (s.acceptReq h core line conv).creqs, agedQ := (s.acceptReq h core line conv).agedQ } (s.acceptReq h core line conv) := by
  cases conv
  · exact ⟨fun _ _ => rfl, rfl⟩
  · refine ⟨fun a ha => ?_, rfl⟩
    have hregs : (s.acceptReq h core line true).regs = (s.bump (cohUpgConv h)).regs := rfl
    rw [State.reg, hregs]
    exact (onlyRegs_bump s (cohUpgConv h)).reg ha

@[simp] theorem acceptReq_dirs : (s.acceptReq h core line conv).dirs = s.dirs := by rw [(onlyRegs_acceptReq s h core line conv).2]
@[simp] theorem acceptReq_cellar : (s.acceptReq h core line conv).cellar = s.cellar := (onlyRegs_acceptReq s h core line conv).cellar
@[simp] theorem acceptReq_l2 : (s.acceptReq h core line conv).l2 = s.l2 := by rw [(onlyRegs_acceptReq s h core line conv).2]
@[simp] theorem acceptReq_msgs : (s.acceptReq h core line conv).msgs = s.msgs := by rw [(onlyRegs_acceptReq s h core line conv).2]

theorem rd_acceptReq_converted : (s.acceptReq h core line true).rd (cohUpgConv h) = min (s.rd (cohUpgConv h) + 1) (2 ^ 32 - 1) :=
  rd_bump { s with creqs := (s.acceptReq h core line true).creqs } (cohUpgConv h) (by simp [cohUpgConv])

/-- The count of Upgrades is not a word that the line's stack is judged by. -/
theorem QuietLine.acceptReq {s : State} {l : Loc} {line' : Nat} (q : QuietLine s l line') : QuietLine (s.acceptReq l.home core line conv) l line' := by
  have hrest := onlyRegs_acceptReq s l.home core line conv
  have hoff : (s.acceptReq l.home core line conv).on (celOffline l.stack l.ch) = s.on (celOffline l.stack l.ch) :=
    hrest.on (by simp only [celOffline, cel, cohUpgConv, coh, List.mem_singleton]; omega)
  have hret : (s.acceptReq l.home core line conv).retired = s.retired := by rw [hrest.2]
  have hhamp : (s.acceptReq l.home core line conv).hampers = s.hampers := by rw [hrest.2]
  have hsym : (s.acceptReq l.home core line conv).symErr = s.symErr := by rw [hrest.2]
  have hpois : (s.acceptReq l.home core line conv).burstPoison = s.burstPoison := by rw [hrest.2]
  refine ⟨fun e he => q.unbuffered e ?_, ?_, fun b hb => ?_⟩
  · rwa [State.hamper, hhamp] at he
  · rw [State.isRetired, hret, hoff]; exact q.inUse
  · rw [hsym, State.isPoison, hpois]; exact q.clean b hb

end Accept

/-! An Uncached line. -/

/-- The home grants an Uncached line in E: the entry, the transaction, Data and Comp (R282). -/
def State.grantLine (s : State) (l : Loc) (core line kind age : Nat) : State :=
  (((((s.setHamper l.home (s.hamper l.home)).addDir l.home ⟨line, some core, 0, 15⟩).markTaken core line 1).openTxn l.home
    ⟨line, .caching core kind, [], true, true, none, .e, decide (age = 15)⟩ core []).sendMsg
    (.data core line ⟨.e, readBytes s.cellar (128 * line) 128, 0⟩)).sendMsg (.comp core line .e)

theorem serve_uncached {s : State} {l : Loc} {core line kind age : Nat} (q : QuietLine s l line) (hdir : s.dir line = none)
    (hway : s.wayFor core line = true) (hroom : (s.dirMates line).length < 16) :
    s.serve l core line kind age = (s.acceptReq l.home core line (decide (kind = 2))).grantLine l core line (if kind = 2 then 1 else kind) age := by
  have hread := (q.acceptReq core line (decide (kind = 2))).readLine
  rw [State.acceptReq] at hread
  simp only [State.serve, q.inUse, hdir, hway, hroom, hread, Bool.false_eq_true, if_false, Bool.not_true, if_true, ne_eq, not_true_eq_false]
  rfl

theorem grantLine_dir {s : State} {line : Nat} (hdir : s.dir line = none) (l : Loc) (core kind age : Nat) :
    (s.grantLine l core line kind age).dir line = some ⟨line, some core, 0, 15⟩ := by
  have hnone : s.dirs.find? (fun e => decide (e.line = line)) = none := hdir
  simp [State.dir, State.grantLine, List.find?_append, hnone]

theorem grantLine_pinned (s : State) (l : Loc) (core line kind age : Nat) : (s.grantLine l core line kind age).pinned line = true := by
  simp [State.grantLine, State.pinned]

theorem grantLine_msgs (s : State) (l : Loc) (core line kind age : Nat) : (s.grantLine l core line kind age).msgs =
    s.msgs ++ [.data core line ⟨.e, readBytes s.cellar (128 * line) 128, 0⟩, .comp core line .e] := by
  simp [State.grantLine]

theorem grantLine_cellar (s : State) (l : Loc) (core line kind age : Nat) : (s.grantLine l core line kind age).cellar = s.cellar := by
  simp [State.grantLine]

/-! A line that caches hold. -/

/-- Does a home treat a request as an RdUnique although it is an Upgrade: its cluster is not listed in a Shared entry (R282)? -/
def converts (d : Dir) (core kind : Nat) : Bool := decide (kind = 2) && !(d.owner.isNone && bitAt d.vec (core / 8))

/-- The kind that a home serves a request as. -/
def servedKind (d : Dir) (core kind : Nat) : Nat := if converts d core kind then 1 else kind

/-- The transaction that a home opens for a request on a line that caches hold. -/
def cachingTxn (d : Dir) (core line kind age : Nat) : Txn :=
  ⟨line, .caching core (servedKind d core kind), [], false, decide (servedKind d core kind = 2), none,
    if servedKind d core kind = 0 then .f else .e, decide (age = 15)⟩

/-- The home pins the line and sends the snoops of Table 10.5. -/
def State.snoopFor (s : State) (l : Loc) (d : Dir) (core line kind age : Nat) : State :=
  ((s.acceptReq l.home core line (converts d core kind)).markTaken core line 1).openTxn l.home (cachingTxn d core line kind age) core
    (snoopsOf d (servedKind d core kind) (core / 8))

section Cached
variable {s : State} {l : Loc} {core line kind age : Nat} {d : Dir}

theorem serve_cached (hret : s.isRetired l = false) (hdir : s.dir line = some d) :
    s.serve l core line kind age = if (snoopsOf d (servedKind d core kind) (core / 8)).isEmpty then
      (s.snoopFor l d core line kind age).finishCaching l (cachingTxn d core line kind age) core (servedKind d core kind) none
      else s.snoopFor l d core line kind age := by
  simp only [State.serve, hret, hdir, Bool.false_eq_true, if_false]
  rfl

/-- Where Table 10.5 names snoops, the line is pinned and they are sent; nothing else happens yet. -/
theorem serve_snoops (hret : s.isRetired l = false) (hdir : s.dir line = some d) (hne : snoopsOf d (servedKind d core kind) (core / 8) ≠ []) :
    s.serve l core line kind age = s.snoopFor l d core line kind age := by
  rw [serve_cached hret hdir, if_neg (by simpa using hne)]

variable (s l core line kind age d)

theorem snoopFor_pinned : (s.snoopFor l d core line kind age).pinned line = true := openTxn_pinned _ _ (cachingTxn d core line kind age) _ _

@[simp] theorem snoopFor_dirs : (s.snoopFor l d core line kind age).dirs = s.dirs := by simp [State.snoopFor]
@[simp] theorem snoopFor_cellar : (s.snoopFor l d core line kind age).cellar = s.cellar := by simp [State.snoopFor]
@[simp] theorem snoopFor_l2 : (s.snoopFor l d core line kind age).l2 = s.l2 := by simp [State.snoopFor]

theorem snoopFor_msgs : (s.snoopFor l d core line kind age).msgs =
    s.msgs ++ (snoopsOf d (servedKind d core kind) (core / 8)).map fun p => Msg.snp p.1 p.2 line core := by
  rw [State.snoopFor, State.openTxn_msgs, State.markTaken_msgs, acceptReq_msgs]
  rfl

/-- An Upgrade that is served as RdUnique is counted (Table 10.10). -/
theorem rd_snoopFor_converted (h : converts d core kind = true) :
    (s.snoopFor l d core line kind age).rd (cohUpgConv l.home) = min (s.rd (cohUpgConv l.home) + 1) (2 ^ 32 - 1) := by
  rw [State.snoopFor, rd_openTxn _ _ _ _ _ (by simp [cohUpgConv, coh]), State.markTaken_rd, h, rd_acceptReq_converted]

end Cached

/-! The snoops of Table 10.5. -/

section Snoops
variable {d : Dir} {core kind : Nat}

theorem servedKind_of_ne_upgrade (h : kind ≠ 2) : servedKind d core kind = kind := by simp [servedKind, converts, h]

/-- An owned line is snooped at its owner alone, and an Upgrade of it is served as RdUnique. -/
theorem snoopsOf_owned {o : Nat} (ho : d.owner = some o) (hk : kind ≤ 2) :
    snoopsOf d (servedKind d core kind) (core / 8) = [(if kind = 0 then 0 else 1, o)] := by
  obtain rfl | rfl | rfl : kind = 0 ∨ kind = 1 ∨ kind = 2 := by omega
  all_goals simp [servedKind, converts, snoopsOf, dirSource, ho]

theorem converts_owned {o : Nat} (ho : d.owner = some o) : converts d core 2 = true := by simp [converts, ho]

theorem snoopsOf_shared_systemCache (ho : d.owner = none) (hf : d.f = 12) : snoopsOf d (servedKind d core 0) (core / 8) = [(0, 96)] := by
  simp [servedKind_of_ne_upgrade, snoopsOf, dirSource, ho, hf]

theorem snoopsOf_shared_cluster (ho : d.owner = none) (hf : d.f < 12) (hne : d.f ≠ core / 8) :
    snoopsOf d (servedKind d core 0) (core / 8) = [(0, 128 + d.f)] := by
  simp [servedKind_of_ne_upgrade, snoopsOf, dirSource, ho, hf, hne, Nat.ne_of_lt hf]

theorem servedKind_listed (ho : d.owner = none) (hl : bitAt d.vec (core / 8) = true) : servedKind d core 2 = 2 := by
  simp [servedKind, converts, ho, hl]

/-- An Upgrade by a listed cluster invalidates the copies of the others. -/
theorem snoopsOf_upgrade (ho : d.owner = none) (hl : bitAt d.vec (core / 8) = true) (line : Nat) :
    (snoopsOf d (servedKind d core 2) (core / 8)).map (fun p => Msg.snp p.1 p.2 line core) =
      (vecOthers d.vec (core / 8)).map (fun k => Msg.snp 3 (128 + k) line core) ++ (if d.f = 12 then [Msg.snp 3 96 line core] else []) := by
  by_cases hf : d.f = 12 <;>
    simp [servedKind_listed ho hl, snoopsOf, ho, hf, List.map_append, List.map_map, Function.comp_def]

end Snoops

/-- An Upgrade that needs no snoop ends at once: Comp, and the requester owns the line (R282). -/
theorem serve_upgrade_alone {s : State} {l : Loc} {core line age : Nat} {d : Dir} (hret : s.isRetired l = false) (hdir : s.dir line = some d)
    (ho : d.owner = none) (hl : bitAt d.vec (core / 8) = true) (hnone : snoopsOf d (servedKind d core 2) (core / 8) = []) :
    (s.serve l core line 2 age).pinned line = true ∧ (s.serve l core line 2 age).dir line = some ⟨line, some core, 0, 15⟩ ∧
      (s.serve l core line 2 age).msgs = s.msgs ++ [.comp core line .e] := by
  have hkind := servedKind_listed ho hl
  have hopen : (s.snoopFor l d core line 2 age).dir line = some d := by rw [State.dir, snoopFor_dirs]; exact hdir
  have hmsgs : (s.snoopFor l d core line 2 age).msgs = s.msgs := by rw [snoopFor_msgs, hnone, List.map_nil, List.append_nil]
  have hsent : (cachingTxn d core line 2 age).sent = true := by simp [cachingTxn, hkind]
  have hgrant : (cachingTxn d core line 2 age).grant = .e := by simp [cachingTxn, hkind]
  obtain ⟨hd, hm, -, hp⟩ := finishCaching_sent (t := cachingTxn d core line 2 age) hsent hopen l core 2 none
  rw [serve_cached hret hdir, hnone, hkind, List.isEmpty_nil, if_pos rfl]
  exact ⟨hp (snoopFor_pinned s l core line 2 age d), hd, by rw [hm, hmsgs, hgrant]; rfl⟩

/-- Settles O32, by the directory's state and the snoops that Table 10.5 names for it. -/
theorem homesServeCachingRequests : Obligations.HomesServeCachingRequests := by
  unfold Obligations.HomesServeCachingRequests
  intro p hp n s c l hkind
  obtain ⟨hk, hexec⟩ := exec_of_mem_requestRows hp
  have htake : HomeTakes s n c l → exec (p.2 n) s = .next (s.serve l c.core c.line p.1 c.age) := fun h => by
    rw [hexec, ← hkind, takeReq_serves h]
  refine ⟨fun h hplain hroom hway => ?_, fun d o h hret hdir ho => ?_, fun d h hret hdir ho h0 => ⟨fun hf => ?_, fun hf hne => ?_⟩,
    fun d inv h hret hdir ho h2 hl hinv => ⟨fun hne => ?_, fun hnil => ?_⟩, fun hc hstage hpin hplace hserves hheld hage hfull => ?_⟩
  · have hline : 128 * c.line / 128 = c.line := by omega
    have hdir : s.dir c.line = none := hline ▸ hplain.uncached
    have hdir' : (s.acceptReq l.home c.core c.line (decide (p.1 = 2))).dir c.line = none := by rw [State.dir, acceptReq_dirs]; exact hdir
    refine ⟨_, (htake h).trans (by rw [serve_uncached (hline ▸ (plainLine_quiet hplain)) hdir hway hroom]), grantLine_dir hdir' _ _ _ _,
      grantLine_pinned _ _ _ _ _ _, ?_, ?_⟩
    · rw [grantLine_cellar, acceptReq_cellar]
    · rw [grantLine_msgs, acceptReq_cellar, acceptReq_msgs]
  · have hsnp := snoopsOf_owned (core := c.core) ho hk
    refine ⟨_, (htake h).trans (by rw [serve_snoops hret hdir (by simp [hsnp])]), snoopFor_pinned _ _ _ _ _ _ _, snoopFor_dirs _ _ _ _ _ _ _,
      snoopFor_cellar _ _ _ _ _ _ _, snoopFor_l2 _ _ _ _ _ _ _, ?_, fun h2 => ?_⟩
    · rw [snoopFor_msgs, hsnp]; rfl
    · exact rd_snoopFor_converted _ _ _ _ _ _ _ (h2 ▸ converts_owned ho)
  · have hsnp := snoopsOf_shared_systemCache (core := c.core) ho hf
    rw [htake h, h0, serve_snoops hret hdir (by simp [hsnp])]
    exact ⟨_, rfl, snoopFor_pinned _ _ _ _ _ _ _, snoopFor_dirs _ _ _ _ _ _ _, by rw [snoopFor_msgs, hsnp]; rfl⟩
  · have hsnp := snoopsOf_shared_cluster (core := c.core) ho hf hne
    rw [htake h, h0, serve_snoops hret hdir (by simp [hsnp])]
    exact ⟨_, rfl, snoopFor_pinned _ _ _ _ _ _ _, snoopFor_dirs _ _ _ _ _ _ _, by rw [snoopFor_msgs, hsnp]; rfl⟩
  · have hsnp := snoopsOf_upgrade ho hl c.line
    rw [← hinv] at hsnp
    rw [htake h, h2, serve_snoops hret hdir fun hnil => hne (by rw [← hsnp, hnil]; rfl)]
    exact ⟨_, rfl, snoopFor_pinned _ _ _ _ _ _ _, snoopFor_dirs _ _ _ _ _ _ _, by rw [snoopFor_msgs, hsnp]⟩
  · have hsnp := snoopsOf_upgrade ho hl c.line
    rw [← hinv, hnil, List.map_eq_nil_iff] at hsnp
    rw [htake h, h2]
    exact ⟨_, rfl, serve_upgrade_alone hret hdir ho hl hsnp⟩
  · rw [hexec, ← hkind, takeReq_refused hc hstage hpin hplace hserves hheld hage hfull]
    refine ⟨_, rfl, by simp [State.refuseReq], by simp [State.refuseReq], by simp [State.refuseReq], ?_⟩
    rw [State.refuseReq, State.rd_sendMsg, rd_bump _ _ (by simp [cohRetries]), State.markTaken_rd]
    rfl

end Sys2Proof.Machine
end

section
/-! SUPPORT. How a cache answers a snoop, by the kind of the snoop and the state of its copy; settles O33 (R278 to R283, R293, R295, R427,
Tables 10.1, 10.3 and 10.4). -/
namespace Sys2Proof.Machine

/-! Copies of lines and reservations. -/

theorem loseResv_frame (s : State) (c line : Nat) : s.loseResv c line = { s with hcores := (s.loseResv c line).hcores } := by
  unfold State.loseResv
  split <;> rfl

@[simp] theorem cacheLine_setCacheLine_same (s : State) (c line : Nat) (x : CLine) : (s.setCacheLine c line x).cacheLine c line = x :=
  lookMap_putMap_same _ _ _ _

theorem cacheLine_setCacheLine_other (s : State) {c line d k : Nat} (x : CLine) (h : d * 2 ^ 36 + k ≠ c * 2 ^ 36 + line) :
    (s.setCacheLine c line x).cacheLine d k = s.cacheLine d k := lookMap_putMap_other _ _ _ _ h

@[simp] theorem cacheLine_loseResv (s : State) (c line d k : Nat) : (s.loseResv c line).cacheLine d k = s.cacheLine d k := by
  rw [loseResv_frame]; rfl

/-- Agents and lines within their ranges name different copies. -/
theorem copy_key_ne {c k agent line : Nat} (hk : k < 2 ^ 36) (hline : line < 2 ^ 36) (h : c ≠ agent ∨ k ≠ line) :
    c * 2 ^ 36 + k ≠ agent * 2 ^ 36 + line := by omega

/-! What an answer changes. -/

/-- The cache of `agent` answers about a line with messages `ms` and then holds `x` of it; no other copy changes. -/
structure Answered (agent line : Nat) (x : CLine) (ms : List Msg) (s u : State) : Prop where
  rest : u = { s with msgs := s.msgs ++ ms, l2 := u.l2, hcores := u.hcores }
  copy : u.cacheLine agent line = x
  others : ∀ c k, c * 2 ^ 36 + k ≠ agent * 2 ^ 36 + line → u.cacheLine c k = s.cacheLine c k

section Answered
variable {agent line : Nat} {x : CLine} {ms : List Msg} {s u : State} (h : Answered agent line x ms s u)
include h

theorem Answered.msgs : u.msgs = s.msgs ++ ms := by rw [h.rest]
theorem Answered.cellar : u.cellar = s.cellar := by rw [h.rest]
theorem Answered.dirs : u.dirs = s.dirs := by rw [h.rest]

theorem Answered.send (m : Msg) : Answered agent line x (ms ++ [m]) s (u.sendMsg m) where
  rest := by rw [h.rest, ← List.append_assoc]; rfl
  copy := h.copy
  others := h.others

theorem Answered.put (y : CLine) : Answered agent line y ms s ((u.setCacheLine agent line y).loseResv agent line) where
  rest := by rw [loseResv_frame, h.rest]; rfl
  copy := by simp
  others c k hk := by rw [cacheLine_loseResv, cacheLine_setCacheLine_other _ _ hk, h.others c k hk]

end Answered

theorem Answered.refl (agent line : Nat) (s : State) : Answered agent line (s.cacheLine agent line) [] s s := ⟨by simp, rfl, fun _ _ _ => rfl⟩

/-! The answer of one cache. -/

/-- What the cache still holds of a copy `y` after a snoop of a kind, `x` being the copy with the errors that it found (Table 10.1). -/
def snoopedCopy (k agent : Nat) (x y : CLine) : CLine :=
  if k = 0 then (if agent = 96 then CLine.none else { x with st := .s }) else if k = 2 then y else CLine.none

/-- Dirty data goes to the home with the response (Table 10.4). -/
def dirtyOf (x : CLine) : Option CLine := if x.st = .m then some x else none

/-- What a cache that holds the line sends for a snoop of a kind (Tables 10.3 and 10.4). -/
def snoopReplies (k agent line req : Nat) (x : CLine) : List Msg :=
  if k = 0 then [.data req line { x with st := .f }, .resp 0 agent line (if agent = 96 then 1 else 0) (dirtyOf x)]
  else if k = 1 then [.data req line { x with st := if x.st = .m then .m else .e }, .resp 1 agent line 1 (dirtyOf x)]
  else if k = 2 then [.resp 2 agent line 2 (some x)]
  else if k = 3 then [.resp 3 agent line 1 none]
  else [.resp k agent line 1 (dirtyOf x)]

section Single
variable {s : State} {agent line : Nat} (hagent : agent ≤ 96)
include hagent

theorem holders_hit (h : (s.cacheLine agent line).st ≠ .i) : s.holders agent line = [agent] := by
  simp [State.holders, show agent < 128 by omega, h]

theorem holders_miss (h : (s.cacheLine agent line).st = .i) : s.holders agent line = [] := by
  simp [State.holders, show agent < 128 by omega, h]

theorem answerSnoop_miss (h : (s.cacheLine agent line).st = .i) (k req err : Nat) :
    s.answerSnoop k agent line req err = s.sendMsg (.resp k agent line (s.missCode agent line) none) := by
  simp [State.answerSnoop, holders_miss hagent h]

/-- A cache that holds the line answers at once, and keeps what the snoop leaves it. -/
theorem answerSnoop_hit (h : (s.cacheLine agent line).st ≠ .i) {k : Nat} (hk : k ≤ 4) (req err : Nat) :
    Answered agent line (snoopedCopy k agent ((s.cacheLine agent line).marked err) (s.cacheLine agent line))
      (snoopReplies k agent line req ((s.cacheLine agent line).marked err)) s (s.answerSnoop k agent line req err) := by
  have hsrc : ([agent].find? fun c => decide ((s.cacheLine c line).st ≠ .s)).or [agent].head? = some agent := by
    by_cases hs : (s.cacheLine agent line).st = .s <;> simp [hs]
  have hsame := Answered.refl agent line s
  simp only [State.answerSnoop, holders_hit hagent h, hsrc, List.foldl_cons, List.foldl_nil, snoopedCopy, snoopReplies, dirtyOf]
  obtain rfl | rfl | rfl | rfl | rfl : k = 0 ∨ k = 1 ∨ k = 2 ∨ k = 3 ∨ k = 4 := by omega
  · by_cases h96 : agent = 96
    · subst h96
      exact ((hsame.send _).put CLine.none).send _
    · simp only [if_true, if_neg h96]
      exact ((hsame.send _).put _).send _
  · exact ((hsame.put CLine.none).send _).send _
  · exact hsame.send _
  · exact (hsame.put CLine.none).send _
  · exact (hsame.put CLine.none).send _

end Single

/-! The commands. -/

/-- The state without the message at place `n`. -/
def State.takeMsg (s : State) (n : Nat) : State := { s with msgs := s.msgs.eraseIdx n }

/-- A snoop is taken unless a takeover of the seam or a core that holds it after an LR keeps it waiting (R240, R427). -/
theorem takeSnoop_taken {s : State} {k n agent line req : Nat} (hm : s.msgs[n]? = some (.snp k agent line req)) (hseam : s.snoopSeam line = false)
    (hfree : ∀ c ∈ s.holders agent line, s.holdsSnoop c line = false) (err : Nat) :
    s.takeSnoop k n err = .next ((s.takeMsg n).answerSnoop k agent line req err) := by
  have hany : (s.holders agent line).any (fun c => s.holdsSnoop c line) = false := by simpa using hfree
  simp [State.takeSnoop, hm, hseam, hany, State.takeMsg]

theorem takeSnoop_held {s : State} {k n agent line req : Nat} (hm : s.msgs[n]? = some (.snp k agent line req)) {c : Nat}
    (hc : c ∈ s.holders agent line) (hheld : s.holdsSnoop c line = true) (err : Nat) : s.takeSnoop k n err = .next s := by
  have hany : (s.holders agent line).any (fun c => s.holdsSnoop c line) = true := List.any_eq_true.2 ⟨c, hc, hheld⟩
  simp [State.takeSnoop, hm, hany]

/-- SnpInv sends no data, so errors in it change nothing. -/
theorem answerSnoop_inv_err (s : State) (agent line req err : Nat) : s.answerSnoop 3 agent line req 0 = s.answerSnoop 3 agent line req err := by
  simp only [State.answerSnoop]
  rfl

theorem takeSnoop_inv_err (s : State) (n err : Nat) : s.takeSnoop 3 n 0 = s.takeSnoop 3 n err := by
  simp only [State.takeSnoop, answerSnoop_inv_err _ _ _ _ err]

/-- The five commands are one taking of a snoop with their kinds. -/
theorem exec_of_mem_snoopRows {p : Nat × (Nat → Nat → Instr)} (hp : p ∈ snoopRows) :
    p.1 ≤ 4 ∧ ∀ n err s, exec (p.2 n err) s = s.takeSnoop p.1 n err := by
  simp only [snoopRows, List.mem_cons, List.not_mem_nil, or_false] at hp
  obtain rfl | rfl | rfl | rfl | rfl := hp
  · exact ⟨by decide, fun _ _ _ => rfl⟩
  · exact ⟨by decide, fun _ _ _ => rfl⟩
  · exact ⟨by decide, fun _ _ _ => rfl⟩
  · exact ⟨by decide, fun n err s => takeSnoop_inv_err s n err⟩
  · exact ⟨by decide, fun _ _ _ => rfl⟩

/-! SnpInv to a cluster (R279). -/

/-- Cores drop their copies of a line: theirs are gone, and the other copies of it and the messages stay. -/
theorem foldl_dropCopy (cs : List Nat) (s : State) (line : Nat) :
    (cs.foldl (fun s c => s.dropCopy c line) s).msgs = s.msgs ∧
      ∀ d, (cs.foldl (fun s c => s.dropCopy c line) s).cacheLine d line = if d ∈ cs then CLine.none else s.cacheLine d line := by
  induction cs generalizing s with
  | nil => simp
  | cons c cs ih =>
    obtain ⟨hmsgs, hline⟩ := ih (s.dropCopy c line)
    refine ⟨hmsgs.trans (by rw [State.dropCopy, loseResv_frame]; rfl), fun d => ?_⟩
    rw [List.foldl_cons, hline, State.dropCopy, cacheLine_loseResv]
    by_cases hd : d = c
    · simp [hd]
    · rw [cacheLine_setCacheLine_other _ _ (by omega)]
      simp [hd]

theorem answerSnoop_inv {s : State} {agent line : Nat} (h : s.holders agent line ≠ []) (req err : Nat) :
    s.answerSnoop 3 agent line req err =
      ((s.holders agent line).foldl (fun s c => s.dropCopy c line) s).sendMsg (.resp 3 agent line 1 none) := by
  obtain ⟨c, cs, hcs⟩ := List.exists_cons_of_ne_nil h
  obtain ⟨d, hsrc⟩ : ∃ d, ((s.holders agent line).find? fun c => decide ((s.cacheLine c line).st ≠ .s)).or (s.holders agent line).head? = some d := by
    rw [hcs, List.head?_cons]
    cases List.find? (fun c => decide ((s.cacheLine c line).st ≠ .s)) (c :: cs) with
    | none => exact ⟨c, rfl⟩
    | some d => exact ⟨d, rfl⟩
  simp only [State.answerSnoop, hsrc]
  rfl

/-- A cluster in which a core holds the line drops every copy of it and answers DONE_I. -/
theorem answerSnoop_inv_cluster {s : State} {k line : Nat} (h : ∃ c ∈ coresOf k, (s.cacheLine c line).st ≠ .i) (req err : Nat) :
    (∀ c ∈ coresOf k, ((s.answerSnoop 3 (128 + k) line req err).cacheLine c line).st = .i) ∧
      (s.answerSnoop 3 (128 + k) line req err).msgs = s.msgs ++ [.resp 3 (128 + k) line 1 none] := by
  have hmem : ∀ c, c ∈ s.holders (128 + k) line ↔ c ∈ coresOf k ∧ (s.cacheLine c line).st ≠ .i := fun c => by
    simp [State.holders]
  obtain ⟨c, hc, hst⟩ := h
  rw [answerSnoop_inv (List.ne_nil_of_mem ((hmem c).2 ⟨hc, hst⟩))]
  obtain ⟨hmsgs, hline⟩ := foldl_dropCopy (s.holders (128 + k) line) s line
  refine ⟨fun d hd => ?_, by rw [State.sendMsg_msgs, hmsgs]⟩
  rw [State.cacheLine_sendMsg, hline]
  split
  · rfl
  · next hout => exact not_not.1 fun hne => hout ((hmem d).2 ⟨hd, hne⟩)

/-- Settles O33, by the one answer of a cache that holds the line, and by the copies that a cluster drops. -/
theorem cachesAnswerSnoops : Obligations.CachesAnswerSnoops := by
  unfold Obligations.CachesAnswerSnoops
  refine ⟨fun p hp n agent line req err s hm hagent hseam => ?_, fun n k line req s hk hm hseam hfree hheld => ?_, fun c s hold => ?_⟩
  · obtain ⟨hkind, hexec⟩ := exec_of_mem_snoopRows hp
    obtain ⟨kind, cmd⟩ := p
    refine ⟨fun hfree => ?_, fun hst hheld => ?_⟩
    · have htake : exec (cmd n err) s = .next ((s.takeMsg n).answerSnoop kind agent line req err) := by
        rw [hexec]
        refine takeSnoop_taken hm hseam (fun c hc => ?_) err
        by_cases hst : (s.cacheLine agent line).st = .i
        · rw [holders_miss hagent hst] at hc
          cases hc
        · rw [holders_hit hagent hst, List.mem_singleton] at hc
          exact hc ▸ hfree
      by_cases hst : (s.cacheLine agent line).st = .i
      · have hmiss := answerSnoop_miss (s := s.takeMsg n) hagent hst kind req err
        refine ⟨_, _, htake.trans (congrArg Host.Outcome.next hmiss), rfl, rfl, rfl, fun _ => ⟨rfl, rfl⟩, ?_, ?_, ?_, ?_, ?_, fun c k _ _ _ _ => rfl⟩ <;>
          exact fun _ hne => absurd hst hne
      · have hhit := answerSnoop_hit (s := s.takeMsg n) hagent hst hkind req err
        refine ⟨_, _, htake, rfl, hhit.cellar, hhit.dirs, fun hi => absurd hi hst, ?_, ?_, ?_, ?_, ?_,
          fun c k _ hk hl hne => hhit.others c k (copy_key_ne hk hl hne)⟩
        all_goals rintro rfl -; exact ⟨hhit.copy, hhit.msgs⟩
    · rw [hexec]
      exact takeSnoop_held hm (by simp [holders_hit hagent hst]) hheld err
  · have hmem : ∀ c ∈ s.holders (128 + k) line, s.holdsSnoop c line = false := fun c hc =>
      hfree c (by simp [State.holders] at hc; exact hc.1)
    obtain ⟨hcopies, hmsgs⟩ := answerSnoop_inv_cluster (s := s.takeMsg n) hheld req 0
    exact ⟨_, takeSnoop_taken hm hseam hmem 0, hcopies, hmsgs⟩
  · show (if (s.hcore c).hold then _ else _) = _
    rw [if_pos hold]

end Sys2Proof.Machine
end

section
/-! SUPPORT. What a write of a line to its stack and an eviction change, and what they leave (R249, R283, Table 10.1). -/
namespace Sys2Proof.Machine

/-! A line written to its stack. -/

theorem storeBurst_frame (s : State) (b : Nat) (bs : List Byte) (p : Bool) : s.storeBurst b bs p =
    { s with symErr := (s.storeBurst b bs p).symErr, burstPoison := (s.storeBurst b bs p).burstPoison, cellar := (s.storeBurst b bs p).cellar } := by
  cases p <;> rfl

theorem storeBurst_cellar_clean (s : State) (b : Nat) (bs : List Byte) : (s.storeBurst b bs false).cellar = writeBytes s.cellar (64 * b) bs := rfl

theorem storeLine_frame (s : State) (l : Loc) (line : Nat) (bs : List Byte) (p : Nat) : ∃ rs gs hs es ps cs, s.storeLine l line bs p =
    { s with regs := rs, gathered := gs, hampers := hs, symErr := es, burstPoison := ps, cellar := cs } := by
  unfold State.storeLine
  split
  · exact ⟨_, _, _, _, _, _, rfl⟩
  · rw [storeBurst_frame, storeBurst_frame (State.setHamper _ _ _)]
    exact ⟨_, _, _, _, _, _, rfl⟩

section StoreLine
variable (s : State) (l : Loc) (line : Nat) (bs : List Byte) (p : Nat)

@[simp] theorem storeLine_dirs : (s.storeLine l line bs p).dirs = s.dirs := by obtain ⟨_, _, _, _, _, _, h⟩ := storeLine_frame s l line bs p; rw [h]
@[simp] theorem storeLine_msgs : (s.storeLine l line bs p).msgs = s.msgs := by obtain ⟨_, _, _, _, _, _, h⟩ := storeLine_frame s l line bs p; rw [h]
@[simp] theorem storeLine_txns : (s.storeLine l line bs p).txns = s.txns := by obtain ⟨_, _, _, _, _, _, h⟩ := storeLine_frame s l line bs p; rw [h]
@[simp] theorem storeLine_creqs : (s.storeLine l line bs p).creqs = s.creqs := by obtain ⟨_, _, _, _, _, _, h⟩ := storeLine_frame s l line bs p; rw [h]

end StoreLine

theorem readBytes_add (m : List Host.Cell) (a n k : Nat) : readBytes m a (n + k) = readBytes m a n ++ readBytes m (a + n) k := by
  induction n generalizing a with
  | zero => simp [readBytes]
  | succ n ih => rw [Nat.add_right_comm, readBytes, ih, readBytes, List.cons_append, show a + 1 + n = a + (n + 1) by omega]

/-- A clean line of 128 bytes is in the cellar after it has been stored. -/
theorem readBytes_storeLine {s : State} {l : Loc} {line : Nat} {bs : List Byte} (huse : s.isRetired l = false) (hlen : bs.length = 128) :
    readBytes (s.storeLine l line bs 0).cellar (128 * line) 128 = bs := by
  have hlo : (bs.take 64).length = 64 := by simp [hlen]
  have hhi : (bs.drop 64).length = 64 := by simp [hlen]
  have hcell : (s.storeLine l line bs 0).cellar =
      writeBytes (writeBytes s.cellar (64 * (2 * line)) (bs.take 64)) (64 * (2 * line + 1)) (bs.drop 64) := by
    rw [State.storeLine, huse, if_neg Bool.false_ne_true, show bitAt 0 0 = false by rfl, show bitAt 0 1 = false by rfl, storeBurst_cellar_clean,
      storeBurst_cellar_clean]
    rfl
  calc readBytes (s.storeLine l line bs 0).cellar (128 * line) 128
      = readBytes (s.storeLine l line bs 0).cellar (64 * (2 * line)) 64 ++ readBytes (s.storeLine l line bs 0).cellar (64 * (2 * line + 1)) 64 := by
        rw [show 128 * line = 64 * (2 * line) by omega, show 128 = 64 + 64 by rfl, readBytes_add, show 64 * (2 * line) + 64 = 64 * (2 * line + 1) by omega]
    _ = bs.take 64 ++ bs.drop 64 := by
        have hsame := readBytes_writeBytes_same (writeBytes s.cellar (64 * (2 * line)) (bs.take 64)) (64 * (2 * line + 1)) (bs.drop 64)
        have hbelow := readBytes_writeBytes_same s.cellar (64 * (2 * line)) (bs.take 64)
        rw [hhi] at hsame
        rw [hlo] at hbelow
        rw [hcell, readBytes_writeBytes_other _ _ _ _ _ (.inl (by omega)), hbelow, hsame]
    _ = bs := List.take_append_drop 64 bs

/-! Evictions and installed lines. -/

theorem dropCopy_frame (s : State) (c line : Nat) : s.dropCopy c line = { s with l2 := (s.setCacheLine c line CLine.none).l2, hcores := (s.dropCopy c line).hcores } :=
  loseResv_frame _ _ _

/-- An eviction changes copies, reservations and the evictions that await WBAck. -/
theorem evictLine_frame (s : State) (c line : Nat) : ∃ ls hs es, s.evictLine c line = { s with l2 := ls, hcores := hs, evicts := es } := by
  simp only [State.evictLine]
  rw [dropCopy_frame]
  split
  · exact ⟨_, _, _, rfl⟩
  · exact ⟨_, _, _, rfl⟩
  · split <;> exact ⟨_, _, _, rfl⟩
  · exact ⟨_, _, _, rfl⟩

/-- Installing a line changes the same and draws a way where the set is full. -/
theorem installLine_frame (s : State) (c line : Nat) (x : CLine) :
    ∃ ls hs es k, s.installLine c line x = { s with l2 := ls, hcores := hs, evicts := es, freeCtr := k } := by
  simp only [State.installLine]
  split
  · exact ⟨_, _, _, _, rfl⟩
  · split
    · next v _ =>
      obtain ⟨_, _, _, h⟩ := evictLine_frame s.draw.2 c v
      rw [h]
      exact ⟨_, _, _, _, rfl⟩
    · exact ⟨_, _, _, _, rfl⟩

theorem cacheLine_installLine (s : State) (c line : Nat) (x : CLine) : (s.installLine c line x).cacheLine c line = x :=
  cacheLine_setCacheLine_same _ c line x

end Sys2Proof.Machine
end

section
/-! SUPPORT. Responses, Data, Comp, CompAck, Retry and WBAck: what each does to the transaction, the request or the eviction that it
answers; settles O34 (R282 to R284, R286, R288, R293, Tables 10.4 and 10.6). -/
namespace Sys2Proof.Machine

@[simp] theorem State.takeMsg_msgs (s : State) (n : Nat) : (s.takeMsg n).msgs = s.msgs.eraseIdx n := rfl

/-! Sets of clusters. -/

theorem bitAt_vecAdd (v c i : Nat) : bitAt (vecAdd v c) i = (bitAt v i || decide (i = c)) := by
  have hbit : ∀ n, bitAt n i = n.testBit i := fun n => (Nat.testBit_eq_decide_div_mod_eq).symm
  rw [hbit, hbit, vecAdd, vecBit]
  show (v ||| 2 ^ c).testBit i = _
  rw [Nat.testBit_or, Nat.testBit_two_pow]
  simp [eq_comm]

/-! A response with a copy (R293). -/

/-- Data has gone to the requester for SnpShared and SnpUnique. -/
def Txn.told (t : Txn) (k : Nat) : Txn := if k ≤ 1 then { t with sent := true } else t

/-- What a home makes of a response whose cache held the line: dirty data goes to the cellar, to the grant or to the home's own use. -/
def State.takeCopy (s : State) (l : Loc) (k line : Nat) (dirty : Option CLine) (t : Txn) : Txn × State :=
  match (t.told k).kind, dirty with
  | .caching _ 0, some x => (t.told k, s.storeDirty l line x)
  | .caching _ _, some _ => ({ t.told k with grant := .m }, s)
  | _, some x => ({ t.told k with got := some x }, s)
  | _, none => (t.told k, s)

/-- The transaction keeps its line, its request and the agents awaited. -/
theorem takeCopy_txn (s : State) (l : Loc) (k line : Nat) (dirty : Option CLine) (t : Txn) :
    ∃ sent got grant, (s.takeCopy l k line dirty t).1 = { t with sent := sent, got := got, grant := grant } := by
  obtain ⟨sent, ht⟩ : ∃ sent, t.told k = { t with sent := sent } := by
    unfold Txn.told
    split <;> exact ⟨_, rfl⟩
  simp only [State.takeCopy, ht]
  split <;> exact ⟨_, _, _, rfl⟩

/-- The state is as it was, or dirty data has been written. -/
theorem takeCopy_state (s : State) (l : Loc) (k line : Nat) (dirty : Option CLine) (t : Txn) :
    (s.takeCopy l k line dirty t).2 = s ∨ ∃ x : CLine, (s.takeCopy l k line dirty t).2 = s.storeLine l line x.data x.poison := by
  unfold State.takeCopy
  split
  · exact .inr ⟨_, rfl⟩
  · exact .inl rfl
  · exact .inl rfl
  · exact .inl rfl

section TakeCopy
variable (s : State) (l : Loc) (k line : Nat) (dirty : Option CLine) (t : Txn)

@[simp] theorem takeCopy_dirs : (s.takeCopy l k line dirty t).2.dirs = s.dirs := by
  obtain h | ⟨x, h⟩ := takeCopy_state s l k line dirty t <;> simp [h]
@[simp] theorem takeCopy_msgs : (s.takeCopy l k line dirty t).2.msgs = s.msgs := by
  obtain h | ⟨x, h⟩ := takeCopy_state s l k line dirty t <;> simp [h]
@[simp] theorem takeCopy_txns : (s.takeCopy l k line dirty t).2.txns = s.txns := by
  obtain h | ⟨x, h⟩ := takeCopy_state s l k line dirty t <;> simp [h]
@[simp] theorem takeCopy_creqs : (s.takeCopy l k line dirty t).2.creqs = s.creqs := by
  obtain h | ⟨x, h⟩ := takeCopy_state s l k line dirty t <;> simp [h]

end TakeCopy

/-- A transaction without an agent that has answered. -/
def Txn.heard (t : Txn) (agent : Nat) : Txn := { t with waits := t.waits.filter (· ≠ agent) }

/-- A response without a copy is counted (Table 10.10). -/
def State.countMiss (s : State) (l : Loc) (code : Nat) : State :=
  if code = 4 ∨ code = 5 then s.bump (cohEvif l.home) else if code = 3 then s.bump (cohNotHeld l.home) else s

/-- What a home makes of a response: of a crossing eviction, of a cache that held nothing, or of one that held the line. -/
def State.takeResp (s : State) (l : Loc) (k agent line code : Nat) (dirty : Option CLine) (ev : Option Evict) (t : Txn) : Txn × State :=
  match code, ev with
  | 5, some e => ((s.crossWriteback l t (e.wb.getD CLine.none)).1, ((s.crossWriteback l t (e.wb.getD CLine.none)).2.matchEvict e).clearPinned line agent)
  | 4, some e => (t, (s.matchEvict e).clearPinned line agent)
  | 3, _ => (t, s.clearPinned line agent)
  | _, _ => s.takeCopy l k line dirty t

theorem takeResp_copy {code : Nat} (hcode : code ≤ 2) (s : State) (l : Loc) (k agent line : Nat) (dirty : Option CLine) (ev : Option Evict) (t : Txn) :
    s.takeResp l k agent line code dirty ev t = s.takeCopy l k line dirty t := by
  obtain rfl | rfl | rfl : code = 0 ∨ code = 1 ∨ code = 2 := by omega
  all_goals rfl

/-- The transaction goes on, or ends when no agent is awaited; an owner that answered DONE_S keeps its copy. -/
def State.heard (l : Loc) (line code : Nat) (q : Txn × State) : Res :=
  if q.1.waits.isEmpty then .next ((q.2.setTxn q.1).finishTxn l q.1 (if code = 0 then (q.2.dir line).bind Dir.owner else none))
  else .next (q.2.setTxn q.1)

section Responses
variable {n k agent line code : Nat} {dirty : Option CLine} {s : State} {t : Txn} {l : Loc}

theorem txn_line (ht : s.txns.find? (fun t => decide (t.line = line)) = some t) : t.line = line := by
  simpa using List.find?_some ht

variable (hm : s.msgs[n]? = some (.resp k agent line code dirty)) (ht : s.txns.find? (fun t => decide (t.line = line)) = some t)
  (hl : s.locate (128 * line) = some l)
include hm ht hl

theorem exec_snpresp : exec (.snpresp n) s = if code = 5 && !((s.evictOf agent line).map (·.held)).getD false then .next s else
    State.heard l line code (((s.takeMsg n).countMiss l code).takeResp l k agent line code dirty (s.evictOf agent line) (t.heard agent)) := by
  have hheard : ∀ q : Txn × State, State.heard l line code q =
      if q.1.waits.isEmpty then .next ((q.2.setTxn q.1).finishTxn l q.1 (if code = 0 then (match (q.2.dir line).bind Dir.owner with
        | some o => some o
        | none => none) else none))
      else .next (q.2.setTxn q.1) := fun q => by cases h : (q.2.dir line).bind Dir.owner <;> simp only [State.heard, h]
  show execSnpresp n s = _
  simp only [execSnpresp, hm, ht, hl]
  rw [hheard]
  rfl

/-- DONE_S, DONE_I and DATA are taken as they are. -/
theorem exec_snpresp_copy (hcode : code ≤ 2) : exec (.snpresp n) s =
    State.heard l line code ((s.takeMsg n).takeCopy l k line dirty (t.heard agent)) := by
  have h5 : (decide (code = 5) && !((s.evictOf agent line).map (·.held)).getD false) = false := by
    rw [decide_eq_false (by omega), Bool.false_and]
  have hcount : (s.takeMsg n).countMiss l code = s.takeMsg n := by
    rw [State.countMiss, if_neg (by omega), if_neg (by omega)]
  rw [exec_snpresp hm ht hl, h5, if_neg Bool.false_ne_true, hcount, takeResp_copy hcode]

/-- A response that does not end its transaction only removes its agent from those awaited. -/
theorem snpresp_awaits (hcode : code ≤ 2) (hrest : t.waits.filter (· ≠ agent) ≠ []) : ∃ u v, exec (.snpresp n) s = .next u ∧
    u.msgs = s.msgs.eraseIdx n ∧ u.txns.find? (fun t => decide (t.line = line)) = some v ∧ v.waits = t.waits.filter (· ≠ agent) ∧
      v.kind = t.kind ∧ u.dirs = s.dirs ∧ u.creqs = s.creqs := by
  obtain ⟨sent, got, grant, hv⟩ := takeCopy_txn (s.takeMsg n) l k line dirty (t.heard agent)
  have hne : (t.heard agent).waits.isEmpty = false := by simpa [Txn.heard] using hrest
  have hline := txn_line ht
  rw [exec_snpresp_copy hm ht hl hcode, State.heard, hv, if_neg (by simpa using hne)]
  refine ⟨_, { t.heard agent with sent := sent, got := got, grant := grant }, rfl, ?_, ?_, rfl, rfl, ?_, ?_⟩
  · rw [State.setTxn_msgs, takeCopy_msgs, State.takeMsg_msgs]
  · rw [State.setTxn_txns, takeCopy_txns]
    subst hline
    exact find?_map_where (q := fun u : Txn => u.line = t.line) (g := fun _ => { t.heard agent with sent := sent, got := got, grant := grant })
      (fun _ => decide_eq_true_iff) (fun _ _ => rfl) ht
  · rw [State.setTxn_dirs, takeCopy_dirs]; rfl
  · show ((s.takeMsg n).takeCopy l k line dirty (t.heard agent)).2.creqs = s.creqs
    rw [takeCopy_creqs]; rfl

end Responses

/-- The last answer, a copy that data has left for the requester, ends a caching request with Comp and the entry of Table 10.5 (R282). -/
theorem heard_caching {s : State} {l : Loc} {line code core kind : Nat} {t : Txn} {d : Dir} (hline : t.line = line) (hnone : t.waits = [])
    (hkind : t.kind = .caching core kind) (hsent : t.sent = true) (hd : s.dir line = some d) (hpin : s.pinned line = true) :
    ∃ u, State.heard l line code (t, s) = .next u ∧ u.cellar = s.cellar ∧
      u.dir line = some (dirAfter line core kind (some d) (if code = 0 then d.owner else none)) ∧
      u.msgs = s.msgs ++ [.comp core line t.grant] ∧ u.pinned line = true := by
  subst hline
  have hopen : (s.setTxn t).dir t.line = some d := by rw [State.dir, State.setTxn_dirs]; exact hd
  have hpinned : (s.setTxn t).pinned t.line = true := by
    obtain ⟨v, hv, hl⟩ := pinned_iff.1 hpin
    exact pinned_iff.2 ⟨t, by rw [State.setTxn_txns]; exact List.mem_map.2 ⟨v, hv, if_pos hl⟩, rfl⟩
  obtain ⟨hdir, hmsgs, hcellar, hpins⟩ := finishCaching_sent hsent hopen l core kind (if code = 0 then d.owner else none)
  refine ⟨(s.setTxn t).finishCaching l t core kind (if code = 0 then d.owner else none), ?_, hcellar.trans rfl, hdir, hmsgs, hpins hpinned⟩
  simp only [State.heard, hnone, List.isEmpty_nil, if_true, State.finishTxn, hkind, hd, Option.bind_some]

section Last
variable {n k agent line core o : Nat} {s : State} {t : Txn} {l : Loc} {d : Dir}
  (ht : s.txns.find? (fun t => decide (t.line = line)) = some t)
  (hl : s.locate (128 * line) = some l) (hlast : t.waits.filter (· ≠ agent) = []) (hd : s.dir line = some d)
include ht hl hlast hd

/-- An owner's DONE_S to RdShared: its dirty data is in the cellar, and it stays listed beside the requester, which holds F. -/
theorem snpresp_doneS {x : CLine} (hm : s.msgs[n]? = some (.resp 0 agent line 0 (some x))) (hkind : t.kind = .caching core 0)
    (howner : d.owner = some o) (ho : o < 96) (hclean : x.poison = 0) (hlen : x.data.length = 128) (huse : s.isRetired l = false) :
    ∃ u v, exec (.snpresp n) s = .next u ∧ readBytes u.cellar (128 * line) 128 = x.data ∧ u.msgs = s.msgs.eraseIdx n ++ [.comp core line t.grant] ∧
      u.dir line = some ⟨line, none, v, core / 8⟩ ∧ bitAt v (core / 8) ∧ bitAt v (o / 8) ∧ u.pinned line := by
  have hq : (s.takeMsg n).takeCopy l 0 line (some x) (t.heard agent) =
      ({ t.heard agent with sent := true }, (s.takeMsg n).storeLine l line x.data 0) := by
    simp [State.takeCopy, Txn.told, Txn.heard, hkind, State.storeDirty, hclean]
  have hline : t.line = line := txn_line ht
  obtain ⟨u, hu, hcellar, hdir, hmsgs, hpin⟩ := heard_caching (code := 0) (t := { t.heard agent with sent := true })
    (s := (s.takeMsg n).storeLine l line x.data 0) (l := l) (d := d) hline hlast hkind rfl
    (by rw [State.dir, storeLine_dirs]; exact hd) (pinned_iff.2 ⟨t, by rw [storeLine_txns]; exact List.mem_of_find?_eq_some ht, hline⟩)
  refine ⟨u, vecAdd (vecAdd 0 (o / 8)) (core / 8), (exec_snpresp_copy hm ht hl (by decide)).trans (hq ▸ hu), ?_, ?_, ?_, ?_, ?_, hpin⟩
  · rw [hcellar]; exact readBytes_storeLine huse hlen
  · rw [hmsgs, storeLine_msgs]; rfl
  · simp [hdir, dirAfter, howner, ho]
  · simp [bitAt_vecAdd]
  · simp [bitAt_vecAdd]

/-- A DONE_I to RdUnique without dirty data: the requester owns the line. -/
theorem snpresp_doneI (hm : s.msgs[n]? = some (.resp 1 agent line 1 none)) (hkind : t.kind = .caching core 1) :
    ∃ u, exec (.snpresp n) s = .next u ∧ u.cellar = s.cellar ∧ u.dir line = some ⟨line, some core, 0, 15⟩ ∧
      u.msgs = s.msgs.eraseIdx n ++ [.comp core line t.grant] ∧ u.pinned line := by
  have hq : (s.takeMsg n).takeCopy l 1 line none (t.heard agent) = ({ t.heard agent with sent := true }, s.takeMsg n) := by
    simp [State.takeCopy, Txn.told, Txn.heard, hkind]
  have hline : t.line = line := txn_line ht
  obtain ⟨u, hu, hcellar, hdir, hmsgs, hpin⟩ := heard_caching (code := 1) (t := { t.heard agent with sent := true }) (s := s.takeMsg n) (l := l) (d := d)
    hline hlast hkind rfl hd (pinned_iff.2 ⟨t, List.mem_of_find?_eq_some ht, hline⟩)
  exact ⟨u, (exec_snpresp_copy hm ht hl (by decide)).trans (hq ▸ hu), hcellar, hdir, hmsgs, hpin⟩

end Last

/-! Data and Comp at the requester (R282). -/

/-- Is a request one of a core for a line? -/
def isReq (core line : Nat) (r : CReq) : Bool := decide (r.core = core) && decide (r.line = line)

theorem isReq_iff {core line : Nat} (r : CReq) : isReq core line r = true ↔ r.core = core ∧ r.line = line := by simp [isReq]

section Install
variable {s : State} {core line : Nat} {r : CReq} (hr : s.creqs.find? (isReq core line) = some r)
include hr

theorem find_isReq : s.creqs.find? (fun r => decide (r.core = core) && decide (r.line = line)) = some r := hr

/-- With Data and Comp the requester installs the line, sends CompAck, and its request is over. -/
theorem tryInstall_both {x : CLine} {g : CSt} (hx : r.data = some x) (hg : r.comp = some g) :
    (s.tryInstall core line).cacheLine core line = { x with st := g } ∧ Msg.compAck core line ∈ (s.tryInstall core line).msgs ∧
      (s.tryInstall core line).creqs.find? (isReq core line) = none := by
  have hinst : s.tryInstall core line = ((({ s with creqs := s.creqs.filter fun q => !isReq core line q } : State).installLine core line
      { x with st := g }).sendMsg (.compAck core line)) := by
    simp only [State.tryInstall, find_isReq hr, hx, hg]
    rfl
  rw [hinst]
  refine ⟨?_, by simp, ?_⟩
  · rw [State.cacheLine_sendMsg, cacheLine_installLine]
  · rw [State.sendMsg_creqs]
    obtain ⟨_, _, _, _, h⟩ := installLine_frame { s with creqs := s.creqs.filter fun q => !isReq core line q } core line { x with st := g }
    rw [h]
    simp [List.find?_eq_none]

/-- Without Comp, or without Data for a request that needs it, it waits. -/
theorem tryInstall_waits (h : r.comp = none ∨ r.data = none ∧ r.kind ≠ 2) : s.tryInstall core line = s := by
  obtain hc | ⟨hd, hk⟩ := h
  · simp [State.tryInstall, find_isReq hr, hc]
  · simp [State.tryInstall, find_isReq hr, hd, hk]

end Install

/-! The messages. -/

/-- The requests with those of a core for a line changed, which keep their core and line. -/
def State.updReq (s : State) (n core line : Nat) (g : CReq → CReq) : State :=
  { s with msgs := s.msgs.eraseIdx n, creqs := s.creqs.map fun r => if r.core = core ∧ r.line = line then g r else r }

theorem find_updReq {s : State} {core line : Nat} {r : CReq} (hr : s.creqs.find? (isReq core line) = some r) {g : CReq → CReq}
    (hg : ∀ r, (g r).core = r.core ∧ (g r).line = r.line) (n : Nat) : (s.updReq n core line g).creqs.find? (isReq core line) = some (g r) :=
  find?_map_where (q := fun r : CReq => r.core = core ∧ r.line = line) isReq_iff (fun r h => by rwa [(hg r).1, (hg r).2]) hr

theorem exec_dataMsg {s : State} {n core line : Nat} {x : CLine} (hm : s.msgs[n]? = some (.data core line x)) :
    exec (.dataMsg n) s = .next ((s.updReq n core line fun r => { r with data := some x }).tryInstall core line) := by
  show execDataMsg n s = _
  simp only [execDataMsg, hm]
  rfl

theorem exec_comp {s : State} {n core line : Nat} {g : CSt} (hm : s.msgs[n]? = some (.comp core line g)) :
    exec (.comp n) s = .next ((s.updReq n core line fun r => { r with comp := some g }).tryInstall core line) := by
  show execComp n s = _
  simp only [execComp, hm]
  rfl

/-- A refused request grows older and waits to be sent again (R288). -/
theorem exec_retry {s : State} {n core line : Nat} {r : CReq} (hm : s.msgs[n]? = some (.retry core line))
    (hr : s.creqs.find? (isReq core line) = some r) : ∃ u, exec (.retry n) s = .next u ∧ u.msgs = s.msgs.eraseIdx n ∧
      u.creqs.find? (isReq core line) = some { r with age := min (r.age + 1) 15, stage := 2 } := by
  have hfind := find_updReq hr (g := fun q => { q with age := min (q.age + 1) 15, stage := 2 }) (fun _ => ⟨rfl, rfl⟩) n
  have hstep : ∃ u, exec (.retry n) s = .next u ∧ (u = s.updReq n core line (fun q => { q with age := min (q.age + 1) 15, stage := 2 }) ∨
      ∃ f, u = (s.updReq n core line fun q => { q with age := min (q.age + 1) 15, stage := 2 }).bump f) := by
    show ∃ u, execRetry n s = .next u ∧ _
    simp only [execRetry, hm, find_isReq hr]
    split
    · split
      · exact ⟨_, rfl, .inr ⟨_, rfl⟩⟩
      · exact ⟨_, rfl, .inl rfl⟩
    · exact ⟨_, rfl, .inl rfl⟩
  obtain ⟨u, hu, rfl | ⟨f, rfl⟩⟩ := hstep
  · exact ⟨_, hu, rfl, hfind⟩
  · exact ⟨_, hu, rfl, hfind⟩

/-- A refused request is sent again once its cluster's evictions of the line have been acknowledged (R284, R288). -/
theorem exec_retryResend {s : State} {n : Nat} {r : CReq} (hr : s.creqs[n]? = some r) (hstage : r.stage = 2)
    (hfree : s.evicting r.core r.line = false) : exec (.retryResend n) s = .next { s with creqs := s.creqs.set n { r with stage := 0 } } := by
  show execRetryResend n s = _
  simp [execRetryResend, hr, hstage, hfree]

/-! CompAck (R286, R294). -/

theorem dropEmpty_listed {s : State} {line : Nat} (h : ∀ d, s.dir line = some d → d.owner.isSome ∨ d.vec ≠ 0 ∨ d.f ≠ 15) (home : Nat) :
    s.dropEmpty home line = s := by
  unfold State.dropEmpty
  split
  · next d hd =>
    refine if_neg fun hempty => ?_
    simp only [Bool.and_eq_true, Option.isNone_iff_eq_none, decide_eq_true_eq] at hempty
    obtain ⟨⟨hnone, hvec⟩, hf⟩ := hempty
    obtain ho | hv | hf' := h d hd
    · rw [hnone] at ho
      cases ho
    · exact hv hvec
    · exact hf' hf
  · rfl

/-- Closing the transaction of a line that is still listed and of which no eviction is held only unpins it. -/
theorem closeTxn_listed {s : State} {l : Loc} {line : Nat} (hdir : ∀ d, s.dir line = some d → d.owner.isSome ∨ d.vec ≠ 0 ∨ d.f ≠ 15)
    (hheld : ∀ e ∈ s.evicts, e.line = line → e.held = false) :
    s.closeTxn l line = ({ s with txns := s.txns.filter fun t => decide (t.line ≠ line) } : State).countPinned l.home := by
  have hfind : (({ s with txns := s.txns.filter fun t => decide (t.line ≠ line) } : State).countPinned l.home).evicts.find?
      (fun e => decide (e.line = line) && e.held && !e.consumed) = none := by
    rw [State.countPinned_evicts, List.find?_eq_none]
    intro e he
    by_cases hl : e.line = line
    · simp [hheld e he hl]
    · simp [hl]
  simp only [State.closeTxn]
  rw [dropEmpty_listed (by rw [State.dir, State.countPinned_dirs]; exact hdir), hfind]

/-- CompAck unpins the line. -/
theorem exec_compack {s : State} {n core line k : Nat} {t : Txn} {l : Loc} (hm : s.msgs[n]? = some (.compAck core line))
    (hl : s.locate (128 * line) = some l) (ht : s.txns.find? (fun t => decide (t.line = line)) = some t) (hkind : t.kind = .caching core k) :
    exec (.compack n) s = .next ((s.takeMsg n).closeTxn l line) := by
  show execCompack n s = _
  simp only [execCompack, hm, hl, ht, hkind, if_true]
  rfl

/-- WBAck frees the eviction buffer of an eviction that the home has consumed (R284). -/
theorem exec_wback {s : State} {n agent line : Nat} (hm : s.msgs[n]? = some (.wbAck agent line)) :
    exec (.wback n) s = .next { s with msgs := s.msgs.eraseIdx n,
                                       evicts := s.evicts.filter fun e => !(decide (e.agent = agent) && decide (e.line = line) && e.consumed) } := by
  show execWback n s = _
  simp only [execWback, hm]

/-- Settles O34, message by message. -/
theorem responsesCompleteRequests : Obligations.ResponsesCompleteRequests := by
  unfold Obligations.ResponsesCompleteRequests
  refine ⟨fun n k agent line code dirty s t l hm ht hl => ⟨snpresp_awaits hm ht hl, ?_, ?_, fun h5 hnone => ?_⟩,
    fun n core line x g s r hr => ⟨fun hm hg => ?_, fun hm hg => ?_, fun hm hx => ?_, fun hm hx hk => ?_, fun hm => exec_retry hm hr⟩,
    fun n s r => exec_retryResend, fun n core line k s t l hm hl ht hkind hheld hdir => ?_, fun n agent line s hm => ⟨_, exec_wback hm, rfl, fun e => ?_⟩⟩
  · rintro core o d x rfl rfl hlast hkind hd howner ho rfl hclean hlen huse
    exact snpresp_doneS ht hl hlast hd hm hkind howner ho hclean hlen huse
  · rintro core d rfl rfl hlast hkind hd rfl
    exact snpresp_doneI ht hl hlast hd hm hkind
  · have hwait : (code = 5 && !((s.evictOf agent line).map (·.held)).getD false) = true := by
      cases he : s.evictOf agent line with
      | none => simp [h5]
      | some e => simp [h5, hnone e he]
    rw [exec_snpresp hm ht hl, if_pos hwait]
  · obtain ⟨hcopy, hack, hover⟩ := tryInstall_both (find_updReq hr (g := fun r => { r with data := some x }) (fun _ => ⟨rfl, rfl⟩) n) rfl hg
    exact ⟨_, exec_dataMsg hm, hcopy, hack, hover⟩
  · have hreq := find_updReq hr (g := fun r => { r with data := some x }) (fun _ => ⟨rfl, rfl⟩) n
    exact ⟨_, (exec_dataMsg hm).trans (congrArg Host.Outcome.next (tryInstall_waits hreq (.inl hg))), rfl, rfl, hreq⟩
  · obtain ⟨hcopy, hack, hover⟩ := tryInstall_both (find_updReq hr (g := fun r => { r with comp := some g }) (fun _ => ⟨rfl, rfl⟩) n) hx rfl
    exact ⟨_, exec_comp hm, hcopy, hack, hover⟩
  · have hreq := find_updReq hr (g := fun r => { r with comp := some g }) (fun _ => ⟨rfl, rfl⟩) n
    exact ⟨_, (exec_comp hm).trans (congrArg Host.Outcome.next (tryInstall_waits hreq (.inr ⟨hx, hk⟩))), rfl, rfl, hreq⟩
  · have hclose := closeTxn_listed (s := s.takeMsg n) (l := l) hdir hheld
    refine ⟨_, (exec_compack hm hl ht hkind).trans (congrArg Host.Outcome.next hclose), ?_, State.countPinned_dirs _ _, State.countPinned_l2 _ _,
      State.countPinned_msgs _ _⟩
    rw [State.pinned, State.countPinned_txns]
    simp
  · rw [List.mem_filter, Bool.not_eq_true', ← Bool.not_eq_true]
    simp only [Bool.and_eq_true, decide_eq_true_eq, and_assoc]

end Sys2Proof.Machine
end

section
/-! An uncached write and the read after it where the carving cuts a line in two (R243, R245, R249, R289, R290). -/
namespace Sys2Proof.Machine

/-- A carving that R243 never accepts: its first region ends after 64 bytes, in the middle of line 0. A posted write of one byte to the
second half of the line is on its way, and the granule of the first half, which lies on another stack, is retired. -/
def cutState : State :=
  { live with
    carve := [⟨false, 0, 64⟩, ⟨false, 1, cellarSize⟩]
    retired := [((locOf { live with carve := [⟨false, 0, 64⟩] } 0).granule, true)]
    homeQ := [⟨64, [7#8], none⟩] }

/-- The second half of line 0 is plain: its own location is in use, and nothing holds the line. -/
theorem cutState_plainLine : PlainLine cutState (locOf cutState 64) 64 :=
  plain_of (by decide +kernel) (by decide +kernel) (by decide +kernel) (by decide +kernel) (by decide +kernel) (by decide +kernel) rfl rfl rfl

/-- What a reader gets that asks for the byte after the write has been accepted. -/
def readBack (s : State) : Option Answer :=
  match exec (.uncwrite 0) s with
  | .next u =>
    match exec (.uncread 64 1) u with
    | .next v => some v.answer
    | _ => none
  | _ => none

theorem readBack_eq {s u v : State} (hu : exec (.uncwrite 0) s = .next u) (hv : exec (.uncread 64 1) u = .next v) : readBack s = some v.answer := by
  simp only [readBack, hu, hv]

/-- The hamper's entry goes where its line begins, to the retired granule, and the byte is lost. -/
theorem cutState_readBack : readBack cutState = some ⟨0, [0#8]⟩ := by decide +kernel

/-- Refutes O35, by its clause of an uncached write of a plain line that is read back: the statement speaks of every state, and in `cutState`,
whose carving R243 never accepts, the line's two halves lie on two stacks, of which the hamper's flush takes the first one's. -/
theorem not_evictionsAtomicsAndUncachedAgents : ¬ Obligations.EvictionsAtomicsAndUncachedAgents := by
  rintro ⟨-, -, -, hwrite⟩
  obtain ⟨u, v, hu, -, hv, hans⟩ := (hwrite 0 cutState ⟨64, [7#8], none⟩ (locOf cutState 64) (by decide +kernel) (by decide)).1 cutState_plainLine
    (by decide +kernel) rfl
  have hlost := (readBack_eq hu hv).symm.trans cutState_readBack
  rw [hans] at hlost
  exact absurd hlost (by decide)

end Sys2Proof.Machine
end

section
/-! SUPPORT. A host core in machine mode at an access of the cellar: its step, its address and its line (R424 to R428, Tables 15.1 and 15.4). -/
namespace Sys2Proof.Machine

/-! The step. -/

/-- A core that may run executes the instruction that it has fetched; the debug module is not active and stops nothing. -/
theorem hartStep_runs {s s1 u : State} {c : CoreId} {i : Rv} {len w : Nat} (h : HartAt s s1 c i len w) {mine : Rv → Bool}
    {go : Rv → Nat → Nat → State → HDone} (hmine : mine i = true) (hgo : (go i len w s1).2 = u) (hquiet : u.dmActive = s1.dmActive) :
    s.hartStep c mine go = .next u := by
  have htrig : s.trigHit c 0 (s.hcore c).pc 1 = false := by rw [State.trigHit, h.quiet, Bool.false_and]
  have hoff : u.dmActive = false := hquiet.trans h.quiet'
  simp only [State.hartStep, h.runs, htrig, h.fetched, hmine, hgo, hoff, Bool.not_true, Bool.false_eq_true, if_false, if_true, Bool.and_false, Bool.false_and]

theorem trigHit_quiet {s : State} (h : s.dmActive = false) (c kind a n : Nat) : s.trigHit c kind a n = false := by
  rw [State.trigHit, h, Bool.false_and]

@[simp] theorem State.setHcore_setHcore (s : State) (c : Nat) (x y : HCore) : (s.setHcore c x).setHcore c y = s.setHcore c y := by
  simp [State.setHcore, putMap_putMap_same]

theorem hartRetire_retired {s : State} {c : Nat} {x : HCore} (hx : s.hcore c = x) (rd : Nat) (v : BitVec 64) (len : Nat) :
    s.hartRetire c rd v (x.pc + len) = s.setHcore c (retired x rd v len) := by
  subst hx; rfl

/-! The address. -/

theorem placeOf_cellar {a : Nat} (h : a < cellarSize) : placeOf a = some (.cellar a) := if_pos h

theorem dataMode_machine {x : HCore} (hmode : x.mode = 3) (hown : x.mst 17 1 ≠ 1) : x.dataMode = 3 := by
  rw [HCore.dataMode, if_neg fun h => hown h.2, hmode]

/-- Machine mode does not translate. -/
theorem hartXlate_machine (s : State) (c kind : Nat) {a : Nat} (ha : a < cellarSize) : s.hartXlate c 3 kind a = (.ok a false, s) := by
  have hlow : a < 2 ^ 56 := lt_of_lt_of_le ha (by decide)
  simp only [State.hartXlate, true_or, if_true, hlow]

theorem hartParts_machine (s : State) (c kind : Nat) {a n : Nat} (ha : a < cellarSize) (hal : a % n = 0) :
    s.hartParts c 3 kind a n = (.ok [(a, n, false)], s) := by
  simp [State.hartParts, hartXlate_machine s c kind ha, hal]

/-- An aligned address of the cellar that PMP allows is an AMO's, an LR's, an SC's or a cache-block operation's. -/
theorem atomicPa_machine {s : State} {c kind a n : Nat} (hmode : (s.hcore c).mode = 3) (hown : (s.hcore c).mst 17 1 ≠ 1) (hal : a % n = 0)
    (ha : a < cellarSize) (hpmp : (s.hcore c).pmpOk 3 kind a n = true) (mis : Nat) : s.atomicPa c kind mis a n = (.ok (a, false), s) := by
  have hcell : isCellar a = true := by rw [isCellar, placeOf_cellar ha]
  simp [State.atomicPa, hal, dataMode_machine hmode hown, hartXlate_machine s c kind ha, hcell, hpmp]

theorem cellarAt_dataMode {s : State} {c : CoreId} {kind a n : Nat} (h : CellarAt s c kind a n) : (s.hcore c).dataMode = 3 :=
  dataMode_machine h.mode h.own

theorem cellarAt_atomicPa {s : State} {c : CoreId} {kind a n : Nat} (h : CellarAt s c kind a n) (mis : Nat) :
    s.atomicPa c kind mis a n = (.ok (a, false), s) := atomicPa_machine h.mode h.own h.aligned h.cellar h.pmp mis

/-! The line in the core's L2. -/

section Line
variable {s : State} {c : CoreId} {kind a n : Nat} (h : CellarAt s c kind a n)
include h

theorem cellarAt_noneEnded : s.creqs.find? (fun r => decide (r.core = (c : Nat)) && decide (r.line = a / 128) && decide (r.stage = 3) && decide (r.kind < 3)) =
    none := by
  rw [List.find?_eq_none]
  intro r hr
  have hst := h.noEnded r hr
  simp only [Bool.and_eq_true, decide_eq_true_eq, not_and]
  exact fun ⟨⟨hc, hl⟩, hs⟩ => absurd hs (hst hc hl)

theorem cellarAt_coreLine_held (k : Nat) {write : Bool} (hst : (s.cacheLine c (a / 128)).st ≠ .i)
    (hw : write = true → (s.cacheLine c (a / 128)).st = .e ∨ (s.cacheLine c (a / 128)).st = .m) :
    s.coreLine c (a / 128) k write = (.ok (s.cacheLine c (a / 128)), s) := by
  have hown : (write && !(decide ((s.cacheLine c (a / 128)).st = .e) || decide ((s.cacheLine c (a / 128)).st = .m))) = false := by
    cases write with
    | false => rfl
    | true => obtain he | hm := hw rfl <;> simp [*]
  simp only [State.coreLine, cellarAt_noneEnded h, hown, if_neg hst, Bool.false_eq_true, if_false]

theorem cellarAt_coreLine_absent (k : Nat) (hst : (s.cacheLine c (a / 128)).st = .i) :
    s.coreLine c (a / 128) k false = (.error .wait, s.askShared c (a / 128)) := by
  simp [State.coreLine, cellarAt_noneEnded h, hst]

theorem cellarAt_coreLine_unowned (k : Nat) (hst : (s.cacheLine c (a / 128)).st = .i ∨ (s.cacheLine c (a / 128)).st = .s ∨ (s.cacheLine c (a / 128)).st = .f) :
    s.coreLine c (a / 128) k true = (.error .wait, s.askUnique c (a / 128)) := by
  obtain hst | hst | hst := hst <;> simp [State.coreLine, cellarAt_noneEnded h, hst]

theorem cellarAt_coreLineRead_held (k : Nat) (hst : (s.cacheLine c (a / 128)).st ≠ .i) (hclean : (s.cacheLine c (a / 128)).poison = 0) :
    s.coreLineRead c a n k = (.ok (((s.cacheLine c (a / 128)).data.drop (a % 128)).take n), s) := by
  have hnone : (burstsOf (a % 128) n).any (bitAt 0) = false := by simp [bitAt]
  have hline := cellarAt_coreLine_held h k (write := false) hst (fun hw => absurd hw Bool.false_ne_true)
  simp only [State.coreLineRead, hline, hclean, hnone, Bool.false_eq_true, if_false]

/-- A line held in E or M takes the bytes and is then in M (R282); a burst written whole is no longer poisoned. -/
theorem cellarAt_coreLineWrite_held (hst : (s.cacheLine c (a / 128)).st = .e ∨ (s.cacheLine c (a / 128)).st = .m) (bs : List Byte) :
    ∃ p, s.coreLineWrite c a bs = (.ok [], s.setCacheLine c (a / 128) ⟨.m, overlay (s.cacheLine c (a / 128)).data (a % 128) bs, p⟩) ∧
      (bs.length < 64 → p = (s.cacheLine c (a / 128)).poison) ∧ (bs.length = 64 → a % 64 = 0 → bitAt p (a % 128 / 64) = false) := by
  have hi : (s.cacheLine c (a / 128)).st ≠ .i := by obtain he | hm := hst <;> simp [*]
  simp only [State.coreLineWrite, cellarAt_coreLine_held h 2 hi (fun _ => hst)]
  refine ⟨_, rfl, fun hlen => ?_, fun hlen hal => ?_⟩
  · rw [if_neg (by simp only [Bool.and_eq_true, decide_eq_true_eq]; omega), if_neg (by simp only [Bool.and_eq_true, decide_eq_true_eq]; omega)]
    omega
  · obtain hlow | hhigh : a % 128 = 0 ∨ a % 128 = 64 := by omega
    · simp [hlow, hlen, bitAt]
    · simp [hhigh, hlen, bitAt]

theorem cellarAt_coreLineWrite_unowned
    (hst : (s.cacheLine c (a / 128)).st = .i ∨ (s.cacheLine c (a / 128)).st = .s ∨ (s.cacheLine c (a / 128)).st = .f) (bs : List Byte) :
    s.coreLineWrite c a bs = (.wait, s.askUnique c (a / 128)) := by
  simp only [State.coreLineWrite, cellarAt_coreLine_unowned h 2 hst]

end Line

/-! Loads and stores. -/

section Access
variable {s : State} {c : CoreId} {a n : Nat}

theorem cellarAt_physRead (h : CellarAt s c 1 a n) : s.physRead c 3 1 a n false = s.coreLineRead c a n 1 := by
  have hreg : regRange a = false := by
    have := h.cellar
    simp only [regRange, cellarSize] at this ⊢
    simp; omega
  simp [State.physRead, h.pmp, hreg, placeOf_cellar h.cellar, h.fits]

/-- A load reads the bytes of its line (R425, R428). -/
theorem cellarAt_hartRead_held (h : CellarAt s c 1 a n) (hst : (s.cacheLine c (a / 128)).st ≠ .i) (hclean : (s.cacheLine c (a / 128)).poison = 0) :
    s.hartRead c 3 1 a n = (.ok (((s.cacheLine c (a / 128)).data.drop (a % 128)).take n), s) := by
  simp [State.hartRead, hartParts_machine s c 1 h.cellar h.aligned, State.readParts, cellarAt_physRead h, cellarAt_coreLineRead_held h 1 hst hclean]

theorem cellarAt_hartRead_absent (h : CellarAt s c 1 a n) (hst : (s.cacheLine c (a / 128)).st = .i) :
    s.hartRead c 3 1 a n = (.wait, s.askShared c (a / 128)) := by
  simp [State.hartRead, hartParts_machine s c 1 h.cellar h.aligned, State.readParts, cellarAt_physRead h, State.coreLineRead, cellarAt_coreLine_absent h 1 hst]

theorem cellarAt_physWrite {bs : List Byte} (h : CellarAt s c 2 a bs.length) : s.physWrite c 3 a bs false = s.coreLineWrite c a bs := by
  have hreg : regRange a = false := by
    have := h.cellar
    simp only [regRange, cellarSize] at this ⊢
    simp; omega
  simp [State.physWrite, h.pmp, hreg, placeOf_cellar h.cellar, h.fits]

/-- A store ends as the write of its line does. -/
theorem cellarAt_hartWrite_ok {bs : List Byte} (h : CellarAt s c 2 a bs.length) {u : State} (hw : s.coreLineWrite c a bs = (.ok [], u)) :
    s.hartWrite c 3 a bs = (.ok [], u) := by
  simp only [State.hartWrite, hartParts_machine s c 2 h.cellar h.aligned, State.writeParts, List.take_length, cellarAt_physWrite h, hw]

theorem cellarAt_hartWrite_wait {bs : List Byte} (h : CellarAt s c 2 a bs.length) {u : State} (hw : s.coreLineWrite c a bs = (.wait, u)) :
    s.hartWrite c 3 a bs = (.wait, u) := by
  simp only [State.hartWrite, hartParts_machine s c 2 h.cellar h.aligned, State.writeParts, List.take_length, cellarAt_physWrite h, hw]

end Access

/-! What a core asks for (R280, R282). -/

theorem mem_coresOf (c : CoreId) : (c : Nat) ∈ coresOf (c / 8) := by
  simp only [coresOf, List.mem_map, List.mem_range]
  exact ⟨c % 8, by omega, by omega⟩

/-- A request of a core that no cache of its cluster serves is sent. -/
theorem sendReq_alone {s : State} {core line : Nat} (hmay : s.mayRequest core line = true)
    (hsibs : ∀ d ∈ coresOf (core / 8), d ≠ core → (s.cacheLine d line).st = .i) (kind : Nat) (op : List Nat) :
    s.sendReq core line kind op = { s with creqs := s.creqs ++ [⟨core, line, kind, 0, 0, op, none, none⟩] } := by
  have hnone : (coresOf (core / 8)).filter (fun d => decide (d ≠ core) && decide ((s.cacheLine d line).st ≠ .i)) = [] := by
    rw [List.filter_eq_nil_iff]
    intro d hd
    by_cases hc : d = core
    · simp [hc]
    · simp [hsibs d hd hc]
  simp only [State.sendReq, hmay, hnone, List.find?_nil, List.foldl_nil, Bool.not_true, Bool.false_eq_true, if_false, ite_self]

/-- RdShared and an AMO's request leave the copies of the cluster alone. -/
theorem sendReq_passive {s : State} {core line kind : Nat} (hmay : s.mayRequest core line = true) (hk : kind = 0 ∨ kind = 3) (op : List Nat) :
    s.sendReq core line kind op = { s with creqs := s.creqs ++ [⟨core, line, kind, 0, 0, op, none, none⟩] } := by
  obtain rfl | rfl := hk <;> simp [State.sendReq, hmay]

theorem askShared_alone {s : State} {core line : Nat} (hmay : s.mayRequest core line = true)
    (hnone : ∀ d ∈ coresOf (core / 8), (s.cacheLine d line).st = .i) :
    s.askShared core line = { s with creqs := s.creqs ++ [⟨core, line, 0, 0, 0, [], none, none⟩] } := by
  have hsib : (coresOf (core / 8)).find? (fun d => decide ((s.cacheLine d line).st = .s) || decide ((s.cacheLine d line).st = .f)) = none := by
    rw [List.find?_eq_none]
    exact fun d hd => by simp [hnone d hd]
  rw [State.askShared, hsib]
  exact sendReq_passive hmay (.inl rfl) []

/-- A store of a line that the core does not own asks for it: RdUnique where it holds nothing, else Upgrade. -/
theorem askUnique_alone {s : State} {core line : Nat} (hmay : s.mayRequest core line = true)
    (hsibs : ∀ d ∈ coresOf (core / 8), d ≠ core → (s.cacheLine d line).st = .i) :
    s.askUnique core line = { s with creqs := s.creqs ++ [⟨core, line, if (s.cacheLine core line).st = .i then 1 else 2, 0, 0, [], none, none⟩] } :=
  sendReq_alone hmay hsibs _ []

end Sys2Proof.Machine
end

section
/-! SUPPORT. Loads, stores, LR, SC and cbo.zero of a core in machine mode on the cellar; settles O36 (R280, R282, R424 to R428, Table 15.4). -/
namespace Sys2Proof.Machine

/-- A load ends as the read of its bytes does. -/
theorem exec_hostCoreLoad {c : CoreId} {s s1 u : State} {sz rd rs1 len w a : Nat} {sgn : Bool} {imm : Int}
    (h : HartAt s s1 c (.load sz sgn rd rs1 imm) len w) (ha : a = ((s1.hcore c).xr rs1 + BitVec.ofInt 64 imm).toNat)
    (hc : CellarAt s1 c 1 a (2 ^ sz)) {r : HAcc × State} (hr : s1.hartRead c 3 1 a (2 ^ sz) = r)
    (hu : (State.hartEnd c a r fun bs t => t.hartRetire c rd (loadVal 64 sz sgn bs) ((s1.hcore c).pc + len)).2 = u)
    (hquiet : u.dmActive = s1.dmActive) : exec (.hostCoreLoad c) s = .next u := by
  have haddr : (s1.hcore c).addr rs1 imm = a := ha.symm
  show execHostCoreLoad c s = .next u
  refine hartStep_runs h rfl ?_ hquiet
  simp only [haddr, trigHit_quiet h.quiet', Bool.false_eq_true, if_false, cellarAt_dataMode hc, hr, hu]

/-- A store ends as the write of its bytes does. -/
theorem exec_hostCoreStore {c : CoreId} {s s1 u : State} {sz rs1 rs2 len w a : Nat} {imm : Int}
    (h : HartAt s s1 c (.store sz rs1 rs2 imm) len w) (ha : a = ((s1.hcore c).xr rs1 + BitVec.ofInt 64 imm).toNat)
    (hc : CellarAt s1 c 2 a (2 ^ sz)) {r : HAcc × State} (hr : s1.hartWrite c 3 a (toBytes (2 ^ sz) ((s1.hcore c).xr rs2).toNat) = r)
    (hu : (State.hartEnd c a r fun _ t => t.hartRetire c 0 0#64 ((s1.hcore c).pc + len)).2 = u)
    (hquiet : u.dmActive = s1.dmActive) : exec (.hostCoreStore c) s = .next u := by
  have haddr : (s1.hcore c).addr rs1 imm = a := ha.symm
  show execHostCoreStore c s = .next u
  refine hartStep_runs h rfl ?_ hquiet
  simp only [haddr, trigHit_quiet h.quiet', Bool.false_eq_true, if_false, cellarAt_dataMode hc, hr, hu]

/-- LR of a line held in E or M places the reservation and the hold and loads (R426, R427). -/
theorem exec_lr {c : CoreId} {s s1 : State} {sz rd rs1 len w a : Nat} (h : HartAt s s1 c (.lr sz rd rs1) len w)
    (ha : a = ((s1.hcore c).xr rs1).toNat) (hc : CellarAt s1 c 1 a (2 ^ sz))
    (hst : (s1.cacheLine c (a / 128)).st = .e ∨ (s1.cacheLine c (a / 128)).st = .m) (hclean : (s1.cacheLine c (a / 128)).poison = 0) :
    exec (.lr c) s = .next (s1.setHcore c (retired { s1.hcore c with resv := some (a / 64), hold := true } rd
      (loadVal 64 sz true (((s1.cacheLine c (a / 128)).data.drop (a % 128)).take (2 ^ sz))) len)) := by
  have hheld : (s1.cacheLine c (a / 128)).st ≠ .i := by
    obtain he | hm := hst
    · simp [he]
    · simp [hm]
  show execLr c s = _
  refine hartStep_runs h rfl ?_ rfl
  simp only [← ha, cellarAt_atomicPa hc, cellarAt_coreLine_held hc 1 hheld (fun _ => hst), cellarAt_coreLineRead_held hc 1 hheld hclean,
    Bool.false_eq_true, if_false, State.hartEnd]
  rw [hartRetire_retired (State.hcore_setHcore_same s1 c { s1.hcore c with resv := some (a / 64), hold := true }), State.setHcore_setHcore]

section Sc
variable {c : CoreId} {s s1 : State} {sz rd rs1 rs2 len w a : Nat} (h : HartAt s s1 c (.sc sz rd rs1 rs2) len w)
  (ha : a = ((s1.hcore c).xr rs1).toNat) (hc : CellarAt s1 c 2 a (2 ^ sz))
include h ha hc

/-- SC with its reservation and the line in E or M stores and gives 0; the reservation and the hold end (R426). -/
theorem exec_sc_stores (hres : (s1.hcore c).resv = some (a / 64))
    (hst : (s1.cacheLine c (a / 128)).st = .e ∨ (s1.cacheLine c (a / 128)).st = .m) : ∃ p, exec (.sc c) s = .next
      ((s1.setCacheLine c (a / 128) ⟨.m, overlay (s1.cacheLine c (a / 128)).data (a % 128) (toBytes (2 ^ sz) ((s1.hcore c).xr rs2).toNat), p⟩).setHcore c
        (retired { s1.hcore c with resv := none, hold := false } rd 0#64 len)) := by
  obtain ⟨p, hw, -⟩ := cellarAt_coreLineWrite_held hc hst (toBytes (2 ^ sz) ((s1.hcore c).xr rs2).toNat)
  have hok : (decide ((s1.hcore c).resv = some (a / 64)) && (decide ((s1.cacheLine c (a / 128)).st = .e) ||
      decide ((s1.cacheLine c (a / 128)).st = .m))) = true := by
    obtain he | hm := hst
    · simp [hres, he]
    · simp [hres, hm]
  refine ⟨p, ?_⟩
  show execSc c s = _
  refine hartStep_runs h rfl ?_ rfl
  have hcore : (s1.setCacheLine c (a / 128) ⟨.m, overlay (s1.cacheLine c (a / 128)).data (a % 128) (toBytes (2 ^ sz) ((s1.hcore c).xr rs2).toNat), p⟩).hcore c =
      s1.hcore c := rfl
  simp only [← ha, cellarAt_atomicPa hc, hok, if_true, hw, hcore]
  rw [hartRetire_retired (State.hcore_setHcore_same _ c { s1.hcore c with resv := none, hold := false }), State.setHcore_setHcore]

/-- Without its reservation, or the line in E or M, SC gives 1 and stores nothing. -/
theorem exec_sc_fails (hbad : (s1.hcore c).resv ≠ some (a / 64) ∨ (s1.cacheLine c (a / 128)).st = .i ∨ (s1.cacheLine c (a / 128)).st = .s ∨
    (s1.cacheLine c (a / 128)).st = .f) :
    exec (.sc c) s = .next (s1.setHcore c (retired { s1.hcore c with resv := none, hold := false } rd 1#64 len)) := by
  have hok : (decide ((s1.hcore c).resv = some (a / 64)) && (decide ((s1.cacheLine c (a / 128)).st = .e) ||
      decide ((s1.cacheLine c (a / 128)).st = .m))) = false := by
    obtain hr | hi | hs | hf := hbad
    · simp [hr]
    · simp [hi]
    · simp [hs]
    · simp [hf]
  show execSc c s = _
  refine hartStep_runs h rfl ?_ rfl
  simp only [← ha, cellarAt_atomicPa hc, hok, Bool.false_eq_true, if_false]
  rw [hartRetire_retired (State.hcore_setHcore_same s1 c { s1.hcore c with resv := none, hold := false }), State.setHcore_setHcore]

end Sc

/-- cbo.zero zeroes its block of a line held in E or M (R424). -/
theorem exec_cboZero {c : CoreId} {s s1 : State} {rs1 len w b : Nat} (h : HartAt s s1 c (.cbo 4 rs1) len w)
    (hb : b = ((s1.hcore c).xr rs1).toNat / 64 * 64) (hc : CellarAt s1 c 2 b 64)
    (hst : (s1.cacheLine c (b / 128)).st = .e ∨ (s1.cacheLine c (b / 128)).st = .m) : ∃ p, bitAt p (b % 128 / 64) = false ∧
      exec (.cboZero c) s = .next
        ((s1.setCacheLine c (b / 128) ⟨.m, overlay (s1.cacheLine c (b / 128)).data (b % 128) (List.replicate 64 0#8), p⟩).setHcore c
          (retired (s1.hcore c) 0 0#64 len)) := by
  obtain ⟨p, hw, -, hp⟩ := cellarAt_coreLineWrite_held hc hst (List.replicate 64 0#8)
  have hon : (s1.hcore c).cboOn 7 = true := by rw [HCore.cboOn, decide_eq_true hc.mode, Bool.true_or]
  have hwrite := cellarAt_physWrite (s := s1) (c := c) (a := b) (bs := List.replicate 64 0#8) (by rw [List.length_replicate]; exact hc)
  refine ⟨p, hp List.length_replicate hc.aligned, ?_⟩
  show execCboZero c s = _
  refine hartStep_runs h rfl ?_ rfl
  simp only [State.cboZero, State.cboLine, ← hb, hon, cellarAt_atomicPa hc, cellarAt_dataMode hc, hwrite, hw, Bool.not_true, Bool.false_eq_true, if_false,
    State.hartEnd]
  exact hartRetire_retired rfl 0 0#64 len

/-- Settles O36, instruction by instruction. -/
theorem hostCoresLoadAndStoreThroughTheirCaches : Obligations.HostCoresLoadAndStoreThroughTheirCaches := by
  unfold Obligations.HostCoresLoadAndStoreThroughTheirCaches
  refine ⟨fun c s s1 sz sgn rd rs1 imm len w a hsz h ha hc => ⟨fun hst hclean => ?_, fun hnone hmay => ?_⟩,
    fun c s s1 sz rs1 rs2 imm len w a hsz h ha hc => ⟨fun hst => ?_, fun hsibs hmay => ⟨fun hi => ?_, fun hsf => ?_⟩⟩,
    fun c s s1 sz rd rs1 len w a hsz h ha hc hst hclean => exec_lr h ha hc hst hclean,
    fun c s s1 sz rd rs1 rs2 len w a hsz h ha hc => ⟨fun hres hst => ?_, exec_sc_fails h ha hc⟩, fun c s s1 rs1 len w b h hb hc hst => ?_⟩
  · exact exec_hostCoreLoad h ha hc (cellarAt_hartRead_held hc hst hclean) (hartRetire_retired rfl rd _ len) rfl
  · exact exec_hostCoreLoad h ha hc (cellarAt_hartRead_absent hc (hnone c (mem_coresOf c))) (askShared_alone hmay hnone) rfl
  · obtain ⟨p, hw, hp, -⟩ := cellarAt_coreLineWrite_held hc hst (toBytes (2 ^ sz) ((s1.hcore c).xr rs2).toNat)
    have hlen : (toBytes (2 ^ sz) ((s1.hcore c).xr rs2).toNat).length = 2 ^ sz := length_toBytes _ _
    have hsmall : 2 ^ sz ≤ 2 ^ 3 := Nat.pow_le_pow_right (by decide) hsz
    rw [hp (by omega)] at hw
    exact exec_hostCoreStore h ha hc (cellarAt_hartWrite_ok (by rw [hlen]; exact hc) hw) (hartRetire_retired rfl 0 0#64 len) rfl
  · have hw := cellarAt_coreLineWrite_unowned hc (.inl hi) (toBytes (2 ^ sz) ((s1.hcore c).xr rs2).toNat)
    have hask := askUnique_alone hmay hsibs
    rw [if_pos hi] at hask
    exact exec_hostCoreStore h ha hc (cellarAt_hartWrite_wait (by rw [length_toBytes]; exact hc) hw) hask rfl
  · have hw := cellarAt_coreLineWrite_unowned hc (.inr hsf) (toBytes (2 ^ sz) ((s1.hcore c).xr rs2).toNat)
    have hask := askUnique_alone hmay hsibs
    have hheld : (s1.cacheLine c (a / 128)).st ≠ .i := by
      obtain hs | hf := hsf
      · simp [hs]
      · simp [hf]
    rw [if_neg hheld] at hask
    exact exec_hostCoreStore h ha hc (cellarAt_hartWrite_wait (by rw [length_toBytes]; exact hc) hw) hask rfl
  · obtain ⟨p, hsc⟩ := exec_sc_stores h ha hc hres hst
    exact ⟨_, hsc, by simp, by simp [State.cacheLine_setHcore], by simp [State.cacheLine_setHcore], rfl⟩
  · obtain ⟨p, hp, hz⟩ := exec_cboZero h hb hc hst
    exact ⟨_, hz, by simp, by simp [State.cacheLine_setHcore], by simp [State.cacheLine_setHcore], by simpa [State.cacheLine_setHcore] using hp, rfl⟩

end Sys2Proof.Machine
end

section
/-! SUPPORT. AMOs and cache-block operations of a core in machine mode on the cellar; settles O37 (R284, R292, R424). -/
namespace Sys2Proof.Machine

/-! Evictions. -/

@[simp] theorem cacheLine_dropCopy_same (s : State) (c line : Nat) : (s.dropCopy c line).cacheLine c line = CLine.none := by
  rw [State.dropCopy, cacheLine_loseResv, cacheLine_setCacheLine_same]

/-- A core that drops a line keeps its pc. -/
theorem pc_dropCopy (s : State) (c line : Nat) : ((s.dropCopy c line).hcore c).pc = (s.hcore c).pc := by
  unfold State.dropCopy State.loseResv
  split
  · rw [State.hcore_setHcore_same]; rfl
  · rfl

@[simp] theorem cellar_dropCopy (s : State) (c line : Nat) : (s.dropCopy c line).cellar = s.cellar := by rw [dropCopy_frame]

@[simp] theorem evicts_dropCopy (s : State) (c line : Nat) : (s.dropCopy c line).evicts = s.evicts := by rw [dropCopy_frame]

/-- A line held in M is evicted with its data, one held in E without (Table 10.1, R283). -/
theorem evictLine_owned {s : State} {c line : Nat} {wb : Option CLine}
    (h : (s.cacheLine c line).st = .m ∧ wb = some (s.cacheLine c line) ∨ (s.cacheLine c line).st = .e ∧ wb = none) :
    s.evictLine c line = { s.dropCopy c line with evicts := s.evicts ++ [⟨c, line, wb, false, false⟩] } := by
  obtain ⟨hst, rfl⟩ | ⟨hst, rfl⟩ := h
  · simp only [State.evictLine, hst, evicts_dropCopy]
  · simp only [State.evictLine, hst, evicts_dropCopy]

/-- After its eviction a line is gone from the core, whose pc has not moved, and the cellar is as it was. -/
theorem evictLine_effect {s u : State} {c line : Nat} {e : Evict} (hu : u = { s.dropCopy c line with evicts := s.evicts ++ [e] }) :
    u.cacheLine c line = CLine.none ∧ u.evicts = s.evicts ++ [e] ∧ (u.hcore c).pc = (s.hcore c).pc ∧ u.cellar = s.cellar := by
  subst hu
  exact ⟨cacheLine_dropCopy_same s c line, rfl, pc_dropCopy s c line, cellar_dropCopy s c line⟩

/-! AMOs. -/

/-- The old value of an AMO that rd takes: sign-extended where it is a word. -/
theorem ofInt_sext_old {sz : Nat} (hsz : sz = 2 ∨ sz = 3) (old : Nat) : BitVec.ofInt 64 (sext (8 * 2 ^ sz) old) =
    if sz = 3 then BitVec.ofNat 64 old else (BitVec.ofNat 32 old).signExtend 64 := by
  have hsext (n : Nat) (hn : 0 < n) : sext n old = (BitVec.ofNat n old).toInt := by
    obtain ⟨m, rfl⟩ : ∃ m, n = m + 1 := ⟨n - 1, by omega⟩
    rw [BitVec.toInt_eq_toNat_cond, BitVec.toNat_ofNat, sext, Nat.add_sub_cancel]
    exact if_congr (by rw [Nat.pow_succ]; omega) rfl rfl
  obtain rfl | rfl := hsz
  · rw [if_neg (by decide), hsext _ (by decide)]
    rfl
  · rw [if_pos rfl, hsext _ (by decide)]
    exact BitVec.ofInt_toInt

section Amo
variable {c : CoreId} {s s1 : State} {op sz rd rs1 rs2 len w a : Nat} (hsz : sz = 2 ∨ sz = 3) (h : HartAt s s1 c (.amo op sz rd rs1 rs2) len w)
  (ha : a = ((s1.hcore c).xr rs1).toNat) (hpa : s1.atomicPa c 2 6 a (2 ^ sz) = (.ok (a, false), s1))
include hsz h ha hpa

/-- An AMO sends its operands to the home and waits (R292, R425). -/
theorem exec_amo_asks (hnone : ∀ r ∈ s1.creqs, r.core = c → r.line = a / 128 → r.kind = 3 → r.stage ≠ 3) (hmay : s1.mayRequest c (a / 128) = true) :
    exec (.amo c) s = .next { s1 with creqs := s1.creqs ++ [⟨c, a / 128, 3, 0, 0,
      [a, 2 ^ sz, amoCode op, ((s1.hcore c).xr rs2).toNat, ((s1.hcore c).xr rd).toNat], none, none⟩] } := by
  have hfind : s1.creqs.find? (fun r => decide (r.core = c.val) && decide (r.line = a / 128) && decide (r.kind = 3) && decide (r.stage = 3)) = none := by
    rw [List.find?_eq_none]
    intro r hr
    simp only [Bool.and_eq_true, decide_eq_true_eq, not_and]
    exact fun ⟨⟨hc, hl⟩, hk⟩ => hnone r hr hc hl hk
  have h4 : sz ≠ 4 := by omega
  show execAmo c s = _
  refine hartStep_runs h rfl ?_ rfl
  simp only [← ha, hpa, hfind, if_neg h4]
  exact sendReq_passive hmay (.inr rfl) _

/-- With the home's answer rd takes the old value (R425, R428). -/
theorem exec_amo_ends {r : CReq} {old : Nat} (hop : r.op = [0, old])
    (hfind : s1.creqs.find? (fun r => decide (r.core = c.val) && decide (r.line = a / 128) && decide (r.kind = 3) && decide (r.stage = 3)) = some r) :
    exec (.amo c) s = .next (({ s1 with creqs := s1.creqs.filter fun q => decide (q ≠ r) }).setHcore c
      (retired (s1.hcore c) rd (if sz = 3 then BitVec.ofNat 64 old else (BitVec.ofNat 32 old).signExtend 64) len)) := by
  have h4 : sz ≠ 4 := by omega
  show execAmo c s = _
  refine hartStep_runs h rfl ?_ rfl
  simp only [← ha, hpa, hfind, hop, if_neg h4, List.getD_cons_zero, List.getD_cons_succ, ne_eq, not_true_eq_false, if_false]
  rw [ofInt_sext_old hsz]
  exact hartRetire_retired rfl rd _ len

end Amo

/-! Cache-block operations. -/

/-- cbo.clean, cbo.flush and cbo.inval are one operation on the line, which machine mode allows; the last two flush. -/
theorem exec_cbo {c : CoreId} {s s1 u : State} {k rs1 len w : Nat} {cmd : Instr} (h : HartAt s s1 c (.cbo k rs1) len w)
    (hcmd : k = 1 ∧ cmd = .cboClean c ∨ k = 2 ∧ cmd = .cboFlush c ∨ k = 0 ∧ cmd = .cboInval c)
    (hgo : ∀ always, (s1.cboLineOp c rs1 len w (decide (k ≠ 1)) always).2 = u) (hquiet : u.dmActive = s1.dmActive) : exec cmd s = .next u := by
  obtain ⟨rfl, rfl⟩ | ⟨rfl, rfl⟩ | ⟨rfl, rfl⟩ := hcmd
  · show execCboClean c s = _
    exact hartStep_runs h rfl (hgo false) hquiet
  · show execCboFlush c s = _
    exact hartStep_runs h rfl (hgo false) hquiet
  · show execCboInval c s = _
    exact hartStep_runs h rfl (hgo true) hquiet

section CboLine
variable {c : CoreId} {s : State} {rs1 b : Nat} (hb : b = ((s.hcore c).xr rs1).toNat / 64 * 64) (hc : CellarAt s c 1 b 64)
include hb hc

/-- The core's own copy is evicted first, a clean one for a flush only. -/
theorem cboLineOp_evicts (len w : Nat) (flush always : Bool)
    (hst : (s.cacheLine c (b / 128)).st = .m ∨ (s.cacheLine c (b / 128)).st = .e ∧ flush = true) :
    (s.cboLineOp c rs1 len w flush always).2 = s.evictLine c (b / 128) := by
  have hon : (s.hcore c).cboOn 6 = true := by rw [HCore.cboOn, decide_eq_true hc.mode, Bool.true_or]
  have hown : (decide ((s.cacheLine c (b / 128)).st = .m) || (flush && decide ((s.cacheLine c (b / 128)).st ≠ .i))) = true := by
    obtain hm | ⟨he, hf⟩ := hst
    · simp [hm]
    · simp [he, hf]
  simp only [State.cboLineOp, State.cboLine, ← hb, hon, cellarAt_atomicPa hc, hown, Bool.not_true, Bool.and_false, Bool.false_eq_true, if_false, if_true]

/-- Where nothing is left to clear, the core moves on. -/
theorem cboLineOp_passes (len w : Nat) {flush : Bool} (always : Bool) (hbusy : s.lineBusy (b / 128) = false) (hwaits : s.clearWaits (b / 128) = false)
    (hheld : ∀ l, s.locate (128 * (b / 128)) = some l → s.lineHeld l [0, 1] = false) (hm : (s.cacheLine c (b / 128)).st ≠ .m)
    (hi : flush = true → (s.cacheLine c (b / 128)).st = .i)
    (hdue : (if flush then (s.dir (b / 128)).isSome else (s.dirtyCopy (b / 128)).isSome) = false) :
    (s.cboLineOp c rs1 len w flush always).2 = s.setHcore c (retired (s.hcore c) 0 0#64 len) := by
  have hon : (s.hcore c).cboOn 6 = true := by rw [HCore.cboOn, decide_eq_true hc.mode, Bool.true_or]
  have hown : (decide ((s.cacheLine c (b / 128)).st = .m) || (flush && decide ((s.cacheLine c (b / 128)).st ≠ .i))) = false := by
    cases flush with
    | false => simp [hm]
    | true => simp [hi rfl]
  have hbank : ((s.locate (128 * (b / 128))).any fun l => s.lineHeld l [0, 1]) = false := by
    cases hloc : s.locate (128 * (b / 128)) with
    | none => rfl
    | some l => exact hheld l hloc
  simp only [State.cboLineOp, State.cboLine, ← hb, hon, cellarAt_atomicPa hc, hown, hbusy, hwaits, hbank, hdue, Bool.not_true, Bool.and_false, Bool.or_self,
    Bool.false_eq_true, if_false]
  exact hartRetire_retired rfl 0 0#64 len

end CboLine

/-- Settles O37, instruction by instruction. -/
theorem hostCoreAtomicsAndCacheBlocks : Obligations.HostCoreAtomicsAndCacheBlocks := by
  unfold Obligations.HostCoreAtomicsAndCacheBlocks
  refine ⟨fun c s s1 op sz rd rs1 rs2 len w a hsz h ha hmode hown hal hcell hpmp => ?_, fun c s s1 k rs1 len w b cmd h hcmd hb hc => ⟨fun hm => ?_, fun he hk => ?_,
    fun hbusy hwaits hheld hclear => ?_⟩⟩
  · have hpa := atomicPa_machine hmode hown hal hcell hpmp 6
    exact ⟨exec_amo_asks hsz h ha hpa, fun r old hfind hop => exec_amo_ends hsz h ha hpa hop hfind⟩
  · have hev := evictLine_owned (.inl ⟨hm, rfl⟩)
    exact ⟨_, exec_cbo h hcmd (fun always => (cboLineOp_evicts hb hc len w _ always (.inl hm)).trans hev) (by rw [dropCopy_frame]), evictLine_effect rfl⟩
  · have hev := evictLine_owned (.inr ⟨he, rfl⟩)
    exact ⟨_, exec_cbo h hcmd (fun always => (cboLineOp_evicts hb hc len w _ always (.inr ⟨he, decide_eq_true hk⟩)).trans hev) (by rw [dropCopy_frame]),
      evictLine_effect rfl⟩
  · refine exec_cbo h hcmd (fun always => cboLineOp_passes hb hc len w always hbusy hwaits hheld ?_ ?_ ?_) rfl
    · obtain ⟨hi, -⟩ | ⟨-, hm, -⟩ := hclear
      · simp [hi]
      · exact hm
    · intro hflush
      obtain ⟨hi, -⟩ | ⟨rfl, -⟩ := hclear
      · exact hi
      · exact absurd rfl (of_decide_eq_true hflush)
    · obtain ⟨-, hnone⟩ | ⟨rfl, -, hnone⟩ := hclear
      · simp [State.dirtyCopy, hnone]
      · simp [hnone]

end Sys2Proof.Machine
end

section
/-! A walk that ends in a leaf which its crate already holds, behind another translation (R301, R302, R618, Table 11.4). -/
namespace Sys2Proof.Machine

/-- The leaf of level 2 that maps virtual pages 0 to 511 to physical address 0. -/
def bigLeaf : Tlb := ⟨0, 512, 0, true, true⟩

/-- A translation of another page. -/
def otherLeaf : Tlb := ⟨512, 1, 0x200000, true, true⟩

/-- Two walks of crate 0 have met one table entry: the first has ended in `bigLeaf`, a translation of page 512 has come after it, and the
second, of page 0, waits for its last table read. -/
def rejoined : State :=
  { live.setCrate 0 { Crate.fresh with walks := [⟨0, 2, 0x3000, [0], none⟩], tc := [otherLeaf, bigLeaf] } with cellar := [(0x3000, 0x0F#8)] }

theorem rejoined_plain : PlainLine rejoined (locOf rejoined 0x3000) 0x3000 :=
  plain_of (by decide +kernel) (by decide +kernel) (by decide +kernel) (by decide +kernel) (by decide +kernel) (by decide +kernel) rfl rfl rfl

/-- The front of crate 0's translation cache once its first walk's table read has returned. -/
def frontAfterRead (s : State) : Option Tlb :=
  match exec (.walkTableReadComplete 0 0) s with
  | .next u => (u.crate 0).tc.head?
  | _ => none

theorem frontAfterRead_eq {s u : State} (h : exec (.walkTableReadComplete 0 0) s = .next u) : frontAfterRead s = (u.crate 0).tc.head? := by
  rw [frontAfterRead, h]

/-- The leaf is held already, so the cache stays as it is. -/
theorem frontAfterRead_rejoined : frontAfterRead rejoined = some otherLeaf := by decide +kernel

/-- Refutes O39, by its clause of a leaf: it asks for the new leaf at the front of the crate's translation cache, but a cache that holds the
leaf already is left in its order, and in `rejoined` another translation stands before it. -/
theorem not_walksRootsAndShootdowns : ¬ Obligations.WalksRootsAndShootdowns := by
  rintro ⟨hwalk, -⟩
  obtain ⟨-, -, -, hleaf⟩ := hwalk 0 0 rejoined ⟨0, 2, 0x3000, [0], none⟩ (locOf rejoined 0x3000) 0x3000 0xF 512 (by decide +kernel) rfl
    (by decide +kernel) (by decide) (by decide) (by decide) rejoined_plain (by decide +kernel)
  obtain ⟨u, hu, -, hfront, -⟩ := hleaf (by decide) (by decide) (by decide) (by decide) (by decide) (by decide) (by decide)
  have hkept := (frontAfterRead_eq hu).symm.trans frontAfterRead_rejoined
  exact absurd (hfront.symm.trans hkept) (by decide)

end Sys2Proof.Machine
end

section
/-! A write through an inbound entry and the read after it where the carving cuts a line in two (R243, R245, R249, R321). -/
namespace Sys2Proof.Machine

/-- `hatched` with a carving that R243 never accepts: its first region ends 64 bytes into the entry's range, in the middle of a line. The
granule of the line's first half, which lies on another stack, is retired. -/
def cutHatched : State :=
  { hatched with
    carve := [⟨false, 0, 0x10000040⟩, ⟨false, 1, cellarSize⟩]
    retired := [((locOf { hatched with carve := [⟨false, 0, 0x10000040⟩] } 0x10000000).granule, true)] }

/-- A write of one byte to the line's second half. -/
def cutWrite : Packet := { pkt 2 0 [7#8] with off := 0x40 }

/-- The second half of the line is plain: its own location is in use, and nothing holds the line. -/
theorem cutHatched_plain : PlainLine cutHatched (locOf cutHatched 0x10000040) 0x10000040 :=
  plain_of (by decide +kernel) (by decide +kernel) (by decide +kernel) (by decide +kernel) (by decide +kernel) (by decide +kernel) rfl rfl rfl

theorem cutHatched_arrives : Arrives cutHatched 0 cutWrite := arrives_of (by decide +kernel)

theorem cutHatched_route : OneRoute cutHatched cutWrite.src 0 3 := ⟨by decide +kernel, by decide +kernel, portClear_of (by decide +kernel)⟩

/-- What a reader of the byte gets after the write has been acknowledged. -/
def readAfterWrite (s : State) : Option Answer :=
  match exec (.wr 0 cutWrite) s with
  | .next u =>
    match exec (.cellarRead 0x10000040 1 0) u with
    | .next v => some v.answer
    | _ => none
  | _ => none

theorem readAfterWrite_eq {s u v : State} (hu : exec (.wr 0 cutWrite) s = .next u) (hv : exec (.cellarRead 0x10000040 1 0) u = .next v) :
    readAfterWrite s = some v.answer := by
  simp only [readAfterWrite, hu, hv]

/-- The hamper's entry goes where its line begins, to the retired granule, and the byte is lost. -/
theorem readAfterWrite_cutHatched : readAfterWrite cutHatched = some ⟨0, [0#8]⟩ := by decide +kernel

/-- Refutes O44, by its clause of a write that is read back: the statement speaks of every state, and in `cutHatched`, whose carving R243
never accepts, the line's two halves lie on two stacks, of which the hamper's flush takes the first one's. -/
theorem not_hatchRequestsAreJudgedAndServed : ¬ Obligations.HatchRequestsAreJudgedAndServed := by
  rintro ⟨-, hserve⟩
  obtain ⟨-, hwrite, -⟩ := hserve 0 cutWrite cutHatched 0x10000040 0 (locOf cutHatched 0x10000040) cutHatched_arrives (by decide)
    (by decide +kernel) cutHatched_route (by decide +kernel) (by decide) (by decide) (by decide) cutHatched_plain (by decide +kernel)
  obtain ⟨u, v, r, hu, -, -, -, -, -, hv, hback, -⟩ := hwrite rfl (by decide +kernel)
  have hlost := (readAfterWrite_eq hu hv).symm.trans readAfterWrite_cutHatched
  rw [hback] at hlost
  exact absurd hlost (by decide)

end Sys2Proof.Machine
end

section
/-! SUPPORT. Writes of one or two register words under the access codes, as a block judges them (R7, R8, R594). -/
namespace Sys2Proof.Machine

/-- The word takes what its access codes let it take. -/
theorem reg_plainWrite_same (s : State) (a : Nat) (w : Word) : (s.plainWrite a w).reg a = writtenWord a (s.reg a) w := by
  cases hrow : regRow a with
  | none => simp only [State.plainWrite, writtenWord, hrow]
  | some r => simp only [State.plainWrite, writtenWord, hrow, reg_setReg_same]

theorem onlyRegs_plainWrites (s : State) (a : Nat) (wide : Bool) (v : BitVec 64) :
    OnlyRegs (if wide then [a, a + 4] else [a]) s (s.plainWrites a wide v) := by
  cases wide with
  | false => exact onlyRegs_plainWrite s a _
  | true =>
    exact ((onlyRegs_plainWrite s a _).mono (by simp)).trans ((onlyRegs_plainWrite _ (a + 4) _).mono (by simp))

theorem reg_plainWrites_low (s : State) (a : Nat) (wide : Bool) (v : BitVec 64) :
    (s.plainWrites a wide v).reg a = writtenWord a (s.reg a) (v.setWidth 32) := by
  cases wide with
  | false => exact reg_plainWrite_same s a _
  | true => exact ((onlyRegs_plainWrite _ (a + 4) _).reg (by simp)).trans (reg_plainWrite_same s a _)

theorem reg_plainWrites_high (s : State) (a : Nat) (v : BitVec 64) :
    (s.plainWrites a true v).reg (a + 4) = writtenWord (a + 4) (s.reg (a + 4)) ((v >>> 32).setWidth 32) := by
  have hhigh : (s.plainWrite a (v.setWidth 32)).reg (a + 4) = s.reg (a + 4) := (onlyRegs_plainWrite s a _).reg (by simp)
  exact (reg_plainWrite_same _ (a + 4) _).trans (by rw [hhigh])

/-- A one-bit flag that is set changes its word alone. -/
theorem wr_flag (s : State) {f : Fld} (hw : f.w = 1) (hlo : f.lo < 32) : (s.wr f 1).on f = true ∧ OnlyRegs [f.a] s (s.wr f 1) :=
  ⟨by rw [on_wr_same s f 1 (by omega), hw]; rfl, onlyRegs_wr s f 1⟩

end Sys2Proof.Machine
end

section
/-! SUPPORT. A packet of this device that takes the one route to its place (R353, R357, R370, R374). -/
namespace Sys2Proof.Machine

/-- Either half of the ring level's credits leaves a port with nothing in use half of what was granted (Table 13.4, R361). -/
theorem portClear_poolFree_ge {s : State} {p : Nat} (h : PortClear s p) (vc : Nat) :
    tableCredits.getD vc 0 / 2 ≤ s.poolFree p (2 * vc) := by
  have hhalf : 2 * vc / 2 = vc := by omega
  have heven : ¬ 2 * vc % 2 = 1 := by omega
  have hrsv : s.fabRsv.filter (fun r => decide (r.port = p)) = [] :=
    List.filter_eq_nil_iff.2 fun r hr => by simpa using h.taken r hr
  simp only [State.poolFree, State.granted, State.reserved, h.grant, h.used, hrsv, hhalf, heven, lookMap, List.map_nil, List.foldl_nil, ite_self,
    if_false]
  split <;> omega

theorem mem_routePorts {s : State} {dest p : Nat} (h : p ∈ s.routePorts dest) : p < 16 ∧ s.portUp p = true := by
  unfold State.routePorts at h
  split at h
  · simp at h
  · simp only [List.mem_filter, List.mem_range, Bool.and_eq_true] at h
    exact ⟨h.1, h.2.1.1⟩

theorem bitsAt_levelField_lt (dest l : Nat) : bitsAt dest (levelField l).1 (levelField l).2 < 32 := by
  have hwidth : (levelField l).2 ≤ 5 := by unfold levelField; split_ifs <;> decide
  exact (bitsAt_lt _ _ _).trans_le (Nat.pow_le_pow_right (by decide) hwidth)

theorem placeLevel_le {own dest l : Nat} (h : placeLevel own dest = some l) : l ≤ 4 := by
  have hmem := List.mem_of_find?_eq_some h
  simp only [List.mem_cons, List.not_mem_nil, or_false] at hmem
  omega

/-- The ports towards a place depend on the device's own place and on registers below those of the cellar's stacks. -/
theorem routePorts_congr {s u : State} (dest : Nat) (hplace : u.place = s.place) (hlow : ∀ f : Fld, f.a < 0x380000 → u.rd f = s.rd f) :
    u.routePorts dest = s.routePorts dest := by
  unfold State.routePorts
  rw [hplace]
  split
  · rfl
  · next l hl =>
    refine List.filter_congr fun q hq => ?_
    have hl := placeLevel_le hl
    have hq := List.mem_range.1 hq
    have hv := bitsAt_levelField_lt dest l
    rw [State.portUp, State.portUp, hlow (fabState q) (by simp only [fabState]; omega), hlow (fabLevel q) (by simp only [fabLevel]; omega),
      hlow (fabRoute l (bitsAt dest (levelField l).1 (levelField l).2)) (by simp only [fabRoute]; omega)]

/-- A packet takes at most its header, its payload and a CRC of its channel's credits. -/
theorem Packet.cost_le (k : Packet) : k.cost ≤ 36 + k.payload.length := by
  unfold Packet.cost Packet.wire
  split
  · omega
  · split <;> omega

section Route
variable {s : State} {dest p vc : Nat} (h : OneRoute s dest p vc)
include h

theorem oneRoute_port : p < 16 ∧ s.portUp p = true := mem_routePorts (by rw [h.route]; exact List.mem_singleton_self p)

/-- A packet within half of its channel's credits may leave. -/
theorem oneRoute_mayLeave {k : Packet} (hvc : k.vc = vc) (hupper : k.upper = false) (hcost : k.cost ≤ tableCredits.getD vc 0 / 2) :
    s.mayLeave ⟨p, none, k⟩ = true := by
  have hpool : s.poolOf p k = 2 * vc := by rw [State.poolOf, hvc, hupper, Bool.and_false]; rfl
  have hwaits : s.waitsAt p = [] := List.filter_eq_nil_iff.2 fun q hq => by simpa using h.clear.waits q hq
  rw [State.mayLeave_eq, (oneRoute_port h).2, hwaits, hpool, decide_eq_true (hcost.trans (portClear_poolFree_ge h.clear vc))]
  rfl

/-- It leaves by the route's port, with its credits taken. -/
theorem oneRoute_sendPacket {k : Packet} (hdest : k.dest = dest) (hvc : k.vc = vc) (hjob : k.job = s.rd jobId) (hupper : k.upper = false)
    (hcost : k.cost ≤ tableCredits.getD vc 0 / 2) : s.sendPacket k = (0, s.leave ⟨p, none, k⟩) := by
  have hport : s.sendPort k = some p := by simp [State.sendPort, hdest, h.route]
  have hfence : s.fencePasses p k.vc k.job = true := by rw [hvc, hjob]; exact h.fence
  have hpkt : { k with upper := false } = k := by rw [← hupper]
  have hput : s.fabPut ⟨p, none, k⟩ = s.leave ⟨p, none, k⟩ := if_pos (oneRoute_mayLeave h hvc hupper hcost)
  simp only [State.sendPacket, State.sendVia, hport, hfence, if_true]
  exact congrArg (Prod.mk 0) ((congrArg (fun k => s.fabPut ⟨p, none, k⟩) hpkt).trans hput)

/-- The count of a hamper lies outside everything that a route depends on. -/
theorem oneRoute_setHamper (n : Nat) (es : List HEntry) : OneRoute (s.setHamper n es) dest p vc := by
  have hlow : ∀ f : Fld, f.a < 0x380000 → (s.setHamper n es).rd f = s.rd f := fun f hf =>
    rd_setHamper_other s n es (by simp only [cel]; omega)
  have hjob : (s.setHamper n es).rd jobId = s.rd jobId := rd_setHamper_other s n es (by simp only [jobId, cel]; omega)
  have hp := (oneRoute_port h).1
  have hports := routePorts_congr (s := s) (u := s.setHamper n es) dest rfl hlow
  refine ⟨hports.trans h.route, ?_, h.clear.grant, h.clear.used, h.clear.waits, h.clear.taken⟩
  rw [← h.fence, hjob, State.fencePasses, hlow (fenceMode p) (by simp only [fenceMode]; omega), hlow (fenceJob p) (by simp only [fenceJob]; omega)]
  rfl

end Route

/-- Where no port leads to a packet's place, the packet is only counted (R371). -/
theorem sendPacket_noRoute {s : State} {k : Packet} (h : s.routePorts k.dest = []) : s.sendPacket k = (8, s.bump fabUnreachable) := by
  simp only [State.sendPacket, State.sendVia, State.sendPort, h]

theorem sameMemory_trans {s t u : State} (h : SameMemory s t) (k : SameMemory t u) : SameMemory s u := by
  obtain ⟨hshelf, hcellar, hA, hB, hstrong⟩ := h
  obtain ⟨kshelf, kcellar, kA, kB, kstrong⟩ := k
  exact ⟨kshelf.trans hshelf, kcellar.trans hcellar, kA.trans hA, kB.trans hB, kstrong.trans hstrong⟩

theorem sameMemory_leave (s : State) (q : FabHeld) : SameMemory s (s.leave q) := ⟨rfl, rfl, rfl, rfl, rfl⟩

/-- A packet of no Sync channel joins the port's others at the end. -/
theorem leave_fabTx_last (s : State) (p : Nat) {k : Packet} (hvc : k.vc ≠ 0) : (s.leave ⟨p, none, k⟩).fabTx = s.fabTx ++ [(p, k)] :=
  State.leave_fabTx (.inl hvc)

end Sys2Proof.Machine
end

section
/-! SUPPORT. A read of a plain line at its home, and one whose line is held (R246, R286, R289). -/
namespace Sys2Proof.Machine

/-- A repair that holds no bank of the line holds none of the bursts that an access touches. -/
theorem lineHeld_burstsOf {s : State} {l : Loc} (h : s.lineHeld l [0, 1] = false) (off n : Nat) : s.lineHeld l (burstsOf off n) = false := by
  rw [State.lineHeld, List.any_eq_false] at h ⊢
  exact fun pc hpc => h pc (List.mem_of_mem_filter hpc)

section Plain
variable {s : State} {l : Loc} {a : Nat} (h : PlainLine s l a)
include h

/-- The bursts of the line read one after another without error. -/
theorem plainLine_readBursts (pcs : List Nat) (hpcs : ∀ pc ∈ pcs, pc < 2) :
    pcs.foldl (fun (q : Bool × State) pc =>
      ((q.1 || (q.2.readBurst { l with pc := pc } (2 * (a / 128) + pc)).1), (q.2.readBurst { l with pc := pc } (2 * (a / 128) + pc)).2))
        (false, s.setHamper l.home (s.hamper l.home)) = (false, s.setHamper l.home (s.hamper l.home)) := by
  induction pcs with
  | nil => rfl
  | cons pc pcs ih =>
    have hpc := hpcs pc List.mem_cons_self
    rw [List.foldl_cons, plainLine_readBurst h (b := 2 * (a / 128) + pc) (by omega)]
    exact ih fun q hq => hpcs q (List.mem_cons_of_mem _ hq)

/-- The home answers the cellar's bytes, and only writes its hamper's count again. -/
theorem plainLine_homeRead (n : Nat) : s.homeRead a n = (.ok (readBytes s.cellar a n), s.setHamper l.home (s.hamper l.home)) := by
  have howner : s.ownerCopy (a / 128) = none := by rw [State.ownerCopy, h.uncached]; rfl
  have hpcs : ∀ pc ∈ burstsOf (a % 128) n, pc < 2 := fun pc hpc => List.mem_range.1 (List.mem_of_mem_filter hpc)
  have hread := plainLine_readBursts h _ hpcs
  simp only [State.homeRead, h.place, h.serves, h.free, lineHeld_burstsOf h.unrepaired, h.inUse, howner, plainLine_flushLine h, hread,
    Bool.false_eq_true, if_false, ne_eq, not_true_eq_false, State.setHamper_cellar]

end Plain

/-- What a home makes of its status leaves the open transactions and the evictions as they are. -/
theorem lineBusy_homeStatus (s : State) (l : Loc) (line : Nat) : (s.homeStatus l).2.lineBusy line = s.lineBusy line := by
  unfold State.homeStatus
  split_ifs <;> rfl

/-- A read of a line on which a transaction is open waits (R286). -/
theorem homeRead_busy {s : State} {l : Loc} {a : Nat} (hplace : s.locate a = some l) (hbusy : s.lineBusy (a / 128) = true) (n : Nat) :
    s.homeRead a n = (.bad stWAIT, (s.homeStatus l).2) := by
  simp only [State.homeRead, hplace, lineBusy_homeStatus, hbusy, if_true]

/-- A read of bytes of one line is one read at the line's home. -/
theorem readLines_one {f : State → Nat → Nat → Access × State} {a n : Nat} {s t : State} {d : List Byte} (hn : 0 < n) (hin : a % 128 + n ≤ 128)
    (hf : f s a n = (.ok d, t)) : readLines f (lineFuel n) a n s = (.ok d, t) := by
  have hmin : min n (128 - a % 128) = n := by omega
  simp [lineFuel, readLines, Nat.ne_of_gt hn, hmin, hf]

end Sys2Proof.Machine
end

section
/-! SUPPORT. Writes of windows and entries, judged as the whole stands after them (R320, R323, R327, R552, R594). -/
namespace Sys2Proof.Machine

theorem outOk_iff (s : State) (w : Nat) : s.outOk w = true ↔ s.rd (outPlace w) % 4096 = 0 ∧ s.outSize w % 4096 = 0 ∧ s.outSize w ≤ 2 ^ 38 ∧
    (s.on (outOps w) → 1 ≤ s.rd (outOpc w) ∧ s.rd (outOpc w) ≤ 13) := by
  cases h : s.on (outOps w) <;> simp [State.outOk, h, and_assoc]

theorem inOk_iff (s : State) (n : Nat) : s.inOk n = true ↔ s.inSize n = 0 ∨
    (driverReserve ≤ s.inBase n ∧ s.inBase n + s.inSize n ≤ cellarSize) ∨
    (0x10000000000 ≤ s.inBase n ∧ s.inBase n + s.inSize n ≤ 0x10180000000) := by
  simp [State.inOk, or_assoc]

/-- A write of one or two words that takes effect where what stands after it is accepted, and else sets a flag alone. -/
theorem judgedWrite {c : Instr} {s : State} {a : Nat} {wide : Bool} {v : BitVec 64} {ok : State → Bool} {f : Fld} {P : Prop}
    (hok : ok (s.plainWrites a wide v) = true ↔ P)
    (hc : exec c s = .next (if ok (s.plainWrites a wide v) then s.plainWrites a wide v else s.wr f 1)) (hw : f.w = 1) (hlo : f.lo < 32) :
    (P → ∃ u, exec c s = .next u ∧ u.reg a = writtenWord a (s.reg a) (v.setWidth 32) ∧
      (wide → u.reg (a + 4) = writtenWord (a + 4) (s.reg (a + 4)) ((v >>> 32).setWidth 32)) ∧ OnlyRegs (if wide then [a, a + 4] else [a]) s u) ∧
    (¬ P → ∃ u, exec c s = .next u ∧ u.on f ∧ OnlyRegs [f.a] s u) := by
  refine ⟨fun hp => ⟨s.plainWrites a wide v, ?_, reg_plainWrites_low s a wide v, fun hwide => ?_, onlyRegs_plainWrites s a wide v⟩,
    fun hp => ⟨s.wr f 1, ?_, wr_flag s hw hlo⟩⟩
  · rw [hc, if_pos (hok.2 hp)]
  · subst hwide; exact reg_plainWrites_high s a v
  · rw [hc, if_neg (mt hok.1 hp)]

theorem exec_hatchOutWrite {src : Src} {w : Fin 256} {i : Fin 8} {wide : Bool} {s : State} (v : BitVec 64)
    (hmay : s.mayWrite src (0x240000 + 32 * w + 4 * i) = true) (hon : s.domOn 22 = true) (hal : aligned (0x240000 + 32 * w + 4 * i) wide = true) :
    exec (.hatchOutWrite src w i wide v) s = .next (s.outWrite w i wide v) := by
  show execHatchOutWrite src w i wide v s = _
  simp only [execHatchOutWrite, hmay, hon, hal, Bool.and_self, Bool.not_true, Bool.false_eq_true, if_false, if_true]

theorem exec_hatchInWrite {src : Src} {n : Fin 256} {i : Fin 8} {wide : Bool} {s : State} (v : BitVec 64)
    (hmay : s.mayWrite src (0x242000 + 32 * n + 4 * i) = true) (hon : s.domOn 22 = true) (hal : aligned (0x242000 + 32 * n + 4 * i) wide = true) :
    exec (.hatchInWrite src n i wide v) s = .next (s.inWrite n i wide v) := by
  show execHatchInWrite src n i wide v s = _
  simp only [execHatchInWrite, hmay, hon, hal, Bool.and_self, Bool.not_true, Bool.false_eq_true, if_false, if_true]

end Sys2Proof.Machine
end

section
/-! SUPPORT. A read that was admitted through an entry and waits: served now, or held still (R321, R324). -/
namespace Sys2Proof.Machine

/-- Whether a home serves does not depend on the requests that wait at the entries. -/
theorem homeStatus_inReqs (s : State) (l : Loc) (rs : List InReq) : (State.homeStatus { s with inReqs := rs } l).1 = (s.homeStatus l).1 := by
  simp only [State.homeStatus, apply_ite Prod.fst]
  rfl

/-- A line is plain, and a route open, whatever requests wait at the entries. -/
theorem plainLine_inReqs {s : State} {l : Loc} {a : Nat} (h : PlainLine s l a) (rs : List InReq) : PlainLine { s with inReqs := rs } l a :=
  have hserves := serves_of ((homeStatus_inReqs s l rs).trans (congrArg Prod.fst h.serves))
  ⟨h.place, hserves, h.free, h.unrepaired, h.uncached, h.unbuffered, h.inUse, h.clean⟩

theorem oneRoute_inReqs {s : State} {dest p vc : Nat} (h : OneRoute s dest p vc) (rs : List InReq) : OneRoute { s with inReqs := rs } dest p vc :=
  ⟨h.route, h.fence, h.clear.grant, h.clear.used, h.clear.waits, h.clear.taken⟩

section Request
variable {s : State} {base a : Nat} {k : Packet} {l : Loc} (hread : k.type = 1) (ha : a = base + k.off) (hcell : a < cellarSize)
include hread ha hcell

/-- A read of a plain line is served with its bytes; the home writes its hamper's count again. -/
theorem hatchTry_read (hlen : 0 < k.len) (hin : a % 128 + k.len ≤ 128) (h : PlainLine s l a) :
    s.hatchTry base k = some ((s.setHamper l.home (s.hamper l.home)).respond k 0 (readBytes s.cellar a k.len)) := by
  have hlines := readLines_one (f := fun s a n => s.homeRead a n) hlen hin (plainLine_homeRead h k.len)
  have hplace : placeOf (base + k.off) = some (.cellar a) := by rw [← ha, placeOf_cellar hcell]
  simp [State.hatchTry, State.hatchServe, hplace, hread, hlines, State.hatchArrive, stWAIT]

/-- A read of a line on which a transaction is open waits. -/
theorem hatchTry_busy (hlen : 0 < k.len) (hplaced : s.locate a = some l) (hbusy : s.lineBusy (a / 128) = true) : s.hatchTry base k = none := by
  have hlines := readLines_bad (f := fun s a n => s.homeRead a n) (fuel := k.len / 128 + 1) (Nat.ne_of_gt hlen)
    (homeRead_busy hplaced hbusy)
  have hplace : placeOf (base + k.off) = some (.cellar a) := by rw [← ha, placeOf_cellar hcell]
  simp [State.hatchTry, State.hatchServe, hplace, hread, lineFuel, hlines, hatchStatus, stWAIT, stPERMISSION]

end Request

/-- An answer of less than 16 KiB takes the one route back. -/
theorem respond_leaves {s : State} {k : Packet} {p : Nat} (h : OneRoute s k.src p 3) (st : Nat) {data : List Byte} (hlen : data.length ≤ 16348) :
    (s.respond k st data).fabTx = s.fabTx ++ [(p, s.response k st data)] ∧ SameMemory s (s.respond k st data) := by
  have hcost : (s.response k st data).cost ≤ tableCredits.getD 3 0 / 2 :=
    (Packet.cost_le _).trans (show 36 + data.length ≤ 16384 by omega)
  rw [State.respond, oneRoute_sendPacket h (k := s.response k st data) rfl rfl rfl rfl hcost]
  exact ⟨leave_fabTx_last s p (show (3 : Nat) ≠ 0 by decide), sameMemory_leave s _⟩

section Drain
variable {n : Fin 256} {s : State} {r : InReq} (hq : s.inReqs = [r]) (hentry : r.entry = n.val)
include hq hentry

/-- The only request that waits is served, and BUSY clears. -/
theorem exec_hatchInDrain_served {s1 : State} (hserved : State.hatchTry { s with inReqs := [] } r.base r.pkt = some s1) :
    ∃ u, exec (.hatchInDrain n) s = .next u ∧ u.inReqs = [] ∧ u.on (inBusy n) = false ∧ SameMemory s1 u ∧ u.fabTx = s1.fabTx := by
  have hexec : exec (.hatchInDrain n) s = .next (State.wr { s1 with inReqs := [] } (inBusy n) 0) := by
    show execHatchInDrain n s = _
    simp [execHatchInDrain, hq, hentry, hserved, b2n]
  refine ⟨_, hexec, rfl, ?_, ⟨rfl, rfl, rfl, rfl, rfl⟩, rfl⟩
  rw [on_wr_same _ _ _ (by simp [inBusy])]
  rfl

/-- The only request that waits waits on, and BUSY stays. -/
theorem exec_hatchInDrain_waits (hwaits : State.hatchTry { s with inReqs := [] } r.base r.pkt = none) :
    exec (.hatchInDrain n) s = .next (s.wr (inBusy n) 1) := by
  have hback : { s with inReqs := [r] } = s := by rw [← hq]
  show execHatchInDrain n s = _
  simp [execHatchInDrain, hq, hentry, hwaits, b2n, hback]

end Drain

end Sys2Proof.Machine
end

section
/-! SUPPORT. The last chunk of a hatch transfer (R366). -/
namespace Sys2Proof.Machine

/-- The request of a write through a window. -/
def State.writePacket (s : State) (w : Window) (len tally : Nat) (arr : Bool) (payload : List Byte) : Packet :=
  s.hatchPacket w (if w.opc = 0 then 2 else 3) len s.freeTag tally arr payload

theorem writePacket_vc (s : State) (w : Window) (len tally : Nat) (arr : Bool) (payload : List Byte) :
    (s.writePacket w len tally arr payload).vc = 5 := by
  have htype : (if w.opc = 0 then 2 else 3) ≠ 1 := by split <;> decide
  rw [State.writePacket, State.hatchPacket, if_neg htype]

theorem writePacket_tag (s : State) (w : Window) (len tally : Nat) (arr : Bool) (payload : List Byte) :
    (s.writePacket w len tally arr payload).tag = s.freeTag := by
  rw [State.writePacket, State.hatchPacket]

section Send
variable {s : State} (t pos : Nat) (spans : List (Nat × Nat)) (sdDone : Nat) {w : Window} (len tally : Nat) (arr : Bool) {payload : List Byte}

/-- A write goes out by the one route to its place, and its response is awaited. -/
theorem sendHatch_leaves {p : Nat} (h : OneRoute s (devPlace w.place) p 5) (hlen : payload.length ≤ 4096) :
    ∃ s1, s.sendHatch t pos spans sdDone w false len tally arr payload = (.ok s.freeTag, s1) ∧
      s1.fabTx = s.fabTx ++ [(p, s.writePacket w len tally arr payload)] ∧ SameMemory s s1 := by
  have hvc := writePacket_vc s w len tally arr payload
  have hcost : (s.writePacket w len tally arr payload).cost ≤ tableCredits.getD 5 0 / 2 :=
    (Packet.cost_le _).trans (show 36 + payload.length ≤ 32768 by omega)
  have hsent := oneRoute_sendPacket h (k := s.writePacket w len tally arr payload) rfl hvc rfl rfl hcost
  have htx := leave_fabTx_last s p (k := s.writePacket w len tally arr payload) (by rw [hvc]; decide)
  rw [State.writePacket] at hsent
  simp only [State.sendHatch, Bool.false_eq_true, if_false, hsent, if_true]
  exact ⟨_, rfl, htx, sameMemory_leave s ⟨p, none, s.writePacket w len tally arr payload⟩⟩

/-- Where no port leads to its place, nothing is sent. -/
theorem sendHatch_noRoute (h : s.routePorts (devPlace w.place) = []) :
    ∃ s1, s.sendHatch t pos spans sdDone w false len tally arr payload = (.error stABSENT, s1) ∧ s1.fabTx = s.fabTx ∧ SameMemory s s1 := by
  have hsent := sendPacket_noRoute (k := s.writePacket w len tally arr payload) h
  rw [State.writePacket] at hsent
  exact ⟨s.bump fabUnreachable, by simp [State.sendHatch, hsent, respStatus], rfl, rfl, rfl, rfl, rfl, rfl⟩

end Send

section LastChunk
variable {t : TileId} {s s1 : State} {r : Run} {c : Chunk} {w : Window} (hrun : ((s.tile t).eng2).run = some r) (hflight : r.flight = [c])
  (hwin : c.win = some w) (hunsent : c.unsent = true) (hlast : c.last = true) (htag : c.waitTag = none) (hfail : c.fail = none)
include hrun hflight hwin hunsent hlast htag hfail

/-- The chunk that is left is written through its window, and waits for its response. -/
theorem exec_hatchLastChunkSend_sent {tag : Nat}
    (hsend : s.sendHatch t c.pos c.spans c.sdDone w false c.len (mArrTally r.desc) (mArrEn r.desc) c.data = (.ok tag, s1)) :
    ∃ u, exec (.hatchLastChunkSend t) s = .next u ∧ u.fabTx = s1.fabTx ∧
      ((u.tile t).eng2).run = some { r with flight := [{ c with unsent := false, waitTag := some tag }] } ∧ SameMemory s1 u := by
  have hexec : exec (.hatchLastChunkSend t) s = .next (s1.setRun t 2 { r with flight := [{ c with unsent := false, waitTag := some tag }] }) := by
    show execHatchLastChunkSend t s = _
    simp [execHatchLastChunkSend, hrun, hflight, hwin, hunsent, hlast, htag, hfail, hsend]
  exact ⟨_, hexec, rfl, run_setRun s1 t _, rfl, rfl, rfl, rfl, rfl⟩

/-- It fails where its request cannot be sent. -/
theorem exec_hatchLastChunkSend_failed {st : Nat}
    (hsend : s.sendHatch t c.pos c.spans c.sdDone w false c.len (mArrTally r.desc) (mArrEn r.desc) c.data = (.error st, s1)) :
    ∃ u, exec (.hatchLastChunkSend t) s = .next u ∧ u.fabTx = s1.fabTx ∧
      ((u.tile t).eng2).run = some { r with flight := [{ c with unsent := false, fail := some st }] } ∧ SameMemory s1 u := by
  have hexec : exec (.hatchLastChunkSend t) s =
      .next ((s1.lessInflight w.w).setRun t 2 { r with flight := [{ c with unsent := false, fail := some st }] }) := by
    show execHatchLastChunkSend t s = _
    simp [execHatchLastChunkSend, hrun, hflight, hwin, hunsent, hlast, htag, hfail, hsend]
  exact ⟨_, hexec, rfl, run_setRun _ t _, rfl, rfl, rfl, rfl, rfl⟩

end LastChunk

end Sys2Proof.Machine
end

section
/-! Windows, entries and last chunks; settles O40 (R320, R323, R324, R327, R366, R552). -/
namespace Sys2Proof.Machine

/-- A waiting read of a plain line is answered over the one route with its bytes. -/
theorem hatchInDrain_answers {n : Fin 256} {s : State} {r : InReq} {a p : Nat} {l : Loc} (hq : s.inReqs = [r]) (hentry : r.entry = n.val)
    (hread : r.pkt.type = 1) (hlen : 0 < r.pkt.len) (ha : a = r.base + r.pkt.off) (hin : a % 128 + r.pkt.len ≤ 128) (hcell : a < cellarSize)
    (hplain : PlainLine s l a) (hroute : OneRoute s r.pkt.src p 3) :
    ∃ u k, exec (.hatchInDrain n) s = .next u ∧ u.inReqs = [] ∧ u.on (inBusy n) = false ∧ SameMemory s u ∧ u.fabTx = s.fabTx ++ [(p, k)] ∧
      k.type = 8 ∧ k.dest = r.pkt.src ∧ k.tag = r.pkt.tag ∧ k.status = 0 ∧ k.payload = readBytes s.cellar a r.pkt.len := by
  have hserved := hatchTry_read hread ha hcell hlen hin (plainLine_inReqs hplain [])
  have hroute' := oneRoute_setHamper (oneRoute_inReqs hroute []) l.home (s.hamper l.home)
  obtain ⟨htx, hsame⟩ := respond_leaves hroute' 0 (data := readBytes s.cellar a r.pkt.len) (by rw [length_readBytes]; omega)
  obtain ⟨u, hu, hempty, hbusy, hmem, hfab⟩ := exec_hatchInDrain_served hq hentry hserved
  exact ⟨u, _, hu, hempty, hbusy, sameMemory_trans hsame hmem, hfab.trans htx, if_pos hread, rfl, rfl, rfl, rfl⟩

/-- Settles O40: the two judged writes, the waiting read answered or held, and the last chunk sent or failed. -/
theorem hatchWindowsEntriesAndLastChunks : Obligations.HatchWindowsEntriesAndLastChunks := by
  unfold Obligations.HatchWindowsEntriesAndLastChunks
  refine ⟨?_, ?_, ?_, ?_⟩
  · rintro src w i wide v s t a rfl hmay hon hal rfl
    exact judgedWrite (ok := fun u => u.outOk w) (outOk_iff _ w) (exec_hatchOutWrite v hmay hon hal) rfl (by decide)
  · rintro src n i wide v s t a rfl hmay hon hal rfl
    exact judgedWrite (ok := fun u => u.inOk n) (inOk_iff _ n) (exec_hatchInWrite v hmay hon hal) rfl (by decide)
  · rintro n s r a l hq hentry hread hlen ha hin hcell
    refine ⟨fun p hplain hroute => hatchInDrain_answers hq hentry hread hlen ha hin hcell hplain hroute, fun hplace hbusy => ?_⟩
    have hwaits := hatchTry_busy (s := { s with inReqs := [] }) hread ha hcell hlen hplace hbusy
    obtain ⟨hset, honly⟩ := wr_flag s (f := inBusy n) rfl (by simp [inBusy])
    exact ⟨_, exec_hatchInDrain_waits hq hentry hwaits, hq, hset, honly⟩
  · rintro t s r c w hrun hflight hwin hunsent hlast htag hfail hlen
    refine ⟨fun p hroute => ?_, fun hnone => ?_⟩
    · obtain ⟨s1, hsend, htx, hsame⟩ := sendHatch_leaves t c.pos c.spans c.sdDone c.len (mArrTally r.desc) (mArrEn r.desc) hroute hlen
      obtain ⟨u, hu, hfab, hawait, hmem⟩ := exec_hatchLastChunkSend_sent hrun hflight hwin hunsent hlast htag hfail hsend
      exact ⟨u, _, s.freeTag, hu, hfab.trans htx, rfl, rfl, rfl, rfl, rfl, rfl, writePacket_tag s w _ _ _ _, hawait, sameMemory_trans hsame hmem⟩
    · obtain ⟨s1, hsend, htx, hsame⟩ := sendHatch_noRoute t c.pos c.spans c.sdDone c.len (mArrTally r.desc) (mArrEn r.desc) (payload := c.data) hnone
      obtain ⟨u, hu, hfab, hended, hmem⟩ := exec_hatchLastChunkSend_failed hrun hflight hwin hunsent hlast htag hfail hsend
      exact ⟨u, hu, hfab.trans htx, hended, sameMemory_trans hsame hmem⟩

end Sys2Proof.Machine
end

section
/-! SUPPORT. The lanes of a bundle: the usable ones of a direction ascend, and USE_AB and USE_BA read the lanes that were written to them
(R331, R339, Table 12.7). -/
namespace Sys2Proof.Machine

/-! Words of SEAM.B[b]. -/

@[simp] theorem seamB_inj {b x y : Nat} : seamB b x = seamB b y ↔ x = y := by simp [seamB]

theorem seamB_ne_of_bundle_ne {b c x y : Nat} (h : b ≠ c) (hx : x < 0x40) (hy : y < 0x40) : seamB b x ≠ seamB c y := by
  simp only [seamB]; omega

/-! Directions. -/

@[simp] theorem Seam.dir_setDir_same (x : Seam) (d : Nat) (y : SeamDir) : (x.setDir d y).dir d = y := by
  by_cases h : d = 0 <;> simp [Seam.setDir, Seam.dir, h]

theorem Seam.dir_setDir_other (x : Seam) (d : Fin 2) (y : SeamDir) : (x.setDir d y).dir (1 - d.val) = x.dir (1 - d.val) := by
  fin_cases d <;> rfl

@[simp] theorem Seam.setDir_due (x : Seam) (d : Nat) (y : SeamDir) : (x.setDir d y).due = x.due := by
  by_cases h : d = 0 <;> simp [Seam.setDir, h]

@[simp] theorem Seam.dir_due (x : Seam) (q : List (Nat × Nat)) (d : Nat) : ({ x with due := q } : Seam).dir d = x.dir d := rfl

/-! Usable lanes. -/

theorem SeamDir.mem_goodHalf {y : SeamDir} {h n : Nat} (hn : n ∈ y.goodHalf h) : 34 * h ≤ n ∧ n < 34 * h + 34 := by
  obtain ⟨k, hk, rfl⟩ := List.mem_map.1 (List.mem_of_mem_filter hn)
  have := List.mem_range.1 hk
  omega

theorem SeamDir.goodHalf_ascends (y : SeamDir) (h : Nat) : (y.goodHalf h).Pairwise (· < ·) :=
  (List.pairwise_map.2 (List.pairwise_lt_range.imp fun hlt => by omega)).filter _

/-- What one half contributes to the usable lanes. -/
theorem SeamDir.servedHalf_ascends (y : SeamDir) (h : Nat) : (if y.served h then y.goodHalf h else []).Pairwise (· < ·) := by
  split
  · exact y.goodHalf_ascends h
  · exact List.Pairwise.nil

theorem SeamDir.mem_servedHalf {y : SeamDir} {h n : Nat} (hn : n ∈ if y.served h then y.goodHalf h else []) :
    34 * h ≤ n ∧ n < 34 * h + 34 := by
  split at hn
  · exact SeamDir.mem_goodHalf hn
  · simp at hn

theorem SeamDir.usable_ascends (y : SeamDir) : y.usable.Pairwise (· < ·) :=
  List.pairwise_append.2 ⟨y.servedHalf_ascends 0, y.servedHalf_ascends 1, fun m hm n hn => by
    have := SeamDir.mem_servedHalf hm
    have := SeamDir.mem_servedHalf hn
    omega⟩

theorem SeamDir.lt_of_mem_usable {y : SeamDir} {n : Nat} (hn : n ∈ y.usable) : n < 68 := by
  rcases List.mem_append.1 hn with h | h <;> have := SeamDir.mem_servedHalf h <;> omega

/-- The lowest usable lane outside a list is the first that a search finds. -/
theorem SeamDir.find_free {y : SeamDir} {use : List Nat} {m : Nat} (hm : m ∈ y.usable) (hfree : m ∉ use)
    (hlow : ∀ k ∈ y.usable, k ∉ use → m ≤ k) : y.usable.find? (fun n => !(decide (n ∈ use))) = some m := by
  cases hfind : y.usable.find? fun n => !(decide (n ∈ use)) with
  | none => simpa [hfree] using List.find?_eq_none.1 hfind m hm
  | some n =>
    obtain ⟨hn, before, after, hsplit, hbefore⟩ := List.find?_eq_some_iff_append.1 hfind
    have hle : m ≤ n := hlow n (List.mem_of_find?_eq_some hfind) (by simpa using hn)
    have hasc := y.usable_ascends
    rw [hsplit] at hm hasc
    rcases List.mem_append.1 hm with hb | hb
    · simpa [hfree] using hbefore m hb
    rcases List.mem_cons.1 hb with rfl | ha
    · rfl
    · have : n < m := List.rel_of_pairwise_cons (List.pairwise_append.1 hasc).2.1 ha
      omega

/-! Lanes as the bits of a number. -/

/-- The number whose bits are some lanes, as the model sums it up. -/
def laneMask (lanes : List Nat) : Nat := lanes.foldl (fun m n => m + 2 ^ n) 0

theorem testBit_laneMask {lanes : List Nat} (h : lanes.Nodup) (n : Nat) : (laneMask lanes).testBit n = decide (n ∈ lanes) := by
  have hsum : laneMask lanes = ∑ i ∈ lanes.toFinset, 2 ^ i := by
    rw [List.sum_toFinset _ h, List.sum_eq_foldl, List.foldl_map]
    rfl
  rw [Bool.eq_iff_iff, decide_eq_true_iff, ← Nat.mem_bitIndices, ← List.mem_toFinset, hsum, Finset.toFinset_bitIndices_sum_two_pow,
    List.mem_toFinset]

theorem laneMask_lt {lanes : List Nat} (h : lanes.Nodup) (hl : ∀ n ∈ lanes, n < 68) : laneMask lanes < 2 ^ 68 := by
  refine Nat.lt_pow_two_of_testBit _ fun i hi => ?_
  rw [testBit_laneMask h, decide_eq_false_iff_not]
  exact fun hm => by have := hl i hm; omega

theorem bitAt_eq_testBit (n i : Nat) : bitAt n i = n.testBit i := by rw [Nat.testBit_eq_decide_div_mod_eq]; rfl

/-! The lanes in use. -/

theorem State.nodup_seamUse (s : State) (b d : Nat) : (s.seamUse b d).Nodup := List.nodup_range.filter _

theorem State.lt_of_mem_seamUse {s : State} {b d n : Nat} (h : n ∈ s.seamUse b d) : n < 68 := List.mem_range.1 (List.mem_of_mem_filter h)

/-- The lanes in use are those of the words from USE_AB to the high word of USE_BA. -/
theorem seamUse_congr {s u : State} {b d : Nat} (hd : d < 2) (h : ∀ off, 8 ≤ off → off ≤ 0x20 → u.reg (seamB b off) = s.reg (seamB b off)) :
    u.seamUse b d = s.seamUse b d := by
  have hlow := h (8 + 16 * d) (by omega) (by omega)
  have hmid : u.reg (seamB b (8 + 16 * d) + 4) = _ := h (8 + 16 * d + 4) (by omega) (by omega)
  have htop := h (0x10 + 16 * d) (by omega) (by omega)
  simp only [State.seamUse, State.reg64, State.rd, hlow, hmid, htop]
  rfl

theorem seamUse_wr (s : State) {b d : Nat} {f : Fld} (v : Nat) (hd : d < 2) (hf : f.a < seamB b 8 ∨ seamB b 0x20 < f.a) :
    (s.wr f v).seamUse b d = s.seamUse b d :=
  seamUse_congr hd fun off _ _ => reg_wr_other s v (by simp only [seamB] at hf ⊢; omega)

@[simp] theorem seamUse_setSeam (s : State) (c : Nat) (x : Seam) (b d : Nat) : (s.setSeam c x).seamUse b d = s.seamUse b d := rfl
@[simp] theorem seamUse_raise (s : State) (c k i : Nat) (dt : List Byte) (b d : Nat) : (s.raise c k i dt).seamUse b d = s.seamUse b d := rfl

/-- Bits 67 to 64 of the lanes in use (Table 12.7). -/
def seamTop (b d : Nat) : Fld := ⟨seamB b (0x10 + 16 * d), 0, 4⟩

theorem onlyRegs_setSeamUse (s : State) (b d : Nat) (lanes : List Nat) :
    OnlyRegs [seamB b (8 + 16 * d), seamB b (8 + 16 * d) + 4, seamB b (0x10 + 16 * d), seamB b 0x20] s (s.setSeamUse b d lanes) := by
  unfold State.setSeamUse
  refine (((onlyRegs_setReg64 s (seamB b (8 + 16 * d)) _).mono ?_).trans ((onlyRegs_wr _ (seamTop b d) _).mono ?_)).trans
    (((onlyRegs_wr _ ⟨seamB b 0x20, 4 + 3 * d, 3⟩ _).mono ?_).trans ((onlyRegs_wr _ ⟨seamB b 0x20, 10 + d, 1⟩ _).mono ?_))
  all_goals simp [seamTop]

@[simp] theorem seam_setSeamUse (s : State) (b d : Nat) (lanes : List Nat) (k : Nat) : (s.setSeamUse b d lanes).seam k = s.seam k := by
  rw [(onlyRegs_setSeamUse s b d lanes).2]; rfl

/-- Another word of a bundle keeps its fields. -/
theorem rd_setSeamUse (s : State) {b d : Nat} (lanes : List Nat) {f : Fld} (hd : d < 2) (hf : f.a < seamB b 8 ∨ seamB b 0x20 < f.a) :
    (s.setSeamUse b d lanes).rd f = s.rd f := by
  refine (onlyRegs_setSeamUse s b d lanes).rd ?_
  simp only [seamB, List.mem_cons, List.not_mem_nil, or_false] at hf ⊢
  omega

/-- The fields of SPARE beside the high word of USE_BA. -/
theorem rd_seamTop_spare (s : State) {b e v lo w : Nat} (hlo : 4 ≤ lo) (hw : lo + w ≤ 32) :
    (s.wr ⟨seamB b 0x20, lo, w⟩ v).rd (seamTop b e) = s.rd (seamTop b e) :=
  rd_wr_of_apart s v hw (.inr (.inl (by simpa [seamTop] using hlo)))

/-- A direction's lanes in use are those written. -/
theorem seamUse_setSeamUse_same (s : State) (b : Nat) {d : Nat} (hd : d < 2) {lanes : List Nat} (hn : lanes.Nodup) (hl : ∀ n ∈ lanes, n < 68) :
    (s.setSeamUse b d lanes).seamUse b d = (List.range 68).filter fun n => decide (n ∈ lanes) := by
  have hmask := laneMask_lt hn hl
  have hlow : (s.setSeamUse b d lanes).reg64 (seamB b (8 + 16 * d)) = laneMask lanes % 2 ^ 64 := by
    have hkeep : ∀ off, off = 8 + 16 * d ∨ off = 8 + 16 * d + 4 → (s.setSeamUse b d lanes).reg (seamB b off) =
        (s.setReg64 (seamB b (8 + 16 * d)) (laneMask lanes % 2 ^ 64)).reg (seamB b off) := fun off hoff => by
      have hspare : ∀ lo w, seamB b off ≠ (⟨seamB b 0x20, lo, w⟩ : Fld).a := fun _ _ => by simp; omega
      have hhigh : seamB b off ≠ (seamTop b d).a := by simp [seamTop]; omega
      exact ((reg_wr_other _ _ (hspare _ _)).trans (reg_wr_other _ _ (hspare _ _))).trans (reg_wr_other _ _ hhigh)
    refine Eq.trans ?_ (reg64_setReg64_same s (seamB b (8 + 16 * d)) (Nat.mod_lt (laneMask lanes) (Nat.two_pow_pos 64)))
    exact congrArg₂ (fun x y : Word => x.toNat + 2 ^ 32 * y.toNat) (hkeep _ (.inl rfl)) (hkeep _ (.inr rfl))
  have htop : (s.setSeamUse b d lanes).rd (seamTop b d) = laneMask lanes / 2 ^ 64 := by
    unfold State.setSeamUse
    refine ((rd_seamTop_spare _ (by omega) (by omega)).trans (rd_seamTop_spare _ (by omega) (by omega))).trans ?_
    refine (rd_wr_same _ (seamTop b d) _ (by simp [seamTop])).trans (Nat.mod_eq_of_lt ?_)
    show laneMask lanes / 2 ^ 64 < 2 ^ 4
    omega
  have hall : (s.setSeamUse b d lanes).reg64 (seamB b (8 + 16 * d)) + 2 ^ 64 * (s.setSeamUse b d lanes).rd (seamTop b d) = laneMask lanes := by
    rw [hlow, htop]; omega
  refine List.filter_congr fun n _ => ?_
  rw [← testBit_laneMask hn n, ← bitAt_eq_testBit, ← hall]
  rfl

/-- Those of the other direction stay. -/
theorem seamUse_setSeamUse_other (s : State) (b : Nat) {d e : Nat} (hd : d < 2) (hne : e ≠ d) (lanes : List Nat) :
    (s.setSeamUse b d lanes).seamUse b e = s.seamUse b e := by
  have hlow : ∀ a, a = seamB b (8 + 16 * e) ∨ a = seamB b (8 + 16 * e) + 4 → (s.setSeamUse b d lanes).reg a = s.reg a := fun a ha =>
    (onlyRegs_setSeamUse s b d lanes).reg (by
      simp only [seamB, List.mem_cons, List.not_mem_nil, or_false] at ha ⊢
      omega)
  have htop : (s.setSeamUse b d lanes).rd (seamTop b e) = s.rd (seamTop b e) := by
    unfold State.setSeamUse
    refine ((rd_seamTop_spare _ (by omega) (by omega)).trans (rd_seamTop_spare _ (by omega) (by omega))).trans ?_
    refine (rd_wr_other _ _ (by simp [seamTop]; omega)).trans ((onlyRegs_setReg64 s _ _).rd ?_)
    simp only [seamTop, seamB, List.mem_cons, List.not_mem_nil, or_false]
    omega
  have hword : (s.setSeamUse b d lanes).reg64 (seamB b (8 + 16 * e)) = s.reg64 (seamB b (8 + 16 * e)) := by
    simp only [State.reg64, hlow _ (.inl rfl), hlow _ (.inr rfl)]
  have hrd : (s.setSeamUse b d lanes).rd ⟨seamB b (0x10 + 16 * e), 0, 4⟩ = s.rd ⟨seamB b (0x10 + 16 * e), 0, 4⟩ := htop
  simp only [State.seamUse, hword, hrd]

/-- Lanes in ascending order read back as they are. -/
theorem seamUse_setSeamUse_ascending (s : State) (b : Nat) {d : Nat} (hd : d < 2) {lanes : List Nat} (hasc : lanes.Pairwise (· < ·))
    (hl : ∀ n ∈ lanes, n < 68) : (s.setSeamUse b d lanes).seamUse b d = lanes := by
  rw [seamUse_setSeamUse_same s b hd (hasc.imp fun h => Nat.ne_of_lt h) hl]
  refine (List.pairwise_lt_range.filter _).eq_of_mem_iff hasc fun n => ?_
  simp only [List.mem_filter, List.mem_range, decide_eq_true_eq, and_iff_right_iff_imp]
  exact hl n

end Sys2Proof.Machine
end

section
/-! SUPPORT. Flits, windows and failing lanes of a bundle (R336 to R339, R341). -/
namespace Sys2Proof.Machine

/-! What each command is. -/

theorem exec_seamFlitReceive (b : BundleId) (d : Fin 2) (blame : List (Fin 68)) (s : State) :
    exec (.seamFlitReceive b d blame) s = execSeamFlitReceive b d blame s := rfl

theorem exec_seamLaneLossOfLock (b : BundleId) (d : Fin 2) (x : Fin 71) (s : State) :
    exec (.seamLaneLossOfLock b d x) s = execSeamLaneLossOfLock b d x s := rfl

theorem exec_seamLaneWindowExpiry (b : BundleId) (d : Fin 2) (n : Fin 68) (s : State) : exec (.seamLaneWindowExpiry b d n) s =
    .next (s.setSeam b ((s.seam b).setDir d { (s.seam b).dir d with cnt := putMap 0 ((s.seam b).dir d).cnt n.val 0 })) := rfl

/-! Flits (R336, R337). -/

/-- The direction of a bundle after a flit whose failure lane `n` is blamed for. -/
def SeamDir.failed (y : SeamDir) (n : Nat) : SeamDir :=
  { y with cnt := putMap 0 y.cnt n (lookMap 0 y.cnt n + 1), tries := if 8 ≤ y.tries then 0 else y.tries + 1 }

/-- The state after it, before the lane is judged. -/
def State.flitFailed (s : State) (b d n : Nat) : State :=
  (s.setSeam b ((s.seam b).setDir d (((s.seam b).dir d).failed n))).bump (seamReplays b)

theorem exec_seamFlitReceive_good {b : BundleId} {s : State} (d : Fin 2) (h : s.rd (seamState b) = 0) : exec (.seamFlitReceive b d []) s =
    .next (s.setSeam b ((s.seam b).setDir d { (s.seam b).dir d with tries := 0 })) := by
  simp [exec_seamFlitReceive, execSeamFlitReceive, h]

theorem exec_seamFlitReceive_bad {b : BundleId} {s : State} (d : Fin 2) (n : Fin 68) (h : s.rd (seamState b) = 0) :
    exec (.seamFlitReceive b d [n]) s = .next (if 8 ≤ ((s.seam b).dir d).tries ∨ s.rd (seamThr b) ≤ lookMap 0 ((s.seam b).dir d).cnt n + 1
      then (s.flitFailed b d n).seamFail b d n else s.flitFailed b d n) := by
  have hthr : (s.flitFailed b d n).rd (seamThr b) = s.rd (seamThr b) := rd_wr_other _ _ (by simp [seamThr, seamReplays])
  unfold State.flitFailed SeamDir.failed at hthr ⊢
  simp only [exec_seamFlitReceive, execSeamFlitReceive, h, List.isEmpty_cons, List.foldl_cons, List.foldl_nil, lookMap_putMap_same,
    Bool.or_eq_true, decide_eq_true_eq, hthr, ne_eq, not_true_eq_false, if_false, Bool.false_eq_true]

section FlitFailed
variable (s : State) (b : Nat) (d : Fin 2) (n : Nat)

theorem seam_flitFailed : (s.flitFailed b d n).seam b = (s.seam b).setDir d (((s.seam b).dir d).failed n) := State.seam_setSeam_same s b _

theorem dir_flitFailed : ((s.flitFailed b d n).seam b).dir d = ((s.seam b).dir d).failed n := by
  rw [seam_flitFailed, Seam.dir_setDir_same]

theorem onlyRegs_flitFailed : OnlyRegs [seamB b 0x28] { s with seams := (s.flitFailed b d n).seams } (s.flitFailed b d n) :=
  onlyRegs_bump (s.setSeam b _) (seamReplays b)

theorem rd_flitFailed_replays : (s.flitFailed b d n).rd (seamReplays b) = min (s.rd (seamReplays b) + 1) (2 ^ 32 - 1) :=
  rd_bump _ (seamReplays b) (by simp [seamReplays])

theorem rd_flitFailed {f : Fld} (hf : f.a ≠ seamB b 0x28) : (s.flitFailed b d n).rd f = s.rd f := rd_wr_other _ _ hf

theorem seamUse_flitFailed : (s.flitFailed b d n).seamUse b d = s.seamUse b d :=
  seamUse_wr _ _ d.isLt (.inr (by simp [seamReplays, seamB]))

end FlitFailed

/-! Failing lanes (R336, R338, R339, R341). -/

/-- The direction with a lane marked as failing. -/
def SeamDir.mark (y : SeamDir) (n : Nat) : SeamDir := { y with bad := y.bad ++ [n] }

/-- For what a bundle holds its flits once a lane in use has failed: 1 a repair, 3 a takeover, 2 a retraining. -/
def State.holdFor (s : State) (b d n : Nat) : Nat :=
  if s.seamFeature 1 ∧ ∃ m ∈ (((s.seam b).dir d).mark n).usable, m ∉ s.seamUse b d then 1
  else if s.rd (seamRole b) = 1 ∧ s.rd (seamStandby b) ≠ 0x7F then 3 else 2

/-- State `u` is state `s` of a running bundle after lane `n` has been marked. -/
structure LaneMarked (b d n : Nat) (s u : State) : Prop where
  bad : ((u.seam b).dir d).bad = ((s.seam b).dir d).bad ++ [n]
  fails : u.rd (seamFails b) = min (s.rd (seamFails b) + 1) 65535
  unused : n ∉ s.seamUse b d → u.rd (seamState b) = 0 ∧ (u.seam b).due = (s.seam b).due
  used : n ∈ s.seamUse b d → (u.seam b).due = (s.seam b).due ++ [(d, n)] ∧ u.rd (seamState b) = s.holdFor b d n

/-- The state with the lane marked and counted, and due if it is in use. -/
def State.laneMarked (s : State) (b d n : Nat) : State :=
  (s.setSeam b { (s.seam b).setDir d (((s.seam b).dir d).mark n) with
    due := if n ∈ s.seamUse b d then (s.seam b).due ++ [(d, n)] else (s.seam b).due }).bump (seamFails b)

/-! The strongroom's record of a bundle. -/

@[simp] theorem seam_seamRecord (s : State) (b k : Nat) : (s.seamRecord b).seam k = s.seam k := rfl
@[simp] theorem rd_seamRecord (s : State) (b : Nat) (f : Fld) : (s.seamRecord b).rd f = s.rd f := rfl
@[simp] theorem seamRecord_gathered (s : State) (b : Nat) : (s.seamRecord b).gathered = s.gathered := rfl
@[simp] theorem seamUse_seamRecord (s : State) (b k d : Nat) : (s.seamRecord b).seamUse k d = s.seamUse k d := rfl

section Mark
variable {s : State} {b n : Nat} {d : Fin 2}

theorem seam_laneMarked (s : State) (b n : Nat) (d : Fin 2) : (s.laneMarked b d n).seam b =
    { (s.seam b).setDir d (((s.seam b).dir d).mark n) with
      due := if n ∈ s.seamUse b d then (s.seam b).due ++ [(d.val, n)] else (s.seam b).due } := State.seam_setSeam_same s b _

theorem dir_laneMarked (s : State) (b n : Nat) (d : Fin 2) : ((s.laneMarked b d n).seam b).dir d = ((s.seam b).dir d).mark n := by
  rw [seam_laneMarked, Seam.dir_due, Seam.dir_setDir_same]

theorem rd_laneMarked {f : Fld} (hf : f.a ≠ seamB b 0x2C) : (s.laneMarked b d n).rd f = s.rd f := rd_wr_other _ _ hf

theorem rd_laneMarked_fails (s : State) (b n : Nat) (d : Fin 2) :
    (s.laneMarked b d n).rd (seamFails b) = min (s.rd (seamFails b) + 1) 65535 := rd_bump _ (seamFails b) (by simp [seamFails])

theorem seamUse_laneMarked (s : State) (b n : Nat) (d : Fin 2) : (s.laneMarked b d n).seamUse b d = s.seamUse b d :=
  seamUse_wr _ _ d.isLt (.inr (by simp [seamFails, seamB]))

theorem seamSpare_laneMarked (hn : n < 68) : (s.laneMarked b d n).seamSpare b d n = true ↔
    ∃ m ∈ (((s.seam b).dir d).mark n).usable, m ∉ s.seamUse b d := by
  simp [State.seamSpare, hn, dir_laneMarked, seamUse_laneMarked]

/-- A lane that carries no traffic is no longer counted as a spare. -/
theorem seamFail_unused (hn : n < 68) (hbad : n ∉ ((s.seam b).dir d).bad) (huse : n ∉ s.seamUse b d) :
    s.seamFail b d n = ((s.laneMarked b d n).setSeamUse b d (s.seamUse b d)).seamRecord b := by
  simp [State.seamFail, State.laneMarked, SeamDir.mark, State.seamInUse, hn, hbad, huse]

/-- One that carries traffic makes a running bundle hold. -/
theorem seamFail_used (hn : n < 68) (h0 : s.rd (seamState b) = 0) (hbad : n ∉ ((s.seam b).dir d).bad) (huse : n ∈ s.seamUse b d) :
    s.seamFail b d n = ((s.laneMarked b d n).wr (seamState b) (s.holdFor b d n)).seamRecord b := by
  have hspare := seamSpare_laneMarked (s := s) (b := b) (d := d) hn
  have hstate : (s.laneMarked b d n).rd (seamState b) = 0 := (rd_laneMarked (by simp [seamState])).trans h0
  have hrole : (s.laneMarked b d n).rd (seamRole b) = s.rd (seamRole b) := rd_laneMarked (by simp [seamRole])
  have hstandby : (s.laneMarked b d n).rd (seamStandby b) = s.rd (seamStandby b) := rd_laneMarked (by simp [seamStandby])
  have hfeature : (s.laneMarked b d n).seamFeature 1 = s.seamFeature 1 := by
    rw [State.seamFeature, rd_laneMarked (by simp only [seamFeatures, seamB]; omega)]; rfl
  have hfail : s.seamFail b d n = (if (s.laneMarked b d n).rd (seamState b) ≠ 0 then s.laneMarked b d n
      else if (s.laneMarked b d n).seamFeature 1 && (s.laneMarked b d n).seamSpare b d n then (s.laneMarked b d n).wr (seamState b) 1
      else if (s.laneMarked b d n).rd (seamRole b) = 1 ∧ (s.laneMarked b d n).rd (seamStandby b) ≠ 0x7F
        then (s.laneMarked b d n).wr (seamState b) 3
      else (s.laneMarked b d n).wr (seamState b) 2).seamRecord b := by
    simp [State.seamFail, State.laneMarked, SeamDir.mark, State.seamInUse, hn, hbad, huse]
  simp only [hfail, hstate, hrole, hstandby, hfeature, Bool.and_eq_true, hspare, ne_eq, not_true_eq_false, if_false, State.holdFor]
  split_ifs <;> rfl

theorem holdFor_lt (s : State) (b d n : Nat) : s.holdFor b d n < 8 := by
  unfold State.holdFor
  split_ifs <;> decide

/-- A lane that fails on a running bundle is marked. -/
theorem laneMarked_seamFail (hn : n < 68) (h0 : s.rd (seamState b) = 0) (hbad : n ∉ ((s.seam b).dir d).bad) :
    LaneMarked b d n s (s.seamFail b d n) := by
  by_cases huse : n ∈ s.seamUse b d
  · rw [seamFail_used hn h0 hbad huse]
    refine ⟨?_, ?_, fun h => absurd huse h, fun _ => ⟨?_, ?_⟩⟩
    · rw [seam_seamRecord, State.seam_wr, dir_laneMarked]; rfl
    · rw [rd_seamRecord, rd_wr_other _ _ (by simp [seamFails, seamState]), rd_laneMarked_fails]
    · rw [seam_seamRecord, State.seam_wr, seam_laneMarked]; exact if_pos huse
    · rw [rd_seamRecord, rd_wr_same _ _ _ (by simp [seamState])]; exact Nat.mod_eq_of_lt (holdFor_lt s b d n)
  · rw [seamFail_unused hn hbad huse]
    have hkeep : ∀ f : Fld, f.a = seamB b 0 ∨ f.a = seamB b 0x2C →
        ((s.laneMarked b d n).setSeamUse b d (s.seamUse b d)).rd f = (s.laneMarked b d n).rd f := fun f hf =>
      rd_setSeamUse _ _ d.isLt (by simp only [seamB] at hf ⊢; omega)
    refine ⟨?_, ?_, fun _ => ⟨?_, ?_⟩, fun h => absurd h huse⟩
    · rw [seam_seamRecord, seam_setSeamUse, dir_laneMarked]; rfl
    · rw [rd_seamRecord, hkeep _ (.inr rfl), rd_laneMarked_fails]
    · rw [rd_seamRecord, hkeep _ (.inl rfl), rd_laneMarked (by simp [seamState]), h0]
    · rw [seam_seamRecord, seam_setSeamUse, seam_laneMarked]; exact if_neg huse

/-- A bad flit that blames the lane changes nothing of what its marking says. -/
theorem LaneMarked.afterFlit {u : State} (h : LaneMarked b d n (s.flitFailed b d n) u) : LaneMarked b d n s u := by
  have hdir := dir_flitFailed s b d n
  have huse := seamUse_flitFailed s b d n
  have hdue : ((s.flitFailed b d n).seam b).due = (s.seam b).due := by rw [seam_flitFailed, Seam.setDir_due]
  have hhold : (s.flitFailed b d n).holdFor b d n = s.holdFor b d n := by
    have hrole := rd_flitFailed s b d n (f := seamRole b) (by simp [seamRole])
    have hstandby := rd_flitFailed s b d n (f := seamStandby b) (by simp [seamStandby])
    have hfeature := rd_flitFailed s b d n (f := seamFeatures) (by simp only [seamFeatures, seamB]; omega)
    simp only [State.holdFor, State.seamFeature, hrole, hstandby, hfeature, hdir, huse]
    rfl
  obtain ⟨hbad, hfails, hunused, hused⟩ := h
  rw [hdir] at hbad
  rw [rd_flitFailed s b d n (by simp [seamFails])] at hfails
  rw [huse, hdue] at hunused hused
  rw [hhold] at hused
  exact ⟨hbad, hfails, hunused, hused⟩

end Mark

end Sys2Proof.Machine
end

section
/-! SUPPORT. What the end of a hold does beside the bundle's own words: counters and records of other units, and held Sync packets that leave
(R240, R335, R340). -/
namespace Sys2Proof.Machine

theorem OnlyRegs.sameMemory {as : List Nat} {s u : State} (h : OnlyRegs as s u) : SameMemory s u := by
  rw [h.2]
  exact ⟨rfl, rfl, rfl, rfl, rfl⟩

/-- The words of other units that the end of a retraining may change: FLT.REPLACE, STAT.PLAN and what packets that leave count. -/
def SideWord (a : Nat) : Prop := a = 0x100010 ∨ (0x4A000 ≤ a ∧ a ≤ 0x4A014) ∨ FanWord a

theorem SideWord.bounds {a : Nat} (h : SideWord a) : a < 0x101000 ∨ (0x290000 ≤ a ∧ a < 0x300000) ∨ 0x400000 ≤ a := by
  rcases h with rfl | h | h
  · exact .inl (by decide)
  · omega
  · have := h.bounds
    omega

/-- No word of a bundle is one of them, not even where STANDBY names none of the package's. -/
theorem not_sideWord_seamB {b off : Nat} (hb : b < 128) (hoff : off < 0x40) : ¬ SideWord (seamB b off) := fun h => by
  have := h.bounds
  simp only [seamB] at this
  omega

/-- State `u` is state `s` with other units told: only side words differ, no fault and no signal is lost, and the bundles and the memories are
the same. -/
structure Told (s u : State) : Prop where
  reg : ∀ a, ¬ SideWord a → u.reg a = s.reg a
  seams : u.seams = s.seams
  gathered : s.gathered ⊆ u.gathered
  aplic : s.aplic ⊆ u.aplic
  mem : SameMemory s u

namespace Told
variable {s t u : State}

theorem refl (s : State) : Told s s := ⟨fun _ _ => rfl, rfl, List.Subset.refl _, List.Subset.refl _, rfl, rfl, rfl, rfl, rfl⟩

theorem trans (h : Told s t) (k : Told t u) : Told s u where
  reg a ha := (k.reg a ha).trans (h.reg a ha)
  seams := k.seams.trans h.seams
  gathered := List.Subset.trans h.gathered k.gathered
  aplic := List.Subset.trans h.aplic k.aplic
  mem := sameMemory_trans h.mem k.mem

theorem rd (h : Told s u) {f : Fld} (hf : ¬ SideWord f.a) : u.rd f = s.rd f := by rw [State.rd, h.reg _ hf]; rfl

theorem seam (h : Told s u) (b : Nat) : u.seam b = s.seam b := by rw [State.seam, h.seams]; rfl

/-! Steps. -/

theorem wr {f : Fld} (hf : SideWord f.a) (v : Nat) : Told s (s.wr f v) :=
  ⟨fun _ ha => reg_wr_other s v fun e => ha (e ▸ hf), rfl, List.Subset.refl _, List.Subset.refl _, rfl, rfl, rfl, rfl, rfl⟩

theorem raise (c k i : Nat) (d : List Byte) : Told s (s.raise c k i d) :=
  ⟨fun _ _ => rfl, rfl, List.subset_append_left _ _, List.Subset.refl _, rfl, rfl, rfl, rfl, rfl⟩

theorem aplicSignal (n : Nat) : Told s (s.aplicSignal n) where
  reg _ _ := rfl
  seams := rfl
  gathered := List.Subset.refl _
  aplic := by
    show s.aplic ⊆ if n ∈ s.aplic then s.aplic else s.aplic ++ [n]
    split
    · exact List.Subset.refl _
    · exact List.subset_append_left _ _
  mem := ⟨rfl, rfl, rfl, rfl, rfl⟩

theorem setReplace (i : Nat) : Told s (s.setReplace i) := by
  unfold State.setReplace
  split
  · exact refl s
  · exact (wr (.inl rfl) _).trans (raise ..)

theorem seamReplace (b : Nat) : Told s (s.seamReplace b) := by
  unfold State.seamReplace
  split
  · exact setReplace 1
  · exact refl s

theorem condChange (s : State) : Told s s.condChange := wr (.inr (.inl (by simp [plnCondGen]))) _

/-- The running plan's record. -/
theorem planRun (r : Option PRun) : Told s { s with planRun := r } :=
  ⟨fun _ _ => rfl, rfl, List.Subset.refl _, List.Subset.refl _, rfl, rfl, rfl, rfl, rfl⟩

/-- A write on its way to its home. -/
theorem homeQ (q : List HomeWrite) : Told s { s with homeQ := q } :=
  ⟨fun _ _ => rfl, rfl, List.Subset.refl _, List.Subset.refl _, rfl, rfl, rfl, rfl, rfl⟩

theorem ite {p : Prop} [Decidable p] (ht : Told s t) (hf : Told s u) : Told s (if p then t else u) := by
  split
  · exact ht
  · exact hf

/-- An event of the plan, but for a late end. -/
theorem planEvent {kind : Nat} (hk : kind ≠ 1) (step period late causes unit : Nat) : Told s (s.planEvent kind step period late causes unit) := by
  unfold State.planEvent
  split
  · exact refl s
  · have hhead : SideWord plnEvHead.a := .inr (.inl (by simp [plnEvHead]))
    have hlost : SideWord plnEvLost.a := .inr (.inl (by simp [plnEvLost]))
    simp only [hk, false_and, false_or, if_false]
    refine Told.trans ?_ (ite (aplicSignal 5) (refl _))
    exact (planRun _).trans (ite ((homeQ _).trans (wr hhead _)) (wr hlost _))

theorem loseGuarantee (bit unit : Nat) (uses : Plan → Bool) : Told s (s.loseGuarantee bit unit uses) := by
  have hplan : ∀ f ∈ [plnSuspend, plnGuarantee], SideWord f.a := by simp [SideWord, plnSuspend, plnGuarantee]
  unfold State.loseGuarantee
  split
  · exact refl s
  split
  · dsimp only
    refine Told.trans ?_ (ite ((wr (hplan plnGuarantee (by simp)) _).trans (planEvent (by decide) ..)) (refl _))
    exact (planRun _).trans (wr (hplan plnSuspend (by simp)) _)
  · exact refl s

theorem fabSend (p : Nat) (k : Packet) : Told s (s.fabSend p k) where
  reg a ha := (Fanned.fabSend p k).reg a fun h => ha (.inr (.inr h))
  seams := by rw [(Fanned.fabSend p k).rest]
  gathered := by rw [State.fabSend_gathered]; exact List.Subset.refl _
  aplic := by rw [State.fabSend_aplic]; exact List.Subset.refl _
  mem := (Fanned.fabSend p k).sameMemory

/-- Told of one after another. -/
theorem foldl {α : Type} {f : State → α → State} (hf : ∀ s x, Told s (f s x)) (xs : List α) (s : State) : Told s (xs.foldl f s) := by
  induction xs generalizing s with
  | nil => exact refl s
  | cons x xs ih => exact (hf s x).trans (ih (f s x))

theorem releaseSync (s : State) : Told s s.releaseSync := by
  have hheld : Told s { s with syncHeld := s.syncHeld.filter fun q => s.legHeld (5 + q.1 / 8) } :=
    ⟨fun _ _ => rfl, rfl, List.Subset.refl _, List.Subset.refl _, rfl, rfl, rfl, rfl, rfl⟩
  exact hheld.trans (foldl (fun _ _ => fabSend _ _) _ _)

end Told

/-- Sync packets that leave raise no fault. -/
theorem releaseSync_gathered (s : State) : s.releaseSync.gathered = s.gathered := by
  have hsends : ∀ (qs : List (Nat × Packet)) (s : State), (qs.foldl (fun s q => s.fabSend q.1 q.2) s).gathered = s.gathered := fun qs => by
    induction qs with
    | nil => exact fun _ => rfl
    | cons q qs ih => exact fun s => (ih _).trans (State.fabSend_gathered s _ _)
  exact hsends _ _

/-- Where no Sync packet waits for a control bundle, none leaves. -/
theorem releaseSync_of_none {s : State} (h : s.syncHeld = []) : s.releaseSync = s := by
  have hsame : ({ s with syncHeld := [] } : State) = s := by rw [← h]
  simp only [State.releaseSync, h, List.filter_nil, List.foldl_nil, hsame]

end Sys2Proof.Machine
end

section
/-! SUPPORT. The ends of a hold: a repair by a spare lane, a retraining, and a takeover of the control role (R338 to R342). -/
namespace Sys2Proof.Machine

/-! What each command is. -/

theorem exec_seamLaneRepairComplete (b : BundleId) (s : State) : exec (.seamLaneRepairComplete b) s = execSeamLaneRepairComplete b s := rfl

theorem exec_seamRetrainComplete (b : BundleId) (s : State) : exec (.seamRetrainComplete b) s = execSeamRetrainComplete b s := rfl

theorem exec_seamControlTakeover (b : BundleId) (s : State) : exec (.seamControlTakeover b) s = execSeamControlTakeover b s := rfl

/-! A repair (R338). -/

/-- The state with the traffic of lane `x` on lane `m`. -/
def State.laneMoved (s : State) (b d x m : Nat) : State := s.setSeamUse b d ((s.seamUse b d).filter (· ≠ x) ++ [m])

section Repair
variable {s : State} {b d x m : Nat}

/-- The one lane due is moved to the lowest free usable lane. -/
theorem seamRepair_single (hx : x < 68) (hdue : (s.seam b).due = [(d, x)]) (hm : m ∈ ((s.seam b).dir d).usable) (hfree : m ∉ s.seamUse b d)
    (hlow : ∀ k ∈ ((s.seam b).dir d).usable, k ∉ s.seamUse b d → m ≤ k) :
    s.seamRepair b (s.seam b).due = ((s.laneMoved b d x m).setSeam b { s.seam b with due := [] }).raise 0x0500 7 b [] := by
  have hspare : s.seamSpare b d x = true := by
    simp only [State.seamSpare, hx, if_true, List.any_eq_true]
    exact ⟨m, hm, by simpa using hfree⟩
  simp [State.seamRepair, hdue, hspare, hx, SeamDir.find_free hm hfree hlow, State.laneMoved]

theorem seamUse_laneMoved_same (hd : d < 2) (hm : m ∈ ((s.seam b).dir d).usable) (hfree : m ∉ s.seamUse b d) (k : Nat) :
    k ∈ (s.laneMoved b d x m).seamUse b d ↔ k = m ∨ (k ∈ s.seamUse b d ∧ k ≠ x) := by
  have hmlt := SeamDir.lt_of_mem_usable hm
  have hlt : ∀ n ∈ (s.seamUse b d).filter (· ≠ x) ++ [m], n < 68 := fun n hn => by
    rcases List.mem_append.1 hn with h | h
    · exact State.lt_of_mem_seamUse (List.mem_of_mem_filter h)
    · rwa [List.mem_singleton.1 h]
  have hnodup : ((s.seamUse b d).filter (· ≠ x) ++ [m]).Nodup :=
    List.nodup_append.2 ⟨(s.nodup_seamUse b d).filter _, List.nodup_singleton m, fun n hn k hk e =>
      hfree (List.mem_singleton.1 hk ▸ e ▸ List.mem_of_mem_filter hn)⟩
  have hmem : k ∈ (s.laneMoved b d x m).seamUse b d ↔ k ∈ (s.seamUse b d).filter (· ≠ x) ++ [m] := by
    rw [State.laneMoved, seamUse_setSeamUse_same s b hd hnodup hlt, List.mem_filter, List.mem_range, decide_eq_true_eq, and_iff_right_iff_imp]
    exact hlt k
  rw [hmem, List.mem_append, List.mem_singleton, List.mem_filter, decide_eq_true_eq, or_comm]

end Repair

/-- The lanes in use do not depend on which other units have been told. -/
theorem Told.seamUse {s u : State} (h : Told s u) {b d : Nat} (hb : b < 128) (hd : d < 2) : u.seamUse b d = s.seamUse b d :=
  seamUse_congr hd fun _ _ hoff => h.reg _ (not_sideWord_seamB hb (by omega))

/-- A repair of one lane by a spare ends the hold. -/
theorem exec_seamLaneRepairComplete_single {b : BundleId} {d : Fin 2} {x m : Nat} {s : State} (h1 : s.rd (seamState b) = 1)
    (hover : s.takesOver b = false) (hdue : (s.seam b).due = [(d.val, x)]) (hx : x < 68) (hm : m ∈ ((s.seam b).dir d).usable)
    (hfree : m ∉ s.seamUse b d) (hlow : ∀ k ∈ ((s.seam b).dir d).usable, k ∉ s.seamUse b d → m ≤ k) :
    ∃ v : State, exec (.seamLaneRepairComplete b) s = .next (v.wr (seamState b) 0).releaseSync ∧ (v.seam b).due = [] ∧
      (∀ e, v.seamUse b e = (s.laneMoved b d x m).seamUse b e) ∧
      ∃ f, v.gathered = s.gathered ++ [f] ∧ f.code = 0x0500 ∧ f.kind = 7 ∧ f.index = (b : Nat) := by
  refine ⟨(((s.laneMoved b d x m).setSeam b { s.seam b with due := [] }).raise 0x0500 7 b []).seamRecord b, ?_, ?_, fun e => ?_, ?_⟩
  · rw [exec_seamLaneRepairComplete, execSeamLaneRepairComplete, seamRepair_single hx hdue hm hfree hlow, if_neg (by simp [h1, hover])]
    simp
  · simp
  · rw [seamUse_seamRecord, seamUse_raise, seamUse_setSeam]
  · have hg : (s.laneMoved b d x m).gathered = s.gathered := (onlyRegs_setSeamUse s b d _).gathered
    obtain ⟨f, hf, hcode, -, hkind, hindex, -⟩ := ((s.laneMoved b d x m).setSeam b { s.seam b with due := [] }).raise_gathered 0x0500 7 b []
    refine ⟨f, ?_, hcode, hkind, hindex⟩
    rw [seamRecord_gathered, hf, State.setSeam_gathered, hg]

/-! A retraining (R339, R340, R342). -/

/-- The bundle at width `w` on its lowest usable lanes, running or down, with nothing due (R339). -/
def State.retrained (s : State) (b w : Nat) : State :=
  (((s.setSeam b { s.seam b with due := [] }).seamSettle b w).wr (seamState b) (if w = 0 then 4 else 0)).seamRecord b

section Retrained
variable (s : State) (b w : Nat)

theorem seam_retrained : (s.retrained b w).seam b = { s.seam b with due := [] } := by
  simp [State.retrained, State.seamRecord, State.seamSettle]

/-- What the settling leaves of the bundle's first word is what WIDTH leaves. -/
theorem rd_seamSettle {f : Fld} (hf : f.a < seamB b 8) : (s.seamSettle b w).rd f = (s.wr (seamWidth b) w).rd f := by
  unfold State.seamSettle
  rw [rd_setSeamUse _ _ (by decide) (.inl hf), rd_setSeamUse _ _ (by decide) (.inl hf)]

theorem rd_retrained {f : Fld} (ha : f.a < seamB b 8) (hs : (seamState b).Apart f) (hw : (seamWidth b).Apart f) :
    (s.retrained b w).rd f = s.rd f := by
  unfold State.retrained
  rw [rd_seamRecord, rd_wr_of_apart _ _ (by simp [seamState]) hs, rd_seamSettle _ b w ha, rd_wr_of_apart _ _ (by simp [seamWidth]) hw,
    State.rd_setSeam]

theorem rd_retrained_state : (s.retrained b w).rd (seamState b) = if w = 0 then 4 else 0 := by
  unfold State.retrained
  rw [rd_seamRecord, rd_wr_same _ _ _ (by simp [seamState])]
  show (if w = 0 then 4 else 0) % 8 = _
  split_ifs <;> rfl

theorem rd_retrained_width (h : w < 4) : (s.retrained b w).rd (seamWidth b) = w := by
  have hapart : (seamState b).Apart (seamWidth b) := .inr (.inl (by simp [seamWidth, seamState]))
  unfold State.retrained
  rw [rd_seamRecord, rd_wr_of_apart _ _ (by simp [seamState]) hapart, rd_seamSettle _ b w (by simp [seamWidth, seamB]),
    rd_wr_same _ _ _ (by simp [seamWidth])]
  exact Nat.mod_eq_of_lt h

theorem seamUse_retrained {d : Nat} (hd : d < 2) : (s.retrained b w).seamUse b d = ((s.seam b).dir d).usable.take (widthLanes w) := by
  have hasc : ∀ y : SeamDir, (y.usable.take (widthLanes w)).Pairwise (· < ·) := fun y => y.usable_ascends.sublist (List.take_sublist _ _)
  have hlt : ∀ (y : SeamDir), ∀ n ∈ y.usable.take (widthLanes w), n < 68 := fun y n hn => SeamDir.lt_of_mem_usable (List.mem_of_mem_take hn)
  unfold State.retrained State.seamSettle
  rw [seamUse_seamRecord, seamUse_wr _ _ hd (.inl (by simp [seamState, seamB]))]
  obtain rfl | rfl : d = 0 ∨ d = 1 := by omega
  · rw [seamUse_setSeamUse_other _ b (by decide) (by decide), seamUse_setSeamUse_ascending _ b (by decide) (hasc _) (hlt _)]
    simp [Seam.dir]
  · rw [seamUse_setSeamUse_ascending _ b (by decide) (hasc _) (hlt _)]
    simp [Seam.dir]

theorem sameMemory_seamSettle : SameMemory s (s.seamSettle b w) := by
  unfold State.seamSettle
  exact sameMemory_trans (onlyRegs_wr s (seamWidth b) w).sameMemory
    (sameMemory_trans (onlyRegs_setSeamUse _ b 0 _).sameMemory (onlyRegs_setSeamUse _ b 1 _).sameMemory)

theorem sameMemory_retrained : SameMemory s (s.retrained b w) := by
  have hrecord : ∀ t : State, SameMemory t (t.seamRecord b) := fun t => ⟨rfl, rfl, rfl, rfl, rfl⟩
  have hdue : SameMemory s (s.setSeam b { s.seam b with due := [] }) := ⟨rfl, rfl, rfl, rfl, rfl⟩
  unfold State.retrained
  exact sameMemory_trans (sameMemory_trans hdue (sameMemory_seamSettle _ b w))
    (sameMemory_trans (onlyRegs_wr _ (seamState b) _).sameMemory (hrecord _))

end Retrained

/-- What a retraining to width `w` tells: a fault for each of the `n` lanes and clocks due, the signal, and a changed width (R335, R340). -/
def State.retrainTold (s : State) (b old w n : Nat) : State :=
  let t := ((List.range (max 1 n)).foldl
    (fun s _ => s.raise (if w = 0 then 0x0502 else 0x0501) 7 b (detailOf [(1, b), (1, old), (1, w)])) s).aplicSignal 7
  if w = old then t else ((t.loseGuarantee 4 b fun q => q.usesPair b).condChange).seamReplace b

/-- A bundle that went down is offline, and has no role (R339). -/
def State.seamDown (s : State) (b w : Nat) : State := if w = 0 then (s.wr (offlineFld 7 b) 1).wr (seamRole b) 3 else s

section SeamDown
variable (s : State) (b w : Nat)

theorem offlineFld_bundle_bounds {b : Nat} (hb : b < 128) : 0x103000 ≤ (offlineFld 7 b).a ∧ (offlineFld 7 b).a < 0x104000 := by
  simp [offlineFld]; omega

theorem rd_seamDown {b : Nat} (hb : b < 128) {f : Fld} (hf : 0x300000 ≤ f.a) (hrole : (seamRole b).Apart f) :
    (s.seamDown b w).rd f = s.rd f := by
  have hoff := offlineFld_bundle_bounds hb
  unfold State.seamDown
  split
  · rw [rd_wr_of_apart _ _ (by simp [seamRole]) hrole, rd_wr_other _ _ (by omega)]
  · rfl

theorem seamUse_seamDown {b d : Nat} (hb : b < 128) (hd : d < 2) : (s.seamDown b w).seamUse b d = s.seamUse b d := by
  have hoff := offlineFld_bundle_bounds hb
  unfold State.seamDown
  split
  · rw [seamUse_wr _ _ hd (.inl (by simp [seamRole, seamB])), seamUse_wr _ _ hd (.inl (by simp only [seamB]; omega))]
  · rfl

/-- Only registers change. -/
theorem seamDown_rest : s.seamDown b w = { s with regs := (s.seamDown b w).regs } := by
  unfold State.seamDown
  split <;> rfl

/-- A bundle that is down has no role and is offline. -/
theorem seamDown_zero {b : Nat} (hb : b < 128) : (s.seamDown b 0).rd (seamRole b) = 3 ∧ (s.seamDown b 0).offline 7 b := by
  have hoff := offlineFld_bundle_bounds hb
  have hbit : (offlineFld 7 b).lo + (offlineFld 7 b).w ≤ 32 := by simp only [offlineFld]; omega
  refine ⟨rd_wr_same _ (seamRole b) 3 (by simp [seamRole]), ?_⟩
  show (State.on ((s.wr (offlineFld 7 b) 1).wr (seamRole b) 3) (offlineFld 7 b)) = true
  rw [on_wr_other _ _ (by simp only [seamRole, seamB]; omega), on_wr_same _ _ _ hbit]
  rfl

end SeamDown

section RetrainTold
variable (s : State) (b old w n : Nat)

theorem retrainTold_told : Told s (s.retrainTold b old w n) :=
  ((Told.foldl (fun _ _ => .raise ..) _ s).trans (.aplicSignal 7)).trans
    (.ite (.refl _) (((Told.loseGuarantee ..).trans (.condChange _)).trans (.seamReplace b)))

theorem mem_aplicSignal (s : State) (k : Nat) : k ∈ (s.aplicSignal k).aplic := by
  show k ∈ if k ∈ s.aplic then s.aplic else s.aplic ++ [k]
  split_ifs with h
  · exact h
  · simp

/-- The signal and the last of the faults. -/
theorem retrainTold_reports : 7 ∈ (s.retrainTold b old w n).aplic ∧
    ∃ f ∈ (s.retrainTold b old w n).gathered, f.code = (if w = 0 then 0x0502 else 0x0501) ∧ f.kind = 7 ∧ f.index = b := by
  obtain ⟨k, hk⟩ : ∃ k, max 1 n = k + 1 := ⟨max 1 n - 1, by omega⟩
  unfold State.retrainTold
  rw [hk, List.range_succ, List.foldl_append]
  set r := (List.range k).foldl (fun s _ => s.raise (if w = 0 then 0x0502 else 0x0501) 7 b (detailOf [(1, b), (1, old), (1, w)])) s
  obtain ⟨f, hf, hcode, -, hkind, hindex, -⟩ := r.raise_gathered (if w = 0 then 0x0502 else 0x0501) 7 b (detailOf [(1, b), (1, old), (1, w)])
  have hlater : Told ((r.raise (if w = 0 then 0x0502 else 0x0501) 7 b (detailOf [(1, b), (1, old), (1, w)])).aplicSignal 7) _ :=
    .ite (p := w = old) (.refl _) (((Told.loseGuarantee 4 b fun q => q.usesPair b).trans (.condChange _)).trans (.seamReplace b))
  exact ⟨hlater.aplic (mem_aplicSignal _ 7), f, hlater.gathered (show f ∈ State.gathered (r.raise ..) by rw [hf]; simp), hcode, hkind, hindex⟩

end RetrainTold

/-- The state of a retraining but for the record of a control bundle and the Sync packets that leave. -/
def State.retrainEnd (s : State) (b old w : Nat) : State :=
  ((s.retrained b w).retrainTold b old w (s.seam b).due.length).seamDown b w

/-- What a retraining raises more for a control bundle that has no standby (R342). -/
def State.controlTold (s : State) (control : Bool) (b old w : Nat) : State :=
  if control && decide (w = 0) then s.raise 0x0505 7 b [] else if control && decide (w < old) then s.raise 0x0504 7 b [] else s

theorem controlTold_told (s : State) (control : Bool) (b old w : Nat) : Told s (s.controlTold control b old w) :=
  .ite (.raise ..) (.ite (.raise ..) (.refl s))

/-- A raised fault is among those gathered. -/
theorem mem_raise (s : State) (c k i : Nat) (d : List Byte) : ∃ f ∈ (s.raise c k i d).gathered, f.code = c ∧ f.index = i := by
  obtain ⟨f, hf, hcode, -, -, hindex, -⟩ := s.raise_gathered c k i d
  exact ⟨f, by simp [hf], hcode, hindex⟩

theorem controlTold_faults (s : State) (b old w : Nat) :
    (w = 0 → ∃ f ∈ (s.controlTold true b old w).gathered, f.code = 0x0505 ∧ f.index = b) ∧
    (0 < w → w < old → ∃ f ∈ (s.controlTold true b old w).gathered, f.code = 0x0504 ∧ f.index = b) := by
  refine ⟨fun hw => ?_, fun hw hlt => ?_⟩
  · rw [State.controlTold, if_pos (by simp [hw])]
    exact mem_raise s 0x0505 7 b []
  · rw [State.controlTold, if_neg (by simp; omega), if_pos (by simp [hlt])]
    exact mem_raise s 0x0504 7 b []

/-- A retraining comes to its end, then to what a control bundle raises, and Sync packets leave. -/
theorem exec_seamRetrainComplete_end {b : BundleId} {s : State} {old w : Nat} {control : Bool} (h2 : s.rd (seamState b) = 2)
    (hover : s.takesOver b = false) (hold : old = s.rd (seamWidth b)) (hw : w = min old ((s.seam b).allowed (s.seamFeature 0)))
    (hcontrol : control = (decide (s.rd (seamRole b) = 1) && decide (s.rd (seamStandby b) = 0x7F))) :
    exec (.seamRetrainComplete b) s = .next ((s.retrainEnd b old w).controlTold control b old w).releaseSync := by
  have hrole : (s.retrained b w).rd (seamRole b) = s.rd (seamRole b) :=
    rd_retrained s b w (by simp [seamRole, seamB]) (by simp [Fld.Apart, seamRole, seamState]) (by simp [Fld.Apart, seamRole, seamWidth])
  have hstandby : (s.retrained b w).rd (seamStandby b) = s.rd (seamStandby b) :=
    rd_retrained s b w (by simp [seamStandby, seamB]) (by simp [Fld.Apart, seamStandby, seamState])
      (by simp [Fld.Apart, seamStandby, seamWidth])
  rw [exec_seamRetrainComplete, execSeamRetrainComplete, if_neg (by simp [h2, hover])]
  dsimp only
  rw [← hold, ← hw]
  change (let r := s.retrained b w
    let v := r.retrainTold b old w (s.seam b).due.length
    let x := if w = 0 then v.wr (offlineFld 7 b) 1 else v
    let control := decide (r.rd (seamRole b) = 1) && decide (r.rd (seamStandby b) = 0x7F)
    if control && decide (w = 0) then Host.Outcome.next ((x.wr (seamRole b) 3).raise 0x0505 7 b []).releaseSync
    else if control && decide (w < old) then .next (x.raise 0x0504 7 b []).releaseSync
    else .next (if w = 0 then x.wr (seamRole b) 3 else x).releaseSync) = _
  dsimp only
  rw [hrole, hstandby, ← hcontrol]
  unfold State.retrainEnd State.controlTold State.seamDown
  by_cases hw0 : w = 0
  · cases control <;> simp only [hw0, if_true, decide_true, Bool.and_true, Bool.false_and, Bool.false_eq_true, if_false]
  · cases control <;> simp only [hw0, if_false, decide_false, Bool.and_false, Bool.false_and, Bool.true_and, Bool.false_eq_true]
    split_ifs <;> rfl

/-! A takeover (R341, R342). -/

/-- The control role with the standby `y`, and the takeover counted. -/
def State.roleMoved (s : State) (b y : Nat) : State :=
  ((((s.wr (seamRole y) 1).wr (seamStandby y) 0x7F).wr (seamRole b) 0).wr (seamStandby b) 0x7F).bump (seamTakeovers b)

section RoleMoved
variable (s : State) {b y : Nat}

theorem rd_roleMoved_standby (h : y ≠ b) : (s.roleMoved b y).rd (seamRole y) = 1 ∧ (s.roleMoved b y).rd (seamStandby y) = 0x7F := by
  have hword : ∀ off, off < 0x40 → seamB y 0 ≠ seamB b off := fun off hoff => seamB_ne_of_bundle_ne h (by decide) hoff
  have hkeep : ∀ f : Fld, f.a = seamB y 0 → (s.roleMoved b y).rd f = ((s.wr (seamRole y) 1).wr (seamStandby y) 0x7F).rd f := fun f hf => by
    have hne : ∀ off, off < 0x40 → f.a ≠ seamB b off := fun off hoff => hf ▸ hword off hoff
    exact ((rd_wr_other _ _ (hne 0x2C (by decide))).trans (rd_wr_other _ _ (hne 0 (by decide)))).trans (rd_wr_other _ _ (hne 0 (by decide)))
  refine ⟨(hkeep (seamRole y) rfl).trans ?_, (hkeep (seamStandby y) rfl).trans ?_⟩
  · rw [rd_wr_of_apart _ _ (by simp [seamStandby]) (.inr (.inl (by simp [seamRole, seamStandby]))), rd_wr_same _ _ _ (by simp [seamRole])]
    rfl
  · rw [rd_wr_same _ _ _ (by simp [seamStandby])]
    rfl

theorem rd_roleMoved_old : (s.roleMoved b y).rd (seamRole b) = 0 ∧ (s.roleMoved b y).rd (seamStandby b) = 0x7F := by
  unfold State.roleMoved State.bump State.bumpBy
  refine ⟨?_, ?_⟩
  · rw [rd_wr_other _ _ (by simp [seamRole, seamTakeovers]),
      rd_wr_of_apart _ _ (by simp [seamStandby]) (.inr (.inl (by simp [seamRole, seamStandby]))), rd_wr_same _ _ _ (by simp [seamRole])]
    rfl
  · rw [rd_wr_other _ _ (by simp [seamStandby, seamTakeovers]), rd_wr_same _ _ _ (by simp [seamStandby])]
    rfl

theorem rd_roleMoved_takeovers (h : y ≠ b) : (s.roleMoved b y).rd (seamTakeovers b) = min (s.rd (seamTakeovers b) + 1) 255 := by
  have hy : seamB b 0x2C ≠ seamB y 0 := seamB_ne_of_bundle_ne h.symm (by decide) (by decide)
  have hb : seamB b 0x2C ≠ seamB b 0 := by simp
  unfold State.roleMoved
  rw [rd_bump _ _ (by simp [seamTakeovers]), rd_wr_other _ _ hb, rd_wr_other _ _ hb, rd_wr_other _ _ hy, rd_wr_other _ _ hy]
  rfl

theorem onlyRegs_roleMoved (b y : Nat) : OnlyRegs [seamB b 0, seamB y 0, seamB b 0x2C] s (s.roleMoved b y) := by
  have hwr : ∀ (t : State) (f : Fld) (v : Nat), f.a ∈ [seamB b 0, seamB y 0, seamB b 0x2C] →
      OnlyRegs [seamB b 0, seamB y 0, seamB b 0x2C] t (t.wr f v) := fun t f v hf =>
    (onlyRegs_wr t f v).mono fun a ha => List.mem_singleton.1 ha ▸ hf
  have hb : seamB b 0 ∈ [seamB b 0, seamB y 0, seamB b 0x2C] := List.mem_cons_self
  have hy : seamB y 0 ∈ [seamB b 0, seamB y 0, seamB b 0x2C] := List.mem_cons_of_mem _ List.mem_cons_self
  exact ((((hwr _ (seamRole y) _ hy).trans (hwr _ (seamStandby y) _ hy)).trans (hwr _ (seamRole b) _ hb)).trans
    (hwr _ (seamStandby b) _ hb)).trans (hwr _ (seamTakeovers b) _ (List.mem_cons_of_mem _ (List.mem_cons_of_mem _ List.mem_cons_self)))

end RoleMoved

/-- A takeover that no Sync packet waits for. -/
theorem exec_seamControlTakeover_moves {b : BundleId} {s : State} (h3 : s.rd (seamState b) = 3) (hsync : s.syncHeld = [])
    (hup : s.rd (seamState (s.rd (seamStandby b))) ≠ 4) : exec (.seamControlTakeover b) s =
      .next (((s.roleMoved b (s.rd (seamStandby b))).raise 0x0503 7 b []).wr (seamState b) 2) := by
  have hnone : (s.roleMoved b (s.rd (seamStandby b))).syncHeld = [] := by rw [(onlyRegs_roleMoved s b _).2]; exact hsync
  have hrelease := releaseSync_of_none (s := ((s.roleMoved b (s.rd (seamStandby b))).raise 0x0503 7 b []).wr (seamState b) 2)
    (by rw [State.wr_syncHeld, State.raise_syncHeld, hnone])
  rw [exec_seamControlTakeover, execSeamControlTakeover, if_neg (not_not_intro h3)]
  dsimp only
  rw [if_neg hup]
  exact congrArg Host.Outcome.next hrelease

/-- A standby that is down takes nothing over. -/
theorem exec_seamControlTakeover_standbyDown {b : BundleId} {s : State} (h3 : s.rd (seamState b) = 3)
    (hdown : s.rd (seamState (s.rd (seamStandby b))) = 4) :
    exec (.seamControlTakeover b) s = .next ((s.wr (seamStandby b) 0x7F).wr (seamState b) 2) := by
  rw [exec_seamControlTakeover, execSeamControlTakeover, if_neg (not_not_intro h3)]
  exact if_pos hdown

end Sys2Proof.Machine
end

section
/-! Flits, failing lanes, repairs, retrainings and takeovers of a bundle; settles O41 (R331, R336 to R342). -/
namespace Sys2Proof.Machine

/-- A lane that an eighth replay blames, or that loses lock, is marked (R336, R337). -/
theorem laneMarked_of_event {b : BundleId} {d : Fin 2} {n : Fin 68} {x : Fin 71} {s : State} {c : Instr} (hx : x.val = n.val)
    (h0 : s.rd (seamState b) = 0) (hbad : n.val ∉ ((s.seam b).dir d).bad)
    (hc : c = .seamLaneLossOfLock b d x ∨ (c = .seamFlitReceive b d [n] ∧ 8 ≤ ((s.seam b).dir d).tries)) :
    ∃ u, exec c s = .next u ∧ LaneMarked b d n s u := by
  rcases hc with rfl | ⟨rfl, htries⟩
  · refine ⟨s.seamFail b d n, ?_, laneMarked_seamFail n.isLt h0 hbad⟩
    rw [exec_seamLaneLossOfLock, execSeamLaneLossOfLock, if_neg (by omega), hx]
  · refine ⟨(s.flitFailed b d n).seamFail b d n, ?_, LaneMarked.afterFlit (laneMarked_seamFail n.isLt ?_ ?_)⟩
    · rw [exec_seamFlitReceive_bad d n h0, if_pos (.inl htries)]
    · rw [rd_flitFailed s b d n (by simp [seamState])]; exact h0
    · rw [dir_flitFailed]; exact hbad

/-- A repair ends with the traffic moved and the bundle running (R338). -/
theorem repair_moves_lane {b : BundleId} {d : Fin 2} {x m : Nat} {s : State} (h1 : s.rd (seamState b) = 1)
    (hover : s.takesOver b = false) (hdue : (s.seam b).due = [(d.val, x)]) (hx : x < 68) (hm : m ∈ ((s.seam b).dir d).usable)
    (hfree : m ∉ s.seamUse b d) (hlow : ∀ k ∈ ((s.seam b).dir d).usable, k ∉ s.seamUse b d → m ≤ k) :
    ∃ u f, exec (.seamLaneRepairComplete b) s = .next u ∧ u.rd (seamState b) = 0 ∧ (u.seam b).due = [] ∧
      (∀ k, k ∈ u.seamUse b d ↔ k = m ∨ (k ∈ s.seamUse b d ∧ k ≠ x)) ∧ u.seamUse b (1 - d.val) = s.seamUse b (1 - d.val) ∧
      u.gathered = s.gathered ++ [f] ∧ f.code = 0x0500 ∧ f.kind = 7 ∧ f.index = (b : Nat) := by
  obtain ⟨v, hexec, hnone, huse, f, hf, hcode, hkind, hindex⟩ := exec_seamLaneRepairComplete_single h1 hover hdue hx hm hfree hlow
  have hb : (b : Nat) < 128 := by omega
  have htold := Told.releaseSync (v.wr (seamState b) 0)
  have hmoved : ∀ e < 2, (v.wr (seamState b) 0).releaseSync.seamUse b e = (s.laneMoved b d x m).seamUse b e := fun e he =>
    ((htold.seamUse hb he).trans (seamUse_wr v 0 he (.inl (by simp [seamState, seamB])))).trans (huse e)
  refine ⟨_, f, hexec, ?_, ?_, fun k => ?_, ?_, ?_, hcode, hkind, hindex⟩
  · exact (htold.rd (not_sideWord_seamB hb (by decide))).trans (rd_wr_same v (seamState b) 0 (by simp [seamState]))
  · exact (congrArg Seam.due (htold.seam b)).trans hnone
  · rw [hmoved d d.isLt]; exact seamUse_laneMoved_same d.isLt hm hfree k
  · rw [hmoved (1 - d.val) (by omega)]; exact seamUse_setSeamUse_other s b d.isLt (by omega) _
  · exact (releaseSync_gathered _).trans hf

/-- The width that R331 allows. -/
theorem allowed_lt (x : Seam) (w48 : Bool) : x.allowed w48 < 4 := by
  unfold Seam.allowed
  dsimp only
  split_ifs <;> decide

/-- A retraining settles on the widest width allowed and says so (R339, R340, R342). -/
theorem retrain_settles {b : BundleId} {s : State} {old w : Nat} (h2 : s.rd (seamState b) = 2) (hover : s.takesOver b = false)
    (hold : old = s.rd (seamWidth b)) (hw : w = min old ((s.seam b).allowed (s.seamFeature 0))) :
    ∃ u, exec (.seamRetrainComplete b) s = .next u ∧ u.rd (seamWidth b) = w ∧ u.rd (seamState b) = (if w = 0 then 4 else 0) ∧
      (u.seam b).due = [] ∧ u.seamUse b 0 = (s.seam b).ab.usable.take (widthLanes w) ∧
      u.seamUse b 1 = (s.seam b).ba.usable.take (widthLanes w) ∧ 7 ∈ u.aplic ∧ SameMemory s u ∧
      (∃ f ∈ u.gathered, f.code = (if w = 0 then 0x0502 else 0x0501) ∧ f.kind = 7 ∧ f.index = (b : Nat)) ∧
      (w = 0 → u.rd (seamRole b) = 3 ∧ u.offline 7 b) ∧
      (s.rd (seamRole b) = 1 → s.rd (seamStandby b) = 0x7F → w = 0 → ∃ f ∈ u.gathered, f.code = 0x0505 ∧ f.index = (b : Nat)) ∧
      (s.rd (seamRole b) = 1 → s.rd (seamStandby b) = 0x7F → 0 < w → w < old → ∃ f ∈ u.gathered, f.code = 0x0504 ∧ f.index = (b : Nat)) := by
  have hb : (b : Nat) < 128 := by omega
  have hw4 : w < 4 := by have := allowed_lt (s.seam b) (s.seamFeature 0); omega
  have hexec := exec_seamRetrainComplete_end h2 hover hold hw rfl
  set control := decide (s.rd (seamRole b) = 1) && decide (s.rd (seamStandby b) = 0x7F) with hcontrol
  set v := (s.retrained b w).retrainTold b old w (s.seam b).due.length with hv
  set c := (v.seamDown b w).controlTold control b old w with hc
  have htold : Told (s.retrained b w) v := retrainTold_told ..
  have hfinal : Told (v.seamDown b w) c.releaseSync := (controlTold_told ..).trans (.releaseSync c)
  have hfield : ∀ f : Fld, f.a = seamB b 0 → (seamRole b).Apart f → c.releaseSync.rd f = (s.retrained b w).rd f := fun f hf hrole => by
    have hside : ¬ SideWord f.a := hf ▸ not_sideWord_seamB hb (by decide)
    rw [hfinal.rd hside, rd_seamDown v w hb (by simp only [hf, seamB]; omega) hrole, htold.rd hside]
  have huse : ∀ d < 2, c.releaseSync.seamUse b d = ((s.seam b).dir d).usable.take (widthLanes w) := fun d hd => by
    rw [hfinal.seamUse hb hd, seamUse_seamDown v w hb hd, htold.seamUse hb hd, seamUse_retrained s b w hd]
  obtain ⟨haplic, f, hf, hcode, hkind, hindex⟩ := retrainTold_reports (s.retrained b w) b old w (s.seam b).due.length
  rw [← hv] at haplic hf
  have hrest := seamDown_rest v b w
  have hcontrolled : s.rd (seamRole b) = 1 → s.rd (seamStandby b) = 0x7F → control = true := fun h k => by simp [hcontrol, h, k]
  refine ⟨c.releaseSync, hexec, ?_, ?_, ?_, huse 0 (by decide), huse 1 (by decide), ?_, ?_, ⟨f, ?_, hcode, hkind, hindex⟩, ?_, ?_, ?_⟩
  · rw [hfield _ rfl (.inr (.inr (by simp [seamRole, seamWidth]))), rd_retrained_width s b w hw4]
  · rw [hfield _ rfl (.inr (.inr (by simp [seamRole, seamState]))), rd_retrained_state]
  · rw [hfinal.seam, hrest]
    exact congrArg Seam.due ((htold.seam b).trans (seam_retrained s b w))
  · exact hfinal.aplic (by rw [hrest]; exact haplic)
  · have hdown : SameMemory v (v.seamDown b w) := by rw [hrest]; exact ⟨rfl, rfl, rfl, rfl, rfl⟩
    exact sameMemory_trans (sameMemory_trans (sameMemory_retrained s b w) htold.mem) (sameMemory_trans hdown hfinal.mem)
  · exact hfinal.gathered (by rw [hrest]; exact hf)
  · rintro rfl
    obtain ⟨hrole, hoffline⟩ := seamDown_zero v hb
    have hoff := offlineFld_bundle_bounds hb
    have hside : ¬ SideWord (offlineFld 7 b).a := fun h => by have := h.bounds; omega
    refine ⟨(hfinal.rd (not_sideWord_seamB hb (by decide))).trans hrole, ?_⟩
    rwa [State.offline, State.on, hfinal.rd hside]
  · intro hrole hstandby hw0
    rw [releaseSync_gathered, hc, hcontrolled hrole hstandby]
    exact (controlTold_faults _ b old w).1 hw0
  · intro hrole hstandby hw0 hlt
    rw [releaseSync_gathered, hc, hcontrolled hrole hstandby]
    exact (controlTold_faults _ b old w).2 hw0 hlt

/-- A takeover swaps the roles and has the old bundle retrain (R341). -/
theorem takeover_swaps_roles {b : BundleId} {s : State} {y : Nat} (h3 : s.rd (seamState b) = 3) (hy : y = s.rd (seamStandby b)) (hne : y ≠ b.val)
    (hsync : s.syncHeld = []) (hup : s.rd (seamState y) ≠ 4) :
    ∃ u f, exec (.seamControlTakeover b) s = .next u ∧ u.rd (seamRole y) = 1 ∧ u.rd (seamStandby y) = 0x7F ∧
      u.rd (seamRole b) = 0 ∧ u.rd (seamStandby b) = 0x7F ∧ u.rd (seamState b) = 2 ∧
      u.rd (seamTakeovers b) = min (s.rd (seamTakeovers b) + 1) 255 ∧ u.gathered = s.gathered ++ [f] ∧ f.code = 0x0503 ∧
      OnlyRegs [seamB b 0, seamB y 0, seamB b 0x2C] { s with gathered := u.gathered } u := by
  obtain ⟨f, hf, hcode, -⟩ := (s.roleMoved b y).raise_gathered 0x0503 7 b []
  obtain ⟨hroley, hstandbyy⟩ := rd_roleMoved_standby s hne
  obtain ⟨hroleb, hstandbyb⟩ := rd_roleMoved_old s (b := b) (y := y)
  have honly := onlyRegs_roleMoved s b y
  have hother : ∀ g : Fld, g.a ≠ seamB b 0 → (((s.roleMoved b y).raise 0x0503 7 b []).wr (seamState b) 2).rd g = (s.roleMoved b y).rd g :=
    fun g hg => (rd_wr_other _ 2 hg).trans (State.rd_raise _ _ _ _ _ _)
  have hword : seamB y 0 ≠ seamB b 0 := seamB_ne_of_bundle_ne hne (by decide) (by decide)
  have hsame : ∀ g : Fld, (seamState b).Apart g →
      (((s.roleMoved b y).raise 0x0503 7 b []).wr (seamState b) 2).rd g = (s.roleMoved b y).rd g :=
    fun g hg => (rd_wr_of_apart _ 2 (by simp [seamState]) hg).trans (State.rd_raise _ _ _ _ _ _)
  refine ⟨_, f, hy ▸ exec_seamControlTakeover_moves h3 hsync (hy ▸ hup), ?_, ?_, ?_, ?_, ?_, ?_, ?_, hcode, ?_⟩
  · exact (hother (seamRole y) hword).trans hroley
  · exact (hother (seamStandby y) hword).trans hstandbyy
  · exact (hsame _ (.inr (.inl (by simp [seamRole, seamState])))).trans hroleb
  · exact (hsame _ (.inr (.inr (by simp [seamStandby, seamState])))).trans hstandbyb
  · exact rd_wr_same _ (seamState b) 2 (by simp [seamState])
  · exact (hother (seamTakeovers b) (by simp [seamTakeovers])).trans (rd_roleMoved_takeovers s hne)
  · exact hf.trans (by rw [honly.gathered])
  · refine ⟨fun a ha => ?_, by rw [honly.2]; rfl⟩
    have hword : a ≠ (seamState b).a := fun e => ha (by rw [e]; exact List.mem_cons_self)
    rw [reg_wr_other _ 2 hword, State.reg_raise]
    exact (honly.reg ha).trans (by simp only [State.reg])

/-- Settles O41: flits, windows and failing lanes, then the three ends of a hold. -/
theorem seamsCountRepairNarrowAndTakeOver : Obligations.SeamsCountRepairNarrowAndTakeOver := by
  unfold Obligations.SeamsCountRepairNarrowAndTakeOver
  refine ⟨?good, ?bad, ?mark, ?window, ?repair, ?retrain, ?takeover⟩
  case good =>
    intro b d s h0
    refine ⟨_, exec_seamFlitReceive_good d h0, ?_, ?_, ?_, rfl⟩
    · rw [State.seam_setSeam_same, Seam.dir_setDir_same]
    · rw [State.seam_setSeam_same, Seam.dir_setDir_other]
    · rw [State.seam_setSeam_same, Seam.setDir_due]
  case bad =>
    intro b d n s h0 htries hcnt
    have hdir := dir_flitFailed s b d n
    refine ⟨s.flitFailed b d n, ?_, rd_flitFailed_replays s b d n, ?_, ?_, ?_, onlyRegs_flitFailed s b d n⟩
    · rw [exec_seamFlitReceive_bad d n h0, if_neg (by omega)]
    · rw [hdir]; exact if_neg (by omega)
    · rw [hdir]; rfl
    · rw [hdir]; exact lookMap_putMap_same 0 ((s.seam b).dir d).cnt n.val (lookMap 0 ((s.seam b).dir d).cnt n + 1)
  case mark =>
    rintro b d n x s c y hx h0 rfl hbad hc
    obtain ⟨u, hexec, hmark, hfails, hunused, hused⟩ := laneMarked_of_event hx h0 hbad hc
    exact ⟨u, hexec, hmark, hfails, hunused, hused⟩
  case window =>
    intro b d n s
    refine ⟨_, exec_seamLaneWindowExpiry b d n s, ?_, fun m hm => ?_, ?_, rfl⟩
    all_goals rw [State.seam_setSeam_same, Seam.dir_setDir_same]
    · exact lookMap_putMap_same 0 ((s.seam b).dir d).cnt n.val 0
    · exact lookMap_putMap_other 0 0 ((s.seam b).dir d).cnt 0 hm
  case repair =>
    exact fun b d x m s h1 hover hdue hx hm hfree hlow => repair_moves_lane h1 hover hdue hx hm hfree hlow
  case retrain =>
    exact fun b s old w h2 hover hold hw => retrain_settles h2 hover hold hw
  case takeover =>
    refine fun b s y h3 hy hne hsync => ⟨takeover_swaps_roles h3 hy hne hsync, ?_⟩
    intro hdown
    subst hy
    refine ⟨_, exec_seamControlTakeover_standbyDown h3 hdown, ?_, rd_wr_same _ (seamState b) 2 (by simp [seamState]), ?_, ?_⟩
    · rw [rd_wr_of_apart _ _ (by simp [seamState]) (.inr (.inr (by simp [seamStandby, seamState]))), rd_wr_same _ _ _ (by simp [seamStandby])]
      rfl
    · rw [rd_wr_of_apart _ _ (by simp [seamState]) (.inr (.inl (by simp [seamRole, seamState]))),
        rd_wr_of_apart _ _ (by simp [seamStandby]) (.inr (.inl (by simp [seamRole, seamStandby])))]
    · exact ((onlyRegs_wr s (seamStandby b) _).mono (by simp [seamStandby])).trans ((onlyRegs_wr _ (seamState b) _).mono (by simp [seamState]))

end Sys2Proof.Machine
end
